-- ==== Sys2Proof/Word.lean ====
section
/-!
DEFINITION. The words the VX640 computes with: 64-bit scalars, bytes, halfwords and 32-bit instruction words
(R26, R30, R86). Bits and byte order of larger objects stand in `Sys2Proof.Machine.Bits`.
-/

namespace Sys2Proof

/-- A scalar of the 64-bit datapath (R86, R87). -/
abbrev U64 := BitVec 64

/-- A 32-bit word: an instruction word (R30) or the bits of an FP32 value (R54). -/
abbrev U32 := BitVec 32

/-- A halfword (R26). -/
abbrev U16 := BitVec 16

/-- One byte of memory. -/
abbrev Byte := BitVec 8

end Sys2Proof
end

