-- ==== Sys2Proof/Machine/Bits.lean ====
section
/-!
DEFINITION. Bit fields, byte order and the helper functions of R7: fields of a word (R3, R30), little-endian
byte strings (R3), `sext`, `zext`, `wrap` and `sat`.
-/

namespace Sys2Proof.Machine

/-- The `len` bits of `w` from bit `lo` up, as a word of that width (R3). -/
abbrev fld {n : Nat} (w : BitVec n) (lo len : Nat) : BitVec len := w.extractLsb' lo len

/-- Bit `i` of `w`. -/
abbrev bitAt {n : Nat} (w : BitVec n) (i : Nat) : Bool := w.getLsbD i

/-- The bytes of `v`, `n` of them, lowest address first (R3). -/
def toBytes : Nat → Nat → List Byte
  | 0, _ => []
  | n + 1, v => BitVec.ofNat 8 v :: toBytes n (v / 256)

/-- The number a byte string holds, little-endian (R3). -/
def ofBytes : List Byte → Nat
  | [] => 0
  | b :: bs => b.toNat + 256 * ofBytes bs

/-- `n` bytes at index `i` of a byte string, as a number; bytes beyond its end count as 0. -/
def leAt (bs : List Byte) (i n : Nat) : Nat := ofBytes ((bs.drop i).take n)

/-- The byte string `bs` with `v` written over `n` bytes from index `i`. -/
def putLe (bs : List Byte) (i n v : Nat) : List Byte :=
  bs.take i ++ toBytes n v ++ bs.drop (i + n)

/-- `sext(x, n)` of R7: the low `n` bits of `x` as a signed number, in 64 bits. -/
def sext64 (x n : Nat) : U64 :=
  if x / 2 ^ (n - 1) % 2 = 1 then BitVec.ofInt 64 ((x % 2 ^ n : Nat) - (2 ^ n : Nat) : Int)
  else BitVec.ofNat 64 (x % 2 ^ n)

/-- The low `n` bits of `x` as a signed integer. -/
def signed (x n : Nat) : Int :=
  if x / 2 ^ (n - 1) % 2 = 1 then ((x % 2 ^ n : Nat) : Int) - (2 ^ n : Nat) else ((x % 2 ^ n : Nat) : Int)

/-- The low `n` bits of an integer, as a natural number: `wrap` of R7. -/
def wrapNat (x : Int) (n : Nat) : Nat := (x % (2 ^ n : Nat)).toNat

/-- `sat` of R7. -/
def satInt (x lo hi : Int) : Int := if x < lo then lo else if x > hi then hi else x

/-- The least multiple of `m` at or above `x`. -/
def roundUp (x m : Nat) : Nat := (x + m - 1) / m * m

/-- Quotient rounded up. -/
def ceilDiv (x m : Nat) : Nat := (x + m - 1) / m

/-- A word with the `len` bits from `lo` replaced by those of `v`. -/
def putBits {n : Nat} (w : BitVec n) (lo len : Nat) (v : Nat) : BitVec n :=
  BitVec.ofNat n (w.toNat - (w.toNat / 2 ^ lo % 2 ^ len) * 2 ^ lo + (v % 2 ^ len) * 2 ^ lo)

/-- How many bits of a number below `2 ^ fuel` are 1. -/
def popNat : Nat → Nat → Nat
  | 0, _ => 0
  | n + 1, x => x % 2 + popNat n (x / 2)

/-- The zeros below the lowest 1 of `x`, at most `fuel` (R89, CTZ). -/
def ctzNat : Nat → Nat → Nat
  | 0, _ => 0
  | n + 1, x => if x % 2 = 1 then 0 else 1 + ctzNat n (x / 2)

/-- The low `n` bits of `x` in reverse order (R89, BREV). -/
def revNat : Nat → Nat → Nat
  | 0, _ => 0
  | n + 1, x => (x % 2) * 2 ^ n + revNat n (x / 2)

/-- The number of bits `x` needs; 0 for 0. -/
def bitLen (x : Nat) : Nat := if x = 0 then 0 else Nat.log2 x + 1

end Sys2Proof.Machine
end

