-- ==== Sys2Proof/Syntax.lean ====
section
/-!
DEFINITION. The instructions of the VX640 and the events of its table of steps: one constructor for every row
of the opcode table. Operand classes follow R31 to R33: a scalar source is an age or a named register, a
scalar destination is the queue alone or a named register as well, and every narrow field has the width of
its class. Fields that an encoding may hold but an instruction may not are excluded by `Instr.wf`.
-/

namespace Sys2Proof

/-- A scalar source (R31): age `t i` of the result queue, or named register `n i`. -/
inductive Src where
  | age (i : BitVec 4)
  | nam (i : BitVec 4)
  deriving DecidableEq, Repr

/-- A scalar destination (R32): the result queue only, or named register `n i` as well. -/
inductive Dst where
  | queue
  | nam (i : BitVec 4)
  deriving DecidableEq, Repr

/-- The prefix word (R41), most significant field first. -/
structure Pfx where
  ovt : BitVec 3
  ove : Bool
  cov : BitVec 2
  f4e : Bool
  f4 : BitVec 5
  sat : Bool
  rnd : BitVec 3
  zero : Bool
  me : Bool
  vm : BitVec 3
  deriving DecidableEq, Repr

/-- An instruction, compact, 32 bits wide or prefixed, or an event of the table of steps. The members of
majors 0x1D to 0x26 and YDRAIN carry `p`, the prefix of the pair or `none` (R43). -/
inductive Instr where
  -- IALU
  /-- ADD (R89). -/
  | add (d : Dst) (a : Src) (b : Src)
  /-- SUB (R89). -/
  | sub (d : Dst) (a : Src) (b : Src)
  /-- MUL (R89). -/
  | mul (d : Dst) (a : Src) (b : Src)
  /-- MULH (R89). -/
  | mulh (d : Dst) (a : Src) (b : Src)
  /-- MULHU (R89). -/
  | mulhu (d : Dst) (a : Src) (b : Src)
  /-- DIV (R89, R90). -/
  | div (d : Dst) (a : Src) (b : Src)
  /-- DIVU (R89, R90). -/
  | divu (d : Dst) (a : Src) (b : Src)
  /-- REM (R89, R90). -/
  | rem (d : Dst) (a : Src) (b : Src)
  /-- REMU (R89, R90). -/
  | remu (d : Dst) (a : Src) (b : Src)
  /-- AND (R89). -/
  | and (d : Dst) (a : Src) (b : Src)
  /-- OR (R89). -/
  | or (d : Dst) (a : Src) (b : Src)
  /-- XOR (R89). -/
  | xor (d : Dst) (a : Src) (b : Src)
  /-- ANDN (R89). -/
  | andn (d : Dst) (a : Src) (b : Src)
  /-- SHL (R89). -/
  | shl (d : Dst) (a : Src) (b : Src)
  /-- SHR (R89). -/
  | shr (d : Dst) (a : Src) (b : Src)
  /-- SRA (R89). -/
  | sra (d : Dst) (a : Src) (b : Src)
  /-- ROL (R89). -/
  | rol (d : Dst) (a : Src) (b : Src)
  /-- MIN (R89). -/
  | min (d : Dst) (a : Src) (b : Src)
  /-- MAX (R89). -/
  | max (d : Dst) (a : Src) (b : Src)
  /-- MINU (R89). -/
  | minu (d : Dst) (a : Src) (b : Src)
  /-- MAXU (R89). -/
  | maxu (d : Dst) (a : Src) (b : Src)
  /-- SLT (R89). -/
  | slt (d : Dst) (a : Src) (b : Src)
  /-- SLTU (R89). -/
  | sltu (d : Dst) (a : Src) (b : Src)
  /-- SEQ (R89). -/
  | seq (d : Dst) (a : Src) (b : Src)
  /-- SNE (R89). -/
  | sne (d : Dst) (a : Src) (b : Src)
  /-- CLZ (R89). -/
  | clz (d : Dst) (a : Src)
  /-- CTZ (R89). -/
  | ctz (d : Dst) (a : Src)
  /-- POPC (R89). -/
  | popc (d : Dst) (a : Src)
  /-- BREV (R89). -/
  | brev (d : Dst) (a : Src)
  /-- SEXT (R89). -/
  | sext (d : Dst) (a : Src) (b : Src)
  /-- ZEXT (R89). -/
  | zext (d : Dst) (a : Src) (b : Src)
  /-- SEL (R89; `c` is the age that chooses). -/
  | sel (d : Dst) (a : Src) (b : Src) (c : BitVec 4)
  -- IIMM
  /-- ADDI (R91). -/
  | addi (d : Dst) (a : Src) (imm : BitVec 11)
  /-- ANDI (R91). -/
  | andi (d : Dst) (a : Src) (imm : BitVec 11)
  /-- ORI (R91). -/
  | ori (d : Dst) (a : Src) (imm : BitVec 11)
  /-- XORI (R91). -/
  | xori (d : Dst) (a : Src) (imm : BitVec 11)
  /-- SHLI (R91). -/
  | shli (d : Dst) (a : Src) (imm : BitVec 11)
  /-- SHRI (R91). -/
  | shri (d : Dst) (a : Src) (imm : BitVec 11)
  /-- SRAI (R91). -/
  | srai (d : Dst) (a : Src) (imm : BitVec 11)
  /-- SLTI (R91). -/
  | slti (d : Dst) (a : Src) (imm : BitVec 11)
  -- LI
  /-- LI (R92). -/
  | li (d : Dst) (imm : BitVec 19)
  -- XSET
  /-- XSET (R48). -/
  | xset (x : BitVec 3) (imm : BitVec 16) (part : BitVec 2)
  -- MOVE
  /-- MOV (R93, R94). -/
  | mov (d : Dst) (a : Src)
  /-- XGET (R93). -/
  | xget (d : Dst) (x : BitVec 3)
  /-- XSETR (R93, R94). -/
  | xsetr (x : BitVec 3) (a : Src)
  /-- NCLR (R93, R94). -/
  | nclr (n : BitVec 4)
  /-- NWR (R95, R96). -/
  | nwr (dir : BitVec 2) (n : BitVec 4) (a : Src) (slot : BitVec 5)
  /-- NTEST (R93, R94). -/
  | ntest (d : Dst) (n : BitVec 4)
  /-- BORROW (R97). -/
  | borrow (d : Dst) (a : Src)
  /-- BRD (R98). -/
  | brd (d : Dst) (n : BitVec 4)
  /-- BWR (R98). -/
  | bwr (n : BitVec 4) (a : Src)
  /-- BRET (R98). -/
  | bret
  /-- QSEND (R99). -/
  | qsend (q : BitVec 3) (a : Src)
  /-- QRECV (R99). -/
  | qrecv (d : Dst) (q : BitVec 3)
  /-- QSTAT (R93, R405). -/
  | qstat (d : Dst) (q : BitVec 3)
  /-- RNG (R101). -/
  | rng (d : Dst)
  /-- RNGSEED (R104). -/
  | rngseed (a : Src)
  /-- CYCLE (R105). -/
  | cycle (d : Dst)
  -- SYSREG
  /-- MFS (R106). -/
  | mfs (d : Dst) (sys : BitVec 12)
  /-- MTS (R106). -/
  | mts (sys : BitVec 12) (a : Src)
  /-- MTSI (R106; the immediate is ihi:ilo). -/
  | mtsi (sys : BitVec 12) (ihi : BitVec 3) (ilo : BitVec 5)
  -- CAP
  /-- CGETA (R118). -/
  | cgeta (d : Dst) (ka : BitVec 3)
  /-- CGETB (R118). -/
  | cgetb (d : Dst) (ka : BitVec 3)
  /-- CGETL (R118). -/
  | cgetl (d : Dst) (ka : BitVec 3)
  /-- CGETP (R118). -/
  | cgetp (d : Dst) (ka : BitVec 3)
  /-- CTAG (R118). -/
  | ctag (d : Dst) (ka : BitVec 3)
  /-- CMOV (R118). -/
  | cmov (kd : BitVec 3) (ka : BitVec 3)
  /-- CSETA (R119). -/
  | cseta (kd : BitVec 3) (ka : BitVec 3) (b : Src)
  /-- CINC (R119). -/
  | cinc (kd : BitVec 3) (ka : BitVec 3) (b : Src)
  /-- CBOUND (R120; `exact` is `.x`). -/
  | cbound (exact : Bool) (kd : BitVec 3) (ka : BitVec 3) (b : Src)
  /-- CPERM (R121). -/
  | cperm (kd : BitVec 3) (ka : BitVec 3) (b : Src)
  /-- CGEN (R117). -/
  | cgen (kd : BitVec 3) (ka : BitVec 3)
  /-- CCLR (R118). -/
  | cclr (kd : BitVec 3)
  /-- CEQ (R118). -/
  | ceq (d : Dst) (ka : BitVec 3) (kb : BitVec 3)
  /-- CSUB (R118). -/
  | csub (d : Dst) (ka : BitVec 3) (kb : BitVec 3)
  /-- LDK (R122). -/
  | ldk (kd : BitVec 3) (idx : BitVec 10)
  -- BRC
  /-- BEQ (R125). -/
  | beq (a : Src) (b : Src) (off : BitVec 11)
  /-- BNE (R125). -/
  | bne (a : Src) (b : Src) (off : BitVec 11)
  /-- BLT (R125). -/
  | blt (a : Src) (b : Src) (off : BitVec 11)
  /-- BGE (R125). -/
  | bge (a : Src) (b : Src) (off : BitVec 11)
  /-- BLTU (R125). -/
  | bltu (a : Src) (b : Src) (off : BitVec 11)
  /-- BGEU (R125). -/
  | bgeu (a : Src) (b : Src) (off : BitVec 11)
  /-- BBS (R125). -/
  | bbs (a : Src) (b : Src) (off : BitVec 11)
  /-- BBC (R125). -/
  | bbc (a : Src) (b : Src) (off : BitVec 11)
  -- BRZ
  /-- BEZ (R125). -/
  | bez (a : Src) (off : BitVec 18)
  /-- BNZ (R125). -/
  | bnz (a : Src) (off : BitVec 18)
  -- BRG
  /-- BGS (R125, R137). -/
  | bgs (g : BitVec 4) (off : BitVec 18)
  /-- BGC (R125, R137). -/
  | bgc (g : BitVec 4) (off : BitVec 18)
  -- JUMP
  /-- J (R126, R127). -/
  | j (off : BitVec 23)
  /-- CALL (R126, R127). -/
  | call (off : BitVec 23)
  -- JK
  /-- JK (R126, R127). -/
  | jk (k : BitVec 3)
  /-- CALLK (R126, R127). -/
  | callk (k : BitVec 3)
  -- LOOP
  /-- LOOP (R129). -/
  | loop (a : Src) (off : BitVec 18)
  /-- LOOPM (R129). -/
  | loopm (i : BitVec 3) (off : BitVec 18)
  -- LOOPI
  /-- LOOPI (R129). -/
  | loopi (cnt : BitVec 10) (off : BitVec 14)
  -- GUARD
  /-- GSET (R136). -/
  | gset (cc : BitVec 3) (g : BitVec 4) (a : Src) (b : Src)
  /-- GSETN (R136). -/
  | gsetn (cc : BitVec 3) (g : BitVec 4) (a : Src) (b : Src)
  /-- GCLR (R136). -/
  | gclr (g : BitVec 4)
  /-- GWAIT (R136, R137). -/
  | gwait (g : BitVec 4)
  -- LD
  /-- LD (R153, R154). -/
  | ld (type : BitVec 3) (d : Dst) (k : BitVec 3) (off : BitVec 13)
  -- ST
  /-- ST (R153, R154). -/
  | st (size : BitVec 2) (rel : Bool) (k : BitVec 3) (off : BitVec 13) (a : Src)
  -- LDSTX
  /-- LDX (R153, R154). -/
  | ldx (type : BitVec 3) (acq : Bool) (d : Dst) (k : BitVec 3) (i : Src) (scale : BitVec 2)
  /-- STX (R153, R154). -/
  | stx (size : BitVec 2) (rel : Bool) (k : BitVec 3) (i : Src) (scale : BitVec 2) (a : Src)
  -- LDCST
  /-- LDC (R157). -/
  | ldc (kd : BitVec 3) (k : BitVec 3) (off : BitVec 15)
  /-- STC (R157). -/
  | stc (k : BitVec 3) (off : BitVec 15) (kd : BitVec 3)
  -- ATOM
  /-- AADD (R158). -/
  | aadd (wide : Bool) (order : BitVec 2) (d : Dst) (k : BitVec 3) (off : BitVec 8)
  /-- AAND (R158). -/
  | aand (wide : Bool) (order : BitVec 2) (d : Dst) (k : BitVec 3) (off : BitVec 8)
  /-- AOR (R158). -/
  | aor (wide : Bool) (order : BitVec 2) (d : Dst) (k : BitVec 3) (off : BitVec 8)
  /-- AXOR (R158). -/
  | axor (wide : Bool) (order : BitVec 2) (d : Dst) (k : BitVec 3) (off : BitVec 8)
  /-- AMIN (R158). -/
  | amin (wide : Bool) (order : BitVec 2) (d : Dst) (k : BitVec 3) (off : BitVec 8)
  /-- AMAX (R158). -/
  | amax (wide : Bool) (order : BitVec 2) (d : Dst) (k : BitVec 3) (off : BitVec 8)
  /-- AMINU (R158). -/
  | aminu (wide : Bool) (order : BitVec 2) (d : Dst) (k : BitVec 3) (off : BitVec 8)
  /-- AMAXU (R158). -/
  | amaxu (wide : Bool) (order : BitVec 2) (d : Dst) (k : BitVec 3) (off : BitVec 8)
  /-- ASWP (R158). -/
  | aswp (wide : Bool) (order : BitVec 2) (d : Dst) (k : BitVec 3) (off : BitVec 8)
  /-- ACAS (R158). -/
  | acas (wide : Bool) (order : BitVec 2) (d : Dst) (k : BitVec 3) (off : BitVec 8)
  /-- AFADD (R158). -/
  | afadd (wide : Bool) (order : BitVec 2) (d : Dst) (k : BitVec 3) (off : BitVec 8)
  -- FENCE
  /-- FENCE (R244, R245). -/
  | fence (kind : BitVec 3) (scope : BitVec 3)
  /-- EFENCE (R247). -/
  | efence
  /-- IFENCE (R248). -/
  | ifence
  -- REMOTE
  /-- RST (R159, R160). -/
  | rst (size : BitVec 2) (ka : BitVec 3) (b : Src)
  /-- AMSG (R159, R161). -/
  | amsg (ka : BitVec 3) (kb : BitVec 3)
  /-- RDRAIN (R161). -/
  | rdrain
  -- TASK
  /-- SPAWN (R183). -/
  | spawn (d : Dst) (ka : BitVec 3)
  /-- START (R183). -/
  | start (d : Dst) (ka : BitVec 3)
  /-- DONE (R184). -/
  | done
  /-- YIELD (R185). -/
  | yield (a : Src) (b : Src)
  /-- JOIN (R183). -/
  | join (d : Dst) (ka : BitVec 3)
  /-- WALK (R183). -/
  | walk (d : Dst) (ka : BitVec 3) (b : Src)
  /-- LAUNCH (R186). -/
  | launch (d : Dst) (ka : BitVec 3) (b : Src)
  /-- LAUNCHI (R186). -/
  | launchi (d : Dst) (ka : BitVec 3) (kb : BitVec 3)
  /-- GANG (R188). -/
  | gang (d : Dst) (ka : BitVec 3)
  /-- SUBMIT (R193). -/
  | submit (d : Dst) (ka : BitVec 3)
  /-- DLINE (R189). -/
  | dline (d : Dst) (a : Src)
  /-- SELF (R189). -/
  | self (kd : BitVec 3)
  -- FUT
  /-- FINIT (R198). -/
  | finit (ka : BitVec 3)
  /-- FRES (R198). -/
  | fres (d : Dst) (ka : BitVec 3) (b : Src)
  /-- FREG (R198). -/
  | freg (d : Dst) (ka : BitVec 3) (kb : BitVec 3)
  /-- FGET (R198). -/
  | fget (d : Dst) (ka : BitVec 3)
  /-- FSTAT (R198). -/
  | fstat (d : Dst) (ka : BitVec 3)
  -- RING
  /-- RINIT (R228, R229). -/
  | rinit (ka : BitVec 3) (kb : BitVec 3) (s : BitVec 5)
  /-- RCLAIM (R229). -/
  | rclaim (scope : BitVec 3) (d : Dst) (ka : BitVec 3) (b : Src)
  /-- RTRYCLAIM (R229). -/
  | rtryclaim (scope : BitVec 3) (d : Dst) (ka : BitVec 3) (b : Src)
  /-- RCOMMIT (R229). -/
  | rcommit (scope : BitVec 3) (ka : BitVec 3) (i : Src) (b : Src)
  /-- RAWAIT (R229). -/
  | rawait (scope : BitVec 3) (d : Dst) (ka : BitVec 3) (b : Src)
  /-- RRETIRE (R229). -/
  | rretire (scope : BitVec 3) (ka : BitVec 3) (i : Src) (b : Src)
  -- BAR
  /-- BINIT (R237). -/
  | binit (ka : BitVec 3) (b : Src)
  /-- BARRIVE (R237, R239). -/
  | barrive (scope : BitVec 3) (d : Dst) (ka : BitVec 3) (b : Src)
  /-- BEXPECT (R237). -/
  | bexpect (ka : BitVec 3) (b : Src)
  /-- BWAIT (R237, R239). -/
  | bwait (scope : BitVec 3) (ka : BitVec 3) (b : Src)
  /-- BTEST (R237, R239). -/
  | btest (scope : BitVec 3) (d : Dst) (ka : BitVec 3) (b : Src)
  -- SYS
  /-- TRAP (R208). -/
  | trap (a : Src)
  /-- RTE (R206). -/
  | rte
  /-- SVC (R209). -/
  | svc (d : Dst) (a : Src) (b : Src)
  /-- BRK (R208). -/
  | brk
  /-- CHKPT (R215). -/
  | chkpt (idx : BitVec 10)
  /-- REALIGN (R140). -/
  | realign (tag : BitVec 10)
  /-- WFI (R210). -/
  | wfi (d : Dst) (a : Src)
  /-- HALT (R211). -/
  | halt
  /-- TINV (R222; privileged). -/
  | tinv (all : Bool) (a : Src) (b : Src)
  -- VCLAIM
  /-- VCLAIM (R264). -/
  | vclaim (d : Dst) (a : Src) (b : Src)
  /-- VRENEG (R264). -/
  | vreneg (d : Dst) (a : Src) (b : Src)
  /-- VREL (R264). -/
  | vrel
  -- VINT
  /-- VADD (R273). -/
  | vadd (p : Option Pfx) (et : BitVec 3) (d : BitVec 5) (a : BitVec 5) (b : BitVec 5)
  /-- VSUB (R273). -/
  | vsub (p : Option Pfx) (et : BitVec 3) (d : BitVec 5) (a : BitVec 5) (b : BitVec 5)
  /-- VMUL (R273). -/
  | vmul (p : Option Pfx) (et : BitVec 3) (d : BitVec 5) (a : BitVec 5) (b : BitVec 5)
  /-- VMULH (R273). -/
  | vmulh (p : Option Pfx) (et : BitVec 3) (d : BitVec 5) (a : BitVec 5) (b : BitVec 5)
  /-- VMIN (R273). -/
  | vmin (p : Option Pfx) (et : BitVec 3) (d : BitVec 5) (a : BitVec 5) (b : BitVec 5)
  /-- VMAX (R273). -/
  | vmax (p : Option Pfx) (et : BitVec 3) (d : BitVec 5) (a : BitVec 5) (b : BitVec 5)
  /-- VMINU (R273). -/
  | vminu (p : Option Pfx) (et : BitVec 3) (d : BitVec 5) (a : BitVec 5) (b : BitVec 5)
  /-- VMAXU (R273). -/
  | vmaxu (p : Option Pfx) (et : BitVec 3) (d : BitVec 5) (a : BitVec 5) (b : BitVec 5)
  /-- VAND (R273). -/
  | vand (p : Option Pfx) (et : BitVec 3) (d : BitVec 5) (a : BitVec 5) (b : BitVec 5)
  /-- VOR (R273). -/
  | vor (p : Option Pfx) (et : BitVec 3) (d : BitVec 5) (a : BitVec 5) (b : BitVec 5)
  /-- VXOR (R273). -/
  | vxor (p : Option Pfx) (et : BitVec 3) (d : BitVec 5) (a : BitVec 5) (b : BitVec 5)
  /-- VSHL (R273). -/
  | vshl (p : Option Pfx) (et : BitVec 3) (d : BitVec 5) (a : BitVec 5) (b : BitVec 5)
  /-- VSHR (R273). -/
  | vshr (p : Option Pfx) (et : BitVec 3) (d : BitVec 5) (a : BitVec 5) (b : BitVec 5)
  /-- VSRA (R273). -/
  | vsra (p : Option Pfx) (et : BitVec 3) (d : BitVec 5) (a : BitVec 5) (b : BitVec 5)
  /-- VABS (R273). -/
  | vabs (p : Option Pfx) (et : BitVec 3) (d : BitVec 5) (a : BitVec 5)
  /-- VSADD (R273). -/
  | vsadd (p : Option Pfx) (et : BitVec 3) (d : BitVec 5) (a : BitVec 5) (b : BitVec 5)
  /-- VSSUB (R273). -/
  | vssub (p : Option Pfx) (et : BitVec 3) (d : BitVec 5) (a : BitVec 5) (b : BitVec 5)
  -- VFP
  /-- VFADD (R274). -/
  | vfadd (p : Option Pfx) (et : BitVec 3) (d : BitVec 5) (a : BitVec 5) (b : BitVec 5)
  /-- VFSUB (R274). -/
  | vfsub (p : Option Pfx) (et : BitVec 3) (d : BitVec 5) (a : BitVec 5) (b : BitVec 5)
  /-- VFMUL (R274). -/
  | vfmul (p : Option Pfx) (et : BitVec 3) (d : BitVec 5) (a : BitVec 5) (b : BitVec 5)
  /-- VFMA (R274). -/
  | vfma (p : Option Pfx) (et : BitVec 3) (d : BitVec 5) (a : BitVec 5) (b : BitVec 5)
  /-- VFDIV (R274). -/
  | vfdiv (p : Option Pfx) (et : BitVec 3) (d : BitVec 5) (a : BitVec 5) (b : BitVec 5)
  /-- VFSQRT (R274). -/
  | vfsqrt (p : Option Pfx) (et : BitVec 3) (d : BitVec 5) (a : BitVec 5)
  /-- VFMIN (R274). -/
  | vfmin (p : Option Pfx) (et : BitVec 3) (d : BitVec 5) (a : BitVec 5) (b : BitVec 5)
  /-- VFMAX (R274). -/
  | vfmax (p : Option Pfx) (et : BitVec 3) (d : BitVec 5) (a : BitVec 5) (b : BitVec 5)
  /-- VFABS (R274). -/
  | vfabs (p : Option Pfx) (et : BitVec 3) (d : BitVec 5) (a : BitVec 5)
  /-- VFNEG (R274). -/
  | vfneg (p : Option Pfx) (et : BitVec 3) (d : BitVec 5) (a : BitVec 5)
  /-- VFRCP (R274). -/
  | vfrcp (p : Option Pfx) (et : BitVec 3) (d : BitVec 5) (a : BitVec 5)
  /-- VFRSQ (R274). -/
  | vfrsq (p : Option Pfx) (et : BitVec 3) (d : BitVec 5) (a : BitVec 5)
  /-- VFEXP2 (R274). -/
  | vfexp2 (p : Option Pfx) (et : BitVec 3) (d : BitVec 5) (a : BitVec 5)
  /-- VFLOG2 (R274). -/
  | vflog2 (p : Option Pfx) (et : BitVec 3) (d : BitVec 5) (a : BitVec 5)
  /-- VFCLASS (R274). -/
  | vfclass (p : Option Pfx) (et : BitVec 3) (d : BitVec 5) (a : BitVec 5)
  -- VCMP
  /-- VCMP (R275). -/
  | vcmp (p : Option Pfx) (et : BitVec 3) (cc : BitVec 2) (vmd : BitVec 3) (a : BitVec 5) (b : BitVec 5)
  /-- VFCMP (R275). -/
  | vfcmp (p : Option Pfx) (et : BitVec 3) (cc : BitVec 2) (vmd : BitVec 3) (a : BitVec 5) (b : BitVec 5)
  /-- VMAND (R275). -/
  | vmand (p : Option Pfx) (vmd : BitVec 3) (vma : BitVec 3) (vmb : BitVec 3)
  /-- VMOR (R275). -/
  | vmor (p : Option Pfx) (vmd : BitVec 3) (vma : BitVec 3) (vmb : BitVec 3)
  /-- VMXOR (R275). -/
  | vmxor (p : Option Pfx) (vmd : BitVec 3) (vma : BitVec 3) (vmb : BitVec 3)
  /-- VMNOT (R275). -/
  | vmnot (p : Option Pfx) (vmd : BitVec 3) (vma : BitVec 3)
  /-- VMPOP (R275). -/
  | vmpop (p : Option Pfx) (d : Dst) (vma : BitVec 3)
  /-- VMFIRST (R275). -/
  | vmfirst (p : Option Pfx) (d : Dst) (vma : BitVec 3)
  -- VCVT
  /-- VCVT (R276). -/
  | vcvt (p : Option Pfx) (et : BitVec 3) (d : BitVec 5) (a : BitVec 5) (src : BitVec 3) (part : BitVec 2)
  /-- VQBFP (R277; `m1` is m - 1). -/
  | vqbfp (p : Option Pfx) (et : BitVec 3) (d : BitVec 5) (a : BitVec 5) (m1 : BitVec 3)
  /-- VDQBFP (R277; `m1` is m - 1). -/
  | vdqbfp (p : Option Pfx) (et : BitVec 3) (d : BitVec 5) (a : BitVec 5) (m1 : BitVec 3)
  -- VMEM
  /-- VLD (R278, R279). -/
  | vld (p : Option Pfx) (et : BitVec 3) (d : BitVec 5) (k : BitVec 3) (off : BitVec 5)
  /-- VST (R278, R279). -/
  | vst (p : Option Pfx) (et : BitVec 3) (d : BitVec 5) (k : BitVec 3) (off : BitVec 5)
  /-- VLDS (R278, R279). -/
  | vlds (p : Option Pfx) (et : BitVec 3) (d : BitVec 5) (k : BitVec 3) (b : Src)
  /-- VSTS (R278, R279). -/
  | vsts (p : Option Pfx) (et : BitVec 3) (d : BitVec 5) (k : BitVec 3) (b : Src)
  /-- VGTH (R278, R279). -/
  | vgth (p : Option Pfx) (et : BitVec 3) (d : BitVec 5) (k : BitVec 3) (b : BitVec 5)
  /-- VSCT (R278, R279). -/
  | vsct (p : Option Pfx) (et : BitVec 3) (d : BitVec 5) (k : BitVec 3) (b : BitVec 5)
  -- VPERM
  /-- VBCAST (R281). -/
  | vbcast (p : Option Pfx) (et : BitVec 3) (d : BitVec 5) (a : Src)
  /-- VEXT (R281). -/
  | vext (p : Option Pfx) (et : BitVec 3) (d : Dst) (a : BitVec 5) (b : Src)
  /-- VINS (R281). -/
  | vins (p : Option Pfx) (et : BitVec 3) (d : BitVec 5) (a : Src) (b : Src)
  /-- VIOTA (R281). -/
  | viota (p : Option Pfx) (et : BitVec 3) (d : BitVec 5)
  /-- VSHUF (R281). -/
  | vshuf (p : Option Pfx) (et : BitVec 3) (d : BitVec 5) (a : BitVec 5) (b : BitVec 5)
  /-- VREDSUM (R282). -/
  | vredsum (p : Option Pfx) (et : BitVec 3) (d : Dst) (a : BitVec 5)
  /-- VREDMAX (R282). -/
  | vredmax (p : Option Pfx) (et : BitVec 3) (d : Dst) (a : BitVec 5)
  /-- VREDMIN (R282). -/
  | vredmin (p : Option Pfx) (et : BitVec 3) (d : Dst) (a : BitVec 5)
  -- VSPEC
  /-- VTBL (R284). -/
  | vtbl (p : Option Pfx) (et : BitVec 3) (d : BitVec 5) (a : BitVec 5) (kb : BitVec 3)
  /-- VRNG (R285). -/
  | vrng (p : Option Pfx) (et : BitVec 3) (d : BitVec 5)
  /-- VRNGN (R285). -/
  | vrngn (p : Option Pfx) (et : BitVec 3) (d : BitVec 5)
  -- MARITH
  /-- MADD (R345, R348). -/
  | madd (p : Option Pfx) (cov : BitVec 3) (d : BitVec 4) (a : BitVec 4) (b : BitVec 4)
  /-- MSUB (R345, R348). -/
  | msub (p : Option Pfx) (cov : BitVec 3) (d : BitVec 4) (a : BitVec 4) (b : BitVec 4)
  /-- MMUL (R345, R349). -/
  | mmul (p : Option Pfx) (cov : BitVec 3) (d : BitVec 4) (a : BitVec 4) (b : BitVec 4)
  /-- MSCALE (R345, R350). -/
  | mscale (p : Option Pfx) (d : BitVec 4) (a : BitVec 4) (b : BitVec 5)
  /-- MFMA (R345, R350). -/
  | mfma (p : Option Pfx) (cov : BitVec 3) (d : BitVec 4) (a : BitVec 4) (b : BitVec 5)
  /-- MNEG (R345, R350). -/
  | mneg (p : Option Pfx) (d : BitVec 4) (a : BitVec 4)
  -- MNONL
  /-- MRELU (R345, R351). -/
  | mrelu (p : Option Pfx) (d : BitVec 4) (a : BitVec 4)
  /-- MSIG (R345, R352). -/
  | msig (p : Option Pfx) (d : BitVec 4) (a : BitVec 4)
  /-- MEXP (R345, R353). -/
  | mexp (p : Option Pfx) (d : BitVec 4) (a : BitVec 4)
  /-- MSQR (R345, R354). -/
  | msqr (p : Option Pfx) (d : BitVec 4) (a : BitVec 4)
  -- MMOVE
  /-- MSET (R356). -/
  | mset (p : Option Pfx) (d : BitVec 4) (a : BitVec 5) (b : BitVec 5)
  /-- MMEAN (R356). -/
  | mmean (p : Option Pfx) (d : BitVec 5) (a : BitVec 4)
  /-- MVAR (R356). -/
  | mvar (p : Option Pfx) (d : BitVec 5) (a : BitVec 4)
  /-- MCOLL (R357). -/
  | mcoll (p : Option Pfx) (mode : BitVec 3) (d : BitVec 5) (a : BitVec 4)
  /-- MLD (R358). -/
  | mld (p : Option Pfx) (d : BitVec 4) (k : BitVec 3) (off : BitVec 5)
  /-- MST (R358). -/
  | mst (p : Option Pfx) (d : BitVec 4) (k : BitVec 3) (off : BitVec 5)
  /-- MCHK (R359). -/
  | mchk (p : Option Pfx) (d : Dst) (a : BitVec 4)
  -- TILE
  /-- ZLD (R299). -/
  | zld (expand : Bool) (zd : BitVec 4) (ka : BitVec 3) (b : Src)
  /-- ZST (R299). -/
  | zst (zd : BitVec 4) (ka : BitVec 3) (b : Src)
  /-- ZZERO (R300). -/
  | zzero (zd : BitVec 4)
  /-- ZREL (R300). -/
  | zrel (zd : BitVec 4)
  /-- ZSTATE (R296). -/
  | zstate (d : Dst) (za : BitVec 4)
  /-- ZMOV (R300). -/
  | zmov (zd : BitVec 4) (za : BitVec 4)
  -- MATRIX
  /-- WLOAD (R303). -/
  | wload (za : BitVec 4)
  /-- WSWAP (R303). -/
  | wswap
  /-- MMA (R306). -/
  | mma (yd : BitVec 3) (za : BitVec 4)
  /-- MMAM (R306). -/
  | mmam (yd : BitVec 3) (za : BitVec 4)
  /-- YZERO (R309). -/
  | yzero (mom : Bool) (yd : BitVec 3)
  /-- YDRAIN (R310). -/
  | ydrain (p : Option Pfx) (zero : Bool) (zd : BitVec 4) (ya : BitVec 3) (b : Src)
  /-- YMOV (R309). -/
  | ymov (yd : BitVec 3) (ya : BitVec 3)
  /-- QFUSE (R314; privileged). -/
  | qfuse (a : Src)
  /-- QSPLIT (R314; privileged). -/
  | qsplit (a : Src)
  -- ENGINE
  /-- COPY (R319, R320; `ge` is guard enable). -/
  | copy (k : BitVec 3) (ge : Bool) (sense : Bool) (g : BitVec 4)
  /-- XFORM (R319, R320; `ge` is guard enable). -/
  | xform (k : BitVec 3) (ge : Bool) (sense : Bool) (g : BitVec 4)
  /-- COLL (R319, R320; `ge` is guard enable). -/
  | coll (k : BitVec 3) (ge : Bool) (sense : Bool) (g : BitVec 4)
  /-- TRACE (R319, R320; `ge` is guard enable). -/
  | trace (k : BitVec 3) (ge : Bool) (sense : Bool) (g : BitVec 4)
  /-- EWAIT (R325). -/
  | ewait (d : Dst) (ka : BitVec 3)
  /-- ESTAT (R325). -/
  | estat (d : Dst) (ka : BitVec 3)
  -- LAYER
  /-- LNEW (R385). -/
  | lnew (d : Dst) (a : Src)
  /-- LFREE (R385). -/
  | lfree (a : Src)
  /-- LSET (R383; `b` is a scalar source or a capability). -/
  | lset (f : BitVec 5) (a : Src) (b : BitVec 5)
  /-- LGET (R383). -/
  | lget (f : BitVec 5) (d : Dst) (a : Src)
  /-- LEST (R385). -/
  | lest (d : Dst) (a : Src)
  /-- LPRICE (R385). -/
  | lprice (a : Src) (b : Src)
  /-- LREQ (R386). -/
  | lreq (d : Dst)
  /-- LREQ_S (R386). -/
  | lreqS (d : Dst)
  /-- LBEGIN (R387). -/
  | lbegin (a : Src)
  /-- LDONE (R387). -/
  | ldone (a : Src)
  /-- LSPLIT (R393). -/
  | lsplit (a : Src) (b : Src)
  /-- LMERGE (R394). -/
  | lmerge (a : Src) (b : Src)
  /-- LLIGHT (R385). -/
  | llight (a : Src) (b : Src)
  /-- COMPOSE (R388 to R392). -/
  | compose (d : Dst)
  -- SURR
  /-- SLAUNCH (R364). -/
  | slaunch (d : Dst) (ka : BitVec 3)
  /-- SRESID (R369). -/
  | sresid (a : Src)
  /-- SRESIDM (R369). -/
  | sresidm (a : Src) (b : Src)
  /-- SABORT (R368). -/
  | sabort
  /-- SSTAT (R371). -/
  | sstat (d : Dst) (ka : BitVec 3)
  -- compact group A
  /-- ADD_C (R44, R46). -/
  | addC (a : BitVec 4) (b : BitVec 4)
  /-- SUB_C (R44, R46). -/
  | subC (a : BitVec 4) (b : BitVec 4)
  /-- AND_C (R44, R46). -/
  | andC (a : BitVec 4) (b : BitVec 4)
  /-- OR_C (R44, R46). -/
  | orC (a : BitVec 4) (b : BitVec 4)
  /-- XOR_C (R44, R46). -/
  | xorC (a : BitVec 4) (b : BitVec 4)
  /-- MUL_C (R44, R46). -/
  | mulC (a : BitVec 4) (b : BitVec 4)
  /-- SLT_C (R44, R46). -/
  | sltC (a : BitVec 4) (b : BitVec 4)
  /-- SEQ_C (R44, R46). -/
  | seqC (a : BitVec 4) (b : BitVec 4)
  /-- SHLI_C (R44, R46; the immediate is b:x). -/
  | shliC (a : BitVec 4) (b : BitVec 4) (x : BitVec 2)
  /-- SHRI_C (R44, R46; the immediate is b:x). -/
  | shriC (a : BitVec 4) (b : BitVec 4) (x : BitVec 2)
  /-- ADDI_C (R44, R46; the immediate is b:x). -/
  | addiC (a : BitVec 4) (b : BitVec 4) (x : BitVec 2)
  /-- MOV_C_TO_NAMED (R44: `MOV nb, ta`). -/
  | movCToNamed (b : BitVec 4) (a : BitVec 4)
  /-- MOV_C_FROM_NAMED (R44: `MOV _, nb`). -/
  | movCFromNamed (b : BitVec 4)
  /-- LI_C (R44; the immediate is a:b:x). -/
  | liC (a : BitVec 4) (b : BitVec 4) (x : BitVec 2)
  /-- MOV_C_AGE (R44: `MOV _, ta`). -/
  | movCAge (a : BitVec 4)
  -- compact group B
  /-- NOP (R45). -/
  | nop
  /-- J_C (R45). -/
  | jC (off : BitVec 10)
  /-- BEZ_C (R45). -/
  | bezC (off : BitVec 10)
  /-- BNZ_C (R45). -/
  | bnzC (off : BitVec 10)
  /-- LEXIT (R45, R131). -/
  | lexit
  /-- DONE_C (R45). -/
  | doneC
  /-- CHKPT_C (R45). -/
  | chkptC (idx : BitVec 10)
  /-- REALIGN_C (R45). -/
  | realignC (tag : BitVec 10)
  /-- RET_C (R45). -/
  | retC
  /-- NCLR_C (R45). -/
  | nclrC (n : BitVec 4)
  /-- FENCE_CORE_C (R45). -/
  | fenceCoreC
  -- events of the table of steps
  /-- MAILBOX_WRITE (R134: a host or remote store of `v` arrives at mailbox `i` of `core`). -/
  | mailboxWrite (core : Nat) (i : Nat) (v : U64)
  /-- MBXP_CLEAR (R134: a W1C write of `m` arrives at MBXP of `core`). -/
  | mbxpClear (core : Nat) (m : BitVec 8)
  /-- HELD_MAILBOX_WRITE (R134). -/
  | heldMailboxWrite (core : Nat) (i : Nat)
  /-- GUARD_RESOLVE (R136: guard `g` of the slot with global number `slot`). -/
  | guardResolve (slot : Nat) (g : Nat)
  /-- HOME_ACCESS (R21, R149: the access in flight numbered `id` is performed at its home). -/
  | homeAccess (id : Nat)
  /-- PAGE_WALK (R165, R166). -/
  | pageWalk (core : Nat) (tenant : Nat) (va : Nat)
  /-- NWR_HELD_WRITE (R95, R96: the oldest write held for register `n` of `slot`). -/
  | nwrHeldWrite (slot : Nat) (n : Nat)
  /-- NWR_WITHDRAWAL (R96: the withdrawal sent for the pre-empted NWR of slot `src`). -/
  | nwrWithdrawal (src : Nat)
  /-- RST_RETURN (R160, R161: the `i`-th count on its way back arrives). -/
  | rstReturn (i : Nat)
  /-- AMSG_RUN (R161). -/
  | amsgRun (core : Nat)
  /-- AMSG_TIMEOUT (R161). -/
  | amsgTimeout (core : Nat)
  /-- HOLD_CLEAR (R180). -/
  | holdClear (cluster : Nat)
  /-- HOLD_TIMEOUT (R180). -/
  | holdTimeout (cluster : Nat)
  /-- DISPATCH (R177, R178). -/
  | dispatch (cluster : Nat)
  /-- RECORD_WALK_HOP (R181: the `i`-th walking record). -/
  | recordWalkHop (i : Nat)
  /-- GANG_START (R188). -/
  | gangStart (cluster : Nat)
  /-- LAUNCHI_COUNT_READ (R186, R187). -/
  | launchiCountRead (cluster : Nat)
  /-- RECORD_RELEASE (R183, R198: the `i`-th release on its way arrives at its record's home). -/
  | recordRelease (i : Nat)
  /-- GROUP_COUNT_STEP (R174, R175: the `i`-th step on its way arrives at its completion record's home). -/
  | groupCountStep (i : Nat)
  /-- CHARGE_EXHAUSTED (R192). -/
  | chargeExhausted (slot : Nat)
  /-- BUDGET_EXHAUSTED (R195). -/
  | budgetExhausted (slot : Nat)
  /-- GRACE_EXHAUSTED (R195, R205). -/
  | graceExhausted (slot : Nat)
  /-- PARKED_WITHDRAWAL (R230). -/
  | parkedWithdrawal (slot : Nat)
  /-- REALIGN_TIMEOUT (R140). -/
  | realignTimeout (slot : Nat)
  /-- SVC_ANSWER (R209: firmware answers the request held for `slot`). -/
  | svcAnswer (slot : Nat) (v : U64)
  /-- PREEMPT_REQUEST (R217). -/
  | preemptRequest (slot : Nat)
  /-- PREEMPT_TIMEOUT (R217). -/
  | preemptTimeout (slot : Nat)
  /-- SPILL_SAVE (R214, R218, R219). -/
  | spillSave (slot : Nat)
  /-- GRANULE_FILL (R220: the `i`-th absent granule). -/
  | granuleFill (i : Nat)
  /-- ZLD_COMPLETE (R295, R299). -/
  | zldComplete (quad : Nat) (z : Nat)
  /-- TILE_DRAIN_DONE (R295). -/
  | tileDrainDone (quad : Nat) (z : Nat)
  /-- WLOAD_EXECUTE (R303, R304: the oldest command of the queue of `quad`). -/
  | wloadExecute (quad : Nat)
  /-- WSWAP_EXECUTE (R303: the oldest command of the queue of `quad`). -/
  | wswapExecute (quad : Nat)
  /-- MMA_EXECUTE (R306, R315: the oldest command of the queue of `quad`). -/
  | mmaExecute (quad : Nat)
  /-- MMAM_EXECUTE (R306, R81: the oldest command of the queue of `quad`). -/
  | mmamExecute (quad : Nat)
  /-- YZERO_EXECUTE (R309: the oldest command of the queue of `quad`). -/
  | yzeroExecute (quad : Nat)
  /-- YDRAIN_EXECUTE (R310, R80: the oldest command of the queue of `quad`). -/
  | ydrainExecute (quad : Nat)
  /-- YMOV_EXECUTE (R309: the oldest command of the queue of `quad`). -/
  | ymovExecute (quad : Nat)
  /-- TILE_STATE_DRAIN (R316: a tenant's last slot leaves the core pair). -/
  | tileStateDrain (quad : Nat)
  /-- CARD_START (R321, R322: the head card of a class queue). -/
  | cardStart (engine : Nat) (cls : Nat)
  /-- CARD_FINISH (R323). -/
  | cardFinish (engine : Nat) (i : Nat)
  /-- COLL_TIMEOUT (R336). -/
  | collTimeout (engine : Nat) (i : Nat)
  /-- CODEBOOK_BANK_WRITE (R332). -/
  | codebookBankWrite (engine : Nat) (i : Nat)
  /-- CHECK_CHARGE_EXHAUSTED (R366). -/
  | checkChargeExhausted (slot : Nat)
  /-- ENQUEUE_WINDOW_SPAWN (R190). -/
  | enqueueWindowSpawn (cluster : Nat) (tenant : Nat) (addr : U64)
  /-- ENQUEUE_WINDOW_SUBMIT (R190). -/
  | enqueueWindowSubmit (cluster : Nat) (tenant : Nat) (addr : U64)
  /-- ENQUEUE_WINDOW_SPAWN_RESULT (R190: the host loads the result word). -/
  | enqueueWindowSpawnResult (cluster : Nat) (tenant : Nat)
  /-- ENQUEUE_WINDOW_SUBMIT_RESULT (R190: the host loads the result word). -/
  | enqueueWindowSubmitResult (cluster : Nat) (tenant : Nat)
  /-- PARTITION_START (R88, R171, R289: the partition leaves reset; slot 0 of its cores starts from a control record of `tenant`). -/
  | partitionStart (part : Nat) (tenant : Nat) (code : BitVec 128) (frame : BitVec 128) (deadline : U64) (budget : BitVec 32) (recAddr : BitVec 52) (group : U64)
  /-- BOOT (R425: the image's two signature checks and its security version). -/
  | boot (ecdsaOk : Bool) (lmsOk : Bool) (version : U64)
  /-- LINK_TRAIN (R24: a link trains; `err` - 4 is the measurement error). -/
  | linkTrain (link : Nat) (err : BitVec 4)
  /-- TENANT_SWITCH (R404, R405). -/
  | tenantSwitch (core : Nat) (toTenant : Nat)
  /-- FLIT_ARBITRATION (R408). -/
  | flitArbitration (link : Nat)
  /-- CREDIT_RETURN (R406). -/
  | creditReturn (link : Nat) (cls : Nat) (resp : Bool)
  /-- HOST_MODULE_FAILURE (R416). -/
  | hostModuleFailure (module : Nat)
  /-- FABRIC_PORT_FAILURE (R419, R420). -/
  | fabricPortFailure (port : Nat)
  /-- SERVICE_CORE_RESTART (R423). -/
  | serviceCoreRestart (die : Nat)
  /-- ATTESTATION_REQUEST (R426). -/
  | attestationRequest (nonce : BitVec 256)
  /-- PATROL_SCRUB (R427, R428). -/
  | patrolScrub (line : Nat)
  /-- CORRECTED_ERROR (R427). -/
  | correctedError (die : Nat) (addr : U64)
  /-- UNCORRECTABLE_ERROR (R428). -/
  | uncorrectableError (line : Nat)
  /-- PARTITION_RESET (R402: root firmware resets the partition and may change its control block). -/
  | partitionReset (part : Nat) (words : List (Nat × BitVec 64))
  /-- FLIT_RETRY (R418). -/
  | flitRetry (link : Nat)
  deriving DecidableEq, Repr

end Sys2Proof
end

