-- ==== Sys2Proof/WellFormed.lean ====
section
/-!
DEFINITION. Which instructions are well-formed: the conditions of R50 on fields that the syntax leaves free,
the prefix fields each member allows (R42), the element types each member accepts, and the system registers
that R107, R401 and R403 assign. Reserved bits and reserved register values have no place in the syntax;
decoding refuses them.
-/

namespace Sys2Proof

/-- A system-register number that R107, R401 or R403 assigns (R106). -/
def sysAssigned (sys : BitVec 12) : Bool :=
  let n := sys.toNat
  n ≤ 0x003 || n == 0x010 || n == 0x011 || (0x100 ≤ n && n ≤ 0x102) || n == 0x108 || n == 0x109 ||
  n == 0x110 || (0x120 ≤ n && n ≤ 0x123) || (0x200 ≤ n && n ≤ 0x208) || (0x300 ≤ n && n ≤ 0x310) ||
  (0x400 ≤ n && n ≤ 0x403) || (0x500 ≤ n && n ≤ 0x502) || (0x600 ≤ n && n ≤ 0x602) ||
  (0x700 ≤ n && n ≤ 0x704) || (0x800 ≤ n && n ≤ 0x814) || (0x840 ≤ n && n < 0x8C0 && n % 8 < 6)

/-- Whether a prefix holds only fields that its member allows (R42): `rnd`, `sat`, `f4`, `cov` and `ovr` say
which of them may be nonzero. The mask fields are tested where a member does not take them. -/
def pfxOk (p : Option Pfx) (rnd sat f4 cov ovr : Bool) : Bool :=
  match p with
  | none => true
  | some q =>
    (rnd || q.rnd == 0#3) && !(q.rnd == 7#3) && (sat || !q.sat) && (f4 || (!q.f4e && q.f4 == 0#5)) &&
    (cov || q.cov == 0#2) && (ovr || (!q.ove && q.ovt == 0#3)) && (q.me || !q.zero)

/-- No mask: VQBFP and VDQBFP (R277). -/
def pfxMeOff (p : Option Pfx) : Bool :=
  match p with
  | none => true
  | some q => !q.me

/-- No mask field at all: YDRAIN, which stands outside majors 0x1D to 0x26 (R42). -/
def pfxNoMask (p : Option Pfx) : Bool :=
  match p with
  | none => true
  | some q => !q.me && !q.zero && q.vm == 0#3

/-- The covariance sub-field of a moment word and the covariance of its prefix (R40). -/
def covOk (p : Option Pfx) (cov : BitVec 3) : Bool :=
  match p with
  | none => decide (cov.toNat < 5)
  | some q => cov == 0#3 || (cov == 4#3 && q.cov == 0#2)

/-- A fourth operand of a moment member names m0 to m15 (R42). -/
def f4Moment (p : Option Pfx) : Bool :=
  match p with
  | none => true
  | some q => decide (q.f4.toNat < 16)

/-- The width in bytes of element type `et` (R39). -/
def etBytes (et : BitVec 3) : Nat :=
  match et.toNat with
  | 0 => 1
  | 1 => 2
  | 2 => 4
  | 3 => 8
  | 4 => 2
  | 5 => 2
  | 6 => 4
  | _ => 8

/-- Whether an element type is a floating type (R39). -/
def etFloat (et : BitVec 3) : Bool := decide (4 ≤ et.toNat)

/-- An override type is of the same kind, integer or floating, as the element type (R280). -/
def ovrOk (p : Option Pfx) (et : BitVec 3) : Bool :=
  match p with
  | none => true
  | some q => !q.ove || (etFloat q.ovt == etFloat et)

/-- The part of a VCVT is below the ratio of the widths, and that ratio is not 8 (R276). -/
def vcvtOk (et src : BitVec 3) (part : BitVec 2) : Bool :=
  let f := max (etBytes et) (etBytes src) / min (etBytes et) (etBytes src)
  decide (f < 8) && decide (part.toNat < f)

/-- The field codes of LSET whose value is a capability (R383). -/
def capField (f : BitVec 5) : Bool := decide (f.toNat < 4) || f == 16#5 || f == 17#5

/-- The b field of an LSET of a capability field names k0 to k7 (R380). -/
def lsetOk (f b : BitVec 5) : Bool := !capField f || decide (b.toNat < 8)

/-- Well-formedness: what R50 asks of an instruction beyond its reserved bits. An event has no
encoding, so it is no well-formed instruction word. -/
def Instr.wf : Instr → Bool
  | .add _ _ _ => true
  | .sub _ _ _ => true
  | .mul _ _ _ => true
  | .mulh _ _ _ => true
  | .mulhu _ _ _ => true
  | .div _ _ _ => true
  | .divu _ _ _ => true
  | .rem _ _ _ => true
  | .remu _ _ _ => true
  | .and _ _ _ => true
  | .or _ _ _ => true
  | .xor _ _ _ => true
  | .andn _ _ _ => true
  | .shl _ _ _ => true
  | .shr _ _ _ => true
  | .sra _ _ _ => true
  | .rol _ _ _ => true
  | .min _ _ _ => true
  | .max _ _ _ => true
  | .minu _ _ _ => true
  | .maxu _ _ _ => true
  | .slt _ _ _ => true
  | .sltu _ _ _ => true
  | .seq _ _ _ => true
  | .sne _ _ _ => true
  | .clz _ _ => true
  | .ctz _ _ => true
  | .popc _ _ => true
  | .brev _ _ => true
  | .sext _ _ _ => true
  | .zext _ _ _ => true
  | .sel _ _ _ _ => true
  | .addi _ _ _ => true
  | .andi _ _ _ => true
  | .ori _ _ _ => true
  | .xori _ _ _ => true
  | .shli _ _ imm => decide (imm.toNat < 64)
  | .shri _ _ imm => decide (imm.toNat < 64)
  | .srai _ _ imm => decide (imm.toNat < 64)
  | .slti _ _ _ => true
  | .li _ _ => true
  | .xset _ _ _ => true
  | .mov _ _ => true
  | .xget _ _ => true
  | .xsetr _ _ => true
  | .nclr _ => true
  | .nwr _ _ _ slot => decide (slot.toNat < 12)
  | .ntest _ _ => true
  | .borrow _ _ => true
  | .brd _ _ => true
  | .bwr _ _ => true
  | .bret => true
  | .qsend _ _ => true
  | .qrecv _ _ => true
  | .qstat _ _ => true
  | .rng _ => true
  | .rngseed _ => true
  | .cycle _ => true
  | .mfs _ sys => sysAssigned sys
  | .mts sys _ => sysAssigned sys
  | .mtsi sys _ _ => sysAssigned sys
  | .cgeta _ _ => true
  | .cgetb _ _ => true
  | .cgetl _ _ => true
  | .cgetp _ _ => true
  | .ctag _ _ => true
  | .cmov _ _ => true
  | .cseta _ _ _ => true
  | .cinc _ _ _ => true
  | .cbound _ _ _ _ => true
  | .cperm _ _ _ => true
  | .cgen _ _ => true
  | .cclr _ => true
  | .ceq _ _ _ => true
  | .csub _ _ _ => true
  | .ldk _ _ => true
  | .beq _ _ _ => true
  | .bne _ _ _ => true
  | .blt _ _ _ => true
  | .bge _ _ _ => true
  | .bltu _ _ _ => true
  | .bgeu _ _ _ => true
  | .bbs _ _ _ => true
  | .bbc _ _ _ => true
  | .bez _ _ => true
  | .bnz _ _ => true
  | .bgs _ _ => true
  | .bgc _ _ => true
  | .j _ => true
  | .call _ => true
  | .jk _ => true
  | .callk _ => true
  | .loop _ off => decide (2 ≤ off.toNat)
  | .loopm _ off => decide (2 ≤ off.toNat)
  | .loopi _ off => decide (2 ≤ off.toNat)
  | .gset _ _ _ _ => true
  | .gsetn _ _ _ _ => true
  | .gclr _ => true
  | .gwait _ => true
  | .ld _ _ _ _ => true
  | .st _ _ _ _ _ => true
  | .ldx _ _ _ _ _ _ => true
  | .stx _ _ _ _ _ _ => true
  | .ldc _ _ _ => true
  | .stc _ _ _ => true
  | .aadd _ _ _ _ _ => true
  | .aand _ _ _ _ _ => true
  | .aor _ _ _ _ _ => true
  | .axor _ _ _ _ _ => true
  | .amin _ _ _ _ _ => true
  | .amax _ _ _ _ _ => true
  | .aminu _ _ _ _ _ => true
  | .amaxu _ _ _ _ _ => true
  | .aswp _ _ _ _ _ => true
  | .acas _ _ _ _ _ => true
  | .afadd _ _ _ _ _ => true
  | .fence kind scope => decide (kind.toNat < 3) && decide (scope.toNat < 6)
  | .efence => true
  | .ifence => true
  | .rst _ _ _ => true
  | .amsg _ _ => true
  | .rdrain => true
  | .spawn _ _ => true
  | .start _ _ => true
  | .done => true
  | .yield _ _ => true
  | .join _ _ => true
  | .walk _ _ _ => true
  | .launch _ _ _ => true
  | .launchi _ _ _ => true
  | .gang _ _ => true
  | .submit _ _ => true
  | .dline _ _ => true
  | .self _ => true
  | .finit _ => true
  | .fres _ _ _ => true
  | .freg _ _ _ => true
  | .fget _ _ => true
  | .fstat _ _ => true
  | .rinit _ _ s => decide (s.toNat < 25)
  | .rclaim scope _ _ _ => decide (scope.toNat < 6)
  | .rtryclaim scope _ _ _ => decide (scope.toNat < 6)
  | .rcommit scope _ _ _ => decide (scope.toNat < 6)
  | .rawait scope _ _ _ => decide (scope.toNat < 6)
  | .rretire scope _ _ _ => decide (scope.toNat < 6)
  | .binit _ _ => true
  | .barrive scope _ _ _ => decide (scope.toNat < 6)
  | .bexpect _ _ => true
  | .bwait scope _ _ => decide (scope.toNat < 6)
  | .btest scope _ _ _ => decide (scope.toNat < 6)
  | .trap _ => true
  | .rte => true
  | .svc _ _ _ => true
  | .brk => true
  | .chkpt _ => true
  | .realign _ => true
  | .wfi _ _ => true
  | .halt => true
  | .tinv _ _ _ => true
  | .vclaim _ _ _ => true
  | .vreneg _ _ _ => true
  | .vrel => true
  | .vadd p et _ _ _ => decide (et.toNat < 4) && pfxOk p false true false false false
  | .vsub p et _ _ _ => decide (et.toNat < 4) && pfxOk p false true false false false
  | .vmul p et _ _ _ => decide (et.toNat < 4) && pfxOk p false true false false false
  | .vmulh p et _ _ _ => decide (et.toNat < 4) && pfxOk p false true false false false
  | .vmin p et _ _ _ => decide (et.toNat < 4) && pfxOk p false true false false false
  | .vmax p et _ _ _ => decide (et.toNat < 4) && pfxOk p false true false false false
  | .vminu p et _ _ _ => decide (et.toNat < 4) && pfxOk p false true false false false
  | .vmaxu p et _ _ _ => decide (et.toNat < 4) && pfxOk p false true false false false
  | .vand p et _ _ _ => decide (et.toNat < 4) && pfxOk p false true false false false
  | .vor p et _ _ _ => decide (et.toNat < 4) && pfxOk p false true false false false
  | .vxor p et _ _ _ => decide (et.toNat < 4) && pfxOk p false true false false false
  | .vshl p et _ _ _ => decide (et.toNat < 4) && pfxOk p false true false false false
  | .vshr p et _ _ _ => decide (et.toNat < 4) && pfxOk p false true false false false
  | .vsra p et _ _ _ => decide (et.toNat < 4) && pfxOk p false true false false false
  | .vabs p et _ _ => decide (et.toNat < 4) && pfxOk p false true false false false
  | .vsadd p et _ _ _ => decide (et.toNat < 4) && pfxOk p false true false false false
  | .vssub p et _ _ _ => decide (et.toNat < 4) && pfxOk p false true false false false
  | .vfadd p et _ _ _ => decide (4 ≤ et.toNat) && pfxOk p true true false false false
  | .vfsub p et _ _ _ => decide (4 ≤ et.toNat) && pfxOk p true true false false false
  | .vfmul p et _ _ _ => decide (4 ≤ et.toNat) && pfxOk p true true false false false
  | .vfma p et _ _ _ => decide (4 ≤ et.toNat) && pfxOk p true true true false false
  | .vfdiv p et _ _ _ => decide (4 ≤ et.toNat) && pfxOk p true true false false false
  | .vfsqrt p et _ _ => decide (4 ≤ et.toNat) && pfxOk p true true false false false
  | .vfmin p et _ _ _ => decide (4 ≤ et.toNat) && pfxOk p true true false false false
  | .vfmax p et _ _ _ => decide (4 ≤ et.toNat) && pfxOk p true true false false false
  | .vfabs p et _ _ => decide (4 ≤ et.toNat) && pfxOk p true true false false false
  | .vfneg p et _ _ => decide (4 ≤ et.toNat) && pfxOk p true true false false false
  | .vfrcp p et _ _ => decide (4 ≤ et.toNat) && pfxOk p true true false false false
  | .vfrsq p et _ _ => decide (4 ≤ et.toNat) && pfxOk p true true false false false
  | .vfexp2 p et _ _ => decide (4 ≤ et.toNat) && decide (et.toNat < 7) && pfxOk p true true false false false
  | .vflog2 p et _ _ => decide (4 ≤ et.toNat) && decide (et.toNat < 7) && pfxOk p true true false false false
  | .vfclass p et _ _ => decide (4 ≤ et.toNat) && pfxOk p true true false false false
  | .vcmp p et _ _ _ _ => (et == 2#3 || et == 3#3) && pfxOk p false false false false false
  | .vfcmp p et _ _ _ _ => (et == 6#3 || et == 7#3) && pfxOk p false false false false false
  | .vmand p _ _ _ => pfxOk p false false false false false
  | .vmor p _ _ _ => pfxOk p false false false false false
  | .vmxor p _ _ _ => pfxOk p false false false false false
  | .vmnot p _ _ => pfxOk p false false false false false
  | .vmpop p _ _ => pfxOk p false false false false false
  | .vmfirst p _ _ => pfxOk p false false false false false
  | .vcvt p et _ _ src part => vcvtOk et src part && pfxOk p true true false false false
  | .vqbfp p et _ _ m1 => decide (1 ≤ m1.toNat) && (et == 4#3 || et == 6#3) && pfxMeOff p && pfxOk p true true false false false
  | .vdqbfp p et _ _ m1 => decide (1 ≤ m1.toNat) && (et == 4#3 || et == 6#3) && pfxMeOff p && pfxOk p true true false false false
  | .vld p et _ _ _ => ovrOk p et && pfxOk p false false false false true
  | .vst p et _ _ _ => ovrOk p et && pfxOk p false false false false true
  | .vlds p et _ _ _ => ovrOk p et && pfxOk p false false false false true
  | .vsts p et _ _ _ => ovrOk p et && pfxOk p false false false false true
  | .vgth p et _ _ _ => (et == 2#3 || et == 3#3 || et == 6#3 || et == 7#3) && ovrOk p et && pfxOk p false false false false true
  | .vsct p et _ _ _ => (et == 2#3 || et == 3#3 || et == 6#3 || et == 7#3) && ovrOk p et && pfxOk p false false false false true
  | .vbcast p _ _ _ => pfxOk p false false false false false
  | .vext p _ _ _ _ => pfxOk p false false false false false
  | .vins p _ _ _ _ => pfxOk p false false false false false
  | .viota p et _ => decide (et.toNat < 4) && pfxOk p false false false false false
  | .vshuf p _ _ _ _ => pfxOk p false false true false false
  | .vredsum p _ _ _ => pfxOk p false false false false false
  | .vredmax p _ _ _ => pfxOk p false false false false false
  | .vredmin p _ _ _ => pfxOk p false false false false false
  | .vtbl p et _ _ _ => (et == 4#3 || et == 6#3) && pfxOk p false false false false false
  | .vrng p et _ => decide (et.toNat < 4) && pfxOk p false false false false false
  | .vrngn p et _ => (et == 4#3 || et == 6#3) && pfxOk p false false false false false
  | .madd p cov _ _ _ => covOk p cov && pfxOk p false false false true false
  | .msub p cov _ _ _ => covOk p cov && pfxOk p false false false true false
  | .mmul p cov _ _ _ => covOk p cov && pfxOk p false false false true false
  | .mscale p _ _ _ => pfxOk p false false false false false
  | .mfma p cov _ _ _ => covOk p cov && f4Moment p && pfxOk p false false true true false
  | .mneg p _ _ => pfxOk p false false false false false
  | .mrelu p _ _ => pfxOk p false false false false false
  | .msig p _ _ => pfxOk p false false false false false
  | .mexp p _ _ => pfxOk p false false false false false
  | .msqr p _ _ => pfxOk p false false false false false
  | .mset p _ _ _ => pfxOk p false false false false false
  | .mmean p _ _ => pfxOk p false false false false false
  | .mvar p _ _ => pfxOk p false false false false false
  | .mcoll p mode _ _ => decide (mode.toNat < 5) && pfxOk p false false false false false
  | .mld p _ _ _ => pfxOk p false false false false false
  | .mst p _ _ _ => pfxOk p false false false false false
  | .mchk p _ _ => pfxOk p false false false false false
  | .zld _ _ _ _ => true
  | .zst _ _ _ => true
  | .zzero _ => true
  | .zrel _ => true
  | .zstate _ _ => true
  | .zmov _ _ => true
  | .wload _ => true
  | .wswap => true
  | .mma _ _ => true
  | .mmam _ _ => true
  | .yzero _ _ => true
  | .ydrain p _ _ _ _ => pfxNoMask p && pfxOk p true true false false false
  | .ymov _ _ => true
  | .qfuse _ => true
  | .qsplit _ => true
  | .copy _ ge sense g => (ge || (!sense && g == 0#4))
  | .xform _ ge sense g => (ge || (!sense && g == 0#4))
  | .coll _ ge sense g => (ge || (!sense && g == 0#4))
  | .trace _ ge sense g => (ge || (!sense && g == 0#4))
  | .ewait _ _ => true
  | .estat _ _ => true
  | .lnew _ _ => true
  | .lfree _ => true
  | .lset f _ b => lsetOk f b
  | .lget _ _ _ => true
  | .lest _ _ => true
  | .lprice _ _ => true
  | .lreq _ => true
  | .lreqS _ => true
  | .lbegin _ => true
  | .ldone _ => true
  | .lsplit _ _ => true
  | .lmerge _ _ => true
  | .llight _ _ => true
  | .compose _ => true
  | .slaunch _ _ => true
  | .sresid _ => true
  | .sresidm _ _ => true
  | .sabort => true
  | .sstat _ _ => true
  | .addC _ _ => true
  | .subC _ _ => true
  | .andC _ _ => true
  | .orC _ _ => true
  | .xorC _ _ => true
  | .mulC _ _ => true
  | .sltC _ _ => true
  | .seqC _ _ => true
  | .shliC _ _ _ => true
  | .shriC _ _ _ => true
  | .addiC _ _ _ => true
  | .movCToNamed _ _ => true
  | .movCFromNamed _ => true
  | .liC _ _ _ => true
  | .movCAge _ => true
  | .nop => true
  | .jC _ => true
  | .bezC _ => true
  | .bnzC _ => true
  | .lexit => true
  | .doneC => true
  | .chkptC _ => true
  | .realignC _ => true
  | .retC => true
  | .nclrC _ => true
  | .fenceCoreC => true
  | .mailboxWrite _ _ _ => false
  | .mbxpClear _ _ => false
  | .heldMailboxWrite _ _ => false
  | .guardResolve _ _ => false
  | .homeAccess _ => false
  | .pageWalk _ _ _ => false
  | .nwrHeldWrite _ _ => false
  | .nwrWithdrawal _ => false
  | .rstReturn _ => false
  | .amsgRun _ => false
  | .amsgTimeout _ => false
  | .holdClear _ => false
  | .holdTimeout _ => false
  | .dispatch _ => false
  | .recordWalkHop _ => false
  | .gangStart _ => false
  | .launchiCountRead _ => false
  | .recordRelease _ => false
  | .groupCountStep _ => false
  | .chargeExhausted _ => false
  | .budgetExhausted _ => false
  | .graceExhausted _ => false
  | .parkedWithdrawal _ => false
  | .realignTimeout _ => false
  | .svcAnswer _ _ => false
  | .preemptRequest _ => false
  | .preemptTimeout _ => false
  | .spillSave _ => false
  | .granuleFill _ => false
  | .zldComplete _ _ => false
  | .tileDrainDone _ _ => false
  | .wloadExecute _ => false
  | .wswapExecute _ => false
  | .mmaExecute _ => false
  | .mmamExecute _ => false
  | .yzeroExecute _ => false
  | .ydrainExecute _ => false
  | .ymovExecute _ => false
  | .tileStateDrain _ => false
  | .cardStart _ _ => false
  | .cardFinish _ _ => false
  | .collTimeout _ _ => false
  | .codebookBankWrite _ _ => false
  | .checkChargeExhausted _ => false
  | .enqueueWindowSpawn _ _ _ => false
  | .enqueueWindowSubmit _ _ _ => false
  | .enqueueWindowSpawnResult _ _ => false
  | .enqueueWindowSubmitResult _ _ => false
  | .partitionStart _ _ _ _ _ _ _ _ => false
  | .boot _ _ _ => false
  | .linkTrain _ _ => false
  | .tenantSwitch _ _ => false
  | .flitArbitration _ => false
  | .creditReturn _ _ _ => false
  | .hostModuleFailure _ => false
  | .fabricPortFailure _ => false
  | .serviceCoreRestart _ => false
  | .attestationRequest _ => false
  | .patrolScrub _ => false
  | .correctedError _ _ => false
  | .uncorrectableError _ => false
  | .partitionReset _ _ => false
  | .flitRetry _ => false

end Sys2Proof
end

