-- ==== Sys2Proof/Decode.lean ====
section
/-!
DEFINITION. Decoding and encoding (R26 to R52). `decodeBytes` reads the instruction at the front of a byte
string and refuses, by name, what is no instruction; `encode` gives the bits of an instruction. Both are
written from the field layouts of R34, R41, R44 and R45 and the opcode map of R37.

`noncomputable` stands only where Lean's runtime has no tag for a constructor beyond its 245th that carries
fields; the kernel evaluates every definition here.
-/

namespace Sys2Proof

open Sys2Proof.Machine (fld bitAt ofBytes toBytes)

/-- Why a byte string holds no instruction. -/
inductive DecodeErr where
  /-- Not an instruction (R50). `len` is the length its first halfword gives, `tval` the bits by R52. -/
  | illop (len : Nat) (tval : U64)
  /-- A prefix before a word that cannot carry one (R27). -/
  | illpfx (tval : U64)
  /-- The byte string ends before the instruction does. -/
  | short
  deriving DecidableEq, Repr

/-- A 5-bit scalar source field (R31). -/
def Src.ofBits (f : BitVec 5) : Src := if f.getLsbD 4 then .nam (fld f 0 4) else .age (fld f 0 4)

/-- The field of a scalar source (R31). -/
def Src.bits : Src → BitVec 5
  | .age i => 0#1 ++ i
  | .nam i => 1#1 ++ i

/-- A 5-bit scalar destination field (R32); 1 to 15 name nothing. -/
def Dst.ofBits (f : BitVec 5) : Option Dst :=
  if f.getLsbD 4 then some (.nam (fld f 0 4)) else if f = 0#5 then some .queue else none

/-- The field of a scalar destination (R32). -/
def Dst.bits : Dst → BitVec 5
  | .queue => 0#5
  | .nam i => 1#1 ++ i

/-- The prefix that a word with 0b11 in its low bits holds (R41); a nonzero reserved bit is refused. -/
def Pfx.ofWord (w : U32) : Option Pfx :=
  if fld w 23 9 = 0#9 then
    some { ovt := fld w 20 3, ove := bitAt w 19, cov := fld w 17 2, f4e := bitAt w 16, f4 := fld w 11 5,
           sat := bitAt w 10, rnd := fld w 7 3, zero := bitAt w 6, me := bitAt w 5, vm := fld w 2 3 }
  else none

/-- The word of a prefix (R41). -/
def Pfx.word (q : Pfx) : U32 :=
  0#9 ++ q.ovt ++ BitVec.ofBool q.ove ++ q.cov ++ BitVec.ofBool q.f4e ++ q.f4 ++ BitVec.ofBool q.sat ++ q.rnd ++
    BitVec.ofBool q.zero ++ BitVec.ofBool q.me ++ q.vm ++ 3#2

/-- A word of these majors, or YDRAIN, may follow a prefix (R27). -/
def prefixable (w : U32) : Bool :=
  let m := (fld w 2 6).toNat
  (0x1D ≤ m && m ≤ 0x26) || (m == 0x28 && fld w 23 5 == 5#5)

/-- IALU, major 0x01 (R37). -/
def decIalu (w : U32) : Option Instr :=
  match (fld w 23 5).toNat with
  | 0 => if fld w 28 4 = 0#4 then (Dst.ofBits (fld w 8 5)).map fun d => .add d (.ofBits (fld w 13 5)) (.ofBits (fld w 18 5)) else none
  | 1 => if fld w 28 4 = 0#4 then (Dst.ofBits (fld w 8 5)).map fun d => .sub d (.ofBits (fld w 13 5)) (.ofBits (fld w 18 5)) else none
  | 2 => if fld w 28 4 = 0#4 then (Dst.ofBits (fld w 8 5)).map fun d => .mul d (.ofBits (fld w 13 5)) (.ofBits (fld w 18 5)) else none
  | 3 => if fld w 28 4 = 0#4 then (Dst.ofBits (fld w 8 5)).map fun d => .mulh d (.ofBits (fld w 13 5)) (.ofBits (fld w 18 5)) else none
  | 4 => if fld w 28 4 = 0#4 then (Dst.ofBits (fld w 8 5)).map fun d => .mulhu d (.ofBits (fld w 13 5)) (.ofBits (fld w 18 5)) else none
  | 5 => if fld w 28 4 = 0#4 then (Dst.ofBits (fld w 8 5)).map fun d => .div d (.ofBits (fld w 13 5)) (.ofBits (fld w 18 5)) else none
  | 6 => if fld w 28 4 = 0#4 then (Dst.ofBits (fld w 8 5)).map fun d => .divu d (.ofBits (fld w 13 5)) (.ofBits (fld w 18 5)) else none
  | 7 => if fld w 28 4 = 0#4 then (Dst.ofBits (fld w 8 5)).map fun d => .rem d (.ofBits (fld w 13 5)) (.ofBits (fld w 18 5)) else none
  | 8 => if fld w 28 4 = 0#4 then (Dst.ofBits (fld w 8 5)).map fun d => .remu d (.ofBits (fld w 13 5)) (.ofBits (fld w 18 5)) else none
  | 9 => if fld w 28 4 = 0#4 then (Dst.ofBits (fld w 8 5)).map fun d => .and d (.ofBits (fld w 13 5)) (.ofBits (fld w 18 5)) else none
  | 10 => if fld w 28 4 = 0#4 then (Dst.ofBits (fld w 8 5)).map fun d => .or d (.ofBits (fld w 13 5)) (.ofBits (fld w 18 5)) else none
  | 11 => if fld w 28 4 = 0#4 then (Dst.ofBits (fld w 8 5)).map fun d => .xor d (.ofBits (fld w 13 5)) (.ofBits (fld w 18 5)) else none
  | 12 => if fld w 28 4 = 0#4 then (Dst.ofBits (fld w 8 5)).map fun d => .andn d (.ofBits (fld w 13 5)) (.ofBits (fld w 18 5)) else none
  | 13 => if fld w 28 4 = 0#4 then (Dst.ofBits (fld w 8 5)).map fun d => .shl d (.ofBits (fld w 13 5)) (.ofBits (fld w 18 5)) else none
  | 14 => if fld w 28 4 = 0#4 then (Dst.ofBits (fld w 8 5)).map fun d => .shr d (.ofBits (fld w 13 5)) (.ofBits (fld w 18 5)) else none
  | 15 => if fld w 28 4 = 0#4 then (Dst.ofBits (fld w 8 5)).map fun d => .sra d (.ofBits (fld w 13 5)) (.ofBits (fld w 18 5)) else none
  | 16 => if fld w 28 4 = 0#4 then (Dst.ofBits (fld w 8 5)).map fun d => .rol d (.ofBits (fld w 13 5)) (.ofBits (fld w 18 5)) else none
  | 17 => if fld w 28 4 = 0#4 then (Dst.ofBits (fld w 8 5)).map fun d => .min d (.ofBits (fld w 13 5)) (.ofBits (fld w 18 5)) else none
  | 18 => if fld w 28 4 = 0#4 then (Dst.ofBits (fld w 8 5)).map fun d => .max d (.ofBits (fld w 13 5)) (.ofBits (fld w 18 5)) else none
  | 19 => if fld w 28 4 = 0#4 then (Dst.ofBits (fld w 8 5)).map fun d => .minu d (.ofBits (fld w 13 5)) (.ofBits (fld w 18 5)) else none
  | 20 => if fld w 28 4 = 0#4 then (Dst.ofBits (fld w 8 5)).map fun d => .maxu d (.ofBits (fld w 13 5)) (.ofBits (fld w 18 5)) else none
  | 21 => if fld w 28 4 = 0#4 then (Dst.ofBits (fld w 8 5)).map fun d => .slt d (.ofBits (fld w 13 5)) (.ofBits (fld w 18 5)) else none
  | 22 => if fld w 28 4 = 0#4 then (Dst.ofBits (fld w 8 5)).map fun d => .sltu d (.ofBits (fld w 13 5)) (.ofBits (fld w 18 5)) else none
  | 23 => if fld w 28 4 = 0#4 then (Dst.ofBits (fld w 8 5)).map fun d => .seq d (.ofBits (fld w 13 5)) (.ofBits (fld w 18 5)) else none
  | 24 => if fld w 28 4 = 0#4 then (Dst.ofBits (fld w 8 5)).map fun d => .sne d (.ofBits (fld w 13 5)) (.ofBits (fld w 18 5)) else none
  | 25 => if fld w 28 4 = 0#4 ∧ fld w 18 5 = 0#5 then (Dst.ofBits (fld w 8 5)).map fun d => .clz d (.ofBits (fld w 13 5)) else none
  | 26 => if fld w 28 4 = 0#4 ∧ fld w 18 5 = 0#5 then (Dst.ofBits (fld w 8 5)).map fun d => .ctz d (.ofBits (fld w 13 5)) else none
  | 27 => if fld w 28 4 = 0#4 ∧ fld w 18 5 = 0#5 then (Dst.ofBits (fld w 8 5)).map fun d => .popc d (.ofBits (fld w 13 5)) else none
  | 28 => if fld w 28 4 = 0#4 ∧ fld w 18 5 = 0#5 then (Dst.ofBits (fld w 8 5)).map fun d => .brev d (.ofBits (fld w 13 5)) else none
  | 29 => if fld w 28 4 = 0#4 then (Dst.ofBits (fld w 8 5)).map fun d => .sext d (.ofBits (fld w 13 5)) (.ofBits (fld w 18 5)) else none
  | 30 => if fld w 28 4 = 0#4 then (Dst.ofBits (fld w 8 5)).map fun d => .zext d (.ofBits (fld w 13 5)) (.ofBits (fld w 18 5)) else none
  | _ => (Dst.ofBits (fld w 8 5)).map fun d => .sel d (.ofBits (fld w 13 5)) (.ofBits (fld w 18 5)) (fld w 28 4)

/-- IIMM, major 0x02 (R37). -/
def decIimm (w : U32) : Option Instr :=
  match (fld w 18 3).toNat with
  | 0 => (Dst.ofBits (fld w 8 5)).map fun d => .addi d (.ofBits (fld w 13 5)) (fld w 21 11)
  | 1 => (Dst.ofBits (fld w 8 5)).map fun d => .andi d (.ofBits (fld w 13 5)) (fld w 21 11)
  | 2 => (Dst.ofBits (fld w 8 5)).map fun d => .ori d (.ofBits (fld w 13 5)) (fld w 21 11)
  | 3 => (Dst.ofBits (fld w 8 5)).map fun d => .xori d (.ofBits (fld w 13 5)) (fld w 21 11)
  | 4 => (Dst.ofBits (fld w 8 5)).map fun d => .shli d (.ofBits (fld w 13 5)) (fld w 21 11)
  | 5 => (Dst.ofBits (fld w 8 5)).map fun d => .shri d (.ofBits (fld w 13 5)) (fld w 21 11)
  | 6 => (Dst.ofBits (fld w 8 5)).map fun d => .srai d (.ofBits (fld w 13 5)) (fld w 21 11)
  | _ => (Dst.ofBits (fld w 8 5)).map fun d => .slti d (.ofBits (fld w 13 5)) (fld w 21 11)

/-- LI, major 0x03 (R37). -/
def decLi (w : U32) : Option Instr :=
  (Dst.ofBits (fld w 8 5)).map fun d => .li d (fld w 13 19)

/-- XSET, major 0x04 (R37). -/
def decXset (w : U32) : Option Instr :=
  if fld w 13 3 = 0#3 then some (.xset (fld w 8 3) (fld w 16 16) (fld w 11 2)) else none

/-- MOVE, major 0x05 (R37). -/
def decMove (w : U32) : Option Instr :=
  match (fld w 23 5).toNat with
  | 0 => if fld w 28 4 = 0#4 ∧ fld w 18 5 = 0#5 then (Dst.ofBits (fld w 8 5)).map fun d => .mov d (.ofBits (fld w 13 5)) else none
  | 1 => if fld w 28 4 = 0#4 ∧ fld w 18 5 = 0#5 ∧ fld w 16 2 = 0#2 then (Dst.ofBits (fld w 8 5)).map fun d => .xget d (fld w 13 3) else none
  | 2 => if fld w 28 4 = 0#4 ∧ fld w 18 5 = 0#5 ∧ fld w 11 2 = 0#2 then some (.xsetr (fld w 8 3) (.ofBits (fld w 13 5))) else none
  | 3 => if fld w 28 4 = 0#4 ∧ fld w 18 5 = 0#5 ∧ fld w 13 5 = 0#5 ∧ fld w 12 1 = 1#1 then some (.nclr (fld w 8 4)) else none
  | 4 => if fld w 30 2 = 0#2 ∧ fld w 12 1 = 1#1 then some (.nwr (fld w 28 2) (fld w 8 4) (.ofBits (fld w 13 5)) (fld w 18 5)) else none
  | 5 => if fld w 28 4 = 0#4 ∧ fld w 18 5 = 0#5 ∧ fld w 17 1 = 1#1 then (Dst.ofBits (fld w 8 5)).map fun d => .ntest d (fld w 13 4) else none
  | 6 => if fld w 28 4 = 0#4 ∧ fld w 18 5 = 0#5 then (Dst.ofBits (fld w 8 5)).map fun d => .borrow d (.ofBits (fld w 13 5)) else none
  | 7 => if fld w 28 4 = 0#4 ∧ fld w 18 5 = 0#5 ∧ fld w 17 1 = 1#1 then (Dst.ofBits (fld w 8 5)).map fun d => .brd d (fld w 13 4) else none
  | 8 => if fld w 28 4 = 0#4 ∧ fld w 18 5 = 0#5 ∧ fld w 12 1 = 1#1 then some (.bwr (fld w 8 4) (.ofBits (fld w 13 5))) else none
  | 9 => if fld w 28 4 = 0#4 ∧ fld w 18 5 = 0#5 ∧ fld w 13 5 = 0#5 ∧ fld w 8 5 = 0#5 then some .bret else none
  | 10 => if fld w 28 4 = 0#4 ∧ fld w 18 5 = 0#5 ∧ fld w 11 2 = 0#2 then some (.qsend (fld w 8 3) (.ofBits (fld w 13 5))) else none
  | 11 => if fld w 28 4 = 0#4 ∧ fld w 18 5 = 0#5 ∧ fld w 16 2 = 0#2 then (Dst.ofBits (fld w 8 5)).map fun d => .qrecv d (fld w 13 3) else none
  | 12 => if fld w 28 4 = 0#4 ∧ fld w 18 5 = 0#5 ∧ fld w 16 2 = 0#2 then (Dst.ofBits (fld w 8 5)).map fun d => .qstat d (fld w 13 3) else none
  | 13 => if fld w 28 4 = 0#4 ∧ fld w 18 5 = 0#5 ∧ fld w 13 5 = 0#5 then (Dst.ofBits (fld w 8 5)).map fun d => .rng d else none
  | 14 => if fld w 28 4 = 0#4 ∧ fld w 18 5 = 0#5 ∧ fld w 8 5 = 0#5 then some (.rngseed (.ofBits (fld w 13 5))) else none
  | 15 => if fld w 28 4 = 0#4 ∧ fld w 18 5 = 0#5 ∧ fld w 13 5 = 0#5 then (Dst.ofBits (fld w 8 5)).map fun d => .cycle d else none
  | _ => none

/-- SYSREG, major 0x06 (R37). -/
def decSysreg (w : U32) : Option Instr :=
  match (fld w 13 2).toNat with
  | 0 => if fld w 30 2 = 0#2 ∧ fld w 15 3 = 0#3 then (Dst.ofBits (fld w 8 5)).map fun d => .mfs d (fld w 18 12) else none
  | 1 => if fld w 30 2 = 0#2 ∧ fld w 15 3 = 0#3 then some (.mts (fld w 18 12) (.ofBits (fld w 8 5))) else none
  | 2 => if fld w 30 2 = 0#2 then some (.mtsi (fld w 18 12) (fld w 15 3) (fld w 8 5)) else none
  | _ => none

/-- CAP, major 0x07 (R37). -/
def decCap (w : U32) : Option Instr :=
  match (fld w 23 5).toNat with
  | 0 => if fld w 28 4 = 0#4 ∧ fld w 18 5 = 0#5 ∧ fld w 16 2 = 0#2 then (Dst.ofBits (fld w 8 5)).map fun d => .cgeta d (fld w 13 3) else none
  | 1 => if fld w 28 4 = 0#4 ∧ fld w 18 5 = 0#5 ∧ fld w 16 2 = 0#2 then (Dst.ofBits (fld w 8 5)).map fun d => .cgetb d (fld w 13 3) else none
  | 2 => if fld w 28 4 = 0#4 ∧ fld w 18 5 = 0#5 ∧ fld w 16 2 = 0#2 then (Dst.ofBits (fld w 8 5)).map fun d => .cgetl d (fld w 13 3) else none
  | 3 => if fld w 28 4 = 0#4 ∧ fld w 18 5 = 0#5 ∧ fld w 16 2 = 0#2 then (Dst.ofBits (fld w 8 5)).map fun d => .cgetp d (fld w 13 3) else none
  | 4 => if fld w 28 4 = 0#4 ∧ fld w 18 5 = 0#5 ∧ fld w 16 2 = 0#2 then (Dst.ofBits (fld w 8 5)).map fun d => .ctag d (fld w 13 3) else none
  | 5 => if fld w 28 4 = 0#4 ∧ fld w 18 5 = 0#5 ∧ fld w 16 2 = 0#2 ∧ fld w 11 2 = 0#2 then some (.cmov (fld w 8 3) (fld w 13 3)) else none
  | 6 => if fld w 28 4 = 0#4 ∧ fld w 16 2 = 0#2 ∧ fld w 11 2 = 0#2 then some (.cseta (fld w 8 3) (fld w 13 3) (.ofBits (fld w 18 5))) else none
  | 7 => if fld w 28 4 = 0#4 ∧ fld w 16 2 = 0#2 ∧ fld w 11 2 = 0#2 then some (.cinc (fld w 8 3) (fld w 13 3) (.ofBits (fld w 18 5))) else none
  | 8 => if fld w 29 3 = 0#3 ∧ fld w 16 2 = 0#2 ∧ fld w 11 2 = 0#2 then some (.cbound (bitAt w 28) (fld w 8 3) (fld w 13 3) (.ofBits (fld w 18 5))) else none
  | 9 => if fld w 28 4 = 0#4 ∧ fld w 16 2 = 0#2 ∧ fld w 11 2 = 0#2 then some (.cperm (fld w 8 3) (fld w 13 3) (.ofBits (fld w 18 5))) else none
  | 10 => if fld w 28 4 = 0#4 ∧ fld w 18 5 = 0#5 ∧ fld w 16 2 = 0#2 ∧ fld w 11 2 = 0#2 then some (.cgen (fld w 8 3) (fld w 13 3)) else none
  | 11 => if fld w 28 4 = 0#4 ∧ fld w 18 5 = 0#5 ∧ fld w 13 5 = 0#5 ∧ fld w 11 2 = 0#2 then some (.cclr (fld w 8 3)) else none
  | 12 => if fld w 28 4 = 0#4 ∧ fld w 21 2 = 0#2 ∧ fld w 16 2 = 0#2 then (Dst.ofBits (fld w 8 5)).map fun d => .ceq d (fld w 13 3) (fld w 18 3) else none
  | 13 => if fld w 28 4 = 0#4 ∧ fld w 21 2 = 0#2 ∧ fld w 16 2 = 0#2 then (Dst.ofBits (fld w 8 5)).map fun d => .csub d (fld w 13 3) (fld w 18 3) else none
  | 14 => if fld w 28 4 = 0#4 ∧ fld w 11 2 = 0#2 then some (.ldk (fld w 8 3) (fld w 13 10)) else none
  | _ => none

/-- BRC, major 0x08 (R37). -/
def decBrc (w : U32) : Option Instr :=
  match (fld w 18 3).toNat with
  | 0 => some (.beq (.ofBits (fld w 8 5)) (.ofBits (fld w 13 5)) (fld w 21 11))
  | 1 => some (.bne (.ofBits (fld w 8 5)) (.ofBits (fld w 13 5)) (fld w 21 11))
  | 2 => some (.blt (.ofBits (fld w 8 5)) (.ofBits (fld w 13 5)) (fld w 21 11))
  | 3 => some (.bge (.ofBits (fld w 8 5)) (.ofBits (fld w 13 5)) (fld w 21 11))
  | 4 => some (.bltu (.ofBits (fld w 8 5)) (.ofBits (fld w 13 5)) (fld w 21 11))
  | 5 => some (.bgeu (.ofBits (fld w 8 5)) (.ofBits (fld w 13 5)) (fld w 21 11))
  | 6 => some (.bbs (.ofBits (fld w 8 5)) (.ofBits (fld w 13 5)) (fld w 21 11))
  | _ => some (.bbc (.ofBits (fld w 8 5)) (.ofBits (fld w 13 5)) (fld w 21 11))

/-- BRZ, major 0x09 (R37). -/
def decBrz (w : U32) : Option Instr :=
  match (fld w 13 1).toNat with
  | 0 => some (.bez (.ofBits (fld w 8 5)) (fld w 14 18))
  | _ => some (.bnz (.ofBits (fld w 8 5)) (fld w 14 18))

/-- BRG, major 0x0A (R37). -/
def decBrg (w : U32) : Option Instr :=
  match (fld w 12 1).toNat with
  | 0 => if fld w 13 1 = 0#1 then some (.bgs (fld w 8 4) (fld w 14 18)) else none
  | _ => if fld w 13 1 = 0#1 then some (.bgc (fld w 8 4) (fld w 14 18)) else none

/-- JUMP, major 0x0B (R37). -/
def decJump (w : U32) : Option Instr :=
  match (fld w 8 1).toNat with
  | 0 => some (.j (fld w 9 23))
  | _ => some (.call (fld w 9 23))

/-- JK, major 0x0C (R37). -/
def decJk (w : U32) : Option Instr :=
  match (fld w 11 1).toNat with
  | 0 => if fld w 12 20 = 0#20 then some (.jk (fld w 8 3)) else none
  | _ => if fld w 12 20 = 0#20 then some (.callk (fld w 8 3)) else none

/-- LOOP, major 0x0D (R37). -/
def decLoop (w : U32) : Option Instr :=
  match (fld w 13 1).toNat with
  | 0 => some (.loop (.ofBits (fld w 8 5)) (fld w 14 18))
  | _ => if fld w 11 2 = 0#2 then some (.loopm (fld w 8 3) (fld w 14 18)) else none

/-- LOOPI, major 0x0E (R37). -/
def decLoopi (w : U32) : Option Instr :=
  some (.loopi (fld w 8 10) (fld w 18 14))

/-- GUARD, major 0x0F (R37). -/
def decGuard (w : U32) : Option Instr :=
  match (fld w 26 2).toNat with
  | 0 => if fld w 28 4 = 0#4 ∧ fld w 12 1 = 0#1 then some (.gset (fld w 23 3) (fld w 8 4) (.ofBits (fld w 13 5)) (.ofBits (fld w 18 5))) else none
  | 1 => if fld w 28 4 = 0#4 ∧ fld w 12 1 = 0#1 then some (.gsetn (fld w 23 3) (fld w 8 4) (.ofBits (fld w 13 5)) (.ofBits (fld w 18 5))) else none
  | 2 => if fld w 28 4 = 0#4 ∧ fld w 23 3 = 0#3 ∧ fld w 18 5 = 0#5 ∧ fld w 13 5 = 0#5 ∧ fld w 12 1 = 0#1 then some (.gclr (fld w 8 4)) else none
  | _ => if fld w 28 4 = 0#4 ∧ fld w 23 3 = 0#3 ∧ fld w 18 5 = 0#5 ∧ fld w 13 5 = 0#5 ∧ fld w 12 1 = 0#1 then some (.gwait (fld w 8 4)) else none

/-- LD, major 0x10 (R37). -/
def decLd (w : U32) : Option Instr :=
  (Dst.ofBits (fld w 8 5)).map fun d => .ld (fld w 16 3) d (fld w 13 3) (fld w 19 13)

/-- ST, major 0x11 (R37). -/
def decSt (w : U32) : Option Instr :=
  some (.st (fld w 16 2) (bitAt w 18) (fld w 13 3) (fld w 19 13) (.ofBits (fld w 8 5)))

/-- LDSTX, major 0x12 (R37). -/
def decLdstx (w : U32) : Option Instr :=
  match (fld w 27 1).toNat with
  | 0 => if fld w 28 4 = 0#4 then (Dst.ofBits (fld w 8 5)).map fun d => .ldx (fld w 23 3) (bitAt w 26) d (fld w 13 3) (.ofBits (fld w 16 5)) (fld w 21 2) else none
  | _ => if fld w 28 4 = 0#4 ∧ fld w 25 1 = 0#1 then some (.stx (fld w 23 2) (bitAt w 26) (fld w 13 3) (.ofBits (fld w 16 5)) (fld w 21 2) (.ofBits (fld w 8 5))) else none

/-- LDCST, major 0x13 (R37). -/
def decLdcst (w : U32) : Option Instr :=
  match (fld w 11 1).toNat with
  | 0 => if fld w 16 1 = 0#1 ∧ fld w 12 1 = 0#1 then some (.ldc (fld w 8 3) (fld w 13 3) (fld w 17 15)) else none
  | _ => if fld w 16 1 = 0#1 ∧ fld w 12 1 = 0#1 then some (.stc (fld w 13 3) (fld w 17 15) (fld w 8 3)) else none

/-- ATOM, major 0x14 (R37). -/
def decAtom (w : U32) : Option Instr :=
  match (fld w 16 4).toNat with
  | 0 => if fld w 23 1 = 0#1 then (Dst.ofBits (fld w 8 5)).map fun d => .aadd (bitAt w 20) (fld w 21 2) d (fld w 13 3) (fld w 24 8) else none
  | 1 => if fld w 23 1 = 0#1 then (Dst.ofBits (fld w 8 5)).map fun d => .aand (bitAt w 20) (fld w 21 2) d (fld w 13 3) (fld w 24 8) else none
  | 2 => if fld w 23 1 = 0#1 then (Dst.ofBits (fld w 8 5)).map fun d => .aor (bitAt w 20) (fld w 21 2) d (fld w 13 3) (fld w 24 8) else none
  | 3 => if fld w 23 1 = 0#1 then (Dst.ofBits (fld w 8 5)).map fun d => .axor (bitAt w 20) (fld w 21 2) d (fld w 13 3) (fld w 24 8) else none
  | 4 => if fld w 23 1 = 0#1 then (Dst.ofBits (fld w 8 5)).map fun d => .amin (bitAt w 20) (fld w 21 2) d (fld w 13 3) (fld w 24 8) else none
  | 5 => if fld w 23 1 = 0#1 then (Dst.ofBits (fld w 8 5)).map fun d => .amax (bitAt w 20) (fld w 21 2) d (fld w 13 3) (fld w 24 8) else none
  | 6 => if fld w 23 1 = 0#1 then (Dst.ofBits (fld w 8 5)).map fun d => .aminu (bitAt w 20) (fld w 21 2) d (fld w 13 3) (fld w 24 8) else none
  | 7 => if fld w 23 1 = 0#1 then (Dst.ofBits (fld w 8 5)).map fun d => .amaxu (bitAt w 20) (fld w 21 2) d (fld w 13 3) (fld w 24 8) else none
  | 8 => if fld w 23 1 = 0#1 then (Dst.ofBits (fld w 8 5)).map fun d => .aswp (bitAt w 20) (fld w 21 2) d (fld w 13 3) (fld w 24 8) else none
  | 9 => if fld w 23 1 = 0#1 then (Dst.ofBits (fld w 8 5)).map fun d => .acas (bitAt w 20) (fld w 21 2) d (fld w 13 3) (fld w 24 8) else none
  | 10 => if fld w 23 1 = 0#1 then (Dst.ofBits (fld w 8 5)).map fun d => .afadd (bitAt w 20) (fld w 21 2) d (fld w 13 3) (fld w 24 8) else none
  | _ => none

/-- FENCE, major 0x15 (R37). -/
def decFence (w : U32) : Option Instr :=
  match (fld w 23 5).toNat with
  | 0 => if fld w 28 4 = 0#4 ∧ fld w 14 9 = 0#9 then some (.fence (fld w 11 3) (fld w 8 3)) else none
  | 1 => if fld w 28 4 = 0#4 ∧ fld w 14 9 = 0#9 ∧ fld w 8 6 = 0#6 then some .efence else none
  | 2 => if fld w 28 4 = 0#4 ∧ fld w 14 9 = 0#9 ∧ fld w 8 6 = 0#6 then some .ifence else none
  | _ => none

/-- REMOTE, major 0x16 (R37). -/
def decRemote (w : U32) : Option Instr :=
  match (fld w 23 5).toNat with
  | 0 => if fld w 30 2 = 0#2 ∧ fld w 16 2 = 0#2 ∧ fld w 8 5 = 0#5 then some (.rst (fld w 28 2) (fld w 13 3) (.ofBits (fld w 18 5))) else none
  | 1 => if fld w 28 4 = 0#4 ∧ fld w 21 2 = 0#2 ∧ fld w 16 2 = 0#2 ∧ fld w 8 5 = 0#5 then some (.amsg (fld w 13 3) (fld w 18 3)) else none
  | 2 => if fld w 28 4 = 0#4 ∧ fld w 18 5 = 0#5 ∧ fld w 13 5 = 0#5 ∧ fld w 8 5 = 0#5 then some .rdrain else none
  | _ => none

/-- TASK, major 0x17 (R37). -/
def decTask (w : U32) : Option Instr :=
  match (fld w 23 5).toNat with
  | 0 => if fld w 28 4 = 0#4 ∧ fld w 18 5 = 0#5 ∧ fld w 16 2 = 0#2 then (Dst.ofBits (fld w 8 5)).map fun d => .spawn d (fld w 13 3) else none
  | 1 => if fld w 28 4 = 0#4 ∧ fld w 18 5 = 0#5 ∧ fld w 16 2 = 0#2 then (Dst.ofBits (fld w 8 5)).map fun d => .start d (fld w 13 3) else none
  | 2 => if fld w 28 4 = 0#4 ∧ fld w 18 5 = 0#5 ∧ fld w 13 5 = 0#5 ∧ fld w 8 5 = 0#5 then some .done else none
  | 3 => if fld w 28 4 = 0#4 ∧ fld w 8 5 = 0#5 then some (.yield (.ofBits (fld w 13 5)) (.ofBits (fld w 18 5))) else none
  | 4 => if fld w 28 4 = 0#4 ∧ fld w 18 5 = 0#5 ∧ fld w 16 2 = 0#2 then (Dst.ofBits (fld w 8 5)).map fun d => .join d (fld w 13 3) else none
  | 5 => if fld w 28 4 = 0#4 ∧ fld w 16 2 = 0#2 then (Dst.ofBits (fld w 8 5)).map fun d => .walk d (fld w 13 3) (.ofBits (fld w 18 5)) else none
  | 6 => if fld w 28 4 = 0#4 ∧ fld w 16 2 = 0#2 then (Dst.ofBits (fld w 8 5)).map fun d => .launch d (fld w 13 3) (.ofBits (fld w 18 5)) else none
  | 7 => if fld w 28 4 = 0#4 ∧ fld w 21 2 = 0#2 ∧ fld w 16 2 = 0#2 then (Dst.ofBits (fld w 8 5)).map fun d => .launchi d (fld w 13 3) (fld w 18 3) else none
  | 8 => if fld w 28 4 = 0#4 ∧ fld w 18 5 = 0#5 ∧ fld w 16 2 = 0#2 then (Dst.ofBits (fld w 8 5)).map fun d => .gang d (fld w 13 3) else none
  | 9 => if fld w 28 4 = 0#4 ∧ fld w 18 5 = 0#5 ∧ fld w 16 2 = 0#2 then (Dst.ofBits (fld w 8 5)).map fun d => .submit d (fld w 13 3) else none
  | 10 => if fld w 28 4 = 0#4 ∧ fld w 18 5 = 0#5 then (Dst.ofBits (fld w 8 5)).map fun d => .dline d (.ofBits (fld w 13 5)) else none
  | 11 => if fld w 28 4 = 0#4 ∧ fld w 18 5 = 0#5 ∧ fld w 13 5 = 0#5 ∧ fld w 11 2 = 0#2 then some (.self (fld w 8 3)) else none
  | _ => none

/-- FUT, major 0x18 (R37). -/
def decFut (w : U32) : Option Instr :=
  match (fld w 23 5).toNat with
  | 0 => if fld w 28 4 = 0#4 ∧ fld w 18 5 = 0#5 ∧ fld w 16 2 = 0#2 ∧ fld w 8 5 = 0#5 then some (.finit (fld w 13 3)) else none
  | 1 => if fld w 28 4 = 0#4 ∧ fld w 16 2 = 0#2 then (Dst.ofBits (fld w 8 5)).map fun d => .fres d (fld w 13 3) (.ofBits (fld w 18 5)) else none
  | 2 => if fld w 28 4 = 0#4 ∧ fld w 21 2 = 0#2 ∧ fld w 16 2 = 0#2 then (Dst.ofBits (fld w 8 5)).map fun d => .freg d (fld w 13 3) (fld w 18 3) else none
  | 3 => if fld w 28 4 = 0#4 ∧ fld w 18 5 = 0#5 ∧ fld w 16 2 = 0#2 then (Dst.ofBits (fld w 8 5)).map fun d => .fget d (fld w 13 3) else none
  | 4 => if fld w 28 4 = 0#4 ∧ fld w 18 5 = 0#5 ∧ fld w 16 2 = 0#2 then (Dst.ofBits (fld w 8 5)).map fun d => .fstat d (fld w 13 3) else none
  | _ => none

/-- RING, major 0x19 (R37). -/
def decRing (w : U32) : Option Instr :=
  match (fld w 23 5).toNat with
  | 0 => if fld w 28 4 = 0#4 ∧ fld w 21 2 = 0#2 ∧ fld w 16 2 = 0#2 then some (.rinit (fld w 13 3) (fld w 18 3) (fld w 8 5)) else none
  | 1 => if fld w 31 1 = 0#1 ∧ fld w 16 2 = 0#2 then (Dst.ofBits (fld w 8 5)).map fun d => .rclaim (fld w 28 3) d (fld w 13 3) (.ofBits (fld w 18 5)) else none
  | 2 => if fld w 31 1 = 0#1 ∧ fld w 16 2 = 0#2 then (Dst.ofBits (fld w 8 5)).map fun d => .rtryclaim (fld w 28 3) d (fld w 13 3) (.ofBits (fld w 18 5)) else none
  | 3 => if fld w 31 1 = 0#1 ∧ fld w 16 2 = 0#2 then some (.rcommit (fld w 28 3) (fld w 13 3) (.ofBits (fld w 8 5)) (.ofBits (fld w 18 5))) else none
  | 4 => if fld w 31 1 = 0#1 ∧ fld w 16 2 = 0#2 then (Dst.ofBits (fld w 8 5)).map fun d => .rawait (fld w 28 3) d (fld w 13 3) (.ofBits (fld w 18 5)) else none
  | 5 => if fld w 31 1 = 0#1 ∧ fld w 16 2 = 0#2 then some (.rretire (fld w 28 3) (fld w 13 3) (.ofBits (fld w 8 5)) (.ofBits (fld w 18 5))) else none
  | _ => none

/-- BAR, major 0x1A (R37). -/
def decBar (w : U32) : Option Instr :=
  match (fld w 23 5).toNat with
  | 0 => if fld w 28 4 = 0#4 ∧ fld w 16 2 = 0#2 ∧ fld w 8 5 = 0#5 then some (.binit (fld w 13 3) (.ofBits (fld w 18 5))) else none
  | 1 => if fld w 31 1 = 0#1 ∧ fld w 16 2 = 0#2 then (Dst.ofBits (fld w 8 5)).map fun d => .barrive (fld w 28 3) d (fld w 13 3) (.ofBits (fld w 18 5)) else none
  | 2 => if fld w 28 4 = 0#4 ∧ fld w 16 2 = 0#2 ∧ fld w 8 5 = 0#5 then some (.bexpect (fld w 13 3) (.ofBits (fld w 18 5))) else none
  | 3 => if fld w 31 1 = 0#1 ∧ fld w 16 2 = 0#2 ∧ fld w 8 5 = 0#5 then some (.bwait (fld w 28 3) (fld w 13 3) (.ofBits (fld w 18 5))) else none
  | 4 => if fld w 31 1 = 0#1 ∧ fld w 16 2 = 0#2 then (Dst.ofBits (fld w 8 5)).map fun d => .btest (fld w 28 3) d (fld w 13 3) (.ofBits (fld w 18 5)) else none
  | _ => none

/-- SYS, major 0x1B (R37). -/
def decSys (w : U32) : Option Instr :=
  match (fld w 23 5).toNat with
  | 0 => if fld w 28 4 = 0#4 ∧ fld w 18 5 = 0#5 ∧ fld w 8 5 = 0#5 then some (.trap (.ofBits (fld w 13 5))) else none
  | 1 => if fld w 28 4 = 0#4 ∧ fld w 18 5 = 0#5 ∧ fld w 13 5 = 0#5 ∧ fld w 8 5 = 0#5 then some .rte else none
  | 2 => if fld w 28 4 = 0#4 then (Dst.ofBits (fld w 8 5)).map fun d => .svc d (.ofBits (fld w 13 5)) (.ofBits (fld w 18 5)) else none
  | 3 => if fld w 28 4 = 0#4 ∧ fld w 18 5 = 0#5 ∧ fld w 13 5 = 0#5 ∧ fld w 8 5 = 0#5 then some .brk else none
  | 4 => if fld w 28 4 = 0#4 ∧ fld w 8 5 = 0#5 then some (.chkpt (fld w 13 10)) else none
  | 5 => if fld w 28 4 = 0#4 ∧ fld w 8 5 = 0#5 then some (.realign (fld w 13 10)) else none
  | 6 => if fld w 28 4 = 0#4 ∧ fld w 18 5 = 0#5 then (Dst.ofBits (fld w 8 5)).map fun d => .wfi d (.ofBits (fld w 13 5)) else none
  | 7 => if fld w 28 4 = 0#4 ∧ fld w 18 5 = 0#5 ∧ fld w 13 5 = 0#5 ∧ fld w 8 5 = 0#5 then some .halt else none
  | 8 => if fld w 29 3 = 0#3 ∧ fld w 8 5 = 0#5 then some (.tinv (bitAt w 28) (.ofBits (fld w 13 5)) (.ofBits (fld w 18 5))) else none
  | _ => none

/-- VCLAIM, major 0x1C (R37). -/
def decVclaim (w : U32) : Option Instr :=
  match (fld w 23 5).toNat with
  | 0 => if fld w 28 4 = 0#4 then (Dst.ofBits (fld w 8 5)).map fun d => .vclaim d (.ofBits (fld w 13 5)) (.ofBits (fld w 18 5)) else none
  | 1 => if fld w 28 4 = 0#4 then (Dst.ofBits (fld w 8 5)).map fun d => .vreneg d (.ofBits (fld w 13 5)) (.ofBits (fld w 18 5)) else none
  | 2 => if fld w 28 4 = 0#4 ∧ fld w 18 5 = 0#5 ∧ fld w 13 5 = 0#5 ∧ fld w 8 5 = 0#5 then some .vrel else none
  | _ => none

/-- VINT, major 0x1D (R37). -/
def decVint (p : Option Pfx) (w : U32) : Option Instr :=
  match (fld w 26 5).toNat with
  | 0 => if fld w 31 1 = 0#1 then some (.vadd p (fld w 23 3) (fld w 8 5) (fld w 13 5) (fld w 18 5)) else none
  | 1 => if fld w 31 1 = 0#1 then some (.vsub p (fld w 23 3) (fld w 8 5) (fld w 13 5) (fld w 18 5)) else none
  | 2 => if fld w 31 1 = 0#1 then some (.vmul p (fld w 23 3) (fld w 8 5) (fld w 13 5) (fld w 18 5)) else none
  | 3 => if fld w 31 1 = 0#1 then some (.vmulh p (fld w 23 3) (fld w 8 5) (fld w 13 5) (fld w 18 5)) else none
  | 4 => if fld w 31 1 = 0#1 then some (.vmin p (fld w 23 3) (fld w 8 5) (fld w 13 5) (fld w 18 5)) else none
  | 5 => if fld w 31 1 = 0#1 then some (.vmax p (fld w 23 3) (fld w 8 5) (fld w 13 5) (fld w 18 5)) else none
  | 6 => if fld w 31 1 = 0#1 then some (.vminu p (fld w 23 3) (fld w 8 5) (fld w 13 5) (fld w 18 5)) else none
  | 7 => if fld w 31 1 = 0#1 then some (.vmaxu p (fld w 23 3) (fld w 8 5) (fld w 13 5) (fld w 18 5)) else none
  | 8 => if fld w 31 1 = 0#1 then some (.vand p (fld w 23 3) (fld w 8 5) (fld w 13 5) (fld w 18 5)) else none
  | 9 => if fld w 31 1 = 0#1 then some (.vor p (fld w 23 3) (fld w 8 5) (fld w 13 5) (fld w 18 5)) else none
  | 10 => if fld w 31 1 = 0#1 then some (.vxor p (fld w 23 3) (fld w 8 5) (fld w 13 5) (fld w 18 5)) else none
  | 11 => if fld w 31 1 = 0#1 then some (.vshl p (fld w 23 3) (fld w 8 5) (fld w 13 5) (fld w 18 5)) else none
  | 12 => if fld w 31 1 = 0#1 then some (.vshr p (fld w 23 3) (fld w 8 5) (fld w 13 5) (fld w 18 5)) else none
  | 13 => if fld w 31 1 = 0#1 then some (.vsra p (fld w 23 3) (fld w 8 5) (fld w 13 5) (fld w 18 5)) else none
  | 14 => if fld w 31 1 = 0#1 ∧ fld w 18 5 = 0#5 then some (.vabs p (fld w 23 3) (fld w 8 5) (fld w 13 5)) else none
  | 15 => if fld w 31 1 = 0#1 then some (.vsadd p (fld w 23 3) (fld w 8 5) (fld w 13 5) (fld w 18 5)) else none
  | 16 => if fld w 31 1 = 0#1 then some (.vssub p (fld w 23 3) (fld w 8 5) (fld w 13 5) (fld w 18 5)) else none
  | _ => none

/-- VFP, major 0x1E (R37). -/
def decVfp (p : Option Pfx) (w : U32) : Option Instr :=
  match (fld w 26 5).toNat with
  | 0 => if fld w 31 1 = 0#1 then some (.vfadd p (fld w 23 3) (fld w 8 5) (fld w 13 5) (fld w 18 5)) else none
  | 1 => if fld w 31 1 = 0#1 then some (.vfsub p (fld w 23 3) (fld w 8 5) (fld w 13 5) (fld w 18 5)) else none
  | 2 => if fld w 31 1 = 0#1 then some (.vfmul p (fld w 23 3) (fld w 8 5) (fld w 13 5) (fld w 18 5)) else none
  | 3 => if fld w 31 1 = 0#1 then some (.vfma p (fld w 23 3) (fld w 8 5) (fld w 13 5) (fld w 18 5)) else none
  | 4 => if fld w 31 1 = 0#1 then some (.vfdiv p (fld w 23 3) (fld w 8 5) (fld w 13 5) (fld w 18 5)) else none
  | 5 => if fld w 31 1 = 0#1 ∧ fld w 18 5 = 0#5 then some (.vfsqrt p (fld w 23 3) (fld w 8 5) (fld w 13 5)) else none
  | 6 => if fld w 31 1 = 0#1 then some (.vfmin p (fld w 23 3) (fld w 8 5) (fld w 13 5) (fld w 18 5)) else none
  | 7 => if fld w 31 1 = 0#1 then some (.vfmax p (fld w 23 3) (fld w 8 5) (fld w 13 5) (fld w 18 5)) else none
  | 8 => if fld w 31 1 = 0#1 ∧ fld w 18 5 = 0#5 then some (.vfabs p (fld w 23 3) (fld w 8 5) (fld w 13 5)) else none
  | 9 => if fld w 31 1 = 0#1 ∧ fld w 18 5 = 0#5 then some (.vfneg p (fld w 23 3) (fld w 8 5) (fld w 13 5)) else none
  | 10 => if fld w 31 1 = 0#1 ∧ fld w 18 5 = 0#5 then some (.vfrcp p (fld w 23 3) (fld w 8 5) (fld w 13 5)) else none
  | 11 => if fld w 31 1 = 0#1 ∧ fld w 18 5 = 0#5 then some (.vfrsq p (fld w 23 3) (fld w 8 5) (fld w 13 5)) else none
  | 12 => if fld w 31 1 = 0#1 ∧ fld w 18 5 = 0#5 then some (.vfexp2 p (fld w 23 3) (fld w 8 5) (fld w 13 5)) else none
  | 13 => if fld w 31 1 = 0#1 ∧ fld w 18 5 = 0#5 then some (.vflog2 p (fld w 23 3) (fld w 8 5) (fld w 13 5)) else none
  | 14 => if fld w 31 1 = 0#1 ∧ fld w 18 5 = 0#5 then some (.vfclass p (fld w 23 3) (fld w 8 5) (fld w 13 5)) else none
  | _ => none

/-- VCMP, major 0x1F (R37). -/
def decVcmp (p : Option Pfx) (w : U32) : Option Instr :=
  match (fld w 26 5).toNat with
  | 0 => if fld w 31 1 = 0#1 then some (.vcmp p (fld w 23 3) (fld w 11 2) (fld w 8 3) (fld w 13 5) (fld w 18 5)) else none
  | 1 => if fld w 31 1 = 0#1 then some (.vfcmp p (fld w 23 3) (fld w 11 2) (fld w 8 3) (fld w 13 5) (fld w 18 5)) else none
  | 2 => if fld w 31 1 = 0#1 ∧ fld w 23 3 = 0#3 ∧ fld w 21 2 = 0#2 ∧ fld w 16 2 = 0#2 ∧ fld w 11 2 = 0#2 then some (.vmand p (fld w 8 3) (fld w 13 3) (fld w 18 3)) else none
  | 3 => if fld w 31 1 = 0#1 ∧ fld w 23 3 = 0#3 ∧ fld w 21 2 = 0#2 ∧ fld w 16 2 = 0#2 ∧ fld w 11 2 = 0#2 then some (.vmor p (fld w 8 3) (fld w 13 3) (fld w 18 3)) else none
  | 4 => if fld w 31 1 = 0#1 ∧ fld w 23 3 = 0#3 ∧ fld w 21 2 = 0#2 ∧ fld w 16 2 = 0#2 ∧ fld w 11 2 = 0#2 then some (.vmxor p (fld w 8 3) (fld w 13 3) (fld w 18 3)) else none
  | 5 => if fld w 31 1 = 0#1 ∧ fld w 23 3 = 0#3 ∧ fld w 18 5 = 0#5 ∧ fld w 16 2 = 0#2 ∧ fld w 11 2 = 0#2 then some (.vmnot p (fld w 8 3) (fld w 13 3)) else none
  | 6 => if fld w 31 1 = 0#1 ∧ fld w 23 3 = 0#3 ∧ fld w 18 5 = 0#5 ∧ fld w 16 2 = 0#2 then (Dst.ofBits (fld w 8 5)).map fun d => .vmpop p d (fld w 13 3) else none
  | 7 => if fld w 31 1 = 0#1 ∧ fld w 23 3 = 0#3 ∧ fld w 18 5 = 0#5 ∧ fld w 16 2 = 0#2 then (Dst.ofBits (fld w 8 5)).map fun d => .vmfirst p d (fld w 13 3) else none
  | _ => none

/-- VCVT, major 0x20 (R37). -/
def decVcvt (p : Option Pfx) (w : U32) : Option Instr :=
  match (fld w 26 5).toNat with
  | 0 => if fld w 31 1 = 0#1 then some (.vcvt p (fld w 23 3) (fld w 8 5) (fld w 13 5) (fld w 18 3) (fld w 21 2)) else none
  | 1 => if fld w 31 1 = 0#1 ∧ fld w 21 2 = 0#2 then some (.vqbfp p (fld w 23 3) (fld w 8 5) (fld w 13 5) (fld w 18 3)) else none
  | 2 => if fld w 31 1 = 0#1 ∧ fld w 21 2 = 0#2 then some (.vdqbfp p (fld w 23 3) (fld w 8 5) (fld w 13 5) (fld w 18 3)) else none
  | _ => none

/-- VMEM, major 0x21 (R37). -/
def decVmem (p : Option Pfx) (w : U32) : Option Instr :=
  match (fld w 26 5).toNat with
  | 0 => if fld w 31 1 = 0#1 ∧ fld w 16 2 = 0#2 then some (.vld p (fld w 23 3) (fld w 8 5) (fld w 13 3) (fld w 18 5)) else none
  | 1 => if fld w 31 1 = 0#1 ∧ fld w 16 2 = 0#2 then some (.vst p (fld w 23 3) (fld w 8 5) (fld w 13 3) (fld w 18 5)) else none
  | 2 => if fld w 31 1 = 0#1 ∧ fld w 16 2 = 0#2 then some (.vlds p (fld w 23 3) (fld w 8 5) (fld w 13 3) (.ofBits (fld w 18 5))) else none
  | 3 => if fld w 31 1 = 0#1 ∧ fld w 16 2 = 0#2 then some (.vsts p (fld w 23 3) (fld w 8 5) (fld w 13 3) (.ofBits (fld w 18 5))) else none
  | 4 => if fld w 31 1 = 0#1 ∧ fld w 16 2 = 0#2 then some (.vgth p (fld w 23 3) (fld w 8 5) (fld w 13 3) (fld w 18 5)) else none
  | 5 => if fld w 31 1 = 0#1 ∧ fld w 16 2 = 0#2 then some (.vsct p (fld w 23 3) (fld w 8 5) (fld w 13 3) (fld w 18 5)) else none
  | _ => none

/-- VPERM, major 0x22 (R37). -/
def decVperm (p : Option Pfx) (w : U32) : Option Instr :=
  match (fld w 26 5).toNat with
  | 0 => if fld w 31 1 = 0#1 ∧ fld w 18 5 = 0#5 then some (.vbcast p (fld w 23 3) (fld w 8 5) (.ofBits (fld w 13 5))) else none
  | 1 => if fld w 31 1 = 0#1 then (Dst.ofBits (fld w 8 5)).map fun d => .vext p (fld w 23 3) d (fld w 13 5) (.ofBits (fld w 18 5)) else none
  | 2 => if fld w 31 1 = 0#1 then some (.vins p (fld w 23 3) (fld w 8 5) (.ofBits (fld w 13 5)) (.ofBits (fld w 18 5))) else none
  | 3 => if fld w 31 1 = 0#1 ∧ fld w 18 5 = 0#5 ∧ fld w 13 5 = 0#5 then some (.viota p (fld w 23 3) (fld w 8 5)) else none
  | 4 => if fld w 31 1 = 0#1 then some (.vshuf p (fld w 23 3) (fld w 8 5) (fld w 13 5) (fld w 18 5)) else none
  | 5 => if fld w 31 1 = 0#1 ∧ fld w 18 5 = 0#5 then (Dst.ofBits (fld w 8 5)).map fun d => .vredsum p (fld w 23 3) d (fld w 13 5) else none
  | 6 => if fld w 31 1 = 0#1 ∧ fld w 18 5 = 0#5 then (Dst.ofBits (fld w 8 5)).map fun d => .vredmax p (fld w 23 3) d (fld w 13 5) else none
  | 7 => if fld w 31 1 = 0#1 ∧ fld w 18 5 = 0#5 then (Dst.ofBits (fld w 8 5)).map fun d => .vredmin p (fld w 23 3) d (fld w 13 5) else none
  | _ => none

/-- VSPEC, major 0x23 (R37). -/
def decVspec (p : Option Pfx) (w : U32) : Option Instr :=
  match (fld w 26 5).toNat with
  | 0 => if fld w 31 1 = 0#1 ∧ fld w 21 2 = 0#2 then some (.vtbl p (fld w 23 3) (fld w 8 5) (fld w 13 5) (fld w 18 3)) else none
  | 1 => if fld w 31 1 = 0#1 ∧ fld w 18 5 = 0#5 ∧ fld w 13 5 = 0#5 then some (.vrng p (fld w 23 3) (fld w 8 5)) else none
  | 2 => if fld w 31 1 = 0#1 ∧ fld w 18 5 = 0#5 ∧ fld w 13 5 = 0#5 then some (.vrngn p (fld w 23 3) (fld w 8 5)) else none
  | _ => none

/-- MARITH, major 0x24 (R37). -/
def decMarith (p : Option Pfx) (w : U32) : Option Instr :=
  match (fld w 26 5).toNat with
  | 0 => if fld w 31 1 = 0#1 ∧ fld w 22 1 = 0#1 ∧ fld w 17 1 = 0#1 ∧ fld w 12 1 = 0#1 then some (.madd p (fld w 23 3) (fld w 8 4) (fld w 13 4) (fld w 18 4)) else none
  | 1 => if fld w 31 1 = 0#1 ∧ fld w 22 1 = 0#1 ∧ fld w 17 1 = 0#1 ∧ fld w 12 1 = 0#1 then some (.msub p (fld w 23 3) (fld w 8 4) (fld w 13 4) (fld w 18 4)) else none
  | 2 => if fld w 31 1 = 0#1 ∧ fld w 22 1 = 0#1 ∧ fld w 17 1 = 0#1 ∧ fld w 12 1 = 0#1 then some (.mmul p (fld w 23 3) (fld w 8 4) (fld w 13 4) (fld w 18 4)) else none
  | 3 => if fld w 31 1 = 0#1 ∧ fld w 23 3 = 0#3 ∧ fld w 17 1 = 0#1 ∧ fld w 12 1 = 0#1 then some (.mscale p (fld w 8 4) (fld w 13 4) (fld w 18 5)) else none
  | 4 => if fld w 31 1 = 0#1 ∧ fld w 17 1 = 0#1 ∧ fld w 12 1 = 0#1 then some (.mfma p (fld w 23 3) (fld w 8 4) (fld w 13 4) (fld w 18 5)) else none
  | 5 => if fld w 31 1 = 0#1 ∧ fld w 23 3 = 0#3 ∧ fld w 18 5 = 0#5 ∧ fld w 17 1 = 0#1 ∧ fld w 12 1 = 0#1 then some (.mneg p (fld w 8 4) (fld w 13 4)) else none
  | _ => none

/-- MNONL, major 0x25 (R37). -/
def decMnonl (p : Option Pfx) (w : U32) : Option Instr :=
  match (fld w 26 5).toNat with
  | 0 => if fld w 31 1 = 0#1 ∧ fld w 23 3 = 0#3 ∧ fld w 18 5 = 0#5 ∧ fld w 17 1 = 0#1 ∧ fld w 12 1 = 0#1 then some (.mrelu p (fld w 8 4) (fld w 13 4)) else none
  | 1 => if fld w 31 1 = 0#1 ∧ fld w 23 3 = 0#3 ∧ fld w 18 5 = 0#5 ∧ fld w 17 1 = 0#1 ∧ fld w 12 1 = 0#1 then some (.msig p (fld w 8 4) (fld w 13 4)) else none
  | 2 => if fld w 31 1 = 0#1 ∧ fld w 23 3 = 0#3 ∧ fld w 18 5 = 0#5 ∧ fld w 17 1 = 0#1 ∧ fld w 12 1 = 0#1 then some (.mexp p (fld w 8 4) (fld w 13 4)) else none
  | 3 => if fld w 31 1 = 0#1 ∧ fld w 23 3 = 0#3 ∧ fld w 18 5 = 0#5 ∧ fld w 17 1 = 0#1 ∧ fld w 12 1 = 0#1 then some (.msqr p (fld w 8 4) (fld w 13 4)) else none
  | _ => none

/-- MMOVE, major 0x26 (R37). -/
def decMmove (p : Option Pfx) (w : U32) : Option Instr :=
  match (fld w 26 5).toNat with
  | 0 => if fld w 31 1 = 0#1 ∧ fld w 23 3 = 0#3 ∧ fld w 12 1 = 0#1 then some (.mset p (fld w 8 4) (fld w 13 5) (fld w 18 5)) else none
  | 1 => if fld w 31 1 = 0#1 ∧ fld w 23 3 = 0#3 ∧ fld w 18 5 = 0#5 ∧ fld w 17 1 = 0#1 then some (.mmean p (fld w 8 5) (fld w 13 4)) else none
  | 2 => if fld w 31 1 = 0#1 ∧ fld w 23 3 = 0#3 ∧ fld w 18 5 = 0#5 ∧ fld w 17 1 = 0#1 then some (.mvar p (fld w 8 5) (fld w 13 4)) else none
  | 3 => if fld w 31 1 = 0#1 ∧ fld w 23 3 = 0#3 ∧ fld w 21 2 = 0#2 ∧ fld w 17 1 = 0#1 then some (.mcoll p (fld w 18 3) (fld w 8 5) (fld w 13 4)) else none
  | 4 => if fld w 31 1 = 0#1 ∧ fld w 23 3 = 0#3 ∧ fld w 16 2 = 0#2 ∧ fld w 12 1 = 0#1 then some (.mld p (fld w 8 4) (fld w 13 3) (fld w 18 5)) else none
  | 5 => if fld w 31 1 = 0#1 ∧ fld w 23 3 = 0#3 ∧ fld w 16 2 = 0#2 ∧ fld w 12 1 = 0#1 then some (.mst p (fld w 8 4) (fld w 13 3) (fld w 18 5)) else none
  | 6 => if fld w 31 1 = 0#1 ∧ fld w 23 3 = 0#3 ∧ fld w 18 5 = 0#5 ∧ fld w 17 1 = 0#1 then (Dst.ofBits (fld w 8 5)).map fun d => .mchk p d (fld w 13 4) else none
  | _ => none

/-- TILE, major 0x27 (R37). -/
noncomputable def decTile (w : U32) : Option Instr :=
  match (fld w 23 5).toNat with
  | 0 => if fld w 29 3 = 0#3 ∧ fld w 16 2 = 0#2 ∧ fld w 12 1 = 0#1 then some (.zld (bitAt w 28) (fld w 8 4) (fld w 13 3) (.ofBits (fld w 18 5))) else none
  | 1 => if fld w 28 4 = 0#4 ∧ fld w 16 2 = 0#2 ∧ fld w 12 1 = 0#1 then some (.zst (fld w 8 4) (fld w 13 3) (.ofBits (fld w 18 5))) else none
  | 2 => if fld w 28 4 = 0#4 ∧ fld w 18 5 = 0#5 ∧ fld w 13 5 = 0#5 ∧ fld w 12 1 = 0#1 then some (.zzero (fld w 8 4)) else none
  | 3 => if fld w 28 4 = 0#4 ∧ fld w 18 5 = 0#5 ∧ fld w 13 5 = 0#5 ∧ fld w 12 1 = 0#1 then some (.zrel (fld w 8 4)) else none
  | 4 => if fld w 28 4 = 0#4 ∧ fld w 18 5 = 0#5 ∧ fld w 17 1 = 0#1 then (Dst.ofBits (fld w 8 5)).map fun d => .zstate d (fld w 13 4) else none
  | 5 => if fld w 28 4 = 0#4 ∧ fld w 18 5 = 0#5 ∧ fld w 17 1 = 0#1 ∧ fld w 12 1 = 0#1 then some (.zmov (fld w 8 4) (fld w 13 4)) else none
  | _ => none

/-- MATRIX, major 0x28 (R37). -/
noncomputable def decMatrix (p : Option Pfx) (w : U32) : Option Instr :=
  match (fld w 23 5).toNat with
  | 0 => if fld w 28 4 = 0#4 ∧ fld w 18 5 = 0#5 ∧ fld w 17 1 = 0#1 ∧ fld w 8 5 = 0#5 then some (.wload (fld w 13 4)) else none
  | 1 => if fld w 28 4 = 0#4 ∧ fld w 18 5 = 0#5 ∧ fld w 13 5 = 0#5 ∧ fld w 8 5 = 0#5 then some .wswap else none
  | 2 => if fld w 28 4 = 0#4 ∧ fld w 18 5 = 0#5 ∧ fld w 17 1 = 0#1 ∧ fld w 11 2 = 0#2 then some (.mma (fld w 8 3) (fld w 13 4)) else none
  | 3 => if fld w 28 4 = 0#4 ∧ fld w 18 5 = 0#5 ∧ fld w 17 1 = 0#1 ∧ fld w 11 2 = 0#2 then some (.mmam (fld w 8 3) (fld w 13 4)) else none
  | 4 => if fld w 29 3 = 0#3 ∧ fld w 18 5 = 0#5 ∧ fld w 13 5 = 0#5 ∧ fld w 11 2 = 0#2 then some (.yzero (bitAt w 28) (fld w 8 3)) else none
  | 5 => if fld w 29 3 = 0#3 ∧ fld w 16 2 = 0#2 ∧ fld w 12 1 = 0#1 then some (.ydrain p (bitAt w 28) (fld w 8 4) (fld w 13 3) (.ofBits (fld w 18 5))) else none
  | 6 => if fld w 28 4 = 0#4 ∧ fld w 18 5 = 0#5 ∧ fld w 16 2 = 0#2 ∧ fld w 11 2 = 0#2 then some (.ymov (fld w 8 3) (fld w 13 3)) else none
  | 7 => if fld w 28 4 = 0#4 ∧ fld w 18 5 = 0#5 ∧ fld w 8 5 = 0#5 then some (.qfuse (.ofBits (fld w 13 5))) else none
  | 8 => if fld w 28 4 = 0#4 ∧ fld w 18 5 = 0#5 ∧ fld w 8 5 = 0#5 then some (.qsplit (.ofBits (fld w 13 5))) else none
  | _ => none

/-- ENGINE, major 0x29 (R37). -/
noncomputable def decEngine (w : U32) : Option Instr :=
  match (fld w 23 5).toNat with
  | 0 => if fld w 28 4 = 0#4 ∧ fld w 17 6 = 0#6 then some (.copy (fld w 8 3) (bitAt w 16) (bitAt w 15) (fld w 11 4)) else none
  | 1 => if fld w 28 4 = 0#4 ∧ fld w 17 6 = 0#6 then some (.xform (fld w 8 3) (bitAt w 16) (bitAt w 15) (fld w 11 4)) else none
  | 2 => if fld w 28 4 = 0#4 ∧ fld w 17 6 = 0#6 then some (.coll (fld w 8 3) (bitAt w 16) (bitAt w 15) (fld w 11 4)) else none
  | 3 => if fld w 28 4 = 0#4 ∧ fld w 17 6 = 0#6 then some (.trace (fld w 8 3) (bitAt w 16) (bitAt w 15) (fld w 11 4)) else none
  | 4 => if fld w 28 4 = 0#4 ∧ fld w 18 5 = 0#5 ∧ fld w 16 2 = 0#2 then (Dst.ofBits (fld w 8 5)).map fun d => .ewait d (fld w 13 3) else none
  | 5 => if fld w 28 4 = 0#4 ∧ fld w 18 5 = 0#5 ∧ fld w 16 2 = 0#2 then (Dst.ofBits (fld w 8 5)).map fun d => .estat d (fld w 13 3) else none
  | _ => none

/-- LAYER, major 0x2A (R37). -/
noncomputable def decLayer (w : U32) : Option Instr :=
  match (fld w 23 5).toNat with
  | 0 => if fld w 28 4 = 0#4 ∧ fld w 18 5 = 0#5 then (Dst.ofBits (fld w 8 5)).map fun d => .lnew d (.ofBits (fld w 13 5)) else none
  | 1 => if fld w 28 4 = 0#4 ∧ fld w 18 5 = 0#5 ∧ fld w 8 5 = 0#5 then some (.lfree (.ofBits (fld w 13 5))) else none
  | 2 => if fld w 28 4 = 0#4 then some (.lset (fld w 8 5) (.ofBits (fld w 13 5)) (fld w 18 5)) else none
  | 3 => if fld w 28 4 = 0#4 then (Dst.ofBits (fld w 8 5)).map fun d => .lget (fld w 18 5) d (.ofBits (fld w 13 5)) else none
  | 4 => if fld w 28 4 = 0#4 ∧ fld w 18 5 = 0#5 then (Dst.ofBits (fld w 8 5)).map fun d => .lest d (.ofBits (fld w 13 5)) else none
  | 5 => if fld w 28 4 = 0#4 ∧ fld w 8 5 = 0#5 then some (.lprice (.ofBits (fld w 13 5)) (.ofBits (fld w 18 5))) else none
  | 6 => (if fld w 28 4 = 0#4 ∧ fld w 18 5 = 0#5 ∧ fld w 13 5 = 0#5 then (Dst.ofBits (fld w 8 5)).map fun d => .lreq d else none) <|> (if fld w 28 4 = 1#4 ∧ fld w 18 5 = 0#5 ∧ fld w 13 5 = 0#5 then (Dst.ofBits (fld w 8 5)).map fun d => .lreqS d else none)
  | 7 => if fld w 28 4 = 0#4 ∧ fld w 18 5 = 0#5 ∧ fld w 8 5 = 0#5 then some (.lbegin (.ofBits (fld w 13 5))) else none
  | 8 => if fld w 28 4 = 0#4 ∧ fld w 18 5 = 0#5 ∧ fld w 8 5 = 0#5 then some (.ldone (.ofBits (fld w 13 5))) else none
  | 9 => if fld w 28 4 = 0#4 ∧ fld w 8 5 = 0#5 then some (.lsplit (.ofBits (fld w 13 5)) (.ofBits (fld w 18 5))) else none
  | 10 => if fld w 28 4 = 0#4 ∧ fld w 8 5 = 0#5 then some (.lmerge (.ofBits (fld w 13 5)) (.ofBits (fld w 18 5))) else none
  | 11 => if fld w 28 4 = 0#4 ∧ fld w 8 5 = 0#5 then some (.llight (.ofBits (fld w 13 5)) (.ofBits (fld w 18 5))) else none
  | 12 => if fld w 28 4 = 0#4 ∧ fld w 18 5 = 0#5 ∧ fld w 13 5 = 0#5 then (Dst.ofBits (fld w 8 5)).map fun d => .compose d else none
  | _ => none

/-- SURR, major 0x2B (R37). -/
noncomputable def decSurr (w : U32) : Option Instr :=
  match (fld w 23 5).toNat with
  | 0 => if fld w 28 4 = 0#4 ∧ fld w 18 5 = 0#5 ∧ fld w 16 2 = 0#2 then (Dst.ofBits (fld w 8 5)).map fun d => .slaunch d (fld w 13 3) else none
  | 1 => if fld w 28 4 = 0#4 ∧ fld w 18 5 = 0#5 ∧ fld w 8 5 = 0#5 then some (.sresid (.ofBits (fld w 13 5))) else none
  | 2 => if fld w 28 4 = 0#4 ∧ fld w 8 5 = 0#5 then some (.sresidm (.ofBits (fld w 13 5)) (.ofBits (fld w 18 5))) else none
  | 3 => if fld w 28 4 = 0#4 ∧ fld w 18 5 = 0#5 ∧ fld w 13 5 = 0#5 ∧ fld w 8 5 = 0#5 then some .sabort else none
  | 4 => if fld w 28 4 = 0#4 ∧ fld w 18 5 = 0#5 ∧ fld w 16 2 = 0#2 then (Dst.ofBits (fld w 8 5)).map fun d => .sstat d (fld w 13 3) else none
  | _ => none

/-- The 32-bit word `w` after prefix `p`, before the conditions of `Instr.wf` (R30, R37). -/
noncomputable def decodeFields (p : Option Pfx) (w : U32) : Option Instr :=
  match (fld w 2 6).toNat with
  | 0x01 => decIalu w
  | 0x02 => decIimm w
  | 0x03 => decLi w
  | 0x04 => decXset w
  | 0x05 => decMove w
  | 0x06 => decSysreg w
  | 0x07 => decCap w
  | 0x08 => decBrc w
  | 0x09 => decBrz w
  | 0x0A => decBrg w
  | 0x0B => decJump w
  | 0x0C => decJk w
  | 0x0D => decLoop w
  | 0x0E => decLoopi w
  | 0x0F => decGuard w
  | 0x10 => decLd w
  | 0x11 => decSt w
  | 0x12 => decLdstx w
  | 0x13 => decLdcst w
  | 0x14 => decAtom w
  | 0x15 => decFence w
  | 0x16 => decRemote w
  | 0x17 => decTask w
  | 0x18 => decFut w
  | 0x19 => decRing w
  | 0x1A => decBar w
  | 0x1B => decSys w
  | 0x1C => decVclaim w
  | 0x1D => decVint p w
  | 0x1E => decVfp p w
  | 0x1F => decVcmp p w
  | 0x20 => decVcvt p w
  | 0x21 => decVmem p w
  | 0x22 => decVperm p w
  | 0x23 => decVspec p w
  | 0x24 => decMarith p w
  | 0x25 => decMnonl p w
  | 0x26 => decMmove p w
  | 0x27 => decTile w
  | 0x28 => decMatrix p w
  | 0x29 => decEngine w
  | 0x2A => decLayer w
  | 0x2B => decSurr w
  | _ => none

/-- Compact group A (R44). -/
noncomputable def decodeGroupA (w : U16) : Option Instr :=
  match (fld w 2 4).toNat with
  | 1 => if fld w 14 2 = 0#2 then some (.addC (fld w 6 4) (fld w 10 4)) else none
  | 2 => if fld w 14 2 = 0#2 then some (.subC (fld w 6 4) (fld w 10 4)) else none
  | 3 => if fld w 14 2 = 0#2 then some (.andC (fld w 6 4) (fld w 10 4)) else none
  | 4 => if fld w 14 2 = 0#2 then some (.orC (fld w 6 4) (fld w 10 4)) else none
  | 5 => if fld w 14 2 = 0#2 then some (.xorC (fld w 6 4) (fld w 10 4)) else none
  | 9 => if fld w 14 2 = 0#2 then some (.mulC (fld w 6 4) (fld w 10 4)) else none
  | 10 => if fld w 14 2 = 0#2 then some (.sltC (fld w 6 4) (fld w 10 4)) else none
  | 11 => if fld w 14 2 = 0#2 then some (.seqC (fld w 6 4) (fld w 10 4)) else none
  | 6 => some (.shliC (fld w 6 4) (fld w 10 4) (fld w 14 2))
  | 7 => some (.shriC (fld w 6 4) (fld w 10 4) (fld w 14 2))
  | 8 => some (.addiC (fld w 6 4) (fld w 10 4) (fld w 14 2))
  | 12 => if fld w 14 2 = 0#2 then some (.movCToNamed (fld w 10 4) (fld w 6 4)) else none
  | 13 => if fld w 14 2 = 0#2 ∧ fld w 6 4 = 0#4 then some (.movCFromNamed (fld w 10 4)) else none
  | 14 => some (.liC (fld w 6 4) (fld w 10 4) (fld w 14 2))
  | 15 => if fld w 14 2 = 0#2 ∧ fld w 10 4 = 0#4 then some (.movCAge (fld w 6 4)) else none
  | _ => none

/-- Compact group B (R45). -/
noncomputable def decodeGroupB (w : U16) : Option Instr :=
  match (fld w 2 4).toNat with
  | 0 => if fld w 6 10 = 0#10 then some .nop else none
  | 1 => some (.jC (fld w 6 10))
  | 2 => some (.bezC (fld w 6 10))
  | 3 => some (.bnzC (fld w 6 10))
  | 4 => if fld w 6 10 = 0#10 then some .lexit else none
  | 5 => if fld w 6 10 = 0#10 then some .doneC else none
  | 6 => some (.chkptC (fld w 6 10))
  | 7 => some (.realignC (fld w 6 10))
  | 8 => if fld w 6 10 = 0#10 then some .retC else none
  | 9 => if fld w 10 6 = 0#6 then some (.nclrC (fld w 6 4)) else none
  | 10 => if fld w 6 10 = 0#10 then some .fenceCoreC else none
  | _ => none

/-- A well-formed instruction or none (R50). -/
def checked (i : Option Instr) : Option Instr := i.bind fun j => if j.wf then some j else none

/-- A compact halfword (R44, R45). -/
noncomputable def decode16 (w : U16) : Option Instr :=
  checked (if fld w 0 2 = 0#2 then decodeGroupA w else if fld w 0 2 = 1#2 then decodeGroupB w else none)

/-- A 32-bit word (R30). -/
noncomputable def decode32 (w : U32) : Option Instr := checked (decodeFields none w)

/-- A prefixed pair (R28, R41). -/
noncomputable def decodePair (q w : U32) : Option Instr := (Pfx.ofWord q).bind fun p => checked (decodeFields (some p) w)

/-- The instruction at the front of `bs`, with its length in bytes, in the order of tests of R27 and R51. -/
noncomputable def decodeBytes (bs : List Byte) : Except DecodeErr (Instr × Nat) :=
  if bs.length < 2 then .error .short else
  let h : U16 := BitVec.ofNat 16 (ofBytes (bs.take 2))
  if fld h 1 1 = 0#1 then
    match decode16 h with
    | some i => .ok (i, 2)
    | none => .error (.illop 2 (h.setWidth 64))
  else if bs.length < 4 then .error .short else
  let w : U32 := BitVec.ofNat 32 (ofBytes (bs.take 4))
  if fld h 0 1 = 0#1 then
    match decode32 w with
    | some i => .ok (i, 4)
    | none => .error (.illop 4 (w.setWidth 64))
  else if bs.length < 6 then .error .short else
  let h1 : U16 := BitVec.ofNat 16 (ofBytes ((bs.drop 4).take 2))
  let pfxTval : U64 := BitVec.ofNat 64 (w.toNat + 2 ^ 32 * h1.toNat)
  if fld h1 0 2 ≠ 2#2 then .error (.illpfx pfxTval)
  else if bs.length < 8 then .error .short else
  let b : U32 := BitVec.ofNat 32 (ofBytes ((bs.drop 4).take 4))
  if !prefixable b then .error (.illpfx pfxTval)
  else
    match decodePair w b with
    | some i => .ok (i, 8)
    | none => .error (.illop 8 (BitVec.ofNat 64 (w.toNat + 2 ^ 32 * b.toNat)))

/-- The instruction whose bits are `w`, bit 0 the least significant of the first halfword, laid out as the
hardware stores it and followed by zeros. -/
noncomputable def decodeTableWord (nbits w : Nat) : Option Instr :=
  match decodeBytes (toBytes (nbits / 8) (w % 2 ^ nbits) ++ List.replicate (8 - nbits / 8) 0#8) with
  | .ok (i, _) => some i
  | .error _ => none

/-- An instruction's length in bytes and its bits, the first halfword lowest. -/
structure Encoded where
  len : Nat
  bits : Nat
  deriving DecidableEq, Repr

/-- The bits of a compact halfword. -/
def Encoded.half (w : U16) : Encoded := { len := 2, bits := w.toNat }

/-- The bits of a 32-bit word. -/
def Encoded.word (w : U32) : Encoded := { len := 4, bits := w.toNat }

/-- The bits of a word that may follow a prefix. -/
def Encoded.pair (p : Option Pfx) (w : U32) : Encoded :=
  match p with
  | none => .word w
  | some q => { len := 8, bits := q.word.toNat + 2 ^ 32 * w.toNat }

/-- The encoding of an instruction; an event has none, and its length is 0. -/
def encode : Instr → Encoded
  | .add d a b => .word (0#4 ++ 0#5 ++ b.bits ++ a.bits ++ d.bits ++ 1#6 ++ 2#2)
  | .sub d a b => .word (0#4 ++ 1#5 ++ b.bits ++ a.bits ++ d.bits ++ 1#6 ++ 2#2)
  | .mul d a b => .word (0#4 ++ 2#5 ++ b.bits ++ a.bits ++ d.bits ++ 1#6 ++ 2#2)
  | .mulh d a b => .word (0#4 ++ 3#5 ++ b.bits ++ a.bits ++ d.bits ++ 1#6 ++ 2#2)
  | .mulhu d a b => .word (0#4 ++ 4#5 ++ b.bits ++ a.bits ++ d.bits ++ 1#6 ++ 2#2)
  | .div d a b => .word (0#4 ++ 5#5 ++ b.bits ++ a.bits ++ d.bits ++ 1#6 ++ 2#2)
  | .divu d a b => .word (0#4 ++ 6#5 ++ b.bits ++ a.bits ++ d.bits ++ 1#6 ++ 2#2)
  | .rem d a b => .word (0#4 ++ 7#5 ++ b.bits ++ a.bits ++ d.bits ++ 1#6 ++ 2#2)
  | .remu d a b => .word (0#4 ++ 8#5 ++ b.bits ++ a.bits ++ d.bits ++ 1#6 ++ 2#2)
  | .and d a b => .word (0#4 ++ 9#5 ++ b.bits ++ a.bits ++ d.bits ++ 1#6 ++ 2#2)
  | .or d a b => .word (0#4 ++ 10#5 ++ b.bits ++ a.bits ++ d.bits ++ 1#6 ++ 2#2)
  | .xor d a b => .word (0#4 ++ 11#5 ++ b.bits ++ a.bits ++ d.bits ++ 1#6 ++ 2#2)
  | .andn d a b => .word (0#4 ++ 12#5 ++ b.bits ++ a.bits ++ d.bits ++ 1#6 ++ 2#2)
  | .shl d a b => .word (0#4 ++ 13#5 ++ b.bits ++ a.bits ++ d.bits ++ 1#6 ++ 2#2)
  | .shr d a b => .word (0#4 ++ 14#5 ++ b.bits ++ a.bits ++ d.bits ++ 1#6 ++ 2#2)
  | .sra d a b => .word (0#4 ++ 15#5 ++ b.bits ++ a.bits ++ d.bits ++ 1#6 ++ 2#2)
  | .rol d a b => .word (0#4 ++ 16#5 ++ b.bits ++ a.bits ++ d.bits ++ 1#6 ++ 2#2)
  | .min d a b => .word (0#4 ++ 17#5 ++ b.bits ++ a.bits ++ d.bits ++ 1#6 ++ 2#2)
  | .max d a b => .word (0#4 ++ 18#5 ++ b.bits ++ a.bits ++ d.bits ++ 1#6 ++ 2#2)
  | .minu d a b => .word (0#4 ++ 19#5 ++ b.bits ++ a.bits ++ d.bits ++ 1#6 ++ 2#2)
  | .maxu d a b => .word (0#4 ++ 20#5 ++ b.bits ++ a.bits ++ d.bits ++ 1#6 ++ 2#2)
  | .slt d a b => .word (0#4 ++ 21#5 ++ b.bits ++ a.bits ++ d.bits ++ 1#6 ++ 2#2)
  | .sltu d a b => .word (0#4 ++ 22#5 ++ b.bits ++ a.bits ++ d.bits ++ 1#6 ++ 2#2)
  | .seq d a b => .word (0#4 ++ 23#5 ++ b.bits ++ a.bits ++ d.bits ++ 1#6 ++ 2#2)
  | .sne d a b => .word (0#4 ++ 24#5 ++ b.bits ++ a.bits ++ d.bits ++ 1#6 ++ 2#2)
  | .clz d a => .word (0#4 ++ 25#5 ++ 0#5 ++ a.bits ++ d.bits ++ 1#6 ++ 2#2)
  | .ctz d a => .word (0#4 ++ 26#5 ++ 0#5 ++ a.bits ++ d.bits ++ 1#6 ++ 2#2)
  | .popc d a => .word (0#4 ++ 27#5 ++ 0#5 ++ a.bits ++ d.bits ++ 1#6 ++ 2#2)
  | .brev d a => .word (0#4 ++ 28#5 ++ 0#5 ++ a.bits ++ d.bits ++ 1#6 ++ 2#2)
  | .sext d a b => .word (0#4 ++ 29#5 ++ b.bits ++ a.bits ++ d.bits ++ 1#6 ++ 2#2)
  | .zext d a b => .word (0#4 ++ 30#5 ++ b.bits ++ a.bits ++ d.bits ++ 1#6 ++ 2#2)
  | .sel d a b c => .word (c ++ 31#5 ++ b.bits ++ a.bits ++ d.bits ++ 1#6 ++ 2#2)
  | .addi d a imm => .word (imm ++ 0#3 ++ a.bits ++ d.bits ++ 2#6 ++ 2#2)
  | .andi d a imm => .word (imm ++ 1#3 ++ a.bits ++ d.bits ++ 2#6 ++ 2#2)
  | .ori d a imm => .word (imm ++ 2#3 ++ a.bits ++ d.bits ++ 2#6 ++ 2#2)
  | .xori d a imm => .word (imm ++ 3#3 ++ a.bits ++ d.bits ++ 2#6 ++ 2#2)
  | .shli d a imm => .word (imm ++ 4#3 ++ a.bits ++ d.bits ++ 2#6 ++ 2#2)
  | .shri d a imm => .word (imm ++ 5#3 ++ a.bits ++ d.bits ++ 2#6 ++ 2#2)
  | .srai d a imm => .word (imm ++ 6#3 ++ a.bits ++ d.bits ++ 2#6 ++ 2#2)
  | .slti d a imm => .word (imm ++ 7#3 ++ a.bits ++ d.bits ++ 2#6 ++ 2#2)
  | .li d imm => .word (imm ++ d.bits ++ 3#6 ++ 2#2)
  | .xset x imm part => .word (imm ++ 0#3 ++ part ++ x ++ 4#6 ++ 2#2)
  | .mov d a => .word (0#4 ++ 0#5 ++ 0#5 ++ a.bits ++ d.bits ++ 5#6 ++ 2#2)
  | .xget d x => .word (0#4 ++ 1#5 ++ 0#5 ++ 0#2 ++ x ++ d.bits ++ 5#6 ++ 2#2)
  | .xsetr x a => .word (0#4 ++ 2#5 ++ 0#5 ++ a.bits ++ 0#2 ++ x ++ 5#6 ++ 2#2)
  | .nclr n => .word (0#4 ++ 3#5 ++ 0#5 ++ 0#5 ++ 1#1 ++ n ++ 5#6 ++ 2#2)
  | .nwr dir n a slot => .word (0#2 ++ dir ++ 4#5 ++ slot ++ a.bits ++ 1#1 ++ n ++ 5#6 ++ 2#2)
  | .ntest d n => .word (0#4 ++ 5#5 ++ 0#5 ++ 1#1 ++ n ++ d.bits ++ 5#6 ++ 2#2)
  | .borrow d a => .word (0#4 ++ 6#5 ++ 0#5 ++ a.bits ++ d.bits ++ 5#6 ++ 2#2)
  | .brd d n => .word (0#4 ++ 7#5 ++ 0#5 ++ 1#1 ++ n ++ d.bits ++ 5#6 ++ 2#2)
  | .bwr n a => .word (0#4 ++ 8#5 ++ 0#5 ++ a.bits ++ 1#1 ++ n ++ 5#6 ++ 2#2)
  | .bret => .word (0#4 ++ 9#5 ++ 0#5 ++ 0#5 ++ 0#5 ++ 5#6 ++ 2#2)
  | .qsend q a => .word (0#4 ++ 10#5 ++ 0#5 ++ a.bits ++ 0#2 ++ q ++ 5#6 ++ 2#2)
  | .qrecv d q => .word (0#4 ++ 11#5 ++ 0#5 ++ 0#2 ++ q ++ d.bits ++ 5#6 ++ 2#2)
  | .qstat d q => .word (0#4 ++ 12#5 ++ 0#5 ++ 0#2 ++ q ++ d.bits ++ 5#6 ++ 2#2)
  | .rng d => .word (0#4 ++ 13#5 ++ 0#5 ++ 0#5 ++ d.bits ++ 5#6 ++ 2#2)
  | .rngseed a => .word (0#4 ++ 14#5 ++ 0#5 ++ a.bits ++ 0#5 ++ 5#6 ++ 2#2)
  | .cycle d => .word (0#4 ++ 15#5 ++ 0#5 ++ 0#5 ++ d.bits ++ 5#6 ++ 2#2)
  | .mfs d sys => .word (0#2 ++ sys ++ 0#3 ++ 0#2 ++ d.bits ++ 6#6 ++ 2#2)
  | .mts sys a => .word (0#2 ++ sys ++ 0#3 ++ 1#2 ++ a.bits ++ 6#6 ++ 2#2)
  | .mtsi sys ihi ilo => .word (0#2 ++ sys ++ ihi ++ 2#2 ++ ilo ++ 6#6 ++ 2#2)
  | .cgeta d ka => .word (0#4 ++ 0#5 ++ 0#5 ++ 0#2 ++ ka ++ d.bits ++ 7#6 ++ 2#2)
  | .cgetb d ka => .word (0#4 ++ 1#5 ++ 0#5 ++ 0#2 ++ ka ++ d.bits ++ 7#6 ++ 2#2)
  | .cgetl d ka => .word (0#4 ++ 2#5 ++ 0#5 ++ 0#2 ++ ka ++ d.bits ++ 7#6 ++ 2#2)
  | .cgetp d ka => .word (0#4 ++ 3#5 ++ 0#5 ++ 0#2 ++ ka ++ d.bits ++ 7#6 ++ 2#2)
  | .ctag d ka => .word (0#4 ++ 4#5 ++ 0#5 ++ 0#2 ++ ka ++ d.bits ++ 7#6 ++ 2#2)
  | .cmov kd ka => .word (0#4 ++ 5#5 ++ 0#5 ++ 0#2 ++ ka ++ 0#2 ++ kd ++ 7#6 ++ 2#2)
  | .cseta kd ka b => .word (0#4 ++ 6#5 ++ b.bits ++ 0#2 ++ ka ++ 0#2 ++ kd ++ 7#6 ++ 2#2)
  | .cinc kd ka b => .word (0#4 ++ 7#5 ++ b.bits ++ 0#2 ++ ka ++ 0#2 ++ kd ++ 7#6 ++ 2#2)
  | .cbound exact kd ka b => .word (0#3 ++ BitVec.ofBool exact ++ 8#5 ++ b.bits ++ 0#2 ++ ka ++ 0#2 ++ kd ++ 7#6 ++ 2#2)
  | .cperm kd ka b => .word (0#4 ++ 9#5 ++ b.bits ++ 0#2 ++ ka ++ 0#2 ++ kd ++ 7#6 ++ 2#2)
  | .cgen kd ka => .word (0#4 ++ 10#5 ++ 0#5 ++ 0#2 ++ ka ++ 0#2 ++ kd ++ 7#6 ++ 2#2)
  | .cclr kd => .word (0#4 ++ 11#5 ++ 0#5 ++ 0#5 ++ 0#2 ++ kd ++ 7#6 ++ 2#2)
  | .ceq d ka kb => .word (0#4 ++ 12#5 ++ 0#2 ++ kb ++ 0#2 ++ ka ++ d.bits ++ 7#6 ++ 2#2)
  | .csub d ka kb => .word (0#4 ++ 13#5 ++ 0#2 ++ kb ++ 0#2 ++ ka ++ d.bits ++ 7#6 ++ 2#2)
  | .ldk kd idx => .word (0#4 ++ 14#5 ++ idx ++ 0#2 ++ kd ++ 7#6 ++ 2#2)
  | .beq a b off => .word (off ++ 0#3 ++ b.bits ++ a.bits ++ 8#6 ++ 2#2)
  | .bne a b off => .word (off ++ 1#3 ++ b.bits ++ a.bits ++ 8#6 ++ 2#2)
  | .blt a b off => .word (off ++ 2#3 ++ b.bits ++ a.bits ++ 8#6 ++ 2#2)
  | .bge a b off => .word (off ++ 3#3 ++ b.bits ++ a.bits ++ 8#6 ++ 2#2)
  | .bltu a b off => .word (off ++ 4#3 ++ b.bits ++ a.bits ++ 8#6 ++ 2#2)
  | .bgeu a b off => .word (off ++ 5#3 ++ b.bits ++ a.bits ++ 8#6 ++ 2#2)
  | .bbs a b off => .word (off ++ 6#3 ++ b.bits ++ a.bits ++ 8#6 ++ 2#2)
  | .bbc a b off => .word (off ++ 7#3 ++ b.bits ++ a.bits ++ 8#6 ++ 2#2)
  | .bez a off => .word (off ++ 0#1 ++ a.bits ++ 9#6 ++ 2#2)
  | .bnz a off => .word (off ++ 1#1 ++ a.bits ++ 9#6 ++ 2#2)
  | .bgs g off => .word (off ++ 0#1 ++ 0#1 ++ g ++ 10#6 ++ 2#2)
  | .bgc g off => .word (off ++ 0#1 ++ 1#1 ++ g ++ 10#6 ++ 2#2)
  | .j off => .word (off ++ 0#1 ++ 11#6 ++ 2#2)
  | .call off => .word (off ++ 1#1 ++ 11#6 ++ 2#2)
  | .jk k => .word (0#20 ++ 0#1 ++ k ++ 12#6 ++ 2#2)
  | .callk k => .word (0#20 ++ 1#1 ++ k ++ 12#6 ++ 2#2)
  | .loop a off => .word (off ++ 0#1 ++ a.bits ++ 13#6 ++ 2#2)
  | .loopm i off => .word (off ++ 1#1 ++ 0#2 ++ i ++ 13#6 ++ 2#2)
  | .loopi cnt off => .word (off ++ cnt ++ 14#6 ++ 2#2)
  | .gset cc g a b => .word (0#4 ++ 0#2 ++ cc ++ b.bits ++ a.bits ++ 0#1 ++ g ++ 15#6 ++ 2#2)
  | .gsetn cc g a b => .word (0#4 ++ 1#2 ++ cc ++ b.bits ++ a.bits ++ 0#1 ++ g ++ 15#6 ++ 2#2)
  | .gclr g => .word (0#4 ++ 2#2 ++ 0#3 ++ 0#5 ++ 0#5 ++ 0#1 ++ g ++ 15#6 ++ 2#2)
  | .gwait g => .word (0#4 ++ 3#2 ++ 0#3 ++ 0#5 ++ 0#5 ++ 0#1 ++ g ++ 15#6 ++ 2#2)
  | .ld type d k off => .word (off ++ type ++ k ++ d.bits ++ 16#6 ++ 2#2)
  | .st size rel k off a => .word (off ++ BitVec.ofBool rel ++ size ++ k ++ a.bits ++ 17#6 ++ 2#2)
  | .ldx type acq d k i scale => .word (0#4 ++ 0#1 ++ BitVec.ofBool acq ++ type ++ scale ++ i.bits ++ k ++ d.bits ++ 18#6 ++ 2#2)
  | .stx size rel k i scale a => .word (0#4 ++ 1#1 ++ BitVec.ofBool rel ++ 0#1 ++ size ++ scale ++ i.bits ++ k ++ a.bits ++ 18#6 ++ 2#2)
  | .ldc kd k off => .word (off ++ 0#1 ++ k ++ 0#1 ++ 0#1 ++ kd ++ 19#6 ++ 2#2)
  | .stc k off kd => .word (off ++ 0#1 ++ k ++ 0#1 ++ 1#1 ++ kd ++ 19#6 ++ 2#2)
  | .aadd wide order d k off => .word (off ++ 0#1 ++ order ++ BitVec.ofBool wide ++ 0#4 ++ k ++ d.bits ++ 20#6 ++ 2#2)
  | .aand wide order d k off => .word (off ++ 0#1 ++ order ++ BitVec.ofBool wide ++ 1#4 ++ k ++ d.bits ++ 20#6 ++ 2#2)
  | .aor wide order d k off => .word (off ++ 0#1 ++ order ++ BitVec.ofBool wide ++ 2#4 ++ k ++ d.bits ++ 20#6 ++ 2#2)
  | .axor wide order d k off => .word (off ++ 0#1 ++ order ++ BitVec.ofBool wide ++ 3#4 ++ k ++ d.bits ++ 20#6 ++ 2#2)
  | .amin wide order d k off => .word (off ++ 0#1 ++ order ++ BitVec.ofBool wide ++ 4#4 ++ k ++ d.bits ++ 20#6 ++ 2#2)
  | .amax wide order d k off => .word (off ++ 0#1 ++ order ++ BitVec.ofBool wide ++ 5#4 ++ k ++ d.bits ++ 20#6 ++ 2#2)
  | .aminu wide order d k off => .word (off ++ 0#1 ++ order ++ BitVec.ofBool wide ++ 6#4 ++ k ++ d.bits ++ 20#6 ++ 2#2)
  | .amaxu wide order d k off => .word (off ++ 0#1 ++ order ++ BitVec.ofBool wide ++ 7#4 ++ k ++ d.bits ++ 20#6 ++ 2#2)
  | .aswp wide order d k off => .word (off ++ 0#1 ++ order ++ BitVec.ofBool wide ++ 8#4 ++ k ++ d.bits ++ 20#6 ++ 2#2)
  | .acas wide order d k off => .word (off ++ 0#1 ++ order ++ BitVec.ofBool wide ++ 9#4 ++ k ++ d.bits ++ 20#6 ++ 2#2)
  | .afadd wide order d k off => .word (off ++ 0#1 ++ order ++ BitVec.ofBool wide ++ 10#4 ++ k ++ d.bits ++ 20#6 ++ 2#2)
  | .fence kind scope => .word (0#4 ++ 0#5 ++ 0#9 ++ kind ++ scope ++ 21#6 ++ 2#2)
  | .efence => .word (0#4 ++ 1#5 ++ 0#9 ++ 0#6 ++ 21#6 ++ 2#2)
  | .ifence => .word (0#4 ++ 2#5 ++ 0#9 ++ 0#6 ++ 21#6 ++ 2#2)
  | .rst size ka b => .word (0#2 ++ size ++ 0#5 ++ b.bits ++ 0#2 ++ ka ++ 0#5 ++ 22#6 ++ 2#2)
  | .amsg ka kb => .word (0#4 ++ 1#5 ++ 0#2 ++ kb ++ 0#2 ++ ka ++ 0#5 ++ 22#6 ++ 2#2)
  | .rdrain => .word (0#4 ++ 2#5 ++ 0#5 ++ 0#5 ++ 0#5 ++ 22#6 ++ 2#2)
  | .spawn d ka => .word (0#4 ++ 0#5 ++ 0#5 ++ 0#2 ++ ka ++ d.bits ++ 23#6 ++ 2#2)
  | .start d ka => .word (0#4 ++ 1#5 ++ 0#5 ++ 0#2 ++ ka ++ d.bits ++ 23#6 ++ 2#2)
  | .done => .word (0#4 ++ 2#5 ++ 0#5 ++ 0#5 ++ 0#5 ++ 23#6 ++ 2#2)
  | .yield a b => .word (0#4 ++ 3#5 ++ b.bits ++ a.bits ++ 0#5 ++ 23#6 ++ 2#2)
  | .join d ka => .word (0#4 ++ 4#5 ++ 0#5 ++ 0#2 ++ ka ++ d.bits ++ 23#6 ++ 2#2)
  | .walk d ka b => .word (0#4 ++ 5#5 ++ b.bits ++ 0#2 ++ ka ++ d.bits ++ 23#6 ++ 2#2)
  | .launch d ka b => .word (0#4 ++ 6#5 ++ b.bits ++ 0#2 ++ ka ++ d.bits ++ 23#6 ++ 2#2)
  | .launchi d ka kb => .word (0#4 ++ 7#5 ++ 0#2 ++ kb ++ 0#2 ++ ka ++ d.bits ++ 23#6 ++ 2#2)
  | .gang d ka => .word (0#4 ++ 8#5 ++ 0#5 ++ 0#2 ++ ka ++ d.bits ++ 23#6 ++ 2#2)
  | .submit d ka => .word (0#4 ++ 9#5 ++ 0#5 ++ 0#2 ++ ka ++ d.bits ++ 23#6 ++ 2#2)
  | .dline d a => .word (0#4 ++ 10#5 ++ 0#5 ++ a.bits ++ d.bits ++ 23#6 ++ 2#2)
  | .self kd => .word (0#4 ++ 11#5 ++ 0#5 ++ 0#5 ++ 0#2 ++ kd ++ 23#6 ++ 2#2)
  | .finit ka => .word (0#4 ++ 0#5 ++ 0#5 ++ 0#2 ++ ka ++ 0#5 ++ 24#6 ++ 2#2)
  | .fres d ka b => .word (0#4 ++ 1#5 ++ b.bits ++ 0#2 ++ ka ++ d.bits ++ 24#6 ++ 2#2)
  | .freg d ka kb => .word (0#4 ++ 2#5 ++ 0#2 ++ kb ++ 0#2 ++ ka ++ d.bits ++ 24#6 ++ 2#2)
  | .fget d ka => .word (0#4 ++ 3#5 ++ 0#5 ++ 0#2 ++ ka ++ d.bits ++ 24#6 ++ 2#2)
  | .fstat d ka => .word (0#4 ++ 4#5 ++ 0#5 ++ 0#2 ++ ka ++ d.bits ++ 24#6 ++ 2#2)
  | .rinit ka kb s => .word (0#4 ++ 0#5 ++ 0#2 ++ kb ++ 0#2 ++ ka ++ s ++ 25#6 ++ 2#2)
  | .rclaim scope d ka b => .word (0#1 ++ scope ++ 1#5 ++ b.bits ++ 0#2 ++ ka ++ d.bits ++ 25#6 ++ 2#2)
  | .rtryclaim scope d ka b => .word (0#1 ++ scope ++ 2#5 ++ b.bits ++ 0#2 ++ ka ++ d.bits ++ 25#6 ++ 2#2)
  | .rcommit scope ka i b => .word (0#1 ++ scope ++ 3#5 ++ b.bits ++ 0#2 ++ ka ++ i.bits ++ 25#6 ++ 2#2)
  | .rawait scope d ka b => .word (0#1 ++ scope ++ 4#5 ++ b.bits ++ 0#2 ++ ka ++ d.bits ++ 25#6 ++ 2#2)
  | .rretire scope ka i b => .word (0#1 ++ scope ++ 5#5 ++ b.bits ++ 0#2 ++ ka ++ i.bits ++ 25#6 ++ 2#2)
  | .binit ka b => .word (0#4 ++ 0#5 ++ b.bits ++ 0#2 ++ ka ++ 0#5 ++ 26#6 ++ 2#2)
  | .barrive scope d ka b => .word (0#1 ++ scope ++ 1#5 ++ b.bits ++ 0#2 ++ ka ++ d.bits ++ 26#6 ++ 2#2)
  | .bexpect ka b => .word (0#4 ++ 2#5 ++ b.bits ++ 0#2 ++ ka ++ 0#5 ++ 26#6 ++ 2#2)
  | .bwait scope ka b => .word (0#1 ++ scope ++ 3#5 ++ b.bits ++ 0#2 ++ ka ++ 0#5 ++ 26#6 ++ 2#2)
  | .btest scope d ka b => .word (0#1 ++ scope ++ 4#5 ++ b.bits ++ 0#2 ++ ka ++ d.bits ++ 26#6 ++ 2#2)
  | .trap a => .word (0#4 ++ 0#5 ++ 0#5 ++ a.bits ++ 0#5 ++ 27#6 ++ 2#2)
  | .rte => .word (0#4 ++ 1#5 ++ 0#5 ++ 0#5 ++ 0#5 ++ 27#6 ++ 2#2)
  | .svc d a b => .word (0#4 ++ 2#5 ++ b.bits ++ a.bits ++ d.bits ++ 27#6 ++ 2#2)
  | .brk => .word (0#4 ++ 3#5 ++ 0#5 ++ 0#5 ++ 0#5 ++ 27#6 ++ 2#2)
  | .chkpt idx => .word (0#4 ++ 4#5 ++ idx ++ 0#5 ++ 27#6 ++ 2#2)
  | .realign tag => .word (0#4 ++ 5#5 ++ tag ++ 0#5 ++ 27#6 ++ 2#2)
  | .wfi d a => .word (0#4 ++ 6#5 ++ 0#5 ++ a.bits ++ d.bits ++ 27#6 ++ 2#2)
  | .halt => .word (0#4 ++ 7#5 ++ 0#5 ++ 0#5 ++ 0#5 ++ 27#6 ++ 2#2)
  | .tinv all a b => .word (0#3 ++ BitVec.ofBool all ++ 8#5 ++ b.bits ++ a.bits ++ 0#5 ++ 27#6 ++ 2#2)
  | .vclaim d a b => .word (0#4 ++ 0#5 ++ b.bits ++ a.bits ++ d.bits ++ 28#6 ++ 2#2)
  | .vreneg d a b => .word (0#4 ++ 1#5 ++ b.bits ++ a.bits ++ d.bits ++ 28#6 ++ 2#2)
  | .vrel => .word (0#4 ++ 2#5 ++ 0#5 ++ 0#5 ++ 0#5 ++ 28#6 ++ 2#2)
  | .vadd p et d a b => .pair p (0#1 ++ 0#5 ++ et ++ b ++ a ++ d ++ 29#6 ++ 2#2)
  | .vsub p et d a b => .pair p (0#1 ++ 1#5 ++ et ++ b ++ a ++ d ++ 29#6 ++ 2#2)
  | .vmul p et d a b => .pair p (0#1 ++ 2#5 ++ et ++ b ++ a ++ d ++ 29#6 ++ 2#2)
  | .vmulh p et d a b => .pair p (0#1 ++ 3#5 ++ et ++ b ++ a ++ d ++ 29#6 ++ 2#2)
  | .vmin p et d a b => .pair p (0#1 ++ 4#5 ++ et ++ b ++ a ++ d ++ 29#6 ++ 2#2)
  | .vmax p et d a b => .pair p (0#1 ++ 5#5 ++ et ++ b ++ a ++ d ++ 29#6 ++ 2#2)
  | .vminu p et d a b => .pair p (0#1 ++ 6#5 ++ et ++ b ++ a ++ d ++ 29#6 ++ 2#2)
  | .vmaxu p et d a b => .pair p (0#1 ++ 7#5 ++ et ++ b ++ a ++ d ++ 29#6 ++ 2#2)
  | .vand p et d a b => .pair p (0#1 ++ 8#5 ++ et ++ b ++ a ++ d ++ 29#6 ++ 2#2)
  | .vor p et d a b => .pair p (0#1 ++ 9#5 ++ et ++ b ++ a ++ d ++ 29#6 ++ 2#2)
  | .vxor p et d a b => .pair p (0#1 ++ 10#5 ++ et ++ b ++ a ++ d ++ 29#6 ++ 2#2)
  | .vshl p et d a b => .pair p (0#1 ++ 11#5 ++ et ++ b ++ a ++ d ++ 29#6 ++ 2#2)
  | .vshr p et d a b => .pair p (0#1 ++ 12#5 ++ et ++ b ++ a ++ d ++ 29#6 ++ 2#2)
  | .vsra p et d a b => .pair p (0#1 ++ 13#5 ++ et ++ b ++ a ++ d ++ 29#6 ++ 2#2)
  | .vabs p et d a => .pair p (0#1 ++ 14#5 ++ et ++ 0#5 ++ a ++ d ++ 29#6 ++ 2#2)
  | .vsadd p et d a b => .pair p (0#1 ++ 15#5 ++ et ++ b ++ a ++ d ++ 29#6 ++ 2#2)
  | .vssub p et d a b => .pair p (0#1 ++ 16#5 ++ et ++ b ++ a ++ d ++ 29#6 ++ 2#2)
  | .vfadd p et d a b => .pair p (0#1 ++ 0#5 ++ et ++ b ++ a ++ d ++ 30#6 ++ 2#2)
  | .vfsub p et d a b => .pair p (0#1 ++ 1#5 ++ et ++ b ++ a ++ d ++ 30#6 ++ 2#2)
  | .vfmul p et d a b => .pair p (0#1 ++ 2#5 ++ et ++ b ++ a ++ d ++ 30#6 ++ 2#2)
  | .vfma p et d a b => .pair p (0#1 ++ 3#5 ++ et ++ b ++ a ++ d ++ 30#6 ++ 2#2)
  | .vfdiv p et d a b => .pair p (0#1 ++ 4#5 ++ et ++ b ++ a ++ d ++ 30#6 ++ 2#2)
  | .vfsqrt p et d a => .pair p (0#1 ++ 5#5 ++ et ++ 0#5 ++ a ++ d ++ 30#6 ++ 2#2)
  | .vfmin p et d a b => .pair p (0#1 ++ 6#5 ++ et ++ b ++ a ++ d ++ 30#6 ++ 2#2)
  | .vfmax p et d a b => .pair p (0#1 ++ 7#5 ++ et ++ b ++ a ++ d ++ 30#6 ++ 2#2)
  | .vfabs p et d a => .pair p (0#1 ++ 8#5 ++ et ++ 0#5 ++ a ++ d ++ 30#6 ++ 2#2)
  | .vfneg p et d a => .pair p (0#1 ++ 9#5 ++ et ++ 0#5 ++ a ++ d ++ 30#6 ++ 2#2)
  | .vfrcp p et d a => .pair p (0#1 ++ 10#5 ++ et ++ 0#5 ++ a ++ d ++ 30#6 ++ 2#2)
  | .vfrsq p et d a => .pair p (0#1 ++ 11#5 ++ et ++ 0#5 ++ a ++ d ++ 30#6 ++ 2#2)
  | .vfexp2 p et d a => .pair p (0#1 ++ 12#5 ++ et ++ 0#5 ++ a ++ d ++ 30#6 ++ 2#2)
  | .vflog2 p et d a => .pair p (0#1 ++ 13#5 ++ et ++ 0#5 ++ a ++ d ++ 30#6 ++ 2#2)
  | .vfclass p et d a => .pair p (0#1 ++ 14#5 ++ et ++ 0#5 ++ a ++ d ++ 30#6 ++ 2#2)
  | .vcmp p et cc vmd a b => .pair p (0#1 ++ 0#5 ++ et ++ b ++ a ++ cc ++ vmd ++ 31#6 ++ 2#2)
  | .vfcmp p et cc vmd a b => .pair p (0#1 ++ 1#5 ++ et ++ b ++ a ++ cc ++ vmd ++ 31#6 ++ 2#2)
  | .vmand p vmd vma vmb => .pair p (0#1 ++ 2#5 ++ 0#3 ++ 0#2 ++ vmb ++ 0#2 ++ vma ++ 0#2 ++ vmd ++ 31#6 ++ 2#2)
  | .vmor p vmd vma vmb => .pair p (0#1 ++ 3#5 ++ 0#3 ++ 0#2 ++ vmb ++ 0#2 ++ vma ++ 0#2 ++ vmd ++ 31#6 ++ 2#2)
  | .vmxor p vmd vma vmb => .pair p (0#1 ++ 4#5 ++ 0#3 ++ 0#2 ++ vmb ++ 0#2 ++ vma ++ 0#2 ++ vmd ++ 31#6 ++ 2#2)
  | .vmnot p vmd vma => .pair p (0#1 ++ 5#5 ++ 0#3 ++ 0#5 ++ 0#2 ++ vma ++ 0#2 ++ vmd ++ 31#6 ++ 2#2)
  | .vmpop p d vma => .pair p (0#1 ++ 6#5 ++ 0#3 ++ 0#5 ++ 0#2 ++ vma ++ d.bits ++ 31#6 ++ 2#2)
  | .vmfirst p d vma => .pair p (0#1 ++ 7#5 ++ 0#3 ++ 0#5 ++ 0#2 ++ vma ++ d.bits ++ 31#6 ++ 2#2)
  | .vcvt p et d a src part => .pair p (0#1 ++ 0#5 ++ et ++ part ++ src ++ a ++ d ++ 32#6 ++ 2#2)
  | .vqbfp p et d a m1 => .pair p (0#1 ++ 1#5 ++ et ++ 0#2 ++ m1 ++ a ++ d ++ 32#6 ++ 2#2)
  | .vdqbfp p et d a m1 => .pair p (0#1 ++ 2#5 ++ et ++ 0#2 ++ m1 ++ a ++ d ++ 32#6 ++ 2#2)
  | .vld p et d k off => .pair p (0#1 ++ 0#5 ++ et ++ off ++ 0#2 ++ k ++ d ++ 33#6 ++ 2#2)
  | .vst p et d k off => .pair p (0#1 ++ 1#5 ++ et ++ off ++ 0#2 ++ k ++ d ++ 33#6 ++ 2#2)
  | .vlds p et d k b => .pair p (0#1 ++ 2#5 ++ et ++ b.bits ++ 0#2 ++ k ++ d ++ 33#6 ++ 2#2)
  | .vsts p et d k b => .pair p (0#1 ++ 3#5 ++ et ++ b.bits ++ 0#2 ++ k ++ d ++ 33#6 ++ 2#2)
  | .vgth p et d k b => .pair p (0#1 ++ 4#5 ++ et ++ b ++ 0#2 ++ k ++ d ++ 33#6 ++ 2#2)
  | .vsct p et d k b => .pair p (0#1 ++ 5#5 ++ et ++ b ++ 0#2 ++ k ++ d ++ 33#6 ++ 2#2)
  | .vbcast p et d a => .pair p (0#1 ++ 0#5 ++ et ++ 0#5 ++ a.bits ++ d ++ 34#6 ++ 2#2)
  | .vext p et d a b => .pair p (0#1 ++ 1#5 ++ et ++ b.bits ++ a ++ d.bits ++ 34#6 ++ 2#2)
  | .vins p et d a b => .pair p (0#1 ++ 2#5 ++ et ++ b.bits ++ a.bits ++ d ++ 34#6 ++ 2#2)
  | .viota p et d => .pair p (0#1 ++ 3#5 ++ et ++ 0#5 ++ 0#5 ++ d ++ 34#6 ++ 2#2)
  | .vshuf p et d a b => .pair p (0#1 ++ 4#5 ++ et ++ b ++ a ++ d ++ 34#6 ++ 2#2)
  | .vredsum p et d a => .pair p (0#1 ++ 5#5 ++ et ++ 0#5 ++ a ++ d.bits ++ 34#6 ++ 2#2)
  | .vredmax p et d a => .pair p (0#1 ++ 6#5 ++ et ++ 0#5 ++ a ++ d.bits ++ 34#6 ++ 2#2)
  | .vredmin p et d a => .pair p (0#1 ++ 7#5 ++ et ++ 0#5 ++ a ++ d.bits ++ 34#6 ++ 2#2)
  | .vtbl p et d a kb => .pair p (0#1 ++ 0#5 ++ et ++ 0#2 ++ kb ++ a ++ d ++ 35#6 ++ 2#2)
  | .vrng p et d => .pair p (0#1 ++ 1#5 ++ et ++ 0#5 ++ 0#5 ++ d ++ 35#6 ++ 2#2)
  | .vrngn p et d => .pair p (0#1 ++ 2#5 ++ et ++ 0#5 ++ 0#5 ++ d ++ 35#6 ++ 2#2)
  | .madd p cov d a b => .pair p (0#1 ++ 0#5 ++ cov ++ 0#1 ++ b ++ 0#1 ++ a ++ 0#1 ++ d ++ 36#6 ++ 2#2)
  | .msub p cov d a b => .pair p (0#1 ++ 1#5 ++ cov ++ 0#1 ++ b ++ 0#1 ++ a ++ 0#1 ++ d ++ 36#6 ++ 2#2)
  | .mmul p cov d a b => .pair p (0#1 ++ 2#5 ++ cov ++ 0#1 ++ b ++ 0#1 ++ a ++ 0#1 ++ d ++ 36#6 ++ 2#2)
  | .mscale p d a b => .pair p (0#1 ++ 3#5 ++ 0#3 ++ b ++ 0#1 ++ a ++ 0#1 ++ d ++ 36#6 ++ 2#2)
  | .mfma p cov d a b => .pair p (0#1 ++ 4#5 ++ cov ++ b ++ 0#1 ++ a ++ 0#1 ++ d ++ 36#6 ++ 2#2)
  | .mneg p d a => .pair p (0#1 ++ 5#5 ++ 0#3 ++ 0#5 ++ 0#1 ++ a ++ 0#1 ++ d ++ 36#6 ++ 2#2)
  | .mrelu p d a => .pair p (0#1 ++ 0#5 ++ 0#3 ++ 0#5 ++ 0#1 ++ a ++ 0#1 ++ d ++ 37#6 ++ 2#2)
  | .msig p d a => .pair p (0#1 ++ 1#5 ++ 0#3 ++ 0#5 ++ 0#1 ++ a ++ 0#1 ++ d ++ 37#6 ++ 2#2)
  | .mexp p d a => .pair p (0#1 ++ 2#5 ++ 0#3 ++ 0#5 ++ 0#1 ++ a ++ 0#1 ++ d ++ 37#6 ++ 2#2)
  | .msqr p d a => .pair p (0#1 ++ 3#5 ++ 0#3 ++ 0#5 ++ 0#1 ++ a ++ 0#1 ++ d ++ 37#6 ++ 2#2)
  | .mset p d a b => .pair p (0#1 ++ 0#5 ++ 0#3 ++ b ++ a ++ 0#1 ++ d ++ 38#6 ++ 2#2)
  | .mmean p d a => .pair p (0#1 ++ 1#5 ++ 0#3 ++ 0#5 ++ 0#1 ++ a ++ d ++ 38#6 ++ 2#2)
  | .mvar p d a => .pair p (0#1 ++ 2#5 ++ 0#3 ++ 0#5 ++ 0#1 ++ a ++ d ++ 38#6 ++ 2#2)
  | .mcoll p mode d a => .pair p (0#1 ++ 3#5 ++ 0#3 ++ 0#2 ++ mode ++ 0#1 ++ a ++ d ++ 38#6 ++ 2#2)
  | .mld p d k off => .pair p (0#1 ++ 4#5 ++ 0#3 ++ off ++ 0#2 ++ k ++ 0#1 ++ d ++ 38#6 ++ 2#2)
  | .mst p d k off => .pair p (0#1 ++ 5#5 ++ 0#3 ++ off ++ 0#2 ++ k ++ 0#1 ++ d ++ 38#6 ++ 2#2)
  | .mchk p d a => .pair p (0#1 ++ 6#5 ++ 0#3 ++ 0#5 ++ 0#1 ++ a ++ d.bits ++ 38#6 ++ 2#2)
  | .zld expand zd ka b => .word (0#3 ++ BitVec.ofBool expand ++ 0#5 ++ b.bits ++ 0#2 ++ ka ++ 0#1 ++ zd ++ 39#6 ++ 2#2)
  | .zst zd ka b => .word (0#4 ++ 1#5 ++ b.bits ++ 0#2 ++ ka ++ 0#1 ++ zd ++ 39#6 ++ 2#2)
  | .zzero zd => .word (0#4 ++ 2#5 ++ 0#5 ++ 0#5 ++ 0#1 ++ zd ++ 39#6 ++ 2#2)
  | .zrel zd => .word (0#4 ++ 3#5 ++ 0#5 ++ 0#5 ++ 0#1 ++ zd ++ 39#6 ++ 2#2)
  | .zstate d za => .word (0#4 ++ 4#5 ++ 0#5 ++ 0#1 ++ za ++ d.bits ++ 39#6 ++ 2#2)
  | .zmov zd za => .word (0#4 ++ 5#5 ++ 0#5 ++ 0#1 ++ za ++ 0#1 ++ zd ++ 39#6 ++ 2#2)
  | .wload za => .word (0#4 ++ 0#5 ++ 0#5 ++ 0#1 ++ za ++ 0#5 ++ 40#6 ++ 2#2)
  | .wswap => .word (0#4 ++ 1#5 ++ 0#5 ++ 0#5 ++ 0#5 ++ 40#6 ++ 2#2)
  | .mma yd za => .word (0#4 ++ 2#5 ++ 0#5 ++ 0#1 ++ za ++ 0#2 ++ yd ++ 40#6 ++ 2#2)
  | .mmam yd za => .word (0#4 ++ 3#5 ++ 0#5 ++ 0#1 ++ za ++ 0#2 ++ yd ++ 40#6 ++ 2#2)
  | .yzero mom yd => .word (0#3 ++ BitVec.ofBool mom ++ 4#5 ++ 0#5 ++ 0#5 ++ 0#2 ++ yd ++ 40#6 ++ 2#2)
  | .ydrain p zero zd ya b => .pair p (0#3 ++ BitVec.ofBool zero ++ 5#5 ++ b.bits ++ 0#2 ++ ya ++ 0#1 ++ zd ++ 40#6 ++ 2#2)
  | .ymov yd ya => .word (0#4 ++ 6#5 ++ 0#5 ++ 0#2 ++ ya ++ 0#2 ++ yd ++ 40#6 ++ 2#2)
  | .qfuse a => .word (0#4 ++ 7#5 ++ 0#5 ++ a.bits ++ 0#5 ++ 40#6 ++ 2#2)
  | .qsplit a => .word (0#4 ++ 8#5 ++ 0#5 ++ a.bits ++ 0#5 ++ 40#6 ++ 2#2)
  | .copy k ge sense g => .word (0#4 ++ 0#5 ++ 0#6 ++ BitVec.ofBool ge ++ BitVec.ofBool sense ++ g ++ k ++ 41#6 ++ 2#2)
  | .xform k ge sense g => .word (0#4 ++ 1#5 ++ 0#6 ++ BitVec.ofBool ge ++ BitVec.ofBool sense ++ g ++ k ++ 41#6 ++ 2#2)
  | .coll k ge sense g => .word (0#4 ++ 2#5 ++ 0#6 ++ BitVec.ofBool ge ++ BitVec.ofBool sense ++ g ++ k ++ 41#6 ++ 2#2)
  | .trace k ge sense g => .word (0#4 ++ 3#5 ++ 0#6 ++ BitVec.ofBool ge ++ BitVec.ofBool sense ++ g ++ k ++ 41#6 ++ 2#2)
  | .ewait d ka => .word (0#4 ++ 4#5 ++ 0#5 ++ 0#2 ++ ka ++ d.bits ++ 41#6 ++ 2#2)
  | .estat d ka => .word (0#4 ++ 5#5 ++ 0#5 ++ 0#2 ++ ka ++ d.bits ++ 41#6 ++ 2#2)
  | .lnew d a => .word (0#4 ++ 0#5 ++ 0#5 ++ a.bits ++ d.bits ++ 42#6 ++ 2#2)
  | .lfree a => .word (0#4 ++ 1#5 ++ 0#5 ++ a.bits ++ 0#5 ++ 42#6 ++ 2#2)
  | .lset f a b => .word (0#4 ++ 2#5 ++ b ++ a.bits ++ f ++ 42#6 ++ 2#2)
  | .lget f d a => .word (0#4 ++ 3#5 ++ f ++ a.bits ++ d.bits ++ 42#6 ++ 2#2)
  | .lest d a => .word (0#4 ++ 4#5 ++ 0#5 ++ a.bits ++ d.bits ++ 42#6 ++ 2#2)
  | .lprice a b => .word (0#4 ++ 5#5 ++ b.bits ++ a.bits ++ 0#5 ++ 42#6 ++ 2#2)
  | .lreq d => .word (0#4 ++ 6#5 ++ 0#5 ++ 0#5 ++ d.bits ++ 42#6 ++ 2#2)
  | .lreqS d => .word (1#4 ++ 6#5 ++ 0#5 ++ 0#5 ++ d.bits ++ 42#6 ++ 2#2)
  | .lbegin a => .word (0#4 ++ 7#5 ++ 0#5 ++ a.bits ++ 0#5 ++ 42#6 ++ 2#2)
  | .ldone a => .word (0#4 ++ 8#5 ++ 0#5 ++ a.bits ++ 0#5 ++ 42#6 ++ 2#2)
  | .lsplit a b => .word (0#4 ++ 9#5 ++ b.bits ++ a.bits ++ 0#5 ++ 42#6 ++ 2#2)
  | .lmerge a b => .word (0#4 ++ 10#5 ++ b.bits ++ a.bits ++ 0#5 ++ 42#6 ++ 2#2)
  | .llight a b => .word (0#4 ++ 11#5 ++ b.bits ++ a.bits ++ 0#5 ++ 42#6 ++ 2#2)
  | .compose d => .word (0#4 ++ 12#5 ++ 0#5 ++ 0#5 ++ d.bits ++ 42#6 ++ 2#2)
  | .slaunch d ka => .word (0#4 ++ 0#5 ++ 0#5 ++ 0#2 ++ ka ++ d.bits ++ 43#6 ++ 2#2)
  | .sresid a => .word (0#4 ++ 1#5 ++ 0#5 ++ a.bits ++ 0#5 ++ 43#6 ++ 2#2)
  | .sresidm a b => .word (0#4 ++ 2#5 ++ b.bits ++ a.bits ++ 0#5 ++ 43#6 ++ 2#2)
  | .sabort => .word (0#4 ++ 3#5 ++ 0#5 ++ 0#5 ++ 0#5 ++ 43#6 ++ 2#2)
  | .sstat d ka => .word (0#4 ++ 4#5 ++ 0#5 ++ 0#2 ++ ka ++ d.bits ++ 43#6 ++ 2#2)
  | .addC a b => .half (0#2 ++ b ++ a ++ 1#4 ++ 0#2)
  | .subC a b => .half (0#2 ++ b ++ a ++ 2#4 ++ 0#2)
  | .andC a b => .half (0#2 ++ b ++ a ++ 3#4 ++ 0#2)
  | .orC a b => .half (0#2 ++ b ++ a ++ 4#4 ++ 0#2)
  | .xorC a b => .half (0#2 ++ b ++ a ++ 5#4 ++ 0#2)
  | .mulC a b => .half (0#2 ++ b ++ a ++ 9#4 ++ 0#2)
  | .sltC a b => .half (0#2 ++ b ++ a ++ 10#4 ++ 0#2)
  | .seqC a b => .half (0#2 ++ b ++ a ++ 11#4 ++ 0#2)
  | .shliC a b x => .half (x ++ b ++ a ++ 6#4 ++ 0#2)
  | .shriC a b x => .half (x ++ b ++ a ++ 7#4 ++ 0#2)
  | .addiC a b x => .half (x ++ b ++ a ++ 8#4 ++ 0#2)
  | .movCToNamed b a => .half (0#2 ++ b ++ a ++ 12#4 ++ 0#2)
  | .movCFromNamed b => .half (0#2 ++ b ++ 0#4 ++ 13#4 ++ 0#2)
  | .liC a b x => .half (x ++ b ++ a ++ 14#4 ++ 0#2)
  | .movCAge a => .half (0#2 ++ 0#4 ++ a ++ 15#4 ++ 0#2)
  | .nop => .half (0#10 ++ 0#4 ++ 1#2)
  | .jC off => .half (off ++ 1#4 ++ 1#2)
  | .bezC off => .half (off ++ 2#4 ++ 1#2)
  | .bnzC off => .half (off ++ 3#4 ++ 1#2)
  | .lexit => .half (0#10 ++ 4#4 ++ 1#2)
  | .doneC => .half (0#10 ++ 5#4 ++ 1#2)
  | .chkptC idx => .half (idx ++ 6#4 ++ 1#2)
  | .realignC tag => .half (tag ++ 7#4 ++ 1#2)
  | .retC => .half (0#10 ++ 8#4 ++ 1#2)
  | .nclrC n => .half (0#6 ++ n ++ 9#4 ++ 1#2)
  | .fenceCoreC => .half (0#10 ++ 10#4 ++ 1#2)
  | .mailboxWrite _ _ _ => { len := 0, bits := 0 }
  | .mbxpClear _ _ => { len := 0, bits := 0 }
  | .heldMailboxWrite _ _ => { len := 0, bits := 0 }
  | .guardResolve _ _ => { len := 0, bits := 0 }
  | .homeAccess _ => { len := 0, bits := 0 }
  | .pageWalk _ _ _ => { len := 0, bits := 0 }
  | .nwrHeldWrite _ _ => { len := 0, bits := 0 }
  | .nwrWithdrawal _ => { len := 0, bits := 0 }
  | .rstReturn _ => { len := 0, bits := 0 }
  | .amsgRun _ => { len := 0, bits := 0 }
  | .amsgTimeout _ => { len := 0, bits := 0 }
  | .holdClear _ => { len := 0, bits := 0 }
  | .holdTimeout _ => { len := 0, bits := 0 }
  | .dispatch _ => { len := 0, bits := 0 }
  | .recordWalkHop _ => { len := 0, bits := 0 }
  | .gangStart _ => { len := 0, bits := 0 }
  | .launchiCountRead _ => { len := 0, bits := 0 }
  | .recordRelease _ => { len := 0, bits := 0 }
  | .groupCountStep _ => { len := 0, bits := 0 }
  | .chargeExhausted _ => { len := 0, bits := 0 }
  | .budgetExhausted _ => { len := 0, bits := 0 }
  | .graceExhausted _ => { len := 0, bits := 0 }
  | .parkedWithdrawal _ => { len := 0, bits := 0 }
  | .realignTimeout _ => { len := 0, bits := 0 }
  | .svcAnswer _ _ => { len := 0, bits := 0 }
  | .preemptRequest _ => { len := 0, bits := 0 }
  | .preemptTimeout _ => { len := 0, bits := 0 }
  | .spillSave _ => { len := 0, bits := 0 }
  | .granuleFill _ => { len := 0, bits := 0 }
  | .zldComplete _ _ => { len := 0, bits := 0 }
  | .tileDrainDone _ _ => { len := 0, bits := 0 }
  | .wloadExecute _ => { len := 0, bits := 0 }
  | .wswapExecute _ => { len := 0, bits := 0 }
  | .mmaExecute _ => { len := 0, bits := 0 }
  | .mmamExecute _ => { len := 0, bits := 0 }
  | .yzeroExecute _ => { len := 0, bits := 0 }
  | .ydrainExecute _ => { len := 0, bits := 0 }
  | .ymovExecute _ => { len := 0, bits := 0 }
  | .tileStateDrain _ => { len := 0, bits := 0 }
  | .cardStart _ _ => { len := 0, bits := 0 }
  | .cardFinish _ _ => { len := 0, bits := 0 }
  | .collTimeout _ _ => { len := 0, bits := 0 }
  | .codebookBankWrite _ _ => { len := 0, bits := 0 }
  | .checkChargeExhausted _ => { len := 0, bits := 0 }
  | .enqueueWindowSpawn _ _ _ => { len := 0, bits := 0 }
  | .enqueueWindowSubmit _ _ _ => { len := 0, bits := 0 }
  | .enqueueWindowSpawnResult _ _ => { len := 0, bits := 0 }
  | .enqueueWindowSubmitResult _ _ => { len := 0, bits := 0 }
  | .partitionStart _ _ _ _ _ _ _ _ => { len := 0, bits := 0 }
  | .boot _ _ _ => { len := 0, bits := 0 }
  | .linkTrain _ _ => { len := 0, bits := 0 }
  | .tenantSwitch _ _ => { len := 0, bits := 0 }
  | .flitArbitration _ => { len := 0, bits := 0 }
  | .creditReturn _ _ _ => { len := 0, bits := 0 }
  | .hostModuleFailure _ => { len := 0, bits := 0 }
  | .fabricPortFailure _ => { len := 0, bits := 0 }
  | .serviceCoreRestart _ => { len := 0, bits := 0 }
  | .attestationRequest _ => { len := 0, bits := 0 }
  | .patrolScrub _ => { len := 0, bits := 0 }
  | .correctedError _ _ => { len := 0, bits := 0 }
  | .uncorrectableError _ => { len := 0, bits := 0 }
  | .partitionReset _ _ => { len := 0, bits := 0 }
  | .flitRetry _ => { len := 0, bits := 0 }

/-- The bytes of an instruction, lowest address first. -/
def encodeBytes (i : Instr) : List Byte := toBytes (encode i).len (encode i).bits

end Sys2Proof
end

