-- ==== Sys2Proof/Config.lean ====
section
/-!
DEFINITION. What an implementation fixes and what the manual leaves open, as constants without a body: no
proof can see their values, so a claim holds whatever they are (log entries 5 to 9).
-/

namespace Sys2Proof

/-- DESIGN CHOICE (log 5). Which of the events that could take place next does take place, or an issue: a free
choice, read at the counter `State.tick`. The manual orders the performing of accesses, engine work and
deliveries only by the edges of R240 to R252. -/
opaque Config.pick : Nat → Nat

/-- DESIGN CHOICE (log 6). What the far package answers to a REMOTE access (R115, R167): the bytes it returns. -/
opaque Config.remoteData : Nat → Nat

/-- DESIGN CHOICE (log 6). How a REMOTE access fares in the far package: 0 performed, 1 XLATE, 2 XPERM,
3 MCHECK by R420, any other number performed. -/
opaque Config.remoteFate : Nat → Nat

/-- DESIGN CHOICE (log 7). Which entry of a full cache (R156, R166, R248) gives way. -/
opaque Config.victim : Nat → Nat

/-- DESIGN CHOICE (log 25). TVAL of a trap for which R200 names an address where there is none: XPERM of QFUSE and
QSPLIT (R314), MCHECK for an error in a tile (R313). -/
opaque Config.freeTval : Nat → BitVec 64

/-- DESIGN CHOICE (log 8). The bits of an image digest or a signature (R425, R426). -/
opaque Config.digest : Nat → Nat

/-- DESIGN CHOICE (log 8). A signature of a kind (0 ECDSA, 1 LMS) under a key that root firmware holds (R422, R426), made at a
counter. -/
opaque Config.signature : Nat → Nat → Nat → Nat

/-- DESIGN CHOICE (log 70). How many cycles after a boot a die leaves reset (R23). -/
opaque Config.startDelay : Nat → Nat

end Sys2Proof
end

