-- ==== Sys2Proof/Machine/SMap.lean ====
section
/-!
DEFINITION. Sparse maps from numbers: the form in which the state holds register files, slots, cores, tiles
and memory. A map is a list of entries in rising order of key; an unlisted key holds a default that the
reader names. `put` always lists the entry; `set` removes an entry that would equal the default, so that
equal memories are equal lists.
-/

namespace Sys2Proof.Machine

/-- A sparse map from numbers. -/
abbrev SMap (α : Type) := List (Nat × α)

variable {α : Type}

/-- The entry of `k`, or `d` when `k` is not listed. -/
def SMap.get (d : α) : SMap α → Nat → α
  | [], _ => d
  | (j, v) :: t, k => if j = k then v else SMap.get d t k

/-- The map without `k`. -/
def SMap.erase : SMap α → Nat → SMap α
  | [], _ => []
  | (j, v) :: t, k => if j = k then SMap.erase t k else (j, v) :: SMap.erase t k

/-- Insertion in rising order of key. -/
def SMap.insert : SMap α → Nat → α → SMap α
  | [], k, v => [(k, v)]
  | (j, w) :: t, k, v => if k < j then (k, v) :: (j, w) :: t else (j, w) :: SMap.insert t k v

/-- The map with `k` holding `v`. -/
def SMap.put (m : SMap α) (k : Nat) (v : α) : SMap α := (m.erase k).insert k v

/-- The map with `k` holding `v`, unlisted when `v` is the default. -/
def SMap.set [DecidableEq α] (d : α) (m : SMap α) (k : Nat) (v : α) : SMap α :=
  if v = d then m.erase k else (m.erase k).insert k v

/-- The canonical form: keys strictly rising, no entry equal to the default. -/
def SMap.wf [DecidableEq α] (d : α) : SMap α → Bool
  | [] => true
  | [(_, v)] => !decide (v = d)
  | (j, v) :: (k, w) :: t => decide (j < k) && !decide (v = d) && SMap.wf d ((k, w) :: t)

end Sys2Proof.Machine
end

