-- ==== Sys2Proof/Machine/State.lean ====
section
/-!
DEFINITION. The state of one VX640 package, as plain data: every register, queue, memory and engine that the
manual names (INVENTORY.md lists each with its rule), and the few fields of the model itself, which `State`
marks. Cores, slots, quadrants and the like are sparse maps: one that no step has touched is not listed and
holds its start value. `State.reset` is the package as it leaves reset.
-/

namespace Sys2Proof.Machine

/-! ## Registers of a slot -/

/-- Trap causes (R200). -/
inductive Cause where
  | illop | illpfx | priv | loopDeep | capTag | capBnd | capPerm | capSpace | align | xlate | xperm | budget
  | mvneg | mvrho | futDbl | futReg | futEmpty | ringOvr | barOvr | zshape | wfmt | engErr | layerBad | surrNest
  | amsgTime | brk | trapi | mcheck
  deriving DecidableEq, Repr

/-- A capability with its hidden tag (R111). -/
structure Cap where
  tag : Bool
  bits : BitVec 128
  deriving DecidableEq, Repr

/-- The null capability (R111). -/
def Cap.null : Cap := { tag := false, bits := 0#128 }

/-- An operand of a pending guard: captured, or the named register that is still clear (R136). -/
inductive GuardOp where
  | have (v : U64)
  | need (n : Nat)
  deriving DecidableEq, Repr

/-- A guard (R135). A pending one keeps its evaluation: negated or not, condition and operands. -/
inductive Guard where
  | clear
  | pending (neg : Bool) (cc : BitVec 3) (a b : GuardOp)
  | resolved (v : Bool)
  deriving DecidableEq, Repr

/-- An open hardware loop: body start S, end instruction E, the address after it Eend, iterations left (R129). -/
structure LoopLevel where
  start : Nat
  last : Nat
  past : Nat
  count : U64
  deriving DecidableEq, Repr

/-- A held SVC request (R209): its place in the order of requests, what it carries, its destination and an answer that came
while the slot was saved. -/
structure SvcReq where
  no : Nat
  gslot : Nat
  partid : U64
  taskRec : BitVec 52
  a : U64
  b : U64
  d : Dst
  answer : Option U64
  deriving DecidableEq, Repr

/-- What an instruction that has issued and not yet completed waits for. -/
inductive Wait where
  | none
  /-- an NWR without its acknowledgement (R95) -/
  | nwr
  /-- a mailbox write of MTS or MTSI held at its mailbox (R134) -/
  | mailbox
  /-- a request parked at a ring header or barrier (R230, R237) -/
  | parked
  /-- firmware's answer to SVC (R209) -/
  | svc
  /-- a REALIGN hold: tag, address, length of the word and the cycle in which it ends at the latest (R140) -/
  | realign (tag va len until' : Nat)
  /-- an MMA or MMAM in the array (R308) -/
  | array
  /-- the elements of a vector or moment load that are still to be performed (R242, R279) -/
  | elems
  /-- the latent writes of a tile that has passed (R251, R369) -/
  | commit
  /-- the steps of COMPOSE, LSPLIT or LMERGE that are still to be performed (R381, R392) -/
  | layer
  deriving DecidableEq, Repr

/-- What a helper's slice is: an ordinary task, or a phase of a surrogate tile (R367). -/
inductive Phase where
  | task
  | surrogate (tile : Nat)
  | check (tile : Nat) (posted : Bool)
  | exact (launch : Nat)
  deriving DecidableEq, Repr

/-- The completion record a step names: partition, tenant and offset in the group area (R173). -/
structure GroupRef where
  part : Nat
  tenant : Nat
  offset : Nat
  deriving DecidableEq, Repr

/-- A count of an RST or AMSG on its way back to its slot (R160, R161). -/
structure Return where
  /-- the number under which its response travels (R407) -/
  id : Nat
  slot : Nat
  tid : Nat
  core : Nat
  ref : Option GroupRef
  failed : Bool
  /-- of a message: the home that it was sent to (R250) -/
  home : Nat := 0
  deriving DecidableEq, Repr

/-- An object in memory that an instruction reads or changes in place, after its checks: key in memory, whether its tags count,
the address to log, its GLOBAL address. -/
structure RecordAt where
  key : Nat := 0
  keep : Bool := false
  va : Option Nat := none
  addr : Nat := 0
  deriving DecidableEq, Repr

/-- What a step of an instruction has read: the object, its bytes, and the tags of its granules. -/
structure Seen where
  loc : RecordAt := {}
  bytes : List Byte
  tags : List Bool := []
  deriving DecidableEq, Repr

/-- A vector or moment load that waits for its elements (R242, R279): the instruction, the number that its accesses share,
whether VTBL has its header and waits for entries (R284), what each element has returned, and the trap that the first to fail at
its home raises. -/
structure ElemJob where
  instr : Instr
  no : Nat := 0
  entries : Bool := false
  got : SMap Nat := []
  bad : Option (Cause × U64) := none
  deriving DecidableEq, Repr

/-- A layer object (R376). -/
structure Layer where
  live : Bool := false
  fcol : Cap := Cap.null
  fdep : Cap := Cap.null
  bcol : Cap := Cap.null
  bdep : Cap := Cap.null
  lights : U64 := 0#64
  render : U64 := 0#64
  w : BitVec 16 := 0#16
  h : BitVec 16 := 0#16
  ox : BitVec 16 := 0#16
  oy : BitVec 16 := 0#16
  vx : BitVec 16 := 0#16
  vy : BitVec 16 := 0#16
  age : BitVec 16 := 0#16
  kpar : BitVec 16 := 0#16
  q : BitVec 16 := 0#16
  e : BitVec 24 := 0#24
  price : BitVec 24 := 0#24
  slot : BitVec 6 := 0#6
  view : BitVec 6 := 0#6
  flip : Bool := false
  busy : Bool := false
  req : Bool := false
  deriving DecidableEq, Repr

/-- A part of an image on one page: virtual address, bytes, memory key, and the address that R409 logs. -/
structure ImgPage where
  v : Nat
  n : Nat
  key : Nat
  va : Option Nat
  deriving DecidableEq, Repr

/-- An image: the address of its first byte and its pages. -/
structure Image where
  at' : Nat
  pages : List ImgPage
  deriving DecidableEq, Repr

/-- The front images of a layer as COMPOSE has checked them (R388): its number, its size and capabilities then, and where
their pages lie. -/
structure Front where
  no : Nat
  w : Nat
  h : Nat
  fcol : Cap
  fdep : Cap
  col : Image
  dep : Image
  deriving DecidableEq, Repr

/-- A captured layer (R389): its front images, its slot, and the view position of its pixel (0, 0) after the warp. -/
structure Shot where
  front : Front
  slot : Nat
  x : Int
  y : Int
  deriving DecidableEq, Repr

/-- A fragment: depth, layer, slot, colour (R390). -/
structure Frag where
  depth : Nat
  no : Nat
  slot : Nat
  colour : Nat
  deriving DecidableEq, Repr

/-- A COMPOSE between its issue and its end (R388 to R392): its destination; what it captured at its issue and at the view's
home; the layers whose estimator step is still to come, and one whose request is still to be appended; the layers captured; the
pixel that it has come to, the layers still to be sampled there, a depth read whose colour is still to be read, the fragments
found; the order bits by tile; the line of the order matrix that it has come to, 8 to a tile, what the tile held, the pairs that
differ; and the layers that are still to flip, once they are known. -/
structure ComposeJob where
  d : Dst
  view : Nat
  camStep : Nat
  flipPen : Nat
  vw : Nat
  vh : Nat
  bg : Nat
  dline : U64
  newSlots : U64
  lights : SMap (BitVec 24)
  occupied : List (Nat × Nat)
  fronts : List Front
  out : Image
  ord : Image
  layers : List Nat
  append : Option Nat := none
  shots : List Shot := []
  pixel : Nat := 0
  look : List Shot := []
  depth : Option Nat := none
  frags : List Frag := []
  bits : SMap Nat := []
  line : Nat := 0
  held : Nat := 0
  diff : Nat := 0
  flips : Option (List Nat) := none
  deriving DecidableEq, Repr

/-- An LSPLIT or LMERGE between its issue and its end (R393, R394): its layers A and B with their front images and origins as it
captured them; whether LMERGE has checked that A's images may be written; the pixel that it has come to, how many of that pixel's
accesses are performed, and what they read; behind the last pixel, how many of the last steps are performed, the layer whose fields
one of them read, and whether B's request moves to A. -/
structure PairJob where
  merge : Bool
  a : Front
  b : Front
  ax : Int
  ay : Int
  bx : Int
  by' : Int
  writable : Bool
  pixel : Nat := 0
  part : Nat := 0
  got : List Nat := []
  held : Layer := {}
  moves : Bool := false
  deriving DecidableEq, Repr

/-- The instruction whose steps a slot in `Wait.layer` waits for. -/
inductive LayerJob where
  | compose (j : ComposeJob)
  | pair (j : PairJob)
  deriving DecidableEq, Repr

/-- One barrel slot (R12) with its registers. The default value is a slot that nothing has started. -/
structure Slot where
  /-- the slot has a program counter: it runs a program, a task or a message -/
  live : Bool := false
  /-- slot 0 after HALT or an unhandled trap (R211, R205) -/
  halted : Bool := false
  /-- code capability; its cursor is the program counter (R124) -/
  pcc : Cap := Cap.null
  /-- result queue, t0 first (R86) -/
  rq : List U64 := List.replicate 16 0#64
  /-- n0 to n15 and their presence bits (R87) -/
  n : SMap U64 := []
  pres : BitVec 16 := 0#16
  x : SMap U64 := []
  k : SMap Cap := []
  /-- v0 to v31, lane 0 in the low bits; vm0 to vm7; m0 to m15 (R269, R344) -/
  v : SMap (BitVec 8192) := []
  vm : SMap (BitVec 256) := []
  m : SMap (BitVec 16384) := []
  /-- lane groups granted and VLEN.MINGRP (R263, R265) -/
  groups : Nat := 0
  minGrp : Nat := 0
  guards : SMap Guard := []
  /-- open loop levels, level 0 first; LDEPTH.HIDDEN (R132) -/
  loops : List LoopLevel := []
  hidden : Nat := 0
  rmode : BitVec 3 := 0#3
  fflags : BitVec 6 := 0#6
  covmode : BitVec 2 := 0#2
  rngLo : U64 := 0#64
  rngHi : U64 := 0#64
  /-- STATUS.USER, STATUS.TRAP, and the slot borrowed (R108) -/
  user : Bool := true
  inTrap : Bool := false
  borrow : Option Nat := none
  /-- this idle slot is borrowed by another (R97) -/
  borrowed : Bool := false
  /-- tenant within the partition (R109) -/
  tenant : Nat := 0
  /-- in slot 11, the partition whose message runs there (R161) -/
  msgPart : Option Nat := none
  /-- trap registers (R203) -/
  tcause : BitVec 8 := 0#8
  tpc : BitVec 52 := 0#52
  tval : U64 := 0#64
  elost : Bool := false
  grace : Bool := false
  thidden : BitVec 2 := 0#2
  ilen : BitVec 4 := 0#4
  tbase : BitVec 39 := 0#39
  ten : Bool := false
  /-- task registers (R196); `limited` says that ISSUES is a limit -/
  dline : U64 := BitVec.allOnes 64
  issues : BitVec 32 := 0#32
  limited : Bool := false
  /-- an admitted slice: its unspent charge, and blocked cycles counted towards the next unit (R192) -/
  admitted : Bool := false
  charge : Nat := 0
  chargeFrac : Nat := 0
  taskRec : BitVec 52 := 0#52
  group : U64 := 0#64
  /-- engine error list, oldest first (R212) -/
  errs : List U64 := []
  svc : Option SvcReq := none
  tol : U32 := 0#32
  tolMode : BitVec 2 := 0#2
  sfails : BitVec 32 := 0#32
  view : BitVec 6 := 0#6
  camStep : BitVec 24 := 0#24
  flipPen : BitVec 24 := 0#24
  /-- RST and AMSG of this task whose counts have not returned (R161) -/
  rsts : Nat := 0
  /-- accesses that FENCE.rel makes later releasing operations wait for (R245) -/
  relHold : List Nat := []
  wait : Wait := Wait.none
  /-- the latest attempt to issue found the slot blocked -/
  blocked : Bool := false
  /-- it is blocked in an instruction before which no pre-emption stops it (R381) -/
  firm : Bool := false
  lastIssue : Option Nat := none
  /-- cycle of a pending pre-emption request (R217) -/
  preempt : Option Nat := none
  /-- stopped for a save by this checkpoint entry, or in full (R215, R217) -/
  stopped : Option (Option Nat) := none
  phase : Phase := Phase.task
  /-- MODEL'S OWN (log 4): a number of the running task, so that what belongs to it follows it -/
  tid : Nat := 0
  /-- the message running in slot 11: the count it returns at its end (R161), and its issues -/
  msg : Option Return := none
  msgIssues : Nat := 0
  /-- a vector or moment load whose elements are still to be performed (R242, R279) -/
  elems : Option ElemJob := none
  /-- a COMPOSE, LSPLIT or LMERGE whose steps are still to be performed (R381) -/
  job : Option LayerJob := none
  /-- what the steps so far of an instruction that makes several have read (R240) -/
  seen : List (Nat × Seen) := []
  /-- a blocking access to another package that has been sent: the home, and the number of the message (R147, R418) -/
  far : Option (Nat × Nat) := none
  /-- an MCHECK that the slot raises at its next issue (R299, R313): its TVAL -/
  mcheck : Option U64 := none
  deriving DecidableEq, Repr

/-! ## Records, queue entries and saved slots -/

/-- A task record as a queue holds it (R169), with its address and the tenant it runs under. -/
structure Rec where
  code : Cap := Cap.null
  frame : Cap := Cap.null
  join : U32 := 0#32
  radius : Nat := 0
  kind : Nat := 0
  cls : Nat := 0
  deadline : U64 := 0#64
  budget : U32 := 0#32
  hen : Bool := false
  hx : Nat := 0
  hy : Nat := 0
  group : U64 := 0#64
  /-- a reserved bit of the record in memory was 1 -/
  reservedSet : Bool := false
  addr : Nat := 0
  tenant : Nat := 0
  part : Nat := 0
  deriving DecidableEq, Repr

/-- A 64-byte granule of a listed range, as a save took it (R213, R220): its key in memory, bytes and tags, and whether
its line was poisoned (R428). -/
structure Granule where
  key : Nat
  bytes : List Byte
  tags : List Nat
  poison : Bool := false
  deriving DecidableEq, Repr

/-- A saved slot (R214): its registers, its borrowed set, its listed ranges, its private window. -/
structure Saved where
  slot : Slot
  borrowedSet : Option Slot := none
  full : Bool := true
  /-- the core it is pinned to; a continuation of YIELD is pinned to none (R218, R185) -/
  core : Option Nat := none
  /-- listed ranges; a granule of the private window stands under its key in slot 0's window -/
  ranges : List Granule := []
  /-- what moves with the private window: offset and byte, offsets of tagged granules and of poisoned lines -/
  window : List (Nat × Byte) := []
  windowTags : List Nat := []
  windowPoison : List Nat := []
  deriving DecidableEq, Repr

/-- An entry of a ready queue (R176): a record with its item range, a continuation, a launch of surrogate
tiles or a gang. -/
structure Entry where
  job : Rec := {}
  next : Nat := 0
  count : Nat := 1
  gcount : Nat := 1
  /-- a LAUNCHI count word still unread (R186): space, address and issuing slot; and a value that the word has held since the
  issue, where one has been taken (R187) -/
  unread : Option (Nat × Nat × Nat) := none
  seen : Option Nat := none
  cont : Option Saved := none
  launch : Option Nat := none
  /-- this record is the exact record of a tile of this launch (R369) -/
  exactOf : Option Nat := none
  gang : List Rec := []
  pipes : List Cap := []
  /-- its place in the order of arrival (R176, R178) -/
  seq : Nat := 0
  deriving DecidableEq, Repr

/-- An admitted slice waiting on its reserved slot (R191, R193). The two slices of a surrogate tile name its launch
and index; its exact slice is ready once the tile has failed (R366). -/
structure Slice where
  slot : Nat
  job : Rec
  charge : Nat
  launch : Option Nat := none
  index : Nat := 0
  exact : Bool := false
  ready : Bool := true
  deriving DecidableEq, Repr

/-- A surrogate launch as SLAUNCH copied it (R361, R364). -/
structure Launch where
  id : Nat
  scode : Cap
  ccode : Cap
  ecode : Cap
  frame : Cap
  tiles : Nat
  shape : U32
  tol : U32
  tolMode : BitVec 2
  limit : Nat
  cls : Nat
  deadline : U64
  bs : U32
  bc : U32
  be : U32
  group : U64
  /-- GLOBAL address of the descriptor, and its key in memory -/
  addr : Nat
  key : Nat
  tenant : Nat
  part : Nat
  cluster : Nat
  launcher : Nat
  ltid : Nat
  admitted : Bool
  /-- tiles decided, and tiles ended by either path (R365, R369) -/
  decided : Nat := 0
  ended : Nat := 0
  deriving DecidableEq, Repr

/-! ## Accesses and requests on their way -/

/-- What an access in flight does at its home. -/
inductive AccessKind where
  /-- a store, an element of a vector store or a piece of a ZST -/
  | store
  /-- an RST to another package (R160), or a store there that was latent until its tile's commit (R368) -/
  | remote
  /-- an AMSG to another package (R161) -/
  | amsg
  /-- a piece of a ZLD: `n` bytes from `key` to byte `off` of tile `z` of `quad` (R299) -/
  | zpiece (quad z off key n : Nat)
  /-- a write to mailbox `i` of `core` (R162), or to MBXP for `i` = 8 -/
  | mailbox (core i : Nat) (v : U64)
  /-- a store into an enqueue window, at `off` of the tenant's block (R190) -/
  | window (cluster tenant off : Nat) (v : U64)
  /-- a later state of a journal entry, by its sequence number (R413) -/
  | journal (seq state : Nat)
  /-- an element of a vector or moment load, or a load of VTBL: `n` bytes from `key`, the `i`-th of its instruction (R242, R279,
  R284) -/
  | elem (i key n : Nat)
  deriving DecidableEq, Repr

/-- An access that its slot has issued and its home has not yet performed (R147). -/
structure Access where
  id : Nat
  slot : Nat
  tid : Nat
  /-- accesses of one instruction share this number -/
  instr : Nat
  kind : AccessKind
  /-- an RST, or an AMSG to another package: its count returns once it is performed (R160, R161) -/
  rst : Bool := false
  home : Nat
  writes : List (Nat × Byte) := []
  /-- granule that becomes tagged (STC) -/
  tagKey : Option Nat := none
  /-- accesses that must be performed before this one (R245) -/
  holds : List Nat := []
  /-- translated by a dropped translation (R222) -/
  old : Bool := false
  /-- the surrogate tile whose code issued it (R368) -/
  tile : Option Nat := none
  tenant : Nat := 0
  part : Nat := 0
  group : U64 := 0#64
  /-- the core from which it comes, where no slot sends it -/
  core : Nat := 0
  /-- virtual address, for the dirty-page log (R409); none outside GLOBAL space -/
  va : Option Nat := none
  deriving DecidableEq, Repr

/-- What the arrival of a response brings about (R407): an NWR completes; what a slot asked another package for is answered, its
request having crossed first. -/
inductive AckKind where
  | data
  | nwr (slot tid : Nat)
  | request (slot home cls : Nat)
  deriving DecidableEq, Repr

/-- A response on its way, or a request to another package: its number, and the number of the instruction or card that waits for
it (R407, R418). -/
structure Ack where
  id : Nat
  owner : Nat
  kind : AckKind
  deriving DecidableEq, Repr

/-- A surrogate tile between its start and its decision (R367, R369). -/
structure Tile where
  id : Nat
  launch : Nat
  index : Nat
  latent : List Access := []
  used : Nat := 0
  deriving DecidableEq, Repr

/-- An NWR on its way or held at its target (R95): its number, and, once it has arrived, the task that ran there (R96). -/
structure NwrReq where
  id : Nat
  src : Nat
  dst : Nat
  tid : Option Nat
  n : Nat
  v : U64
  deriving DecidableEq, Repr

/-- A mailbox write at its mailbox (R134): the slot whose MTS it is, or the number of the store that it is, if any. -/
structure MbxWrite where
  v : U64
  slot : Option Nat := none
  store : Option Nat := none
  deriving DecidableEq, Repr

/-- A request parked at the object with memory key `key` (R230, R237). -/
inductive ParkOp where
  | rclaim (n : Nat) (d : Dst) (scope : Nat)
  | rcommit (i n : Nat)
  | rawait (n : Nat) (d : Dst) (scope : Nat)
  | rretire (i n : Nat)
  | bwait (phase : Nat) (scope : Nat)
  deriving DecidableEq, Repr

structure Parked where
  slot : Nat
  key : Nat
  /-- GLOBAL address of the object, for TVAL -/
  addr : Nat
  op : ParkOp
  deriving DecidableEq, Repr

/-- A change of a completion record on its way to its home (R174). `failed`, `trapped` and `late` set flags. -/
structure GroupStep where
  ref : GroupRef
  delta : Int
  failed : Bool := false
  trapped : Bool := false
  late : Bool := false
  submitted : Bool := false
  seq : Option U64 := none
  /-- core whose operation this is, for R444 -/
  core : Nat
  deriving DecidableEq, Repr

/-- A JOIN step on its way to a record's home (R183, R198). -/
structure Release where
  addr : Nat
  tenant : Nat
  part : Nat
  core : Nat
  /-- the home of the completion record whose completion sent it (R180) -/
  home : Option Nat := none
  deriving DecidableEq, Repr

/-- A walking record with the core it stands at (R181). -/
structure Walk where
  job : Rec
  core : Nat
  deriving DecidableEq, Repr

/-- A message on its way to slot 11 of `core`, or waiting for it (R161). -/
structure Amsg where
  id : Nat
  core : Nat
  home : Nat
  code : Cap
  target : Cap
  v0 : U64
  v1 : U64
  slot : Nat
  tid : Nat
  tenant : Nat
  part : Nat
  group : Option GroupRef
  holds : List Nat
  deriving DecidableEq, Repr

/-! ## Cores and clusters -/

/-- An entry of a queue register (R99, R405). -/
structure QEntry where
  v : U64
  tenant : Nat
  holds : List Nat
  deriving DecidableEq, Repr

/-- A line of the read cache (R156). -/
structure RcLine where
  part : Nat
  tenant : Nat
  line : Nat
  bytes : List Byte
  deriving DecidableEq, Repr

/-- A block of the instruction buffer (R248): 32 bytes at virtual block number `block`. -/
structure IBlock where
  part : Nat
  tenant : Nat
  block : Nat
  bytes : List Byte
  deriving DecidableEq, Repr

/-- A leaf of the translation cache (R166): level, virtual page at that level, and the entry. -/
structure TlbEntry where
  part : Nat
  tenant : Nat
  lvl : Nat
  page : Nat
  pte : U64
  deriving DecidableEq, Repr

/-- How a page walk ends (R165): at a leaf of a level, with a fault, or at a poisoned entry. -/
inductive WalkEnd where
  | leaf (pte : U64) (lvl : Nat)
  | fault
  | poisoned (pa : Nat)
  deriving DecidableEq, Repr

/-- A walk in flight (R166): the die, for whom and which 64 KiB page, the core that misses, and what it has read. -/
structure PageWalk where
  die : Nat
  part : Nat
  tenant : Nat
  page : Nat
  core : Nat
  found : WalkEnd
  deriving DecidableEq, Repr

/-- One core (R12, R13) less its slots. -/
structure Core where
  rot : Nat := 0
  /-- cycle in which the core last issued, so that it issues once a cycle -/
  issuedAt : Option Nat := none
  queues : SMap (List QEntry) := []
  mbx : SMap U64 := []
  mbxp : BitVec 8 := 0#8
  mbxHeld : SMap (List MbxWrite) := []
  rcache : List RcLine := []
  ibuf : List IBlock := []
  tlb : List TlbEntry := []
  localQ : List Entry := []
  /-- messages that have arrived for slot 11, in the order of arrival (R12) -/
  amsgs : List Amsg := []
  /-- the tenant to which the helpers pass as they become idle (R404) -/
  switchTo : Option Nat := none
  deriving DecidableEq, Repr

/-- One cluster: its ready queue with the sediment ring that continues it and the place of the ring's first entry in its
region, by partition, its hold register, the windows of the gangs that wait, by arrival number, and the result words of its
enqueue window (R176, R179, R180, R188, R190). -/
structure Cluster where
  ready : List Entry := []
  ring : List Entry := []
  ringHead : SMap Nat := []
  hold : Option (Entry × Nat) := none
  windows : SMap (List Nat) := []
  winSpawn : SMap U64 := []
  winSubmit : SMap U64 := []
  deriving DecidableEq, Repr

/-! ## Quadrants -/

/-- The state of a tile (R295). -/
inductive TileState where
  | empty
  | filling
  | ready
  | draining
  deriving DecidableEq, Repr

/-- A tile register: its state and its nonzero bytes (R289), and the cycle of its latest change by an issue (R297). -/
structure TileReg where
  state : TileState := TileState.empty
  bytes : SMap Byte := []
  since : Option Nat := none
  deriving DecidableEq, Repr

/-- An accumulator (R289): planes by 64 x row + column, VALID and MOMENT in the executed and the issued view
(R302), the elements that owe INVALID to their drain (R79), the code of the record that cleared VALID (R307). -/
structure Acc where
  mean : SMap U32 := []
  var : SMap U32 := []
  invMean : SMap Bool := []
  invVar : SMap Bool := []
  valid : Bool := true
  moment : Bool := false
  validI : Bool := true
  momentI : Bool := false
  code : Nat := 0
  deriving DecidableEq, Repr

/-- The record of a weight plane (R289, R303). -/
structure PlaneRec where
  fmt : Nat
  k : Nat
  n : Nat
  sparse : Bool
  mant : Nat
  deriving DecidableEq, Repr

/-- A weight plane: its record, and its tile's bytes and metadata bytes. -/
structure Plane where
  info : Option PlaneRec := none
  cols : Nat := 0
  bytes : SMap Byte := []
  metaBytes : SMap Byte := []
  deriving DecidableEq, Repr

/-- What issued a command or a ZLD: slot, task, address of the instruction, tenant, partition and group (R212). -/
structure Issuer where
  slot : Nat
  tid : Nat
  pc : Nat
  tenant : Nat
  part : Nat
  group : U64
  deriving DecidableEq, Repr

/-- A command of the array (R301), with what it captured at its issue: an MMA the descriptors of its K parts (R315). -/
inductive Cmd where
  | wload (z : Nat) (desc : U64)
  | wswap
  | mma (y z : Nat) (descs : List U64) (moment : Bool)
  | yzero (y : Nat) (moment : Bool)
  | ydrain (z y : Nat) (desc : U64) (scale : U32) (moment zero : Bool) (rnd : Nat) (sat : Bool) (sto : List Nat)
  | ymov (y ya : Nat)
  deriving DecidableEq, Repr

/-- A queued command with its issuer and the quadrant it acts on. -/
structure CmdEntry where
  cmd : Cmd
  who : Issuer
  quad : Nat
  deriving DecidableEq, Repr

/-- The stream of a ZLD `.x` (R334): bytes of the checked range, bytes that the tile takes, whether the stride was 0,
and the die at which the source stands. -/
structure Stream where
  range : Nat
  need : Nat
  packed : Bool
  level : Nat
  die : Nat
  deriving DecidableEq, Repr

/-- A ZLD whose pieces are in flight (R299): the pieces' instruction number, a stream for `.x`, and the address of
the first poisoned line that a piece met. -/
structure ZldJob where
  z : Nat
  who : Issuer
  instr : Nat
  expand : Option Stream
  bad : Option Nat := none
  deriving DecidableEq, Repr

/-- One quadrant (R289). Commands of a fused set stand in the queue of its lowest quadrant. -/
structure Quad where
  zdesc : SMap U64 := []
  tiles : SMap TileReg := []
  accs : SMap Acc := []
  active : Plane := {}
  shadow : Plane := {}
  activeI : Option PlaneRec := none
  shadowI : Option PlaneRec := none
  queue : List CmdEntry := []
  zlds : List ZldJob := []
  /-- quadrants fused with this one, itself included, as bits; 0 means single (R290) -/
  fused : BitVec 4 := 0#4
  /-- by tenant: the slot that last left the pair left by a full save, or by an entry with TILES = 1 (R316) -/
  keep : SMap Bool := []
  /-- in a saved copy, the poisoned lines of its tiles and accumulators, by number within the quadrant (R428) -/
  lines : List Nat := []
  /-- the next accumulation of the array finds a residue mismatch (R313, R427) -/
  residue : Bool := false
  /-- a tenant's last slot has left the pair for another tenant, and the drain has still to come (R316): both -/
  leaving : Option (Nat × Nat) := none
  /-- a tenant's last helper has left the pair for another tenant while slot 0 or 11 still runs for it (R316, R404): both -/
  parting : Option (Nat × Nat) := none
  deriving DecidableEq, Repr

/-! ## Engines -/

/-- A region that a card declares (R318), as the scoreboards enter it (R168, R249): in GLOBAL space by virtual
address, elsewhere by memory key. -/
structure Region where
  global : Bool
  lo : Nat
  hi : Nat
  write : Bool
  deriving DecidableEq, Repr

/-- The place of an access after its checks: memory (key, whether its page keeps tags, and its virtual address
when the write is one that R409 logs), a device offset, or another package. -/
inductive Place where
  | mem (key : Nat) (c : Bool) (va : Option Nat)
  | device (off : Nat)
  | remote (cursor : Nat)
  deriving DecidableEq, Repr

/-- One access of a card, within one line (R322): `n` bytes at `v` through its capability `cap`, where they stand in the card's
buffer, and its place once the card has come to its page and sent it. -/
structure CardOp where
  id : Nat
  cap : Nat
  v : Nat
  n : Nat
  write : Bool
  pos : Nat
  place : Option Place := none
  /-- the level of the leaf that translated it, and whether TINV has dropped that (R222, R223) -/
  lvl : Nat := 0
  old : Bool := false
  deriving DecidableEq, Repr

/-- A job card in an engine (R317, R320, R326). -/
structure Card where
  id : Nat
  engine : Nat
  regions : List Region
  bytes : List Byte
  cap0 : Cap
  cap1 : Cap
  /-- GLOBAL address of the card -/
  addr : Nat
  /-- the slot and task that issued it; none for a kind-1 record -/
  issuer : Option (Nat × Nat)
  core : Nat
  tenant : Nat
  part : Nat
  cls : Nat
  group : U64
  /-- guard and sense; `bound` is the value the card is bound to (R138) -/
  guard : Option (Nat × Bool) := none
  bound : Option Bool := none
  /-- accesses of its slot that come before its own (R249) -/
  holds : List Nat := []
  /-- its accesses still to be performed, in its kind's order; the bytes that it has read or formed; how many stages of its
  kind's work it has begun, and whether that is all of it (R322) -/
  ops : List CardOp := []
  buf : SMap Byte := []
  stage : Nat := 0
  last : Bool := false
  /-- it waits, as a collective for its participants or a reload for its bank (R336, R332) -/
  waits : Bool := false
  /-- cycle in which it started, or began to wait, and how it ends: STATE, ERR, RESULT, bytes written (R322) -/
  started : Nat := 0
  outcome : Nat := 0
  err : Nat := 0
  result : Nat := 0
  delivered : Nat := 0
  /-- how many of the steps of its end are performed, and the code of a completion step that failed (R323) -/
  ending : Nat := 0
  badEnd : Nat := 0
  deriving DecidableEq, Repr

/-- One engine: queues by class, cards that have started, round-robin position, and class 0's rate (R321). -/
structure Engine where
  queues : SMap (List Card) := []
  running : List Card := []
  rrClass : Nat := 1
  rrUsed : Nat := 0
  acc : Nat := 0
  tokens : Nat := 0
  deriving DecidableEq, Repr

/-- A codebook bank (R332): generation (0 = empty) and 15 bytes. -/
structure Bank where
  gen : Nat := 0
  bytes : List Byte := []
  /-- loaded after the slot's other bank -/
  newest : Bool := false
  deriving DecidableEq, Repr

/-! ## Layers and views -/

/-- A view (R377). -/
structure View where
  ocol : Cap := Cap.null
  ord : Cap := Cap.null
  vw : BitVec 16 := 0#16
  vh : BitVec 16 := 0#16
  bg : U32 := 0#32
  dline : U64 := 0#64
  frame : U64 := 0#64
  newSlots : U64 := 0#64
  /-- slot to layer number; unlisted is empty (0xFFFF) -/
  slots : SMap Nat := []
  qhead : U64 := 0#64
  qtail : U64 := 0#64
  lights : SMap (BitVec 24) := []
  /-- queue cell to deadline and layer number -/
  queue : SMap (U64 × Nat) := []
  deriving DecidableEq, Repr

/-! ## Partitions, links and firmware -/

/-- A partition (R399 to R403): its control block and tenant blocks by system-register number. -/
structure Part where
  /-- root firmware has started it (R88) -/
  running : Bool := false
  regs : SMap U64 := []
  deriving DecidableEq, Repr

/-- A flit (R406, R407): the number of the message that it carries, its class, whether it is a response, the slot it comes
from, the home it goes to, and the links that it has still to cross. -/
structure Flit where
  id : Nat
  cls : Nat
  resp : Bool
  src : Nat
  dst : Nat
  path : List Nat
  deriving DecidableEq, Repr

/-- One output's arbiter and the free-slot counters of its sender (R406, R408). -/
structure Link where
  acc : Nat := 0
  tokens : Nat := 0
  rrClass : Nat := 1
  rrUsed : Nat := 0
  /-- free slots by 2 x class + (1 for responses) -/
  credits : SMap Nat := []
  /-- flits waiting, by the same index -/
  waiting : SMap (List Flit) := []
  /-- sent and not acknowledged, oldest first (R416, R418) -/
  unacked : List Flit := []
  /-- cycle of the arbiter's latest choice, so that it chooses once a cycle (R408) -/
  chosenAt : Option Nat := none
  deriving DecidableEq, Repr

/-- An error record (R424). -/
structure ErrorRec where
  addr : U64
  time : U64
  gslot : Nat
  code : Nat
  source : Nat
  tenant : Nat
  part : Nat
  corr : Bool
  deriving DecidableEq, Repr

/-- An attestation report (R426): both measurements, the fused version, the control blocks in force, by partition, the
requester's nonce and two signatures. -/
structure Report where
  measRoot : BitVec 384
  measService : BitVec 384
  version : U64
  blocks : SMap (SMap U64)
  nonce : BitVec 256
  sigEcdsa : Nat
  sigLms : Nat
  deriving DecidableEq, Repr

/-- Firmware and boot (R422 to R426). -/
structure Firmware where
  booted : Bool := false
  bootFailed : Bool := false
  fusedVersion : U64 := 0#64
  measRoot : BitVec 384 := 0#384
  measService : BitVec 384 := 0#384
  /-- the identity and attestation keys, the ECDSA one and the LMS one, that root firmware holds (R422, R426) -/
  ecdsaKey : Nat := 0
  lmsKey : Nat := 0
  /-- the latest attestation report -/
  report : Option Report := none
  /-- service cores restarted, by die -/
  restarts : SMap Nat := []
  /-- the ranges of memory keys that root firmware maps for service firmware (R422) -/
  serviceMap : List (Nat × Nat) := []
  /-- error records of service firmware's faults, to root firmware (R423) -/
  rootErrors : List ErrorRec := []
  deriving DecidableEq, Repr

/-! ## Outside inputs -/

/-- A word of a tenant block that service firmware writes in the memory mapped for it (R403, R411): DLCTL.EN, DLTAIL,
or OVF and SPANOUT cleared. -/
inductive ServiceWord where
  | logOn (en : Bool)
  | tail (v : U64)
  | clearFlags
  deriving DecidableEq, Repr

/-- What comes from outside the compute dies: an event of the opcode table, or what the host, root firmware and service
firmware do beside them. -/
inductive Input where
  | event (i : Instr)
  /-- the host stores bytes to device memory, at a memory key (R417) -/
  | hostStore (key : Nat) (bytes : List Byte)
  /-- service firmware writes a word of the block of tenant `t` of partition `p` (R403, R411) -/
  | serviceWord (p t : Nat) (w : ServiceWord)
  /-- service firmware stores bytes to memory mapped for it, such as bits of a summary bitmap (R411, R423) -/
  | serviceStore (key : Nat) (bytes : List Byte)
  /-- root firmware stores bytes to a journal or to a root table (R422) -/
  | rootStore (key : Nat) (bytes : List Byte)
  /-- service firmware takes the oldest error record of a die's ring (R423, R424) -/
  | takeRecord (die : Nat)
  /-- root firmware gives the package its index (R418) -/
  | packageIndex (n : Nat)
  /-- root firmware fills a die's route to a package: the ports that may carry its traffic (R419, R422) -/
  | route (die pkg : Nat) (ports : BitVec 24)
  /-- root firmware maps a range of memory for service firmware (R422) -/
  | mapService (lo hi : Nat)
  /-- an array's accumulation is hit by an error that its residue shows (R427) -/
  | residue (quad : Nat)
  deriving DecidableEq, Repr

/-! ## The package -/

/-- The state of the package. -/
structure State where
  /-- memory by key (`memKey` of Ops): nonzero bytes, keys rising; an unlisted byte reads 0 (log 1) -/
  mem : SMap Byte := []
  /-- tagged 16-byte granules, by key / 16 (R111) -/
  tags : SMap Bool := []
  /-- poisoned 64-byte lines, by key / 64 (R428) -/
  poison : SMap Bool := []
  slots : SMap Slot := []
  cores : SMap Core := []
  clusters : SMap Cluster := []
  quads : SMap Quad := []
  engines : SMap Engine := []
  parts : SMap Part := []
  layers : SMap Layer := []
  views : SMap View := []
  links : SMap Link := []
  /-- accesses in flight, in issue order -/
  flight : List Access := []
  nwrs : List NwrReq := []
  parked : List Parked := []
  returns : List Return := []
  /-- responses, and requests to other packages, on their way (R407, R418) -/
  acks : List Ack := []
  releases : List Release := []
  groupSteps : List GroupStep := []
  walks : List Walk := []
  /-- page walks in flight (R166) -/
  pageWalks : List PageWalk := []
  /-- messages on their way to slot 11 of a core (R161, R407) -/
  amsgs : List Amsg := []
  slices : List Slice := []
  launches : List Launch := []
  tiles : List Tile := []
  /-- saved slots that wait for nothing but their slot (slot 0 after a save, R218), by global slot number -/
  savedZero : SMap Saved := []
  /-- tile state saved for a tenant (R316), by (partition x 16 + tenant) x 320 + quadrant -/
  savedTiles : SMap Quad := []
  /-- granules of listed ranges that a lazy restore has left absent (R220) -/
  absent : List Granule := []
  /-- codebook banks, by ((partition x 4 + die) x 16 + slot) x 2 + bank (R332) -/
  codebooks : SMap Bank := []
  /-- the logging filter, by (die x 4 + partition) x 16 + tenant, pages listed (R409) -/
  dirtyFilter : SMap (List Nat) := []
  /-- error ring of each die, oldest first, each record as its 32 bytes; how many records it may hold, and records lost
  (R424) -/
  errRing : SMap (List (List Byte)) := []
  errCap : Nat := 256
  errLost : SMap Nat := []
  fw : Firmware := {}
  /-- failed UCIe modules, failed fabric ports (R416, R419) -/
  hostDown : BitVec 4 := 0#4
  portDown : BitVec 24 := 0#24
  /-- ports that may carry traffic, by 512 x die + package (R419) -/
  routes : SMap (BitVec 24) := []
  /-- this package's index in its domain (R418) -/
  pkgIndex : Nat := 0
  /-- the value of `now` at which each die left reset, after a boot (R23, R425); link offsets by 4 x near die + far die (R24) -/
  dieStart : SMap Nat := []
  linkOff : SMap U64 := []
  /-- cycles since reset -/
  now : Nat := 0
  /-- MODEL'S OWN (log 5): outside inputs still to come -/
  inbox : List Input := []
  /-- MODEL'S OWN (log 5): the counter at which the next free choice is read -/
  tick : Nat := 0
  /-- MODEL'S OWN (log 5): within a cycle, the core whose turn it is and how many slots it has passed over -/
  turn : Nat := 0
  scan : Nat := 0
  /-- MODEL'S OWN (log 5): the slot whose instruction runs -/
  cur : Nat := 0
  /-- MODEL'S OWN (log 4): the next number for a task, access, card, launch or tile -/
  fresh : Nat := 1
  deriving DecidableEq, Repr

/-! ## Faults and refusals -/

/-- Why the model stops. No program reaches a fault: the causes of R200 are traps, which are next states. -/
inductive Fault where
  /-- Raised by an event that cannot take place in this state (no such message, card, command or request), which
  only an outside input can ask for. Safe: the hardware has no such event. -/
  | notEnabled (event : String)
  deriving DecidableEq, Repr

/-- Why the model gives no meaning. -/
inductive Refusal where
  /-- An instruction not modelled: raised by no arm of `exec`. Safe. -/
  | notModelled (mnemonic : String)
  deriving DecidableEq, Repr

/-! ## Reset -/

/-- The package as its dies leave reset: counters 0, no partition started, every queue empty, nothing listed in
memory. Values the manual does not give are named in log entries 1, 3, 4 and 5. -/
def State.reset : State := {}

end Sys2Proof.Machine
end

