-- ==== Sys2Proof/Machine/Base.lean ====
section
/-!
DEFINITION. The shape of a meaning, and the places of the machine: what an instruction can do before it
completes (`Exec`), where cores, clusters and dies stand (R16 to R18), and reading and writing one slot, core,
cluster, quadrant or partition of the state.
-/

namespace Sys2Proof.Machine

/-! ## Meanings -/

/-- What stops an instruction: a trap, precise to its slot (R7); a slot that is blocked, so that the instruction
has not issued (R87), or blocked where no pre-emption stops it (R381); a blocking access to another package, whose request is
still to be sent to its home (R147, R418); a step of an instruction that makes several, with the state that it leaves (R240); or the
failure of a surrogate tile (R368). -/
inductive Stop where
  | trap (c : Cause) (tval : U64)
  | wait
  | firm
  | request (home : Nat)
  | again (s : State)
  | fail (reason : Nat)
  deriving DecidableEq, Repr

/-- How an instruction that has issued goes on: at the next address, at `t`, held in its slot, or with a slot
that it has left in its final state itself. -/
inductive Flow where
  | next
  | jump (t : Nat)
  | hold
  | ended
  deriving DecidableEq, Repr

/-- The body of a meaning: it reads and changes the state, or stops. -/
abbrev Exec := StateT State (Except Stop)

/-- Raise a trap. -/
def trap {α : Type} (c : Cause) (tval : U64) : Exec α := throw (Stop.trap c tval)

/-- Block the slot: the instruction does not issue. -/
def block {α : Type} : Exec α := throw Stop.wait

/-- As `m`, but no pre-emption stops the slot while `m` blocks it (R381). -/
def firmly {α : Type} (m : Exec α) : Exec α := fun s =>
  match m s with
  | .error .wait => .error .firm
  | r => r

/-- Raise `c` unless `ok`. -/
def require (ok : Bool) (c : Cause) (tval : U64) : Exec Unit := if ok then pure () else trap c tval

/-- Block unless `ok`. -/
def await (ok : Bool) : Exec Unit := if ok then pure () else block

/-- Do `m` for each element, in order, and give the list of results. -/
def eachM {α β : Type} (f : α → Exec β) : List α → Exec (List β)
  | [] => pure []
  | a :: as => do
    let b ← f a
    let bs ← eachM f as
    pure (b :: bs)

/-- An integer as an address or value of 64 bits: `wrap(x, 64)` (R7). -/
def u64 (x : Int) : U64 := BitVec.ofInt 64 x

/-! ## Where things stand -/

/-- Slots of a core (R12). -/
def slotsPerCore : Nat := 12

/-- Core of a slot, by global slot number (R18). -/
def coreOf (g : Nat) : Nat := g / 12

/-- Number of a slot in its core (R12). -/
def slotNo (g : Nat) : Nat := g % 12

/-- Cluster of a core (R16). -/
def clusterOf (c : Nat) : Nat := c / 8

/-- Die of a core (R16). -/
def dieOf (c : Nat) : Nat := c / 160

/-- Die of a cluster (R16). -/
def clusterDie (cl : Nat) : Nat := cl / 20

/-- Quadrant of a core, as 4 x cluster + q (R19). -/
def quadOf (c : Nat) : Nat := c / 2

/-- Mesh column of a core (R16). -/
def coreX (c : Nat) : Nat := 16 * (dieOf c % 2) + 4 * (clusterOf c % 20 % 4) + c % 8 % 4

/-- Mesh row of a core (R16). -/
def coreY (c : Nat) : Nat := 10 * (dieOf c / 2) + 2 * (clusterOf c % 20 / 4) + c % 8 / 4

/-- The core at column `x` and row `y` of the mesh (R16). -/
def coreAt (x y : Nat) : Nat :=
  let d := x / 16 + 2 * (y / 10)
  let lx := x % 16
  let ly := y % 10
  8 * (20 * d + 4 * (ly / 2) + lx / 4) + lx % 4 + 4 * (ly % 2)

/-- Dies that a message from die `a` to die `b` passes, `b` last: X direction first (R10). -/
def dieRoute (a b : Nat) : List Nat :=
  if a = b then []
  else if a % 2 = b % 2 ∨ a / 2 = b / 2 then [b]
  else [2 * (a / 2) + b % 2, b]

/-! ## One slot, core, cluster or quadrant -/

/-- Slot `g`. -/
def State.slot (s : State) (g : Nat) : Slot := s.slots.get {} g

/-- Slot `g` replaced. -/
def State.setSlot (s : State) (g : Nat) (x : Slot) : State := { s with slots := s.slots.set {} g x }

/-- Slot `g` changed. -/
def State.modSlot (s : State) (g : Nat) (f : Slot → Slot) : State := s.setSlot g (f (s.slot g))

/-- Core `c`, less its slots. -/
def State.core (s : State) (c : Nat) : Core := s.cores.get {} c

/-- Core `c` changed. -/
def State.modCore (s : State) (c : Nat) (f : Core → Core) : State :=
  { s with cores := s.cores.set {} c (f (s.core c)) }

/-- Cluster `cl`. -/
def State.cluster (s : State) (cl : Nat) : Cluster := s.clusters.get {} cl

/-- Cluster `cl` changed. -/
def State.modCluster (s : State) (cl : Nat) (f : Cluster → Cluster) : State :=
  { s with clusters := s.clusters.set {} cl (f (s.cluster cl)) }

/-- Whether a core lies in the window of a gang that waits (R188). -/
def Cluster.holdsCore (c : Cluster) (k : Nat) : Bool := c.windows.any fun w => w.2.contains k

/-- Quadrant `q`, as 4 x cluster + number. -/
def State.quad (s : State) (q : Nat) : Quad := s.quads.get {} q

/-- Quadrant `q` changed. -/
def State.modQuad (s : State) (q : Nat) (f : Quad → Quad) : State :=
  { s with quads := s.quads.set {} q (f (s.quad q)) }

/-- Engine `e`. -/
def State.engine (s : State) (e : Nat) : Engine := s.engines.get {} e

/-- Engine `e` changed. -/
def State.modEngine (s : State) (e : Nat) (f : Engine → Engine) : State :=
  { s with engines := s.engines.set {} e (f (s.engine e)) }

/-- The next fresh number, and the state that has given it. -/
def State.freshNo (s : State) : Nat × State := (s.fresh, { s with fresh := s.fresh + 1 })

/-- The current slot. -/
def getSlot : Exec Slot := do
  let s ← get
  pure (s.slot s.cur)

/-- Change the current slot. -/
def modSlot (f : Slot → Slot) : Exec Unit := modify fun s => s.modSlot s.cur f

/-- A fresh number. -/
def newNo : Exec Nat := do
  let s ← get
  set s.freshNo.2
  pure s.freshNo.1

/-! ## Partitions and tenants (R399 to R403) -/

/-- Partition `p`. -/
def State.part (s : State) (p : Nat) : Part := s.parts.get {} p

/-- Reset value of system register `n` of the control block of partition `p` (R401, R403; registers whose reset
is "set" read 0, log 3). -/
def partReset (p n : Nat) : U64 :=
  if n = 0x800 then BitVec.ofNat 64 (12 * 2 ^ 8 + p % 4)
  else if n = 0x80E then 0x0000_0000_0001_0101#64
  else if n = 0x814 then 1#64
  else if n ≥ 0x840 ∧ n < 0x8C0 ∧ n % 8 = 2 then BitVec.ofNat 64 (30 * 2 ^ 16 + 6 * 2 ^ 8)
  else 0#64

/-- Register `n` of the control block or of a tenant block of partition `p`. -/
def State.partReg (s : State) (p n : Nat) : U64 := (s.part p).regs.get (partReset p n) n

/-- Register `n` of partition `p` replaced. -/
def State.setPartReg (s : State) (p n : Nat) (v : U64) : State :=
  let q := s.part p
  { s with parts := s.parts.set {} p { q with regs := q.regs.put n v } }

/-- Bits `lo` to `lo + len - 1` of register `n` of partition `p`. -/
def State.partFld (s : State) (p n lo len : Nat) : Nat := (s.partReg p n).toNat / 2 ^ lo % 2 ^ len

/-- Number of word `w` of the block of tenant `t` (R403). -/
def tenantReg (t w : Nat) : Nat := 0x840 + 8 * t + w

/-- The quadrants of cluster `cl` that partition `p` owns, as four bits (R401, QMAP). -/
def State.ownedQuads (s : State) (p cl : Nat) : Nat :=
  if cl < 80 ∧ (s.part p).running then s.partFld p (0x801 + cl / 16) (4 * (cl % 16)) 4 else 0

/-- Whether partition `p` owns quadrant `q` (as 4 x cluster + number). -/
def State.ownsQuad (s : State) (p q : Nat) : Bool := s.ownedQuads p (q / 4) / 2 ^ (q % 4) % 2 = 1

/-- Whether partition `p` owns core `c` (R400). -/
def State.ownsCore (s : State) (p c : Nat) : Bool := decide (c < 640) && s.ownsQuad p (quadOf c)

/-- The partition that owns core `c`, if one does. -/
def State.partOf? (s : State) (c : Nat) : Option Nat := (List.range 4).find? fun p => s.ownsCore p c

/-- The partition that owns core `c`; 0 for a core of none, on which nothing is live. -/
def State.partOf (s : State) (c : Nat) : Nat := (s.partOf? c).getD 0

/-- The partition of slot `g`: a message runs under its sender's (R161). -/
def State.partOfSlot (s : State) (g : Nat) : Nat := ((s.slot g).msgPart).getD (s.partOf (coreOf g))

/-- Class of tenant `t` of partition `p` (R403). -/
def State.tenantClass (s : State) (p t : Nat) : Nat := s.partFld p (tenantReg t 0) 0 2

/-- Class of the tenant of slot `g` (R109). -/
def State.classOf (s : State) (g : Nat) : Nat := s.tenantClass (s.partOfSlot g) (s.slot g).tenant

/-- Slots 1 to 9 reserved for class `c` in partition `p`, as bits (R401, RESV). -/
def State.reservedSlots (s : State) (p c : Nat) : Nat := s.partFld p 0x80F (16 * c) 16 % 2 ^ 10 / 2 * 2

/-- The class for which slot `g` is reserved, if any (R191). -/
def State.reservedFor (s : State) (g : Nat) : Option Nat :=
  (List.range 4).find? fun c => s.reservedSlots (s.partOfSlot g) c / 2 ^ slotNo g % 2 = 1

/-- Bytes of the private window of a slot of partition `p` (R116, R401). -/
def State.windowSize (s : State) (p : Nat) : Nat := 2 ^ s.partFld p 0x800 8 8

/-- Bytes of the cache slice in each share that partition `p` owns (R144, R401). -/
def State.sliceSize (s : State) (p : Nat) : Nat :=
  match s.partFld p 0x80C 0 2 with
  | 0 => 0
  | 1 => 2 ^ 20
  | 2 => 2 ^ 21
  | _ => 2 ^ 22

/-- Bytes of the latent buffer of partition `p` in each cluster (R365, R401). -/
def State.latentSize (s : State) (p : Nat) : Nat := s.partFld p 0x80C 8 7 * 2 ^ 16

/-- The highest-numbered quadrant of cluster `cl` that partition `p` owns (R365). -/
def State.topShare (s : State) (p cl : Nat) : Nat := Nat.log2 (s.ownedQuads p cl)

/-! ## Time (R23) -/

/-- The cycle counter of die `d`: 0 until the die leaves reset (R23). -/
def State.cycle (s : State) (d : Nat) : U64 := BitVec.ofNat 64 (s.now - s.dieStart.get 0 d)

/-- Whether die `d` has left reset: its counter counts, and its slots may issue (R23, R425). -/
def State.dieUp (s : State) (d : Nat) : Bool := s.fw.booted && decide (s.dieStart.get 0 d ≤ s.now)

/-- A deadline that background records carry (R169). -/
def background : U64 := BitVec.allOnes 64

/-- A deadline rebased by a link's offset (R24). -/
def rebase (o d : U64) : U64 :=
  if d = background then d else if d + o = background then 0xFFFF_FFFF_FFFF_FFFE#64 else d + o

/-- The number of a link direction: from die `a` to die `b`, both adjacent (R10, R24). -/
def linkDir (a b : Nat) : Nat := 4 * a + b

/-- A deadline carried from die `a` to die `b` along its route (R24, R181). -/
def State.rebaseDeadline (s : State) (a b : Nat) (d : U64) : U64 :=
  ((dieRoute a b).foldl (fun (x : Nat × U64) n => (n, rebase (s.linkOff.get 0#64 (linkDir x.1 n)) x.2)) (a, d)).2

end Sys2Proof.Machine
end

