-- ==== Sys2Proof/Machine/Float.lean ====
section
/-!
DEFINITION. Number formats and exact arithmetic (R53 to R85). A finite value is a sign, a magnitude and a power
of two; every operation forms its exact result in that shape and rounds once. A result that is not dyadic
(quotients, roots, logarithms) is formed with many more bits than any format holds and a mark that it goes on.
-/

namespace Sys2Proof.Machine

/-! ## Formats and flags -/

/-- A floating-point format (R54). -/
structure Fmt where
  width : Nat
  eb : Nat
  fb : Nat
  bias : Nat
  /-- E4M3: no infinity, only the all-ones code is NaN (R55) -/
  e4m3 : Bool
  deriving DecidableEq, Repr

def fp64 : Fmt := ⟨64, 11, 52, 1023, false⟩
def fp32 : Fmt := ⟨32, 8, 23, 127, false⟩
def fp16 : Fmt := ⟨16, 5, 10, 15, false⟩
def bf16 : Fmt := ⟨16, 8, 7, 127, false⟩
def e4m3 : Fmt := ⟨8, 4, 3, 7, true⟩
def e5m2 : Fmt := ⟨8, 5, 2, 15, false⟩

/-- Flags by their places in FFLAGS (R68). -/
abbrev Flags := BitVec 6

def flInvalid : Flags := 1#6
def flDivide : Flags := 2#6
def flOverflow : Flags := 4#6
def flUnderflow : Flags := 8#6
def flInexact : Flags := 16#6
def flSaturated : Flags := 32#6

/-- A result: its bits and the flags it sets. -/
structure FRes where
  bits : Nat
  fl : Flags
  deriving DecidableEq, Repr

/-- A rounding mode by its code of R64 (0 to 5), the STO field when the code is 5, and saturation. -/
structure Rnd where
  mode : Nat := 0
  draw : Nat := 0
  sat : Bool := false
  deriving DecidableEq, Repr

/-- To nearest, ties to even, without saturation. -/
def rneMode : Rnd := {}

/-- A value of a format: NaN (signalling or quiet), infinity, or finite: sign, magnitude `m * 2 ^ e`. -/
inductive Fp where
  | nan (signalling : Bool)
  | inf (neg : Bool)
  | fin (neg : Bool) (m : Nat) (e : Int)
  deriving DecidableEq, Repr

/-- The exponent of the smallest subnormal. -/
def Fmt.emin (f : Fmt) : Int := 1 - (f.bias : Int) - f.fb

/-- The value that `bits` encode (R54, R55). -/
def Fp.ofBits (f : Fmt) (bits : Nat) : Fp :=
  let frac := bits % 2 ^ f.fb
  let ex := bits / 2 ^ f.fb % 2 ^ f.eb
  let neg := bits / 2 ^ (f.width - 1) % 2 = 1
  if f.e4m3 then
    if ex = 15 ∧ frac = 7 then .nan false
    else if ex = 0 then .fin neg frac f.emin
    else .fin neg (2 ^ f.fb + frac) (f.emin + ex - 1)
  else if ex = 2 ^ f.eb - 1 then
    if frac = 0 then .inf neg else .nan (frac / 2 ^ (f.fb - 1) = 0)
  else if ex = 0 then .fin neg frac f.emin
  else .fin neg (2 ^ f.fb + frac) (f.emin + ex - 1)

/-- Bits of a sign and a magnitude code. -/
def Fmt.signed (f : Fmt) (neg : Bool) (mag : Nat) : Nat := (if neg then 2 ^ (f.width - 1) else 0) + mag

/-- The canonical NaN (R57). -/
def Fmt.nan (f : Fmt) : Nat :=
  if f.e4m3 then 0x7F else (2 ^ f.eb - 1) * 2 ^ f.fb + 2 ^ (f.fb - 1)

/-- The magnitude code of infinity (R55). -/
def Fmt.infMag (f : Fmt) : Nat := (2 ^ f.eb - 1) * 2 ^ f.fb

/-- The magnitude code of the largest finite value (R54). -/
def Fmt.maxMag (f : Fmt) : Nat := if f.e4m3 then 0x7E else f.infMag - 1

/-- Zero with a sign. -/
def Fmt.zero (f : Fmt) (neg : Bool) : FRes := ⟨f.signed neg 0, 0#6⟩

/-- The canonical NaN with flags. -/
def Fmt.nanRes (f : Fmt) (fl : Flags) : FRes := ⟨f.nan, fl⟩

/-- An infinity that an operation delivers: the largest finite value under saturation (R66), the signed NaN in
E4M3 (R72). `fl` are the flags without saturation. -/
def Fmt.infRes (f : Fmt) (r : Rnd) (neg : Bool) (fl : Flags) : FRes :=
  if r.sat then ⟨f.signed neg f.maxMag, flSaturated ||| flInexact⟩
  else if f.e4m3 then ⟨f.signed neg 0x7F, fl⟩
  else ⟨f.signed neg f.infMag, fl⟩

/-! ## Rounding -/

/-- Whether the magnitude `q + rem / 2 ^ sh` of a value, with more beyond when `st`, rounds up to `q + 1` (R64). -/
def roundUp? (r : Rnd) (neg : Bool) (q rem sh : Nat) (st : Bool) : Bool :=
  let half := 2 ^ sh / 2
  match r.mode with
  | 0 => decide (rem > half) || (decide (rem = half) && decide (0 < sh) && (st || q % 2 = 1))
  | 1 => false
  | 2 => !neg && (decide (rem ≠ 0) || st)
  | 3 => neg && (decide (rem ≠ 0) || st)
  | 4 => decide (0 < sh) && decide (rem ≥ half)
  | _ => decide (rem * 65536 / 2 ^ sh + r.draw ≥ 65536)

/-- `m * 2 ^ e`, with more beyond when `st`, rounded to a multiple of `2 ^ qe`: the multiple, and inexactness. -/
def roundAt (r : Rnd) (neg : Bool) (m : Nat) (e qe : Int) (st : Bool) : Nat × Bool :=
  let sh := (qe - e).toNat
  if qe ≤ e then (m * 2 ^ (e - qe).toNat, st)
  else
    let q := m / 2 ^ sh
    let rem := m % 2 ^ sh
    (if roundUp? r neg q rem sh st then q + 1 else q, decide (rem ≠ 0) || st)

/-- An exact nonzero magnitude `m * 2 ^ e` (more beyond when `st`) rounded into `f` (R64, R66, R69, R72). -/
def Fmt.round (f : Fmt) (r : Rnd) (neg : Bool) (m : Nat) (e : Int) (st : Bool) : FRes :=
  let top : Int := e + bitLen m - 1
  let qe := max (top - f.fb) f.emin
  let (q, inexact) := roundAt r neg m e qe st
  -- tiny: rounded with an unbounded exponent, still below the smallest normal (R69, DEDUCED, log 10)
  let (qu, _) := roundAt r neg m e (top - f.fb) st
  let tiny := decide (top < f.emin + f.fb) && !(decide (top = f.emin + f.fb - 1) && decide (qu ≥ 2 ^ (f.fb + 1)))
  let (q', qe') := if q = 2 ^ (f.fb + 1) then (2 ^ f.fb, qe + 1) else (q, qe)
  let code : Nat := if q' < 2 ^ f.fb then q' else ((qe' - f.emin).toNat + 1) * 2 ^ f.fb + (q' - 2 ^ f.fb)
  if code > f.maxMag then
    if r.sat then ⟨f.signed neg f.maxMag, flSaturated ||| flInexact⟩
    else
      let fl := flOverflow ||| flInexact
      if r.mode = 1 ∨ (r.mode = 2 ∧ neg) ∨ (r.mode = 3 ∧ !neg) then ⟨f.signed neg f.maxMag, fl⟩
      else f.infRes r neg fl
  else
    ⟨f.signed neg code,
      (if inexact then flInexact else 0#6) ||| (if inexact && tiny then flUnderflow else 0#6)⟩

/-- An exact value rounded into `f`; zero keeps its sign. -/
def Fmt.roundVal (f : Fmt) (r : Rnd) (neg : Bool) (m : Nat) (e : Int) : FRes :=
  if m = 0 then f.zero neg else f.round r neg m e false

/-! ## Arithmetic -/

/-- Whether a value is a signalling NaN. -/
def Fp.isSnan : Fp → Bool
  | .nan s => s
  | _ => false

/-- Whether a value is a NaN. -/
def Fp.isNan : Fp → Bool
  | .nan _ => true
  | _ => false

/-- INVALID when one of the operands is a signalling NaN (R69). -/
def snanFl (xs : List Fp) : Flags := if xs.any Fp.isSnan then flInvalid else 0#6

/-- A finite value as an integer multiple of `2 ^ e0`, for `e0` at most its exponent. -/
def finInt (neg : Bool) (m : Nat) (e e0 : Int) : Int :=
  let v : Int := ((m * 2 ^ (e - e0).toNat : Nat) : Int)
  if neg then -v else v

/-- The sum of two finite values, rounded (R58). -/
def addFin (f : Fmt) (r : Rnd) (n1 : Bool) (m1 : Nat) (e1 : Int) (n2 : Bool) (m2 : Nat) (e2 : Int) : FRes :=
  let e := min e1 e2
  let s := finInt n1 m1 e1 e + finInt n2 m2 e2 e
  if s = 0 then f.zero (if n1 = n2 then n1 else r.mode = 3)
  else f.round r (decide (s < 0)) s.natAbs e false

/-- a + b. -/
def fpAdd (f : Fmt) (r : Rnd) (a b : Fp) : FRes :=
  match a, b with
  | .fin n1 m1 e1, .fin n2 m2 e2 => addFin f r n1 m1 e1 n2 m2 e2
  | .inf n1, .inf n2 => if n1 = n2 then f.infRes r n1 0#6 else f.nanRes flInvalid
  | .inf n1, .fin .. => f.infRes r n1 0#6
  | .fin .., .inf n2 => f.infRes r n2 0#6
  | a, b => f.nanRes (snanFl [a, b])

/-- The value with its sign inverted. -/
def Fp.neg : Fp → Fp
  | .nan s => .nan s
  | .inf n => .inf (!n)
  | .fin n m e => .fin (!n) m e

/-- The value without its sign. -/
def Fp.abs : Fp → Fp
  | .nan s => .nan s
  | .inf _ => .inf false
  | .fin _ m e => .fin false m e

/-- a - b. -/
def fpSub (f : Fmt) (r : Rnd) (a b : Fp) : FRes := fpAdd f r a b.neg

/-- a x b. -/
def fpMul (f : Fmt) (r : Rnd) (a b : Fp) : FRes :=
  match a, b with
  | .fin n1 m1 e1, .fin n2 m2 e2 => f.roundVal r (n1 != n2) (m1 * m2) (e1 + e2)
  | .inf n1, .inf n2 => f.infRes r (n1 != n2) 0#6
  | .inf n1, .fin n2 m2 _ => if m2 = 0 then f.nanRes flInvalid else f.infRes r (n1 != n2) 0#6
  | .fin n1 m1 _, .inf n2 => if m1 = 0 then f.nanRes flInvalid else f.infRes r (n1 != n2) 0#6
  | a, b => f.nanRes (snanFl [a, b])

/-- a x b + c with one rounding (R274). -/
def fpFma (f : Fmt) (r : Rnd) (a b c : Fp) : FRes :=
  let sn := snanFl [a, b, c]
  let prodInvalid : Bool :=
    match a, b with
    | .inf _, .fin _ m _ => m = 0
    | .fin _ m _, .inf _ => m = 0
    | _, _ => false
  if a.isNan || b.isNan || c.isNan then f.nanRes (sn ||| if prodInvalid then flInvalid else 0#6)
  else if prodInvalid then f.nanRes flInvalid
  else
    match a, b, c with
    | .fin n1 m1 e1, .fin n2 m2 e2, .fin n3 m3 e3 => addFin f r (n1 != n2) (m1 * m2) (e1 + e2) n3 m3 e3
    | .fin .., .fin .., .inf n => f.infRes r n 0#6
    | a, b, c =>
      let n := match a, b with
        | .inf n1, .inf n2 => n1 != n2
        | .inf n1, .fin n2 _ _ => n1 != n2
        | .fin n1 _ _, .inf n2 => n1 != n2
        | _, _ => false
      match c with
      | .inf n3 => if n = n3 then f.infRes r n 0#6 else f.nanRes flInvalid
      | _ => f.infRes r n 0#6

/-- How many bits beyond any format a quotient, root or logarithm is formed with. -/
def guardBits : Nat := 160

/-- a / b. -/
def fpDiv (f : Fmt) (r : Rnd) (a b : Fp) : FRes :=
  match a, b with
  | .fin n1 m1 e1, .fin n2 m2 e2 =>
    let n := n1 != n2
    if m2 = 0 then
      if m1 = 0 then f.nanRes flInvalid else f.infRes r n flDivide |> fun x => ⟨x.bits, x.fl ||| flDivide⟩
    else if m1 = 0 then f.zero n
    else
      let num := m1 * 2 ^ guardBits
      f.round r n (num / m2) (e1 - e2 - guardBits) (decide (num % m2 ≠ 0))
  | .inf _, .inf _ => f.nanRes flInvalid
  | .inf n1, .fin n2 _ _ => f.infRes r (n1 != n2) 0#6
  | .fin n1 _ _, .inf n2 => f.zero (n1 != n2)
  | a, b => f.nanRes (snanFl [a, b])

/-- The integer square root below `2 ^ b`, bit by bit: the greatest `s` of the form `r` plus bits below `b` with
`s * s` at most `n`. -/
def isqrt (n : Nat) : Nat → Nat → Nat
  | 0, r => r
  | b + 1, r => if (r + 2 ^ b) * (r + 2 ^ b) ≤ n then isqrt n b (r + 2 ^ b) else isqrt n b r

/-- The integer square root. -/
def sqrtNat (n : Nat) : Nat := isqrt n (bitLen n / 2 + 1) 0

/-- The square root (R274). -/
def fpSqrt (f : Fmt) (r : Rnd) (a : Fp) : FRes :=
  match a with
  | .fin n m e =>
    if m = 0 then f.zero n
    else if n then f.nanRes flInvalid
    else
      let sh := 2 * guardBits + (e % 2).toNat
      let w := m * 2 ^ sh
      let s := sqrtNat w
      f.round r false s ((e - sh) / 2) (decide (s * s ≠ w))
  | .inf n => if n then f.nanRes flInvalid else f.infRes r false 0#6
  | .nan s => f.nanRes (if s then flInvalid else 0#6)

/-- 1 / a (R274). -/
def fpRcp (f : Fmt) (r : Rnd) (a : Fp) : FRes := fpDiv f r (.fin false 1 0) a

/-- 1 / sqrt a with one rounding (R274). -/
def fpRsq (f : Fmt) (r : Rnd) (a : Fp) : FRes :=
  match a with
  | .fin n m e =>
    if m = 0 then let x := f.infRes r n flDivide; ⟨x.bits, x.fl ||| flDivide⟩
    else if n then f.nanRes flInvalid
    else
      -- 1 / sqrt (m 2^e) = sqrt (2^(2k) / m) 2^(-k - e/2) with e made even
      let m' := if e % 2 = 0 then m else m * 2
      let e' := if e % 2 = 0 then e else e - 1
      let k := guardBits + bitLen m'
      let s := sqrtNat (2 ^ (2 * k) / m')
      f.round r false s (-(k : Int) - e' / 2) (decide (s * s * m' ≠ 2 ^ (2 * k)))
  | .inf n => if n then f.nanRes flInvalid else f.zero false
  | .nan s => f.nanRes (if s then flInvalid else 0#6)

/-- `n` more bits of the fraction of log2 of `x / 2 ^ p`, for `x` in `[2^p, 2^(p+1))`, after the bits in `acc`. -/
def log2Frac (p : Nat) : Nat → Nat → Nat → Nat
  | 0, _, acc => acc
  | n + 1, x, acc =>
    let y := x * x / 2 ^ p
    if y ≥ 2 ^ (p + 1) then log2Frac p n (y / 2) (2 * acc + 1) else log2Frac p n y (2 * acc)

/-- log2 a, the exact value rounded once (R274). The fraction is formed to 128 bits, which decides the rounding of
every 24-bit argument. -/
def fpLog2 (f : Fmt) (r : Rnd) (a : Fp) : FRes :=
  match a with
  | .fin n m e =>
    if m = 0 then let x := f.infRes r true flDivide; ⟨x.bits, x.fl ||| flDivide⟩
    else if n then f.nanRes flInvalid
    else
      let l := bitLen m - 1
      let ex : Int := e + l
      if m = 2 ^ l then f.roundVal r (decide (ex < 0)) ex.natAbs 0
      else
        let p := 320
        let fr := log2Frac p 128 (m * 2 ^ (p - l)) 0
        let v : Int := ex * 2 ^ 128 + fr
        if v ≥ 0 then f.round r false v.natAbs (-128) true
        else f.round r true (v.natAbs - 1) (-128) true
  | .inf n => if n then f.nanRes flInvalid else f.infRes r false 0#6
  | .nan s => f.nanRes (if s then flInvalid else 0#6)

/-- Whether a < b, for values that are not NaN, with -0 = +0. -/
def fpLt : Fp → Fp → Bool
  | .inf n1, .inf n2 => n1 && !n2
  | .inf n1, .fin .. => n1
  | .fin .., .inf n2 => !n2
  | .fin n1 m1 e1, .fin n2 m2 e2 =>
    let e := min e1 e2
    decide (finInt n1 m1 e1 e < finInt n2 m2 e2 e)
  | _, _ => false

/-- Whether a = b, for values that are not NaN, with -0 = +0. -/
def fpEq : Fp → Fp → Bool
  | .inf n1, .inf n2 => n1 == n2
  | .fin n1 m1 e1, .fin n2 m2 e2 =>
    let e := min e1 e2
    decide (finInt n1 m1 e1 e = finInt n2 m2 e2 e)
  | _, _ => false

/-- The sign of a value that is not NaN. -/
def Fp.sign : Fp → Bool
  | .fin n _ _ => n
  | .inf n => n
  | .nan _ => false

/-- Whether a is below b with -0 < +0 (R274, VFMIN). -/
def fpBelow (a b : Fp) : Bool := fpLt a b || (fpEq a b && a.sign && !b.sign)

/-- A value of a format as that format's bits: NaN is canonical, an infinity follows R66. -/
def Fp.toBits (f : Fmt) (r : Rnd) : Fp → FRes
  | .nan s => f.nanRes (if s then flInvalid else 0#6)
  | .inf n => f.infRes r n 0#6
  | .fin n m e => f.roundVal r n m e

/-- The lesser of two values (R274). -/
def fpMin (f : Fmt) (r : Rnd) (a b : Fp) : FRes :=
  if a.isNan || b.isNan then f.nanRes (snanFl [a, b]) else (if fpBelow b a then b else a).toBits f r

/-- The greater of two values (R274). -/
def fpMax (f : Fmt) (r : Rnd) (a b : Fp) : FRes :=
  if a.isNan || b.isNan then f.nanRes (snanFl [a, b]) else (if fpBelow a b then b else a).toBits f r

/-- The class of a value, one bit of ten (R274, VFCLASS). -/
def fpClass (f : Fmt) (bits : Nat) : Nat :=
  match Fp.ofBits f bits with
  | .inf true => 1
  | .inf false => 128
  | .nan s => if s then 256 else 512
  | .fin neg m _ =>
    if m = 0 then (if neg then 8 else 16)
    else if m < 2 ^ f.fb then (if neg then 4 else 32)
    else if neg then 2 else 64

/-! ## Conversions -/

/-- From one floating format to another (R71, R72). -/
def fpConvert (src dst : Fmt) (r : Rnd) (bits : Nat) : FRes :=
  match Fp.ofBits src bits with
  | .nan s => dst.nanRes (if s then flInvalid else 0#6)
  | .inf n => dst.infRes r n (if dst.e4m3 then flInvalid else 0#6)
  | .fin n m e => dst.roundVal r n m e

/-- A signed integer with a flag set when the clamp changed it. -/
def clampInt (width : Nat) (v : Int) : Int × Bool :=
  let lo : Int := -(2 ^ (width - 1) : Nat)
  let hi : Int := (2 ^ (width - 1) : Nat) - 1
  (satInt v lo hi, decide (satInt v lo hi ≠ v))

/-- From a floating format to a signed integer of `width` bits (R73). -/
def fpToInt (src : Fmt) (width : Nat) (r : Rnd) (bits : Nat) : FRes :=
  let clampFl := if r.sat then flSaturated else flInvalid
  match Fp.ofBits src bits with
  | .nan _ => ⟨0, flInvalid⟩
  | .inf n =>
    ⟨wrapNat (if n then -(2 ^ (width - 1) : Nat) else (2 ^ (width - 1) : Nat) - 1) width, clampFl⟩
  | .fin n m e =>
    let (q, inexact) := roundAt r n m e 0 false
    let v : Int := if n then -(q : Int) else q
    let (c, clamped) := clampInt width v
    ⟨wrapNat c width, if clamped then clampFl else if inexact then flInexact else 0#6⟩

/-- From a signed integer to a floating format (R75). -/
def intToFp (dst : Fmt) (r : Rnd) (v : Int) : FRes := dst.roundVal r (decide (v < 0)) v.natAbs 0

/-- From a signed integer of `ws` bits to one of `wd` (R74). -/
def intToInt (ws wd : Nat) (sat : Bool) (bits : Nat) : FRes :=
  let v := signed bits ws
  if wd < ws ∧ sat then
    let (c, clamped) := clampInt wd v
    ⟨wrapNat c wd, if clamped then flSaturated else 0#6⟩
  else ⟨wrapNat v wd, 0#6⟩

/-- From a floating format to UE8M0 (R76). -/
def fpToUe8m0 (src : Fmt) (bits : Nat) : FRes :=
  match Fp.ofBits src bits with
  | .fin false m e =>
    if m = 0 then ⟨0xFF, flInvalid⟩
    else
      let l := bitLen m - 1
      let ex : Int := e + l + 127
      let inexact : Flags := if m = 2 ^ l then 0#6 else flInexact
      if ex > 254 then ⟨254, flOverflow ||| inexact⟩
      else if ex < 0 then ⟨0, flUnderflow ||| inexact⟩
      else ⟨ex.toNat, inexact⟩
  | _ => ⟨0xFF, flInvalid⟩

/-- From UE8M0 to a floating format (R76, R59). -/
def ue8m0ToFp (dst : Fmt) (r : Rnd) (e : Nat) : FRes :=
  if e = 255 then dst.nanRes 0#6 else dst.round r false 1 ((e : Int) - 127) false

/-! ## BFP blocks -/

/-- floor (log2 |x|) of a nonzero finite value. -/
def Fp.log2Floor : Fp → Int
  | .fin _ m e => e + bitLen m - 1
  | _ => 0

/-- Whether a value is a nonzero finite number. -/
def Fp.isNonzero : Fp → Bool
  | .fin _ m _ => decide (m ≠ 0)
  | _ => false

/-- One mantissa of a block with exponent `e0` for mantissa 1 (R77): the mantissa and its flags. -/
def bfpMantissa (m : Nat) (e0 : Int) (r : Rnd) (x : Fp) : Int × Flags :=
  match x with
  | .fin n mag e =>
    let (q, inexact) := if mag = 0 then (0, false) else roundAt r n mag e e0 false
    let v : Int := if n then -(q : Int) else q
    let (c, clamped) := clampInt m v
    (c, (if clamped then flSaturated ||| flInexact else if inexact then flInexact else 0#6) |||
      (if mag ≠ 0 ∧ c = 0 then flUnderflow else 0#6))
  | _ => (0, 0#6)

/-- The largest of floor (log2 |x|) over the nonzero elements, if any. -/
def maxLog2 : List Fp → Option Int
  | [] => none
  | x :: xs =>
    match maxLog2 xs with
    | none => if x.isNonzero then some x.log2Floor else none
    | some a => some (if x.isNonzero then max a x.log2Floor else a)

/-- Quantisation of 32 values into a block of mantissa width `m` (R77): the exponent byte, the mantissas and
the flags. `draws` holds the STO field of each mantissa. -/
def bfpQuantise (m : Nat) (mode : Nat) (draws : List Nat) (xs : List Fp) : Nat × List Int × Flags :=
  if xs.any fun x => match x with | .fin .. => false | _ => true then
    (255, xs.map fun _ => 0,
      if xs.any fun x => match x with | .inf _ => true | .nan s => s | _ => false then flInvalid else 0#6)
  else
    let e : Int := match maxLog2 xs with
      | none => 1
      | some l => satInt (l + 127) 1 254
    let e0 := e - 127 - ((m : Int) - 2)
    let ms := (xs.zip (draws ++ List.replicate xs.length 0)).map fun (x, d) =>
      bfpMantissa m e0 { mode := mode, draw := d } x
    (e.toNat, ms.map Prod.fst, ms.foldl (fun a x => a ||| x.2) 0#6)

/-- The value of a mantissa of a block (R60). -/
def bfpValue (e m : Nat) (v : Int) : Fp :=
  if e = 255 then .nan false else .fin (decide (v < 0)) v.natAbs ((e : Int) - 127 - ((m : Int) - 2))

/-- Mantissas as one little-endian bit string (R61). -/
def bfpPack (m : Nat) : List Int → Nat
  | [] => 0
  | v :: vs => wrapNat v m + 2 ^ m * bfpPack m vs

/-- The bytes of a block (R61). -/
def bfpBytes (m e : Nat) (vs : List Int) : List Byte := BitVec.ofNat 8 e :: toBytes (4 * m) (bfpPack m vs)

/-- The exponent and the mantissas of a block's bytes (R61). -/
def bfpUnpack (m : Nat) (bs : List Byte) : Nat × List Int :=
  let body := ofBytes ((bs.drop 1).take (4 * m))
  (leAt bs 0 1, (List.range 32).map fun i => signed (body / 2 ^ (m * i) % 2 ^ m) m)

/-! ## FP32 sequences: EXP2, density and distribution (R83 to R85) -/

/-- An FP32 step that collects flags: the value's bits and the flags so far. -/
abbrev Seq32 := Nat × Flags

/-- r (x op y) of R347 and R83, on FP32 bits, collecting flags. -/
def s2 (op : Fmt → Rnd → Fp → Fp → FRes) (x y : Nat) (fl : Flags) : Seq32 :=
  let q := op fp32 rneMode (Fp.ofBits fp32 x) (Fp.ofBits fp32 y)
  (q.bits, fl ||| q.fl)

/-- The FP32 bits with the sign bit inverted, a NaN's too. -/
def neg32 (x : Nat) : Nat := if x ≥ 2 ^ 31 then x - 2 ^ 31 else x + 2 ^ 31

/-- c6 down to c0 of EXP2: the FP32 values nearest to the decimals of R83's table. -/
def exp2Coeffs : List Nat := [0x39218489, 0x3AAEC3FF, 0x3C1D955B, 0x3D635847, 0x3E75FDF0, 0x3F317218, 0x3F800000]

/-- The exact difference y - n of an FP32 value and an integer, as a dyadic. -/
def fracOf (neg : Bool) (m : Nat) (e : Int) (n : Int) : Fp :=
  let e0 := min e 0
  let v := finInt neg m e e0 - n * 2 ^ (-e0).toNat
  .fin (decide (v < 0)) v.natAbs e0

/-- The Horner steps of EXP2: `p := rne (rne (p * f) + c_k)` (R83). -/
def hornerStep (f : Nat) (cs : List Nat) (p : Nat) (fl : Flags) : Seq32 :=
  match cs with
  | [] => (p, fl)
  | c :: cs =>
    let (t, fl1) := s2 fpMul p f fl
    let (q, fl2) := s2 fpAdd t c fl1
    hornerStep f cs q fl2

/-- EXP2 with its last step rounded into `t` in mode `r` (R83; VFEXP2 of R274 passes its own type and mode). -/
def exp2Core (t : Fmt) (r : Rnd) (y : Fp) : FRes :=
  match y with
  | .nan s => t.nanRes (if s then flInvalid else 0#6)
  | .inf true => t.zero false
  | .inf false => t.infRes r false 0#6
  | .fin neg m e =>
    let (q, _) := roundAt rneMode neg m e 0 false
    let n : Int := if neg then -(q : Int) else q
    -- beyond this range the result over- or underflows whatever the fraction is
    let f := (fracOf neg m e n).toBits fp32 rneMode
    let (p, fl) := hornerStep f.bits exp2Coeffs.tail (exp2Coeffs.headD 0) 0#6
    match Fp.ofBits fp32 p with
    | .fin pn pm pe =>
      let n' := satInt n (-100000) 100000
      let x := t.roundVal r pn pm (pe + n')
      ⟨x.bits, fl ||| x.fl⟩
    | _ => t.nanRes fl

/-- EXP2 on FP32 (R83). -/
def exp2 (y : Nat) (fl : Flags) : Seq32 :=
  let q := exp2Core fp32 rneMode (Fp.ofBits fp32 y)
  (q.bits, fl ||| q.fl)

/-- Constants of R83's table, as FP32 bits. -/
def cLog2e : Nat := 0x3FB8AA3B
def cHlog2e : Nat := 0x3F38AA3B
def cInvSqrt2 : Nat := 0x3F3504F3
def cInvSqrt2Pi : Nat := 0x3ECC422A
def cP : Nat := 0x3EA7BA05
def c1 : Nat := 0x3F800000
def cHalf : Nat := 0x3F000000
/-- a5 down to a1 of R85. -/
def erfCoeffs : List Nat := [0x3F87DC22, 0xBFBA00E3, 0x3FB5F0E3, 0xBE91A98E, 0x3E827906]

/-- The standard normal density of `a` (R84). -/
def phiDensity (a : Nat) (fl : Flags) : Seq32 :=
  let (u, fl) := s2 fpMul a a fl
  let (w, fl) := s2 fpMul u cHlog2e fl
  let (e, fl) := exp2 (neg32 w) fl
  s2 fpMul cInvSqrt2Pi e fl

/-- The standard normal distribution function of `a` (R85). -/
def phiCdf (a : Nat) (fl : Flags) : Seq32 :=
  match Fp.ofBits fp32 a with
  | .nan s => (fp32.nan, fl ||| if s then flInvalid else 0#6)
  | v =>
    let abs := a % 2 ^ 31
    let (z, fl) := s2 fpMul abs cInvSqrt2 fl
    let (pz, fl) := s2 fpMul cP z fl
    let (dd, fl) := s2 fpAdd c1 pz fl
    let (t, fl) := s2 fpDiv c1 dd fl
    let (q, fl) := hornerStep t erfCoeffs.tail (erfCoeffs.headD 0) fl
    let (q, fl) := s2 fpMul q t fl
    let (zz, fl) := s2 fpMul z z fl
    let (ee, fl) := s2 fpMul zz cLog2e fl
    let (e, fl) := exp2 (neg32 ee) fl
    let (qe, fl) := s2 fpMul q e fl
    let (h, fl) := s2 fpMul cHalf qe fl
    let nonneg : Bool := match v with
      | .inf n => !n
      | .fin n m _ => !n || m = 0
      | .nan _ => false
    if nonneg then s2 fpSub c1 h fl else (h, fl)

end Sys2Proof.Machine
end

