-- ==== Sys2Proof/Machine/Flags.lean ====
section
/-!
DEFINITION. Conditions (R35), the flags register (R68, R69), and the rounding state of a slot (R64, R67): the
generator's draws for STO are taken in `Rng`.
-/

namespace Sys2Proof.Machine

/-- Whether condition `cc` holds on `a` and `b` (R35). -/
def condHolds (cc : BitVec 3) (a b : U64) : Bool :=
  match cc.toNat with
  | 0 => a == b
  | 1 => a != b
  | 2 => a.slt b
  | 3 => !a.slt b
  | 4 => a.ult b
  | 5 => !a.ult b
  | 6 => bitAt a (b.toNat % 64)
  | _ => !bitAt a (b.toNat % 64)

/-- Flags set in FFLAGS of the current slot (R68): they stay until software clears them. -/
def setFlags (fl : Flags) : Exec Unit := modSlot fun x => { x with fflags := x.fflags ||| fl }

/-- One step of the slot generator (R101): its output and the next state. -/
def rngStep (lo hi : U64) : U64 × U64 × U64 :=
  let a := lo ^^^ (lo <<< 23)
  (lo + hi, hi, a ^^^ hi ^^^ (a >>> 17) ^^^ (hi >>> 26))

/-- The current slot's generator takes one step (R101). -/
def rngNext : Exec U64 := do
  let x ← getSlot
  let (out, lo, hi) := rngStep x.rngLo x.rngHi
  modSlot fun y => { y with rngLo := lo, rngHi := hi }
  pure out

end Sys2Proof.Machine
end

