-- ==== Sys2Proof/Machine/Mem.lean ====
section
/-!
DEFINITION. Memory: the keys under which every space's bytes are held, the homes (R141 to R143), capabilities
and their checks (R111 to R115, R145), translation (R163 to R168), and what performing reads and writes at a
home does: tags (R113), poison (R428) and the dirty-page log (R409).
-/

namespace Sys2Proof.Machine

/-! ## Keys and homes -/

/-- Key of a byte of a vault (R115). -/
def vaultKey (cl off : Nat) : Nat := 2 ^ 60 + cl * 2 ^ 25 + off
/-- Key of a byte of a scratchpad (R115). -/
def scratchKey (c off : Nat) : Nat := 2 ^ 61 + c * 2 ^ 18 + off
/-- Key of a byte of the private window of slot `g` (R116). -/
def privateKey (g off : Nat) : Nat := 2 ^ 62 + g * 2 ^ 20 + off
/-- Key of a byte of the host's memory (R115). -/
def hostKey (a : Nat) : Nat := 2 ^ 63 + a

/-- The die that owns a physical address, if the address is populated (R142). -/
def dieOfPA (pa : Nat) : Option Nat :=
  if pa < 0x40_0000_0000 then
    if pa % 0x10_0000_0000 < 0xC_0000_0000 then some (pa / 0x10_0000_0000) else none
  else if 0x100_0000_0000 ≤ pa ∧ pa < 0x200_0000_0000 then some ((pa - 0x100_0000_0000) / 0x40_0000_0000)
  else none

/-- Whether a naturally aligned page of physical memory is populated (R165): its first and last byte are, and lie
in one range. -/
def populated (pa size : Nat) : Bool :=
  match dieOfPA pa, dieOfPA (pa + size - 1) with
  | some a, some b => a == b && (decide (pa < 0x40_0000_0000) == decide (pa + size - 1 < 0x40_0000_0000))
  | _, _ => false

/-- The home core of a physical address (R143). -/
def homeOfPA (pa : Nat) : Nat :=
  let l := pa / 64
  let f := fun i => l / 2 ^ (9 * i) % 512
  let h := f 0 ^^^ f 1 ^^^ f 2 ^^^ f 3 ^^^ (l / 2 ^ 36 % 512)
  let loc := h % 160
  let d := (dieOfPA pa).getD 0
  coreAt (16 * (d % 2) + loc % 16) (10 * (d / 2) + loc / 16)

/-- The home agent of a vault (R141): its controller. -/
def vaultHome (cl : Nat) : Nat := 1000 + cl
/-- The private-window agent of a core (R141). -/
def privateHome (c : Nat) : Nat := 2000 + c
/-- The host-link agent (R141). -/
def hostHome : Nat := 3000
/-- The agent that owns a device region (R141), by region. -/
def deviceHome (n : Nat) : Nat := 4000 + n
/-- The homes of another package, as one (R141). -/
def remoteHome (pkg : Nat) : Nat := 10000 + pkg

/-- The home agent of a memory key (R141): a core's number is the core itself. -/
def homeOf (key : Nat) : Nat :=
  if key ≥ 2 ^ 63 then hostHome
  else if key ≥ 2 ^ 62 then privateHome ((key - 2 ^ 62) / 2 ^ 20 / 12)
  else if key ≥ 2 ^ 61 then (key - 2 ^ 61) / 2 ^ 18
  else if key ≥ 2 ^ 60 then vaultHome ((key - 2 ^ 60) / 2 ^ 25)
  else homeOfPA key

/-- The die at which a home stands, 4 for one outside the four dies: a host access enters at die 0 (R141). -/
def dieOfHome (h : Nat) : Nat :=
  if h < 640 then dieOf h
  else if h < 1080 then clusterDie (h - 1000)
  else if h < 2640 then dieOf (h - 2000)
  else if h = hostHome then 0
  else if h < 4640 then dieOf (h - 4000)
  else if h < 5080 then clusterDie (h - 5000)
  else if h < 6004 then h - 6000
  else if h < 6104 then h - 6100
  else 4

/-- Whether home `h` lies in scope `sc` of slot `g` (R22). -/
def inScope (sc g h : Nat) : Bool :=
  let c := coreOf g
  match sc with
  | 0 => h == privateHome c
  | 1 => h == c || h == privateHome c || h == deviceHome c
  | 2 => (h < 640 && clusterOf h == clusterOf c) || h == vaultHome (clusterOf c) || h == privateHome c
      || (decide (4000 ≤ h) && decide (h < 4640) && clusterOf (h - 4000) == clusterOf c)
      || h == 5000 + clusterOf c
  | 3 => h ≠ hostHome && dieOfHome h == dieOf c
  | 4 => h < 10000
  | _ => true

/-- The address a physical error is reported at (R200, MCHECK): the physical address, or the address in its space. -/
def physOf (key : Nat) : Nat :=
  if key ≥ 2 ^ 63 then key - 2 ^ 63
  else if key ≥ 2 ^ 62 then key - 2 ^ 62
  else if key ≥ 2 ^ 61 then key - 2 ^ 61
  else if key ≥ 2 ^ 60 then key - 2 ^ 60
  else key

/-! ## Bytes, tags and poison -/

/-- The canonical form of memory: keys strictly rising, and no byte listed that is 0, as an unlisted one reads
(log 1). -/
def Memory.wf (m : SMap Byte) : Bool := SMap.wf 0#8 m

/-- One byte of memory. -/
def State.byte (s : State) (key : Nat) : Byte := s.mem.get 0#8 key

/-- `n` bytes of memory from `key`. -/
def State.bytes (s : State) (key n : Nat) : List Byte := (List.range n).map fun i => s.byte (key + i)

/-- A byte of memory written, the tag of its granule cleared (R113). -/
def State.setByte (s : State) (key : Nat) (b : Byte) : State :=
  { s with mem := s.mem.set 0#8 key b, tags := s.tags.erase (key / 16) }

/-- Writes performed, one byte after the other. -/
def State.writeAll (s : State) (ws : List (Nat × Byte)) : State :=
  ws.foldl (fun s w => s.setByte w.1 w.2) s

/-- The byte writes of a byte string at `key`. -/
def writesAt (key : Nat) (bs : List Byte) : List (Nat × Byte) := (List.range bs.length).map fun i => (key + i, bs.getD i 0#8)

/-- Whether a granule is tagged (R111). -/
def State.tagAt (s : State) (key : Nat) : Bool := s.tags.get false (key / 16)

/-- A granule's tag written (R157). -/
def State.setTag (s : State) (key : Nat) (t : Bool) : State := { s with tags := s.tags.set false (key / 16) t }

/-- Whether a line is poisoned (R428). -/
def State.poisoned (s : State) (key : Nat) : Bool := s.poison.get false (key / 64)

/-- A line marked poisoned, or cleared. -/
def State.setPoison (s : State) (key : Nat) (p : Bool) : State := { s with poison := s.poison.set false (key / 64) p }

/-- The first poisoned line among `n` bytes from `key`, if any: its key. -/
def State.poisonIn (s : State) (key n : Nat) : Option Nat :=
  (List.range (n / 64 + 2)).findSome? fun i =>
    let l := key / 64 + i
    if l * 64 < key + n && s.poison.get false l then some (l * 64) else none

/-- The lines that a list of writes covers whole: such a store clears the poison (R428). -/
def wholeLines (ws : List (Nat × Byte)) : List Nat :=
  match ws with
  | [] => []
  | (k, _) :: _ =>
    let lo := k / 64
    (List.range (ws.length / 64 + 1)).filterMap fun i =>
      let l := lo + i
      if (List.range 64).all fun j => ws.any fun w => w.1 == l * 64 + j then some l else none

/-- A granule absent after a lazy restore brought back (R220, R252): its saved bytes and tags, and its poison (R428). -/
def State.fill (s : State) (g : Granule) : State :=
  let s := { s with absent := s.absent.filter fun a => a.key ≠ g.key }
  let s := (s.writeAll (writesAt g.key g.bytes)).setPoison g.key g.poison
  g.tags.foldl (fun s t => s.setTag t true) s

/-- Whether `n` bytes from `key` touch a granule. -/
def Granule.touches (g : Granule) (key n : Nat) : Bool := decide (g.key < key + n) && decide (key < g.key + 64)

/-- The absent granules that `n` bytes from `key` touch, filled (R220). -/
def State.fillFor (s : State) (key n : Nat) : State := (s.absent.filter fun a => a.touches key n).foldl State.fill s

/-! ## Cards in flight -/

/-- Every card that is outstanding, in no particular order (R320). -/
def State.cards (s : State) : List Card :=
  s.engines.flatMap fun e => (e.2.queues.flatMap Prod.snd) ++ e.2.running

/-- Whether a region meets `n` bytes from `lo`. -/
def Region.meets (r : Region) (global : Bool) (lo n : Nat) : Bool :=
  r.global == global && decide (r.lo < lo + n) && decide (lo < r.hi)

/-- Whether a card of core `core` is still to write into memory [lo, lo + n) (R221). -/
def State.cardWrites (s : State) (core lo n : Nat) : Bool :=
  s.cards.any fun c => c.core == core && c.regions.any fun r => r.write && r.meets false lo n

/-- The core whose scratchpad or private window holds a memory key. -/
def coreOfKey (key : Nat) : Nat := if 2 ^ 62 ≤ key then (key - 2 ^ 62) / 2 ^ 20 / 12 else (key - 2 ^ 61) / 2 ^ 18

/-- Whether a card is still to write into a granule, whose fill waits for it (R221). -/
def State.fillHeld (s : State) (g : Granule) : Bool := s.cardWrites (coreOfKey g.key) g.key 64

/-- Whether an access to `n` bytes at `key` waits for a fill that waits for a card (R220, R221). -/
def State.fillWaits (s : State) (key n : Nat) : Bool := s.absent.any fun a => a.touches key n && s.fillHeld a

/-! ## Capabilities (R111 to R113) -/

def Cap.cursor (k : Cap) : Nat := (fld k.bits 0 52).toNat
def Cap.space (k : Cap) : Nat := (fld k.bits 52 4).toNat
def Cap.perm (k : Cap) : Nat := (fld k.bits 56 8).toNat
def Cap.ex (k : Cap) : Nat := (fld k.bits 64 6).toNat
def Cap.bOff (k : Cap) : Nat := (fld k.bits 70 26).toNat
def Cap.tOff (k : Cap) : Nat := (fld k.bits 96 26).toNat
/-- Start of the block (R112). -/
def Cap.blk (k : Cap) : Nat := k.cursor / 2 ^ (k.ex + 26) * 2 ^ (k.ex + 26)
/-- Base (R112). -/
def Cap.base (k : Cap) : Nat := k.blk + k.bOff * 2 ^ k.ex
/-- Top (R112). -/
def Cap.top (k : Cap) : Nat := k.blk + k.tOff * 2 ^ k.ex
/-- The bit of PERM: R 0, W 1, X 2, LC 3, SC 4, A 5, G 6. -/
def Cap.has (k : Cap) (i : Nat) : Bool := bitAt k.bits (56 + i)

/-- The 128 bits of a capability from its fields. -/
def packCap (t b e perm space cursor : Nat) : BitVec 128 :=
  BitVec.ofNat 128 (cursor % 2 ^ 52 + space % 16 * 2 ^ 52 + perm % 256 * 2 ^ 56 + e % 64 * 2 ^ 64 +
    b % 2 ^ 26 * 2 ^ 70 + t % 2 ^ 26 * 2 ^ 96)

/-- The capability with another cursor. -/
def Cap.withCursor (k : Cap) (v : Nat) : Cap := { k with bits := putBits k.bits 0 52 v }

/-- What R113 demands of the bits of a tagged capability, and R116: one of PRIVATE space never holds G. -/
def Cap.legal (k : Cap) : Bool :=
  decide (k.ex ≤ 27) && decide (k.bOff ≤ k.tOff) && decide (k.top ≤ 2 ^ 52) && !bitAt k.bits 63 &&
    decide (k.space ≤ 6) && decide ((fld k.bits 122 6).toNat = 0) && !(k.space == 3 && k.has 6)

/-- A tagged capability to exactly [lo, hi) at the smallest exponent that encodes it, if one does (R112). -/
def capFor (space perm cursor lo hi : Nat) : Option Cap :=
  ((List.range 28).find? fun e =>
      lo % 2 ^ e = 0 ∧ hi % 2 ^ e = 0 ∧ lo / 2 ^ (e + 26) = hi / 2 ^ (e + 26) ∧
        cursor / 2 ^ (e + 26) = lo / 2 ^ (e + 26)).map fun e =>
    let blk := cursor / 2 ^ (e + 26) * 2 ^ (e + 26)
    { tag := true, bits := packCap ((hi - blk) / 2 ^ e) ((lo - blk) / 2 ^ e) e perm space cursor }

/-- What an access demands of its capability (R114): the spaces it accepts, whether another space raises XPERM
instead of CAPSPACE, the bits of PERM, and the alignment. -/
structure Need where
  spaces : List Nat := [0, 1, 2, 3, 4, 5, 6]
  xperm : Bool := false
  perm : List Nat
  align : Nat := 1

/-- The checks of R114, in order, for `n` bytes at `v`; the address as a number. -/
def checkCap (k : Cap) (v : Int) (n : Nat) (nd : Need) : Exec Nat := do
  require k.tag .capTag (u64 k.cursor)
  if !(decide (k.space ≤ 6) && nd.spaces.contains k.space) then
    if nd.xperm && decide (k.space ≤ 6) then trap .xperm (u64 v) else trap .capSpace (u64 k.cursor)
  require (nd.perm.all k.has) .capPerm (u64 v)
  require (decide ((k.base : Int) ≤ v) && decide (v + n ≤ k.top)) .capBnd (u64 v)
  require (decide (v.toNat % nd.align = 0)) .align (u64 v)
  pure v.toNat

/-! ## Alias windows and ownership -/

/-- The space and address that a GLOBAL address in an alias window of partition `p` names (R168). -/
def State.alias? (s : State) (p v : Nat) : Option (Nat × Nat) :=
  let sw := (s.partReg p 0x808).toNat
  let vw := (s.partReg p 0x809).toNat
  if sw ≤ v ∧ v < sw + 640 * 2 ^ 18 then some (2, v - sw)
  else if vw ≤ v ∧ v < vw + 80 * 2 ^ 25 then some (1, v - vw)
  else none

/-- Whether partition `p` reaches a VAULT address (R145): its own share, outside the slice (R144) and the latent
buffer (R365). -/
def State.vaultOk (s : State) (p v : Nat) : Bool :=
  let cl := v / 2 ^ 25
  let q := v % 2 ^ 25 / 2 ^ 23
  let off := v % 2 ^ 23
  let room := 2 ^ 23 - s.sliceSize p - (if q = s.topShare p cl then s.latentSize p else 0)
  decide (v < 80 * 2 ^ 25) && s.ownsQuad p (4 * cl + q) && decide (off < room)

/-- Whether partition `p` reaches a SCRATCH address (R145). -/
def State.scratchOk (s : State) (p v : Nat) : Bool := s.ownsCore p (v / 2 ^ 18)

/-! ## Translation (R163 to R166) -/

/-- How a walk ends. -/
inductive Walked where
  | leaf (pa : Nat) (pte : U64) (lvl : Nat)
  | fault
  | poisoned (pa : Nat)
  deriving DecidableEq, Repr

/-- Bytes that a leaf of level `lvl` maps (R163). -/
def leafSize : Nat → Nat
  | 0 => 2 ^ 16
  | 1 => 2 ^ 21
  | _ => 2 ^ 30

/-- Index of `va` in a table of level `lvl` (R163). -/
def walkIndex (lvl va : Nat) : Nat :=
  match lvl with
  | 0 => va / 2 ^ 16 % 32
  | 1 => va / 2 ^ 21 % 512
  | 2 => va / 2 ^ 30 % 512
  | _ => va / 2 ^ 39 % 8192

/-- Bytes of a table of level `lvl` (R163). -/
def tableSize : Nat → Nat
  | 0 => 256
  | 1 => 2 ^ 12
  | 2 => 2 ^ 12
  | _ => 2 ^ 16

/-- The walk from level `n - 1` with its table at `tab` (R165). A table that is not populated has no home, so its
walk fails (DEDUCED, log 11). -/
def State.walkFrom (s : State) (va : Nat) : Nat → Nat → Walked
  | 0, _ => .fault
  | lvl + 1, tab =>
    let a := tab + 8 * walkIndex lvl va
    if tab % tableSize lvl ≠ 0 ∨ dieOfPA a = none then .fault
    else if s.poisoned a then .poisoned a
    else
      let pte : U64 := BitVec.ofNat 64 (ofBytes (s.bytes a 8))
      let rwx := (fld pte 1 3).toNat
      if !bitAt pte 0 || (fld pte 52 12).toNat ≠ 0 || (fld pte 6 2).toNat ≠ 0 then .fault
      else if lvl = 3 ∧ rwx ≠ 0 then .fault
      else
        let pa := (fld pte 8 44).toNat * 256
        if lvl = 0 ∨ rwx ≠ 0 then
          if pa % leafSize lvl ≠ 0 || !populated pa (leafSize lvl) then .fault
          else .leaf (pa + va % leafSize lvl) pte lvl
        else if (fld pte 4 2).toNat ≠ 0 then .fault
        else State.walkFrom s va lvl pa

/-- The walk of tenant `t` of partition `p` (R165). A tenant that does not exist has no table (R403). -/
def State.walk (s : State) (p t va : Nat) : Walked :=
  if s.partFld p (tenantReg t 0) 2 1 = 0 then .fault
  else s.walkFrom va 4 (s.partFld p (tenantReg t 0) 16 36 * 2 ^ 16)

/-- Whether a translation-cache entry maps `va` for tenant `t` of partition `p`. -/
def TlbEntry.hit (e : TlbEntry) (p t va : Nat) : Bool := e.part == p && e.tenant == t && e.page == va / leafSize e.lvl

/-- A leaf put into the translation cache of core `c`, in the place of another when it is full (R166, log 7). -/
def State.cacheLeaf (s : State) (c p t va lvl : Nat) (pte : U64) : State :=
  let e : TlbEntry := { part := p, tenant := t, lvl := lvl, page := va / leafSize lvl, pte := pte }
  if (s.core c).tlb.length < 256 then s.modCore c fun x => { x with tlb := x.tlb ++ [e] }
  else
    { s.modCore c fun x => { x with tlb := x.tlb.eraseIdx (Config.victim s.tick % 256) ++ [e] } with tick := s.tick + 1 }

/-- How a walk ended, without the address. -/
def Walked.found : Walked → WalkEnd
  | .leaf _ pte lvl => .leaf pte lvl
  | .fault => .fault
  | .poisoned pa => .poisoned pa

/-- What the end of a walk of its page says of `va`. -/
def WalkEnd.at (w : WalkEnd) (va : Nat) : Walked :=
  match w with
  | .leaf pte lvl => .leaf ((fld pte 8 44).toNat * 256 + va % leafSize lvl) pte lvl
  | .fault => .fault
  | .poisoned pa => .poisoned pa

/-- The walk of the 64 KiB page of `va` that is in flight on die `d`, if there is one (R166). -/
def State.inFlight (s : State) (d p t va : Nat) : Option PageWalk :=
  s.pageWalks.find? fun w => w.die == d && w.part == p && w.tenant == t && w.page == va / 2 ^ 16

/-- The translation of `va` for an agent: of a core, through its translation cache, or of an engine, by a walk. A miss
takes the end of a walk in flight on its die for its page, a fault too, and starts one when there is none (R166). -/
def State.translate (s : State) (cached : Option Nat) (p t va : Nat) : Walked × State :=
  match cached with
  | none => (s.walk p t va, s)
  | some c =>
    match (s.core c).tlb.find? fun e => e.hit p t va with
    | some e => (.leaf ((fld e.pte 8 44).toNat * 256 + va % leafSize e.lvl) e.pte e.lvl, s)
    | none =>
      match (s.inFlight (dieOf c) p t va).elim (s.walk p t va) fun w => w.found.at va with
      | .leaf pa pte lvl => (.leaf pa pte lvl, s.cacheLeaf c p t va lvl pte)
      | w => (w, s)

/-! ## Where an access goes -/

/-- Who makes an access: partition and tenant, core, slot when a slot makes it, and whether through its core's
translation cache. -/
structure Who where
  part : Nat
  tenant : Nat
  core : Nat
  slot : Nat
  cached : Bool
  deriving DecidableEq, Repr

/-- A region of DEVICE space (R162). -/
inductive DevReg where
  | mbx (core i : Nat)
  | window (cluster tenant off : Nat)
  | layer (i off : Nat)
  | view (v off : Nat)
  deriving DecidableEq, Repr

/-- The region at a DEVICE offset, if one is assigned (R162). MBXP is mailbox 8. -/
def devRegion (off : Nat) : Option DevReg :=
  if off < 0x280000 then
    if off % 0x1000 < 0x48 then some (.mbx (off / 0x1000) (off % 0x1000 / 8)) else none
  else if 0x1000000 ≤ off ∧ off < 0x1050000 then
    some (.window ((off - 0x1000000) / 0x1000) (off % 0x1000 / 0x100) (off % 0x100))
  else if 0x2000000 ≤ off ∧ off < 0x2080000 then some (.layer ((off - 0x2000000) / 128) (off % 128))
  else if 0x2800000 ≤ off ∧ off < 0x2840000 then some (.view ((off - 0x2800000) / 0x1000) (off % 0x1000))
  else none

/-- Whether an object number lies in a range of LVRANGE (R401). -/
def State.ownsLayer (s : State) (p i : Nat) : Bool :=
  decide (s.partFld p 0x80D 0 12 ≤ i) && decide (i < s.partFld p 0x80D 0 12 + s.partFld p 0x80D 16 13)

/-- Whether a view number lies in a range of LVRANGE (R401). -/
def State.ownsView (s : State) (p v : Nat) : Bool :=
  decide (s.partFld p 0x80D 32 6 ≤ v) && decide (v < s.partFld p 0x80D 32 6 + s.partFld p 0x80D 40 7)

/-- Whether a device region is another partition's (R145). The enqueue window of a cluster belongs to the
partition of its core 0 (DEDUCED, log 12). -/
def State.ownsRegion (s : State) (p : Nat) : DevReg → Bool
  | .mbx c _ => s.ownsCore p c
  | .window cl _ _ => s.ownsCore p (8 * cl)
  | .layer i _ => s.ownsLayer p i
  | .view v _ => s.ownsView p v

/-- The home of a device region: mailboxes stand at their core, a window at its cluster, a layer at its estimator
and a view at its print unit (R141, R375). -/
def DevReg.home : DevReg → Nat
  | .mbx c _ => deviceHome c
  | .window cl _ _ => 5000 + cl
  | .layer i _ => 6000 + i / 1024
  | .view v _ => 6100 + v / 16

/-- Ports that may carry traffic from die `d` to package `pkg`; none when the package lies outside the domain
(R418, R419). -/
def State.routeTo (s : State) (d pkg : Nat) : BitVec 24 := s.routes.get 0#24 (512 * d + pkg)

/-- Whether a working port remains on the route (R419, R420). -/
def State.routeUp (s : State) (d pkg : Nat) : Bool := (s.routeTo d pkg &&& ~~~s.portDown) ≠ 0#24

/-- The checks of R145, and translation (R167, R168): where `n` bytes at `v` of `space` lie. `bits` are the page
bits the access needs (R152): R 1, W 2, X 3, A 4, C 5. -/
def locate (w : Who) (space v n : Nat) (bits : List Nat) : Exec Place := do
  let s ← get
  match space with
  | 0 =>
    match s.alias? w.part v with
    | some (1, a) =>
      require (s.vaultOk w.part a) .xperm (u64 v)
      pure (.mem (2 ^ 60 + a) true none)
    | some (_, a) =>
      require (s.scratchOk w.part a) .xperm (u64 v)
      pure (.mem (2 ^ 61 + a) true none)
    | none =>
      let (r, s') := s.translate (if w.cached then some w.core else none) w.part w.tenant v
      match r with
      | .leaf pa pte _ =>
        set s'
        require (bits.all fun b => bitAt pte b) .xperm (u64 v)
        pure (.mem pa (bitAt pte 5) (some v))
      | .fault => trap .xlate (u64 v)
      | .poisoned pa => trap .mcheck (u64 pa)
  | 1 =>
    require (s.vaultOk w.part v) .xperm (u64 v)
    pure (.mem (2 ^ 60 + v) true none)
  | 2 =>
    require (s.scratchOk w.part v) .xperm (u64 v)
    pure (.mem (2 ^ 61 + v) true none)
  | 3 =>
    require (decide (v < s.windowSize w.part)) .xperm (u64 v)
    pure (.mem (privateKey w.slot v) true none)
  | 4 =>
    require (decide (s.hostDown ≠ 15#4)) .mcheck (u64 v)
    pure (.mem (hostKey v) false none)
  | 5 =>
    require (decide (s.routeTo (dieOf w.core) (v / 2 ^ 43) ≠ 0#24)) .xperm (u64 v)
    pure (.remote v)
  | _ =>
    match devRegion v with
    | none => trap .xlate (u64 v)
    | some r =>
      require (s.ownsRegion w.part r) .xperm (u64 v)
      let ok := match r with
        | .mbx _ _ => n = 8
        | .window _ _ off => n = 8 ∧ off < 0x20
        | .layer .. => n = 8 ∨ n = 16
        | .view .. => n = 8 ∨ n = 16
      require ok .xperm (u64 v)
      pure (.device v)

/-- The home of a place (R141). -/
def Place.home : Place → Nat
  | .mem key _ _ => homeOf key
  | .device off => match devRegion off with | some r => r.home | none => 0
  | .remote cur => remoteHome (cur / 2 ^ 43)

/-- The slot `g` as one that makes accesses. -/
def State.who (s : State) (g : Nat) : Who :=
  { part := s.partOfSlot g, tenant := (s.slot g).tenant, core := coreOf g, slot := g, cached := true }

/-! ## Performing writes -/

/-- The bit of the summary bitmap and the log entry of a write at `va` (R409, R410). The log stands in the
tenant's GLOBAL space; where an address of it does not translate, or the line of its bitmap is poisoned (R428), that part is not
written (DEDUCED, log 13). -/
def State.logWrite (s : State) (p t va : Nat) : State :=
  let ctl := tenantReg t 2
  if s.partFld p ctl 0 1 = 0 then s
  else
    let span := s.partFld p ctl 16 6
    let put1 := fun (s : State) (a : Nat) (f : Byte → Byte) =>
      match s.walk p t a with
      | .leaf pa _ _ => if s.poisoned pa then s else s.setByte pa (f (s.byte pa))
      | _ => s
    let s :=
      if va ≥ 2 ^ span then s.setPartReg p ctl (s.partReg p ctl ||| 4#64)
      else put1 s ((s.partReg p (tenantReg t 5)).toNat + va / 2 ^ 24) fun b => b ||| BitVec.ofNat 8 (2 ^ (va / 2 ^ 21 % 8))
    let page := va / 2 ^ 16
    -- the filter of the die of the write's home
    let fk := ((match s.walk p t va with | .leaf pa _ _ => (dieOfPA pa).getD 0 | _ => 0) * 4 + p) * 16 + t
    let seen := s.dirtyFilter.get [] fk
    if seen.contains page then s
    else
      let size := s.partFld p ctl 8 5
      let head := s.partReg p (tenantReg t 3)
      let tail := s.partReg p (tenantReg t 4)
      if (head - tail).toNat = 2 ^ size then s.setPartReg p ctl (s.partReg p ctl ||| 2#64)
      else
        let a := (s.partReg p (tenantReg t 1)).toNat + 8 * (head.toNat % 2 ^ size)
        let s := match s.walk p t a with
          | .leaf pa _ _ => s.writeAll (writesAt pa (toBytes 8 (page * 2 ^ 16)))
          | _ => s
        let s := s.setPartReg p (tenantReg t 3) (head + 1#64)
        { s with dirtyFilter := s.dirtyFilter.set [] fk ((page :: seen).take 4096) }

/-- Writes performed at their home by tenant `t` of partition `p` (R146): absent granules filled first (R220), the
page of a write logged (R409), the bytes written, tags cleared (R113), the poison of lines written whole cleared (R428),
and `tagKey` tagged (R157). -/
def State.performWrites (s : State) (p t : Nat) (va : Option Nat) (ws : List (Nat × Byte)) (tagKey : Option Nat) : State :=
  let s := match ws with
    | [] => s
    | w :: _ => s.fillFor w.1 ws.length
  let s := match va, ws with
    | some a, _ :: _ => s.logWrite p t a
    | _, _ => s
  let s := s.writeAll ws
  let s := (wholeLines ws).foldl (fun s l => s.setPoison (l * 64) false) s
  match tagKey with
  | some k => s.setTag k true
  | none => s

end Sys2Proof.Machine
end

