-- ==== Sys2Proof/Machine/Net.lean ====
section
/-!
DEFINITION. The network: which links a message crosses, the class on whose channel it travels (R407), and the flits that
stand in the links (R406). Firmware.lean holds the arbiter and the failures of links.
-/

namespace Sys2Proof.Machine

/-! ## Links (R10, R24, R406, R415, R418; their numbers and the routes within a die are log 30) -/

/-- A link from die `a` to die `b`. -/
def dieLink (a b : Nat) : Nat := 2560 + linkDir a b
/-- A fabric port's link out of the package. -/
def portLink (port : Nat) : Nat := 2576 + port
/-- The host link from die 0 to the host. -/
def hostLink : Nat := 2600
/-- The host link from the host to die 0. -/
def hostIn : Nat := 2601
/-- The input port of a home. -/
def homeLink (h : Nat) : Nat := 2602 + h

/-- Buffer slots of a subchannel of a link (R406). -/
def linkDepth (l : Nat) : Nat := if l < 2560 then 8 else if l < 2576 then 64 else if l < 2600 then 256 else if l < 2602 then 128 else 8

/-- Link `l`; its counters start at the depth (R406). -/
def State.link (s : State) (l : Nat) : Link := s.links.get {} l

/-- Link `l` changed. -/
def State.modLink (s : State) (l : Nat) (f : Link → Link) : State := { s with links := s.links.set {} l (f (s.link l)) }

/-- Free slots that the sender of link `l` counts for a subchannel. -/
def Link.free (k : Link) (l i : Nat) : Nat := k.credits.get (linkDepth l) i

/-- Index of a flit's subchannel: 2 x class, + 1 for a response. -/
def Flit.sub (f : Flit) : Nat := 2 * f.cls + (if f.resp then 1 else 0)

/-! ## Paths -/

/-- The mesh hop from core `c` in a direction (0 +x, 1 -x, 2 +y, 3 -y) to core `n`: a die-to-die link between two dies (R16). -/
def hopLink (c dir n : Nat) : Nat := if dieOf c = dieOf n then 4 * c + dir else dieLink (dieOf c) (dieOf n)

/-- The hops from core `c` to core `d`, along X first, as R10 turns between diagonal dies. -/
def meshPath (c d : Nat) : List Nat :=
  let x0 := coreX c
  let y0 := coreY c
  let x1 := coreX d
  let y1 := coreY d
  ((List.range (x1 - x0)).map fun i => hopLink (coreAt (x0 + i) y0) 0 (coreAt (x0 + i + 1) y0)) ++
  ((List.range (x0 - x1)).map fun i => hopLink (coreAt (x0 - i) y0) 1 (coreAt (x0 - i - 1) y0)) ++
  ((List.range (y1 - y0)).map fun i => hopLink (coreAt x1 (y0 + i)) 2 (coreAt x1 (y0 + i + 1))) ++
  ((List.range (y0 - y1)).map fun i => hopLink (coreAt x1 (y0 - i)) 3 (coreAt x1 (y0 - i - 1)))

/-- The core at which a home of this package stands. -/
def nodeOfHome (h : Nat) : Nat :=
  if h < 640 then h
  else if h < 1080 then 8 * (h - 1000)
  else if h < 2640 then h - 2000
  else if h = hostHome then 0
  else if h < 4640 then h - 4000
  else if h < 5080 then 8 * (h - 5000)
  else if h < 6004 then 160 * (h - 6000)
  else 160 * (h - 6100)

/-- The lowest working port of the route from die `d` to package `pkg` (R419). -/
def State.portTo (s : State) (d pkg : Nat) : Option Nat :=
  (List.range 24).find? fun i => bitAt (s.routeTo d pkg) i && !bitAt s.portDown i

/-- The links from core `c` to fabric port `i`: the ports of a die stand at its first core. -/
def portPath (c i : Nat) : List Nat := (if dieOf c = i / 6 then [] else meshPath c (160 * (i / 6))) ++ [portLink i]

/-- The links that a message from core `c` to home `h` crosses. -/
def State.pathTo (s : State) (c h : Nat) : List Nat :=
  if 10000 ≤ h then ((s.portTo (dieOf c) (h - 10000)).map (portPath c)).getD []
  else if h = hostHome then meshPath c 0 ++ (if s.hostDown = 15#4 then [] else [hostLink])
  else meshPath c (nodeOfHome h) ++ [homeLink h]

/-- The links of this package that a response from home `h` to core `c` crosses. For a host that cannot be reached, die 0 answers
(R416). -/
def State.pathFrom (s : State) (h c : Nat) : List Nat :=
  if 10000 ≤ h then meshPath (160 * dieOf c) c
  else if h = hostHome then (if s.hostDown = 15#4 then [] else [hostIn]) ++ meshPath 0 c
  else meshPath (nodeOfHome h) c

/-! ## Messages (R407) -/

/-- The number of the host as one that sends accesses (R417): no slot has it. -/
def hostSlot : Nat := 0x1FFF

/-- The class of an access, an NWR, an RST or an AMSG: that of the tenant it runs under, for a message its sender's; of a
store into an enqueue window, that of its block's tenant (R407). -/
def State.messageClass (s : State) (p t : Nat) (kind : Option AccessKind) : Nat :=
  match kind with
  | some (.window cl u _ _) => s.tenantClass (s.partOf (8 * cl)) u
  | _ => s.tenantClass p t

/-- The class of journal writes, dirty-log appends and firmware traffic (R407). A new journal entry and an append are
performed within the step that makes them, so that their flits never wait (log 30). -/
def hardwareClass : Nat := 3

/-- A flit that waits for the first link of its path; where that is the host's and has no module left, it goes no further (R416). -/
def State.putFlit (s : State) (f : Flit) : State :=
  match f.path with
  | [] => s
  | l :: ls =>
    if (l == hostLink || l == hostIn) && s.hostDown == 15#4 then s else s.modLink l fun k => { k with waiting := k.waiting.set [] f.sub (k.waiting.get [] f.sub ++ [{ f with path := ls }]) }

/-- Message number `id` put on the channel of its class, from slot or home `src` to home or core `dst` (R407). -/
def State.post (s : State) (id cls : Nat) (resp : Bool) (src dst : Nat) (path : List Nat) : State :=
  s.putFlit { id := id, cls := cls, resp := resp, src := src, dst := dst, path := path }

/-- A response from home `h` to core `c` on the response channel of class `cls`, over the links `path` (R407). Where something
waits for it, `ack` says what; over no link it has come at once. -/
def State.respond (s : State) (h c cls : Nat) (path : List Nat) (ack : Option (Nat × AckKind)) : State :=
  let id := s.fresh
  let s := { s with fresh := s.fresh + 1 }.post id cls true h c path
  match ack, path with
  | some (o, k), _ :: _ => { s with acks := s.acks ++ [{ id := id, owner := o, kind := k }] }
  | _, _ => s

/-- Whether a response that instruction or card number `o` waits for is on its way (R407). -/
def State.owed (s : State) (o : Nat) : Bool := s.acks.any fun a => a.owner == o

/-- Whether message number `id` is still on a link. -/
def State.crossing (s : State) (id : Nat) : Bool :=
  s.links.any fun l => (l.2.waiting.any fun w => w.2.any fun f => f.id == id) || l.2.unacked.any fun f => f.id == id

end Sys2Proof.Machine
end

