-- ==== Sys2Proof/Machine/Sched.lean ====
section
/-!
DEFINITION. The die scheduler and the steps hardware makes for records: error records (R424, R443), the journal
(R412, R413), completion records (R173 to R175, R445), task records and their queues (R169, R170, R176, R179,
R180, R444), releases (R183, R198), futures (R197, R198) and admission (R191, R193).
-/

namespace Sys2Proof.Machine

/-- A little-endian number in memory. -/
def State.num (s : State) (key n : Nat) : Nat := ofBytes (s.bytes key n)

/-! ## Error records -/

/-- The GSLOT field of a record that concerns no slot (R424). -/
def noSlot : Nat := 0x1FFF

/-- The 32 bytes of an error record (R424). -/
def ErrorRec.bytes (r : ErrorRec) : List Byte :=
  toBytes 8 r.addr.toNat ++ toBytes 8 r.time.toNat ++ toBytes 2 (r.gslot % 2 ^ 13) ++ toBytes 1 r.code ++ toBytes 1 (r.source % 16) ++
    toBytes 1 (r.part % 4 + r.tenant % 16 * 16) ++ toBytes 1 (if r.corr then 1 else 0) ++ List.replicate 10 0#8

/-- An error record to service firmware: its 32 bytes written to the ring of the die, or counted as lost when it is full
(R424; the ring is a memory of its own, log 84). -/
def State.errorRecord (s : State) (die : Nat) (addr : U64) (gslot code source tenant part : Nat) (corr : Bool) : State :=
  let ring := s.errRing.get [] die
  if ring.length < s.errCap then
    let r : ErrorRec := { addr := addr, time := s.cycle die, gslot := gslot, code := code, source := source, tenant := tenant,
                          part := part, corr := corr }
    { s with errRing := s.errRing.set [] die (ring ++ [r.bytes]) }
  else { s with errLost := s.errLost.set 0 die (s.errLost.get 0 die + 1) }

/-- A scheduler's error record (R443). -/
def State.schedError (s : State) (die code : Nat) (addr : U64) (tenant part : Nat) : State :=
  s.errorRecord die addr noSlot code 2 tenant part false

/-! ## The journal (R412, R413) -/

/-- Address of the journal entry with sequence number `seq` (R412). -/
def State.journalKey (s : State) (p seq : Nat) : Nat :=
  (s.partReg p 0x812).toNat + 32 * (seq % 2 ^ s.partFld p 0x813 0 5)

/-- An entry written under the next sequence number, which rises (R412, R413). -/
def State.journalPut (s : State) (p group deadline kind tenant gslot state : Nat) : State :=
  let seq := (s.partReg p 0x814).toNat
  let w := gslot % 2 ^ 13 + tenant % 16 * 2 ^ 13 + kind % 16 * 2 ^ 20
  let bs := toBytes 8 seq ++ toBytes 8 group ++ toBytes 8 deadline ++ toBytes 4 w ++ toBytes 4 state
  (s.performWrites p tenant none (writesAt (s.journalKey p seq) bs) none).setPartReg p 0x814 (BitVec.ofNat 64 (seq + 1))

/-- A group's new entry, with its sequence number; none when its place still holds a live group (R413). A place whose
SEQ is 0 has never held one (DEDUCED, log 14); one whose line is poisoned may hold one (R428; DEDUCED, log 25). -/
def State.journalNew (s : State) (p group deadline kind tenant gslot state : Nat) : Option Nat × State :=
  let seq := (s.partReg p 0x814).toNat
  let key := s.journalKey p seq
  if s.poisoned key ∨ s.num key 8 ≠ 0 ∧ s.num (key + 28) 4 % 8 ≤ 1 then (none, s)
  else (some seq, s.journalPut p group deadline kind tenant gslot state)

/-- A later state of the entry with sequence number `seq`, if its place still holds it (R413), which a poisoned line does not
show (R428). -/
def State.journalState (s : State) (p seq state : Nat) : State :=
  let key := s.journalKey p seq
  if s.poisoned key = false ∧ s.num key 8 = seq then s.performWrites p 0 none (writesAt (key + 28) (toBytes 4 state)) none else s

/-- The number of the hardware as one that sends accesses: no slot has it. -/
def hardwareSlot : Nat := 0x1FFE

/-- A later state of an entry on its way to the journal, on the channel of class 3 (R407, R413), from core `c`. -/
def State.sendJournal (s : State) (p seq state c : Nat) : State :=
  let id := s.fresh
  let home := homeOf (s.journalKey p seq)
  let a : Access :=
    { id := id, slot := hardwareSlot, tid := 0, instr := id, kind := .journal seq state, home := home, part := p, core := c }
  { s with fresh := s.fresh + 1, flight := s.flight ++ [a] }.post id hardwareClass false hardwareSlot home (s.pathTo c home)

/-! ## Where a hardware step finds its target -/

/-- The memory key of GLOBAL address `va` of tenant `t`, with whether its page keeps tags and the address to log, poisoned or
not; none when it does not translate or lacks a page bit. -/
def State.hwFind (s : State) (p t va : Nat) (bits : List Nat) : Option (Nat × Bool × Option Nat) :=
  match s.alias? p va with
  | some (1, a) => if s.vaultOk p a then some (2 ^ 60 + a, true, none) else none
  | some (_, a) => if s.scratchOk p a then some (2 ^ 61 + a, true, none) else none
  | none =>
    match s.walk p t va with
    | .leaf pa pte _ => if bits.all fun b => bitAt pte b then some (pa, bitAt pte 5, some va) else none
    | _ => none

/-- As `hwFind`; none too when the line is poisoned: the step cannot use it (R445, R428). -/
def State.hwPlace (s : State) (p t va : Nat) (bits : List Nat) : Option (Nat × Bool × Option Nat) :=
  (s.hwFind p t va bits).filter fun x => !s.poisoned x.1

/-- Whether a hardware step finds its line poisoned, or a page table entry on the way there (R428). -/
def State.hwBad (s : State) (p t va : Nat) (bits : List Nat) : Bool :=
  (s.hwFind p t va bits).any (fun x => s.poisoned x.1) ||
    ((s.alias? p va).isNone && (match s.walk p t va with | .poisoned _ => true | _ => false))

/-- Whether the message thread of the core of home `h` may perform what comes to it across a die boundary or as an RST from
core `c`: it runs what is addressed to its core one at a time, to completion (R12, R149). The host, layers and views stand at
no core. -/
def State.threadFree (s : State) (c h : Nat) (rst : Bool) : Bool :=
  decide (6000 ≤ h) || h == hostHome || (dieOfHome h == dieOf c && !rst) || !(s.slot (12 * nodeOfHome h + 11)).live

/-! ## Groups (R173 to R175) -/

/-- Address of a completion record in its tenant's GLOBAL space. -/
def State.groupAddr (s : State) (r : GroupRef) : Nat := (s.partReg r.part 0x80A).toNat + r.offset

/-- The completion record that a GROUP field names: none when it is 0. -/
def groupRef (p t : Nat) (group : U64) : Option GroupRef :=
  if group = 0#64 then none else some { part := p, tenant := t, offset := group.toNat }

/-- Whether a GROUP field is well-formed (R170). -/
def State.groupOk (s : State) (p : Nat) (group : U64) : Bool :=
  group.toNat % 32 = 0 && decide (group.toNat + 32 ≤ (s.partReg p 0x80B).toNat) || group = 0#64

/-- FRES's effect on a future's 16 bytes, by hardware or by a slot (R198): VALUE and STATE, REC kept. -/
def resolvedFuture (lo value : Nat) : List Byte := toBytes 8 (lo / 4 * 4 + 2) ++ toBytes 8 value

/-- Whether a future's low word is well-formed (R197). -/
def futureOk (lo : Nat) : Bool := decide (lo % 4 ≠ 3) && lo / 4 % 4 == 0 && lo / 2 ^ 52 == 0

/-- How a future's resolution by hardware ends (R175, R198, R445); on a poisoned line, with an error of its own (R428). -/
inductive Resolved where
  | done
  | already
  | bad
  | poisoned
  deriving DecidableEq, Repr

/-- A future resolved by a group, whose completion record has home `home`, or by a card, for core `c` (R198): a waiting record is
released. -/
def State.resolveFuture (s : State) (p t va value c : Nat) (home : Option Nat) : Resolved × State :=
  if va % 16 ≠ 0 then (.bad, s)
  else
    match s.hwPlace p t va [1, 2, 4] with
    | none => (if s.hwBad p t va [1, 2, 4] then .poisoned else .bad, s)
    | some (key, _, log) =>
      let s := s.fillFor key 16
      let lo := s.num key 8
      if !futureOk lo then (.bad, s)
      else if lo % 4 = 2 then (.already, s)
      else
        let s' := s.performWrites p t log (writesAt key (resolvedFuture lo value)) none
        if lo % 4 = 1 then
          (.done, { s' with releases := s'.releases ++ [{ addr := lo / 16 * 16, tenant := t, part := p, core := c, home := home }] })
        else (.done, s')

/-- One step on a completion record, performed at its home (R174, R175). A record that the step cannot use is left
as it is and reported (R445); the step asks R and W of its page, not A (DESIGN CHOICE, log 72). Reserved bits of the flag
word stay as they stand, and pass into the value of FUTURE (DESIGN CHOICE, log 71). -/
def State.applyGroup (s : State) (g : GroupStep) : State :=
  let r := g.ref
  let die := dieOf g.core
  let bad := s.schedError die 4 (BitVec.ofNat 64 (s.groupAddr r)) r.tenant r.part
  match s.hwPlace r.part r.tenant (s.groupAddr r) [1, 2] with
  | none => bad
  | some (key, _, log) =>
    let s := s.fillFor key 32
    let live := wrapNat ((s.num key 8 : Int) + g.delta) 64
    let fl0 := s.num (key + 8) 4
    let set1 := fun (fl bit : Nat) (on : Bool) => if on ∧ fl / 2 ^ bit % 2 = 0 then fl + 2 ^ bit else fl
    let fl1 := set1 (set1 (set1 fl0 1 g.failed) 2 g.submitted) 3 g.late
    let fl2 := if g.delta > 0 ∧ fl1 % 2 = 1 then fl1 - 1 else fl1
    let complete := decide (g.delta ≠ 0) && decide (live = 0)
    let fl3 := set1 fl2 0 complete
    let traps := s.num (key + 12) 4 + (if g.trapped then 1 else 0)
    let put := fun (s : State) (off n v : Nat) => s.performWrites r.part r.tenant log (writesAt (key + off) (toBytes n v)) none
    let s := put (put (put s 0 8 live) 8 4 fl3) 12 4 (min traps 0xFFFF_FFFF)
    let s := match g.seq with
      | some q => put s 24 8 q.toNat
      | none => s
    if complete then
      let fut := s.num (key + 16) 8
      let s :=
        if fut = 0 then s
        else
          let (res, s) := s.resolveFuture r.part r.tenant fut fl3 g.core (some (homeOf key))
          let s := match res with
            | .done => s
            | .already => put s 8 4 (set1 fl3 1 true)
            | .bad | .poisoned => (put s 8 4 (set1 fl3 1 true)).schedError die 4 (BitVec.ofNat 64 fut) r.tenant r.part
          put s 16 8 0
      let seq := s.num (key + 24) 8
      if seq = 0 then s
      else s.sendJournal r.part seq (if s.num (key + 8) 4 / 2 % 2 = 1 ∨ s.num (key + 8) 4 / 8 % 2 = 1 then 3 else 2) g.core
    else s

/-- Whether a step of core `c` on a completion record finds the message thread free that it may need (R12, R149). -/
def State.groupThread (s : State) (r : GroupRef) (c : Nat) : Bool :=
  (s.hwPlace r.part r.tenant (s.groupAddr r) []).all fun x => s.threadFree c (homeOf x.1) false

/-- The steps that have come to the same completion record performed first, then this one (R174: arrival order). -/
def State.groupNow (s : State) (g : GroupStep) : State :=
  let mine := s.groupSteps.filter fun x => x.ref = g.ref && s.groupThread x.ref x.core
  let s := { s with groupSteps := s.groupSteps.filter fun x => !mine.contains x }
  (mine ++ [g]).foldl State.applyGroup s

/-- A step sent on its way (GROUP_COUNT_STEP performs it). -/
def State.groupLater (s : State) (g : GroupStep) : State := { s with groupSteps := s.groupSteps ++ [g] }

/-- A change of LIVE performed now, for a GROUP field that may be 0. -/
def State.liveNow (s : State) (p t : Nat) (group : U64) (delta : Int) (c : Nat) : State :=
  match groupRef p t group with
  | none => s
  | some r => s.groupNow { ref := r, delta := delta, core := c }

/-! ## Task records (R169, R170) -/

/-- The record held in 64 bytes, with the tags of its first two granules. -/
def recOf (bs : List Byte) (t0 t1 : Bool) (addr tenant part : Nat) : Rec :=
  let b := fun i n => leAt bs i n
  let w := b 36 4
  let h := b 52 4
  { code := { tag := t0, bits := BitVec.ofNat 128 (b 0 16) }
    frame := { tag := t1, bits := BitVec.ofNat 128 (b 16 16) }
    join := BitVec.ofNat 32 (b 32 4)
    radius := w / 16 % 16
    kind := w / 4 % 4
    cls := w % 4
    deadline := BitVec.ofNat 64 (b 40 8)
    budget := BitVec.ofNat 32 (b 48 4)
    hen := h / 2 ^ 16 % 2 = 1
    hy := h / 2 ^ 8 % 256
    hx := h % 256
    group := BitVec.ofNat 64 (b 56 8)
    reservedSet := decide (w / 256 ≠ 0) || decide (h / 2 ^ 17 ≠ 0)
    addr := addr, tenant := tenant, part := part }

/-- The record at a memory key; its tags count when `keep`. -/
def State.readRec (s : State) (key : Nat) (keep : Bool) (addr tenant part : Nat) : Rec :=
  recOf (s.bytes key 64) (keep && s.tagAt key) (keep && s.tagAt (key + 16)) addr tenant part

/-- The first three checks of R127, on a code capability. -/
def codeOk (k : Cap) : Bool := k.tag && k.space == 0 && k.has 2

/-- What R170 asks of every record, its kind among `kinds`. -/
def State.recOk (s : State) (r : Rec) (kinds : List Nat) : Bool :=
  (if r.kind = 1 then r.code.tag && r.code.space == 0 && r.code.has 0 else codeOk r.code) &&
  (r.frame.tag || r.frame.bits = 0#128) && !r.reservedSet && r.cls == s.tenantClass r.part r.tenant &&
  kinds.contains r.kind &&
  (!r.hen || (decide (r.hx < 32) && decide (r.hy < 20) && s.ownsCore r.part (coreAt r.hx r.hy) && r.kind ≠ 1)) &&
  s.groupOk r.part r.group

/-! ## Queues (R176, R179, R180) -/

/-- An entry put in deadline order, behind its equals (R176). -/
def insertEntry (e : Entry) : List Entry → List Entry
  | [] => [e]
  | x :: xs => if e.job.deadline < x.job.deadline then e :: x :: xs else x :: insertEntry e xs

/-- The 64 bytes of a record (R169). -/
def Rec.bytes (r : Rec) : List Byte :=
  toBytes 16 r.code.bits.toNat ++ toBytes 16 r.frame.bits.toNat ++ toBytes 4 r.join.toNat ++
    toBytes 4 (r.cls % 4 + r.kind % 4 * 4 + r.radius % 16 * 16) ++ toBytes 8 r.deadline.toNat ++ toBytes 4 r.budget.toNat ++
    toBytes 4 (r.hx % 256 + r.hy % 256 * 2 ^ 8 + (if r.hen then 2 ^ 16 else 0)) ++ toBytes 8 r.group.toNat

/-- The granule of an entry's item range (R179): next item, count and group count (DESIGN CHOICE, log 15). -/
def Entry.rangeBytes (e : Entry) : List Byte :=
  toBytes 8 e.next ++ toBytes 8 e.count ++ toBytes 8 e.gcount ++ List.replicate 40 0#8

/-- The entries of partition `p` in a list. -/
def entriesOf (p : Nat) (l : List Entry) : List Entry := l.filter fun e => e.job.part == p

/-- Address of granule `i` of the sediment ring of partition `p` in cluster `cl`, counted from its first entry (R179, R401). -/
def State.ringGranule (s : State) (p cl i : Nat) : Nat :=
  let size := (s.partReg p 0x811).toNat
  (s.partReg p 0x810).toNat + 64 * size * cl + 64 * (((s.cluster cl).ringHead.get 0 p + i) % size)

/-- Whether the ring of partition `p` in cluster `cl` holds `n` entries (R179, R180): two granules each, in memory that
exists (DEDUCED, log 15). -/
def State.ringRoom (s : State) (p cl n : Nat) : Bool :=
  decide (2 * n ≤ (s.partReg p 0x811).toNat) && (n == 0 || (dieOfPA (s.ringGranule p cl (2 * n - 2))).isSome)

/-- The list of a cluster divided again into its queue and its ring: the first 256 entries are the queue (R179). -/
def splitQueue (c : Cluster) (all : List Entry) : Cluster := { c with ready := all.take 256, ring := all.drop 256 }

/-- The ring of partition `p` laid out for its entries `new` where `old` stood: those that have left its front free their
granules, and each entry takes two (R179). -/
def State.layRing (s : State) (p cl : Nat) (old new : List Entry) : State :=
  let left := (old.takeWhile fun e => !(new.any fun x => x.seq == e.seq)).length
  let s := s.modCluster cl fun c =>
    { c with ringHead := c.ringHead.set 0 p ((c.ringHead.get 0 p + 2 * left) % (s.partReg p 0x811).toNat) }
  (List.range new.length).foldl (fun s i =>
    let e := new.getD i {}
    let put := fun (s : State) (j : Nat) (bs : List Byte) => s.performWrites p 0 none (writesAt (s.ringGranule p cl (2 * i + j)) bs) none
    put (put s 0 e.job.bytes) 1 e.rangeBytes) s

/-- Cluster `cl` with another list: its queue, and its rings in memory where they hold or held an entry (R179). -/
def State.setAll (s : State) (cl : Nat) (all : List Entry) : State :=
  let old := (s.cluster cl).ring
  let new := all.drop 256
  let s := if old = [] ∧ new = [] then s
    else [0, 1, 2, 3].foldl (fun s p => s.layRing p cl (entriesOf p old) (entriesOf p new)) s
  s.modCluster cl fun c => splitQueue c all

/-- An entry queued in cluster `cl`; none while the hold register is occupied and the enqueuer waits (R180). -/
def State.enqueue (s : State) (cl : Nat) (e : Entry) : Option State :=
  let c := s.cluster cl
  if c.hold.isSome then none
  else
    let (n, s) := s.freshNo
    let all := insertEntry { e with seq := n } (c.ready ++ c.ring)
    match all.getLast? with
    | none => none
    | some l =>
      let p := l.job.part
      let spilled := (entriesOf p (all.drop 256)).length
      if all.length ≤ 256 || s.ringRoom p cl spilled then some (s.setAll cl all)
      else
        let s := (s.setAll cl all.dropLast).modCluster cl fun c => { c with hold := some (l, s.now) }
        some (s.schedError (clusterDie cl) 3 (BitVec.ofNat 64 (s.ringGranule p cl (2 * spilled - 2))) l.job.tenant p)

/-- A record queued from its origin core: it walks first when HEN = 1 (R181, R444). -/
def State.queueRec (s : State) (core : Nat) (e : Entry) : Option State :=
  if e.job.hen then some { s with walks := s.walks ++ [{ job := e.job, core := core }] } else s.enqueue (clusterOf core) e

/-- The fate of a record found ill-formed when released (R170): not run, its group FAILED and LIVE lower by 1. -/
def State.illFormed (s : State) (r : Rec) (c : Nat) : State :=
  let s := match groupRef r.part r.tenant r.group with
    | some g => if s.groupOk r.part r.group then s.groupLater { ref := g, delta := -1, failed := true, core := c } else s
    | none => s
  s.schedError (dieOf c) 1 (BitVec.ofNat 64 r.addr) r.tenant r.part

/-- A record whose join counter has reached 0: checked and queued (R183). -/
def State.released (s : State) (r : Rec) (c : Nat) : Option State :=
  if s.recOk r [0, 1] then s.queueRec c { job := r } else some (s.illFormed r c)

/-- The JOIN step that a future, a card or a group sends to a record (R183, R198, R445). -/
def State.releaseStep (s : State) (x : Release) : Option State :=
  let bad := s.schedError (dieOf x.core) 4 (BitVec.ofNat 64 x.addr) x.tenant x.part
  if x.addr % 64 ≠ 0 then some bad
  else
    match s.hwPlace x.part x.tenant x.addr [1, 2, 4] with
    | none => some bad
    | some (key, keep, log) =>
      let s := s.fillFor key 64
      let j := s.num (key + 32) 4
      if j = 0 then
        let r := s.readRec key keep x.addr x.tenant x.part
        match groupRef x.part x.tenant r.group with
        | some g => some (if s.groupOk x.part r.group then s.groupLater { ref := g, delta := 0, failed := true, core := x.core } else s)
        | none => some s
      else
        let s := s.performWrites x.part x.tenant log (writesAt (key + 32) (toBytes 4 (j - 1))) none
        if j = 1 then s.released (s.readRec key keep x.addr x.tenant x.part) x.core else some s

/-- Whether a JOIN step from core `core` on the record at `addr` would queue it and finds the hold register occupied: a slot
that makes it is blocked, and a home that makes it performs nothing further (R180). -/
def State.releaseBlocked (s : State) (addr tenant part core : Nat) : Bool :=
  (s.cluster (clusterOf core)).hold.isSome && decide (addr % 64 = 0) &&
    (match s.hwPlace part tenant addr [1, 2, 4] with
      | none => false
      | some (key, keep, _) =>
        let r := s.readRec key keep addr tenant part
        r.join == 1#32 && s.recOk r [0, 1] && !r.hen)

/-- Whether home `h` has released a record, or completed the group that did, and waits to queue it (R180). -/
def State.homeHeld (s : State) (h : Nat) : Bool :=
  s.releases.any fun x => s.releaseBlocked x.addr x.tenant x.part x.core &&
    (x.home == some h || (s.hwPlace x.part x.tenant x.addr []).any fun y => homeOf y.1 == h)

/-- SPAWN's step on a record already read (R183), from core `c`: the value pushed and the state, none while the
enqueuer waits. -/
def State.spawnStep (s : State) (r : Rec) (c : Nat) : Option (Int × State) :=
  if !s.recOk r [0, 1] then some (-1, s)
  else
    let s := s.liveNow r.part r.tenant r.group 1 c
    if r.join = 0#32 then (s.queueRec c { job := r }).map fun s => (1, s) else some (0, s)

/-! ## Admission (R191, R193, R366) -/

/-- Reserved slots of class `cls` in cluster `cl` of partition `p`, lowest (core, slot) first. -/
def State.reservedIn (s : State) (p cls cl : Nat) : List Nat :=
  (List.range 96).filterMap fun i =>
    let g := cl * 96 + i
    if s.ownsCore p (coreOf g) && s.reservedSlots p cls / 2 ^ slotNo g % 2 = 1 then some g else none

/-- Slices queued on slot `g`. -/
def State.slicesOn (s : State) (g : Nat) : List Slice := s.slices.filter fun x => x.slot = g

/-- `dem(g, D)` of R193. -/
def State.demand (s : State) (g d : Nat) : Nat :=
  (if (s.slot g).admitted then (s.slot g).charge else 0) +
    (((s.slicesOn g).filter fun x => decide (x.job.deadline.toNat ≤ d)).map Slice.charge).sum

/-- `dem(g, D) <= cap(D)` for a deadline and every later one on `g` (R193). -/
def State.fits (s : State) (g d : Nat) : Bool :=
  let now := (s.cycle (dieOf (coreOf g))).toNat
  let ds := d :: ((s.slicesOn g).map fun x => x.job.deadline.toNat).filter fun x => decide (x > d)
  ds.all fun x => decide ((s.demand g x : Int) ≤ ((x : Int) - now) / 12)

/-- Slices bound together to the first reserved slot on which all fit (R193, R366). -/
def State.bindSlices (s : State) (new : List Slice) : List Nat → Option State
  | [] => none
  | g :: gs =>
    let held := (s.slicesOn g).length + (if (s.slot g).admitted then 1 else 0)
    let s' := { s with slices := s.slices ++ new.map fun x => { x with slot := g } }
    if held + new.length ≤ 32 ∧ new.all fun x => s'.fits g x.job.deadline.toNat then some s' else State.bindSlices s new gs

/-- Groups of slices admitted one after the other; none when one does not fit (R193). -/
def State.admitGroups (s : State) (p cls cl : Nat) : List (List Slice) → Option State
  | [] => some s
  | x :: xs =>
    match s.bindSlices x (s.reservedIn p cls cl) with
    | none => none
    | some s => State.admitGroups s p cls cl xs

/-- How many records a descriptor's header names (R188, R193): none when its count is outside `lo` to `hi`. -/
def descriptorCount (lo hi : Nat) (hdr : List Byte) : Nat :=
  let n := leAt hdr 0 2
  if lo ≤ n ∧ n ≤ hi then n else 0

/-- Whether a SUBMIT descriptor is well-formed (R193): its header's bytes and its records. -/
def State.submitOk (s : State) (hdr : List Byte) (recs : List Rec) : Bool :=
  let n := leAt hdr 0 2
  let h := leAt hdr 8 8
  decide (1 ≤ n) && decide (n ≤ 64) && decide (h ≠ 0) && leAt hdr 2 6 == 0 && leAt hdr 16 48 == 0 &&
  recs.all fun r => s.recOk r [0] && r.join = 0#32 && !r.hen && r.deadline ≠ background && r.budget ≠ 0#32 &&
    r.group.toNat == h

/-- The earliest deadline of a group's records (R412). -/
def firstDeadline (recs : List Rec) : Nat := (recs.map fun r => r.deadline.toNat).foldl Nat.min (2 ^ 64 - 1)

/-- SUBMIT's test on a descriptor already read (R193): the value pushed and the state. -/
def State.submitStep (s : State) (p t cl gslot : Nat) (hdr : List Byte) (recs : List Rec) : Int × State :=
  if !s.submitOk hdr recs then (-1, s)
  else
    let cls := s.tenantClass p t
    let group := leAt hdr 8 8
    let dl := firstDeadline recs
    match s.admitGroups p cls cl (recs.map fun r => [{ slot := 0, job := r, charge := r.budget.toNat + 16 }]) with
    | none => (0, (s.journalNew p group dl 0 t gslot 4).2)
    | some s' =>
      match s'.journalNew p group dl 0 t gslot 0 with
      | (none, _) => (0, s)
      | (some seq, s') =>
        let ref : GroupRef := { part := p, tenant := t, offset := group }
        (seq, s'.groupNow { ref := ref, delta := recs.length, submitted := true, seq := some (BitVec.ofNat 64 seq),
                            core := 8 * cl })

/-! ## The enqueue window (R190) -/

/-- The result word that a window operation leaves (R190). -/
def State.setWindow (s : State) (cl t : Nat) (submit : Bool) (v : Int) : State :=
  s.modCluster cl fun c =>
    if submit then { c with winSubmit := c.winSubmit.set 0#64 t (u64 v) } else { c with winSpawn := c.winSpawn.set 0#64 t (u64 v) }

/-- The error record of a window operation that meets a fault (R190). -/
def State.windowFault (s : State) (cl t : Nat) (addr : U64) (submit : Bool) : State :=
  let p := s.partOf (8 * cl)
  (s.schedError (clusterDie cl) 4 addr t p).setWindow cl t submit (-1)

/-- A store of `addr` at offset 0 of a window block: SPAWN of the record there (R190). -/
def State.windowSpawn (s : State) (cl t : Nat) (addr : U64) : Option State :=
  let p := s.partOf (8 * cl)
  let a := addr.toNat
  if a % 64 ≠ 0 ∨ a ≥ 2 ^ 52 then some (s.windowFault cl t addr false)
  else
    match s.hwPlace p t a [1, 2, 4] with
    | none => some (s.windowFault cl t addr false)
    | some (key, keep, _) =>
      let s := s.fillFor key 64
      (s.spawnStep (s.readRec key keep a t p) (8 * cl)).map fun x => x.2.setWindow cl t false x.1

/-- The records of a descriptor at GLOBAL address `a`, `n` of them from number `i`, absent granules filled (R220); none when
one cannot be read. -/
def State.hwRecs (s : State) (p t a : Nat) : Nat → Nat → Option (List Rec × State)
  | 0, _ => some ([], s)
  | n + 1, i =>
    match s.hwPlace p t (a + 64 * i) [1] with
    | none => none
    | some (key, keep, _) =>
      let s := s.fillFor key 64
      match State.hwRecs s p t a n (i + 1) with
      | none => none
      | some (rs, s) => some (s.readRec key keep (a + 64 * i) t p :: rs, s)

/-- A store at offset 8 of a window block: SUBMIT of the descriptor there (R190); none while the enqueuer waits (R180). -/
def State.windowSubmit (s : State) (cl t : Nat) (addr : U64) : Option State :=
  let p := s.partOf (8 * cl)
  let a := addr.toNat
  if (s.cluster cl).hold.isSome then none
  else if a % 64 ≠ 0 ∨ a ≥ 2 ^ 52 then some (s.windowFault cl t addr true)
  else
    match s.hwPlace p t a [1] with
    | none => some (s.windowFault cl t addr true)
    | some (key, _, _) =>
      let s := s.fillFor key 64
      let hdr := s.bytes key 64
      match s.hwRecs p t a (descriptorCount 1 64 hdr) 1 with
      | none => some (s.windowFault cl t addr true)
      | some (recs, s) =>
        let (v, s) := s.submitStep p t cl noSlot hdr recs
        some (s.setWindow cl t true v)

end Sys2Proof.Machine
end

