-- ==== Sys2Proof/Machine/Flight.lean ====
section
/-!
DEFINITION. Accesses between their issue and their home: what a home performs (R21, R146, R147), the order of one
slot's accesses (R149, R242), the holds of fences (R245), the footprint edges of a slot's own cards (R249), the
latent buffer of a surrogate tile (R368), mailboxes (R134), device registers (R162), and the loads and stores
that instructions are made of.
-/

namespace Sys2Proof.Machine

/-! ## Device registers -/

/-- The 8-byte word `i` of a layer descriptor (R376). -/
def Layer.word (l : Layer) (i : Nat) : Nat :=
  let capW := fun (k : Cap) (j : Nat) => k.bits.toNat / 2 ^ (64 * j) % 2 ^ 64
  match i with
  | 0 => capW l.fcol 0
  | 1 => capW l.fcol 1
  | 2 => capW l.fdep 0
  | 3 => capW l.fdep 1
  | 4 => capW l.bcol 0
  | 5 => capW l.bcol 1
  | 6 => capW l.bdep 0
  | 7 => capW l.bdep 1
  | 8 => l.lights.toNat
  | 9 => l.render.toNat
  | 10 => l.w.toNat + 2 ^ 16 * l.h.toNat + 2 ^ 32 * l.ox.toNat + 2 ^ 48 * l.oy.toNat
  | 11 => l.vx.toNat + 2 ^ 16 * l.vy.toNat + 2 ^ 32 * l.age.toNat + 2 ^ 48 * l.kpar.toNat
  | 12 => l.q.toNat + 2 ^ 32 * l.e.toNat
  | 13 =>
    l.price.toNat + 2 ^ 32 * ((if l.req then 1 else 0) + (if l.busy then 2 else 0) + (if l.flip then 4 else 0) +
      8 * l.view.toNat + 2 ^ 9 * l.slot.toNat)
  | _ => 0

/-- The layer in slot `i` of a view; 0xFFFF for an empty slot (R377). -/
def View.slotAt (v : View) (i : Nat) : Nat := v.slots.get 0xFFFF i

/-- The 8-byte word `i` of a view descriptor (R377). -/
def View.word (v : View) (i : Nat) : Nat :=
  let capW := fun (k : Cap) (j : Nat) => k.bits.toNat / 2 ^ (64 * j) % 2 ^ 64
  if i = 0 then capW v.ocol 0
  else if i = 1 then capW v.ocol 1
  else if i = 2 then capW v.ord 0
  else if i = 3 then capW v.ord 1
  else if i = 4 then v.vw.toNat + 2 ^ 16 * v.vh.toNat + 2 ^ 32 * v.bg.toNat
  else if i = 5 then v.dline.toNat
  else if i = 6 then v.frame.toNat
  else if i = 7 then v.newSlots.toNat
  else if i < 24 then
    let b := 4 * (i - 8)
    v.slotAt b + 2 ^ 16 * v.slotAt (b + 1) + 2 ^ 32 * v.slotAt (b + 2) + 2 ^ 48 * v.slotAt (b + 3)
  else if i = 24 then v.qhead.toNat
  else if i = 25 then v.qtail.toNat
  else if 32 ≤ i ∧ i < 64 then
    (v.lights.get 0#24 (2 * (i - 32))).toNat + 2 ^ 32 * (v.lights.get 0#24 (2 * (i - 32) + 1)).toNat
  else if 64 ≤ i ∧ i < 192 then
    let q := v.queue.get (0#64, 0) ((i - 64) / 2)
    if i % 2 = 0 then q.1.toNat else q.2
  else 0

/-- What a load of `n` bytes at a device offset returns (R162, R190, R378). -/
def State.deviceRead (s : State) (off n : Nat) : Nat :=
  match devRegion off with
  | some (.mbx c i) => if i = 8 then (s.core c).mbxp.toNat else ((s.core c).mbx.get 0#64 i).toNat
  | some (.window cl t o) =>
    if o = 0x10 then ((s.cluster cl).winSubmit.get 0#64 t).toNat
    else if o = 0x18 then ((s.cluster cl).winSpawn.get 0#64 t).toNat
    else 0
  | some (.layer i o) =>
    let l := s.layers.get {} i
    l.word (o / 8) + (if n = 16 then 2 ^ 64 * l.word (o / 8 + 1) else 0)
  | some (.view i o) =>
    let v := s.views.get {} i
    v.word (o / 8) + (if n = 16 then 2 ^ 64 * v.word (o / 8 + 1) else 0)
  | none => 0

/-! ## Mailboxes (R134) -/

/-- Whether mailbox `i` of core `c` is empty and no write waits for it. -/
def State.mailboxFree (s : State) (c i : Nat) : Bool := !bitAt (s.core c).mbxp i && ((s.core c).mbxHeld.get [] i).isEmpty

/-- A write arriving at mailbox `i` of core `c`: stored when nothing stands in its way, else held. -/
def State.mailboxArrive (s : State) (c i : Nat) (w : MbxWrite) : State :=
  s.modCore c fun x =>
    if !bitAt x.mbxp i && (x.mbxHeld.get [] i).isEmpty then
      { x with mbx := x.mbx.set 0#64 i w.v, mbxp := x.mbxp ||| BitVec.ofNat 8 (2 ^ i) }
    else { x with mbxHeld := x.mbxHeld.set [] i (x.mbxHeld.get [] i ++ [w]) }

/-- Bits of MBXP cleared: the values are discarded (R134). -/
def State.mbxpWrite (s : State) (c : Nat) (m : BitVec 8) : State := s.modCore c fun x => { x with mbxp := x.mbxp &&& ~~~m }

/-! ## Cards in flight -/

/-- STATE of a card that a slot issued, stored at A + 2 (R317, R323): one byte, or two with ERR. A place that the step
cannot use stays as it is. -/
def State.cardState (s : State) (c : Card) (bs : List Byte) : State :=
  if c.issuer.isNone then s
  else
    match s.hwPlace c.part c.tenant (c.addr + 2) [2] with
    | some (key, _, va) => s.performWrites c.part c.tenant va (writesAt key bs) none
    | none => s

/-- The outstanding cards of the task on slot `g` (R249): they follow the task when it is saved (R247). -/
def State.cardsOf (s : State) (g : Nat) : List Card := s.cards.filter fun c => c.issuer.any fun i => i.2 == (s.slot g).tid

/-- Whether access or card number `id` is still to be performed. -/
def State.pending (s : State) (id : Nat) : Bool := (s.flight.any fun a => a.id == id) || (s.cards.any fun c => c.id == id)

/-- The keys under which the scoreboards and a tile's view know a REMOTE address and a DEVICE offset: no memory has them. -/
def remoteKey (cur : Nat) : Nat := 2 ^ 64 + cur
def deviceKey (off : Nat) : Nat := 2 ^ 65 + off

/-- Where the scoreboards look for a place: whether by GLOBAL address, and the first byte (R168, R249). -/
def Place.scored : Place → Option (Bool × Nat)
  | .mem key _ none => some (false, key)
  | .mem _ _ (some va) => some (true, va)
  | .remote cur => some (false, remoteKey cur)
  | .device _ => none

/-- The cards of slot `g` with a region that meets `n` bytes at a place; `writes` for a write region only. -/
def State.cardsAt (s : State) (g : Nat) (p : Place) (n : Nat) (writes : Bool) : List Nat :=
  match p.scored with
  | none => []
  | some (gl, lo) =>
    ((s.cardsOf g).filter fun c => c.regions.any fun r => (!writes || r.write) && r.meets gl lo n).map Card.id

/-! ## What a slot sees of its tile (R368) -/

/-- The tile whose latent writes the slot sees, in a surrogate or check phase. -/
def Slot.tile? (x : Slot) : Option Nat :=
  match x.phase with
  | .surrogate t => some t
  | .check t _ => some t
  | _ => none

/-- The tile that slot `x` runs, if it runs one. -/
def State.tileOf (s : State) (x : Slot) : Option Tile := x.tile?.bind fun t => s.tiles.find? fun y => y.id == t

/-- The latest write of a list of latent accesses to a byte. -/
def latentByte (l : List Access) (key : Nat) : Option Byte := ((l.flatMap Access.writes).reverse.find? fun w => w.1 == key).map Prod.snd

/-- A byte as slot `x` reads it: its tile's latest latent write, or the byte at its home. -/
def State.viewByte (s : State) (x : Slot) (key : Nat) : Byte :=
  match s.tileOf x with
  | none => s.byte key
  | some t => (latentByte t.latent key).getD (s.byte key)

/-- Bytes as slot `x` reads them. -/
def State.view (s : State) (x : Slot) (key n : Nat) : List Byte := (List.range n).map fun i => s.viewByte x (key + i)

/-- Bytes as an access reads them that a tile's code issued, whatever phase that tile has come to (R368). -/
def State.accessBytes (s : State) (tile : Option Nat) (key n : Nat) : List Byte :=
  match tile.bind fun t => s.tiles.find? fun y => y.id == t with
  | none => s.bytes key n
  | some t => (List.range n).map fun i => (latentByte t.latent (key + i)).getD (s.byte (key + i))

/-- A value of `n` bytes read from a device or another package, under the latent writes of slot `x` (R368). -/
def State.viewOver (s : State) (x : Slot) (key n v : Nat) : Nat :=
  match s.tileOf x with
  | none => v
  | some t => ofBytes ((List.range n).map fun i => (latentByte t.latent (key + i)).getD (BitVec.ofNat 8 (v / 2 ^ (8 * i))))

/-! ## Finding a task -/

/-- The slot of a saved state changed. -/
def Entry.modSaved (e : Entry) (tid : Nat) (f : Slot → Slot) : Entry :=
  { e with cont := e.cont.map fun c => if c.slot.tid = tid then { c with slot := f c.slot } else c }

/-- The registers of task `tid` changed, in its slot or in its saved state; nothing when it has ended. -/
def State.modTask (s : State) (tid : Nat) (f : Slot → Slot) : State :=
  match s.slots.find? fun x => x.2.tid == tid && x.2.live with
  | some x => s.modSlot x.1 f
  | none =>
    { s with
      clusters := s.clusters.map fun x =>
        (x.1, { x.2 with ready := x.2.ready.map fun e => e.modSaved tid f
                         ring := x.2.ring.map fun e => e.modSaved tid f
                         hold := x.2.hold.map fun h => (h.1.modSaved tid f, h.2) })
      cores := s.cores.map fun x => (x.1, { x.2 with localQ := x.2.localQ.map fun e => e.modSaved tid f })
      savedZero := s.savedZero.map fun x => (x.1, if x.2.slot.tid = tid then { x.2 with slot := f x.2.slot } else x.2) }

/-! ## Performing an access -/

/-- The fate of a message to package `pkg` from a core of die `d` (R160, R420): whether it fails there. -/
def State.remoteFails (s : State) (d pkg : Nat) : Bool :=
  let f := Config.remoteFate s.tick
  !s.routeUp d pkg || f == 1 || f == 2 || f == 3

/-- Bytes of tile `z` written from offset `off`. -/
def Quad.setTileBytes (q : Quad) (z off : Nat) (bs : List Byte) : Quad :=
  let t := q.tiles.get {} z
  let m := (List.range bs.length).foldl (fun (m : SMap Byte) i => m.set 0#8 (off + i) (bs.getD i 0#8)) t.bytes
  { q with tiles := q.tiles.set {} z { t with bytes := m } }

/-- A poisoned line that a piece of the ZLD of tile `z` met (R299): its address, the first one only. -/
def Quad.noteBad (q : Quad) (z pa : Nat) : Quad :=
  { q with zlds := q.zlds.map fun j => if j.z = z then { j with bad := some (j.bad.getD pa) } else j }

/-- A count sent on its way back to its slot, on the response channel of its class (R160, R161, R407). -/
def State.sendBack (s : State) (r : Return) (p t home : Nat) : State :=
  let id := s.fresh
  { s with fresh := s.fresh + 1, returns := s.returns ++ [{ r with id := id }] }.post id (s.messageClass p t none) true home r.core
    (s.pathFrom home r.core)

/-- The number of service firmware as one that sends accesses: no slot has it. -/
def serviceSlot : Nat := 0x1FFD

/-- The core from which an access comes: the host stands at die 0's first (R141). -/
def Access.origin (a : Access) : Nat := if a.slot < 7680 then coreOf a.slot else a.core

/-- The class on whose channels an access and its response travel (R407): class 3 for hardware, firmware and the host's stores
(DESIGN CHOICE for the last, log 30), a window store of the host apart. -/
def State.accessClass (s : State) (a : Access) : Nat :=
  match a.kind with
  | .window .. => s.messageClass a.part a.tenant (some a.kind)
  | k => if a.slot < 7680 then s.messageClass a.part a.tenant (some k) else hardwareClass

/-- What waits for the response of an access: an instruction that loads, by its number (R279, R299); nothing waits for a store's. -/
def Access.awaited (a : Access) : Option (Nat × AckKind) :=
  match a.kind with
  | .zpiece .. | .elem .. => some (a.instr, .data)
  | _ => none

/-- The response of an access that has been performed, on its way (R407). -/
def State.answer (s : State) (a : Access) : State :=
  s.respond a.home a.origin (s.accessClass a) (s.pathFrom a.home a.origin ++ if a.slot = hostSlot then [hostLink] else []) a.awaited

/-- The response of an access performed: for an RST, or an AMSG to another package, the count that returns (R160, R161). Slots 0
and 11 count against no group. -/
def State.sendReturn (s : State) (a : Access) (failed : Bool) : State :=
  if a.rst then
    let ref := if slotNo a.slot = 0 ∨ slotNo a.slot = 11 then none else groupRef a.part a.tenant a.group
    s.sendBack { id := 0, slot := a.slot, tid := a.tid, core := coreOf a.slot, ref := ref, failed := failed } a.part a.tenant a.home
  else s.answer a

/-- The scoreboards' key of a place (R249). -/
def Place.key : Place → Nat
  | .mem key _ _ => key
  | .remote cur => remoteKey cur
  | .device off => deviceKey off

/-- What an element of a load returns to its slot, if that still waits for it (R242). -/
def State.elemBack (s : State) (a : Access) (f : ElemJob → ElemJob) : State :=
  if (s.slot a.slot).tid = a.tid then s.modSlot a.slot fun x => { x with elems := x.elems.map f } else s

/-- Whether memory at `key` is the host's and cannot be reached: its link has no module left (R416). -/
def State.hostGone (s : State) (key : Nat) : Bool := decide (2 ^ 63 ≤ key) && s.hostDown == 15#4

/-- The first poisoned line among `n` bytes from `key` that a read of a tile's code finds (R428): not one of which it sees its own
latent writes alone (R368). -/
def State.poisonSeen (s : State) (tile : Option Nat) (key n : Nat) : Option Nat :=
  match s.poisonIn key n, tile.bind fun t => s.tiles.find? fun y => y.id == t with
  | none, _ => none
  | some k, none => some k
  | some _, some t => (List.range n).findSome? fun i =>
      if s.poisoned (key + i) && (latentByte t.latent (key + i)).isNone then some ((key + i) / 64 * 64) else none

/-- The first line among `n` bytes from `key` that a read finds poisoned (R428), or that no link reaches (R416). -/
def State.badIn (s : State) (tile : Option Nat) (key n : Nat) : Option Nat := if s.hostGone key then some key else s.poisonSeen tile key n

/-- A value of `n` bytes read from a device or another package as an access reads it that a tile's code issued: under that tile's
latent writes (R368). -/
def State.accessOver (s : State) (tile : Option Nat) (key n v : Nat) : Nat :=
  match tile.bind fun t => s.tiles.find? fun y => y.id == t with
  | none => v
  | some t => ofBytes ((List.range n).map fun i => (latentByte t.latent (key + i)).getD (BitVec.ofNat 8 (v / 2 ^ (8 * i))))

/-- What the element `a` of a load, `n` bytes at scoreboard key `key`, reads at its home: a value, or the trap that it raises (R148,
R162, R420; what another package answers is free, log 6). -/
def State.elemRead (s : State) (a : Access) (key n : Nat) : Except (Cause × U64) Nat × State :=
  if 2 ^ 65 ≤ key then (.ok (s.accessOver a.tile key n (s.deviceRead (key - deviceKey 0) n)), s)
  else if 2 ^ 64 ≤ key then
    let cur := key - remoteKey 0
    let f := Config.remoteFate s.tick
    let v := s.accessOver a.tile key n (Config.remoteData s.tick % 2 ^ (8 * n))
    let up := s.routeUp (dieOf a.origin) (cur / 2 ^ 43)
    (if !up || f == 3 then .error (.mcheck, u64 cur) else if f == 1 then .error (.xlate, u64 cur)
      else if f == 2 then .error (.xperm, u64 cur) else .ok v, { s with tick := s.tick + 1 })
  else
    let s := s.fillFor key n
    (match s.badIn a.tile key n with
      | some k => .error (.mcheck, u64 (physOf k))
      | none => .ok (ofBytes (s.accessBytes a.tile key n)), s)

/-- A store: performed, or, when the host cannot be reached, MCHECK in its task at its next issue (R416). -/
def State.performStore (s : State) (a : Access) : State :=
  match a.writes.find? fun w => s.hostGone w.1 with
  | some w => s.modTask a.tid fun x => { x with mcheck := some (u64 (physOf w.1)) }
  | none => s.performWrites a.part a.tenant a.va a.writes a.tagKey

/-- What an access does at its home; none while the home cannot perform it: a mailbox that is full (R134), a cluster
whose enqueuers wait (R180). A store to a full mailbox arrives there and is held, and its access stays in flight. -/
def State.perform (s0 : State) (a : Access) : Option State :=
  let s := { s0 with flight := s0.flight.filter fun x => x.id ≠ a.id }
  match a.kind with
  | .store => some ((s.performStore a).sendReturn a false)
  | .remote | .amsg => some ({ s with tick := s.tick + 1 }.sendReturn a (s.remoteFails (dieOf (coreOf a.slot)) (a.home - 10000)))
  | .zpiece q z off key n =>
    let s := s.fillFor key n
    let bs := s.accessBytes a.tile key n
    some ((match s.badIn a.tile key n with
      | some k => s.modQuad q fun y => y.noteBad z (physOf k)
      | none => s.modQuad q fun y => y.setTileBytes z off bs).answer a)
  | .elem i key n =>
    let r := s.elemRead a key n
    some ((r.2.elemBack a fun j => match r.1 with
      | .error e => { j with bad := some (j.bad.getD e) }
      | .ok v => { j with got := j.got.put i v }).answer a)
  | .mailbox c i v =>
    if i = 8 then some ((s.mbxpWrite c (v.setWidth 8)).sendReturn a false)
    else if s.mailboxFree c i then some ((s.mailboxArrive c i { v := v }).sendReturn a false)
    else some (s0.mailboxArrive c i { v := v, store := some a.id })
  | .window cl t off v =>
    let r := if off = 0 then s.windowSpawn cl t v else if off = 8 then s.windowSubmit cl t v else some s
    r.map fun s => s.sendReturn a false
  | .journal seq st => some ((s.journalState a.part seq st).answer a)

/-- Whether a message of slot `g` to home `h` is out whose number is below `id`: sent, waiting or running (R250). -/
def State.messageTo (s : State) (g h id : Nat) : Bool :=
  let x := s.slot (12 * nodeOfHome h + 11)
  (s.amsgs.any fun m => m.slot == g && m.home == h && decide (m.id < id)) ||
  ((s.core (nodeOfHome h)).amsgs.any fun m => m.slot == g && m.home == h && decide (m.id < id)) ||
  (x.live && x.msg.any fun r => r.slot == g && r.home == h && decide (r.id < id))

/-- Whether a step of core `c` on `n` bytes at `key` may be performed at their home now: it is not held (R180), the message thread
that the step may need is free (R12, R149), and no fill that waits for a card comes first (R220, R221). -/
def State.stepAt (s : State) (c key n : Nat) : Bool :=
  !s.homeHeld (homeOf key) && s.threadFree c (homeOf key) false && !s.fillWaits key n

/-- As `stepAt`, for a hardware step on `n` bytes at GLOBAL address `va`; one whose target cannot be used waits for nothing. -/
def State.stepReady (s : State) (c p t va n : Nat) : Bool := (s.hwPlace p t va []).all fun x => s.stepAt c x.1 n

/-- Whether an access stands at its mailbox already, held there (R134). -/
def State.heldThere (s : State) (a : Access) : Bool :=
  match a.kind with
  | .mailbox c i _ => ((s.core c).mbxHeld.get [] i).any fun w => w.store == some a.id
  | _ => false

/-- The bytes of memory that an access touches at its home: key and length. -/
def Access.bytesAt (a : Access) : Option (Nat × Nat) :=
  match a.kind with
  | .zpiece _ _ _ key n | .elem _ key n => some (key, n)
  | _ => a.writes.head?.map fun w => (w.1, a.writes.length)

/-- Whether an access may be performed now, its slot's other accesses apart: it has arrived (R407), its holds are over
(R245), no message of its slot to the same home comes before it (R250), its home is not held (R180), the message thread
it needs is free (R12), and no fill that it needs waits for a card (R221). -/
def State.mayArrive (s : State) (a : Access) : Bool :=
  !s.crossing a.id && (a.holds.all fun h => !s.pending h) && !s.messageTo a.slot a.home a.id && !s.homeHeld a.home &&
    s.threadFree a.origin a.home a.rst && !s.heldThere a && a.bytesAt.all fun k => !s.fillWaits k.1 k.2

/-- Whether an access has come to the mailbox at which `x` is held: they take their places there (R134). -/
def State.queuesBehind (s : State) (a x : Access) : Bool :=
  match a.kind, x.kind with
  | .mailbox c i _, .mailbox c' i' _ => c == c' && i == i' && decide (i < 8) && s.heldThere x
  | _, _ => false

/-- Whether an access may be performed now: no earlier access of its slot goes to the same home either (R149). -/
def State.mayPerform (s : State) (a : Access) : Bool :=
  s.mayArrive a && !(s.flight.any fun x => x.slot == a.slot && x.home == a.home && decide (x.id < a.id) && !s.queuesBehind a x)

/-! ## Arrival (R407) -/

/-- The task that runs in slot `g`, or that resumes there: a slot 0 that was saved has not stopped (R96, R218). -/
def State.runs (s : State) (g : Nat) : Option Nat :=
  if (s.slot g).live then some (s.slot g).tid
  else if (s.slot g).halted then none
  else (s.savedZero.find? fun x => x.1 == g).map fun x => x.2.slot.tid

/-- Message number `id` has crossed its last link: an NWR stands at its target, behind those that came before it, and finds
the task that runs there (R95, R96); a message stands before slot 11 of its core (R12). Anything else is performed by
events of its own. -/
def State.landed (s : State) (id : Nat) : State :=
  match s.nwrs.find? (fun r => r.id == id), s.amsgs.find? fun m => m.id == id with
  | some r, _ => { s with nwrs := s.nwrs.erase r ++ [{ r with tid := some ((s.runs r.dst).getD 0) }] }
  | none, some m => { s with amsgs := s.amsgs.erase m }.modCore m.core fun c => { c with amsgs := c.amsgs ++ [m] }
  | none, none => s

/-! ## Several accesses at once -/

/-- The accesses performed one after the other; none when one cannot be performed, or is held at its mailbox (R134). -/
def State.performAll (s : State) : List Access → Option State
  | [] => some s
  | a :: as =>
    if s.mayArrive a then
      match s.perform a with
      | some s' => if s'.flight.any fun x => x.id == a.id then none else State.performAll s' as
      | none => none
    else none

/-- The accesses of slot `g` that satisfy `f`, and those to the same homes before them, in issue order. -/
def State.upToLast (s : State) (g : Nat) (f : Access → Bool) : List Access :=
  let mine := s.flight.filter fun a => a.slot == g
  mine.filter fun a => mine.any fun b => f b && b.home == a.home && decide (a.id ≤ b.id)

/-- Those accesses performed (R242: each comes before what the slot does next); the slot waits while one cannot be. -/
def force (f : Access → Bool) : Exec Unit := do
  let s ← get
  match s.performAll (s.upToLast s.cur f) with
  | some s' => set s'
  | none => block

/-- The slot's earlier accesses to home `h` performed (R149), its messages to it too (R250). -/
def forceHome (h : Nat) : Exec Unit := do
  let s ← get
  await (!s.messageTo s.cur h s.fresh)
  force fun a => a.home == h

/-- A home may perform a blocking access of the slot: it is not held (R180), and the message thread that the access needs is
free (R12, R149). -/
def homeReady (h : Nat) : Exec Unit := do
  let s ← get
  await (!s.homeHeld h && s.threadFree (coreOf s.cur) h false)

/-! ## Fences (R245) -/

/-- The read cache of the current core emptied (R156): what FENCE.acq does. -/
def acquire : Exec Unit := modify fun s => s.modCore (coreOf s.cur) fun c => { c with rcache := [] }

/-- FENCE.rel at scope `sc`: later releasing operations of the slot wait for its accesses so far, RST and messages to other
packages apart (R246, R250). -/
def fenceRel (sc : Nat) : Exec Unit := do
  let s ← get
  let h := (s.flight.filter fun a => a.slot == s.cur && !a.rst && inScope sc s.cur a.home).map Access.id
  modSlot fun x => { x with relHold := (x.relHold.filter s.pending) ++ (h.filter fun i => !x.relHold.contains i) }

/-- The holds that a releasing operation of the slot takes with it. -/
def relHolds : Exec (List Nat) := do
  let s ← get
  pure ((s.slot s.cur).relHold.filter s.pending)

/-- A releasing operation that blocks waits for its holds (R245). -/
def releaseWait : Exec Unit := do
  let hs ← relHolds
  force fun a => hs.contains a.id

/-- An operation that acts with a release at scope `sc` (R172, R231, R239). -/
def releaseAt (sc : Nat) : Exec Unit := do
  fenceRel sc
  releaseWait

/-! ## Latent mode (R368) -/

/-- A forbidden instruction fails the tile (R368). -/
def notLatent : Exec Unit := do
  let x ← getSlot
  match x.tile? with
  | some _ => throw (Stop.fail 6)
  | none => pure ()

/-- A granule's tag as slot `x` reads it. -/
def State.viewTag (s : State) (x : Slot) (key : Nat) : Bool :=
  match s.tileOf x with
  | none => s.tagAt key
  | some t =>
    t.latent.foldl (fun (b : Bool) a =>
      if a.writes.any fun w => w.1 / 16 == key / 16 then a.tagKey == some (key / 16 * 16) else b) (s.tagAt key)

/-! ## Loads -/

/-- In slot 11, an access that would wait on another message thread raises XPERM (R151). -/
def notAcrossDies (home v : Nat) : Exec Unit := do
  let s ← get
  require (slotNo s.cur ≠ 11 || dieOfHome home == dieOf (coreOf s.cur)) .xperm (u64 v)

/-- What a read at a place waits for: cards of the slot that write there (R249), and its own earlier accesses to the
same home (R149). -/
def beforeRead (p : Place) (n : Nat) : Exec Unit := do
  let s ← get
  await (s.cardsAt s.cur p n true).isEmpty
  forceHome p.home
  homeReady p.home

/-- The bytes of memory at `key` as the slot reads them, once a fill has brought absent ones back (R220); a poisoned line
raises MCHECK (R148, R428). -/
def readBytes (key n : Nat) : Exec (List Byte) := do
  let s0 ← get
  await (!s0.fillWaits key n)
  modify fun s => s.fillFor key n
  let s ← get
  match s.poisonSeen (s.slot s.cur).tile? key n with
  | some k => trap .mcheck (u64 (physOf k))
  | none => pure (s.view (s.slot s.cur) key n)

/-- An object of `n` bytes read in one step, with its tags. -/
def look (r : RecordAt) (n : Nat) : Exec Seen := do
  let bs ← readBytes r.key n
  let s ← get
  pure { loc := r, bytes := bs, tags := (List.range (n / 16)).map fun i => r.keep && s.tagAt (r.key + 16 * i) }

/-- What step `i` of the slot's instruction has read, once it has been made. -/
def Slot.saw (x : Slot) (i : Nat) : Option Seen := (x.seen.find? fun e => e.1 == i).map Prod.snd

/-- Step `i` of an instruction that makes several, each at one instant (R240): what it has read is kept, and the instruction goes on in
the slot's next turn. A slot that stops in between starts again at the first. -/
def inStep (i : Nat) (m : Exec Seen) : Exec Seen := do
  let x ← getSlot
  match x.saw i with
  | some o => pure o
  | none => do
    let o ← m
    modSlot fun y => { y with seen := y.seen ++ [(i, o)] }
    let s ← get
    throw (Stop.again s)

/-- What the steps of the instruction have read is given up: it has made its last, or starts again. -/
def forget : Exec Unit := modSlot fun x => { x with seen := [] }

/-- The instruction makes its steps again from the first. -/
def readAgain : Exec Unit := do
  forget
  let s ← get
  throw (Stop.again s)

/-- A blocking access to another package's home `h` has been sent, and its answer has come (R147, R418). -/
def remoteRound (h : Nat) : Exec Unit := do
  let s ← get
  match (s.slot s.cur).far with
  | some (k, id) =>
    if k = h then await (!s.crossing id) else throw (Stop.request h)
    modSlot fun x => { x with far := none }
  | none => throw (Stop.request h)

/-- The far package's answer to a blocking access at `cur` (R148, R420): free, a fault, or MCHECK. -/
def remoteAnswer (cur n : Nat) : Exec Nat := do
  let s ← get
  require (s.routeUp (dieOf (coreOf s.cur)) (cur / 2 ^ 43)) .mcheck (u64 cur)
  remoteRound (remoteHome (cur / 2 ^ 43))
  let s ← get
  set { s with tick := s.tick + 1 }
  match Config.remoteFate s.tick with
  | 1 => trap .xlate (u64 cur)
  | 2 => trap .xperm (u64 cur)
  | 3 => trap .mcheck (u64 cur)
  | _ => pure (Config.remoteData s.tick % 2 ^ (8 * n))

/-- A read of `n` bytes at a place. -/
def readPlace (p : Place) (n : Nat) : Exec Nat := do
  beforeRead p n
  match p with
  | .mem key _ _ => do
    let bs ← readBytes key n
    pure (ofBytes bs)
  | .device off => do
    let s ← get
    pure (s.viewOver (s.slot s.cur) (deviceKey off) n (s.deviceRead off n))
  | .remote cur => do
    let v ← remoteAnswer cur n
    let s ← get
    pure (s.viewOver (s.slot s.cur) (remoteKey cur) n v)

/-- The place of an access of the current slot after every check before translation and translation itself. -/
def place (k : Cap) (v : Int) (n : Nat) (nd : Need) (bits : List Nat) : Exec Place := do
  let a ← checkCap k v n nd
  let s ← get
  locate (s.who s.cur) k.space a n bits

/-- A load of `n` bytes through a capability (R146, R147). -/
def loadAny (k : Cap) (v : Int) (n : Nat) (nd : Need) (bits : List Nat) : Exec Nat := do
  let p ← place k v n nd bits
  readPlace p n

/-- A load that slot 11 may not send across a die boundary (R151). -/
def loadVia (k : Cap) (v : Int) (n : Nat) (nd : Need) (bits : List Nat) : Exec Nat := do
  let p ← place k v n nd bits
  notAcrossDies p.home v.toNat
  readPlace p n

/-! ## Stores -/

/-- Stores of slot `g` that are outstanding, counted by instruction (R147). -/
def State.outstanding (s : State) (g : Nat) : Nat :=
  ((s.flight.filter fun a =>
      a.slot == g && (match a.kind with | .zpiece .. | .elem .. | .amsg => false | _ => true)).map
    Access.instr).eraseDups.length

/-- A store waits while 16 are outstanding (R147). -/
def storeSlot : Exec Unit := do
  let s ← get
  match (s.slot s.cur).tile? with
  | some _ => pure ()
  | none => await (decide (s.outstanding s.cur < 16))

/-- An access of the current slot, of instruction number `instr`. -/
def mkAccess (s : State) (id instr : Nat) (kind : AccessKind) (home : Nat) (ws : List (Nat × Byte)) (tagKey : Option Nat)
    (holds : List Nat) (va : Option Nat) (rst : Bool) : Access :=
  let x := s.slot s.cur
  { id := id, slot := s.cur, tid := x.tid, instr := instr, kind := kind, rst := rst, home := home, writes := ws, tagKey := tagKey,
    holds := holds, tenant := x.tenant, part := s.partOfSlot s.cur, group := x.group, va := va, tile := x.tile? }

/-- An access on its way to its home, on the channel of its class (R147, R407). -/
def State.launchAccess (s : State) (a : Access) : State :=
  { s with flight := s.flight ++ [a] }.post a.id (s.accessClass a) false a.slot a.home
    (s.pathTo a.origin a.home)

/-- An access sent towards its home, or recorded in the tile's latent buffer (R147, R368): `n` bytes. -/
def send (instr : Nat) (kind : AccessKind) (home : Nat) (ws : List (Nat × Byte)) (tagKey : Option Nat) (holds : List Nat)
    (va : Option Nat) (n : Nat) (rst : Bool) : Exec Unit := do
  let id ← newNo
  let s ← get
  let a := mkAccess s id instr kind home ws tagKey holds va rst
  match s.tileOf (s.slot s.cur) with
  | none => set (s.launchAccess a)
  | some t =>
    let limit := ((s.launches.find? fun l => l.id == t.launch).elim 0 Launch.limit) * 1024
    let used := t.used + 8 + 8 * ceilDiv n 8
    if used > limit then throw (Stop.fail 5)
    else
      let t' : Tile := { t with latent := t.latent ++ [{ a with holds := [] }], used := used }
      set { s with tiles := s.tiles.map fun (y : Tile) => if y.id = t.id then t' else y }

/-- What a store to a place does at its home (R134, R162, R190); a device region that takes no store raises XPERM. -/
def storeKind (p : Place) (v : Nat) (value : Nat) : Exec AccessKind := do
  match p with
  | .mem .. => pure .store
  | .remote _ => pure .remote
  | .device off =>
    match devRegion off with
    | some (.mbx c i) => pure (.mailbox c i (BitVec.ofNat 64 value))
    | some (.window cl t o) => pure (.window cl t o (BitVec.ofNat 64 value))
    | _ => trap .xperm (u64 v)

/-- A store of the byte string `bs` to a place, as a piece of instruction `instr`; `rst` for RST. Blocking stores to
another package wait for its answer (R147), and for the cards of the slot that read or write there (R249); an RST waits for none
(R250). -/
def storePlace (p : Place) (instr v : Nat) (bs : List Byte) (tag : Bool) (rst : Bool) : Exec Unit := do
  let s ← get
  let hs ← relHolds
  let cards := s.cardsAt s.cur p bs.length false
  let k0 ← storeKind p v (ofBytes bs)
  let x ← getSlot
  match p with
  | .mem key _ va =>
    send instr k0 p.home (writesAt key bs) (if tag then some key else none) (if rst then hs else hs ++ cards) va bs.length rst
  | .device off => send instr k0 p.home (if x.tile?.isSome then writesAt (deviceKey off) bs else []) none hs none bs.length rst
  | .remote cur =>
    if rst then send instr k0 p.home [] none hs none bs.length true
    else
      match x.tile? with
      | some _ => send instr k0 p.home (writesAt (remoteKey cur) bs) none [] none bs.length false
      | none => do
        releaseWait
        await cards.isEmpty
        forceHome p.home
        notAcrossDies p.home v
        let _ ← remoteAnswer cur 0
        pure ()

/-- A store of the low `n` bytes of `value` through a capability (R146, R147, R154). -/
def storeVia (k : Cap) (v : Int) (n : Nat) (value : Nat) : Exec Unit := do
  let p ← place k v n { perm := [1], align := n } [2]
  storeSlot
  let i ← newNo
  storePlace p i v.toNat (toBytes n value) false false

end Sys2Proof.Machine
end

