-- ==== Sys2Proof/Machine/Tasks.lean ====
section
/-!
DEFINITION. The start and the end of what a slot runs (R171, R184, R205), surrogate tiles from their start to
their decision (R367 to R369).
-/

namespace Sys2Proof.Machine

/-! ## Steps on completion records -/

/-- What a step on the completion record of a group of the current slot's tenant waits for: the slot's earlier accesses to
the record's home come first (R149, R242). -/
def beforeLive (group : U64) : Exec Unit := do
  let s ← get
  match groupRef (s.partOfSlot s.cur) (s.slot s.cur).tenant group with
  | none => pure ()
  | some r =>
    match s.hwPlace r.part r.tenant (s.groupAddr r) [] with
    | none => pure ()
    | some (key, _, _) => do
      await (!s.fillWaits key 32)
      forceHome (homeOf key)
      homeReady (homeOf key)

/-- The LIVE count of a group of the current slot's tenant raised (R174). -/
def raiseLive (group : U64) (delta : Int) : Exec Unit := do
  beforeLive group
  let s ← get
  set (s.liveNow (s.partOfSlot s.cur) (s.slot s.cur).tenant group delta (coreOf s.cur))

/-! ## Background work -/

/-- The cores of cluster `cl`. -/
def coresOf (cl : Nat) : List Nat := (List.range 8).map fun i => 8 * cl + i

/-- Every entry that waits in cluster `cl`, in its queue or its ring. -/
def Cluster.list (c : Cluster) : List Entry := c.ready ++ c.ring

/-- The local entries of the cores of cluster `cl`. -/
def State.locals (s : State) (cl : Nat) : List Entry := (coresOf cl).flatMap fun c => (s.core c).localQ

/-- Whether a background record waits in cluster `cl` (R178). -/
def State.backgroundWaits (s : State) (cl : Nat) : Bool :=
  ((s.cluster cl).list ++ s.locals cl).any fun e => e.job.deadline == background

/-! ## Starting -/

/-- The capability to a completion record that a task starts with in k1 (R171): read only, 32 bytes. -/
def State.groupCap (s : State) (p : Nat) (group : U64) : Cap :=
  if group = 0#64 then Cap.null
  else
    let a := (s.partReg p 0x80A).toNat + group.toNat
    (capFor 0 1 a a (a + 32)).getD Cap.null

/-- A slot that keeps only what no start and no end touches: generator, tenant, cycle of its previous issue. -/
def Slot.kept (x : Slot) : Slot := { rngLo := x.rngLo, rngHi := x.rngHi, tenant := x.tenant, lastIssue := x.lastIssue }

/-- An idle slot: as `kept`, with the trap registers that an unhandled trap left (R205). -/
def Slot.idle (x : Slot) : Slot :=
  { x.kept with tcause := x.tcause, tpc := x.tpc, tval := x.tval, thidden := x.thidden, ilen := x.ilen }

/-- What a start sets (R171, R88): item index, group count, the two capabilities and the task registers. -/
def Slot.start (x : Slot) (tid : Nat) (r : Rec) (k1 : Cap) (item count : Nat) : Slot :=
  { x.kept with
    live := true, pcc := r.code, tid := tid
    n := (SMap.set 0#64 [] 0 (BitVec.ofNat 64 item)).set 0#64 1 (BitVec.ofNat 64 count), pres := 3#16
    k := (SMap.set Cap.null [] 0 r.frame).set Cap.null 1 k1
    dline := r.deadline, issues := r.budget, limited := decide (r.budget ≠ 0#32)
    taskRec := BitVec.ofNat 52 r.addr, group := r.group, tenant := r.tenant }

/-- Slot `g` starts item `item` of `count` of a record (R171); the start acts as FENCE.acq (R172). -/
def State.startRec (s : State) (g : Nat) (r : Rec) (item count : Nat) (f : Slot → Slot) : State :=
  let (tid, s) := s.freshNo
  let s := s.setSlot g (f ((s.slot g).start tid r (s.groupCap r.part r.group) item count))
  s.modCore (coreOf g) fun c => { c with rcache := [] }

/-- The journal entry of an admitted group marked started before its first slice issues (R413). -/
def State.journalStarted (s : State) (r : Rec) : State :=
  match groupRef r.part r.tenant r.group with
  | none => s
  | some g =>
    match s.hwPlace r.part r.tenant (s.groupAddr g) [1] with
    | none => s
    | some (key, _, _) =>
      let seq := s.num (key + 24) 8
      if seq ≠ 0 ∧ s.poisoned (s.journalKey r.part seq) = false ∧ s.num (s.journalKey r.part seq) 8 = seq ∧ s.num (s.journalKey r.part seq + 28) 4 % 8 = 0 then
        s.journalState r.part seq 1
      else s

/-! ## Surrogate launches -/

/-- Launch number `id`. -/
def State.launch? (s : State) (id : Nat) : Option Launch := s.launches.find? fun l => l.id == id

/-- Launch `id` changed, and forgotten once all its tiles have ended. -/
def State.modLaunch (s : State) (id : Nat) (f : Launch → Launch) : State :=
  { s with launches := (s.launches.map fun l => if l.id = id then f l else l).filter fun l => decide (l.ended < l.tiles) }

/-- A step on the STATUS word of a launch descriptor (R362), at its home, an absent granule filled first (R220); one whose line is
poisoned is left as it is, and reported as R445 reports such a step (DEDUCED, log 25). -/
def State.statusStep (s : State) (l : Launch) (f : Nat → Nat) : State :=
  let key := l.key + 112
  let s := s.fillFor key 8
  if s.poisoned key then s.schedError (clusterDie l.cluster) 4 (BitVec.ofNat 64 (l.addr + 112)) l.tenant l.part
  else s.performWrites l.part l.tenant (if l.key < 2 ^ 60 then some (l.addr + 112) else none)
    (writesAt key (toBytes 8 (f (s.num key 8)))) none

/-- ENDED rises by 1, and COMPLETE takes the place of RUNNING when every tile has ended (R362, R369). -/
def endedStep (tiles w : Nat) : Nat :=
  let ended := (w / 2 ^ 16 % 2 ^ 16 + 1) % 2 ^ 16
  let w := w - (w / 2 ^ 16 % 2 ^ 16) * 2 ^ 16 + ended * 2 ^ 16
  if ended = tiles then
    let w := if w / 2 ^ 40 % 2 = 1 then w - 2 ^ 40 else w
    if w / 2 ^ 41 % 2 = 1 then w else w + 2 ^ 41
  else w

/-- FAILS rises by 1 and LAST takes the reason (R362, R369). -/
def failedStep (reason w : Nat) : Nat :=
  let fails := (w % 2 ^ 16 + 1) % 2 ^ 16
  w - w % 2 ^ 16 + fails - (w / 2 ^ 32 % 2 ^ 8) * 2 ^ 32 + reason % 256 * 2 ^ 32

/-- The record of a phase of tile `i` (R367, R369). -/
def Launch.job (l : Launch) (code : Cap) (budget : U32) : Rec :=
  { code := code, frame := l.frame, kind := 0, cls := l.cls, deadline := l.deadline, budget := budget, group := l.group,
    addr := l.addr, tenant := l.tenant, part := l.part }

/-- n2 = SHAPE, present, at the start of every phase (R367). -/
def Slot.withShape (x : Slot) (l : Launch) : Slot :=
  { x with n := x.n.set 0#64 2 (l.shape.setWidth 64), pres := x.pres ||| 4#16 }

/-- TOL and TOLMODE of a surrogate or check phase (R367, R370). -/
def Slot.withTol (x : Slot) (l : Launch) : Slot := { x with tol := l.tol, tolMode := l.tolMode }

/-- Tile `i` of a launch starts its surrogate phase on slot `g` (R367). -/
def State.startTile (s : State) (g : Nat) (l : Launch) (i : Nat) : State :=
  let (id, s) := s.freshNo
  let t : Tile := { id := id, launch := l.id, index := i }
  let s := { s with tiles := s.tiles ++ [t] }
  s.startRec g (l.job l.scode l.bs) i l.tiles fun x =>
    { (x.withShape l).withTol l with phase := Phase.surrogate id }

/-- The exact phase of tile `i` starts on slot `g`: an ordinary task (R367, R369). -/
def State.startExact (s : State) (g : Nat) (l : Launch) (i : Nat) : State :=
  s.startRec g (l.job l.ecode l.be) i l.tiles fun x => { x.withShape l with phase := Phase.exact l.id }

/-- A tile that has failed (R369): its latent writes discarded, SFAILS, STATUS, and its exact record queued; none
while the queue makes it wait (R180). -/
def State.failTile (s : State) (t : Tile) (l : Launch) (reason : Nat) : Option State :=
  let s := { s with tiles := s.tiles.filter fun y => y.id ≠ t.id }
  let s := s.modTask l.ltid fun x => { x with sfails := if x.sfails = BitVec.allOnes 32 then x.sfails else x.sfails + 1#32 }
  let s := s.statusStep l (failedStep reason)
  let s := s.modLaunch l.id fun y => { y with decided := y.decided + 1 }
  if l.admitted then
    some { s with slices := s.slices.map fun x =>
      if x.launch == some l.id && x.index == t.index && x.exact then { x with ready := true } else x }
  else
    s.enqueue l.cluster { job := l.job l.ecode l.be, next := t.index, count := t.index + 1, gcount := l.tiles, exactOf := some l.id }

/-! ## Tenants on a core pair (R316, R404) -/

/-- Whether slot `g` takes records of tenant `t`: its own tenant's, and on a core that is to pass to another tenant none of the old
one (R404). -/
def State.takesFrom (s : State) (t g : Nat) : Bool := (s.slot g).tenant == t && (s.core (coreOf g)).switchTo.all fun nt => nt == t

/-- Whether slot `g` is one of tenant `t` of partition `p`: a helper, or slot 0 or 11 while it runs (R404, R405). -/
def State.slotOfTenant (s : State) (p t g : Nat) : Bool :=
  let x := s.slot g
  x.tenant == t && (slotNo g ≠ 0 && slotNo g ≠ 11 || x.live && s.partOfSlot g == p)

/-- Whether tenant `t` of partition `p` holds a slot of core `c`. -/
def State.holdsCore (s : State) (p t c : Nat) : Bool := ((List.range 12).map fun i => 12 * c + i).any (s.slotOfTenant p t)

/-- Whether it holds a slot of either core of the pair of core `c`. -/
def State.holdsPair (s : State) (p t c : Nat) : Bool := s.holdsCore p t (c / 2 * 2) || s.holdsCore p t (c / 2 * 2 + 1)

/-- Slot 0 or 11 of core `c` has stopped running: where a tenant whose helpers have left the pair held it through that slot alone,
its last slot has left now (R316). -/
def State.quitPair (s : State) (c : Nat) : State :=
  match (s.quad (quadOf c)).parting with
  | none => s
  | some (old, new) =>
    if s.holdsPair (s.partOf c) old c then s
    else s.modQuad (quadOf c) fun q => { q with parting := none, leaving := q.leaving.or (some (old, new)) }

/-! ## Ending -/

/-- The slot's engine cards that are still unbound are discarded (R138, R184): each is bound to the value that
discards it. -/
def State.discardUnbound (s : State) (tid : Nat) : State :=
  let fix := fun (c : Card) =>
    match c.guard, c.issuer, c.bound with
    | some (_, sense), some (_, t), none => if t = tid then { c with bound := some sense } else c
    | _, _, _ => c
  { s with engines := s.engines.map fun e => (e.1, { e.2 with queues := e.2.queues.map fun q => (q.1, q.2.map fix) }) }

/-- The borrow of slot `g` returned (R98): the borrowed slot is idle again. -/
def State.returnBorrow (s : State) (g : Nat) : State :=
  match (s.slot g).borrow with
  | none => s
  | some b =>
    let h := coreOf g * 12 + b
    (s.setSlot h (s.slot h).idle).modSlot g fun x => { x with borrow := none }

/-- The check phase starts in the same slot and slice: GRACE and the charge carry over (R367). -/
def State.startCheck (s : State) (g : Nat) (l : Launch) (t : Tile) : State :=
  let old := s.slot g
  ((s.returnBorrow g).discardUnbound old.tid).startRec g (l.job l.ccode l.bc) t.index l.tiles fun x =>
    { (x.withShape l).withTol l with
      phase := Phase.check t.id false, grace := old.grace, admitted := old.admitted, charge := old.charge,
      chargeFrac := old.chargeFrac, preempt := old.preempt }

/-- How slot `g` stops running for its tenant: with its pair's tile state to be saved, or not (R219, R316). -/
def State.leaves (s : State) (g : Nat) (keep : Bool) : State :=
  s.modQuad (quadOf (coreOf g)) fun q => { q with keep := q.keep.set false (s.slot g).tenant keep }

/-- A tile that has passed (R369): its latent writes go to their homes, those to one home in program order (R251), and its
slot waits for them. -/
def State.commitTile (s : State) (g : Nat) (t : Tile) : State :=
  let s := { s with tiles := s.tiles.map fun (y : Tile) => if y.id = t.id then { y with latent := [] } else y }
  let s := t.latent.foldl (fun s a => s.launchAccess { a with slot := g, tid := (s.slot g).tid, tile := none }) s
  s.modSlot g fun x => { x with wait := Wait.commit }

/-- Whether the steps on STATUS and LIVE that end a tile or an exact task of a launch may be performed, from core `c` (R12, R180). -/
def State.launchReady (s : State) (l : Launch) (c : Nat) : Bool :=
  s.stepAt c (l.key + 112) 8 &&
    (groupRef l.part l.tenant l.group).all fun r => s.stepReady c r.part r.tenant (s.groupAddr r) 32

/-- The steps that end a tile once every latent write has been performed (R251, R369). -/
def State.finishTile (s : State) (g : Nat) (t : Tile) (l : Launch) : State :=
  let s := { s with tiles := s.tiles.filter fun y => y.id ≠ t.id
                    slices := s.slices.filter fun x => !(x.launch == some l.id && x.index == t.index) }
  let s := s.statusStep l (endedStep l.tiles)
  let s := s.modLaunch l.id fun y => { y with decided := y.decided + 1, ended := y.ended + 1 }
  let s := (s.returnBorrow g).discardUnbound (s.slot g).tid
  let s := (s.leaves g false).setSlot g (s.slot g).idle
  s.liveNow l.part l.tenant l.group (-1) (coreOf g)

/-- Whether slot `g` has an access out, RST apart. -/
def State.hasOut (s : State) (g : Nat) : Bool := s.flight.any fun a => a.slot == g && !a.rst

/-- Whether slot `g` waits for a commit of which every write has been performed. -/
def State.commitDone (s : State) (g : Nat) : Bool := (s.slot g).wait == Wait.commit && !s.hasOut g

/-- The end of the tile of slot `g`, once its commit is complete and its last steps may be performed. -/
def State.settleCommit (s : State) (g : Nat) : State :=
  match s.commitDone g, s.tileOf (s.slot g) with
  | true, some t => (((s.launch? t.launch).filter fun l => s.launchReady l (coreOf g)).map fun l => s.finishTile g t l).getD s
  | _, _ => s

/-- The task of helper `g` ends (R184), `trapped` from a handler (R174): its stores have been performed. -/
def State.endTask (s : State) (g : Nat) (trapped : Bool) : State :=
  let x := s.slot g
  let p := s.partOfSlot g
  let s := (s.returnBorrow g).discardUnbound x.tid
  let s := match x.phase with
    | .exact id =>
      match s.launch? id with
      | some l => (s.statusStep l (endedStep l.tiles)).modLaunch id fun y => { y with ended := y.ended + 1 }
      | none => s
    | _ => s
  let s := (s.leaves g false).setSlot g (s.slot g).idle
  match groupRef p x.tenant x.group with
  | none => s
  | some r => s.groupNow { ref := r, delta := -1, failed := trapped, trapped := trapped, core := coreOf g }

/-- The message of slot 11 ends (R161, R205): its count goes back. -/
def State.endMessage (s : State) (g : Nat) (failed : Bool) : State :=
  let x := s.slot g
  let s := s.returnBorrow g
  let s := ((s.leaves g false).setSlot g (s.slot g).idle).quitPair (coreOf g)
  match x.msg with
  | none => s
  | some m => s.sendBack { m with failed := failed } (s.partOfSlot m.slot) x.tenant m.home

/-- Slot 0 stops (R211): until its partition is reset. -/
def State.stopZero (s : State) (g : Nat) : State :=
  (s.modSlot g fun x => { x with live := false, halted := true }).quitPair (coreOf g)

/-- The completion record that the end of what slot `g` runs counts in (R174): slots 0 and 11 count in none. -/
def State.endsIn (s : State) (g : Nat) : Option GroupRef :=
  if slotNo g = 0 ∨ slotNo g = 11 then none else groupRef (s.partOfSlot g) (s.slot g).tenant (s.slot g).group

/-- The launch whose STATUS the end of what slot `g` runs changes: that of an exact task (R369). -/
def State.endsLaunch (s : State) (g : Nat) : Option Launch :=
  match (s.slot g).phase with
  | .exact id => s.launch? id
  | _ => none

/-- Whether the steps that end what slot `g` runs may be performed (R12, R180). -/
def State.endReady (s : State) (g : Nat) : Bool :=
  ((s.endsIn g).all fun r => s.stepReady (coreOf g) r.part r.tenant (s.groupAddr r) 32) &&
    (s.endsLaunch g).all fun l => s.stepAt (coreOf g) (l.key + 112) 8

/-- Every access of slot `g` that it issued, RST excluded, performed: what DONE and HALT wait for (R184, R211). Before the
group decrement of DONE and a step on STATUS, which follow a release at domain scope, the pieces of a ZLD are performed too (R172,
R245); and before the decrement what the slot has sent to the record's home, RST and messages among it (R242, R250). -/
def State.drain (s : State) (g : Nat) : Option State :=
  let counted := (s.endsIn g).isSome || (s.endsLaunch g).isSome
  let home := (s.endsIn g).bind fun r => (s.hwPlace r.part r.tenant (s.groupAddr r) []).map fun x => homeOf x.1
  if home.any fun h => s.messageTo g h s.fresh then none
  else
    (s.performAll (s.upToLast g fun a =>
      home == some a.home || !a.rst && (match a.kind with | .zpiece .. => counted | _ => true))).filter fun s => s.endReady g

/-- A tile's failure on slot `g` (R368): the slice ends at once, the pieces of a ZLD performed before the step on STATUS, which
follows a release at domain scope (R172, R369). -/
def State.failPhase (s : State) (g reason : Nat) : Option State :=
  let x := s.slot g
  match s.tileOf x with
  | none => some s
  | some t =>
    match s.launch? t.launch, s.performAll (s.upToLast g fun a => !a.rst) with
    | none, _ => some s
    | some _, none => none
    | some l, some s => if !s.stepAt (coreOf g) (l.key + 112) 8 then none
      else (s.failTile t l reason).map fun s =>
        let s := (s.returnBorrow g).discardUnbound x.tid
        (s.leaves g false).setSlot g (s.slot g).idle

end Sys2Proof.Machine
end

