-- ==== Sys2Proof/Machine/Ops.lean ====
section
/-!
DEFINITION. What every instruction shares: a slot's registers, the end of an instruction (R27, R130), issuing
(R13, R192, R195), blocking, taking a trap (R204, R205) and returning from one (R206), and the outcome of a
meaning or of an event.
-/

namespace Sys2Proof.Machine

/-! ## Registers of a slot -/

/-- The program counter: PCC's cursor (R124). -/
def Slot.pc (x : Slot) : Nat := x.pcc.cursor

/-- Named register `i` (R87). -/
def Slot.named (x : Slot) (i : Nat) : U64 := x.n.get 0#64 i

/-- Whether named register `i` is present (R87). -/
def Slot.present (x : Slot) (i : Nat) : Bool := bitAt x.pres i

/-- An operand of a pending guard once `n` holds `v` (R136). -/
def GuardOp.capture (n : Nat) (v : U64) : GuardOp → GuardOp
  | .need m => if m = n then .have v else .need m
  | o => o

/-- A guard once named register `n` has been written with `v` (R136). -/
def Guard.capture (n : Nat) (v : U64) : Guard → Guard
  | .pending neg cc a b => .pending neg cc (a.capture n v) (b.capture n v)
  | g => g

/-- A write to a named register: value, presence bit (R87), and the operands of pending guards (R136). -/
def Slot.setNamed (x : Slot) (i : Nat) (v : U64) : Slot :=
  { x with n := x.n.set 0#64 i v, pres := x.pres ||| BitVec.ofNat 16 (2 ^ i),
           guards := x.guards.map fun g => (g.1, g.2.capture i v) }

/-- A result pushed (R86). -/
def Slot.push (x : Slot) (v : U64) : Slot := { x with rq := v :: x.rq.take 15 }

/-- A scalar result: pushed, and written to a named register when the field names one (R32, R86). -/
def Slot.result (x : Slot) (d : Dst) (v : U64) : Slot :=
  match d with
  | .queue => x.push v
  | .nam i => (x.push v).setNamed i.toNat v

/-- Capability register `i` (R111). -/
def Slot.kreg (x : Slot) (i : Nat) : Cap := x.k.get Cap.null i

/-- Extension register `i` (R47). -/
def Slot.xreg (x : Slot) (i : Nat) : U64 := x.x.get 0#64 i

/-! ## The end of an instruction -/

/-- The loop-end test on the visible levels, innermost first, of an instruction of `len` bytes at `a` (R130). -/
def loopEnd (a len : Nat) : List LoopLevel → Option Nat × List LoopLevel
  | [] => (none, [])
  | l :: ls =>
    if a ≤ l.last ∧ l.last < a + len then
      if l.count - 1#64 ≠ 0#64 then (some l.start, { l with count := l.count - 1#64 } :: ls) else loopEnd a len ls
    else (none, l :: ls)

/-- The slot after an instruction of `len` bytes that transferred nowhere (R27, R130). -/
def Slot.advance (x : Slot) (len : Nat) : Slot :=
  let r := loopEnd x.pc len (x.loops.drop x.hidden).reverse
  { x with loops := x.loops.take x.hidden ++ r.2.reverse, pcc := x.pcc.withCursor (r.1.getD (x.pc + len)) }

/-- The slot at address `t` (R124). -/
def Slot.goto (x : Slot) (t : Nat) : Slot := { x with pcc := x.pcc.withCursor t }

/-- The levels left when a transfer at `a` reaches `t`, innermost first (R131). -/
def leaveLoops (a t : Nat) : List LoopLevel → List LoopLevel
  | [] => []
  | l :: ls => if l.start ≤ a ∧ a < l.past ∧ !(l.start ≤ t ∧ t < l.past) then leaveLoops a t ls else l :: ls

/-- A taken transfer from the slot's instruction to `t` closes the bodies it leaves (R131). -/
def Slot.leave (x : Slot) (t : Nat) : Slot :=
  { x with loops := x.loops.take x.hidden ++ (leaveLoops x.pc t (x.loops.drop x.hidden).reverse).reverse }

/-- A held instruction of slot `g` completes (R95, R134, R209, R230, R308). -/
def State.complete (s : State) (g len : Nat) : State := s.modSlot g fun x => { x.advance len with wait := Wait.none }

/-- As `complete`, with a result. -/
def State.completeWith (s : State) (g len : Nat) (d : Dst) (v : U64) : State :=
  s.modSlot g fun x => { (x.result d v).advance len with wait := Wait.none }

/-! ## Issuing and blocking -/

/-- The current slot issues in this cycle (R13): the rotation moves on, and the issue counts against BUDGET (R195), the
charge (R192) and a message's bound (R161). Every issue moves on to a fresh free choice. -/
def State.noteIssue (s : State) : State :=
  let s := s.modSlot s.cur fun x =>
    { x with lastIssue := some s.now, blocked := false, firm := false
             issues := if x.limited && x.issues ≠ 0#32 then x.issues - 1#32 else x.issues
             charge := if x.admitted then x.charge - 1 else x.charge
             msgIssues := if slotNo s.cur = 11 then x.msgIssues + 1 else x.msgIssues }
  let s := s.modCore (coreOf s.cur) fun c => { c with rot := (slotNo s.cur + 1) % 12, issuedAt := some s.now }
  { s with turn := coreOf s.cur + 1, scan := 0, tick := s.tick + 1 }

/-- Whether a pending pre-emption may stop slot `g` now (R217): not slot 11, not an admitted slice, not in the array or in
COMPOSE, LSPLIT or LMERGE (R381), and not while loads or a commit are on their way (R150). -/
def State.mayStop (s : State) (g : Nat) : Bool :=
  let x := s.slot g
  x.preempt.isSome && slotNo g ≠ 11 && !x.admitted && x.wait ≠ Wait.array && x.wait ≠ Wait.elems && x.wait ≠ Wait.commit &&
    x.wait ≠ Wait.layer && !x.firm

/-- The current slot is blocked: it does not issue, its turn passes (R13), and a pending pre-emption stops it before
the blocked instruction (R217). -/
def State.passOver (s : State) : State :=
  let stop := s.mayStop s.cur
  let s := s.modSlot s.cur fun x => { x with blocked := true, stopped := if stop then some none else x.stopped }
  { s with scan := s.scan + 1 }

/-- As `passOver`, in an instruction before which no pre-emption stops the slot (R381). -/
def State.passFirm (s : State) : State :=
  { s.modSlot s.cur fun x => { x with blocked := true, firm := true } with scan := s.scan + 1 }

/-- The current slot, blocked, sends its request to another package's home `h` on the channel of its class (R407, R418). -/
def State.ask (s : State) (h : Nat) : State :=
  let g := s.cur
  let id := s.fresh
  let cls := s.messageClass (s.partOfSlot g) (s.slot g).tenant none
  let path := s.pathTo (coreOf g) h
  let s := { s with fresh := s.fresh + 1 }.modSlot g fun x => { x with far := some (h, id) }
  let s := s.post id cls false g h path
  if path = [] then s else { s with acks := s.acks ++ [{ id := id, owner := id, kind := .request g h cls }] }

/-- The current slot has made a step of an instruction that makes several, from `s` to `t` (R240): it has not issued yet, and makes
the next step in its next turn. -/
def State.stepped (s t : State) : State :=
  let x := s.slot s.cur
  let c := s.core (coreOf s.cur)
  let t := t.modSlot s.cur fun y =>
    { y with lastIssue := x.lastIssue, issues := x.issues, charge := x.charge, msgIssues := x.msgIssues }
  let t := t.modCore (coreOf s.cur) fun y => { y with rot := c.rot, issuedAt := c.issuedAt }
  { t with turn := s.turn, scan := s.scan }.passOver

/-! ## Traps (R200 to R206) -/

/-- TCAUSE of a cause (R200). -/
def Cause.code : Cause → Nat
  | .illop => 0x01
  | .illpfx => 0x02
  | .priv => 0x03
  | .loopDeep => 0x04
  | .capTag => 0x08
  | .capBnd => 0x09
  | .capPerm => 0x0A
  | .capSpace => 0x0B
  | .align => 0x0C
  | .xlate => 0x10
  | .xperm => 0x11
  | .budget => 0x18
  | .mvneg => 0x20
  | .mvrho => 0x21
  | .futDbl => 0x28
  | .futReg => 0x29
  | .futEmpty => 0x2A
  | .ringOvr => 0x30
  | .barOvr => 0x31
  | .zshape => 0x38
  | .wfmt => 0x39
  | .engErr => 0x40
  | .layerBad => 0x48
  | .surrNest => 0x50
  | .amsgTime => 0x58
  | .brk => 0x61
  | .trapi => 0x62
  | .mcheck => 0x7F

/-- The trap registers an entry writes (R204). -/
def Slot.trapRegs (x : Slot) (c : Cause) (tval : U64) (ilen : Nat) : Slot :=
  { x with tcause := BitVec.ofNat 8 c.code, tpc := BitVec.ofNat 52 x.pc, tval := tval, ilen := BitVec.ofNat 4 ilen
           thidden := BitVec.ofNat 2 x.hidden }

/-- Address of the handler of a cause (R204). -/
def Slot.handler (x : Slot) (c : Cause) : Nat := x.tbase.toNat * 2 ^ 13 + 64 * c.code

/-- Whether a trap of slot `x` enters the handler table (R204). -/
def Slot.handles (x : Slot) (c : Cause) : Bool :=
  c ≠ .mcheck && x.ten && !x.inTrap && !(c = .budget && x.grace) &&
    decide (x.pcc.base ≤ x.handler c) && decide (x.handler c + 2 ≤ x.pcc.top)

/-- The slot at its handler (R204). A BUDGET entry leaves 256 further issues (R195). -/
def Slot.enter (x : Slot) (c : Cause) (tval : U64) (ilen : Nat) : Slot :=
  { (x.trapRegs c tval ilen).goto (x.handler c) with
    hidden := x.loops.length, inTrap := true, wait := Wait.none, seen := [], far := none
    grace := x.grace || c = .budget, issues := if c = .budget then 256#32 else x.issues }

/-- An unhandled trap of slot `g` (R205): the tile fails (R368), or the trap registers are written, an error record goes
to service firmware, and what the slot ran ends as DONE or HALT would end it, once its stores are performed. None
while it must wait. -/
def State.unhandled (s : State) (g : Nat) (c : Cause) (tval : U64) (ilen : Nat) : Option State :=
  match (s.slot g).tile? with
  | some _ => s.failPhase g 7
  | none =>
    match s.drain g with
    | none => none
    | some s =>
      let x := s.slot g
      let p := s.partOfSlot g
      let s := s.setSlot g { x.trapRegs c tval ilen with wait := Wait.none, seen := [] }
      let s := s.errorRecord (dieOf (coreOf g)) tval g c.code 0 x.tenant p false
      some (if slotNo g = 0 then s.stopZero g else if slotNo g = 11 then s.endMessage g true else s.endTask g true)

/-- A trap of slot `g` (R204): entered, or unhandled. None while it must wait. -/
def State.takeTrap (s : State) (g : Nat) (c : Cause) (tval : U64) (ilen : Nat) : Option State :=
  if (s.slot g).handles c then some (s.modSlot g fun x => x.enter c tval ilen) else s.unhandled g c tval ilen

/-- The target of a transfer checked against a code capability (R124). -/
def checkTarget (k : Cap) (t : Int) : Exec Unit :=
  require (decide ((k.base : Int) ≤ t) && decide (t + 2 ≤ k.top)) .capBnd (u64 t)

/-- RTE (R206), after its own ILLOP. -/
def returnFromTrap : Exec Flow := do
  let x ← getSlot
  let t := x.tpc.toNat
  require (decide (t % 2 = 0)) .align (u64 t)
  checkTarget x.pcc t
  modSlot fun y => { y with loops := y.loops.take y.hidden, hidden := y.thidden.toNat, inTrap := false }
  pure (.jump t)

/-- DONE and HALT raise an MCHECK that the slot's last accesses have brought it (R148, R416), in the place of their end. -/
def unlessBad (s : State) : Exec Unit :=
  match (s.slot s.cur).mcheck with
  | some v => trap .mcheck v
  | none => pure ()

/-! ## Outcomes -/

/-- The end of an instruction of `len` bytes on the current slot. -/
def State.settle (s : State) (len : Nat) : Flow → State
  | .next => s.modSlot s.cur fun x => x.advance len
  | .jump t => s.modSlot s.cur fun x => x.goto t
  | .hold => s
  | .ended => s

/-- One issue of the current slot: the instruction completes, traps, fails its tile, or is blocked and does not
issue. A trap that must wait leaves the slot blocked. -/
def runInstr (len : Nat) (m : Exec Flow) (s : State) : Host.Outcome State Fault Refusal :=
  match m s.noteIssue with
  | .ok (f, s') => .next (s'.settle len f)
  | .error .wait => .next s.passOver
  | .error .firm => .next s.passFirm
  | .error (.request h) => .next (s.passOver.ask h)
  | .error (.again t) => .next (s.stepped t)
  | .error (.trap c v) =>
    match s.noteIssue.takeTrap s.cur c v len with
    | some s' => .next s'
    | none => .next s.passOver
  | .error (.fail r) =>
    match s.noteIssue.failPhase s.cur r with
    | some s' => .next s'
    | none => .next s.passOver

/-- An event: what it does where it can take place. -/
def runEvent (name : String) (r : Option State) : Host.Outcome State Fault Refusal :=
  match r with
  | some s => .next s
  | none => .fault (.notEnabled name)

end Sys2Proof.Machine
end

