-- ==== Sys2Proof/Machine/Operands.lean ====
section
/-!
DEFINITION. Operand forms (R31 to R33, R42): scalar sources and destinations, capability and extension
registers, immediates, and the bits of a word for a trap's TVAL (R52).
-/

namespace Sys2Proof.Machine

/-- A scalar source as slot `x` holds it; none for a clear named register (R31, R87). -/
def Slot.read (x : Slot) : Src → Option U64
  | .age i => some (x.rq.getD i.toNat 0#64)
  | .nam i => if x.present i.toNat then some (x.named i.toNat) else none

/-- A scalar source: a clear named register blocks the slot (R87). -/
def src (a : Src) : Exec U64 := do
  let x ← getSlot
  match x.read a with
  | some v => pure v
  | none => block

/-- A scalar result of the current slot (R32, R86). -/
def dst (d : Dst) (v : U64) : Exec Unit := modSlot fun x => x.result d v

/-- Capability register `i` of the current slot. -/
def kreg (i : BitVec 3) : Exec Cap := do
  let x ← getSlot
  pure (x.kreg i.toNat)

/-- A write to capability register `i` of the current slot. -/
def setK (i : BitVec 3) (c : Cap) : Exec Unit := modSlot fun x => { x with k := x.k.set Cap.null i.toNat c }

/-- A 64-bit truth value. -/
def flag (b : Bool) : U64 := if b then 1#64 else 0#64

/-- The word of a 32-bit instruction as TVAL holds it (R52). -/
def wordVal (e : Encoded) : U64 := BitVec.ofNat 64 e.bits

/-- The TVAL of an R-form word (R30, R52). -/
def rForm (major func5 : Nat) (d a b : BitVec 5) (md : BitVec 4) : U64 :=
  BitVec.ofNat 64 (2 + 4 * major + 2 ^ 8 * d.toNat + 2 ^ 13 * a.toNat + 2 ^ 18 * b.toNat + 2 ^ 23 * func5 + 2 ^ 28 * md.toNat)

/-- A privileged instruction in user mode raises PRIV (R38, R50). -/
def privileged (tval : U64) : Exec Unit := do
  let x ← getSlot
  require (!x.user) .priv tval

/-- The number of the current slot in its core (R12). -/
def slotNumber : Exec Nat := do
  let s ← get
  pure (slotNo s.cur)

/-- ILLOP unless the slot's role allows the instruction. -/
def roleIs (f : Nat → Bool) (tval : U64) : Exec Unit := do
  let n ← slotNumber
  require (f n) .illop tval

end Sys2Proof.Machine
end

