-- ==== Sys2Proof/Machine/Memory.lean ====
section
/-!
DEFINITION. Loads and stores (R153 to R155), the read cache (R156), capabilities in memory (R157), fences (R244 to
R248), and the event in which a home performs an access (R21, R149).
-/

namespace Sys2Proof.Machine

/-! ## Loads -/

/-- Bytes of a load type (R153). -/
def loadBytes (type : BitVec 3) : Nat := 2 ^ min (type.toNat / 2) 3

/-- A loaded value extended as its type says (R153). -/
def extend (type : BitVec 3) (m : Nat) : U64 :=
  if type.toNat < 6 ∧ type.toNat % 2 = 0 then sext64 m (8 * loadBytes type) else BitVec.ofNat 64 m

/-- Eight bytes of a GLOBAL place through the read cache of the current core (R156). -/
def readCached (va key : Nat) (p : Place) : Exec Nat := do
  let s ← get
  let c := coreOf s.cur
  let t := (s.slot s.cur).tenant
  let q := s.partOfSlot s.cur
  match (s.core c).rcache.find? fun l => l.part == q && l.tenant == t && l.line == va / 64 with
  | some l => pure (leAt l.bytes (va % 64) 8)
  | none =>
    beforeRead p 8
    let bs ← readBytes (key / 64 * 64) 64
    let l : RcLine := { part := q, tenant := t, line := va / 64, bytes := bs }
    modify fun s =>
      if (s.core c).rcache.length < 512 then s.modCore c fun x => { x with rcache := x.rcache ++ [l] }
      else
        { s.modCore c fun x => { x with rcache := x.rcache.eraseIdx (Config.victim s.tick % 512) ++ [l] } with
          tick := s.tick + 1 }
    pure (leAt bs (va % 64) 8)

/-- The value of a load of type `type` at `v` (R154): type 7 reads GLOBAL lines through the read cache, but not in
latent mode (R155, R368). -/
def loadTyped (type : BitVec 3) (k : Cap) (v : Int) : Exec U64 := do
  let n := loadBytes type
  let p ← place k v n { perm := [0], align := n } [1]
  notAcrossDies p.home v.toNat
  let x ← getSlot
  match p with
  | .mem key _ (some va) =>
    if type = 7#3 ∧ x.tile?.isNone then do
      let m ← readCached va key p
      pure (BitVec.ofNat 64 m)
    else do
      let m ← readPlace p n
      pure (extend type m)
  | _ => do
    let m ← readPlace p n
    pure (extend type m)

/-- LD (R153, R154). -/
def execLd (type : BitVec 3) (d : Dst) (k : BitVec 3) (off : BitVec 13) (s : State) : Host.Outcome State Fault Refusal :=
  runInstr 4 (do
    let c ← kreg k
    let v ← loadTyped type c (c.cursor + off.toInt * loadBytes type)
    dst d v
    pure .next) s

/-- LDX (R153 to R155). -/
def execLdx (type : BitVec 3) (acq : Bool) (d : Dst) (k : BitVec 3) (i : Src) (scale : BitVec 2) (s : State) :
    Host.Outcome State Fault Refusal :=
  runInstr 4 (do
    let x ← src i
    let c ← kreg k
    let v ← loadTyped type c (c.cursor + x.toInt * 2 ^ scale.toNat)
    dst d v
    if acq then acquire
    pure .next) s

/-! ## Stores -/

/-- A store of `size` at `v`, with FENCE.rel at domain scope before it when `rel` (R154, R155). -/
def storeSized (size : BitVec 2) (rel : Bool) (k : Cap) (v : Int) (a : U64) : Exec Flow := do
  if rel then fenceRel 5
  storeVia k v (2 ^ size.toNat) a.toNat
  pure .next

/-- ST (R153 to R155). -/
def execSt (size : BitVec 2) (rel : Bool) (k : BitVec 3) (off : BitVec 13) (a : Src) (s : State) :
    Host.Outcome State Fault Refusal :=
  runInstr 4 (do
    let x ← src a
    let c ← kreg k
    storeSized size rel c (c.cursor + off.toInt * 2 ^ size.toNat) x) s

/-- STX (R153 to R155). -/
def execStx (size : BitVec 2) (rel : Bool) (k : BitVec 3) (i : Src) (scale : BitVec 2) (a : Src) (s : State) :
    Host.Outcome State Fault Refusal :=
  runInstr 4 (do
    let y ← src i
    let x ← src a
    let c ← kreg k
    storeSized size rel c (c.cursor + y.toInt * 2 ^ scale.toNat) x) s

/-! ## Capabilities in memory (R157) -/

/-- The address of LDC and STC. -/
def capAddress (c : Cap) (off : BitVec 15) : Int := c.cursor + off.toInt * 16

/-- The tag that the far package returns with 16 bytes `m` at REMOTE `cur`: free where the bits may be tagged (R113; DESIGN
CHOICE, log 73), and 0 where the slot's tile has written the granule. -/
def farTag (cur m : Nat) : Exec Bool := do
  let s ← get
  set { s with tick := s.tick + 1 }
  let hit := (s.tileOf (s.slot s.cur)).any fun t => t.latent.any fun a => a.writes.any fun w => w.1 / 16 == remoteKey cur / 16
  pure (decide (Config.remoteData s.tick % 2 = 1) && Cap.legal { tag := true, bits := BitVec.ofNat 128 m } && !hit)

/-- LDC (R157): the tag survives when the capability has LC and the page C. -/
def execLdc (kd k : BitVec 3) (off : BitVec 15) (s : State) : Host.Outcome State Fault Refusal :=
  runInstr 4 (do
    let c ← kreg k
    let v := capAddress c off
    let p ← place c v 16 { perm := [0], align := 16 } [1]
    notAcrossDies p.home v.toNat
    let m ← readPlace p 16
    let s ← get
    let tag ← match p with
      | .mem key pc _ => pure (decide (key < 2 ^ 63) && s.viewTag (s.slot s.cur) key && c.has 3 && pc)
      | .remote cur => do
        let t ← farTag cur m
        pure (t && c.has 3)
      | .device _ => pure false
    setK kd { tag := tag, bits := BitVec.ofNat 128 m }
    pure .next) s

/-- STC (R157): what a tagged capability asks for, then the store with its tag. -/
def execStc (k : BitVec 3) (off : BitVec 15) (kd : BitVec 3) (s : State) : Host.Outcome State Fault Refusal :=
  runInstr 4 (do
    let c ← kreg k
    let x ← kreg kd
    let v := capAddress c off
    let p ← place c v 16 { perm := [1], align := 16 } [2]
    if x.tag then
      require (c.has 4) .capPerm (u64 v)
      require (decide (c.space ≤ 3)) .capPerm (u64 v)
      require (x.has 6 || c.space == 3) .capPerm (u64 v)
      match p with
      | .mem _ pc _ => require pc .xperm (u64 v)
      | _ => pure ()
    storeSlot
    let i ← newNo
    storePlace p i v.toNat (toBytes 16 x.bits.toNat) x.tag false
    pure .next) s

/-! ## Fences -/

/-- A full FENCE at scope `sc` (R245, R246): every earlier access of the slot with its home in scope, RST excepted, is
performed; at domain scope, so is every access of the partition marked old (R223). -/
def fullFence (sc : Nat) : Exec Unit := do
  let s ← get
  force fun a => inScope sc s.cur a.home && !a.rst
  let s ← get
  let p := s.partOfSlot s.cur
  await (sc ≠ 5 || !((s.flight.any fun a => a.old && a.part == p) || s.cards.any fun c => c.part == p && c.ops.any CardOp.old))
  acquire

/-- FENCE (R245): kind 0 full, 1 acq, 2 rel. -/
def fence (kind sc : Nat) : Exec Flow := do
  match kind with
  | 0 => fullFence sc
  | 1 => acquire
  | _ => fenceRel sc
  pure .next

/-- FENCE (R244, R245). -/
def execFence (kind scope : BitVec 3) (s : State) : Host.Outcome State Fault Refusal :=
  runInstr 4 (fence kind.toNat scope.toNat) s

/-- FENCE.core.c (R45): a full FENCE at core scope. -/
def execFenceCoreC (s : State) : Host.Outcome State Fault Refusal := runInstr 2 (fence 0 1) s

/-- EFENCE (R247): every card of the slot that is not an unbound guarded command is complete or discarded. -/
def execEfence (s : State) : Host.Outcome State Fault Refusal :=
  runInstr 4 (do
    let s ← get
    await ((s.cardsOf s.cur).all fun c => c.guard.isSome && c.bound.isNone)
    acquire
    pure .next) s

/-- IFENCE (R248): a full FENCE at domain scope, and the core's instruction buffer is discarded. -/
def execIfence (s : State) : Host.Outcome State Fault Refusal :=
  runInstr 4 (do
    fullFence 5
    modify fun s => s.modCore (coreOf s.cur) fun c => { c with ibuf := [] }
    pure .next) s

/-! ## Page walks -/

/-- PAGE_WALK (R165, R166): a walk for tenant `tenant` at `va` starts, on one of its die's 64 walkers, and reads its table
entries; the same event again ends it, and a leaf goes to the translation cache of `core`. -/
def State.pageWalk (s : State) (core tenant va : Nat) : Option State :=
  let d := dieOf core
  let p := s.partOf core
  if core < 640 ∧ tenant < 16 ∧ va < 2 ^ 52 then
    match s.inFlight d p tenant va with
    | some w =>
      let s := { s with pageWalks := s.pageWalks.erase w }
      some (match w.found with
        | .leaf pte lvl => s.cacheLeaf core p tenant va lvl pte
        | _ => s)
    | none =>
      if (s.core core).tlb.any (fun e => e.hit p tenant va) || decide (64 ≤ (s.pageWalks.filter fun w => w.die == d).length) then none
      else
        let w : PageWalk := { die := d, part := p, tenant := tenant, page := va / 2 ^ 16, core := core, found := (s.walk p tenant va).found }
        some { s with pageWalks := s.pageWalks ++ [w] }
  else none

/-- PAGE_WALK (R165, R166). -/
def execPageWalk (core tenant va : Nat) (s : State) : Host.Outcome State Fault Refusal :=
  runEvent "PAGE_WALK" (s.pageWalk core tenant va)

end Sys2Proof.Machine
end

