-- ==== Sys2Proof/Machine/Atomic.lean ====
section
/-!
DEFINITION. The atomics: major ATOM (R158).
-/

namespace Sys2Proof.Machine

/-- The members of ATOM (R158). -/
inductive AtomOp where
  | add | and | or | xor | min | max | minu | maxu | swp | cas | fadd
  deriving DecidableEq, Repr

/-- What an atomic of `n` bits makes of the old value `m`, with `v` and `c` its implicit operands: the new value, none
when nothing is written, and the flags (R158). -/
def AtomOp.apply (op : AtomOp) (n m v c : Nat) : Option Nat × Flags :=
  let pick := fun (b : Bool) => if b then m else v
  match op with
  | .add => (some ((m + v) % 2 ^ n), 0#6)
  | .and => (some (m &&& v), 0#6)
  | .or => (some (m ||| v), 0#6)
  | .xor => (some (m ^^^ v), 0#6)
  | .min => (some (pick (decide (signed m n ≤ signed v n))), 0#6)
  | .max => (some (pick (decide (signed m n ≥ signed v n))), 0#6)
  | .minu => (some (pick (decide (m ≤ v))), 0#6)
  | .maxu => (some (pick (decide (m ≥ v))), 0#6)
  | .swp => (some v, 0#6)
  | .cas => (if m = c then some v else none, 0#6)
  | .fadd =>
    let f := if n = 32 then fp32 else fp64
    let r := fpAdd f rneMode (Fp.ofBits f m) (Fp.ofBits f v)
    (some r.bits, r.fl)

/-- The granules that `n` bytes at `key` overlap lose their tags (R158): an atomic's access lies in one granule. -/
def State.clearTag (s : State) (key : Nat) : State := s.setTag key false

/-- A read-modify-write of `n` bytes at its home: the old value (R158, R21). -/
def atomicAt (op : AtomOp) (p : Place) (n v c : Nat) : Exec Nat := do
  let s ← get
  await (s.cardsAt s.cur p n false).isEmpty
  forceHome p.home
  homeReady p.home
  match p with
  | .mem key _ va => do
    let bs ← readBytes key n
    let m := ofBytes bs
    let (new, fl) := op.apply (8 * n) m v c
    let s ← get
    let w := s.who s.cur
    match new with
    | some x => set (s.performWrites w.part w.tenant va (writesAt key (toBytes n x)) none)
    | none => set (s.clearTag key)
    setFlags fl
    pure m
  | .remote cur => do
    let m ← remoteAnswer cur n
    setFlags (op.apply (8 * n) m v c).2
    pure m
  | .device off => trap .xperm (u64 off)

/-- An atomic (R158): `order` 1 adds an acquire, 2 a release, 3 both, at domain scope. -/
def atomic (op : AtomOp) (wide : Bool) (order : BitVec 2) (d : Dst) (k : BitVec 3) (off : BitVec 8) : Exec Flow := do
  notLatent
  let x ← getSlot
  let cap ← kreg k
  let n : Nat := if wide then 8 else 4
  let v := (x.rq.getD 0 0#64).toNat % 2 ^ (8 * n)
  let c := (x.rq.getD 1 0#64).toNat % 2 ^ (8 * n)
  let a : Int := cap.cursor + off.toInt * n
  let p ← place cap a n { spaces := [0, 1, 2, 3, 5], xperm := true, perm := [0, 1, 5], align := n } [1, 2, 4]
  notAcrossDies p.home a.toNat
  if bitAt order 1 then fenceRel 5
  releaseWait
  let m ← atomicAt op p n v c
  dst d (if wide then BitVec.ofNat 64 m else sext64 m 32)
  if bitAt order 0 then acquire
  pure .next

/-- AADD (R158). -/
def execAadd (wide : Bool) (order : BitVec 2) (d : Dst) (k : BitVec 3) (off : BitVec 8) (s : State) :
    Host.Outcome State Fault Refusal := runInstr 4 (atomic .add wide order d k off) s

/-- AAND (R158). -/
def execAand (wide : Bool) (order : BitVec 2) (d : Dst) (k : BitVec 3) (off : BitVec 8) (s : State) :
    Host.Outcome State Fault Refusal := runInstr 4 (atomic .and wide order d k off) s

/-- AOR (R158). -/
def execAor (wide : Bool) (order : BitVec 2) (d : Dst) (k : BitVec 3) (off : BitVec 8) (s : State) :
    Host.Outcome State Fault Refusal := runInstr 4 (atomic .or wide order d k off) s

/-- AXOR (R158). -/
def execAxor (wide : Bool) (order : BitVec 2) (d : Dst) (k : BitVec 3) (off : BitVec 8) (s : State) :
    Host.Outcome State Fault Refusal := runInstr 4 (atomic .xor wide order d k off) s

/-- AMIN (R158). -/
def execAmin (wide : Bool) (order : BitVec 2) (d : Dst) (k : BitVec 3) (off : BitVec 8) (s : State) :
    Host.Outcome State Fault Refusal := runInstr 4 (atomic .min wide order d k off) s

/-- AMAX (R158). -/
def execAmax (wide : Bool) (order : BitVec 2) (d : Dst) (k : BitVec 3) (off : BitVec 8) (s : State) :
    Host.Outcome State Fault Refusal := runInstr 4 (atomic .max wide order d k off) s

/-- AMINU (R158). -/
def execAminu (wide : Bool) (order : BitVec 2) (d : Dst) (k : BitVec 3) (off : BitVec 8) (s : State) :
    Host.Outcome State Fault Refusal := runInstr 4 (atomic .minu wide order d k off) s

/-- AMAXU (R158). -/
def execAmaxu (wide : Bool) (order : BitVec 2) (d : Dst) (k : BitVec 3) (off : BitVec 8) (s : State) :
    Host.Outcome State Fault Refusal := runInstr 4 (atomic .maxu wide order d k off) s

/-- ASWP (R158). -/
def execAswp (wide : Bool) (order : BitVec 2) (d : Dst) (k : BitVec 3) (off : BitVec 8) (s : State) :
    Host.Outcome State Fault Refusal := runInstr 4 (atomic .swp wide order d k off) s

/-- ACAS (R158). -/
def execAcas (wide : Bool) (order : BitVec 2) (d : Dst) (k : BitVec 3) (off : BitVec 8) (s : State) :
    Host.Outcome State Fault Refusal := runInstr 4 (atomic .cas wide order d k off) s

/-- AFADD (R158). -/
def execAfadd (wide : Bool) (order : BitVec 2) (d : Dst) (k : BitVec 3) (off : BitVec 8) (s : State) :
    Host.Outcome State Fault Refusal := runInstr 4 (atomic .fadd wide order d k off) s

end Sys2Proof.Machine
end

