-- ==== Sys2Proof/Machine/Capability.lean ====
section
/-!
DEFINITION. The capability instructions: major CAP (R117 to R122).
-/

namespace Sys2Proof.Machine

/-- The properties word of CGETP (R118). -/
def Cap.props (k : Cap) : Nat := (if k.tag then 1 else 0) + 16 * k.space + 2 ^ 8 * k.perm + 2 ^ 16 * k.ex

/-- A member that pushes a value of one capability. -/
def capGet (d : Dst) (ka : BitVec 3) (f : Cap → Nat) : Exec Flow := do
  let k ← kreg ka
  dst d (BitVec.ofNat 64 (f k))
  pure .next

/-- CGETA (R118). -/
def execCgeta (d : Dst) (ka : BitVec 3) (s : State) : Host.Outcome State Fault Refusal := runInstr 4 (capGet d ka Cap.cursor) s

/-- CGETB (R118). -/
def execCgetb (d : Dst) (ka : BitVec 3) (s : State) : Host.Outcome State Fault Refusal := runInstr 4 (capGet d ka Cap.base) s

/-- CGETL (R118): top - base, wrapped for an untagged capability. -/
def execCgetl (d : Dst) (ka : BitVec 3) (s : State) : Host.Outcome State Fault Refusal :=
  runInstr 4 (capGet d ka fun k => (u64 ((k.top : Int) - k.base)).toNat) s

/-- CGETP (R118). -/
def execCgetp (d : Dst) (ka : BitVec 3) (s : State) : Host.Outcome State Fault Refusal := runInstr 4 (capGet d ka Cap.props) s

/-- CTAG (R118). -/
def execCtag (d : Dst) (ka : BitVec 3) (s : State) : Host.Outcome State Fault Refusal :=
  runInstr 4 (capGet d ka fun k => if k.tag then 1 else 0) s

/-- CMOV (R118). -/
def execCmov (kd ka : BitVec 3) (s : State) : Host.Outcome State Fault Refusal :=
  runInstr 4 (do
    let k ← kreg ka
    setK kd k
    pure .next) s

/-- CCLR (R118). -/
def execCclr (kd : BitVec 3) (s : State) : Host.Outcome State Fault Refusal :=
  runInstr 4 (do
    setK kd Cap.null
    pure .next) s

/-- A new cursor for a capability (R119): it must stay in the capability's block. -/
def moveCursor (k : Cap) (v : Int) : Exec Cap := do
  require k.tag .capTag (u64 k.cursor)
  require (decide (0 ≤ v) && decide (v < 2 ^ 52)) .capBnd (u64 v)
  require (decide (v.toNat / 2 ^ (k.ex + 26) = k.cursor / 2 ^ (k.ex + 26))) .capBnd (u64 v)
  pure (k.withCursor v.toNat)

/-- CSETA (R119). -/
def execCseta (kd ka : BitVec 3) (b : Src) (s : State) : Host.Outcome State Fault Refusal :=
  runInstr 4 (do
    let v ← src b
    let k ← kreg ka
    let r ← moveCursor k v.toNat
    setK kd r
    pure .next) s

/-- CINC (R119): S is signed. -/
def execCinc (kd ka : BitVec 3) (b : Src) (s : State) : Host.Outcome State Fault Refusal :=
  runInstr 4 (do
    let v ← src b
    let k ← kreg ka
    let r ← moveCursor k (k.cursor + v.toInt)
    setK kd r
    pure .next) s

/-- [lo, hi) widened to granules of 2^e bytes (R120). -/
def granules (lo hi e : Nat) : Nat × Nat := (lo / 2 ^ e * 2 ^ e, roundUp hi (2 ^ e))

/-- The smallest exponent whose block holds the widened bounds, 27 when none does (R120). -/
def boundExp (lo hi : Nat) : Nat :=
  ((List.range 28).find? fun e => (granules lo hi e).1 / 2 ^ (e + 26) = (granules lo hi e).2 / 2 ^ (e + 26)).getD 27

/-- CBOUND (R120). -/
def execCbound (exact : Bool) (kd ka : BitVec 3) (b : Src) (s : State) : Host.Outcome State Fault Refusal :=
  runInstr 4 (do
    let v ← src b
    let k ← kreg ka
    let lo := k.cursor
    let hi := lo + v.toNat
    let e := boundExp lo hi
    let nb := (granules lo hi e).1
    let nt := (granules lo hi e).2
    require k.tag .capTag (u64 k.cursor)
    require (decide (k.base ≤ nb) && decide (nt ≤ k.top) && decide (nt ≤ 2 ^ 52)) .capBnd (u64 hi)
    require (!exact || (nb == lo && nt == hi)) .capBnd (u64 hi)
    let blk := nb / 2 ^ (e + 26) * 2 ^ (e + 26)
    setK kd { k with bits := packCap ((nt - blk) / 2 ^ e) ((nb - blk) / 2 ^ e) e k.perm k.space k.cursor }
    pure .next) s

/-- CPERM (R121). -/
def execCperm (kd ka : BitVec 3) (b : Src) (s : State) : Host.Outcome State Fault Refusal :=
  runInstr 4 (do
    let v ← src b
    let k ← kreg ka
    require k.tag .capTag (u64 k.cursor)
    setK kd { k with bits := putBits k.bits 56 8 (k.perm % 128 &&& (255 - v.toNat % 256)) }
    pure .next) s

/-- How far a GLOBAL alias lies from a SCRATCH or VAULT address (R117, R168). -/
def State.aliasShift (s : State) (p space : Nat) : Nat :=
  if space = 2 then (s.partReg p 0x808).toNat else if space = 1 then (s.partReg p 0x809).toNat else 0

/-- The GLOBAL alias of a capability (R117): none when no exponent encodes its bounds. -/
def State.globalCap (s : State) (p : Nat) (k : Cap) : Option Cap :=
  let sh := s.aliasShift p k.space
  let cur := k.cursor + sh
  let lo := k.base + sh
  let hi := k.top + sh
  let kept : Cap := { tag := true, bits := packCap k.tOff k.bOff k.ex k.perm 0 cur }
  if k.space = 0 then some k
  else if cur ≥ 2 ^ 52 ∨ hi > 2 ^ 52 then none
  else if kept.base = lo ∧ kept.top = hi then some kept
  else capFor 0 k.perm cur lo hi

/-- The GLOBAL address that a GLOBAL, SCRATCH or VAULT address has (R117), as TASKREC and TVAL give it. -/
def State.globalAddr (s : State) (p space v : Nat) : Nat := v + s.aliasShift p space

/-- CGEN (R117). -/
def execCgen (kd ka : BitVec 3) (s : State) : Host.Outcome State Fault Refusal :=
  runInstr 4 (do
    let k ← kreg ka
    let s ← get
    require k.tag .capTag (u64 k.cursor)
    require (decide (k.space ≤ 2)) .capSpace (u64 k.cursor)
    match s.globalCap (s.partOfSlot s.cur) k with
    | some r => setK kd r
    | none => trap .capBnd (u64 k.cursor)
    pure .next) s

/-- Whether CEQ finds two capabilities equal (R118). -/
def capEq (a b : Cap) : Bool :=
  a.tag == b.tag &&
    (if a.tag then a.space == b.space && a.perm == b.perm && a.cursor == b.cursor && a.base == b.base && a.top == b.top
     else a.bits == b.bits)

/-- CEQ (R118). -/
def execCeq (d : Dst) (ka kb : BitVec 3) (s : State) : Host.Outcome State Fault Refusal :=
  runInstr 4 (do
    let a ← kreg ka
    let b ← kreg kb
    dst d (flag (capEq a b))
    pure .next) s

/-- CSUB (R118). TVAL of its CAPSPACE is the cursor of ka (DESIGN CHOICE, log 74). -/
def execCsub (d : Dst) (ka kb : BitVec 3) (s : State) : Host.Outcome State Fault Refusal :=
  runInstr 4 (do
    let a ← kreg ka
    let b ← kreg kb
    require (a.space == b.space) .capSpace (u64 a.cursor)
    dst d (u64 ((a.cursor : Int) - b.cursor))
    pure .next) s

/-- A record of the buffer-record pool as LDK makes a capability of it, for core `c` (R122); the error is the trap. -/
def poolCap (bits : BitVec 128) (c addr : Nat) : Exec Cap := do
  let k : Cap := { tag := true, bits := bits }
  require (decide (k.space ≤ 6) && !bitAt bits 63 && decide ((fld bits 122 6).toNat = 0)) .capSpace (u64 k.cursor)
  let k := if k.space = 2 then { k with bits := putBits k.bits 18 10 c }
    else if k.space = 1 then { k with bits := putBits k.bits 25 7 (clusterOf c) }
    else if k.space = 3 then { k with bits := putBits k.bits 62 1 0 }
    else k
  require k.legal .capBnd (u64 addr)
  pure k

/-- `n` bytes of the image that `pcc` bounds, loaded at `v` by step `i` of an instruction (R122, R240). -/
def loadImage (i : Nat) (pcc : Cap) (v n : Nat) : Exec Nat := do
  let o ← inStep i (do
    let w ← loadAny pcc v n { spaces := [0], perm := [], align := n } []
    pure { bytes := toBytes n w })
  pure (leAt o.bytes 0 n)

/-- Record `idx` of the pool at the start of code capability `pcc`, in steps `i` and `i + 1` of an instruction (R122). -/
def loadPool (i : Nat) (pcc : Cap) (idx : Nat) : Exec Cap := do
  let n ← loadImage i pcc pcc.base 2
  let addr := pcc.base + 16 * idx
  require (decide (idx ≠ 0) && decide (idx < n)) .capBnd (u64 addr)
  let c ← loadImage (i + 1) pcc addr 16
  let s ← get
  poolCap (BitVec.ofNat 128 c) (coreOf s.cur) addr

/-- LDK (R122). -/
def execLdk (kd : BitVec 3) (idx : BitVec 10) (s : State) : Host.Outcome State Fault Refusal :=
  runInstr 4 (do
    let x ← getSlot
    let k ← loadPool 0 x.pcc idx.toNat
    forget
    setK kd k
    pure .next) s

end Sys2Proof.Machine
end

