-- ==== Sys2Proof/Machine/Fetch.lean ====
section
/-!
DEFINITION. Instruction fetch (R27, R248): through the code capability, from the core's instruction buffer or from
the home, and the decoding of what was fetched with the traps of R50 to R52.
-/

namespace Sys2Proof.Machine

/-- A fetch block put into the buffer of core `c`, in the place of another when 64 stand there (R248, log 7). -/
def State.bufferBlock (s : State) (c : Nat) (b : IBlock) : State :=
  if (s.core c).ibuf.length < 64 then s.modCore c fun x => { x with ibuf := x.ibuf ++ [b] }
  else
    { s.modCore c fun x => { x with ibuf := x.ibuf.eraseIdx (Config.victim s.tick % 64) ++ [b] } with tick := s.tick + 1 }

/-- The 32-byte block that holds GLOBAL address `a`: from the buffer, or read at its home (R248), an absent granule filled
first (R220). -/
def fetchBlock (a : Nat) : Exec (List Byte) := do
  let s ← get
  let c := coreOf s.cur
  let x := s.slot s.cur
  let q := s.partOfSlot s.cur
  match (s.core c).ibuf.find? fun b => b.part == q && b.tenant == x.tenant && b.block == a / 32 with
  | some b => pure b.bytes
  | none =>
    let p ← locate (s.who s.cur) 0 a 2 [3]
    match p with
    | .mem key _ _ =>
      let s0 ← get
      let k := key - a % 32
      await (!s0.fillWaits k 32)
      let s := s0.fillFor k 32
      require (!s.poisoned k) .mcheck (u64 (physOf k))
      let bs := s.bytes k 32
      set (s.bufferBlock c { part := q, tenant := x.tenant, block := a / 32, bytes := bs })
      pure bs
    | _ => trap .capSpace (u64 a)

/-- The halfword at `a`, as a number. -/
def fetchHalf (a : Nat) : Exec Nat := do
  let bs ← fetchBlock a
  pure (leAt bs (a % 32) 2)

/-- `fetch(a, n)` of R27, for 2 or 4 bytes. The bounds are checked for all `n` bytes, the translation halfword by
halfword (DEDUCED, log 17). -/
def fetch (a n : Nat) : Exec Nat := do
  let x ← getSlot
  let _ ← checkCap x.pcc a n { spaces := [0], perm := [2], align := 2 }
  let lo ← fetchHalf a
  if n = 2 then pure lo
  else
    let hi ← fetchHalf (a + 2)
    pure (lo + 2 ^ 16 * hi)

/-- The length that a first halfword gives (R26). -/
def lengthOf (h : Nat) : Nat := if h % 4 < 2 then 2 else if h % 4 = 2 then 4 else 8

/-- The bytes of the instruction at the program counter, in the order of fetches of R27. A prefix that no 32-bit
word follows ends there. -/
def fetchBytes (pc : Nat) : Exec (List Byte) := do
  let h ← fetch pc 2
  if h % 4 < 2 then pure (toBytes 2 h)
  else
    let w ← fetch pc 4
    if h % 4 = 2 then pure (toBytes 4 w)
    else
      let h1 ← fetch (pc + 4) 2
      if h1 % 4 ≠ 2 then pure (toBytes 4 w ++ toBytes 2 h1)
      else
        let w1 ← fetch (pc + 4) 4
        pure (toBytes 4 w ++ toBytes 4 w1)

/-- What the current slot finds at its program counter: an instruction of a length, a trap with ILEN (R27, R203), or a fetch
that waits for a fill (R220). -/
inductive Fetched where
  | wait
  | instr (i : Instr) (len : Nat)
  | trap (c : Cause) (tval : U64) (ilen : Nat)

/-- The length of the instruction at the program counter, 0 when its first halfword cannot be fetched (R203). -/
def State.fetchLen (s : State) : Nat :=
  match (fetch (s.slot s.cur).pc 2) s with
  | .ok (h, _) => lengthOf h
  | .error _ => 0

/-- Fetch and decode at the program counter of the current slot: what it finds, and the state with what the fetch
has buffered. -/
noncomputable def State.fetchDecode (s : State) : Fetched × State :=
  match fetchBytes (s.slot s.cur).pc s with
  | .error (.trap c v) => (.trap c v s.fetchLen, s)
  | .error _ => (.wait, s)
  | .ok (bs, s') =>
    match decodeBytes bs with
    | .ok (i, len) => (.instr i len, s')
    | .error (.illop len tval) => (.trap .illop tval len, s')
    | .error (.illpfx tval) => (.trap .illpfx tval 4, s')
    | .error .short => (.trap .illop 0#64 0, s')

end Sys2Proof.Machine
end

