-- ==== Sys2Proof/Machine/Control.lean ====
section
/-!
DEFINITION. Control flow: branches (R125), jumps and calls (R126, R127), hardware loops (R129 to R131), guards
(R135 to R137), REALIGN (R140), NOP, and the events of mailboxes and guards (R134, R136).
-/

namespace Sys2Proof.Machine

/-! ## Branches -/

/-- The target of a relative transfer from the current instruction (R124). -/
def relTarget (off : Int) : Exec Int := do
  let x ← getSlot
  pure (x.pc + 2 * off)

/-- A taken relative transfer that leaves bodies (R124, R131). -/
def takeBranch (off : Int) : Exec Flow := do
  let x ← getSlot
  let t ← relTarget off
  checkTarget x.pcc t
  modSlot fun y => y.leave t.toNat
  pure (.jump t.toNat)

/-- A branch (R125). -/
def branch (taken : Bool) (off : Int) : Exec Flow := if taken then takeBranch off else pure .next

/-- A member of BRC (R125, R35). -/
def branchCond (cc : BitVec 3) (a b : Src) (off : BitVec 11) : Exec Flow := do
  let x ← src a
  let y ← src b
  branch (condHolds cc x y) off.toInt

/-- BEQ (R125). -/
def execBeq (a b : Src) (off : BitVec 11) (s : State) : Host.Outcome State Fault Refusal := runInstr 4 (branchCond 0#3 a b off) s
/-- BNE (R125). -/
def execBne (a b : Src) (off : BitVec 11) (s : State) : Host.Outcome State Fault Refusal := runInstr 4 (branchCond 1#3 a b off) s
/-- BLT (R125). -/
def execBlt (a b : Src) (off : BitVec 11) (s : State) : Host.Outcome State Fault Refusal := runInstr 4 (branchCond 2#3 a b off) s
/-- BGE (R125). -/
def execBge (a b : Src) (off : BitVec 11) (s : State) : Host.Outcome State Fault Refusal := runInstr 4 (branchCond 3#3 a b off) s
/-- BLTU (R125). -/
def execBltu (a b : Src) (off : BitVec 11) (s : State) : Host.Outcome State Fault Refusal := runInstr 4 (branchCond 4#3 a b off) s
/-- BGEU (R125). -/
def execBgeu (a b : Src) (off : BitVec 11) (s : State) : Host.Outcome State Fault Refusal := runInstr 4 (branchCond 5#3 a b off) s
/-- BBS (R125). -/
def execBbs (a b : Src) (off : BitVec 11) (s : State) : Host.Outcome State Fault Refusal := runInstr 4 (branchCond 6#3 a b off) s
/-- BBC (R125). -/
def execBbc (a b : Src) (off : BitVec 11) (s : State) : Host.Outcome State Fault Refusal := runInstr 4 (branchCond 7#3 a b off) s

/-- BEZ and BNZ (R125): taken when A = 0 is `z`. -/
def branchZero (z : Bool) (a : Src) (off : Int) : Exec Flow := do
  let x ← src a
  branch ((x == 0#64) == z) off

/-- BEZ (R125). -/
def execBez (a : Src) (off : BitVec 18) (s : State) : Host.Outcome State Fault Refusal := runInstr 4 (branchZero true a off.toInt) s
/-- BNZ (R125). -/
def execBnz (a : Src) (off : BitVec 18) (s : State) : Host.Outcome State Fault Refusal := runInstr 4 (branchZero false a off.toInt) s
/-- BEZ.c (R45). -/
def execBezC (off : BitVec 10) (s : State) : Host.Outcome State Fault Refusal := runInstr 2 (branchZero true (.age 0#4) off.toInt) s
/-- BNZ.c (R45). -/
def execBnzC (off : BitVec 10) (s : State) : Host.Outcome State Fault Refusal := runInstr 2 (branchZero false (.age 0#4) off.toInt) s

/-- A guard's value: a pending guard blocks, a clear one raises ILLOP (R137). -/
def guardValue (g : BitVec 4) (tval : U64) : Exec Bool := do
  let x ← getSlot
  match x.guards.get Guard.clear g.toNat with
  | .resolved v => pure v
  | .pending .. => block
  | .clear => trap .illop tval

/-- BGS (R125, R137). -/
def execBgs (g : BitVec 4) (off : BitVec 18) (s : State) : Host.Outcome State Fault Refusal :=
  runInstr 4 (do
    let v ← guardValue g (wordVal (encode (.bgs g off)))
    branch v off.toInt) s

/-- BGC (R125, R137). -/
def execBgc (g : BitVec 4) (off : BitVec 18) (s : State) : Host.Outcome State Fault Refusal :=
  runInstr 4 (do
    let v ← guardValue g (wordVal (encode (.bgc g off)))
    branch (!v) off.toInt) s

/-! ## Jumps -/

/-- J (R126, R127). -/
def execJ (off : BitVec 23) (s : State) : Host.Outcome State Fault Refusal := runInstr 4 (takeBranch off.toInt) s
/-- J.c (R45). -/
def execJC (off : BitVec 10) (s : State) : Host.Outcome State Fault Refusal := runInstr 2 (takeBranch off.toInt) s

/-- k7 := PCC at the next instruction (R127). -/
def link : Exec Unit := modSlot fun x => { x with k := x.k.set Cap.null 7 (x.pcc.withCursor (x.pc + 4)) }

/-- CALL (R126, R127): it closes no level (R131). -/
def execCall (off : BitVec 23) (s : State) : Host.Outcome State Fault Refusal :=
  runInstr 4 (do
    let x ← getSlot
    let t ← relTarget off.toInt
    checkTarget x.pcc t
    link
    pure (.jump t.toNat)) s

/-- The checks of a code capability (R127): tag, space, X, bit 0 of its cursor, and its target. -/
def checkCode (k : Cap) : Exec Unit := do
  require k.tag .capTag (u64 k.cursor)
  require (k.space == 0) .capSpace (u64 k.cursor)
  require (k.has 2) .capPerm (u64 k.cursor)
  require (decide (k.cursor % 2 = 0)) .align (u64 k.cursor)
  checkTarget k k.cursor

/-- JK's effect (R127, R131). -/
def jumpCap (i : BitVec 3) : Exec Flow := do
  let k ← kreg i
  checkCode k
  modSlot fun x => { x.leave k.cursor with pcc := k }
  pure (.jump k.cursor)

/-- JK (R126, R127). -/
def execJk (k : BitVec 3) (s : State) : Host.Outcome State Fault Refusal := runInstr 4 (jumpCap k) s
/-- RET.c (R45): JK k7. -/
def execRetC (s : State) : Host.Outcome State Fault Refusal := runInstr 2 (jumpCap 7#3) s

/-- CALLK (R126, R127): k is read before k7 is written. -/
def execCallk (k : BitVec 3) (s : State) : Host.Outcome State Fault Refusal :=
  runInstr 4 (do
    let c ← kreg k
    checkCode c
    link
    modSlot fun x => { x with pcc := c }
    pure (.jump c.cursor)) s

/-- NOP (R45). -/
def execNop (s : State) : Host.Outcome State Fault Refusal := runInstr 2 (pure .next) s

/-! ## Hardware loops -/

/-- The tests of a loop instruction before its count is taken (R129): a free level, and Eend. -/
def loopPast (off : Nat) (tval : U64) : Exec Nat := do
  let x ← getSlot
  require (decide (x.loops.length < 3)) .loopDeep tval
  let e := x.pc + 2 * off
  let h ← fetch e 2
  pure (e + lengthOf h)

/-- A level opened, or the body skipped for a count of 0 (R129). -/
def openLoop (off past : Nat) (n : U64) : Exec Flow := do
  let x ← getSlot
  if n = 0#64 then pure (.jump past)
  else
    modSlot fun y => { y with loops := y.loops ++ [{ start := x.pc + 4, last := x.pc + 2 * off, past := past, count := n }] }
    pure (.jump (x.pc + 4))

/-- LOOP (R129). -/
def execLoop (a : Src) (off : BitVec 18) (s : State) : Host.Outcome State Fault Refusal :=
  runInstr 4 (do
    let n ← src a
    let past ← loopPast off.toNat (wordVal (encode (.loop a off)))
    openLoop off.toNat past n) s

/-- LOOPM (R129): the mailbox is consumed as it issues. -/
def execLoopm (i : BitVec 3) (off : BitVec 18) (s : State) : Host.Outcome State Fault Refusal :=
  runInstr 4 (do
    let past ← loopPast off.toNat (wordVal (encode (.loopm i off)))
    let s ← get
    let c := coreOf s.cur
    await (bitAt (s.core c).mbxp i.toNat)
    set (s.mbxpWrite c (BitVec.ofNat 8 (2 ^ i.toNat)))
    openLoop off.toNat past ((s.core c).mbx.get 0#64 i.toNat)) s

/-- LOOPI (R129). -/
def execLoopi (cnt : BitVec 10) (off : BitVec 14) (s : State) : Host.Outcome State Fault Refusal :=
  runInstr 4 (do
    let past ← loopPast off.toNat (wordVal (encode (.loopi cnt off)))
    openLoop off.toNat past (cnt.setWidth 64)) s

/-- LEXIT (R45, R131). -/
def execLexit (s : State) : Host.Outcome State Fault Refusal :=
  runInstr 2 (do
    let x ← getSlot
    match (x.loops.drop x.hidden).getLast? with
    | none => trap .illop (wordVal (encode .lexit))
    | some l =>
      modSlot fun y => { y with loops := y.loops.dropLast }
      pure (.jump l.past)) s

/-! ## Guards -/

/-- An operand as GSET captures it (R136). -/
def Slot.guardOp (x : Slot) (a : Src) : GuardOp :=
  match a with
  | .age _ => .have ((x.read a).getD 0#64)
  | .nam i => if x.present i.toNat then .have (x.named i.toNat) else .need i.toNat

/-- A guard whose operands are captured takes its value (R136). -/
def Guard.settled : Guard → Guard
  | .pending neg cc (.have a) (.have b) => .resolved (condHolds cc a b != neg)
  | g => g

/-- Guard `g` of the current slot replaced. -/
def setGuard (g : BitVec 4) (v : Guard) : Exec Flow := do
  modSlot fun x => { x with guards := x.guards.set Guard.clear g.toNat v }
  pure .next

/-- Whether a card waits for the first resolution of guard `i` of task `tid` (R138). -/
def Card.awaits (c : Card) (tid i : Nat) : Bool :=
  match c.guard, c.issuer, c.bound with
  | some (j, _), some (_, t), none => j == i && t == tid
  | _, _, _ => false

/-- Cards of slot `g`'s task bound to guard `i` by its first resolution (R138); held no longer, they are queued (R317). -/
def State.bindCards (s : State) (g i : Nat) (v : Bool) : State :=
  let tid := (s.slot g).tid
  let mine := s.cards.filter fun c => c.awaits tid i
  if mine.isEmpty then s
  else
    let fix := fun (c : Card) => if c.awaits tid i then { c with bound := some v } else c
    let s := mine.foldl (fun s c => s.cardState c [2#8]) s
    { s with engines := s.engines.map fun e => (e.1, { e.2 with queues := e.2.queues.map fun q => (q.1, q.2.map fix) }) }

/-- GSET and GSETN (R136): they cancel what is pending, and never block. A guard that resolves at once binds the commands
that wait for it (R138). -/
def guardSet (neg : Bool) (cc : BitVec 3) (g : BitVec 4) (a b : Src) : Exec Flow := do
  let x ← getSlot
  let v := Guard.settled (.pending neg cc (x.guardOp a) (x.guardOp b))
  match v with
  | .resolved r => modify fun s => s.bindCards s.cur g.toNat r
  | _ => pure ()
  setGuard g v

/-- GSET (R136). -/
def execGset (cc : BitVec 3) (g : BitVec 4) (a b : Src) (s : State) : Host.Outcome State Fault Refusal :=
  runInstr 4 (guardSet false cc g a b) s
/-- GSETN (R136). -/
def execGsetn (cc : BitVec 3) (g : BitVec 4) (a b : Src) (s : State) : Host.Outcome State Fault Refusal :=
  runInstr 4 (guardSet true cc g a b) s
/-- GCLR (R136). -/
def execGclr (g : BitVec 4) (s : State) : Host.Outcome State Fault Refusal := runInstr 4 (setGuard g .clear) s
/-- GWAIT (R136, R137). -/
def execGwait (g : BitVec 4) (s : State) : Host.Outcome State Fault Refusal :=
  runInstr 4 (do
    let _ ← guardValue g (wordVal (encode (.gwait g)))
    pure .next) s

/-- A pending guard with both operands captured resolves, and binds the commands that wait on it (R136, R138). -/
def State.resolveGuard (s : State) (g i : Nat) : Option State :=
  match ((s.slot g).guards.get Guard.clear i).settled, (s.slot g).guards.get Guard.clear i with
  | .resolved v, .pending .. =>
    some ((s.modSlot g fun x => { x with guards := x.guards.set Guard.clear i (.resolved v) }).bindCards g i v)
  | _, _ => none

/-- GUARD_RESOLVE (R136). -/
def execGuardResolve (slot g : Nat) (s : State) : Host.Outcome State Fault Refusal :=
  runEvent "GUARD_RESOLVE" (s.resolveGuard slot g)

/-! ## REALIGN (R140) -/

/-- Whether slot `x` is held by REALIGN `tag` at `va` in cycle `now`. -/
def Slot.heldAt (x : Slot) (tag va now : Nat) : Bool :=
  match x.wait with
  | .realign t a _ till => t == tag && a == va && decide (now < till)
  | _ => false

/-- A slot's REALIGN hold ends (R140). -/
def State.endRealign (s : State) (g : Nat) : State :=
  match (s.slot g).wait with
  | .realign _ _ len _ => s.complete g len
  | _ => s

/-- REALIGN's effect for an instruction of `len` bytes: every slot of the cluster held at the same tag and address
under the same tenant's translation is released; with none, the slot is held. -/
def realign (len tag : Nat) : Exec Flow := do
  let s ← get
  let x := s.slot s.cur
  let cl := clusterOf (coreOf s.cur)
  let met := (List.range 96).filter fun i =>
    let g := 96 * cl + i
    let y := s.slot g
    y.live && y.tenant == x.tenant && s.partOfSlot g == s.partOfSlot s.cur && y.heldAt tag x.pc s.now
  if met.isEmpty then
    modSlot fun y => { y with wait := Wait.realign tag x.pc len (s.now + 64) }
    pure .hold
  else
    set (met.foldl (fun s i => s.endRealign (96 * cl + i)) s)
    pure .next

/-- REALIGN (R140). -/
def execRealign (tag : BitVec 10) (s : State) : Host.Outcome State Fault Refusal := runInstr 4 (realign 4 tag.toNat) s
/-- REALIGN.c (R45, R140). -/
def execRealignC (tag : BitVec 10) (s : State) : Host.Outcome State Fault Refusal := runInstr 2 (realign 2 tag.toNat) s

/-- A hold of 64 cycles ends (R140). -/
def State.realignDue (s : State) (g : Nat) : Option State :=
  match (s.slot g).wait with
  | .realign _ _ _ till => if till ≤ s.now then some (s.endRealign g) else none
  | _ => none

/-- REALIGN_TIMEOUT (R140). -/
def execRealignTimeout (slot : Nat) (s : State) : Host.Outcome State Fault Refusal :=
  runEvent "REALIGN_TIMEOUT" (s.realignDue slot)

/-! ## Mailbox events (R133, R134) -/

/-- MAILBOX_WRITE: a write of the host or of another package arrives. -/
def execMailboxWrite (core i : Nat) (v : U64) (s : State) : Host.Outcome State Fault Refusal :=
  runEvent "MAILBOX_WRITE" (if core < 640 ∧ i < 8 then some (s.mailboxArrive core i { v := v, slot := none }) else none)

/-- MBXP_CLEAR: a W1C write of the host or of another package. -/
def execMbxpClear (core : Nat) (m : BitVec 8) (s : State) : Host.Outcome State Fault Refusal :=
  runEvent "MBXP_CLEAR" (if core < 640 then some (s.mbxpWrite core m) else none)

/-- The oldest write held at a mailbox is performed once PRESENT is clear; an MTS held this way completes, and so does the
access of a store (R134), which may be the last of a tile's commit (R369). -/
def State.heldMailbox (s : State) (c i : Nat) : Option State :=
  match (s.core c).mbxHeld.get [] i with
  | [] => none
  | w :: rest =>
    if bitAt (s.core c).mbxp i then none
    else
      let s := s.modCore c fun x =>
        { x with mbx := x.mbx.set 0#64 i w.v, mbxp := x.mbxp ||| BitVec.ofNat 8 (2 ^ i), mbxHeld := x.mbxHeld.set [] i rest }
      some (match w.slot, w.store.bind fun id => s.flight.find? fun a => a.id == id with
        | some g, _ => s.complete g 4
        | none, some a => ({ s with flight := s.flight.filter fun x => x.id ≠ a.id }.sendReturn a false).settleCommit a.slot
        | none, none => s)

/-- HELD_MAILBOX_WRITE (R134). -/
def execHeldMailboxWrite (core i : Nat) (s : State) : Host.Outcome State Fault Refusal :=
  runEvent "HELD_MAILBOX_WRITE" (s.heldMailbox core i)

end Sys2Proof.Machine
end

