-- ==== Sys2Proof/Machine/Rng.lean ====
section
/-!
DEFINITION. Jumps of the slot generator (R102 to R104). Polynomials over GF(2) are numbers: bit i is the
coefficient of x^i.
-/

namespace Sys2Proof.Machine

/-- The characteristic polynomial p of the step of R101 (R102). DEDUCED (log 16): computed from R101. -/
def stepPoly : Nat := 0x101f9f801f6fd0098bd82fd40e01730f9

/-- `a` times `b` modulo p, for the low `n` bits of `b`. -/
def polyMul : Nat → Nat → Nat → Nat → Nat
  | 0, _, _, acc => acc
  | n + 1, a, b, acc =>
    let a2 := if 2 * a ≥ 2 ^ 128 then (2 * a) ^^^ stepPoly else 2 * a
    polyMul n a2 (b / 2) (if b % 2 = 1 then acc ^^^ a else acc)

/-- The square of a polynomial modulo p. -/
def polySquare (a : Nat) : Nat := polyMul 128 a a 0

/-- A polynomial squared `n` times. -/
def polySquares : Nat → Nat → Nat
  | 0, a => a
  | n + 1, a => polySquares n (polySquare a)

/-- J0 = x^(2^64) mod p (R102). -/
def jump0 : Nat := polySquares 64 2

/-- A state (lo, hi) advanced by a polynomial (R102): `n` coefficients of `poly`, the lowest first. -/
def advanceBy : Nat → Nat → U64 → U64 → U64 × U64 → U64 × U64
  | 0, _, _, _, acc => acc
  | n + 1, poly, lo, hi, acc =>
    let acc := if poly % 2 = 1 then (acc.1 ^^^ lo, acc.2 ^^^ hi) else acc
    let r := rngStep lo hi
    advanceBy n (poly / 2) r.2.1 r.2.2 acc

/-- A state advanced by `n` x 2^64 steps, for the low `k` bits of `n`, with `j` the polynomial of bit 0 (R102). -/
def jumpBy : Nat → Nat → Nat → U64 × U64 → U64 × U64
  | 0, _, _, st => st
  | k + 1, n, j, st =>
    jumpBy k (n / 2) (if n / 2 = 0 then j else polySquare j) (if n % 2 = 1 then advanceBy 128 j st.1 st.2 (0#64, 0#64) else st)

/-- The seed of partition `p` advanced by `n` x 2^64 steps (R103, R104). -/
def State.seeded (s : State) (p n : Nat) : U64 × U64 :=
  jumpBy 64 n (if n = 0 then 0 else jump0) (s.partReg p 0x806, s.partReg p 0x807)

end Sys2Proof.Machine
end

