-- ==== Sys2Proof/Machine/Move.lean ====
section
/-!
DEFINITION. The move group (R93 to R105), XSET (R48), the compact moves (R44, R45), and the events of NWR at its
target (R95, R96).
-/

namespace Sys2Proof.Machine

/-! ## Moves -/

/-- XSET (R48). -/
def execXset (x : BitVec 3) (imm : BitVec 16) (part : BitVec 2) (s : State) : Host.Outcome State Fault Refusal :=
  runInstr 4 (do
    modSlot fun y => { y with x := y.x.set 0#64 x.toNat (putBits (y.xreg x.toNat) (16 * part.toNat) 16 imm.toNat) }
    pure .next) s

/-- MOV's effect (R94). -/
def move (d : Dst) (a : Src) : Exec Flow := do
  let v ← src a
  dst d v
  pure .next

/-- MOV (R93, R94). -/
def execMov (d : Dst) (a : Src) (s : State) : Host.Outcome State Fault Refusal := runInstr 4 (move d a) s

/-- MOV.c nb, ta (R44). -/
def execMovCToNamed (b a : BitVec 4) (s : State) : Host.Outcome State Fault Refusal := runInstr 2 (move (.nam b) (.age a)) s

/-- MOV.c _, nb (R44). -/
def execMovCFromNamed (b : BitVec 4) (s : State) : Host.Outcome State Fault Refusal := runInstr 2 (move .queue (.nam b)) s

/-- MOV.c _, ta (R44). -/
def execMovCAge (a : BitVec 4) (s : State) : Host.Outcome State Fault Refusal := runInstr 2 (move .queue (.age a)) s

/-- XGET (R92, R93). -/
def execXget (d : Dst) (x : BitVec 3) (s : State) : Host.Outcome State Fault Refusal :=
  runInstr 4 (do
    let y ← getSlot
    dst d (y.xreg x.toNat)
    pure .next) s

/-- XSETR (R94). -/
def execXsetr (x : BitVec 3) (a : Src) (s : State) : Host.Outcome State Fault Refusal :=
  runInstr 4 (do
    let v ← src a
    modSlot fun y => { y with x := y.x.set 0#64 x.toNat v }
    pure .next) s

/-- NCLR's effect (R87, R94): the presence bit cleared, the value left. -/
def clearNamed (n : BitVec 4) : Exec Flow := do
  modSlot fun x => { x with pres := x.pres &&& ~~~BitVec.ofNat 16 (2 ^ n.toNat) }
  pure .next

/-- NCLR (R93, R94). -/
def execNclr (n : BitVec 4) (s : State) : Host.Outcome State Fault Refusal := runInstr 4 (clearNamed n) s

/-- NCLR.c (R45). -/
def execNclrC (n : BitVec 4) (s : State) : Host.Outcome State Fault Refusal := runInstr 2 (clearNamed n) s

/-- NTEST (R93, R94): it never blocks. -/
def execNtest (d : Dst) (n : BitVec 4) (s : State) : Host.Outcome State Fault Refusal :=
  runInstr 4 (do
    let x ← getSlot
    dst d (flag (x.present n.toNat))
    pure .next) s

/-! ## NWR -/

/-- Column and row of the neighbour in a direction (R95): 0 is +x, 1 is -x, 2 is +y, 3 is -y. -/
def neighbour (c : Nat) (dir : BitVec 2) : Int × Int :=
  let x : Int := coreX c
  let y : Int := coreY c
  match dir.toNat with
  | 0 => (x + 1, y)
  | 1 => (x - 1, y)
  | 2 => (x, y + 1)
  | _ => (x, y - 1)

/-- The TVAL of NWR's XPERM: slot, row and column of the target (R95). -/
def nwrTval (slot : Nat) (x y : Int) : U64 := BitVec.ofNat 64 (slot * 2 ^ 16 + wrapNat y 8 * 2 ^ 8 + wrapNat x 8)

/-- NWR (R95, R96, R151): the write goes to its target, and the slot is held until it is performed there. -/
def execNwr (dir : BitVec 2) (n : BitVec 4) (a : Src) (slot : BitVec 5) (s : State) : Host.Outcome State Fault Refusal :=
  runInstr 4 (do
    let v ← src a
    notLatent
    let s ← get
    let (x, y) := neighbour (coreOf s.cur) dir
    let tval := nwrTval slot.toNat x y
    let c := coreAt x.toNat y.toNat
    let g := c * 12 + slot.toNat
    require (decide (0 ≤ x) && decide (x < 32) && decide (0 ≤ y) && decide (y < 20) && s.ownsCore (s.partOfSlot s.cur) c) .xperm tval
    require (slotNo s.cur ≠ 11 || dieOf c == dieOf (coreOf s.cur)) .xperm tval
    releaseWait
    let i ← newNo
    modify fun s =>
      let t : State := { s with nwrs := s.nwrs ++ [{ id := i, src := s.cur, dst := g, tid := none, n := n.toNat, v := v }] }
      t.post i (s.messageClass (s.partOfSlot s.cur) (s.slot s.cur).tenant none) false s.cur c (meshPath (coreOf s.cur) c)
    modSlot fun x => { x with wait := Wait.nwr }
    pure .hold) s

/-- Whether the program at which an NWR arrived still runs at its target (R96). -/
def State.nwrAlive (s : State) (r : NwrReq) : Bool := r.tid.isSome && s.runs r.dst == r.tid

/-- The acknowledgement of an NWR of task `tid` has come to slot `g`: it completes there (R95). -/
def State.nwrDone (s : State) (g tid : Nat) : State :=
  if (s.slot g).tid = tid ∧ (s.slot g).wait = Wait.nwr then s.complete g 4 else s

/-- The oldest NWR held for register `n` of slot `g` is performed once the register is clear, and acknowledged (R95, R407): the
state then. One that crosses a die boundary is performed by the target core's message thread, unless it goes to the message itself
(R12, R95). -/
def State.nwrPerform (s : State) (g n : Nat) : Option State :=
  match s.nwrs.find? fun r => r.dst == g && r.n == n && r.tid.isSome with
  | none => none
  | some r =>
    if s.nwrAlive r && (s.slot g).live && !(s.slot g).present n &&
        (slotNo g == 11 || s.threadFree (coreOf r.src) (coreOf g) false) then
      let s := { s with nwrs := s.nwrs.erase r }
      let tid := (s.slot r.src).tid
      let cls := s.messageClass (s.partOfSlot r.src) (s.slot r.src).tenant none
      let path := meshPath (coreOf g) (coreOf r.src)
      let s := (s.modSlot g fun x => x.setNamed n r.v).respond (coreOf g) (coreOf r.src) cls path (some (r.src, .nwr r.src tid))
      some (if path = [] then s.nwrDone r.src tid else s)
    else none

/-- NWR_HELD_WRITE: the write at register `n` of slot `slot` is performed, and its acknowledgement sent (R95). -/
def execNwrHeldWrite (slot n : Nat) (s : State) : Host.Outcome State Fault Refusal :=
  runEvent "NWR_HELD_WRITE" (s.nwrPerform slot n)

/-- An NWR of slot `g` resolved without being performed (R96): returned with XPERM when its target no longer runs the
program at which it arrived, or withdrawn when its own slot stops for a pre-emption. -/
def State.nwrResolve (s : State) (g : Nat) : Option State :=
  match s.nwrs.find? fun r => r.src == g && r.tid.isSome with
  | none => none
  | some r =>
    let s' := { s with nwrs := s.nwrs.erase r }
    if !s.nwrAlive r then
      let c := coreOf r.dst
      s'.takeTrap g .xperm (nwrTval (slotNo r.dst) (coreX c) (coreY c)) 4
    else if s.mayStop g then
      some (s'.modSlot g fun x => { x with wait := Wait.none, stopped := some none })
    else none

/-- NWR_WITHDRAWAL (R96). -/
def execNwrWithdrawal (src : Nat) (s : State) : Host.Outcome State Fault Refusal := runEvent "NWR_WITHDRAWAL" (s.nwrResolve src)

/-! ## Borrowing -/

/-- Whether slot `g` is an idle helper that nothing reserves, borrows or holds (R97, R177, R191). -/
def State.freeHelper (s : State) (g : Nat) : Bool :=
  let x := s.slot g
  decide (1 ≤ slotNo g) && decide (slotNo g ≤ 10) && !x.live && !x.borrowed && (s.reservedFor g).isNone &&
    !(s.cluster (clusterOf (coreOf g))).holdsCore (coreOf g)

/-- BORROW (R97). -/
def execBorrow (d : Dst) (a : Src) (s : State) : Host.Outcome State Fault Refusal :=
  runInstr 4 (do
    let v ← src a
    let s ← get
    let c := coreOf s.cur
    let x := s.slot s.cur
    let free := fun i => s.freeHelper (12 * c + i)
    let pick :=
      if x.borrow.isSome || decide (v.toNat > 10) then none
      else if v = 0#64 then (List.range 11).find? free
      else if free v.toNat then some v.toNat else none
    match pick with
    | none => dst d (BitVec.allOnes 64)
    | some b => do
      modify fun s => s.modSlot (12 * c + b) fun y => { y.idle with borrowed := true }
      modSlot fun y => { y with borrow := some b }
      dst d (BitVec.ofNat 64 b)
    pure .next) s

/-- The borrowed slot's global number; ILLOP without a borrow (R98). -/
def borrowedSlot (tval : U64) : Exec Nat := do
  let s ← get
  match (s.slot s.cur).borrow with
  | some b => pure (12 * coreOf s.cur + b)
  | none => trap .illop tval

/-- BRD (R98). -/
def execBrd (d : Dst) (n : BitVec 4) (s : State) : Host.Outcome State Fault Refusal :=
  runInstr 4 (do
    let g ← borrowedSlot (wordVal (encode (.brd d n)))
    let s ← get
    dst d ((s.slot g).named n.toNat)
    pure .next) s

/-- BWR (R98). -/
def execBwr (n : BitVec 4) (a : Src) (s : State) : Host.Outcome State Fault Refusal :=
  runInstr 4 (do
    let v ← src a
    let g ← borrowedSlot (wordVal (encode (.bwr n a)))
    modify fun s => s.modSlot g fun x => x.setNamed n.toNat v
    pure .next) s

/-- BRET (R98). -/
def execBret (s : State) : Host.Outcome State Fault Refusal :=
  runInstr 4 (do
    let _ ← borrowedSlot (wordVal (encode .bret))
    modify fun s => s.returnBorrow s.cur
    pure .next) s

/-! ## Queue registers (R99, R405) -/

/-- The entries of queue `q` of the current core, and whether another tenant's stand in it. -/
def queueEntries (q : BitVec 3) : Exec (List QEntry × Bool) := do
  let s ← get
  let es := (s.core (coreOf s.cur)).queues.get [] q.toNat
  pure (es, es.any fun e => e.tenant ≠ (s.slot s.cur).tenant)

/-- Queue `q` of the current core replaced. -/
def setQueue (q : BitVec 3) (es : List QEntry) : Exec Unit :=
  modify fun s => s.modCore (coreOf s.cur) fun c => { c with queues := c.queues.set [] q.toNat es }

/-- QSEND (R99, R245, R405). -/
def execQsend (q : BitVec 3) (a : Src) (s : State) : Host.Outcome State Fault Refusal :=
  runInstr 4 (do
    let v ← src a
    notLatent
    let (es, other) ← queueEntries q
    await (!other && decide (es.length < 4))
    let hs ← relHolds
    let x ← getSlot
    setQueue q (es ++ [{ v := v, tenant := x.tenant, holds := hs }])
    pure .next) s

/-- QRECV (R99, R405): the oldest entry, unless it is held. -/
def execQrecv (d : Dst) (q : BitVec 3) (s : State) : Host.Outcome State Fault Refusal :=
  runInstr 4 (do
    let (es, other) ← queueEntries q
    let s ← get
    match es with
    | [] => block
    | e :: rest => do
      await (!other && e.holds.all fun h => !s.pending h)
      setQueue q rest
      dst d e.v
    pure .next) s

/-- QSTAT (R93, R405). -/
def execQstat (d : Dst) (q : BitVec 3) (s : State) : Host.Outcome State Fault Refusal :=
  runInstr 4 (do
    let (es, other) ← queueEntries q
    dst d (if other then BitVec.allOnes 64 else BitVec.ofNat 64 es.length)
    pure .next) s

/-! ## Generator and time -/

/-- RNG (R101). -/
def execRng (d : Dst) (s : State) : Host.Outcome State Fault Refusal :=
  runInstr 4 (do
    let v ← rngNext
    dst d v
    pure .next) s

/-- RNGSEED (R104). -/
def execRngseed (a : Src) (s : State) : Host.Outcome State Fault Refusal :=
  runInstr 4 (do
    let v ← src a
    let s ← get
    let st := s.seeded (s.partOfSlot s.cur) v.toNat
    modSlot fun x => { x with rngLo := st.1, rngHi := st.2 }
    pure .next) s

/-- CYCLE (R105). -/
def execCycle (d : Dst) (s : State) : Host.Outcome State Fault Refusal :=
  runInstr 4 (do
    let s ← get
    dst d (s.cycle (dieOf (coreOf s.cur)))
    pure .next) s

end Sys2Proof.Machine
end

