-- ==== Sys2Proof/Machine/Spill.lean ====
section
/-!
DEFINITION. The spill engine: checkpoint tables (R213), what a save takes (R214, R217), continuations (R218), and
what a restore gives back (R219, R220, R267, R268).
-/

namespace Sys2Proof.Machine

/-! ## Lane groups -/

/-- Lane groups of cluster `cl` that are free to partition `p` (R263): four for each quadrant it owns. -/
def State.freeGroups (s : State) (p cl : Nat) : Nat :=
  let held := (s.slots.filter fun x => clusterOf (coreOf x.1) == cl && s.partOf (coreOf x.1) == p).map fun x => x.2.groups
  4 * popNat 4 (s.ownedQuads p cl) - held.sum

/-- Registers narrowed to `g` lane groups (R264, R268): lanes at or above 16 g are discarded. -/
def Slot.narrow (x : Slot) (g : Nat) : Slot :=
  let keep := fun {w : Nat} (n : Nat) (v : BitVec w) => v &&& BitVec.ofNat w (2 ^ n - 1)
  { x with
    groups := g
    v := x.v.map fun e => (e.1, keep (512 * g) e.2)
    vm := x.vm.map fun e => (e.1, keep (16 * g) e.2)
    m := x.m.map fun e => (e.1, keep (1024 * g) e.2) }

/-! ## Checkpoint tables (R213) -/

/-- A range of a checkpoint entry: in the private window or the core's scratchpad, first granule and count. -/
structure CkptRange where
  priv : Bool
  first : Nat
  count : Nat
  deriving DecidableEq, Repr

/-- A checkpoint entry (R213): live masks by register file, and ranges. -/
structure Ckpt where
  nlive : Nat
  klive : Nat
  xlive : Nat
  vlive : Nat
  mlive : Nat
  momlive : Nat
  borrowed : Bool
  tiles : Bool
  queue : Bool
  ranges : List CkptRange
  deriving DecidableEq, Repr

/-- Bytes at a GLOBAL address, as hardware of partition `p` reads them for tenant `t`. -/
def State.hwBytes (s : State) (p t a n : Nat) : Option (List Byte) :=
  (s.hwPlace p t a []).map fun x => (s.fillFor x.1 n).bytes x.1 n

/-- A range word; none when it breaks R213. -/
def ckptRange (window w : Nat) : Option (List CkptRange) :=
  let first := w % 2 ^ 14
  let count := w / 2 ^ 16 % 2 ^ 15
  let priv := w / 2 ^ 31 % 2 = 1
  if w / 2 ^ 14 % 4 ≠ 0 ∨ count > 16384 then none
  else if count = 0 then some []
  else if (first + count) * 64 > (if priv then window else 2 ^ 18) then none
  else some [{ priv := priv, first := first, count := count }]

/-- The 32 bytes of an entry; none when a reserved field is 1 or a range breaks R213. -/
def ckptOf (window : Nat) (bs : List Byte) : Option Ckpt :=
  let b := fun i n => leAt bs i n
  if b 11 1 / 8 ≠ 0 ∨ b 12 4 ≠ 0 then none
  else
    match ckptRange window (b 16 4), ckptRange window (b 20 4), ckptRange window (b 24 4), ckptRange window (b 28 4) with
    | some r0, some r1, some r2, some r3 =>
      some { nlive := b 0 2, klive := b 2 1, xlive := b 3 1, vlive := b 4 4, mlive := b 8 1, momlive := b 9 2
             borrowed := decide (b 11 1 / 4 % 2 = 1), tiles := decide (b 11 1 / 2 % 2 = 1), queue := decide (b 11 1 % 2 = 1)
             ranges := r0 ++ r1 ++ r2 ++ r3 }
    | _, _, _, _ => none

/-- Entry `idx` of the checkpoint table of slot `g` (R213, R215), or the address that the error record of a fallback
carries (R443). -/
def State.ckptEntry (s : State) (g idx : Nat) : Except Nat Ckpt :=
  let x := s.slot g
  let p := s.partOfSlot g
  let base := x.pcc.base
  let piece := fun (a n : Nat) => if a % 16 = 0 ∧ a + n ≤ x.pcc.top then s.hwBytes p x.tenant a n else none
  match piece base 2 with
  | none => .error base
  | some pool =>
    let t0 := base + 16 * leAt pool 0 2
    match piece t0 16 with
    | none => .error t0
    | some h =>
      let c := leAt h 0 2
      let a := t0 + 16 + 32 * idx
      if idx ≥ c ∨ c > 1024 ∨ leAt h 2 14 ≠ 0 then .error t0
      else
        match piece a 16, piece (a + 16) 16 with
        | some lo, some hi =>
          match ckptOf (s.windowSize p) (lo ++ hi) with
          | some e => .ok e
          | none => .error a
        | _, _ => .error t0

/-! ## Saving -/

/-- Entries of a register file that a mask lists. -/
def SMap.listed {α : Type} (m : SMap α) (mask : Nat) : SMap α := m.filter fun e => mask / 2 ^ e.1 % 2 = 1

/-- The registers that an entry lists; the others hold 0 after the restore, presence bits kept (R214). -/
def Slot.listed (x : Slot) (c : Ckpt) : Slot :=
  { x with
    n := x.n.listed c.nlive, k := x.k.listed c.klive, x := x.x.listed c.xlive, v := x.v.listed c.vlive
    vm := x.vm.listed c.mlive, m := x.m.listed c.momlive
    rq := if c.queue then x.rq else List.replicate 16 0#64 }

/-- One granule as it stands at `key`, put down under `as`, with its poison (R428). -/
def State.granuleAt (s : State) (key as : Nat) : Granule :=
  { key := as, bytes := s.bytes key 64, poison := s.poisoned key
    tags := ((List.range 4).filter fun i => s.tagAt (key + 16 * i)).map fun i => as + 16 * i }

/-- The granules of a listed range of slot `g`. -/
def State.rangeOf (s : State) (g : Nat) (r : CkptRange) : List Granule :=
  (List.range r.count).map fun i =>
    let o := 64 * (r.first + i)
    if r.priv then s.granuleAt (privateKey g o) (privateKey 0 o) else s.granuleAt (scratchKey (coreOf g) o) (scratchKey (coreOf g) o)

/-- Whether a card still writes what a save takes (R221). -/
def State.saveWaits (s : State) (g : Nat) (e : Option Ckpt) : Bool :=
  match e with
  | none => s.cardWrites (coreOf g) (privateKey g 0) (s.windowSize (s.partOfSlot g))
  | some c =>
    c.ranges.any fun r =>
      s.cardWrites (coreOf g) (if r.priv then privateKey g (64 * r.first) else scratchKey (coreOf g) (64 * r.first)) (64 * r.count)

/-- A slot's hold is taken back before a save: a mailbox write is withdrawn, to be issued again (R134), and a REALIGN
hold ends (R140). An SVC request stays (R209). -/
def State.unhold (s : State) (g : Nat) : State :=
  match (s.slot g).wait with
  | .mailbox =>
    let s := s.modCore (coreOf g) fun c =>
      { c with mbxHeld := c.mbxHeld.map fun e => (e.1, e.2.filter fun w => w.slot ≠ some g) }
    s.modSlot g fun x => { x with wait := Wait.none }
  | .realign _ _ len _ => s.complete g len
  | _ => s

/-- The memory that a save of slot `g` takes: key and length of each piece (R213, R217). -/
def State.savedPieces (s : State) (g : Nat) (e : Option Ckpt) : List (Nat × Nat) :=
  match e with
  | none => [(privateKey g 0, s.windowSize (s.partOfSlot g))]
  | some c => c.ranges.map fun r =>
      ((if r.priv then privateKey g (64 * r.first) else scratchKey (coreOf g) (64 * r.first)), 64 * r.count)

/-- A key in the private window of slot `a` as it stands in that of slot `b`. -/
def moveKey (a b key : Nat) : Nat :=
  if privateKey a 0 ≤ key ∧ key < privateKey (a + 1) 0 then privateKey b (key - privateKey a 0) else key

/-- The latent writes of the tile of slot `x`, moved with its private window from slot `a` to slot `b` (R218, R368). -/
def State.moveLatent (s : State) (x : Slot) (a b : Nat) : State :=
  let fix := fun (c : Access) =>
    let ws := c.writes.map fun w => (moveKey a b w.1, w.2)
    if ws = c.writes then c
    else { c with writes := ws, tagKey := c.tagKey.map (moveKey a b), home := privateHome (coreOf b) }
  match x.tile? with
  | none => s
  | some t => { s with tiles := s.tiles.map fun (y : Tile) => if y.id = t then { y with latent := y.latent.map fix } else y }

/-- A save of slot `g`, in full or by an entry (R214, R217): what is saved, and the state with the slot idle. Absent granules
that it takes are filled first (R252). None while its own stores or a card must be waited for. -/
def State.save (s : State) (g : Nat) (e : Option Ckpt) : Option (Saved × State) :=
  let s := s.unhold g
  let s := match e with
    | some c => if c.borrowed then s else s.returnBorrow g
    | none => s
  match s.performAll (s.upToLast g fun a => a.home == coreOf g || a.home == privateHome (coreOf g)) with
  | none => none
  | some s =>
    if s.saveWaits g e || (s.savedPieces g e).any fun p => s.fillWaits p.1 p.2 then none
    else
      let s := (s.savedPieces g e).foldl (fun s p => s.fillFor p.1 p.2) s
      let x := s.slot g
      let bare := { x with preempt := none, stopped := none, blocked := false, seen := [] }
      let set := x.borrow.map fun b => s.slot (coreOf g * 12 + b)
      let lo := privateKey g 0
      let hi := lo + s.windowSize (s.partOfSlot g)
      let sv : Saved := match e with
        | some c => { slot := bare.listed c, borrowedSet := set, full := false, core := some (coreOf g),
                      ranges := c.ranges.flatMap (s.rangeOf g) }
        | none =>
          { slot := bare, borrowedSet := set, full := true, core := some (coreOf g)
            window := (s.mem.filter fun m => decide (lo ≤ m.1) && decide (m.1 < hi)).map fun m => (m.1 - lo, m.2)
            windowTags := (s.tags.filter fun m => decide (lo ≤ 16 * m.1) && decide (16 * m.1 < hi)).map fun m => 16 * m.1 - lo
            windowPoison := (s.poison.filter fun m => decide (lo ≤ 64 * m.1) && decide (64 * m.1 < hi)).map fun m => 64 * m.1 - lo }
      let s := (s.returnBorrow g).moveLatent x g 0
      some (sv, (s.leaves g (e.elim true Ckpt.tiles)).setSlot g (s.slot g).kept)

/-- The record under which a continuation stands in a queue (R218). -/
def State.contRec (s : State) (g : Nat) (x : Slot) : Rec :=
  { deadline := x.dline, budget := x.issues, group := x.group, addr := x.taskRec.toNat, tenant := x.tenant,
    part := s.partOfSlot g, cls := s.tenantClass (s.partOfSlot g) x.tenant }

/-- A continuation put into its core's local queue, or into the cluster's queue when that is full (R218). -/
def State.queueCont (s : State) (c : Nat) (e : Entry) : Option State :=
  if (s.core c).localQ.length < 16 then
    let (n, s) := s.freshNo
    some (s.modCore c fun x => { x with localQ := insertEntry { e with seq := n } x.localQ })
  else s.enqueue (clusterOf c) e

/-- Whether the spill engine may save slot `g`: it is stopped, or held in a way that a request stops (R217). -/
def State.saveDue (s : State) (g : Nat) : Bool :=
  let x := s.slot g
  x.live && (match x.wait with
    | .none => x.stopped.isSome
    | .svc | .mailbox | .realign .. => x.stopped.isSome || s.mayStop g
    | _ => false)

/-- A stopped slot saved (R215, R217, R218): by its entry, or in full with an error record when the entry is no good. -/
def State.spillSave (s : State) (g : Nat) : Option State :=
  if !s.saveDue g then none
  else
    let x := s.slot g
    let p := s.partOfSlot g
    let r : Option Ckpt × State := match x.stopped with
      | some (some idx) =>
        match s.ckptEntry g idx with
        | .ok e => (some e, s)
        | .error a => (none, s.errorRecord (dieOf (coreOf g)) (BitVec.ofNat 64 a) g 2 2 x.tenant p false)
      | _ => (none, s)
    let job := s.contRec g x
    match r.2.save g r.1 with
    | none => none
    | some (sv, s) =>
      if slotNo g = 0 then some { s with savedZero := s.savedZero.put g sv }
      else s.queueCont (coreOf g) { job := job, cont := some sv }

/-! ## Restoring -/

/-- A granule of a listed range as it comes back on slot `h`. -/
def Granule.onSlot (g : Granule) (h : Nat) : Granule :=
  if 2 ^ 62 ≤ g.key ∧ g.key < 2 ^ 63 then { g with key := g.key + h * 2 ^ 20, tags := g.tags.map fun t => t + h * 2 ^ 20 } else g

/-- The lane groups that a continuation receives on cluster `cl`, if it may start (R268). -/
def State.regrant (s : State) (p cl : Nat) (c : Saved) : Option Nat :=
  let free := s.freeGroups p cl
  if c.full then (if c.slot.groups ≤ free then some c.slot.groups else none)
  else if c.slot.minGrp ≤ free then some (min c.slot.groups free) else none

/-- The private window of slot `h` replaced by a saved one, poison included (R428); what an earlier restore has left absent of it is
overwritten (R252). -/
def State.putWindow (s : State) (h : Nat) (c : Saved) : State :=
  let lo := privateKey h 0
  let hi := lo + 2 ^ 20
  let s := { s with absent := s.absent.filter fun a => !(decide (lo ≤ a.key) && decide (a.key < hi))
                    mem := s.mem.filter fun m => !(decide (lo ≤ m.1) && decide (m.1 < hi))
                    tags := s.tags.filter fun m => !(decide (lo ≤ 16 * m.1) && decide (16 * m.1 < hi))
                    poison := s.poison.filter fun m => !(decide (lo ≤ 64 * m.1) && decide (64 * m.1 < hi)) }
  let s := s.writeAll (c.window.map fun w => (lo + w.1, w.2))
  let s := c.windowPoison.foldl (fun s l => s.setPoison (lo + l) true) s
  c.windowTags.foldl (fun s t => s.setTag (lo + t) true) s

/-- Whether a restore brings the granules `gs` back at once, as it does for class 2 (R220), and one waits for a card (R221). -/
def State.eagerHeld (s : State) (h : Nat) (c : Saved) : Bool :=
  s.tenantClass (s.partOfSlot h) c.slot.tenant == 2 && c.ranges.any fun g => s.fillHeld (g.onSlot h)

/-- What the task with number `tid` has on its way follows it to slot `h`: its accesses and messages, one that runs among them
(R149). -/
def State.follow (s : State) (tid h : Nat) : State :=
  let move := fun (m : Amsg) => if m.tid = tid then { m with slot := h } else m
  let back := fun (r : Return) => if r.tid = tid then { r with slot := h } else r
  { s with
    flight := s.flight.map fun (a : Access) => if a.tid = tid then { a with slot := h } else a
    amsgs := s.amsgs.map move
    cores := s.cores.map fun c => (c.1, { c.2 with amsgs := c.2.amsgs.map move })
    slots := s.slots.map fun x => (x.1, { x.2 with msg := x.2.msg.map back }) }

/-- Slot `h` resumes a saved slot (R218 to R220, R268): registers at once (log 20), listed ranges at once for class 2
and when first touched for the others. None when it cannot start there: lane groups, a helper for its borrowed set, of the
idle ones the lowest (DESIGN CHOICE, log 75), or a fill that waits for a card (R221). -/
def State.restore (s : State) (h : Nat) (c : Saved) : Option State :=
  let p := s.partOfSlot h
  let core := coreOf h
  let helper : Option (Option Nat) :=
    if c.slot.borrow.isNone then some none
    else
      ((List.range 11).find? fun i =>
        let y := s.slot (12 * core + i)
        decide (1 ≤ i) && 12 * core + i ≠ h && !y.live && !y.borrowed && (s.reservedFor (12 * core + i)).isNone &&
          !(s.cluster (clusterOf core)).holdsCore core).map some
  let gs := c.ranges.map fun g => g.onSlot h
  let eager := s.tenantClass p c.slot.tenant = 2
  if s.eagerHeld h c then none
  else match s.regrant p (clusterOf core) c, helper with
  | some g, some b =>
    let x := { c.slot.narrow g with lastIssue := (s.slot h).lastIssue, borrow := b }
    let s := s.setSlot h x
    let s := match b, c.borrowedSet with
      | some i, some y => s.modSlot (12 * core + i) fun z => { z.idle with borrowed := true, n := y.n, pres := y.pres }
      | _, _ => s
    let s := if c.full then s.putWindow h c else s
    let s := s.moveLatent x 0 h
    let s := if eager then gs.foldl State.fill s
      else { s with absent := (s.absent.filter fun a => gs.all fun g => g.key ≠ a.key) ++ gs }
    let s := s.follow x.tid h
    let s := s.modCore core fun y => { y with rcache := [] }
    match x.svc with
    | some r =>
      match r.answer with
      | some v => some ((s.completeWith h 4 r.d v).modSlot h fun y => { y with svc := none })
      | none => some s
    | none => some s
  | _, _ => none

end Sys2Proof.Machine
end

