-- ==== Sys2Proof/Machine/TaskInstr.lean ====
section
/-!
DEFINITION. The task instructions: major TASK (R182 to R189, R193).
-/

namespace Sys2Proof.Machine

/-! ## Record operands -/

/-- A place of `n` bytes on which a step of TASK, FUT, RING or BAR acts at its home: earlier accesses of the slot to
that home come first (R149), and so do cards that read or write there (R249) and what FENCE.rel holds (R245). -/
def stepPlace (p : Place) (n : Nat) : Exec Unit := do
  releaseWait
  let s ← get
  await (s.cardsAt s.cur p n false).isEmpty
  forceHome p.home
  homeReady p.home

/-- A memory object operand of `n` bytes: its checks, and its place. `near` when R151 applies. -/
def objectAt (k : Cap) (n : Nat) (perm bits : List Nat) (near : Bool) : Exec RecordAt := do
  let p ← place k k.cursor n { spaces := [0, 1, 2], perm := perm, align := n } bits
  if near then notAcrossDies p.home k.cursor
  let s ← get
  let addr := s.globalAddr (s.partOfSlot s.cur) k.space k.cursor
  match p with
  | .mem key c va => do
    stepPlace p n
    pure { key := key, keep := c, va := va, addr := addr }
  | _ => trap .capSpace (u64 k.cursor)

/-- The record operand of SPAWN and its kin (R152, R183). -/
def recordAt (k : Cap) : Exec RecordAt := objectAt k 64 [0, 1, 5, 3] [1, 2, 4] false

/-- The record that 64 bytes hold, with the tags and the address of `o`. -/
def recordIn (o : Seen) (bs : List Byte) : Exec Rec := do
  let s ← get
  let x := s.slot s.cur
  pure (recOf bs (o.tags.getD 0 false) (o.tags.getD 1 false) o.loc.addr x.tenant (s.partOfSlot s.cur))

/-- The record at `r`, read in one step. -/
def readRecord (r : RecordAt) : Exec Rec := do
  let o ← look r 64
  recordIn o o.bytes

/-- The record operand of an instruction that reads it in a step of its own, before its effects (R183, R240). -/
def recordSeen (k : Cap) : Exec Seen := inStep 0 (do
  let r ← recordAt k
  look r 64)

/-- Bytes written at the home of an object by the current slot. -/
def writeObject (r : RecordAt) (off : Nat) (bs : List Byte) : Exec Unit := do
  let s ← get
  let w := s.who s.cur
  set (s.performWrites w.part w.tenant r.va (writesAt (r.key + off) bs) none)

/-- Go on with a state, or block while the enqueuer must wait (R180). -/
def orWait (r : Option State) : Exec Unit :=
  match r with
  | some s => set s
  | none => block

/-- An enqueuer waits while its cluster's hold register is occupied (R180). -/
def holdFree : Exec Unit := do
  let s ← get
  await (s.cluster (clusterOf (coreOf s.cur))).hold.isNone

/-- SPAWN's effects on a record (R183). -/
def spawn (d : Dst) (r : Rec) : Exec Flow := do
  let s0 ← get
  if s0.recOk r [0, 1] then beforeLive r.group
  let s ← get
  match s.spawnStep r (coreOf s.cur) with
  | none => block
  | some (v, s') => do
    set s'
    forget
    dst d (u64 v)
    pure .next

/-- SPAWN (R183). -/
def execSpawn (d : Dst) (ka : BitVec 3) (s : State) : Host.Outcome State Fault Refusal :=
  runInstr 4 (do
    notLatent
    let k ← kreg ka
    let o ← recordSeen k
    let j ← recordIn o o.bytes
    spawn d j) s

/-- WALK (R183): the hint word is written back, unless the record is ill-formed, in a step after the record's. -/
def execWalk (d : Dst) (ka : BitVec 3) (b : Src) (s : State) : Host.Outcome State Fault Refusal :=
  runInstr 4 (do
    let h ← src b
    notLatent
    let k ← kreg ka
    let o ← recordSeen k
    let w := h.toNat % 2 ^ 32 ||| 2 ^ 16
    let j ← recordIn o (putLe o.bytes 52 4 w)
    let s ← get
    if s.recOk j [0, 1] then
      let _ ← inStep 1 (do
        homeReady (homeOf o.loc.key)
        writeObject o.loc 52 (toBytes 4 w)
        pure o)
    spawn d j) s

/-- START (R183): slot 0 only, on a helper that takes its tenant's records (R404). -/
def execStart (d : Dst) (ka : BitVec 3) (s : State) : Host.Outcome State Fault Refusal :=
  runInstr 4 (do
    notLatent
    roleIs (fun n => n == 0) (wordVal (encode (.start d ka)))
    let k ← kreg ka
    let o ← recordSeen k
    let j ← recordIn o o.bytes
    let s ← get
    let c := coreOf s.cur
    let free := (List.range 11).find? fun i =>
      s.freeHelper (12 * c + i) && s.takesFrom (s.slot s.cur).tenant (12 * c + i) &&
        !(i == 10 && j.deadline ≠ background && s.backgroundWaits (clusterOf c))
    match free with
    | none => dst d (BitVec.allOnes 64)
    | some i =>
      if s.recOk j [0] && j.join = 0#32 && !j.hen then
        holdFree
        raiseLive j.group 1
        modify fun s => s.startRec (12 * c + i) j 0 1 id
        dst d (BitVec.ofNat 64 i)
      else dst d (BitVec.allOnes 64)
    forget
    pure .next) s

/-- JOIN (R183): one step at the record's home, after a release at domain scope (R172). -/
def execJoin (d : Dst) (ka : BitVec 3) (s : State) : Host.Outcome State Fault Refusal :=
  runInstr 4 (do
    notLatent
    let k ← kreg ka
    fenceRel 5
    let r ← recordAt k
    let bs ← readBytes r.key 64
    let j := leAt bs 32 4
    if j = 0 then dst d (BitVec.allOnes 64)
    else
      writeObject r 32 (toBytes 4 (j - 1))
      dst d (BitVec.ofNat 64 (j - 1))
      if j = 1 then
        let job ← readRecord r
        let s ← get
        orWait (s.released job (coreOf s.cur))
    pure .next) s

/-! ## DONE and YIELD -/

/-- DONE (R184, R161, R367, R369). -/
def done (tval : U64) : Exec Flow := do
  roleIs (fun n => n ≠ 0) tval
  let s ← get
  let x := s.slot s.cur
  match x.phase, s.tileOf x with
  | .surrogate _, some t =>
    match s.launch? t.launch with
    | some l => set (s.startCheck s.cur l t)
    | none => pure ()
  | .check _ posted, some t =>
    if !posted then throw (Stop.fail 3)
    match s.launch? t.launch with
    | some _ => set ((s.commitTile s.cur t).settleCommit s.cur)
    | none => pure ()
  | _, _ =>
    match s.drain s.cur with
    | none => block
    | some s' =>
      unlessBad s'
      set (if slotNo s.cur = 11 then s'.endMessage s.cur false else s'.endTask s.cur x.inTrap)
  pure .ended

/-- DONE (R184). -/
def execDone (s : State) : Host.Outcome State Fault Refusal := runInstr 4 (done (wordVal (encode .done))) s
/-- DONE.c (R45). -/
def execDoneC (s : State) : Host.Outcome State Fault Refusal := runInstr 2 (done (wordVal (encode .doneC))) s

/-- YIELD (R185): the budget is the low 32 bits of its operand (DESIGN CHOICE, log 90); the slot is saved in full, and its continuation re-enters the cluster's queue. -/
def execYield (a b : Src) (s : State) : Host.Outcome State Fault Refusal :=
  runInstr 4 (do
    let dl ← src a
    let bu ← src b
    roleIs (fun n => decide (1 ≤ n) && decide (n ≤ 10)) (wordVal (encode (.yield a b)))
    notLatent
    modSlot fun x =>
      { x.advance 4 with dline := dl, issues := bu.setWidth 32, limited := bu.setWidth 32 ≠ 0#32, admitted := false,
                         charge := 0, chargeFrac := 0, grace := false }
    let s ← get
    let job := s.contRec s.cur (s.slot s.cur)
    match s.save s.cur none with
    | none => block
    | some (sv, s) => orWait (s.enqueue (clusterOf (coreOf s.cur)) { job := job, cont := some { sv with core := none } })
    pure .ended) s

/-! ## Launches -/

/-- Whether a record may be a launch's template (R186). -/
def State.templateOk (s : State) (r : Rec) : Bool := s.recOk r [0] && r.join = 0#32 && !r.hen

/-- LAUNCH (R186). -/
def execLaunch (d : Dst) (ka : BitVec 3) (b : Src) (s : State) : Host.Outcome State Fault Refusal :=
  runInstr 4 (do
    let c ← src b
    notLatent
    let k ← kreg ka
    let o ← recordSeen k
    let j ← recordIn o o.bytes
    let s ← get
    if !s.templateOk j || decide (c.toNat ≥ 2 ^ 32) then dst d (BitVec.allOnes 64)
    else
      if c ≠ 0#64 then
        raiseLive j.group c.toNat
        let s ← get
        orWait (s.enqueue (clusterOf (coreOf s.cur)) { job := j, count := c.toNat, gcount := c.toNat })
      dst d c
    forget
    pure .next) s

/-- LAUNCHI (R186): the count stays unread until the entry reaches the head of its queue. -/
def execLaunchi (d : Dst) (ka kb : BitVec 3) (s : State) : Host.Outcome State Fault Refusal :=
  runInstr 4 (do
    notLatent
    let k ← kreg ka
    let c ← kreg kb
    let o ← inStep 0 (do
      let r ← recordAt k
      let _ ← place c c.cursor 8 { perm := [0], align := 8 } [1]
      look r 64)
    let j ← recordIn o o.bytes
    let s ← get
    if !s.templateOk j then dst d (BitVec.allOnes 64)
    else
      raiseLive j.group 1
      let s ← get
      orWait (s.enqueue (clusterOf (coreOf s.cur)) { job := j, count := 0, gcount := 0, unread := some (c.space, c.cursor, s.cur) })
      dst d 0#64
    forget
    pure .next) s

/-! ## Descriptors: GANG and SUBMIT -/

/-- The record `i` of a descriptor at `v`, read in one step. -/
def descriptorRec (k : Cap) (v i : Nat) : Exec Seen := do
  let s ← get
  let a := v + 64 * i
  let p ← locate (s.who s.cur) k.space a 64 [1]
  match p with
  | .mem key c va => do
    beforeRead p 64
    look { key := key, keep := c, va := va, addr := s.globalAddr (s.partOfSlot s.cur) k.space a } 64
  | _ => trap .capSpace (u64 k.cursor)

/-- What a descriptor operand needs (R193). -/
def descriptorNeed : Need := { spaces := [0, 1, 2], perm := [0, 3], align := 64 }

/-- A descriptor's header, checked and read in a step of its own (R193). -/
def descriptorHead (k : Cap) : Exec Seen := inStep 0 (do
  let p ← place k k.cursor 64 descriptorNeed [1]
  match p with
  | .mem key c va => do
    releaseWait
    beforeRead p 64
    look { key := key, keep := c, va := va, addr := k.cursor } 64
  | _ => trap .capSpace (u64 k.cursor))

/-- A descriptor's header and records, after the checks of R193: the header first, then the whole extent. A count
outside `lo` to `hi` names no record: the descriptor is then ill-formed, whatever follows it (DEDUCED, log 33). `step` says how the
records are read: each in a step of its own, or all in one (R193). -/
def descriptorAt (step : Nat → Exec Seen → Exec Seen) (k : Cap) (lo hi : Nat) : Exec (List Byte × List Rec) := do
  let h ← descriptorHead k
  let n := descriptorCount lo hi h.bytes
  let v ← checkCap k k.cursor (64 * (n + 1)) descriptorNeed
  let recs ← eachM (fun i => do
    let o ← step (i + 1) (descriptorRec k v (i + 1))
    recordIn o o.bytes) (List.range n)
  pure (h.bytes, recs)

/-- Whether a gang descriptor is well-formed (R188). A member's hint word may have HEN = 1, and is then not used: no walk precedes a
gang (DESIGN CHOICE, log 89). -/
def State.gangOk (s : State) (hdr : List Byte) (recs : List Rec) : Bool :=
  let n := leAt hdr 0 2
  decide (2 ≤ n) && decide (n ≤ 4) && leAt hdr 8 56 == 0 &&
    recs.all fun r => s.recOk r [2] && r.join = 0#32 && r.group == (recs.getD 0 {}).group

/-- GANG (R188): pipe `j` joins members `j` and `j + 1`; an index beyond the last pair is not used (log 21). A pipe's record of another
space than GLOBAL makes GANG push -1; whether a GLOBAL one bounds a ring header is left to the members' ring instructions (DESIGN
CHOICE, log 89). Each record and each load from the pool is a step of its own. -/
def execGang (d : Dst) (ka : BitVec 3) (s : State) : Host.Outcome State Fault Refusal :=
  runInstr 4 (do
    notLatent
    let k ← kreg ka
    let (hdr, recs) ← descriptorAt inStep k 2 4
    let s ← get
    if !s.gangOk hdr recs then dst d (BitVec.allOnes 64)
    else
      let m0 := recs.getD 0 {}
      let pipes ← eachM (fun j =>
        let i := leAt hdr (2 + 2 * j) 2
        if i = 0 then pure Cap.null else loadPool (1 + recs.length + 2 * j) m0.code i) (List.range (recs.length - 1))
      if pipes.any fun c => c.tag && c.space ≠ 0 then dst d (BitVec.allOnes 64)
      else
        raiseLive m0.group recs.length
        let s ← get
        orWait (s.enqueue (clusterOf (coreOf s.cur)) { job := m0, gcount := recs.length, gang := recs, pipes := pipes })
        dst d (BitVec.ofNat 64 recs.length)
    forget
    pure .next) s

/-- SUBMIT (R193). -/
def execSubmit (d : Dst) (ka : BitVec 3) (s : State) : Host.Outcome State Fault Refusal :=
  runInstr 4 (do
    notLatent
    let k ← kreg ka
    let (hdr, recs) ← descriptorAt (fun _ m => m) k 1 64
    let s ← get
    if s.submitOk hdr recs then
      holdFree
      beforeLive (BitVec.ofNat 64 (leAt hdr 8 8))
    let s ← get
    let (v, s') := s.submitStep (s.partOfSlot s.cur) (s.slot s.cur).tenant (clusterOf (coreOf s.cur)) s.cur hdr recs
    set s'
    forget
    dst d (u64 v)
    pure .next) s

/-! ## DLINE and SELF -/

/-- DLINE (R189). -/
def execDline (d : Dst) (a : Src) (s : State) : Host.Outcome State Fault Refusal :=
  runInstr 4 (do
    let x ← src a
    let s ← get
    dst d (BitVec.ofNat 64 (min ((s.cycle (dieOf (coreOf s.cur))).toNat + x.toNat) (2 ^ 64 - 2)))
    pure .next) s

/-- The capability that SELF writes (R189): R, W, A and LC on the record. -/
def selfCap (slot : Nat) (x : Slot) : Cap :=
  if slot = 0 ∨ slot = 11 ∨ x.phase ≠ .task then Cap.null
  else (capFor 0 43 x.taskRec.toNat x.taskRec.toNat (x.taskRec.toNat + 64)).getD Cap.null

/-- SELF (R189). -/
def execSelf (kd : BitVec 3) (s : State) : Host.Outcome State Fault Refusal :=
  runInstr 4 (do
    let s ← get
    setK kd (selfCap (slotNo s.cur) (s.slot s.cur))
    pure .next) s

end Sys2Proof.Machine
end

