-- ==== Sys2Proof/Machine/Layer.lean ====
section
/-!
DEFINITION. The layer instructions but COMPOSE, LSPLIT and LMERGE: major LAYER (R375 to R387). Each is one step at the
home of the object it names.
-/

namespace Sys2Proof.Machine

/-! ## Objects (R375 to R377) -/

/-- Layer `i`. -/
def State.layer (s : State) (i : Nat) : Layer := s.layers.get {} i

/-- Layer `i` replaced. -/
def State.setLayer (s : State) (i : Nat) (l : Layer) : State := { s with layers := s.layers.set {} i l }

/-- View `v`. -/
def State.view' (s : State) (v : Nat) : View := s.views.get {} v

/-- View `v` changed. -/
def State.modView (s : State) (v : Nat) (f : View → View) : State := { s with views := s.views.set {} v (f (s.view' v)) }

/-- Whether a view is configured (R377). -/
def View.configured (v : View) : Bool := (v.vw ≠ 0#16 || v.vh ≠ 0#16) && v.ocol.tag && v.ord.tag

/-- The occupied slots of a view with their layers, lowest first. -/
def View.occupied (v : View) : List (Nat × Nat) := ((List.range 64).map fun i => (i, v.slotAt i)).filter fun x => x.2 ≠ 0xFFFF

/-- NEWSLOTS with the bit of slot `i` set. -/
def View.touch (v : View) (i : Nat) : View := { v with newSlots := v.newSlots ||| BitVec.ofNat 64 (2 ^ i) }

/-- The entries of the request queue, oldest first (R386). -/
def View.requests (v : View) : List (U64 × Nat) :=
  (List.range (v.qtail - v.qhead).toNat).map fun i => v.queue.get (0#64, 0) ((v.qhead.toNat + i) % 64)

/-- The request queue holding `es` from QHEAD on. -/
def View.setRequests (v : View) (es : List (U64 × Nat)) : View :=
  { v with qtail := v.qhead + BitVec.ofNat 64 es.length
           queue := (es.zip (List.range es.length)).foldl
             (fun q e => q.set (0#64, 0) ((v.qhead.toNat + e.2) % 64) e.1) v.queue }

/-- The queue entry of layer `i` removed, if any (R385 to R387). -/
def View.dropRequest (v : View) (i : Nat) : View :=
  if v.requests.any fun e => e.2 == i then v.setRequests (v.requests.filter fun e => e.2 ≠ i) else v

/-- A request of layer `i` with deadline `d` appended (R389). -/
def View.append (v : View) (d : U64) (i : Nat) : View := v.setRequests (v.requests ++ [(d, i)])

/-- The oldest request popped (R386). -/
def View.pop (v : View) : View := { v with qhead := v.qhead + 1#64 }

/-! ## Checks (R381, R382, R384) -/

/-- LAYERBAD (R382). -/
def layerBad {α : Type} (num : Nat) (view : Bool) (reason : Nat) : Exec α :=
  trap .layerBad (BitVec.ofNat 64 (num % 2 ^ 16 * 2 ^ 32 + (if view then 2 ^ 24 else 0) + reason))

/-- LAYERBAD unless `ok`. -/
def layerReq (ok : Bool) (num : Nat) (view : Bool) (reason : Nat) : Exec Unit := if ok then pure () else layerBad num view reason

/-- Reason 1 of a layer number. -/
def layerInRange (i : Nat) : Exec Unit := do
  let s ← get
  layerReq (decide (i < 4096) && s.ownsLayer (s.partOfSlot s.cur) i) i false 1

/-- Reasons 1 and 2 of a layer: the layer. -/
def liveLayer (i : Nat) : Exec Layer := do
  layerInRange i
  let s ← get
  layerReq (s.layer i).live i false 2
  pure (s.layer i)

/-- Reason 1 of a view: the view. -/
def ownView (v : Nat) : Exec View := do
  let s ← get
  layerReq (decide (v < 64) && s.ownsView (s.partOfSlot s.cur) v) v true 1
  pure (s.view' v)

/-- Whether an image capability is fit for `n` bytes (R384). -/
def imageFit (k : Cap) (n align : Nat) (writes : Bool) : Bool :=
  k.tag && (k.space == 0 || k.space == 1) && k.has 0 && (!writes || k.has 1) && k.cursor % align == 0 &&
    decide (k.base ≤ k.cursor) && decide (k.cursor + n ≤ k.top)

/-- Whether an image of a layer of the given size is fit. -/
def colourFit (k : Cap) (w h : Nat) : Bool := imageFit k (4 * w * h) 4 false
def depthFit (k : Cap) (w h : Nat) : Bool := imageFit k (2 * w * h) 2 false

/-- Tiles of 4 view pixels along a side. -/
def tilesOf (n : Nat) : Nat := (n + 3) / 4

/-- Whether the output capabilities of a view of the given size are fit. -/
def ocolFit (k : Cap) (w h : Nat) : Bool := imageFit k (4 * w * h) 4 true
def ordFit (k : Cap) (w h : Nat) : Bool := imageFit k (256 * tilesOf w * tilesOf h) 256 true

/-- What every member checks before its step (R381, R368): never in slot 11, never in latent mode; it is a releasing
operation (R242). -/
def layerStep (tval : U64) : Exec Unit := do
  roleIs (fun n => n ≠ 11) tval
  notLatent
  releaseWait

/-- The word of a LAYER instruction (R52). -/
def layerWord (func5 : Nat) (d a b : BitVec 5) (md : BitVec 4) : U64 := rForm 0x2A func5 d a b md

/-! ## Creating and removing (R385) -/

/-- LNEW (R385). -/
def execLnew (d : Dst) (a : Src) (s : State) : Host.Outcome State Fault Refusal :=
  runInstr 4 (do
    let n ← src a
    layerStep (layerWord 0 d.bits a.bits 0#5 0#4)
    let x ← getSlot
    let vn := x.view.toNat
    let v ← ownView vn
    layerReq v.configured vn true 2
    layerReq (decide (n.toNat < 64)) vn true 4
    layerReq (v.slotAt n.toNat == 0xFFFF) vn true 6
    let s ← get
    match (List.range 4096).find? fun i => s.ownsLayer (s.partOfSlot s.cur) i && !(s.layer i).live with
    | none => dst d (u64 (-1))
    | some i => do
      let l : Layer := { live := true, view := BitVec.ofNat 6 vn, slot := BitVec.ofNat 6 n.toNat }
      set ((s.setLayer i l).modView vn fun v => { v.touch n.toNat with slots := v.slots.set 0xFFFF n.toNat i })
      dst d (BitVec.ofNat 64 i)
    pure .next) s

/-- A layer freed (R385). -/
def State.freeLayer (s : State) (i : Nat) : State :=
  let l := s.layer i
  (s.setLayer i {}).modView l.view.toNat fun v =>
    ({ v.touch l.slot.toNat with slots := v.slots.set 0xFFFF l.slot.toNat 0xFFFF } : View).dropRequest i

/-- LFREE (R385). -/
def execLfree (a : Src) (s : State) : Host.Outcome State Fault Refusal :=
  runInstr 4 (do
    let n ← src a
    layerStep (layerWord 1 0#5 a.bits 0#5 0#4)
    let l ← liveLayer n.toNat
    layerReq (!l.busy) n.toNat false 5
    modify fun s => s.freeLayer n.toNat
    pure .next) s

/-! ## Fields (R383) -/

/-- Whether a value fits a packed or plain layer field of LSET. -/
def layerValueOk (f v : Nat) : Bool :=
  match f with
  | 4 => decide (v < 2 ^ 32) && decide (1 ≤ v % 2 ^ 16) && decide (v % 2 ^ 16 ≤ 4096) && decide (1 ≤ v / 2 ^ 16) && decide (v / 2 ^ 16 ≤ 4096)
  | 5 | 6 => decide (v < 2 ^ 32)
  | 7 | 8 | 11 => decide (v < 2 ^ 16)
  | 9 => true
  | 10 => v % 64 == 0 && decide (v < 2 ^ 52)
  | 12 | 13 => decide (v < 2 ^ 24)
  | _ => v == 0

/-- The two halves of a packed field. -/
def halves (v : Nat) : BitVec 16 × BitVec 16 := (BitVec.ofNat 16 v, BitVec.ofNat 16 (v / 2 ^ 16))

/-- A layer with a field other than a capability set (R383); code 14 clears REQ. -/
def Layer.setField (l : Layer) (f v : Nat) : Layer :=
  match f with
  | 4 => { l with w := (halves v).1, h := (halves v).2 }
  | 5 => { l with ox := (halves v).1, oy := (halves v).2 }
  | 6 => { l with vx := (halves v).1, vy := (halves v).2 }
  | 7 => { l with kpar := BitVec.ofNat 16 v }
  | 8 => { l with q := BitVec.ofNat 16 v }
  | 9 => { l with lights := BitVec.ofNat 64 v }
  | 10 => { l with render := BitVec.ofNat 64 v }
  | 11 => { l with age := BitVec.ofNat 16 v }
  | 12 => { l with e := BitVec.ofNat 24 v }
  | 13 => { l with price := BitVec.ofNat 24 v }
  | _ => { l with req := false }

/-- A layer with a capability field set. -/
def Layer.setCap (l : Layer) (f : Nat) (k : Cap) : Layer :=
  match f with
  | 0 => { l with fcol := k }
  | 1 => { l with fdep := k }
  | 2 => { l with bcol := k }
  | _ => { l with bdep := k }

/-- Whether every tagged image of a layer is fit for a size (R383, R384). -/
def Layer.imagesFit (l : Layer) (w h : Nat) : Bool :=
  (!l.fcol.tag || colourFit l.fcol w h) && (!l.bcol.tag || colourFit l.bcol w h) &&
    (!l.fdep.tag || depthFit l.fdep w h) && (!l.bdep.tag || depthFit l.bdep w h)

/-- LSET of a layer field. -/
def lsetLayer (f i : Nat) (v : Nat) (k : Cap) : Exec Unit := do
  let l ← liveLayer i
  if f < 4 then do
    layerReq (!l.busy) i false 5
    layerReq (if f % 2 = 0 then colourFit k l.w.toNat l.h.toNat else depthFit k l.w.toNat l.h.toNat) i false 7
    modify fun s => s.setLayer i (l.setCap f k)
  else do
    layerReq (layerValueOk f v) i false 4
    if f = 4 then do
      layerReq (!l.busy) i false 5
      layerReq (l.imagesFit (v % 2 ^ 16) (v / 2 ^ 16)) i false 7
    modify fun s => s.setLayer i (l.setField f v)
    if f = 14 then modify fun s => s.modView l.view.toNat fun w => w.dropRequest i

/-- Whether VSIZE may hold a value (R383). -/
def vsizeOk (v : Nat) : Bool := v == 0 || layerValueOk 4 v

/-- LSET of a view field. -/
def lsetView (f i : Nat) (v : Nat) (k : Cap) : Exec Unit := do
  let w ← ownView i
  layerReq (decide (f < 21)) i true 3
  match f with
  | 16 => do
    layerReq (ocolFit k w.vw.toNat w.vh.toNat) i true 7
    modify fun s => s.modView i fun w => { w with ocol := k }
  | 17 => do
    layerReq (ordFit k w.vw.toNat w.vh.toNat) i true 7
    modify fun s => s.modView i fun w => { w with ord := k, newSlots := BitVec.allOnes 64 }
  | 18 => do
    layerReq (vsizeOk v) i true 4
    layerReq ((!w.ocol.tag || ocolFit w.ocol (v % 2 ^ 16) (v / 2 ^ 16)) && (!w.ord.tag || ordFit w.ord (v % 2 ^ 16) (v / 2 ^ 16))) i true 7
    modify fun s => s.modView i fun w => { w with vw := (halves v).1, vh := (halves v).2 }
  | 19 => do
    layerReq (decide (v < 2 ^ 32)) i true 4
    modify fun s => s.modView i fun w => { w with bg := BitVec.ofNat 32 v }
  | _ => modify fun s => s.modView i fun w => { w with dline := BitVec.ofNat 64 v }

/-- A reserved field code names no object: A is checked as a layer first (R383). -/
def reservedField (i : Nat) : Exec Unit := do
  let _ ← liveLayer i
  layerBad i false 3

/-- LSET (R383). -/
def execLset (f : BitVec 5) (a : Src) (b : BitVec 5) (s : State) : Host.Outcome State Fault Refusal :=
  runInstr 4 (do
    let n ← src a
    let v ← if capField f then pure 0#64 else src (Src.ofBits b)
    let k ← kreg (b.setWidth 3)
    layerStep (layerWord 2 f a.bits b 0#4)
    let c := f.toNat
    if c = 15 ∨ 23 ≤ c then reservedField n.toNat
    else if c < 16 then lsetLayer c n.toNat v.toNat k
    else lsetView c n.toNat v.toNat k
    pure .next) s

/-- A readable layer field as LGET pushes it (R383). -/
def Layer.field (l : Layer) (f : Nat) : Nat :=
  let two := fun (x y : BitVec 16) => x.toNat + 2 ^ 16 * y.toNat
  match f with
  | 4 => two l.w l.h
  | 5 => two l.ox l.oy
  | 6 => two l.vx l.vy
  | 7 => l.kpar.toNat
  | 8 => l.q.toNat
  | 9 => l.lights.toNat
  | 10 => l.render.toNat
  | 11 => l.age.toNat
  | 12 => l.e.toNat
  | 13 => l.price.toNat
  | _ => l.word 13 / 2 ^ 32

/-- A readable view field. -/
def View.field (v : View) (f : Nat) : Nat :=
  match f with
  | 18 => v.vw.toNat + 2 ^ 16 * v.vh.toNat
  | 19 => v.bg.toNat
  | 20 => v.dline.toNat
  | 21 => v.frame.toNat
  | _ => v.newSlots.toNat

/-- LGET (R383). -/
def execLget (f : BitVec 5) (d : Dst) (a : Src) (s : State) : Host.Outcome State Fault Refusal :=
  runInstr 4 (do
    let n ← src a
    layerStep (layerWord 3 d.bits a.bits f 0#4)
    let c := f.toNat
    if c = 15 ∨ 23 ≤ c then reservedField n.toNat
    else if c < 16 then do
      let l ← liveLayer n.toNat
      layerReq (decide (4 ≤ c)) n.toNat false 3
      dst d (BitVec.ofNat 64 (l.field c))
    else do
      let v ← ownView n.toNat
      layerReq (decide (18 ≤ c)) n.toNat true 3
      dst d (BitVec.ofNat 64 (v.field c))
    pure .next) s

/-- LEST (R385). -/
def execLest (d : Dst) (a : Src) (s : State) : Host.Outcome State Fault Refusal :=
  runInstr 4 (do
    let n ← src a
    layerStep (layerWord 4 d.bits a.bits 0#5 0#4)
    let l ← liveLayer n.toNat
    let bit := fun (b : Bool) (i : Nat) => if b then 2 ^ i else 0
    dst d (BitVec.ofNat 64 (l.e.toNat + 2 ^ 32 * l.age.toNat + bit l.req 48 + bit l.busy 49 + bit l.flip 50))
    pure .next) s

/-- LPRICE (R385). -/
def execLprice (a b : Src) (s : State) : Host.Outcome State Fault Refusal :=
  runInstr 4 (do
    let n ← src a
    let v ← src b
    layerStep (layerWord 5 0#5 a.bits b.bits 0#4)
    lsetLayer 13 n.toNat v.toNat Cap.null
    pure .next) s

/-- LLIGHT (R385). -/
def execLlight (a b : Src) (s : State) : Host.Outcome State Fault Refusal :=
  runInstr 4 (do
    let g ← src a
    let v ← src b
    layerStep (layerWord 11 0#5 a.bits b.bits 0#4)
    let x ← getSlot
    let vn := x.view.toNat
    let _ ← ownView vn
    layerReq (decide (g.toNat < 64)) g.toNat true 1
    layerReq (decide (v.toNat < 2 ^ 24)) g.toNat true 4
    modify fun s => s.modView vn fun w => { w with lights := w.lights.set 0#24 g.toNat (BitVec.ofNat 24 v.toNat) }
    pure .next) s

/-! ## Requests (R386) -/

/-- LREQ (R386). -/
def execLreq (d : Dst) (s : State) : Host.Outcome State Fault Refusal :=
  runInstr 4 (do
    layerStep (layerWord 6 d.bits 0#5 0#5 0#4)
    let x ← getSlot
    let vn := x.view.toNat
    let v ← ownView vn
    match v.requests with
    | [] => dst d (u64 (-1))
    | e :: _ => do
      modify fun s => s.modView vn View.pop
      dst d (BitVec.ofNat 64 e.2)
    pure .next) s

/-- The render record of a request: none when RENDER is 0. Its page must be readable (R386). -/
def renderRecord (addr : Nat) : Exec (Option Rec) := do
  if addr = 0 then pure none
  else do
    let s ← get
    let w := s.who s.cur
    let p ← locate w 0 addr 64 [1]
    match p with
    | .mem key c va => do
      beforeRead p 64
      let r ← readRecord { key := key, keep := c, va := va, addr := addr }
      pure (some r)
    | _ => pure none

/-- LREQ.s (R386): the record queued as SPAWN queues it, with the entry's deadline carried from the view's die to the
slot's (R24). -/
def execLreqS (d : Dst) (s : State) : Host.Outcome State Fault Refusal :=
  runInstr 4 (do
    layerStep (layerWord 6 d.bits 0#5 0#5 1#4)
    let x ← getSlot
    let vn := x.view.toNat
    let v ← ownView vn
    match v.requests with
    | [] => dst d (u64 (-1))
    | e :: _ => do
      let s ← get
      let r ← renderRecord (s.layer e.2).render.toNat
      modify fun s => s.modView vn View.pop
      let s ← get
      match r with
      | none => dst d (u64 (-2))
      | some r =>
        let r := { r with deadline := s.rebaseDeadline (vn / 16) (dieOf (coreOf s.cur)) e.1 }
        if s.recOk r [0, 1] then beforeLive r.group
        let s ← get
        match s.spawnStep r (coreOf s.cur) with
        | none => block
        | some (n, s') => do
          set s'
          dst d (if n = -1 then u64 (-2) else BitVec.ofNat 64 e.2)
    pure .next) s

/-! ## Rendering (R387) -/

/-- The layers that a COMPOSE, LSPLIT or LMERGE in flight has captured, with their front images (R387, R389, R393). -/
def LayerJob.captured : LayerJob → List Front
  | .compose j => j.shots.map Shot.front
  | .pair j => [j.a, j.b]

/-- The COMPOSE, LSPLIT and LMERGE that are in flight. -/
def State.layerJobs (s : State) : List LayerJob := s.slots.filterMap fun x => x.2.job

/-- Whether one in flight still reads an image that stands at the back of layer `i` (R387). -/
def State.backInUse (s : State) (i : Nat) : Bool :=
  s.layerJobs.any fun j => j.captured.any fun f => f.no == i && (f.fcol == (s.layer i).bcol || f.fdep == (s.layer i).bdep)

/-- LBEGIN (R387). -/
def execLbegin (a : Src) (s : State) : Host.Outcome State Fault Refusal :=
  runInstr 4 (do
    let n ← src a
    layerStep (layerWord 7 0#5 a.bits 0#5 0#4)
    let l ← liveLayer n.toNat
    layerReq (!l.busy) n.toNat false 5
    let s ← get
    await (!s.backInUse n.toNat)
    modify fun s => s.setLayer n.toNat { l with busy := true }
    pure .next) s

/-- The layer after its render (R387). -/
def Layer.rendered (l : Layer) : Layer :=
  { l with fcol := l.bcol, fdep := l.bdep, bcol := l.fcol, bdep := l.fdep, age := 0#16, e := 0#24, req := false, busy := false }

/-- LDONE (R387): FENCE.rel at domain scope stands before it. -/
def execLdone (a : Src) (s : State) : Host.Outcome State Fault Refusal :=
  runInstr 4 (do
    let n ← src a
    layerStep (layerWord 8 0#5 a.bits 0#5 0#4)
    let l ← liveLayer n.toNat
    layerReq l.busy n.toNat false 5
    releaseAt 5
    modify fun s => (s.setLayer n.toNat l.rendered).modView l.view.toNat fun v => v.dropRequest n.toNat
    pure .next) s

end Sys2Proof.Machine
end

