-- ==== Sys2Proof/Machine/Compose.lean ====
section
/-!
DEFINITION. COMPOSE (R388 to R392), LSPLIT and LMERGE (R393, R394). Each checks and captures at its issue, and its slot then waits
while its accesses and steps are performed one by one (`State.layerStep`).
-/

namespace Sys2Proof.Machine

/-! ## Images -/

/-- [v, v + n) in pieces within 64 KiB pages, `fuel` of them at most. -/
def pagesOf : Nat → Nat → Nat → List (Nat × Nat)
  | 0, _, _ => []
  | fuel + 1, v, n =>
    if n = 0 then []
    else
      let m := min n (2 ^ 16 - v % 2 ^ 16)
      (v, m) :: pagesOf fuel (v + m) (n - m)

/-- Every page of an image of `n` bytes translated for the current slot (R388). -/
def imageAt (k : Cap) (n : Nat) (bits : List Nat) : Exec Image := do
  let ps ← eachM (fun (x : Nat × Nat) => do
    let s ← get
    let p ← locate (s.who s.cur) k.space x.1 x.2 bits
    match p with
    | .mem key _ va => pure ({ v := x.1, n := x.2, key := key, va := va } : ImgPage)
    | _ => pure { v := x.1, n := x.2, key := 0, va := none }) (pagesOf (n / 2 ^ 16 + 2) k.cursor n)
  pure { at' := k.cursor, pages := ps }

/-- An image that is not accessed. -/
def Image.unused : Image := { at' := 0, pages := [] }

/-- Where byte `off` of an image lies: its key, and the address that R409 logs. -/
def Image.place (m : Image) (off : Nat) : Nat × Option Nat :=
  let v := m.at' + off
  match m.pages.find? fun p => decide (p.v ≤ v) && decide (v < p.v + p.n) with
  | some p => (p.key + (v - p.v), p.va.map (· + (v - p.v)))
  | none => (0, none)

/-- What an access to an image waits for at issue: the slot's earlier accesses to its homes (R242) and its cards (R249). No
pre-emption stops a slot that waits there (R381). -/
def imageReady (m : Image) (writes : Bool) : Exec Unit := firmly do
  let s ← get
  await (m.pages.all fun p => (s.cardsAt s.cur (.mem p.key false p.va) p.n (!writes)).isEmpty)
  let homes := m.pages.flatMap fun p => (List.range (p.n / 64 + 2)).map fun i => homeOf (p.key + 64 * i)
  force fun a => homes.contains a.home

/-- The front images of layer number `i`, every page translated. -/
def frontImages (i : Nat) (bits : List Nat) : Exec Front := do
  let s ← get
  let l := s.layer i
  let c ← imageAt l.fcol (4 * l.w.toNat * l.h.toNat) bits
  let d ← imageAt l.fdep (2 * l.w.toNat * l.h.toNat) bits
  pure { no := i, w := l.w.toNat, h := l.h.toNat, fcol := l.fcol, fdep := l.fdep, col := c, dep := d }

/-- The front images of a layer that are not accessed. -/
def frontUnused (i : Nat) (l : Layer) : Front :=
  { no := i, w := l.w.toNat, h := l.h.toNat, fcol := l.fcol, fdep := l.fdep, col := Image.unused, dep := Image.unused }

/-! ## Single accesses and steps -/

/-- How the next step of an instruction in `Wait.layer` ends: it must wait; it is performed; it meets a poisoned line; the
instruction has come to its end, pushing a value if it pushes one. -/
inductive LayerGo (α : Type) where
  | wait
  | go (j : α) (s : State)
  | bad (key : Nat) (s : State)
  | done (push : Option (Dst × U64)) (s : State)

/-- `n` bytes of an image read for slot `g`, once their home performs it (R146, R180, R221). -/
def State.imgRead (s : State) {α : Type} (g : Nat) (m : Image) (off n : Nat) (f : Nat → State → LayerGo α) : LayerGo α :=
  let key := (m.place off).1
  if s.stepAt (coreOf g) key n then
    let s := s.fillFor key n
    match s.poisonIn key n with
    | some k => .bad k s
    | none => f (s.num key n) s
  else .wait

/-- `n` bytes of an image written for slot `g`, once their home performs it (R146, R409). -/
def State.imgWrite (s : State) {α : Type} (g : Nat) (m : Image) (off n v : Nat) (f : State → LayerGo α) : LayerGo α :=
  let p := m.place off
  if s.stepAt (coreOf g) p.1 n then f (s.performWrites (s.partOfSlot g) (s.slot g).tenant p.2 (writesAt p.1 (toBytes n v)) none)
  else .wait

/-! ## The estimator step (R389) -/

/-- Exact quotient by 16 rounded to an integer, halves away from zero (R390). -/
def rna16 (t : Int) : Int := if t < 0 then -(((t.natAbs + 8) / 16 : Nat) : Int) else ((t.natAbs + 8) / 16 : Nat)

/-- The estimate after one frame (R389). -/
def Layer.aged (l : Layer) (step pen : Nat) (lights : SMap (BitVec 24)) : Layer :=
  let age := min (l.age.toNat + 1) 65535
  let sum := ((List.range 64).map fun g => if bitAt l.lights g then (lights.get 0#24 g).toNat else 0).sum
  let e := l.e.toNat + step * l.kpar.toNat / 256 + age * l.q.toNat + sum + (if l.flip then pen else 0)
  { l with age := BitVec.ofNat 16 age, e := BitVec.ofNat 24 (min e (2 ^ 24 - 1)), flip := false }

/-- Whether a layer asks for a render (R389). -/
def Layer.asks (l : Layer) : Bool := decide (l.e.toNat > l.price.toNat) && !l.req

/-- What a composite captures of a layer after its step (R389, R390). -/
def Layer.shot (l : Layer) (f : Front) : Shot :=
  { front := f, slot := l.slot.toNat, x := l.ox.toInt + rna16 (l.age.toNat * l.vx.toInt), y := l.oy.toInt + rna16 (l.age.toNat * l.vy.toInt) }

/-- Whether the front images that were checked are still those of a layer. -/
def Front.of (f : Front) (l : Layer) : Bool := l.live && f.w == l.w.toNat && f.h == l.h.toNat && f.fcol == l.fcol && f.fdep == l.fdep

/-- The front images of layer `i` when slot `g` captures it: as they were checked, or, where they have changed since, as they are
now; none when those are not fit or do not translate (DESIGN CHOICE, log 93). -/
def State.frontNow (s : State) (g i : Nat) (checked : List Front) : Option Front × State :=
  let l := s.layer i
  match checked.find? fun f => f.no == i && f.of l with
  | some f => (some f, s)
  | none =>
    if l.live && colourFit l.fcol l.w.toNat l.h.toNat && depthFit l.fdep l.w.toNat l.h.toNat then
      match frontImages i [1] { s with cur := g } with
      | .ok (f, s') => (some f, { s' with cur := s.cur })
      | .error _ => (none, s)
    else (none, s)

/-! ## The composite (R390) -/

/-- The pixel of a captured layer that lies under view pixel (x, y), if there is one. -/
def Shot.pixelAt (c : Shot) (x y : Nat) : Option Nat :=
  let u := (x : Int) - c.x
  let v := (y : Int) - c.y
  if 0 ≤ u ∧ u < c.front.w ∧ 0 ≤ v ∧ v < c.front.h then some (v.toNat * c.front.w + u.toNat) else none

/-- A fragment put in order of depth, then layer number (R390). -/
def insertFrag (f : Frag) : List Frag → List Frag
  | [] => [f]
  | g :: gs => if f.depth < g.depth ∨ (f.depth = g.depth ∧ f.no < g.no) then f :: g :: gs else g :: insertFrag f gs

/-- Channel `i` of a colour: R, G, B, A. -/
def channel (c i : Nat) : Nat := c / 2 ^ (8 * i) % 256

/-- One colour laid under what has been accumulated (R390). -/
def under (acc c : Nat) : Nat :=
  let k := 255 - channel acc 3
  ((List.range 4).map fun i => min 255 (channel acc i + (channel c i * k + 127) / 255) * 2 ^ (8 * i)).sum

/-- The composite of one pixel: the first 8 fragments, then the background (R390). -/
def composite (fs : List Frag) (bg : Nat) : Nat := ((fs.take 8).map Frag.colour ++ [bg]).foldl under 0

/-! ## The order matrix (R391) -/

/-- The bit of the slots p < q in a tile's order matrix (R391). -/
def pairBit (p q : Nat) : Nat := q * (q - 1) / 2 + p

/-- The order bits that one pixel sets: pairs whose higher slot sorts first (R391). -/
def orderBits : List Frag → Nat
  | [] => 0
  | f :: fs => fs.foldl (fun b g => if g.slot < f.slot then b ||| 2 ^ pairBit g.slot f.slot else b) (orderBits fs)

/-- The slots that flip: both occupied, neither new, in some tile (R391). -/
def flipped (occ : List (Nat × Nat)) (new : U64) (diff : Nat) : List Nat :=
  let old := occ.filter fun x => !bitAt new x.1
  (old.filter fun a => old.any fun b => a.1 ≠ b.1 && diff / 2 ^ pairBit (min a.1 b.1) (max a.1 b.1) % 2 == 1).map Prod.snd

/-- Insertion in rising order. -/
def insertNat (x : Nat) : List Nat → List Nat
  | [] => [x]
  | y :: ys => if x < y then x :: y :: ys else y :: insertNat x ys

/-! ## The steps of COMPOSE after its view step -/

/-- Pixels of the view, and its tiles. -/
def ComposeJob.pixels (j : ComposeJob) : Nat := j.vw * j.vh
def ComposeJob.tiles (j : ComposeJob) : Nat := tilesOf j.vw * tilesOf j.vh

/-- A COMPOSE come to pixel `i`: it looks at the captured layers that lie there. -/
def ComposeJob.atPixel (j : ComposeJob) (i : Nat) : ComposeJob :=
  { j with pixel := i, look := j.shots.filter fun c => (c.pixelAt (i % j.vw) (i / j.vw)).isSome, depth := none, frags := [] }

/-- Whether an LSPLIT or LMERGE that names layer `i` is in flight (R389). -/
def State.pairOn (s : State) (i : Nat) : Bool :=
  s.layerJobs.any fun j => match j with | .pair p => p.a.no == i || p.b.no == i | _ => false

/-- The step at the home of layer `i`, the next in number (R389): its estimate, its request, and what is captured of it. A layer that
is no longer live has none and shows nothing (DESIGN CHOICE, log 93). -/
def State.composeLayer (s : State) (g : Nat) (j : ComposeJob) (i : Nat) (rest : List Nat) : LayerGo ComposeJob :=
  if s.pairOn i then .wait
  else
    let l := (s.layer i).aged j.camStep j.flipPen j.lights
    let s := if l.live then s.setLayer i { l with req := l.req || l.asks } else s
    let r := s.frontNow g i j.fronts
    let j := { j with layers := rest, append := if l.live && l.asks then some i else none
                      shots := j.shots ++ (r.1.map l.shot).toList }
    .go (if rest = [] then j.atPixel 0 else j) r.2

/-- The next access of the composite (R390): a depth, a colour, or the pixel written, its order bits noted (R391). -/
def State.composePixel (s : State) (g : Nat) (j : ComposeJob) : LayerGo ComposeJob :=
  let x := j.pixel % j.vw
  let y := j.pixel / j.vw
  match j.look, j.depth with
  | [], _ =>
    s.imgWrite g j.out (4 * j.pixel) 4 (composite j.frags j.bg) fun s =>
      let t := y / 4 * tilesOf j.vw + x / 4
      .go ({ j with bits := j.bits.set 0 t (j.bits.get 0 t ||| orderBits j.frags) }.atPixel (j.pixel + 1)) s
  | c :: cs, none =>
    s.imgRead g c.front.dep (2 * (c.pixelAt x y).getD 0) 2 fun d s =>
      .go (if d = 0xFFFF then { j with look := cs } else { j with depth := some d }) s
  | c :: cs, some d =>
    s.imgRead g c.front.col (4 * (c.pixelAt x y).getD 0) 4 fun v s =>
      .go { j with look := cs, depth := none, frags := insertFrag { depth := d, no := c.front.no, slot := c.slot, colour := v } j.frags } s

/-- The next access of the order phase (R391): of each tile's 256 bytes the four lines are read, and then written. -/
def State.composeOrder (s : State) (g : Nat) (j : ComposeJob) : LayerGo ComposeJob :=
  let t := j.line / 8
  let i := j.line % 4
  let new := j.bits.get 0 t
  if j.line % 8 < 4 then
    s.imgRead g j.ord (256 * t + 64 * i) 64 fun v s =>
      .go { j with line := j.line + 1, held := (if i = 0 then 0 else j.held) + v * 2 ^ (512 * i) } s
  else
    s.imgWrite g j.ord (256 * t + 64 * i) 64 (new / 2 ^ (512 * i) % 2 ^ 512) fun s =>
      .go { j with line := j.line + 1, diff := if i = 3 then j.diff ||| (j.held % 2 ^ 2016 ^^^ new) else j.diff } s

/-- The next step of a COMPOSE (R389 to R392): a request appended at the view's home, a layer's step, an access of the composite or
of the order phase, a layer's FLIP, and FRAME, which it pushes. -/
def State.composeStep (s : State) (g : Nat) (j : ComposeJob) : LayerGo ComposeJob :=
  match j.append, j.layers, j.flips with
  | some i, _, _ => .go { j with append := none } (s.modView j.view fun v => v.append j.dline i)
  | none, i :: rest, _ => s.composeLayer g j i rest
  | none, [], none =>
    if j.pixel < j.pixels then s.composePixel g j
    else if j.line < 8 * j.tiles then s.composeOrder g j
    else .go { j with flips := some (flipped j.occupied j.newSlots j.diff) } s
  | none, [], some (i :: rest) =>
    .go { j with flips := some rest } (if (s.layer i).live then s.setLayer i { s.layer i with flip := true } else s)
  | none, [], some [] =>
    let frame := (s.view' j.view).frame + 1#64
    .done (some (j.d, frame)) (s.modView j.view fun v => { v with frame := frame })

/-- Whether a COMPOSE of view `v` is in flight (R388). -/
def State.composing (s : State) (v : Nat) : Bool :=
  s.layerJobs.any fun j => match j with | .compose c => c.view == v | _ => false

/-- The current slot waits for the steps of `j`. -/
def startJob (j : LayerJob) : Exec Flow := do
  modSlot fun x => { x with job := some j, wait := Wait.layer }
  pure .hold

/-- COMPOSE (R388): its checks, what it waits for, and its step at the view's home; then its slot waits for the others. -/
def execCompose (d : Dst) (s : State) : Host.Outcome State Fault Refusal :=
  runInstr 4 (do
    firmly (layerStep (layerWord 12 d.bits 0#5 0#5 0#4))
    let x ← getSlot
    let vn := x.view.toNat
    let v ← ownView vn
    let s ← get
    firmly (await (!s.composing vn))
    layerReq v.configured vn true 2
    let fit := fun (l : Layer) =>
      (!l.fcol.tag || colourFit l.fcol l.w.toNat l.h.toNat) && (!l.fdep.tag || depthFit l.fdep l.w.toNat l.h.toNat)
    let _ ← eachM (fun (o : Nat × Nat) => layerReq (fit (s.layer o.2)) o.2 false 7) v.occupied
    let _ ← eachM (fun (o : Nat × Nat) => layerReq ((s.layer o.2).fcol.tag && (s.layer o.2).fdep.tag) o.2 false 8) v.occupied
    let fronts ← eachM (fun (o : Nat × Nat) => frontImages o.2 [1]) v.occupied
    let out ← imageAt v.ocol (4 * v.vw.toNat * v.vh.toNat) [2]
    let ord ← imageAt v.ord (256 * tilesOf v.vw.toNat * tilesOf v.vh.toNat) [1, 2]
    let _ ← eachM (fun (f : Front) => do
      imageReady f.col false
      imageReady f.dep false) fronts
    imageReady out true
    imageReady ord true
    modify fun s => s.modView vn fun w => { w with lights := [], newSlots := 0#64 }
    startJob (.compose
      { d := d, view := vn, camStep := x.camStep.toNat, flipPen := x.flipPen.toNat, vw := v.vw.toNat, vh := v.vh.toNat, bg := v.bg.toNat
        dline := v.dline, newSlots := v.newSlots, lights := v.lights, occupied := v.occupied, fronts := fronts, out := out, ord := ord
        layers := v.occupied.foldl (fun l o => insertNat o.2 l) [] })) s

/-! ## LSPLIT and LMERGE (R393, R394) -/

/-- The access checks of R114 on the front images of a layer that are written: tag and W. -/
def frontWritable (l : Layer) : Exec Unit := do
  require l.fcol.tag .capTag (u64 l.fcol.cursor)
  require (l.fcol.has 1) .capPerm (u64 l.fcol.cursor)
  require l.fdep.tag .capTag (u64 l.fdep.cursor)
  require (l.fdep.has 1) .capPerm (u64 l.fdep.cursor)

/-- The checks that LSPLIT and LMERGE share, in the order of R381: both layers. The second's images must be tagged, and the
first's as well when `both` (R393, R394). Then they wait until nothing in flight has captured either layer. -/
def twoLayers (a b : Nat) (both : Bool) : Exec (Layer × Layer) := do
  layerInRange a
  layerInRange b
  let la ← liveLayer a
  let lb ← liveLayer b
  layerReq (!la.busy) a false 5
  layerReq (!lb.busy) b false 5
  layerReq (a ≠ b && la.view == lb.view) b false 6
  layerReq (!both || (la.fcol.tag && la.fdep.tag)) a false 8
  layerReq (lb.fcol.tag && lb.fdep.tag) b false 8
  let s ← get
  firmly (await (!s.layerJobs.any fun j => j.captured.any fun f => f.no == a || f.no == b))
  pure (la, lb)

/-- Whether some pixel of layer `n` lies over layer `l`. -/
def overlaps (n l : Layer) : Bool :=
  let meets := fun (a m b k : Int) => decide (a < b + k) && decide (b < a + m) && decide (0 < m) && decide (0 < k)
  meets n.ox.toInt n.w.toNat l.ox.toInt l.w.toNat && meets n.oy.toInt n.h.toNat l.oy.toInt l.h.toNat

/-- The pixel of front images `b` at origin (bx, by) under pixel number `p` of front images `a` at (ax, ay), if there is one. -/
def pixelUnder (a b : Front) (ax ay bx by' : Int) (p : Nat) : Option Nat :=
  let u := (p % a.w : Nat) + ax - bx
  let v := (p / a.w : Nat) + ay - by'
  if 0 ≤ u ∧ u < b.w ∧ 0 ≤ v ∧ v < b.h then some (v.toNat * b.w + u.toNat) else none

/-- The pixels that the instruction goes through: those of the new layer B of LSPLIT, or of the kept layer A of LMERGE. -/
def PairJob.pixels (j : PairJob) : Nat := if j.merge then j.a.w * j.a.h else j.b.w * j.b.h

/-- The pixel of the other layer under pixel `i`. -/
def PairJob.under (j : PairJob) (i : Nat) : Option Nat :=
  if j.merge then pixelUnder j.a j.b j.ax j.ay j.bx j.by' i else pixelUnder j.b j.a j.bx j.by' j.ax j.ay i

/-- The next access of a pixel, with what has been read of it; and the next pixel. -/
def PairJob.also (j : PairJob) (v : Nat) : PairJob := { j with part := j.part + 1, got := j.got ++ [v] }
def PairJob.next (j : PairJob) : PairJob := { j with pixel := j.pixel + 1, part := 0, got := [] }

/-- The next access of LSPLIT at a pixel (R393): where the new layer lies over the source, that pixel read, written there and then
emptied; else a pixel emptied. -/
def State.splitStep (s : State) (g : Nat) (j : PairJob) : LayerGo PairJob :=
  let i := j.pixel
  let put := fun (m : Image) (off n v : Nat) (k : PairJob) => s.imgWrite g m off n v fun s => LayerGo.go k s
  match j.under i, j.part with
  | none, 0 => put j.b.col (4 * i) 4 0 (j.also 0)
  | none, _ => put j.b.dep (2 * i) 2 0xFFFF j.next
  | some p, 0 => s.imgRead g j.a.col (4 * p) 4 fun v s => .go (j.also v) s
  | some p, 1 => s.imgRead g j.a.dep (2 * p) 2 fun v s => .go (j.also v) s
  | some _, 2 => put j.b.col (4 * i) 4 (j.got.getD 0 0) (j.also 0)
  | some _, 3 => put j.b.dep (2 * i) 2 (j.got.getD 1 0) (j.also 0)
  | some p, 4 => put j.a.col (4 * p) 4 0 (j.also 0)
  | some p, _ => put j.a.dep (2 * p) 2 0xFFFF j.next

/-- The next access of LMERGE at a pixel (R394): both depths read, and where B is nearer its colour read and the pixel taken. -/
def State.mergeStep (s : State) (g : Nat) (j : PairJob) : LayerGo PairJob :=
  let i := j.pixel
  match j.under i, j.part with
  | none, _ => .go j.next s
  | some p, 0 => s.imgRead g j.b.dep (2 * p) 2 fun v s => .go (j.also v) s
  | some _, 1 => s.imgRead g j.a.dep (2 * i) 2 fun v s => .go (if j.got.getD 0 0 < v then j.also v else j.next) s
  | some p, 2 => s.imgRead g j.b.col (4 * p) 4 fun v s => .go (j.also v) s
  | some _, 3 => s.imgWrite g j.a.col (4 * i) 4 (j.got.getD 2 0) fun s => .go (j.also 0) s
  | some _, _ => s.imgWrite g j.a.dep (2 * i) 2 (j.got.getD 0 0) fun s => .go j.next s

/-- What LSPLIT gives the new layer of its source (R393). -/
def Layer.splitFrom (n l : Layer) : Layer :=
  { n with age := l.age, e := l.e, price := l.price, vx := l.vx, vy := l.vy, kpar := l.kpar, q := l.q, lights := l.lights
           flip := l.flip, req := false }

/-- What LMERGE leaves in the kept layer, its request apart (R394). -/
def Layer.mergedWith (a b : Layer) : Layer :=
  { a with age := if a.age < b.age then b.age else a.age, e := if a.e < b.e then b.e else a.e
           price := if b.price < a.price then b.price else a.price, q := if a.q < b.q then b.q else a.q
           lights := a.lights ||| b.lights, flip := a.flip || b.flip }

/-- The requests of a view after a merge of layer `b` into `a` (R394). -/
def View.mergeRequests (v : View) (a b : Nat) (moves : Bool) : View :=
  if moves then v.setRequests (v.requests.map fun e => if e.2 = b then (e.1, a) else e) else v.dropRequest b

/-- A layer that is still live changed. -/
def State.modLayer (s : State) (i : Nat) (f : Layer → Layer) : State :=
  if (s.layer i).live then s.setLayer i (f (s.layer i)) else s

/-- The last steps of LSPLIT, one at each home (R393): the source's fields read, the new layer's written, and a request of the new
layer dropped with its REQ, so that no layer has two entries (R386; DEDUCED, log 59). -/
def State.splitEnd (s : State) (j : PairJob) : LayerGo PairJob :=
  match j.part with
  | 0 => .go { j with part := 1, held := s.layer j.a.no } s
  | 1 => .go { j with part := 2 } (s.modLayer j.b.no fun n => n.splitFrom j.held)
  | _ => .done none (s.modView (s.layer j.b.no).view.toNat fun v => v.dropRequest j.b.no)

/-- The last steps of LMERGE, one at each home (R394): B's fields read; A's written; at the view's home B's request moved or removed
and its slot emptied, as LFREE does; and B freed. -/
def State.mergeEnd (s : State) (j : PairJob) : LayerGo PairJob :=
  match j.part with
  | 0 => .go { j with part := 1, held := s.layer j.b.no } s
  | 1 =>
    let moves := j.held.req && !(s.layer j.a.no).req
    .go { j with part := 2, moves := moves } (s.modLayer j.a.no fun a => { a.mergedWith j.held with req := a.req || moves })
  | 2 =>
    .go { j with part := 3 } (s.modView j.held.view.toNat fun v =>
      { (v.touch j.held.slot.toNat).mergeRequests j.a.no j.b.no j.moves with slots := v.slots.set 0xFFFF j.held.slot.toNat 0xFFFF })
  | _ => .done none (s.setLayer j.b.no {})

/-- The next step of an LSPLIT or LMERGE. -/
def State.pairStep (s : State) (g : Nat) (j : PairJob) : LayerGo PairJob :=
  match decide (j.pixel < j.pixels), j.merge with
  | true, false => s.splitStep g j
  | true, true => s.mergeStep g j
  | false, false => s.splitEnd j
  | false, true => s.mergeEnd j

/-- Whether LMERGE has come to the first pixel that it takes, so that A's images are to be written. -/
def PairJob.takes (j : PairJob) : Bool := j.merge && !j.writable && decide (j.pixel < j.pixels) && j.part == 2

/-- Memory and slot `g` alone, where nothing keeps an access waiting. -/
def State.alone (s : State) (g : Nat) : State := { s with slots := [(g, s.slot g)], clusters := [], cores := [], engines := [], releases := [], flight := [] }

/-- What an LSPLIT or LMERGE of slot `g` meets as memory stands, `fuel` accesses on: whether LMERGE takes a pixel, and the first
poisoned line. -/
def State.pairLook (g : Nat) : Nat → State → PairJob → Bool × Option Nat
  | 0, _, _ => (false, none)
  | fuel + 1, s, j =>
    if j.pixels ≤ j.pixel then (false, none)
    else
      match s.pairStep g j with
      | .go k s =>
        let r := State.pairLook g fuel s k
        (j.takes || r.1, r.2)
      | .bad key _ => (j.takes, some key)
      | _ => (false, none)

/-- An LSPLIT or LMERGE of the current slot starts, unless it is known already that it will meet a poisoned line: that raises MCHECK
with nothing changed (R381). -/
def startPair (j : PairJob) : Exec Flow := do
  let s ← get
  match (State.pairLook s.cur (6 * j.pixels) (s.alone s.cur) j).2 with
  | some k => trap .mcheck (u64 (physOf k))
  | none => startJob (.pair j)

/-- A's front images checked for the pixels that LMERGE takes (R394, R114, R145). -/
def mergeWritable (i : Nat) : Exec Front := do
  let s ← get
  frontWritable (s.layer i)
  frontImages i [1, 2]

/-- LSPLIT (R393). The source's images are accessed only where a pixel of the new layer lies over it, and the new layer's only where
it has a pixel. -/
def execLsplit (a b : Src) (s : State) : Host.Outcome State Fault Refusal :=
  runInstr 4 (do
    let i ← src a
    let j ← src b
    firmly (layerStep (layerWord 9 0#5 a.bits b.bits 0#4))
    let (l, n) ← twoLayers i.toNat j.toNat false
    let over' := overlaps n l
    let some' := decide (0 < n.w.toNat * n.h.toNat)
    if over' then frontWritable l
    if some' then frontWritable n
    let fl ← if over' then frontImages i.toNat [1, 2] else pure (frontUnused i.toNat l)
    let fn ← if some' then frontImages j.toNat [2] else pure (frontUnused j.toNat n)
    let _ ← eachM (fun m => imageReady m true) [fl.col, fl.dep, fn.col, fn.dep]
    startPair { merge := false, a := fl, b := fn, ax := l.ox.toInt, ay := l.oy.toInt, bx := n.ox.toInt, by' := n.oy.toInt
                writable := true }) s

/-- LMERGE (R394). The images are accessed only where B lies under A, and A's written only where B is nearer. -/
def execLmerge (a b : Src) (s : State) : Host.Outcome State Fault Refusal :=
  runInstr 4 (do
    let i ← src a
    let j ← src b
    firmly (layerStep (layerWord 10 0#5 a.bits b.bits 0#4))
    let (l, n) ← twoLayers i.toNat j.toNat true
    let over' := overlaps l n
    let fl ← if over' then frontImages i.toNat [1] else pure (frontUnused i.toNat l)
    let fn ← if over' then frontImages j.toNat [1] else pure (frontUnused j.toNat n)
    let job : PairJob :=
      { merge := true, a := fl, b := fn, ax := l.ox.toInt, ay := l.oy.toInt, bx := n.ox.toInt, by' := n.oy.toInt, writable := false }
    let s ← get
    let taken := (State.pairLook s.cur (6 * job.pixels) (s.alone s.cur) job).1
    let fl ← if taken then mergeWritable i.toNat else pure fl
    let _ ← eachM (fun m => imageReady m true) [fl.col, fl.dep]
    let _ ← eachM (fun m => imageReady m false) [fn.col, fn.dep]
    startPair { job with a := fl, writable := taken }) s

/-! ## The next step of a slot's COMPOSE, LSPLIT or LMERGE -/

/-- A trap that ends the instruction of slot `g`; what it has performed stays (R392). -/
def State.layerTrap (s : State) (g : Nat) (c : Cause) (v : U64) : Option State :=
  (s.takeTrap g c v 4).map fun s => s.modSlot g fun x => { x with job := none }

/-- What a step leaves of the instruction of slot `g`: its job, a trap, or its end. -/
def layerGone {α : Type} (g : Nat) (job : α → LayerJob) : LayerGo α → Option State
  | .wait => none
  | .go j s => some (s.modSlot g fun x => { x with job := some (job j) })
  | .bad k s => s.layerTrap g .mcheck (u64 (physOf k))
  | .done push s =>
    let s := match push with
      | some p => s.completeWith g 4 p.1 p.2
      | none => s.complete g 4
    some (s.modSlot g fun x => { x with job := none })

/-- The check that A's images may be written, made when the first pixel is taken: a trap then changes nothing (R381, R394). -/
def State.takePixel (s : State) (g : Nat) (j : PairJob) : Option State :=
  match mergeWritable j.a.no { s with cur := g } with
  | .ok (f, u) => some ({ u with cur := s.cur }.modSlot g fun x => { x with job := some (.pair { j with a := f, writable := true }) })
  | .error (.trap c v) => s.layerTrap g c v
  | .error _ => none

/-- The next access or step of the COMPOSE, LSPLIT or LMERGE of slot `g` (R381, R392); none while it must wait. -/
def State.layerStep (s : State) (g : Nat) : Option State :=
  match (s.slot g).job with
  | none => none
  | some (.compose j) => layerGone g .compose (s.composeStep g j)
  | some (.pair j) => if j.takes then s.takePixel g j else layerGone g .pair (s.pairStep g j)

end Sys2Proof.Machine
end

