-- ==== Sys2Proof/Machine/Vector.lean ====
section
/-!
DEFINITION. What every vector instruction shares (R269 to R272): element types, elements of a register, the enabled
elements, merging and zeroing, rounding modes with their STO fields (R64, R65), and the writing of a result.
-/

namespace Sys2Proof.Machine

/-- The prefix with every field 0, as an unprefixed word behaves (R43). -/
def zeroPfx : Pfx :=
  { ovt := 0#3, ove := false, cov := 0#2, f4e := false, f4 := 0#5, sat := false, rnd := 0#3, zero := false, me := false, vm := 0#3 }

/-- The prefix of an instruction (R43). -/
def pfxOf (p : Option Pfx) : Pfx := p.getD zeroPfx

/-- The length of an instruction with or without a prefix. -/
def pairLen (p : Option Pfx) : Nat := if p.isSome then 8 else 4

/-- The width in bits of an element type (R39). -/
def etBits (et : BitVec 3) : Nat :=
  match et.toNat with
  | 0 => 8
  | 1 => 16
  | 2 => 32
  | 3 => 64
  | 4 => 16
  | 5 => 16
  | 6 => 32
  | _ => 64

/-- The floating format of an element type (R39). -/
def etFmt (et : BitVec 3) : Fmt :=
  match et.toNat with
  | 4 => bf16
  | 5 => fp16
  | 6 => fp32
  | _ => fp64

/-- Whether an element type is an integer type (R39). -/
def etInt (et : BitVec 3) : Bool := decide (et.toNat < 4)

/-- Vector register `i`. -/
def Slot.vreg (x : Slot) (i : Nat) : BitVec 8192 := x.v.get 0#8192 i
/-- Mask register `i`. -/
def Slot.vmask (x : Slot) (i : Nat) : BitVec 256 := x.vm.get 0#256 i

/-- Lanes of the slot (R263). -/
def Slot.lanes (x : Slot) : Nat := 16 * x.groups

/-- Elements of `w` bits in a register (R269). -/
def Slot.count (x : Slot) (w : Nat) : Nat := 32 * x.lanes / w

/-- The first `el` elements of `w` bits. -/
def elems {n : Nat} (r : BitVec n) (w el : Nat) : List Nat := (List.range el).map fun i => (fld r (w * i) w).toNat

/-- Elements put together, element 0 lowest. -/
def packElems (w : Nat) : List Nat → Nat
  | [] => 0
  | x :: xs => x % 2 ^ w + 2 ^ w * packElems w xs

/-- Whether element `i` of `w` bits is enabled (R269, R271): by its governing bit. -/
def Slot.enabled (x : Slot) (q : Pfx) (w i : Nat) : Bool := !q.me || bitAt (x.vmask q.vm.toNat) (w * i / 32)

/-- A slot without lanes raises ILLOP (R270). -/
def lanesHeld (tval : U64) : Exec Unit := do
  let x ← getSlot
  require (decide (x.groups ≠ 0)) .illop tval

/-- What becomes of element `i`: its result, or by R271 its old value or zero. -/
def Slot.settleElem (x : Slot) (q : Pfx) (w i old : Nat) (r : FRes) : FRes :=
  if x.enabled q w i then r else ⟨if q.zero then 0 else old, 0#6⟩

/-- Elements of `w` bits written to vector register `d`, and the flags they set. -/
def putElems (d : BitVec 5) (w : Nat) (rs : List FRes) : Exec Unit := do
  modSlot fun x => { x with v := x.v.set 0#8192 d.toNat (BitVec.ofNat 8192 (packElems w (rs.map FRes.bits))) }
  setFlags (rs.foldl (fun a r => a ||| r.fl) 0#6)

/-- The result `f i` for each enabled element of `w` bits written to `d`, the other elements by R271. -/
def mapElems (q : Pfx) (w : Nat) (d : BitVec 5) (f : Slot → Nat → FRes) : Exec Unit := do
  let x ← getSlot
  let old := x.vreg d.toNat
  putElems d w ((List.range (x.count w)).map fun i => x.settleElem q w i (fld old (w * i) w).toNat (f x i))

/-- Element `i` of `w` bits of vector register `r`. -/
def Slot.elem (x : Slot) (r : BitVec 5) (w i : Nat) : Nat := (fld (x.vreg r.toNat) (w * i) w).toNat

/-- The four fields of a generator output (R65). -/
def fields4 (v : U64) : List Nat := [v.toNat % 2 ^ 16, v.toNat / 2 ^ 16 % 2 ^ 16, v.toNat / 2 ^ 32 % 2 ^ 16, v.toNat / 2 ^ 48]

/-- `n` STO fields from the slot's generator (R65). -/
def takeFields (n : Nat) : Exec (List Nat) := do
  let os ← eachM (fun _ => rngNext) (List.range (ceilDiv n 4))
  pure (os.flatMap fields4)

/-- The rounding mode that a prefix names: DYN takes RMODE (R64, R67). -/
def Slot.mode (x : Slot) (q : Pfx) : Nat := if q.rnd = 6#3 then x.rmode.toNat else q.rnd.toNat

/-- The rounding of each of `n` results, with its STO field when the mode takes fields (R64, R65). -/
def roundings (q : Pfx) (n : Nat) : Exec (Nat → Rnd) := do
  let x ← getSlot
  let mode := x.mode q
  if mode = 5 then do
    let ds ← takeFields n
    pure fun i => { mode := mode, draw := ds.getD i 0, sat := q.sat }
  else pure fun _ => { mode := mode, sat := q.sat }

end Sys2Proof.Machine
end

