-- ==== Sys2Proof/Machine/VConvert.lean ====
section
/-!
DEFINITION. Vector conversions: major VCVT (R276, R277).
-/

namespace Sys2Proof.Machine

/-- One element converted from type `ts` to type `td` (R71 to R75). -/
def convertElem (ts td : BitVec 3) (r : Rnd) (v : Nat) : FRes :=
  match etInt ts, etInt td with
  | true, true => intToInt (etBits ts) (etBits td) r.sat v
  | true, false => intToFp (etFmt td) r (signed v (etBits ts))
  | false, true => fpToInt (etFmt ts) (etBits td) r v
  | false, false => fpConvert (etFmt ts) (etFmt td) r v

/-- VCVT (R276): `el` conversions, each of which takes an STO field unless both types are integer types (R65). -/
def execVcvt (p : Option Pfx) (et : BitVec 3) (d a : BitVec 5) (src1 : BitVec 3) (part : BitVec 2) (s : State) :
    Host.Outcome State Fault Refusal :=
  runInstr (pairLen p) (do
    lanesHeld (wordVal (encode (.vcvt p et d a src1 part)))
    let q := pfxOf p
    let ws := etBits src1
    let wd := etBits et
    let x ← getSlot
    let el := x.count (max ws wd)
    let r ← if etInt src1 && etInt et then pure (fun _ => ({ sat := q.sat } : Rnd)) else roundings q el
    let first := if wd < ws then part.toNat * el else 0
    let from1 := if ws < wd then part.toNat * el else 0
    let old := x.vreg d.toNat
    putElems d wd ((List.range (x.count wd)).map fun j =>
      let o := (fld old (wd * j) wd).toNat
      if first ≤ j ∧ j < first + el then
        x.settleElem q wd j o (convertElem src1 et (r (j - first)) (x.elem a ws (from1 + (j - first))))
      else ⟨o, 0#6⟩)
    pure .next) s

/-- The elements of block `k` as values, those beyond the register +0 (R277). -/
def Slot.blockOf (x : Slot) (et : BitVec 3) (a : BitVec 5) (k : Nat) : List Fp :=
  let n := etBits et
  (List.range 32).map fun i =>
    if 32 * k + i < x.count n then Fp.ofBits (etFmt et) (x.elem a n (32 * k + i)) else .fin false 0 0

/-- VQBFP (R277). -/
def execVqbfp (p : Option Pfx) (et : BitVec 3) (d a : BitVec 5) (m1 : BitVec 3) (s : State) : Host.Outcome State Fault Refusal :=
  runInstr (pairLen p) (do
    lanesHeld (wordVal (encode (.vqbfp p et d a m1)))
    let q := pfxOf p
    let m := m1.toNat + 1
    let x ← getSlot
    let nb := ceilDiv (x.count (etBits et)) 32
    let ds ← if x.mode q = 5 then takeFields (32 * nb) else pure []
    let blocks := (List.range nb).map fun k => bfpQuantise m (x.mode q) ((ds.drop (32 * k)).take 32) (x.blockOf et a k)
    let bs := blocks.flatMap fun b => bfpBytes m b.1 b.2.1
    modSlot fun y => { y with v := y.v.set 0#8192 d.toNat (BitVec.ofNat 8192 (ofBytes (bs.take (4 * x.lanes)))) }
    setFlags (blocks.foldl (fun f b => f ||| b.2.2) 0#6)
    pure .next) s

/-- VDQBFP (R277, R78). The one element value beyond FP32 and BF16, -2^128 of M = -2^(m-1) with E = 254, overflows by R66 to
-infinity with OVERFLOW and INEXACT (DESIGN CHOICE, log 80: R78 calls FP32 and BF16 always exact). -/
def execVdqbfp (p : Option Pfx) (et : BitVec 3) (d a : BitVec 5) (m1 : BitVec 3) (s : State) : Host.Outcome State Fault Refusal :=
  runInstr (pairLen p) (do
    lanesHeld (wordVal (encode (.vdqbfp p et d a m1)))
    let m := m1.toNat + 1
    let n := etBits et
    let x ← getSlot
    let bs := toBytes (4 * x.lanes) (x.vreg a.toNat).toNat
    let val := fun i =>
      let (e, ms) := bfpUnpack m (bs.drop ((1 + 4 * m) * (i / 32)))
      ((bfpValue e m (ms.getD (i % 32) 0)).toBits (etFmt et) rneMode)
    putElems d n ((List.range (x.count n)).map val)
    pure .next) s

end Sys2Proof.Machine
end

