-- ==== Sys2Proof/Machine/VMem.lean ====
section
/-!
DEFINITION. Vector memory: major VMEM (R278 to R280).
-/

namespace Sys2Proof.Machine

/-- The element type in memory (R278). -/
def memType (q : Pfx) (et : BitVec 3) : BitVec 3 := if q.ove then q.ovt else et

/-- The place of each enabled element of `n` bytes, in index order; every check comes before any access (R279). -/
def elemPlaces (k : Cap) (n : Nat) (load : Bool) (addrs : List (Option Int)) : Exec (List (Option (Place × Nat))) :=
  eachM (fun a =>
    match a with
    | none => pure none
    | some v => do
      let p ← place k v n { spaces := [0, 1, 2, 3], xperm := true, perm := [if load then 0 else 1], align := n }
        [if load then 1 else 2]
      if load then notAcrossDies p.home v.toNat
      pure (some (p, v.toNat))) addrs

/-- The addresses of the enabled elements. -/
def Slot.addresses (x : Slot) (q : Pfx) (w : Nat) (addr : Nat → Int) : List (Option Int) :=
  (List.range (x.count w)).map fun i => if x.enabled q w i then some (addr i) else none

/-- Element `i` of load number `instr`, `n` bytes at a place, sent to its home (R242, R279), behind the cards of the slot that
write there (R249). -/
def sendElem (instr n : Nat) (i : Nat) (p : Place) : Exec Unit := do
  let id ← newNo
  let s ← get
  let va := match p with | .mem _ _ va => va | _ => none
  set (s.launchAccess (mkAccess s id instr (.elem i p.key n) p.home [] none (s.cardsAt s.cur p n true) va false))

/-- The elements of a load of instruction `i` sent, of `n` bytes each and by their numbers; the slot waits for them, holding what
it has `got` (R279). -/
def sendElems (i : Instr) (entries : Bool) (got : SMap Nat) (n : Nat) (ps : List (Nat × Place)) : Exec Unit := do
  let no ← newNo
  let _ ← eachM (fun (x : Nat × Place) => sendElem no n x.1 x.2) ps
  modSlot fun x => { x with elems := some { instr := i, no := no, entries := entries, got := got }, wait := Wait.elems }

/-- The elements of a list that are there, with their numbers. -/
def present (ps : List (Option (Place × Nat))) : List (Nat × Place) :=
  ((List.range ps.length).zip ps).filterMap fun x => x.2.map fun p => (x.1, p.1)

/-- A load that blocks its slot until every element is in place (R279); without one it completes at once. `fin` writes
what the elements hold. -/
def loadElems (i : Instr) (n : Nat) (ps : List (Option (Place × Nat))) (fin : SMap Nat → Exec Unit) : Exec Flow := do
  match present ps with
  | [] => do
    fin []
    pure .next
  | l => do
    sendElems i false [] n l
    pure .hold

/-- What a vector load writes from what its elements hold: each widened to its type (R280). -/
def vloadEnd (p : Option Pfx) (et : BitVec 3) (d : BitVec 5) (got : SMap Nat) : Exec Unit := do
  let q := pfxOf p
  mapElems q (etBits et) d fun _ i =>
    if q.ove then convertElem (memType q et) et rneMode (got.get 0 i) else ⟨got.get 0 i, 0#6⟩

/-- A vector load (R279, R280): `i` is the instruction. -/
def vload (i : Instr) (p : Option Pfx) (et : BitVec 3) (d : BitVec 5) (k : BitVec 3) (addr : Slot → Cap → Nat → Nat → Int) :
    Exec Flow := do
  let q := pfxOf p
  let n := etBits (memType q et) / 8
  let x ← getSlot
  let c ← kreg k
  let ps ← elemPlaces c n true (x.addresses q (etBits et) (addr x c n))
  loadElems i n ps (vloadEnd p et d)

/-- A vector store (R279, R280): one of the slot's outstanding stores until its last element is performed. -/
def vstore (p : Option Pfx) (et : BitVec 3) (d : BitVec 5) (k : BitVec 3) (addr : Slot → Cap → Nat → Nat → Int) : Exec Flow := do
  let q := pfxOf p
  let mt := memType q et
  let n := etBits mt / 8
  let w := etBits et
  let x ← getSlot
  let c ← kreg k
  let ps ← elemPlaces c n false (x.addresses q w (addr x c n))
  storeSlot
  let i ← newNo
  let conv := fun j => if q.ove then convertElem et mt rneMode (x.elem d w j) else ⟨x.elem d w j, 0#6⟩
  let _ ← eachM (fun (j : Nat) =>
    match (ps.getD j none) with
    | none => pure ()
    | some (pl, v) => do
      storePlace pl i v (toBytes n (conv j).bits) false false
      setFlags (conv j).fl) (List.range ps.length)
  pure .next

/-- Addresses of VLD and VST (R278). -/
def wholeAddr (off : BitVec 5) (_ : Slot) (c : Cap) (n i : Nat) : Int := c.cursor + 64 * off.toInt + n * i
/-- Addresses of VLDS and VSTS (R278). -/
def strideAddr (st : U64) (_ : Slot) (c : Cap) (_ i : Nat) : Int := c.cursor + st.toInt * i
/-- Addresses of VGTH and VSCT (R278): lane `i` of the index vector as INT32. -/
def indexAddr (b : BitVec 5) (x : Slot) (c : Cap) (_ i : Nat) : Int := c.cursor + signed (x.elem b 32 i) 32

/-- VLD (R278, R279). -/
def execVld (p : Option Pfx) (et : BitVec 3) (d : BitVec 5) (k : BitVec 3) (off : BitVec 5) (s : State) :
    Host.Outcome State Fault Refusal :=
  runInstr (pairLen p) (do
    lanesHeld (wordVal (encode (.vld p et d k off)))
    vload (.vld p et d k off) p et d k (wholeAddr off)) s

/-- VST (R278, R279). -/
def execVst (p : Option Pfx) (et : BitVec 3) (d : BitVec 5) (k : BitVec 3) (off : BitVec 5) (s : State) :
    Host.Outcome State Fault Refusal :=
  runInstr (pairLen p) (do
    lanesHeld (wordVal (encode (.vst p et d k off)))
    vstore p et d k (wholeAddr off)) s

/-- VLDS (R278, R279). -/
def execVlds (p : Option Pfx) (et : BitVec 3) (d : BitVec 5) (k : BitVec 3) (b : Src) (s : State) :
    Host.Outcome State Fault Refusal :=
  runInstr (pairLen p) (do
    let v ← src b
    lanesHeld (wordVal (encode (.vlds p et d k b)))
    vload (.vlds p et d k b) p et d k (strideAddr v)) s

/-- VSTS (R278, R279). -/
def execVsts (p : Option Pfx) (et : BitVec 3) (d : BitVec 5) (k : BitVec 3) (b : Src) (s : State) :
    Host.Outcome State Fault Refusal :=
  runInstr (pairLen p) (do
    let v ← src b
    lanesHeld (wordVal (encode (.vsts p et d k b)))
    vstore p et d k (strideAddr v)) s

/-- VGTH (R278, R279). -/
def execVgth (p : Option Pfx) (et : BitVec 3) (d : BitVec 5) (k : BitVec 3) (b : BitVec 5) (s : State) :
    Host.Outcome State Fault Refusal :=
  runInstr (pairLen p) (do
    lanesHeld (wordVal (encode (.vgth p et d k b)))
    vload (.vgth p et d k b) p et d k (indexAddr b)) s

/-- VSCT (R278, R279). -/
def execVsct (p : Option Pfx) (et : BitVec 3) (d : BitVec 5) (k : BitVec 3) (b : BitVec 5) (s : State) :
    Host.Outcome State Fault Refusal :=
  runInstr (pairLen p) (do
    lanesHeld (wordVal (encode (.vsct p et d k b)))
    vstore p et d k (indexAddr b)) s

end Sys2Proof.Machine
end

