-- ==== Sys2Proof/Machine/VSpecial.lean ====
section
/-!
DEFINITION. Table interpolation and random vectors: major VSPEC (R283 to R285).
-/

namespace Sys2Proof.Machine

/-! ## VTBL -/

/-- A table header (R283): intervals, bounds, scale, tail. -/
structure TableHdr where
  n : Nat
  lo : Nat
  hi : Nat
  scale : Nat
  tail : Nat
  deriving DecidableEq, Repr

/-- Whether FP32 bits hold a finite value. -/
def finite32 (b : Nat) : Bool := match Fp.ofBits fp32 b with | .fin .. => true | _ => false

/-- The header in 32 bytes; none when it breaks R283. -/
def tableOf (bs : List Byte) : Option TableHdr :=
  let h : TableHdr := { n := leAt bs 0 4, lo := leAt bs 4 4, hi := leAt bs 8 4, scale := leAt bs 12 4, tail := leAt bs 16 1 }
  let v := Fp.ofBits fp32
  if 1 ≤ h.n ∧ h.n ≤ 4095 ∧ finite32 h.lo ∧ finite32 h.hi ∧ fpLt (v h.lo) (v h.hi) ∧ finite32 h.scale ∧
      fpLt (.fin false 0 0) (v h.scale) ∧ h.tail ≤ 2 ∧ leAt bs 17 15 = 0 then some h
  else none

/-- floor of a value that is not negative, at most `n`. -/
def floorUpTo (n : Nat) : Fp → Nat
  | .fin _ m e => min n (if e ≥ 0 then m * 2 ^ e.toNat else m / 2 ^ (-e).toNat)
  | _ => n

/-- How an element is found (R284): a value known at once, or interval `k` with fraction `f`. -/
inductive TableStep where
  | value (bits : Nat)
  | entry (j : Nat)
  | between (k f : Nat)
  deriving DecidableEq, Repr

/-- The interval of FP32 value `x` (R284), with the flags so far. -/
def TableHdr.find (h : TableHdr) (x : Nat) : TableStep × Flags :=
  let v := Fp.ofBits fp32
  if (v x).isNan then (.value fp32.nan, 0#6)
  else if fpLt (v x) (v h.lo) then (if h.tail = 0 then .entry 0 else if h.tail = 1 then .value 0 else .value x, 0#6)
  else if !fpLt (v x) (v h.hi) then (if h.tail = 0 then .entry h.n else if h.tail = 1 then .value 0 else .value x, 0#6)
  else
    let s := fpSub fp32 rneMode (v x) (v h.lo)
    let u := fpMul fp32 rneMode (v s.bits) (v h.scale)
    let k := floorUpTo h.n (v u.bits)
    if k ≥ h.n then (.entry h.n, s.fl ||| u.fl)
    else
      let f := fpSub fp32 rneMode (v u.bits) (.fin false k 0)
      (.between k f.bits, s.fl ||| u.fl)

/-- The value between entries `t0` and `t1` at fraction `f` (R284). -/
def interpolate (t0 t1 f : Nat) : FRes :=
  let v := Fp.ofBits fp32
  let dl := fpSub fp32 rneMode (v t1) (v t0)
  let pr := fpMul fp32 rneMode (v f) (v dl.bits)
  let y := fpAdd fp32 rneMode (v t0) (v pr.bits)
  ⟨y.bits, dl.fl ||| pr.fl ||| y.fl⟩

/-- How an element of type `et` that holds `x` is found, with the flags so far (R284). -/
def TableHdr.step (h : TableHdr) (et : BitVec 3) (x : Nat) : TableStep × Flags :=
  let c := fpConvert (etFmt et) fp32 rneMode x
  ((h.find c.bits).1, c.fl ||| (h.find c.bits).2)

/-- The entries that element `i` needs, each with the number of its load: 2i + 2 and 2i + 3 (0 and 1 are the header's). -/
def TableStep.entries (i : Nat) : TableStep → List (Nat × Nat)
  | .value _ => []
  | .entry j => [(2 * i + 2, j)]
  | .between k _ => [(2 * i + 2, k), (2 * i + 3, k + 1)]

/-- The result of element `i` in type `et` from what its loads returned (R284). -/
def TableStep.result (st : TableStep) (et : BitVec 3) (fl : Flags) (i : Nat) (got : SMap Nat) : FRes :=
  let y : FRes := match st with
    | .value b => ⟨b, 0#6⟩
    | .entry _ => ⟨got.get 0 (2 * i + 2), 0#6⟩
    | .between _ f => interpolate (got.get 0 (2 * i + 2)) (got.get 0 (2 * i + 3)) f
  let r := fpConvert fp32 (etFmt et) rneMode y.bits
  ⟨r.bits, fl ||| y.fl ||| r.fl⟩

/-- The header's bytes, which two loads of 16 bytes have returned. -/
def tableHeader (got : SMap Nat) : List Byte := toBytes 16 (got.get 0 0) ++ toBytes 16 (got.get 0 1)

/-- The first entry of a table that lies outside the bounds raises CAPBND (R284). -/
def tableBounds (k : Cap) (n : Nat) : Exec Unit :=
  match (List.range (n + 1)).find? fun j => decide (k.cursor + 32 + 4 * j + 4 > k.top) with
  | some j => trap .capBnd (u64 (k.cursor + 32 + 4 * j))
  | none => pure ()

/-- The place of each table entry that is needed (R284). -/
def entryPlaces (k : Cap) (es : List (Nat × Nat)) : Exec (List (Nat × Place)) :=
  eachM (fun (e : Nat × Nat) => do
    let s ← get
    let p ← locate (s.who s.cur) k.space (k.cursor + 32 + 4 * e.2) 4 [1]
    pure (e.1, p)) es

/-- Every enabled element written from the table of header `h` (R284). -/
def tableWrite (q : Pfx) (et : BitVec 3) (d a : BitVec 5) (h : TableHdr) (got : SMap Nat) : Exec Unit := do
  let x ← getSlot
  mapElems q (etBits et) d fun _ i =>
    let st := h.step et (x.elem a (etBits et) i)
    st.1.result et st.2 i got

/-- VTBL goes on once its loads are in place (R284): with the header, it checks the table and loads the entries that it needs;
with those, it writes its register. -/
def tableNext (p : Option Pfx) (et : BitVec 3) (d a : BitVec 5) (kb : BitVec 3) (entries : Bool) (got : SMap Nat) : Exec Flow := do
  let q := pfxOf p
  let w := etBits et
  match tableOf (tableHeader got) with
  | none => do
    mapElems q w d fun _ _ => ⟨(etFmt et).nan, flInvalid⟩
    setFlags flInvalid
    pure .next
  | some h => do
    if entries then do
      tableWrite q et d a h got
      pure .next
    else do
      let k ← kreg kb
      tableBounds k h.n
      let x ← getSlot
      let ps ← entryPlaces k (((List.range (x.count w)).filter (x.enabled q w)).flatMap fun i => (h.step et (x.elem a w i)).1.entries i)
      match ps with
      | [] => do
        tableWrite q et d a h got
        pure .next
      | l => do
        sendElems (.vtbl p et d a kb) true got 4 l
        pure .hold

/-- VTBL (R284): its header is checked and loaded in two accesses of 16 bytes (DESIGN CHOICE, log 92). -/
def execVtbl (p : Option Pfx) (et : BitVec 3) (d a : BitVec 5) (kb : BitVec 3) (s : State) : Host.Outcome State Fault Refusal :=
  runInstr (pairLen p) (do
    lanesHeld (wordVal (encode (.vtbl p et d a kb)))
    let k ← kreg kb
    let v ← checkCap k k.cursor 32 { perm := [0], align := 16 }
    let s ← get
    let p0 ← locate (s.who s.cur) k.space v 16 [1]
    let p1 ← locate (s.who s.cur) k.space (v + 16) 16 [1]
    sendElems (.vtbl p et d a kb) false [] 16 [(0, p0), (1, p1)]
    pure .hold) s

/-! ## Random vectors (R285) -/

/-- VRNG: each output fills 64 / w elements, its low bits first. -/
def execVrng (p : Option Pfx) (et : BitVec 3) (d : BitVec 5) (s : State) : Host.Outcome State Fault Refusal :=
  runInstr (pairLen p) (do
    lanesHeld (wordVal (encode (.vrng p et d)))
    let w := etBits et
    let x ← getSlot
    let os ← eachM (fun _ => rngNext) (List.range (x.count 64))
    let bits := packElems 64 (os.map BitVec.toNat)
    mapElems (pfxOf p) w d fun _ i => ⟨bits / 2 ^ (w * i) % 2 ^ w, 0#6⟩
    pure .next) s

/-- c of R285: the FP32 value nearest 1/37,837.22. -/
def normalScale : Nat := 0x37DDB3DA

/-- The normal sample of one generator output (R285). -/
def normalOf (et : BitVec 3) (o : U64) : Nat :=
  let u : Int := ((fields4 o).sum : Nat) - 131070
  let z := fpMul fp32 rneMode (.fin (decide (u < 0)) u.natAbs 0) (Fp.ofBits fp32 normalScale)
  (fpConvert fp32 (etFmt et) rneMode z.bits).bits

/-- VRNGN: one output for each element, and no flag. -/
def execVrngn (p : Option Pfx) (et : BitVec 3) (d : BitVec 5) (s : State) : Host.Outcome State Fault Refusal :=
  runInstr (pairLen p) (do
    lanesHeld (wordVal (encode (.vrngn p et d)))
    let w := etBits et
    let x ← getSlot
    let os ← eachM (fun _ => rngNext) (List.range (x.count w))
    mapElems (pfxOf p) w d fun _ i => ⟨normalOf et (os.getD i 0#64), 0#6⟩
    pure .next) s

end Sys2Proof.Machine
end

