-- ==== Sys2Proof/Machine/Moment.lean ====
section
/-!
DEFINITION. Moments: majors MARITH, MNONL and MMOVE (R344 to R359). A moment is a pair of FP32 bit patterns, mean
first.
-/

namespace Sys2Proof.Machine

/-! ## Elements -/

/-- A moment: mean and variance (R62). -/
abbrev Moment := Nat × Nat

/-- Moment register `i`. -/
def Slot.mreg (x : Slot) (i : Nat) : BitVec 16384 := x.m.get 0#16384 i

/-- Element `i` of moment register `r` (R344). -/
def Slot.moment (x : Slot) (r i : Nat) : Moment :=
  ((fld (x.mreg r) (64 * i) 32).toNat, (fld (x.mreg r) (64 * i + 32) 32).toNat)

/-- The 64 bits of an element (R62). -/
def momentBits (e : Moment) : Nat := e.1 + 2 ^ 32 * e.2

/-- Elements written to moment register `d`: the result of each enabled element, by R271 the others. -/
def mapMoments (q : Pfx) (d : BitVec 4) (f : Nat → Moment) : Exec Unit := do
  let x ← getSlot
  let es := (List.range x.lanes).map fun i =>
    if x.enabled q 32 i then momentBits (f i) else if q.zero then 0 else momentBits (x.moment d.toNat i)
  modSlot fun y => { y with m := y.m.set 0#16384 d.toNat (BitVec.ofNat 16384 (packElems 64 es)) }

/-- The enabled elements. -/
def Slot.enabledLanes (x : Slot) (q : Pfx) : List Nat := (List.range x.lanes).filter fun i => x.enabled q 32 i

/-! ## Covariance (R346) -/

/-- Whether FP32 bits are a correlation: finite and in [-1, 1]. -/
def isRho (b : Nat) : Bool :=
  match Fp.ofBits fp32 b with
  | .fin n m e => !fpLt (.fin false 1 0) (.fin n m e) && !fpLt (.fin n m e) (.fin true 1 0)
  | _ => false

/-- The correlation that an instruction takes, none for 0 (R346). -/
def rho (p : Option Pfx) (cov : BitVec 3) : Exec (Option Nat) := do
  let x ← getSlot
  let code := match p with
    | some q => if cov = 0#3 then q.cov.toNat else cov.toNat
    | none => cov.toNat
  let code := if code = 4 then x.covmode.toNat else code
  let b := (x.x.get 0#64 7).toNat % 2 ^ 32
  match code with
  | 0 => pure none
  | 1 => pure (some c1)
  | 2 => pure (some (neg32 c1))
  | _ => do
    require (isRho b) .mvrho (BitVec.ofNat 64 b)
    pure (if b % 2 ^ 31 = 0 then none else some b)

/-! ## The rules (R347 to R354) -/

/-- What a rule computes: mean, variance, the two terms of its reference magnitude if it subtracts (R355), and
the flags. -/
structure MRes where
  mean : Nat
  var : Nat
  ref : Option (Nat × Nat)
  fl : Flags
  deriving DecidableEq, Repr

/-- r (sqrt x). -/
def sqrt32 (x : Nat) (fl : Flags) : Seq32 :=
  let q := fpSqrt fp32 rneMode (Fp.ofBits fp32 x)
  (q.bits, fl ||| q.fl)

/-- PI8 of R347, and 2, 4. -/
def cPi8 : Nat := 0x3EC90FDB
def c2 : Nat := 0x40000000
def c4 : Nat := 0x40800000

/-- The variance sequence of R348, for a mean already formed. -/
def sumRule (mean vx vy : Nat) (r : Option Nat) (fl : Flags) : MRes :=
  let (t1, fl) := s2 fpAdd vx vy fl
  match r with
  | none => { mean := mean, var := t1, ref := none, fl := fl }
  | some r =>
    let (sx, fl) := sqrt32 vx fl
    let (sy, fl) := sqrt32 vy fl
    let (k, fl) := s2 fpMul c2 r fl
    let (ks, fl) := s2 fpMul k sx fl
    let (c, fl) := s2 fpMul ks sy fl
    let (v, fl) := s2 fpAdd t1 c fl
    { mean := mean, var := v, ref := some (t1, c), fl := fl }

/-- MADD (R348). -/
def maddRule (r : Option Nat) (x y : Moment) (fl : Flags) : MRes :=
  let (m, fl) := s2 fpAdd x.1 y.1 fl
  sumRule m x.2 y.2 r fl

/-- MSUB (R348). -/
def msubRule (r : Option Nat) (x y : Moment) (fl : Flags) : MRes :=
  let (m, fl) := s2 fpSub x.1 y.1 fl
  sumRule m x.2 y.2 (r.map neg32) fl

/-- MMUL (R349). -/
def mmulRule (r : Option Nat) (x y : Moment) (fl : Flags) : MRes :=
  let (p, fl) := s2 fpMul x.1 y.1 fl
  let (xx, fl) := s2 fpMul x.1 x.1 fl
  let (a, fl) := s2 fpMul xx y.2 fl
  let (yy, fl) := s2 fpMul y.1 y.1 fl
  let (b, fl) := s2 fpMul yy x.2 fl
  let (w, fl) := s2 fpMul x.2 y.2 fl
  let (v1, fl) := s2 fpAdd a b fl
  match r with
  | none =>
    let (v, fl) := s2 fpAdd v1 w fl
    { mean := p, var := v, ref := none, fl := fl }
  | some r =>
    let (sx, fl) := sqrt32 x.2 fl
    let (sy, fl) := sqrt32 y.2 fl
    let (ss, fl) := s2 fpMul sx sy fl
    let (cs, fl) := s2 fpMul r ss fl
    let (m, fl) := s2 fpAdd p cs fl
    let (rr, fl) := s2 fpMul r r fl
    let (g, fl) := s2 fpAdd c1 rr fl
    let (gw, fl) := s2 fpMul g w fl
    let (v2, fl) := s2 fpAdd v1 gw fl
    let (pp, fl) := s2 fpMul c2 p fl
    let (t, fl) := s2 fpMul pp cs fl
    let (v, fl) := s2 fpAdd v2 t fl
    { mean := m, var := v, ref := some (v2, t), fl := fl }

/-- MSCALE (R350). -/
def mscaleRule (c : Nat) (x : Moment) (fl : Flags) : MRes :=
  let (m, fl) := s2 fpMul c x.1 fl
  let (cc, fl) := s2 fpMul c c fl
  let (v, fl) := s2 fpMul cc x.2 fl
  { mean := m, var := v, ref := none, fl := fl }

/-- MFMA (R350): MSCALE, then R348 with the addend `y`. -/
def mfmaRule (r : Option Nat) (c : Nat) (x y : Moment) (fl : Flags) : MRes :=
  let q := mscaleRule c x fl
  maddRule r (q.mean, q.var) y q.fl

/-- MRELU (R351). -/
def mreluRule (x : Moment) (fl : Flags) : MRes :=
  if x.2 % 2 ^ 31 = 0 then
    let (m, fl) := s2 fpMax x.1 0 fl
    { mean := m, var := 0, ref := none, fl := fl }
  else
    let (s, fl) := sqrt32 x.2 fl
    let (al, fl) := s2 fpDiv x.1 s fl
    let (pr, fl) := phiCdf al fl
    let (d, fl) := phiDensity al fl
    let (mp, fl) := s2 fpMul x.1 pr fl
    let (sd, fl) := s2 fpMul s d fl
    let (m, fl) := s2 fpAdd mp sd fl
    let (mm, fl) := s2 fpMul x.1 x.1 fl
    let (q, fl) := s2 fpAdd mm x.2 fl
    let (qp, fl) := s2 fpMul q pr fl
    let (ms, fl) := s2 fpMul x.1 s fl
    let (msd, fl) := s2 fpMul ms d fl
    let (t, fl) := s2 fpAdd qp msd fl
    let (m2, fl) := s2 fpMul m m fl
    let (v, fl) := s2 fpSub t m2 fl
    { mean := m, var := v, ref := some (t, m2), fl := fl }

/-- MSIG (R352). -/
def msigRule (x : Moment) (fl : Flags) : MRes :=
  let (pv, fl) := s2 fpMul cPi8 x.2 fl
  let (h, fl) := s2 fpAdd c1 pv fl
  let (k, fl) := sqrt32 h fl
  let (z, fl) := s2 fpDiv x.1 k fl
  let (zl, fl) := s2 fpMul z cLog2e fl
  let (e, fl) := exp2 (neg32 zl) fl
  let (oe, fl) := s2 fpAdd c1 e fl
  let (m, fl) := s2 fpDiv c1 oe fl
  let (rk, fl) := s2 fpDiv c1 k fl
  let (u, fl) := s2 fpSub c1 rk fl
  let (om, fl) := s2 fpSub c1 m fl
  let (mo, fl) := s2 fpMul m om fl
  let (v, fl) := s2 fpMul mo u fl
  { mean := m, var := v, ref := none, fl := fl }

/-- MEXP (R353). -/
def mexpRule (x : Moment) (fl : Flags) : MRes :=
  let (hv, fl) := s2 fpMul cHalf x.2 fl
  let (a, fl) := s2 fpAdd x.1 hv fl
  let (al, fl) := s2 fpMul a cLog2e fl
  let (m, fl) := exp2 al fl
  let (vl, fl) := s2 fpMul x.2 cLog2e fl
  let (ev, fl) := exp2 vl fl
  let (e1, fl) := s2 fpSub ev c1 fl
  let (mm, fl) := s2 fpMul m m fl
  let (v, fl) := s2 fpMul e1 mm fl
  { mean := m, var := v, ref := none, fl := fl }

/-- MSQR (R354). -/
def msqrRule (x : Moment) (fl : Flags) : MRes :=
  let (q, fl) := s2 fpMul x.1 x.1 fl
  let (m, fl) := s2 fpAdd q x.2 fl
  let (q4, fl) := s2 fpMul c4 q fl
  let (a, fl) := s2 fpMul q4 x.2 fl
  let (v2, fl) := s2 fpMul c2 x.2 fl
  let (b, fl) := s2 fpMul v2 x.2 fl
  let (v, fl) := s2 fpAdd a b fl
  { mean := m, var := v, ref := none, fl := fl }

/-! ## Negative variances (R355) -/

/-- Whether FP32 bits are below 0: negative, not -0, not a NaN. -/
def negative32 (b : Nat) : Bool := fpLt (Fp.ofBits fp32 b) (.fin false 0 0)

/-- |v| <= 2^-20 x (|a| + |b|), exactly; an infinite reference bounds everything (DEDUCED, log 23). -/
def residue (v a b : Nat) : Bool :=
  match Fp.ofBits fp32 v, Fp.ofBits fp32 a, Fp.ofBits fp32 b with
  | .fin _ m e, .fin _ m1 e1, .fin _ m2 e2 =>
    let e0 := min e (min e1 e2)
    let at0 := fun (m : Nat) (e : Int) => m * 2 ^ (e - e0).toNat
    decide (2 ^ 20 * at0 m e ≤ at0 m1 e1 + at0 m2 e2)
  | .inf _, .fin .., .fin .. => false
  | _, _, _ => true

/-- The variance that is written; none for MVNEG (R355). -/
def MRes.written (r : MRes) : Option Nat :=
  if negative32 r.var then
    match r.ref with
    | some (a, b) => if residue r.var a b then some 0 else none
    | none => none
  else if r.var = 2 ^ 31 then some 0
  else some r.var

/-- MVNEG's TVAL (R355). -/
def mvnegVal (source i v : Nat) : U64 := BitVec.ofNat 64 (source * 2 ^ 48 + i * 2 ^ 32 + v)

/-- A rule on every enabled element: the lowest failing one raises MVNEG, and then nothing is written (R347). -/
def byRule (q : Pfx) (d : BitVec 4) (f : Slot → Nat → Flags → MRes) : Exec Flow := do
  let x ← getSlot
  let rs := (x.enabledLanes q).map fun i => (i, f x i 0#6)
  match rs.find? fun r => r.2.written.isNone with
  | some (i, r) => trap .mvneg (mvnegVal 0 i r.var)
  | none => do
    mapMoments q d fun i =>
      let r := f x i 0#6
      (r.mean, r.written.getD 0)
    setFlags (rs.foldl (fun a r => a ||| r.2.fl) 0#6)
    pure .next

/-! ## MARITH and MNONL -/

/-- MADD (R348, R349). -/
def execMadd (p : Option Pfx) (cov : BitVec 3) (d a b : BitVec 4) (s : State) : Host.Outcome State Fault Refusal :=
  runInstr (pairLen p) (do
    lanesHeld (wordVal (encode (.madd p cov d a b)))
    let r ← rho p cov
    byRule (pfxOf p) d fun x i => maddRule r (x.moment a.toNat i) (x.moment b.toNat i)) s

/-- MSUB (R348, R349). -/
def execMsub (p : Option Pfx) (cov : BitVec 3) (d a b : BitVec 4) (s : State) : Host.Outcome State Fault Refusal :=
  runInstr (pairLen p) (do
    lanesHeld (wordVal (encode (.msub p cov d a b)))
    let r ← rho p cov
    byRule (pfxOf p) d fun x i => msubRule r (x.moment a.toNat i) (x.moment b.toNat i)) s

/-- MMUL (R348, R349). -/
def execMmul (p : Option Pfx) (cov : BitVec 3) (d a b : BitVec 4) (s : State) : Host.Outcome State Fault Refusal :=
  runInstr (pairLen p) (do
    lanesHeld (wordVal (encode (.mmul p cov d a b)))
    let r ← rho p cov
    byRule (pfxOf p) d fun x i => mmulRule r (x.moment a.toNat i) (x.moment b.toNat i)) s

/-- MSCALE (R350). -/
def execMscale (p : Option Pfx) (d a : BitVec 4) (b : BitVec 5) (s : State) : Host.Outcome State Fault Refusal :=
  runInstr (pairLen p) (do
    lanesHeld (wordVal (encode (.mscale p d a b)))
    byRule (pfxOf p) d fun x i => mscaleRule (x.elem b 32 i) (x.moment a.toNat i)) s

/-- MFMA (R350): the addend is f4, or the old destination. -/
def execMfma (p : Option Pfx) (cov : BitVec 3) (d a : BitVec 4) (b : BitVec 5) (s : State) : Host.Outcome State Fault Refusal :=
  runInstr (pairLen p) (do
    lanesHeld (wordVal (encode (.mfma p cov d a b)))
    let r ← rho p cov
    let q := pfxOf p
    let c := if q.f4e then q.f4.toNat else d.toNat
    byRule q d fun x i => mfmaRule r (x.elem b 32 i) (x.moment a.toNat i) (x.moment c i)) s

/-- MNEG (R350): the mean's sign bit inverted. -/
def execMneg (p : Option Pfx) (d a : BitVec 4) (s : State) : Host.Outcome State Fault Refusal :=
  runInstr (pairLen p) (do
    lanesHeld (wordVal (encode (.mneg p d a)))
    let x ← getSlot
    mapMoments (pfxOf p) d fun i => (neg32 (x.moment a.toNat i).1, (x.moment a.toNat i).2)
    pure .next) s

/-- MRELU (R351). -/
def execMrelu (p : Option Pfx) (d a : BitVec 4) (s : State) : Host.Outcome State Fault Refusal :=
  runInstr (pairLen p) (do
    lanesHeld (wordVal (encode (.mrelu p d a)))
    byRule (pfxOf p) d fun x i => mreluRule (x.moment a.toNat i)) s

/-- MSIG (R352). -/
def execMsig (p : Option Pfx) (d a : BitVec 4) (s : State) : Host.Outcome State Fault Refusal :=
  runInstr (pairLen p) (do
    lanesHeld (wordVal (encode (.msig p d a)))
    byRule (pfxOf p) d fun x i => msigRule (x.moment a.toNat i)) s

/-- MEXP (R353). -/
def execMexp (p : Option Pfx) (d a : BitVec 4) (s : State) : Host.Outcome State Fault Refusal :=
  runInstr (pairLen p) (do
    lanesHeld (wordVal (encode (.mexp p d a)))
    byRule (pfxOf p) d fun x i => mexpRule (x.moment a.toNat i)) s

/-- MSQR (R354). -/
def execMsqr (p : Option Pfx) (d a : BitVec 4) (s : State) : Host.Outcome State Fault Refusal :=
  runInstr (pairLen p) (do
    lanesHeld (wordVal (encode (.msqr p d a)))
    byRule (pfxOf p) d fun x i => msqrRule (x.moment a.toNat i)) s

/-! ## MMOVE (R356 to R359) -/

/-- MSET (R356). -/
def execMset (p : Option Pfx) (d : BitVec 4) (a b : BitVec 5) (s : State) : Host.Outcome State Fault Refusal :=
  runInstr (pairLen p) (do
    lanesHeld (wordVal (encode (.mset p d a b)))
    let q := pfxOf p
    let x ← getSlot
    match (x.enabledLanes q).find? fun i => negative32 (x.elem b 32 i) with
    | some i => trap .mvneg (mvnegVal 2 i (x.elem b 32 i))
    | none => do
      mapMoments q d fun i => (x.elem a 32 i, if x.elem b 32 i = 2 ^ 31 then 0 else x.elem b 32 i)
      pure .next) s

/-- MMEAN (R356). -/
def execMmean (p : Option Pfx) (d : BitVec 5) (a : BitVec 4) (s : State) : Host.Outcome State Fault Refusal :=
  runInstr (pairLen p) (do
    lanesHeld (wordVal (encode (.mmean p d a)))
    mapElems (pfxOf p) 32 d fun x i => ⟨(x.moment a.toNat i).1, 0#6⟩
    pure .next) s

/-- MVAR (R356). -/
def execMvar (p : Option Pfx) (d : BitVec 5) (a : BitVec 4) (s : State) : Host.Outcome State Fault Refusal :=
  runInstr (pairLen p) (do
    lanesHeld (wordVal (encode (.mvar p d a)))
    mapElems (pfxOf p) 32 d fun x i => ⟨(x.moment a.toNat i).2, 0#6⟩
    pure .next) s

/-- One lane of MCOLL (R357): `k` is K, `z` the normal sample. -/
def collapse (mode k z : Nat) (e : Moment) : FRes :=
  let pair := fun (r : Seq32) => (⟨r.1, r.2⟩ : FRes)
  let (sd, fl) := sqrt32 e.2 0#6
  let addScaled := fun (f g : Nat) =>
    let (t, fl) := s2 fpMul f g fl
    pair (s2 fpAdd e.1 t fl)
  match mode with
  | 0 => ⟨e.1, 0#6⟩
  | 1 => addScaled k sd
  | 2 => addScaled sd z
  | 3 => ⟨e.2, 0#6⟩
  | _ => ⟨sd, fl⟩

/-- MCOLL (R357): `.sample` takes one generator output for each element, enabled or not. -/
def execMcoll (p : Option Pfx) (mode : BitVec 3) (d : BitVec 5) (a : BitVec 4) (s : State) : Host.Outcome State Fault Refusal :=
  runInstr (pairLen p) (do
    lanesHeld (wordVal (encode (.mcoll p mode d a)))
    let x ← getSlot
    let os ← eachM (fun _ => rngNext) (List.range (if mode = 2#3 then x.lanes else 0))
    let k := (x.x.get 0#64 6).toNat % 2 ^ 32
    mapElems (pfxOf p) 32 d fun x i =>
      collapse mode.toNat k (normalOf 6#3 (os.getD i 0#64)) (x.moment a.toNat i)
    pure .next) s

/-- The addresses of the enabled elements of MLD and MST (R358). -/
def Slot.momentAddrs (x : Slot) (q : Pfx) (c : Cap) (off : BitVec 5) : List (Option Int) :=
  (List.range x.lanes).map fun i =>
    if x.enabled q 32 i then some (c.cursor + 64 * off.toInt + 8 * i) else none

/-- What MLD writes from what its elements hold, or MVNEG at the first lane with a negative variance (R346, R358). -/
def mldEnd (p : Option Pfx) (d : BitVec 4) (got : SMap Nat) : Exec Unit := do
  let q := pfxOf p
  let x ← getSlot
  let var := fun i => got.get 0 i / 2 ^ 32
  match (x.enabledLanes q).find? fun i => negative32 (var i) with
  | some i => trap .mvneg (mvnegVal 1 i (var i))
  | none => mapMoments q d fun i => (got.get 0 i % 2 ^ 32, if var i = 2 ^ 31 then 0 else var i)

/-- MLD (R358): a load whose elements are 8 bytes (R242). -/
def execMld (p : Option Pfx) (d : BitVec 4) (k : BitVec 3) (off : BitVec 5) (s : State) : Host.Outcome State Fault Refusal :=
  runInstr (pairLen p) (do
    lanesHeld (wordVal (encode (.mld p d k off)))
    let x ← getSlot
    let c ← kreg k
    let ps ← elemPlaces c 8 true (x.momentAddrs (pfxOf p) c off)
    loadElems (.mld p d k off) 8 ps (mldEnd p d)) s

/-- MST (R358). -/
def execMst (p : Option Pfx) (d : BitVec 4) (k : BitVec 3) (off : BitVec 5) (s : State) : Host.Outcome State Fault Refusal :=
  runInstr (pairLen p) (do
    lanesHeld (wordVal (encode (.mst p d k off)))
    let q := pfxOf p
    let x ← getSlot
    let c ← kreg k
    let ps ← elemPlaces c 8 false (x.momentAddrs q c off)
    storeSlot
    let n ← newNo
    let _ ← eachM (fun (i : Nat) =>
      match ps.getD i none with
      | none => pure ()
      | some (pl, v) => storePlace pl n v (toBytes 8 (momentBits (x.moment d.toNat i))) false false) (List.range ps.length)
    pure .next) s

/-- Whether FP32 bits are a NaN, an infinity. -/
def isNan32 (b : Nat) : Bool := (Fp.ofBits fp32 b).isNan
def isInf32 (b : Nat) : Bool := match Fp.ofBits fp32 b with | .inf _ => true | _ => false

/-- MCHK's summary of the enabled elements (R359). -/
def Slot.summary (x : Slot) (q : Pfx) (a : Nat) : Nat :=
  let es := (x.enabledLanes q).map fun i => (i, x.moment a i)
  let odd := es.filter fun e => isNan32 e.2.1 || isInf32 e.2.1 || isNan32 e.2.2 || isInf32 e.2.2
  let bit := fun (i : Nat) (b : Bool) => if b then 2 ^ i else 0
  ((odd.head?.map Prod.fst).getD 0xFFFF_FFFF) * 2 ^ 32 + odd.length * 2 ^ 16 +
    bit 4 (es.any fun e => e.2.2 == 0) + bit 3 (es.any fun e => isInf32 e.2.2) + bit 2 (es.any fun e => isInf32 e.2.1) +
    bit 1 (es.any fun e => isNan32 e.2.2) + bit 0 (es.any fun e => isNan32 e.2.1)

/-- MCHK (R359). -/
def execMchk (p : Option Pfx) (d : Dst) (a : BitVec 4) (s : State) : Host.Outcome State Fault Refusal :=
  runInstr (pairLen p) (do
    lanesHeld (wordVal (encode (.mchk p d a)))
    let x ← getSlot
    dst d (BitVec.ofNat 64 (x.summary (pfxOf p) a.toNat))
    pure .next) s

end Sys2Proof.Machine
end

