-- ==== Sys2Proof/Machine/Elements.lean ====
section
/-!
DEFINITION. The event in which a home performs an access (R21, R149), and what it ends: a vector or moment load once its
last element is in place (R279), a surrogate tile once its last latent write is performed (R251).
-/

namespace Sys2Proof.Machine

/-- A last step of a load. -/
def thenNext (m : Exec Unit) : Exec Flow := do
  m
  pure .next

/-- The length of a load by elements, and what it does once they are in place. -/
def ElemJob.last (j : ElemJob) : Nat × Exec Flow :=
  match j.instr with
  | .vld p et d _ _ => (pairLen p, thenNext (vloadEnd p et d j.got))
  | .vlds p et d _ _ => (pairLen p, thenNext (vloadEnd p et d j.got))
  | .vgth p et d _ _ => (pairLen p, thenNext (vloadEnd p et d j.got))
  | .mld p d _ _ => (pairLen p, thenNext (mldEnd p d j.got))
  | .vtbl p et d a kb => (pairLen p, tableNext p et d a kb j.entries j.got)
  | _ => (4, pure .next)

/-- Whether slot `g` waits for elements that have all been performed, and answered (R407). -/
def State.loadDone (s : State) (g : Nat) : Bool :=
  (s.slot g).wait == Wait.elems &&
    (s.slot g).elems.any fun j => !(s.flight.any fun a => a.instr == j.no) && !s.owed j.no

/-- The load of slot `g` goes on or ends (R279): it writes its register, or traps, for a poisoned line with MCHECK (R148). None
while that trap must wait. -/
def State.finishLoad (s : State) (g : Nat) : Option State :=
  (s.slot g).elems.bind fun j =>
    let (len, fin) := j.last
    let ended := fun (u : State) => u.modSlot g fun x => { x with elems := none }
    match j.bad with
    | some e => (s.takeTrap g e.1 e.2 len).map ended
    | none =>
      match fin { s with cur := g } with
      | .ok (.hold, u) => some { u with cur := s.cur }
      | .ok (_, u) => some (ended ({ u with cur := s.cur }.complete g len))
      | .error (.trap c v) => (s.takeTrap g c v len).map ended
      | .error _ => none

/-- What the latest access performed ends on slot `g`: its load, its tile. -/
def State.settleSlot (s : State) (g : Nat) : State :=
  if s.loadDone g then (s.finishLoad g).getD s else s.settleCommit g

/-- The access of a slot numbered `id` is performed at its home (R21). -/
def State.homeAccess (s : State) (id : Nat) : Option State :=
  match s.flight.find? fun a => a.id == id with
  | none => none
  | some a => if s.mayPerform a then (s.perform a).map fun s => s.settleSlot a.slot else none

end Sys2Proof.Machine
end

