-- ==== Sys2Proof/Machine/Compress.lean ====
section
/-!
DEFINITION. Compressed buffers: headers and tiles (R329), codebooks and their banks (R330, R332), coding and
decoding one tile, and a whole stream (R331, R334).
-/

namespace Sys2Proof.Machine

/-! ## Headers (R329) -/

/-- A buffer header. -/
structure BufHdr where
  fmt : Nat
  point : Nat
  lossy : Bool
  slot : Nat
  gen : Nat
  tiles : Nat
  deriving DecidableEq, Repr

/-- Header byte 0, if it keeps R329. -/
def hdrByte (b : Nat) : Option (Nat × Nat × Bool) :=
  let fmt := b % 16
  let lossy := b / 64 % 2 = 1
  if b / 128 % 2 = 1 ∨ fmt ≥ 12 ∨ (lossy ∧ fmt ≠ 0) then none else some (fmt, b / 16 % 4, lossy)

/-- The header in 64 bytes; none for DECODE. -/
def bufHdrOf (bs : List Byte) : Option BufHdr :=
  match hdrByte (leAt bs 0 1) with
  | none => none
  | some (fmt, point, lossy) =>
    let h : BufHdr := { fmt := fmt, point := point, lossy := lossy, slot := leAt bs 1 1 % 16, gen := leAt bs 2 2, tiles := leAt bs 4 4 }
    if leAt bs 1 1 / 16 ≠ 0 ∨ h.gen = 0 ∨ h.tiles = 0 ∨ h.tiles > 65536 ∨ leAt bs 8 56 ≠ 0 then none else some h

/-- The bytes of a header. -/
def hdrBytes (b0 slot gen tiles : Nat) : List Byte :=
  toBytes 1 b0 ++ toBytes 1 slot ++ toBytes 2 gen ++ toBytes 4 tiles ++ toBytes 56 0

/-! ## Codebooks (R332) -/

/-- Number of bank `b` of a codebook slot of partition `p` on die `d`. -/
def bankKey (p d slot b : Nat) : Nat := ((p * 4 + d) * 16 + slot) * 2 + b

/-- The codebook of generation `gen`, if a bank of the slot holds it (R332). -/
def State.codebook (s : State) (p d slot gen : Nat) : Option (List Byte) :=
  ([0, 1].find? fun b => decide ((s.codebooks.get {} (bankKey p d slot b)).gen = gen)).map fun b =>
    (s.codebooks.get {} (bankKey p d slot b)).bytes

/-- A codebook written to the bank that does not hold the slot's newest generation (R332). -/
def State.loadCodebook (s : State) (p d slot gen : Nat) (bs : List Byte) : State :=
  let b := if (s.codebooks.get {} (bankKey p d slot 0)).newest then 1 else 0
  let o := s.codebooks.get {} (bankKey p d slot (1 - b))
  let m := s.codebooks.set {} (bankKey p d slot b) { gen := gen, bytes := bs, newest := true }
  { s with codebooks := m.set {} (bankKey p d slot (1 - b)) { o with newest := false } }

/-! ## Tiles (R330) -/

/-- The lowest index of `b` in a codebook. -/
def codeOf (book : List Byte) (b : Byte) : Option Nat := (List.range 15).find? fun c => book.getD c 0#8 == b

/-- The nibbles of one byte. -/
def nibblesOf (book : List Byte) (b : Byte) : List Nat :=
  match codeOf book b with
  | some c => [c]
  | none => [15, b.toNat % 16, b.toNat / 16]

/-- Nibbles as bytes, low half first. -/
def packNibbles : List Nat → List Byte
  | [] => []
  | [a] => [BitVec.ofNat 8 a]
  | a :: b :: t => BitVec.ofNat 8 (a + 16 * b) :: packNibbles t

/-- The nibbles of a byte string, low half first. -/
def unpackNibbles (bs : List Byte) : List Nat := bs.flatMap fun b => [b.toNat % 16, b.toNat / 16]

/-- A byte string padded with zeros to `n` bytes. -/
def padTo (n : Nat) (bs : List Byte) : List Byte := bs ++ List.replicate (n - bs.length) 0#8

/-- The BFP8 form of 128 BF16 values: four blocks with RNE (R330, R77). -/
def bfp8Bytes (t : List Byte) : List Byte :=
  (List.range 4).flatMap fun q =>
    let xs := (List.range 32).map fun i => Fp.ofBits bf16 (leAt t (64 * q + 2 * i) 2)
    let b := bfpQuantise 8 0 [] xs
    bfpBytes 8 b.1 b.2.1

/-- One tile of 256 bytes coded (R330); the code of the card's failure when it cannot be, or when no bank holds the buffer's
generation (R332). -/
def codeTile (book : Option (List Byte)) (lossy : Bool) (t : List Byte) : Except Nat (List Byte) :=
  match book with
  | none => .error 0x29
  | some bk =>
    if t.all (· == 0#8) then .ok (padTo 16 [0x01#8, 0#8])
    else
      let ns := t.flatMap (nibblesOf bk)
      let n := 2 + ceilDiv ns.length 2
      if n ≤ 160 then
        let l := ceilDiv n 16
        .ok (padTo (16 * l) ([BitVec.ofNat 8 (l + 16), 0#8] ++ packNibbles ns))
      else if lossy then .ok (padTo 144 ([0x29#8, 0#8] ++ bfp8Bytes t))
      else .error 0x2A

/-- `n` bytes decoded from nibbles; none when they run out. -/
def decodeNibbles (book : List Byte) : Nat → List Nat → Option (List Byte)
  | 0, _ => some []
  | n + 1, 15 :: lo :: hi :: t => (decodeNibbles book n t).map fun r => BitVec.ofNat 8 (lo + 16 * hi) :: r
  | _ + 1, 15 :: _ => none
  | n + 1, c :: t => (decodeNibbles book n t).map fun r => book.getD c 0#8 :: r
  | _ + 1, [] => none

/-- The BF16 bytes of four BFP8 blocks (R78). -/
def bfp8Expand (bs : List Byte) : List Byte :=
  (List.range 4).flatMap fun q =>
    let (e, ms) := bfpUnpack 8 (bs.drop (33 * q))
    ms.flatMap fun v => toBytes 2 ((bfpValue e 8 v).toBits bf16 rneMode).bits

/-- Length of the tile of a stream whose first bytes these are, if they keep R329: L from 1 to 10, reserved bits 0, a scheme whose
payload fits. -/
def tileLength (bs : List Byte) : Option Nat :=
  let l := leAt bs 0 1 % 16
  let scheme := leAt bs 0 1 / 16
  if l = 0 ∨ l > 10 ∨ leAt bs 1 1 ≠ 0 then none
  else if (scheme = 0 ∧ l = 1) ∨ scheme = 1 ∨ (scheme = 2 ∧ l = 9) then some (16 * l)
  else none

/-- The first tile of a stream decoded (R329, R330): its 256 bytes and its length; 0x29 when no bank holds the buffer's generation
(R332). With `walk`, the length only (R331). -/
def decodeTile (walk : Bool) (book : Option (List Byte)) (bs : List Byte) : Except Nat (List Byte × Nat) :=
  if bs.length < 2 then .error 0x28
  else
    match tileLength bs with
    | none => .error 0x28
    | some n =>
      let scheme := leAt bs 0 1 / 16
      let body := (bs.drop 2).take (n - 2)
      if bs.length < n then .error 0x28
      else if walk then .ok ([], n)
      else
        match book with
        | none => .error 0x29
        | some bk =>
          if scheme = 0 then .ok (List.replicate 256 0#8, n)
          else if scheme = 2 then .ok (bfp8Expand body, n)
          else
            match decodeNibbles bk 256 (unpackNibbles body) with
            | some out => .ok (out, n)
            | none => .error 0x28

/-- `n` tiles of a stream decoded: the bytes and the length in the stream. -/
def decodeTiles (walk : Bool) (book : Option (List Byte)) : Nat → List Byte → Except Nat (List Byte × Nat)
  | 0, _ => .ok ([], 0)
  | n + 1, bs =>
    match decodeTile walk book bs with
    | .error e => .error e
    | .ok (t, l) =>
      match decodeTiles walk book n (bs.drop l) with
      | .error e => .error e
      | .ok (r, m) => .ok (t ++ r, l + m)

/-- A buffer decoded with the codebooks of die `d` (R329): header, bytes and the stream's length. -/
def State.expand (s : State) (p d : Nat) (walk : Bool) (bs : List Byte) : Except Nat (BufHdr × List Byte × Nat) :=
  if bs.length < 64 then .error 0x28
  else
    match bufHdrOf (bs.take 64) with
    | none => .error 0x28
    | some h =>
      match decodeTiles walk (s.codebook p d h.slot h.gen) h.tiles (bs.drop 64) with
      | .error e => .error e
      | .ok (out, l) => .ok (h, out, 64 + l)

/-- Level of a space (R331). -/
def spaceLevel (space : Nat) : Nat :=
  match space with
  | 1 => 1
  | 2 => 2
  | 3 => 2
  | _ => 0

/-- Level of the memory that a capability names: one of GLOBAL space in an alias window names SCRATCH or VAULT (R168). -/
def State.levelOf (s : State) (p : Nat) (k : Cap) : Nat :=
  if k.space = 0 then
    match s.alias? p k.cursor with
    | some (sp, _) => spaceLevel sp
    | none => 0
  else spaceLevel k.space

/-- The die of the expander that stands at level `l` between a source of level `a` on die `da` and a destination of
level `b` on die `db` (DEDUCED, log 24). -/
def expanderDie (l a da db : Nat) : Nat := if l = a then da else db

end Sys2Proof.Machine
end

