-- ==== Sys2Proof/Machine/SysReg.lean ====
section
/-!
DEFINITION. The system registers (R106 to R110) and MFS, MTS and MTSI: what every assigned number reads, and what a
write to it changes.
-/

namespace Sys2Proof.Machine

/-- The quadrant of the current core. -/
def quadHere : Exec Nat := do
  let s ← get
  pure (quadOf (coreOf s.cur))

/-- STATUS (R108). -/
def Slot.status (x : Slot) : Nat :=
  (if x.user then 1 else 0) + (if x.borrow.isSome then 2 else 0) + (if x.inTrap then 4 else 0) + 16 * x.borrow.getD 0

/-- SHAPE of a fused set of quadrants (R290): 0 single, 1 horizontal pair, 2 vertical pair, 3 all four. -/
def fusedShape (m : BitVec 4) : Nat :=
  if m = 15#4 then 3 else if m = 3#4 ∨ m = 12#4 then 1 else if m = 5#4 ∨ m = 10#4 then 2 else 0

/-- The set of quadrants fused with quadrant `q`, itself included (R290). -/
def State.fusedSet (s : State) (q : Nat) : BitVec 4 :=
  if (s.quad q).fused = 0#4 then BitVec.ofNat 4 (2 ^ (q % 4)) else (s.quad q).fused

/-- What system register `n` of slot `g` reads (R107, R401, R403). -/
def State.readSys (s : State) (g n : Nat) : Nat :=
  let x := s.slot g
  let c := coreOf g
  let p := s.partOfSlot g
  let core := s.core c
  if n = 0x000 then slotNo g
  else if n = 0x001 then coreX c + 2 ^ 5 * coreY c + 2 ^ 10 * dieOf c + 2 ^ 12 * (c % 8) + 2 ^ 15 * clusterOf c
  else if n = 0x002 then p + 4 * s.tenantClass p x.tenant + 16 * x.tenant
  else if n = 0x003 then g
  else if n = 0x010 then x.status
  else if n = 0x011 then (s.cycle (dieOf c)).toNat
  else if n = 0x100 then x.rmode.toNat
  else if n = 0x101 then x.fflags.toNat
  else if n = 0x102 then x.covmode.toNat
  else if n = 0x108 then x.rngLo.toNat
  else if n = 0x109 then x.rngHi.toNat
  else if n = 0x110 then 16 * x.groups + 2 ^ 16 * x.minGrp
  else if n < 0x123 then ((x.loops[n - 0x120]?).elim 0#64 LoopLevel.count).toNat
  else if n = 0x123 then x.loops.length + 4 * x.hidden
  else if n < 0x208 then (core.mbx.get 0#64 (n - 0x200)).toNat
  else if n = 0x208 then core.mbxp.toNat
  else if n < 0x310 then ((s.quad (quadOf c)).zdesc.get 0#64 (n - 0x300)).toNat
  else if n = 0x310 then
    quadOf c % 4 + 4 * fusedShape (s.quad (quadOf c)).fused + 16 * (s.fusedSet (quadOf c)).toNat
  else if n = 0x400 then x.dline.toNat
  else if n = 0x401 then (if x.limited then x.issues.toNat else 0) + 2 ^ 32 * (if x.admitted then x.charge else 0)
  else if n = 0x402 then x.taskRec.toNat
  else if n = 0x403 then x.group.toNat
  else if n = 0x500 then x.tol.toNat
  else if n = 0x501 then x.tolMode.toNat
  else if n = 0x502 then x.sfails.toNat
  else if n = 0x600 then x.view.toNat
  else if n = 0x601 then x.camStep.toNat
  else if n = 0x602 then x.flipPen.toNat
  else if n = 0x700 then x.tcause.toNat
  else if n = 0x701 then x.tpc.toNat
  else if n = 0x702 then x.tval.toNat
  else if n = 0x703 then
    x.ilen.toNat + 16 * x.thidden.toNat + (if x.grace then 64 else 0) + (if x.elost then 128 else 0)
  else if n = 0x704 then (if x.ten then 1 else 0) + 2 ^ 13 * x.tbase.toNat
  else if n < 0x840 then (s.partReg p n).toNat
  else if (n - 0x840) / 8 ≤ s.partFld p 0x800 16 4 then (s.partReg p n).toNat
  else 0

/-- A write to a register of the slot itself: the fields its Access column lets a program write (R5, R106). A register
not listed is read-only, and the write is discarded. -/
def Slot.writeSys (x : Slot) (n : Nat) (v : U64) : Slot :=
  if n = 0x100 then (if (fld v 0 3).toNat ≤ 5 then { x with rmode := fld v 0 3 } else x)
  else if n = 0x101 then { x with fflags := fld v 0 6 }
  else if n = 0x102 then { x with covmode := fld v 0 2 }
  else if n = 0x108 then { x with rngLo := v }
  else if n = 0x109 then { x with rngHi := v }
  else if n = 0x500 then (if x.tile?.isSome then x else { x with tol := fld v 0 32 })
  else if n = 0x501 then (if x.tile?.isSome || decide ((fld v 0 2).toNat ≥ 2) then x else { x with tolMode := fld v 0 2 })
  else if n = 0x600 then { x with view := fld v 0 6 }
  else if n = 0x601 then { x with camStep := fld v 0 24 }
  else if n = 0x602 then { x with flipPen := fld v 0 24 }
  else if n = 0x701 then (if x.inTrap then { x with tpc := fld v 0 52 } else x)
  else if n = 0x703 then { x with elost := x.elost && !bitAt v 7 }
  else if n = 0x704 then { x with tbase := fld v 13 39, ten := bitAt v 0 }
  else x

/-- A write to system register `n` by the current slot (R106): a mailbox's is held while its value is unconsumed
(R134), and fails a surrogate tile (R368). -/
def writeSys (n : Nat) (v : U64) : Exec Flow := do
  let s ← get
  let c := coreOf s.cur
  if 0x200 ≤ n ∧ n < 0x208 then
    notLatent
    let free := s.mailboxFree c (n - 0x200)
    set (s.mailboxArrive c (n - 0x200) { v := v, slot := if free then none else some s.cur })
    if free then pure .next
    else
      modSlot fun x => { x with wait := Wait.mailbox }
      pure .hold
  else if n = 0x208 then
    set (s.mbxpWrite c (fld v 0 8))
    pure .next
  else if 0x300 ≤ n ∧ n < 0x310 then
    set (s.modQuad (quadOf c) fun q => { q with zdesc := q.zdesc.set 0#64 (n - 0x300) ((fld v 0 27).setWidth 64) })
    pure .next
  else
    modSlot fun x => x.writeSys n v
    pure .next

/-- MFS, MTS and MTSI of a register at 0x800 or above are privileged (R38). -/
def sysPrivilege (sys : BitVec 12) (tval : U64) : Exec Unit :=
  if sys.toNat ≥ 0x800 then privileged tval else pure ()

/-- MFS (R106). -/
def execMfs (d : Dst) (sys : BitVec 12) (s : State) : Host.Outcome State Fault Refusal :=
  runInstr 4 (do
    sysPrivilege sys (wordVal (encode (.mfs d sys)))
    let s ← get
    dst d (BitVec.ofNat 64 (s.readSys s.cur sys.toNat))
    pure .next) s

/-- MTS (R106). -/
def execMts (sys : BitVec 12) (a : Src) (s : State) : Host.Outcome State Fault Refusal :=
  runInstr 4 (do
    sysPrivilege sys (wordVal (encode (.mts sys a)))
    let v ← src a
    writeSys sys.toNat v) s

/-- MTSI (R106): imm8 zero-extended. -/
def execMtsi (sys : BitVec 12) (ihi : BitVec 3) (ilo : BitVec 5) (s : State) : Host.Outcome State Fault Refusal :=
  runInstr 4 (do
    sysPrivilege sys (wordVal (encode (.mtsi sys ihi ilo)))
    writeSys sys.toNat ((ihi ++ ilo).setWidth 64)) s

end Sys2Proof.Machine
end

