-- ==== Sys2Proof/Machine/Tile.lean ====
section
/-!
DEFINITION. Tiles: shapes and elements (R291 to R294), the tile table (R295 to R297), the error records of the
matrix array and of engines (R212, R313), and major TILE (R298 to R300, R334).
-/

namespace Sys2Proof.Machine

/-! ## Shapes (R291 to R294) -/

/-- What a ZDESC describes: format code, rows, columns, bytes of a row, BFP width m. -/
structure Shape where
  fmt : Nat
  rows : Nat
  cols : Nat
  rb : Nat
  m : Nat
  deriving DecidableEq, Repr

/-- Width in bits of a format's element (R292); BFP has none of its own. -/
def fmtBits (fmt : Nat) : Nat :=
  match fmt with
  | 0 => 16
  | 1 => 16
  | 2 => 32
  | 3 => 8
  | 4 => 8
  | 6 => 8
  | 7 => 16
  | 8 => 32
  | 9 => 64
  | 10 => 64
  | 11 => 8
  | _ => 0

/-- The floating format of a code (R63). -/
def fmtOf (fmt : Nat) : Fmt :=
  match fmt with
  | 0 => bf16
  | 1 => fp16
  | 3 => e4m3
  | 4 => e5m2
  | 9 => fp64
  | _ => fp32

/-- Bytes of a row (R294). -/
def rowBytes (fmt cols m : Nat) : Nat := if fmt = 5 then cols / 32 * (1 + 4 * m) else cols * fmtBits fmt / 8

/-- The shape that a ZDESC describes (R291). -/
def shapeOf (d : U64) : Shape :=
  let fmt := (fld d 0 4).toNat
  let cols := (fld d 11 7).toNat + 1
  let m := (fld d 24 3).toNat + 1
  { fmt := fmt, rows := (fld d 4 7).toNat + 1, cols := cols, rb := rowBytes fmt cols m, m := m }

/-- SPARSE, META and PAIR of a ZDESC (R291). -/
def descSparse (d : U64) : Bool := bitAt d 18
def descMeta (d : U64) : Nat := (fld d 19 4).toNat
def descPair (d : U64) : Bool := bitAt d 23

/-- Whether the ZDESC of tile `z` is legal (R293). -/
def descLegal (d : U64) (z : Nat) : Bool :=
  let h := shapeOf d
  let bits := if h.fmt = 5 then h.rows * (h.cols / 32) * (8 + 32 * h.m) else h.rows * h.cols * fmtBits h.fmt
  decide (h.fmt < 12) && decide (h.rows ≤ 64) && (h.fmt ≠ 5 || (decide (2 ≤ h.m) && h.cols % 32 == 0)) &&
    decide (bits ≤ 65536) && !(descPair d && decide (8 ≤ z))

/-- `n` bytes of a tile from byte `i`, as a number. -/
def tileNum (t : SMap Byte) (i n : Nat) : Nat := ofBytes ((List.range n).map fun j => t.get 0#8 (i + j))

/-- The element of row `r` and column `c` (R294), of a floating format or BFP. -/
def tileElem (fmt rb m : Nat) (t : SMap Byte) (r c : Nat) : Fp :=
  if fmt = 5 then
    let base := r * rb + c / 32 * (1 + 4 * m)
    let i := c % 32
    bfpValue (tileNum t base 1) m (signed (tileNum t (base + 1) (4 * m) / 2 ^ (m * i) % 2 ^ m) m)
  else
    let w := fmtBits fmt / 8
    Fp.ofBits (fmtOf fmt) (tileNum t (r * rb + c * w) w)

/-- A tile's bytes from the front, its other bytes 0 (R294). -/
def tileBytes (bs : List Byte) : SMap Byte :=
  ((List.range bs.length).map fun i => (i, bs.getD i 0#8)).filter fun e => e.2 ≠ 0#8

/-! ## Quadrants -/

/-- Tile `z` of a quadrant. -/
def Quad.tile (q : Quad) (z : Nat) : TileReg := q.tiles.get {} z

/-- Tile `z` changed. -/
def Quad.modTile (q : Quad) (z : Nat) (f : TileReg → TileReg) : Quad := { q with tiles := q.tiles.set {} z (f (q.tile z)) }

/-- ZDESCz of a quadrant (R291). -/
def Quad.desc (q : Quad) (z : Nat) : U64 := q.zdesc.get 0#64 z

/-- Line `i` of a tile's storage, among the lines that may be poisoned (R427). -/
def tileLine (quad z i : Nat) : Nat := 2 ^ 60 + quad * 2 ^ 11 + z * 2 ^ 7 + i

/-- Whether a tile holds an uncorrectable error (R313, R427). -/
def State.tileBad (s : State) (quad z : Nat) : Bool :=
  s.poison.any fun e => decide (tileLine quad z 0 ≤ e.1) && decide (e.1 < tileLine quad z 128)

/-- The line that stands for accumulator `y`, behind those of tiles (R427). -/
def accLine (quad y : Nat) : Nat := 2 ^ 60 + 2 ^ 20 + quad * 2 ^ 3 + y

/-- Whether an accumulator holds an uncorrectable error (R427). -/
def State.accBad (s : State) (quad y : Nat) : Bool := s.poison.get false (accLine quad y)

/-- An accumulator written whole: its errors are gone (R428). -/
def State.accClean (s : State) (quad y : Nat) : State := { s with poison := s.poison.set false (accLine quad y) false }

/-- A tile's state changed, in this cycle (R297). -/
def State.tileTo (s : State) (quad z : Nat) (st : TileState) : State :=
  s.modQuad quad fun q => q.modTile z fun t => { t with state := st, since := some s.now }

/-- A tile written: its bytes and state, its errors gone (R428). -/
def State.setTile (s : State) (quad z : Nat) (st : TileState) (bytes : SMap Byte) : State :=
  { (s.modQuad quad fun q => q.modTile z fun t => { t with bytes := bytes }).tileTo quad z st with
    poison := s.poison.filter fun e => !(decide (tileLine quad z 0 ≤ e.1) && decide (e.1 < tileLine quad z 128)) }

/-- Whether a tile has kept its state so far in this cycle: it changes at most once a cycle, by an issue or an event (R297). -/
def State.tileQuiet (s : State) (quad z : Nat) : Bool := decide (((s.quad quad).tile z).since ≠ some s.now)

/-- A tile's state changed by an issue (R295). -/
def tileIssue (quad z : Nat) (st : TileState) : Exec Unit := modify fun s => s.tileTo quad z st

/-- TVAL of ZSHAPE and WFMT (R312). -/
def shapeVal (reason n : Nat) : U64 := BitVec.ofNat 64 (reason * 2 ^ 8 + n)

/-- A ZDESC that an instruction uses must be legal (R293). -/
def legalDesc (quad z : Nat) : Exec U64 := do
  let s ← get
  let d := (s.quad quad).desc z
  require (descLegal d z) .zshape (shapeVal 1 z)
  pure d

/-- A slot whose instruction issues to a tile that has changed its state in this cycle is not ready (R297): a tile changes its state
at most once a cycle. -/
def oneChange (quad z : Nat) : Exec Unit := do
  let s ← get
  await (s.tileQuiet quad z)

/-- A reader of a tile: not ready while the tile has changed in this cycle (R297), ZSHAPE 2 when it is EMPTY, blocked while it is
not READY (R296). -/
def readsTile (quad z : Nat) : Exec Unit := do
  oneChange quad z
  let s ← get
  match ((s.quad quad).tile z).state with
  | .empty => trap .zshape (shapeVal 2 z)
  | .ready => pure ()
  | _ => block

/-- A writer of a tile: not ready while the tile has changed in this cycle (R297), blocked while it is FILLING or DRAINING
(R296). -/
def writesTile (quad z : Nat) : Exec Unit := do
  oneChange quad z
  let s ← get
  match ((s.quad quad).tile z).state with
  | .filling => block
  | .draining => block
  | _ => pure ()

/-! ## Error records to a slot (R212) -/

/-- The current slot as the issuer of a command. -/
def issuerHere : Exec Issuer := do
  let s ← get
  let x := s.slot s.cur
  pure { slot := s.cur, tid := x.tid, pc := x.pc, tenant := x.tenant, part := s.partOfSlot s.cur, group := x.group }

/-- A record in a slot's error list, at most 16 (R212). -/
def Slot.noteError (x : Slot) (w : U64) : Slot :=
  if x.errs.length < 16 then { x with errs := x.errs ++ [w] } else { x with elost := true }

/-- An engine error record (R212): listed in the issuing task, FAILED in its group, and sent to service firmware. -/
def State.engineError (s : State) (o : Issuer) (engine code addr : Nat) : State :=
  let w := BitVec.ofNat 64 (addr / 16 % 2 ^ 48 * 2 ^ 16 + engine * 2 ^ 8 + code)
  let s := s.modTask o.tid fun x => x.noteError w
  let s := match groupRef o.part o.tenant o.group with
    | some r => s.groupLater { ref := r, delta := 0, failed := true, core := coreOf o.slot }
    | none => s
  s.errorRecord (dieOf (coreOf o.slot)) (BitVec.ofNat 64 addr) o.slot code 1 o.tenant o.part false

/-- An error record of the matrix array (R313); code 0x05 also makes the slot raise MCHECK at its next issue. -/
def State.arrayError (s : State) (o : Issuer) (code : Nat) (mcheck : U64) : State :=
  let s := s.engineError o 4 code o.pc
  if code = 5 then s.modTask o.tid fun x => { x with mcheck := some mcheck } else s

/-! ## ZLD and ZST (R299) -/

/-- The 16-byte aligned pieces of [v, v + n): address, bytes, and offset from `v`. -/
def pieces (v n : Nat) : List (Nat × Nat × Nat) :=
  (List.range (n / 16 + 2)).filterMap fun i =>
    let a := v / 16 * 16 + 16 * i
    let lo := max a v
    let hi := min (a + 16) (v + n)
    if lo < hi then some (lo, hi - lo, lo - v) else none

/-- The checked places of one row: each piece with its place, bytes, and byte in the tile. -/
def rowPlaces (k : Cap) (load : Bool) (v : Int) (n off : Nat) : Exec (List (Place × Nat × Nat × Nat)) := do
  let a ← checkCap k v n { spaces := [0, 1, 2, 3], xperm := true, perm := [if load then 0 else 1] }
  eachM (fun (q : Nat × Nat × Nat) => do
    let s ← get
    let p ← locate (s.who s.cur) k.space q.1 q.2.1 [if load then 1 else 2]
    if load then notAcrossDies p.home q.1
    pure (p, q.2.1, off + q.2.2, q.1)) (pieces a n)

/-- A piece of a ZLD sent to its home (R299). -/
def sendPiece (quad z instr : Nat) (e : Place × Nat × Nat × Nat) : Exec Unit := do
  match e.1 with
  | .mem key _ _ => do
    let id ← newNo
    let s ← get
    let hs := s.cardsAt s.cur e.1 e.2.1 true
    let va := match e.1 with | .mem _ _ va => va | _ => none
    set (s.launchAccess (mkAccess s id instr (.zpiece quad z e.2.2.1 key e.2.1) e.1.home [] none hs va false))
  | _ => pure ()

/-- What ZLD and ZST check and find at issue (R299): the tile's state, the shape, the stride and the pieces of every row. -/
def tileRows (load : Bool) (quad zd : Nat) (ka : BitVec 3) (b : U64) : Exec (Shape × Nat × List (Place × Nat × Nat × Nat)) := do
  if load then writesTile quad zd else readsTile quad zd
  let d ← legalDesc quad zd
  let h := shapeOf d
  let st := if b = 0#64 then roundUp h.rb 16 else b.toNat
  require (decide (h.rb ≤ st)) .zshape (shapeVal 3 zd)
  require (decide (st % 16 = 0)) .align (BitVec.ofNat 64 st)
  let k ← kreg ka
  let rs ← eachM (fun (r : Nat) => rowPlaces k load ((k.cursor : Int) + r * st) h.rb (r * h.rb)) (List.range h.rows)
  pure (h, st, rs.flatten)

/-- The pieces of the stream of a ZLD `.x` with stride 0: the whole checked range, packed as it stands (R334). -/
def streamPlaces (h : Shape) (st : Nat) (k : Cap) : Exec (List (Place × Nat × Nat × Nat)) :=
  rowPlaces k true k.cursor ((h.rows - 1) * st + h.rb) 0

/-- ZLD (R299, R334). -/
def execZld (expand : Bool) (zd : BitVec 4) (ka : BitVec 3) (b : Src) (s : State) : Host.Outcome State Fault Refusal :=
  runInstr 4 (do
    let b ← src b
    let q ← quadHere
    let (h, st, ps) ← tileRows true q zd.toNat ka b
    let k ← kreg ka
    let packed := b = 0#64
    let ps ← if expand && packed then streamPlaces h st k else pure ps
    let o ← issuerHere
    let s ← get
    let i ← newNo
    let home := ((ps.head?.map fun e => e.1.home)).getD 0
    let x : Option Stream :=
      if expand then
        some { range := (h.rows - 1) * st + h.rb, need := h.rows * h.rb, packed := packed, level := s.levelOf o.part k,
               die := dieOfHome home }
      else none
    modify fun s => (s.setTile q zd.toNat .filling []).modQuad q fun y =>
      { y with zlds := y.zlds ++ [{ z := zd.toNat, who := o, instr := i, expand := x }] }
    let _ ← eachM (sendPiece q zd.toNat i) ps
    pure .next) s

/-- ZST (R299): its bytes are taken at issue; the tile is DRAINING, so that none of them changes before it is READY. -/
def execZst (zd : BitVec 4) (ka : BitVec 3) (b : Src) (s : State) : Host.Outcome State Fault Refusal :=
  runInstr 4 (do
    let b ← src b
    let q ← quadHere
    let (_, _, ps) ← tileRows false q zd.toNat ka b
    storeSlot
    let s ← get
    require (!s.tileBad q zd.toNat) .mcheck (Config.freeTval s.tick)
    let t := (s.quad q).tile zd.toNat
    tileIssue q zd.toNat .draining
    let i ← newNo
    let _ ← eachM (fun (e : Place × Nat × Nat × Nat) =>
      storePlace e.1 i e.2.2.2 (toBytes e.2.1 (tileNum t.bytes e.2.2.1 e.2.1)) false false) ps
    pure .next) s

/-- The last piece of a ZLD has landed, or a ZZERO or ZMOV has written its tile (R295, R299): the tile is READY, or EMPTY with
an error record. -/
def State.zldComplete (s : State) (quad z : Nat) : Option State :=
  match (s.quad quad).zlds.find? fun j => j.z = z with
  | none => none
  | some j =>
    if !s.tileQuiet quad z || s.owed j.instr || s.flight.any fun a => a.instr == j.instr then none
    else
      let s := s.modQuad quad fun q => { q with zlds := q.zlds.filter fun x => x.z ≠ z }
      let fail := fun (s : State) (code : Nat) (v : U64) => (s.setTile quad z .empty []).arrayError j.who code v
      let bytes := ((s.quad quad).tile z).bytes
      match j.bad with
      | some pa => some (fail s 5 (BitVec.ofNat 64 pa))
      | none =>
        match j.expand with
        | none => some (s.tileTo quad z .ready)
        | some x =>
          let bs := (List.range x.range).map fun i => bytes.get 0#8 i
          let core := dieOf (coreOf j.who.slot)
          let die := expanderDie (max x.level ((leAt bs 0 1) / 16 % 4)) x.level x.die core
          match s.expand j.who.part die false bs with
          | .ok (h, out, _) =>
            if x.packed && h.tiles == ceilDiv x.need 256 then some (s.setTile quad z .ready (tileBytes (out.take x.need)))
            else some (fail s 6 0#64)
          | .error _ => some (fail s 6 0#64)

/-- ZLD_COMPLETE. -/
def execZldComplete (quad z : Nat) (s : State) : Host.Outcome State Fault Refusal :=
  runEvent "ZLD_COMPLETE" (s.zldComplete quad z)

/-! ## The other tile instructions (R296, R300) -/

/-- A tile that the issue of ZZERO or ZMOV fills (R295): FILLING until ZLD_COMPLETE, with no piece to wait for. -/
def fillTile (quad z : Nat) (bytes : SMap Byte) : Exec Unit := do
  let o ← issuerHere
  let i ← newNo
  modify fun s => (s.setTile quad z .filling bytes).modQuad quad fun y =>
    { y with zlds := y.zlds ++ [{ z := z, who := o, instr := i, expand := none }] }

/-- ZZERO (R300, R306): it reads the descriptor of its tile. -/
def execZzero (zd : BitVec 4) (s : State) : Host.Outcome State Fault Refusal :=
  runInstr 4 (do
    let q ← quadHere
    writesTile q zd.toNat
    let _ ← legalDesc q zd.toNat
    fillTile q zd.toNat []
    pure .next) s

/-- ZREL (R300, R306): it reads the descriptor of its tile. -/
def execZrel (zd : BitVec 4) (s : State) : Host.Outcome State Fault Refusal :=
  runInstr 4 (do
    let q ← quadHere
    writesTile q zd.toNat
    let _ ← legalDesc q zd.toNat
    modify fun s => s.setTile q zd.toNat .empty []
    pure .next) s

/-- The code of a tile's state (R296). -/
def TileState.code : TileState → Nat
  | .empty => 0
  | .filling => 1
  | .ready => 2
  | .draining => 3

/-- ZSTATE (R296). -/
def execZstate (d : Dst) (za : BitVec 4) (s : State) : Host.Outcome State Fault Refusal :=
  runInstr 4 (do
    let q ← quadHere
    let s ← get
    dst d (BitVec.ofNat 64 ((s.quad q).tile za.toNat).state.code)
    pure .next) s

/-- ZMOV (R300, R306): it reads the descriptors of both its tiles, the source's first (DEDUCED, log 77). The source is DRAINING
until TILE_DRAIN_DONE. -/
def execZmov (zd za : BitVec 4) (s : State) : Host.Outcome State Fault Refusal :=
  runInstr 4 (do
    let q ← quadHere
    readsTile q za.toNat
    if zd ≠ za then writesTile q zd.toNat
    let _ ← legalDesc q za.toNat
    let _ ← legalDesc q zd.toNat
    let s ← get
    require (!s.tileBad q za.toNat) .mcheck (Config.freeTval s.tick)
    if zd = za then pure .next
    else do
      tileIssue q za.toNat .draining
      fillTile q zd.toNat ((s.quad q).tile za.toNat).bytes
      pure .next) s

end Sys2Proof.Machine
end

