-- ==== Sys2Proof/Machine/Matrix.lean ====
section
/-!
DEFINITION. The matrix array: the command queue (R301, R302), weights (R303, R304), MMA and MMAM (R306 to R308, R79,
R81), accumulators (R309 to R311), halts (R313), fusion (R314, R315), and a tenant's departure (R316).
-/

namespace Sys2Proof.Machine

/-! ## Fused sets (R314, R315) -/

/-- The quadrants of the set of quadrant `q`, lowest first. -/
def State.setQuads (s : State) (q : Nat) : List Nat :=
  (List.range 4).filterMap fun i => if bitAt (s.fusedSet q) i then some (4 * (q / 4) + i) else none

/-- The quadrant in whose queue the set's commands stand. -/
def State.lead (s : State) (q : Nat) : Nat := (s.setQuads q).headD q

/-- The quadrants of the left column, which give K parts (R315). -/
def State.kParts (s : State) (q : Nat) : List Nat := (s.setQuads q).filter fun i => i % 2 = s.lead q % 2

/-- The quadrants of the top row, which give N parts (R315). -/
def State.nParts (s : State) (q : Nat) : List Nat := (s.setQuads q).filter fun i => i % 4 / 2 = s.lead q % 4 / 2

/-- The quadrant in the row of `l` and the column of `t`. -/
def cross (l t : Nat) : Nat := 4 * (l / 4) + 2 * (l % 4 / 2) + t % 2

/-- Every quadrant of the set with its K part and its N part. -/
def State.planesOf (s : State) (q : Nat) : List (Nat × Nat) := (s.kParts q).flatMap fun l => (s.nParts q).map fun t => (l, cross l t)

/-! ## The queue (R301) -/

/-- Accumulator `y` of a quadrant, and the accumulator changed. -/
def Quad.acc (q : Quad) (y : Nat) : Acc := q.accs.get {} y
def Quad.modAcc (q : Quad) (y : Nat) (f : Acc → Acc) : Quad := { q with accs := q.accs.set {} y (f (q.acc y)) }

/-- A command issues only when its queue has a free entry (R301). -/
def queueRoom (q : Nat) : Exec Unit := do
  let s ← get
  await (decide ((s.quad (s.lead q)).queue.length < 16))

/-- A command entered (R301). -/
def enterQueue (q : Nat) (c : Cmd) : Exec Unit := do
  let o ← issuerHere
  modify fun s => s.modQuad (s.lead q) fun y => { y with queue := y.queue ++ [{ cmd := c, who := o, quad := q }] }

/-- A read of an accumulator whose issued VALID is 0 raises ENGERR (R307). -/
def accValid (q y : Nat) : Exec Unit := do
  let s ← get
  let a := (s.quad q).acc y
  require a.validI .engErr (BitVec.ofNat 64 (y * 2 ^ 16 + 4 * 2 ^ 8 + a.code))

/-! ## WLOAD and WSWAP (R303) -/

/-- Formats of weights and of MMA activations (R303). -/
def weightFmt (fmt : Nat) : Bool := fmt == 0 || fmt == 1 || fmt == 3 || fmt == 4 || fmt == 5

/-- WLOAD (R303). Of a sparse one's two tiles, the first named decides when one blocks and the other is EMPTY (DESIGN CHOICE, log
86). -/
def execWload (za : BitVec 4) (s : State) : Host.Outcome State Fault Refusal :=
  runInstr 4 (do
    let q ← quadHere
    let z := za.toNat
    oneChange q z
    let d ← legalDesc q z
    let h := shapeOf d
    let sparse := descSparse d
    readsTile q z
    if sparse then readsTile q (descMeta d)
    require (weightFmt h.fmt) .wfmt (shapeVal 1 z)
    require (!(sparse && h.fmt == 5)) .wfmt (shapeVal 3 z)
    let kk := if sparse then 2 * h.cols else h.cols
    require (decide (h.rows ≤ 64) && decide (kk ≤ 64) && !(sparse && descMeta d == z)) .zshape (shapeVal 3 z)
    queueRoom q
    tileIssue q z .draining
    if sparse then tileIssue q (descMeta d) .draining
    modify fun s => s.modQuad q fun y => { y with shadowI := some { fmt := h.fmt, k := kk, n := h.rows, sparse := sparse, mant := h.m } }
    enterQueue q (.wload z d)
    pure .next) s

/-- WSWAP (R303). -/
def execWswap (s : State) : Host.Outcome State Fault Refusal :=
  runInstr 4 (do
    let q ← quadHere
    queueRoom q
    modify fun s => s.modQuad q fun y => { y with activeI := y.shadowI, shadowI := y.activeI }
    enterQueue q .wswap
    pure .next) s

/-! ## MMA and MMAM at issue (R306, R315) -/

/-- Do `f` for every element. -/
def forEach {α : Type} (l : List α) (f : α → Exec Unit) : Exec Unit := do
  let _ ← eachM f l
  pure ()

/-- The issue of MMA, or of MMAM when `moment` (R306), its checks made on every part of a fused set (R315). Of MMAM's two tiles, the
first named decides when one blocks and the other is EMPTY (DESIGN CHOICE, log 86); MMAM with BFP weights raises WFMT with reason
1 and the activation tile's number (DESIGN CHOICE, log 87). -/
def mmaIssue (moment : Bool) (y z : Nat) : Exec Flow := do
  let q ← quadHere
  let s ← get
  let ls := s.kParts q
  let zs := if moment then [z, z + 8] else [z]
  forEach ls fun l => forEach zs (oneChange l)
  let ds ← eachM (fun (l : Nat) => do
    let d ← legalDesc l z
    require (!moment || descPair d) .zshape (shapeVal 3 z)
    pure d) ls
  forEach ls fun l => forEach zs (readsTile l)
  forEach (s.nParts q) fun t => require (((s.quad t).acc y).momentI == moment) .wfmt (shapeVal 4 y)
  forEach (s.nParts q) fun t => accValid t y
  forEach (s.planesOf q) fun p => require (s.quad p.2).activeI.isSome .wfmt (shapeVal 2 y)
  let shapeAt := fun (l : Nat) => shapeOf ((s.quad l).desc z)
  let info := fun (p : Nat) => ((s.quad p).activeI).getD { fmt := 0, k := 0, n := 0, sparse := false, mant := 0 }
  forEach (s.planesOf q) fun p => do
    let a := (shapeAt p.1).fmt
    let w := (info p.2).fmt
    require (if moment then (a == 0 || a == 1) && w ≠ 5 else weightFmt a) .wfmt (shapeVal 1 z)
    require ((a == 5) == (w == 5)) .wfmt (shapeVal 3 z)
  forEach (s.planesOf q) fun p => require (decide ((shapeAt p.1).cols = (info p.2).k)) .zshape (shapeVal 3 z)
  match ls with
  | [u, l] => require (decide ((shapeAt u).cols = 64) && decide ((shapeAt u).rows = (shapeAt l).rows)) .zshape (shapeVal 3 z)
  | _ => pure ()
  queueRoom q
  forEach ls fun l => forEach zs fun i => tileIssue l i .draining
  enterQueue q (.mma y z ds moment)
  modSlot fun x => { x with wait := Wait.array }
  pure .hold

/-- MMA (R306). -/
def execMma (yd : BitVec 3) (za : BitVec 4) (s : State) : Host.Outcome State Fault Refusal :=
  runInstr 4 (mmaIssue false yd.toNat za.toNat) s

/-- MMAM (R306). -/
def execMmam (yd : BitVec 3) (za : BitVec 4) (s : State) : Host.Outcome State Fault Refusal :=
  runInstr 4 (mmaIssue true yd.toNat za.toNat) s

/-! ## YZERO, YMOV and YDRAIN at issue (R309, R310) -/

/-- YZERO (R309). -/
def execYzero (mom : Bool) (yd : BitVec 3) (s : State) : Host.Outcome State Fault Refusal :=
  runInstr 4 (do
    let q ← quadHere
    queueRoom q
    modify fun s => s.modQuad q fun x => x.modAcc yd.toNat fun a => { a with validI := true, momentI := mom }
    enterQueue q (.yzero yd.toNat mom)
    pure .next) s

/-- YMOV (R309, R307). -/
def execYmov (yd ya : BitVec 3) (s : State) : Host.Outcome State Fault Refusal :=
  runInstr 4 (do
    let q ← quadHere
    accValid q ya.toNat
    queueRoom q
    let s ← get
    let m := ((s.quad q).acc ya.toNat).momentI
    modify fun s => s.modQuad q fun x => x.modAcc yd.toNat fun a => { a with validI := true, momentI := m }
    enterQueue q (.ymov yd.toNat ya.toNat)
    pure .next) s

/-- YDRAIN (R310). -/
def execYdrain (p : Option Pfx) (zero : Bool) (zd : BitVec 4) (ya : BitVec 3) (b : Src) (s : State) :
    Host.Outcome State Fault Refusal :=
  runInstr (pairLen p) (do
    let b ← src b
    let q ← quadHere
    let z := zd.toNat
    oneChange q z
    let d ← legalDesc q z
    let h := shapeOf d
    let s ← get
    let a := (s.quad q).acc ya.toNat
    let zs := if a.momentI && decide (z < 8) then [z, z + 8] else [z]
    forEach zs (writesTile q)
    require (weightFmt h.fmt || h.fmt == 2) .wfmt (shapeVal 1 z)
    require (decide (h.rows ≤ 64) && decide (h.cols ≤ 64)) .zshape (shapeVal 3 z)
    require (descPair d == a.momentI) .zshape (shapeVal 3 z)
    accValid q ya.toNat
    queueRoom q
    let x ← getSlot
    let r := pfxOf p
    let mode := x.mode r
    let ds ← if mode = 5 then do
        let m ← takeFields (h.rows * h.cols * zs.length)
        pure m
      else pure []
    forEach zs fun i => modify fun s => s.setTile q i .filling []
    enterQueue q (.ydrain z ya.toNat d (fld b 0 32) a.momentI zero mode r.sat ds)
    pure .next) s

/-! ## Sums (R79, R81) -/

/-- A group's exact sum so far: NaN, INVALID owed, infinities by sign, and the finite part n x 2^e. -/
structure GSum where
  nan : Bool := false
  inv : Bool := false
  pos : Bool := false
  neg : Bool := false
  n : Int := 0
  e : Int := 0
  deriving DecidableEq, Repr

/-- An infinite product taken in. -/
def GSum.addInf (g : GSum) (neg : Bool) : GSum := if neg then { g with neg := true } else { g with pos := true }

/-- A product of 0 and an infinity taken in. -/
def GSum.addBad (g : GSum) : GSum := { g with nan := true, inv := true }

/-- The exact product a x w taken in, or a x w^2 when `sq` (R81). A NaN element makes the group a NaN and owes no INVALID, a
signalling one neither (R79 names what owes it; DESIGN CHOICE, log 79). -/
def GSum.add (sq : Bool) (g : GSum) (p : Fp × Fp) : GSum :=
  match p.1, p.2 with
  | .nan _, _ => { g with nan := true }
  | _, .nan _ => { g with nan := true }
  | .inf n, .inf w => g.addInf (n != (w && !sq))
  | .inf n, .fin w m _ => if m = 0 then g.addBad else g.addInf (n != (w && !sq))
  | .fin n m _, .inf w => if m = 0 then g.addBad else g.addInf (n != (w && !sq))
  | .fin n m e, .fin w m' e' =>
    let neg := n != (w && !sq)
    let mag : Nat := if sq then m * m' * m' else m * m'
    let ex : Int := if sq then e + 2 * e' else e + e'
    let e0 := min g.e ex
    let v : Int := if neg then -(mag : Int) else mag
    { g with n := g.n * 2 ^ (g.e - e0).toNat + v * 2 ^ (ex - e0).toNat, e := e0 }

/-- The group's value, and whether its drain owes INVALID (R79). A sum that is exactly 0 is +0, whatever signs its products
have (DESIGN CHOICE, log 78). -/
def GSum.value (g : GSum) : Fp × Bool :=
  if g.nan || (g.pos && g.neg) then (.nan false, g.inv || (g.pos && g.neg))
  else if g.pos || g.neg then (.inf g.neg, false)
  else (.fin (decide (g.n < 0)) g.n.natAbs g.e, false)

/-- One group added to an accumulator element and to what its drain owes (R79; an infinity that meets its opposite in
this addition owes INVALID too, DEDUCED, log 26). -/
def addGroup (sq : Bool) (c : Nat × Bool) (terms : List (Fp × Fp)) : Nat × Bool :=
  let (g, inv) := (terms.foldl (GSum.add sq) {}).value
  let r := fpAdd fp32 rneMode (Fp.ofBits fp32 c.1) g
  (r.bits, c.2 || inv || bitAt r.fl 0)

/-! ## Weights in a plane (R303, R304) -/

/-- The 2-bit index of kept element `b` of a metadata tile (R304). -/
def metaIndex (t : SMap Byte) (b : Nat) : Nat := (t.get 0#8 (b / 4)).toNat / 2 ^ (2 * (b % 4)) % 4

/-- Whether the indexes of every group rise (R304). With an odd number of columns, the last half group has no pair to compare, and
an index at or beyond K stands for no weight (DESIGN CHOICE, log 88). -/
def metaOk (t : SMap Byte) (n cols : Nat) : Bool :=
  (List.range n).all fun r => (List.range (cols / 2)).all fun g =>
    decide (metaIndex t (r * cols + 2 * g) < metaIndex t (r * cols + 2 * g + 1))

/-- The weight W[k][n], none for a pruned position. -/
def Plane.weight (p : Plane) (i : PlaneRec) (n k : Nat) : Option Fp :=
  let rb := rowBytes i.fmt p.cols i.mant
  if i.sparse then
    ([2 * (k / 4), 2 * (k / 4) + 1].find? fun j => decide (j < p.cols) && metaIndex p.metaBytes (n * p.cols + j) == k % 4).map fun j =>
      tileElem i.fmt rb i.mant p.bytes n j
  else some (tileElem i.fmt rb i.mant p.bytes n k)

/-- Column `n` of one K part: the terms of each group of 32, from row `r` of the activation tile (R79). -/
def partTerms (h : Shape) (t : SMap Byte) (p : Plane) (r n : Nat) : List (List (Fp × Fp)) :=
  match p.info with
  | none => []
  | some i =>
    if n < i.n then
      (List.range (ceilDiv i.k 32)).map fun g =>
        (List.range (min 32 (i.k - 32 * g))).filterMap fun j =>
          (p.weight i n (32 * g + j)).map fun w => (tileElem h.fmt h.rb h.m t r (32 * g + j), w)
    else []

/-! ## Executing commands -/

/-- The tiles from which a command reads, by quadrant. -/
def State.sources (s : State) (c : CmdEntry) : List (Nat × Nat) :=
  match c.cmd with
  | .wload z d => if descSparse d then [(c.quad, z), (c.quad, descMeta d)] else [(c.quad, z)]
  | .mma _ z _ moment => (s.kParts c.quad).flatMap fun l => if moment then [(l, z), (l, z + 8)] else [(l, z)]
  | _ => []

/-- Tiles returned to READY. -/
def State.allReady (s : State) (zs : List (Nat × Nat)) : State := zs.foldl (fun s z => s.tileTo z.1 z.2 .ready) s

/-- One plane of an accumulator after an MMA: `terms` for each element of M x N. -/
def planeAfter (sq : Bool) (rows cols : Nat) (terms : Nat → Nat → List (List (Fp × Fp))) (plane : SMap U32) (owed : SMap Bool) :
    SMap U32 × SMap Bool :=
  ((List.range rows).flatMap fun r => (List.range cols).map fun n => (r, n)).foldl (fun acc rn =>
    let x := 64 * rn.1 + rn.2
    let ts := terms rn.1 rn.2
    if ts.isEmpty then acc
    else
      let v := ts.foldl (addGroup sq) ((acc.1.get 0#32 x).toNat, acc.2.get false x)
      (acc.1.set 0#32 x (BitVec.ofNat 32 v.1), acc.2.set false x v.2)) (plane, owed)

/-- Whether some element of a variance tile is negative and not zero (R306). -/
def negativeIn (h : Shape) (t : SMap Byte) : Bool :=
  (List.range h.rows).any fun r => (List.range h.cols).any fun c =>
    match tileElem h.fmt h.rb h.m t r c with
    | .fin n m _ => n && m ≠ 0
    | .inf n => n
    | .nan _ => false

/-- MMA or MMAM at its execution (R306, R315); the code of a halt otherwise. -/
def State.runMma (s : State) (c : CmdEntry) (y z : Nat) (descs : List U64) (moment : Bool) : Except Nat State :=
  let ls := (s.kParts c.quad).zip descs
  let bad := moment && ls.any fun l => negativeIn (shapeOf l.2) ((s.quad l.1).tile (z + 8)).bytes
  if bad then .error 0x03
  else
    let rows := (descs.map fun d => (shapeOf d).rows).headD 0
    let terms := fun (t zz r n : Nat) => ls.flatMap fun l =>
      partTerms (shapeOf l.2) ((s.quad l.1).tile zz).bytes (s.quad (cross l.1 t)).active r n
    .ok ((s.nParts c.quad).foldl (fun st t =>
      st.modQuad t fun q => q.modAcc y fun a =>
        let (m, im) := planeAfter false rows 64 (terms t z) a.mean a.invMean
        let (v, iv) := if moment then planeAfter true rows 64 (terms t (z + 8)) a.var a.invVar else (a.var, a.invVar)
        { a with mean := m, invMean := im, var := v, invVar := iv }) s)

/-- WLOAD at its execution (R303, R304). -/
def State.runWload (s : State) (c : CmdEntry) (z : Nat) (d : U64) : Except Nat State :=
  let h := shapeOf d
  let q := s.quad c.quad
  let sparse := descSparse d
  let m := if sparse then (q.tile (descMeta d)).bytes else []
  if sparse && !metaOk m h.rows h.cols then .error 0x02
  else
    let i : PlaneRec := { fmt := h.fmt, k := if sparse then 2 * h.cols else h.cols, n := h.rows, sparse := sparse, mant := h.m }
    .ok (s.modQuad c.quad fun x => { x with shadow := { info := some i, cols := h.cols, bytes := (q.tile z).bytes, metaBytes := m } })

/-- The values of one plane scaled by `sc` (R80, R310), row by row, with their flags. -/
def scaledPlane (h : Shape) (plane : SMap U32) (owed : SMap Bool) (sc : Nat) : List Nat × Flags :=
  let rs := ((List.range h.rows).flatMap fun r => (List.range h.cols).map fun c => 64 * r + c).map fun x =>
    let q := fpMul fp32 rneMode (Fp.ofBits fp32 (plane.get 0#32 x).toNat) (Fp.ofBits fp32 sc)
    (q.bits, q.fl ||| if owed.get false x then flInvalid else 0#6)
  (rs.map Prod.fst, rs.foldl (fun f r => f ||| r.2) 0#6)

/-- Lists of 32 from a list, `n` of them. -/
def runs32 {α : Type} : Nat → List α → List (List α)
  | 0, _ => []
  | n + 1, l => l.take 32 :: runs32 n (l.drop 32)

/-- The values of one plane in the tile's format (R80, R77), with their flags. -/
def formatPlane (h : Shape) (mode : Nat) (sat : Bool) (draws : List Nat) (vs : List Nat) : List Byte × Flags :=
  if h.fmt = 5 then
    let n := vs.length / 32
    let bs := ((runs32 n vs).zip (runs32 n (padDraws draws vs.length))).map fun b =>
      bfpQuantise h.m mode b.2 (b.1.map (Fp.ofBits fp32))
    (bs.flatMap fun b => bfpBytes h.m b.1 b.2.1, bs.foldl (fun f b => f ||| b.2.2) 0#6)
  else
    let rs := (List.range vs.length).map fun i =>
      fpConvert fp32 (fmtOf h.fmt) { mode := mode, draw := draws.getD i 0, sat := sat } (vs.getD i 0)
    (rs.flatMap fun r => toBytes (fmtBits h.fmt / 8) r.bits, rs.foldl (fun f r => f ||| r.fl) 0#6)
where
  /-- Draws for every value, 0 where the mode takes none. -/
  padDraws (ds : List Nat) (n : Nat) : List Nat := ds ++ List.replicate (n - ds.length) 0

/-- YDRAIN at its execution (R310). -/
def State.runYdrain (s : State) (c : CmdEntry) (z y : Nat) (d : U64) (scale : U32) (moment zero : Bool) (mode : Nat) (sat : Bool)
    (ds : List Nat) : State :=
  let h := shapeOf d
  let a := (s.quad c.quad).acc y
  let n := h.rows * h.cols
  let (vs, f1) := scaledPlane h a.mean a.invMean scale.toNat
  let (bs, f2) := formatPlane h mode sat (ds.take n) vs
  let s := s.setTile c.quad z .ready (tileBytes bs)
  let (s, f3) :=
    if moment then
      let ss := fpMul fp32 rneMode (Fp.ofBits fp32 scale.toNat) (Fp.ofBits fp32 scale.toNat)
      let (ws, g1) := scaledPlane h a.var a.invVar ss.bits
      let (cs, g2) := formatPlane h mode sat (ds.drop n) ws
      (s.setTile c.quad (z + 8) .ready (tileBytes cs), ss.fl ||| g1 ||| g2)
    else (s, 0#6)
  let s := if zero then s.modQuad c.quad fun q => q.modAcc y fun a => { a with mean := [], var := [], invMean := [], invVar := [] } else s
  s.modTask c.who.tid fun x => { x with fflags := x.fflags ||| f1 ||| f2 ||| f3 }

/-! ## Halts (R313) -/

/-- The issued view set equal to the executed view (R302). -/
def Quad.sync (q : Quad) : Quad :=
  { q with accs := q.accs.map fun a => (a.1, { a.2 with validI := a.2.valid, momentI := a.2.moment })
           activeI := q.active.info, shadowI := q.shadow.info }

/-- The slot of an MMA or MMAM rejoins the rotation (R308), if it still waits there for its task. -/
def State.rejoin (s : State) (o : Issuer) : State :=
  if (s.slot o.slot).tid = o.tid ∧ (s.slot o.slot).wait = Wait.array then s.complete o.slot 4 else s

/-- One command discarded with `code` (R313): the record that clears VALID of its accumulator is the first (R307). -/
def State.discard (s : State) (c : CmdEntry) (code : Nat) : State :=
  let clear := fun (s : State) (q y : Nat) =>
    s.modQuad q fun x => x.modAcc y fun a => { a with valid := false, code := if a.valid then code else a.code }
  let s := s.allReady (s.sources c)
  let s := match c.cmd with
    | .mma y _ _ _ => ((s.nParts c.quad).foldl (fun s t => clear s t y) s).rejoin c.who
    | .ymov y _ => clear s c.quad y
    | .yzero y _ => clear s c.quad y
    | .ydrain z _ _ _ m _ _ _ _ =>
      let s := s.setTile c.quad z .empty []
      if m then s.setTile c.quad (z + 8) .empty [] else s
    | .wload _ _ => s.modQuad c.quad fun x => { x with shadow := {} }
    | .wswap => s
  s.arrayError c.who code (Config.freeTval s.tick)

/-- The queue of `lead` halted at its command number `i` (R313): that command and those behind it are discarded, and an
error that its residue showed is over. -/
def State.haltQueue (s : State) (lead i code : Nat) : State :=
  let q := (s.quad lead).queue
  let s := s.modQuad lead fun x => { x with queue := x.queue.take i }
  let s := ((q.drop i).zip (code :: List.replicate q.length 0x0F)).foldl (fun s c => s.discard c.1 c.2) s
  let s := (s.setQuads lead).foldl (fun s t => s.modQuad t fun q => { q.sync with residue := false }) s
  { s with tick := s.tick + 1 }

/-! ## One command executed (R301) -/

/-- The accumulators that a command reads: an MMA of a fused set those of its N parts (R315). -/
def State.accsRead (s : State) (c : CmdEntry) : List (Nat × Nat) :=
  match c.cmd with
  | .mma y _ _ _ => (s.nParts c.quad).map fun q => (q, y)
  | .ydrain _ y _ _ _ _ _ _ _ => [(c.quad, y)]
  | .ymov _ ya => [(c.quad, ya)]
  | _ => []

/-- Whether a command meets an uncorrectable error (R313, R427): in a tile or an accumulator that it reads (the latter DEDUCED,
log 25), or in its accumulation. -/
def State.cmdBad (s : State) (c : CmdEntry) : Bool :=
  ((s.sources c).any fun z => s.tileBad z.1 z.2) || ((s.accsRead c).any fun y => s.accBad y.1 y.2) ||
    (match c.cmd with | .mma .. => (s.setQuads c.quad).any fun q => (s.quad q).residue | _ => false)

/-- What a command does when it executes; the code of a halt otherwise. -/
def State.runCmd (s : State) (c : CmdEntry) : Except Nat State :=
  if s.cmdBad c then .error 0x05
  else
    match c.cmd with
    | .wload z d => (s.runWload c z d).map fun s' => s'.allReady (s.sources c)
    | .wswap => .ok (s.modQuad c.quad fun q => { q with active := q.shadow, shadow := q.active })
    | .mma y z ds m => (s.runMma c y z ds m).map fun s' => (s'.allReady (s.sources c)).rejoin c.who
    | .yzero y m => .ok ((s.accClean c.quad y).modQuad c.quad fun q => q.modAcc y fun a =>
        { a with mean := [], var := [], invMean := [], invVar := [], valid := true, moment := m, code := 0 })
    | .ymov y ya => .ok ((s.accClean c.quad y).modQuad c.quad fun q =>
        let b := q.acc ya
        q.modAcc y fun a => { a with mean := b.mean, var := b.var, invMean := b.invMean, invVar := b.invVar, valid := true,
                                     moment := b.moment, code := 0 })
    | .ydrain z y d sc m zero mode sat ds => .ok (s.runYdrain c z y d sc m zero mode sat ds)

/-- The tiles whose state a command changes when it ends. -/
def State.tilesOf (s : State) (c : CmdEntry) : List (Nat × Nat) :=
  match c.cmd with
  | .ydrain z _ _ _ m _ _ _ _ => if m then [(c.quad, z), (c.quad, z + 8)] else [(c.quad, z)]
  | _ => s.sources c

/-- Whether the tiles of some commands may change their state in this cycle (R297). -/
def State.quiet (s : State) (cs : List CmdEntry) : Bool := cs.all fun c => (s.tilesOf c).all fun z => s.tileQuiet z.1 z.2

/-- Command number `i` of the queue of quadrant `q` executed, if it satisfies `f` and is due: the oldest, or a WLOAD
behind MMAs only (R301). Its tiles, and at a halt those of every command behind it, change state then (R297). -/
def State.execCmd (s : State) (q i : Nat) (f : Cmd → Bool) : Option State :=
  let qq := (s.quad q).queue
  match qq[i]? with
  | none => none
  | some c =>
    let mma := fun (e : CmdEntry) => match e.cmd with | .mma .. => true | _ => false
    let due := i == 0 || ((match c.cmd with | .wload .. => true | _ => false) && (qq.take i).all mma)
    if f c.cmd && due && s.quiet [c] then
      match s.runCmd c with
      | .ok s' => some (s'.modQuad q fun x => { x with queue := x.queue.eraseIdx i })
      | .error code => if s.quiet (qq.drop i) then some (s.haltQueue q i code) else none
    else none

/-- Number of the first command that is no MMA. -/
def firstOther (q : List CmdEntry) : Nat := (q.takeWhile fun e => match e.cmd with | .mma .. => true | _ => false).length

/-- WLOAD_EXECUTE (R303, R304). -/
def execWloadExecute (quad : Nat) (s : State) : Host.Outcome State Fault Refusal :=
  runEvent "WLOAD_EXECUTE" (s.execCmd quad (firstOther (s.quad quad).queue) fun c => match c with | .wload .. => true | _ => false) 

/-- WSWAP_EXECUTE (R303). -/
def execWswapExecute (quad : Nat) (s : State) : Host.Outcome State Fault Refusal :=
  runEvent "WSWAP_EXECUTE" (s.execCmd quad 0 fun c => match c with | .wswap => true | _ => false)

/-- MMA_EXECUTE (R306). -/
def execMmaExecute (quad : Nat) (s : State) : Host.Outcome State Fault Refusal :=
  runEvent "MMA_EXECUTE" (s.execCmd quad 0 fun c => match c with | .mma _ _ _ m => !m | _ => false)

/-- MMAM_EXECUTE (R306, R81). -/
def execMmamExecute (quad : Nat) (s : State) : Host.Outcome State Fault Refusal :=
  runEvent "MMAM_EXECUTE" (s.execCmd quad 0 fun c => match c with | .mma _ _ _ m => m | _ => false)

/-- YZERO_EXECUTE (R309). -/
def execYzeroExecute (quad : Nat) (s : State) : Host.Outcome State Fault Refusal :=
  runEvent "YZERO_EXECUTE" (s.execCmd quad 0 fun c => match c with | .yzero .. => true | _ => false)

/-- YDRAIN_EXECUTE (R310). -/
def execYdrainExecute (quad : Nat) (s : State) : Host.Outcome State Fault Refusal :=
  runEvent "YDRAIN_EXECUTE" (s.execCmd quad 0 fun c => match c with | .ydrain .. => true | _ => false)

/-- YMOV_EXECUTE (R309). -/
def execYmovExecute (quad : Nat) (s : State) : Host.Outcome State Fault Refusal :=
  runEvent "YMOV_EXECUTE" (s.execCmd quad 0 fun c => match c with | .ymov .. => true | _ => false)

/-- A tile that no queued command reads has been read through (R295). -/
def State.tileDrainDone (s : State) (quad z : Nat) : Option State :=
  if ((s.quad quad).tile z).state = .draining ∧ s.tileQuiet quad z ∧
      !((s.quad (s.lead quad)).queue.any fun c => (s.sources c).contains (quad, z)) then
    some (s.tileTo quad z .ready)
  else none

/-- TILE_DRAIN_DONE. -/
def execTileDrainDone (quad z : Nat) (s : State) : Host.Outcome State Fault Refusal :=
  runEvent "TILE_DRAIN_DONE" (s.tileDrainDone quad z)

/-! ## Fusion (R314) -/

/-- The masks that QFUSE and QSPLIT accept (R314). -/
def fuseMask (a : U64) : Bool := a == 3#64 || a == 12#64 || a == 5#64 || a == 10#64 || a == 15#64

/-- The quadrants of cluster `cl` that a mask names. -/
def maskQuads (cl : Nat) (a : U64) : List Nat := (List.range 4).filterMap fun i => if bitAt a i then some (4 * cl + i) else none

/-- A quadrant with its planes emptied and its set replaced (R314). -/
def Quad.refuse (q : Quad) (m : BitVec 4) : Quad := { q with active := {}, shadow := {}, activeI := none, shadowI := none, fused := m }

/-- QFUSE and QSPLIT (R314): `m` is the set the named quadrants have after it. -/
def fuse (a : Src) (tval : U64) (ok : State → Nat → U64 → Bool) (m : U64 → BitVec 4) : Exec Flow := do
  privileged tval
  let v ← src a
  require (fuseMask v) .illop tval
  let s ← get
  let cl := clusterOf (coreOf s.cur)
  let qs := maskQuads cl v
  require (qs.all fun q => s.ownsQuad (s.partOfSlot s.cur) q) .xperm (Config.freeTval s.tick)
  require (ok s cl v) .illop tval
  await (qs.all fun q => (s.quad q).queue.isEmpty)
  set (qs.foldl (fun s q => s.modQuad q fun x => x.refuse (m v)) s)
  pure .next

/-- QFUSE (R314; privileged). -/
def execQfuse (a : Src) (s : State) : Host.Outcome State Fault Refusal :=
  runInstr 4 (fuse a (rForm 0x28 7 0#5 a.bits 0#5 0#4)
    (fun s cl v => (maskQuads cl v).all fun q => (s.quad q).fused = 0#4) fun v => fld v 0 4) s

/-- QSPLIT (R314; privileged). -/
def execQsplit (a : Src) (s : State) : Host.Outcome State Fault Refusal :=
  runInstr 4 (fuse a (rForm 0x28 8 0#5 a.bits 0#5 0#4)
    (fun s cl v => (maskQuads cl v).all fun q => (s.quad q).fused = fld v 0 4) fun _ => 0#4) s

/-! ## Departure of a tenant (R316) -/

/-- Number under which a tenant's tile state is saved. -/
def savedTileKey (p t quad : Nat) : Nat := (p * 16 + t) * 320 + quad

/-- A quadrant cleared (R316): tiles EMPTY, planes empty, accumulators +0 with VALID = 0; its set and its ZDESC stay (log 44). No
record has cleared that VALID, and the code that a reader finds is 0 (DESIGN CHOICE, log 85). -/
def Quad.cleared (q : Quad) : Quad :=
  { zdesc := q.zdesc, fused := q.fused,
    accs := (List.range 8).map fun y => (y, { valid := false, validI := false }) }

/-- The lines of a quadrant's tiles, and then those of its accumulators, from number 2048 on (R427). -/
def quadLine (quad i : Nat) : Nat := if i < 2048 then tileLine quad 0 i else accLine quad (i - 2048)

/-- The number of a line within a quadrant, if it is one of its tiles or accumulators. -/
def lineIn (quad l : Nat) : Option Nat :=
  if tileLine quad 0 0 ≤ l ∧ l < tileLine quad 16 0 then some (l - tileLine quad 0 0)
  else if accLine quad 0 ≤ l ∧ l < accLine quad 8 then some (l - accLine quad 0 + 2048)
  else none

/-- The poisoned lines of a quadrant, by number within it (R428). -/
def State.quadLines (s : State) (quad : Nat) : List Nat := s.poison.filterMap fun e => lineIn quad e.1

/-- Poison without that of a quadrant. -/
def State.cleanQuad (s : State) (quad : Nat) : SMap Bool := s.poison.filter fun e => (lineIn quad e.1).isNone

/-- Tile state put into a quadrant in the place of another, with its poisoned lines (R428). -/
def State.putQuad (s : State) (quad : Nat) (q : Quad) : State :=
  { s.modQuad quad fun old => { q with fused := old.fused, keep := old.keep, lines := [] } with
    poison := q.lines.foldl (fun m l => m.set false (quadLine quad l) true) (s.cleanQuad quad) }

/-- Whether the queue of a quadrant, which its fused set shares, holds a command. -/
def State.commandsOn (s : State) (quad : Nat) : Bool := !(s.quad (s.lead quad)).queue.isEmpty

/-- A quadrant whose tiles have all changed their state in cycle `t` (R297). -/
def Quad.stamp (q : Quad) (t : Nat) : Quad :=
  { q with tiles := (List.range 16).map fun z => (z, { q.tile z with since := some t }) }

/-- The tile state of a departed tenant saved or cleared, and that of the arriving one brought back (R316, R219). -/
def State.tileStateDrain (s : State) (quad : Nat) : Option State :=
  let q := s.quad quad
  match q.leaving with
  | none => none
  | some (old, new) =>
    let busy := s.commandsOn quad || q.tiles.any fun t => t.2.state = .filling || t.2.state = .draining
    if busy || !((List.range 16).all (s.tileQuiet quad)) then none
    else
      let p := s.partOf (2 * quad)
      let save := s.tenantClass p old = 2 || q.keep.get false old
      let sv := if save then s.savedTiles.put (savedTileKey p old quad) { q with leaving := none, parting := none, keep := [], lines := s.quadLines quad }
        else s.savedTiles
      let s := s.modQuad quad fun q => { q with keep := q.keep.set false old false }
      match sv.find? fun e => e.1 = savedTileKey p new quad with
      | some e => some { s.putQuad quad (e.2.stamp s.now) with savedTiles := sv.erase (savedTileKey p new quad) }
      | none => some { s.putQuad quad (q.cleared.stamp s.now) with savedTiles := sv }

/-- TILE_STATE_DRAIN. -/
def execTileStateDrain (quad : Nat) (s : State) : Host.Outcome State Fault Refusal :=
  runEvent "TILE_STATE_DRAIN" (s.tileStateDrain quad)

end Sys2Proof.Machine
end

