-- ==== Sys2Proof/Machine/Ring.lean ====
section
/-!
DEFINITION. Rings and barriers: majors RING and BAR (R224 to R239), the requests parked at them (R230), and the bytes
that a copy card adds to a barrier (R238).
-/

namespace Sys2Proof.Machine

/-! ## Ring headers -/

/-- A ring header less its BASE (R224). -/
structure Ring where
  size : Nat
  claim : Nat
  commit : Nat
  awaited : Nat
  retire : Nat
  reserved : Nat
  deriving DecidableEq, Repr

/-- The header in 64 bytes. -/
def ringOf (bs : List Byte) : Ring :=
  { size := leAt bs 16 8, claim := leAt bs 24 8, commit := leAt bs 32 8, awaited := leAt bs 40 8, retire := leAt bs 48 8
    reserved := leAt bs 56 8 }

/-- R225. -/
def Ring.ok (h : Ring) : Bool :=
  decide (h.size ≠ 0) && decide (h.size ≤ 2 ^ 24) && decide (2 ^ Nat.log2 h.size = h.size) && decide (h.retire ≤ h.awaited) &&
    decide (h.awaited ≤ h.commit) && decide (h.commit ≤ h.claim) && decide (h.claim ≤ h.retire + h.size) && h.reserved == 0

/-- The bytes of the four counters, which stand together from offset 24. -/
def Ring.counters (h : Ring) : List Byte := toBytes 8 h.claim ++ toBytes 8 h.commit ++ toBytes 8 h.awaited ++ toBytes 8 h.retire

/-- How a step at a ring or barrier ends: a fault, -1, parked, or done with a value to push and a new content. -/
inductive Stepped (α : Type) where
  | fault
  | refused
  | park
  | done (push : Option Nat) (h : α)

/-- RCLAIM, or RTRYCLAIM when `try` (R229): `older` says that a request counts as parked before this one. -/
def Ring.stepClaim (h : Ring) (n : Nat) (older try' : Bool) : Stepped Ring :=
  if !h.ok || decide (n = 0) || decide (n > h.size) || decide (h.claim + n > 2 ^ 64 - 1) then .fault
  else if decide (h.claim + n > h.retire + h.size) || older then (if try' then .refused else .park)
  else .done (some h.claim) { h with claim := h.claim + n }

/-- RCOMMIT (R229). -/
def Ring.stepCommit (h : Ring) (i n : Nat) : Stepped Ring :=
  if !h.ok || decide (n = 0) || decide (i < h.commit) || decide (i + n > h.claim) then .fault
  else if i > h.commit then .park
  else .done none { h with commit := i + n }

/-- RAWAIT (R229). -/
def Ring.stepAwait (h : Ring) (n : Nat) (older : Bool) : Stepped Ring :=
  if !h.ok || decide (n = 0) || decide (n > h.size) then .fault
  else if decide (h.commit - h.awaited < n) || older then .park
  else .done (some h.awaited) { h with awaited := h.awaited + n }

/-- RRETIRE (R229). -/
def Ring.stepRetire (h : Ring) (i n : Nat) : Stepped Ring :=
  if !h.ok || decide (n = 0) || decide (i < h.retire) || decide (i + n > h.awaited) then .fault
  else if i > h.retire then .park
  else .done none { h with retire := i + n }

/-! ## Barrier objects -/

/-- A barrier object (R235). -/
structure Bar where
  phase : Nat
  aexp : Nat
  acnt : Nat
  bexp : Nat
  bcnt : Nat
  deriving DecidableEq, Repr

/-- The object in 16 bytes. -/
def barOf (bs : List Byte) : Bar :=
  let v := leAt bs 0 16
  { phase := v % 2 ^ 16, aexp := v / 2 ^ 16 % 2 ^ 16, acnt := v / 2 ^ 32 % 2 ^ 16, bexp := v / 2 ^ 48 % 2 ^ 40
    bcnt := v / 2 ^ 88 % 2 ^ 40 }

/-- The 16 bytes of an object. -/
def Bar.bytes (o : Bar) : List Byte :=
  toBytes 16 (o.phase % 2 ^ 16 + o.aexp % 2 ^ 16 * 2 ^ 16 + o.acnt % 2 ^ 16 * 2 ^ 32 + o.bexp % 2 ^ 40 * 2 ^ 48 + o.bcnt % 2 ^ 40 * 2 ^ 88)

/-- Whether an object is well-formed (R235). -/
def Bar.ok (o : Bar) : Bool := decide (o.aexp ≠ 0) && decide (o.acnt ≤ o.aexp)

/-- `end_test` of R237. -/
def Bar.endTest (o : Bar) : Bar :=
  if o.acnt = o.aexp ∧ o.bcnt = o.bexp then { o with phase := (o.phase + 1) % 2 ^ 16, acnt := 0, bexp := 0, bcnt := 0 } else o

/-- BARRIVE (R237). -/
def Bar.stepArrive (o : Bar) (b : Nat) : Stepped Bar :=
  if !o.ok || decide (o.acnt = o.aexp) || decide (o.bexp + b ≥ 2 ^ 40) ||
      (decide (o.acnt + 1 = o.aexp) && decide (o.bcnt > o.bexp + b)) then .fault
  else .done (some o.phase) ({ o with acnt := o.acnt + 1, bexp := o.bexp + b }).endTest

/-- BEXPECT (R237). -/
def Bar.stepExpect (o : Bar) (b : Nat) : Stepped Bar :=
  if !o.ok || decide (o.acnt = o.aexp) || decide (o.bexp + b ≥ 2 ^ 40) then .fault
  else .done none ({ o with bexp := o.bexp + b }).endTest

/-- BWAIT (R237): once it need not park, the object's end test follows. -/
def Bar.stepWait (o : Bar) (b : Nat) : Stepped Bar :=
  if !o.ok then .fault else if o.phase = b % 2 ^ 16 then .park else .done none o.endTest

/-- The bytes of a copy card (R238). -/
def Bar.stepBytes (o : Bar) (n : Nat) : Stepped Bar :=
  if !o.ok || decide (o.bcnt + n ≥ 2 ^ 40) || (decide (o.acnt = o.aexp) && decide (o.bcnt + n > o.bexp)) then .fault
  else .done none ({ o with bcnt := o.bcnt + n }).endTest

/-! ## Parked requests (R230) -/

/-- Requests parked at the object with key `key`, oldest first. -/
def State.parkedAt (s : State) (key : Nat) : List Parked := s.parked.filter fun r => r.key = key

/-- Whether a parked request is an RCLAIM. -/
def Parked.isClaim (r : Parked) : Bool := match r.op with | .rclaim .. => true | _ => false
/-- Whether a parked request is an RAWAIT. -/
def Parked.isAwait (r : Parked) : Bool := match r.op with | .rawait .. => true | _ => false
/-- Whether a parked request is a BWAIT. -/
def Parked.isBwait (r : Parked) : Bool := match r.op with | .bwait .. => true | _ => false

/-- The virtual address to log for a write at an object: none outside GLOBAL space (R409). -/
def logVa (key addr : Nat) : Option Nat := if key < 2 ^ 60 then some addr else none

/-- What a parked request does now, with the older requests `before` it: a fault, still parked, or done with the bytes to
write at an offset, the value to push and its destination, and whether it acquires. -/
def State.evaluate (s : State) (r : Parked) (before : List Parked) : Stepped (Nat × List Byte × Option Dst × Bool) :=
  let h := ringOf (s.bytes r.key 64)
  let ring := fun (x : Stepped Ring) (d : Option Dst) (acq : Bool) =>
    match x with
    | .fault => Stepped.fault
    | .refused => .refused
    | .park => .park
    | .done v y => .done v (24, y.counters, d, acq)
  match r.op with
  | .rclaim n d _ => ring (h.stepClaim n (before.any Parked.isClaim) false) (some d) true
  | .rcommit i n => ring (h.stepCommit i n) none false
  | .rawait n d _ => ring (h.stepAwait n (before.any Parked.isAwait)) (some d) true
  | .rretire i n => ring (h.stepRetire i n) none false
  | .bwait b _ =>
    let o := barOf (s.bytes r.key 16)
    match o.stepWait b with
    | .fault => .fault
    | .refused => .refused
    | .park => .park
    | .done v y => .done v (0, if y = o then [] else y.bytes, none, true)

/-- A parked request that fails leaves the object: its slot traps. A trap that must wait for the slot's stores leaves the request to
be issued again. -/
def State.failParked (s : State) (r : Parked) (c : Cause) (tval : Nat) : State :=
  let s := { s with parked := s.parked.erase r }.modSlot r.slot fun y => { y with wait := Wait.none }
  (s.takeTrap r.slot c (BitVec.ofNat 64 tval) 4).getD s

/-- A parked request that proceeds or fails leaves the object: its slot completes, or takes RINGOVR or BAROVR. -/
def State.finishParked (s : State) (r : Parked) (x : Stepped (Nat × List Byte × Option Dst × Bool)) : State :=
  match x with
  | .done v (off, bs, d, acq) =>
    let s := { s with parked := s.parked.erase r }
    let s := s.performWrites (s.partOfSlot r.slot) (s.slot r.slot).tenant (logVa r.key r.addr) (writesAt (r.key + off) bs) none
    let s := if acq then s.modCore (coreOf r.slot) fun c => { c with rcache := [] } else s
    match d, v with
    | some d, some v => s.completeWith r.slot 4 d (BitVec.ofNat 64 v)
    | _, _ => s.complete r.slot 4
  | _ => s.failParked r (if r.isBwait then .barOvr else .ringOvr) r.addr

/-- The poisoned line among the bytes that a parked request reads, if any (R428). -/
def State.parkedPoison (s : State) (r : Parked) : Option Nat := s.poisonIn r.key (if r.isBwait then 16 else 64)

/-- The oldest request at `key` that need not stay parked, finished: with MCHECK when it meets a poisoned line (R428). -/
def State.firstReady (s : State) (key : Nat) : Option State :=
  let l := s.parkedAt key
  (List.range l.length).findSome? fun i =>
    match l[i]? with
    | none => none
    | some r =>
      match s.parkedPoison r, s.evaluate r (l.take i) with
      | some k, _ => some (s.failParked r .mcheck (physOf k))
      | none, .park => none
      | none, x => some (s.finishParked r x)

/-- The requests at `key` evaluated until none can proceed (R230). -/
def State.reevaluate (key : Nat) : Nat → State → State
  | 0, s => s
  | n + 1, s =>
    match s.firstReady key with
    | none => s
    | some s' => State.reevaluate key n s'

/-- After a step that changed the object at `key`. -/
def State.afterStep (s : State) (key : Nat) : State := s.reevaluate key (s.parkedAt key).length

/-- The current slot parks (R230). -/
def park (r : RecordAt) (op : ParkOp) : Exec Flow := do
  modify fun s => { s with parked := s.parked ++ [{ slot := s.cur, key := r.key, addr := r.addr, op := op }] }
  modSlot fun x => { x with wait := Wait.parked }
  pure .hold

/-- The parked request of slot `g` withdrawn: the slot stops, and will issue the instruction again (R230). -/
def State.unpark (s : State) (g : Nat) : Option State :=
  match s.parked.find? fun r => r.slot = g with
  | none => none
  | some r =>
    let s := { s with parked := s.parked.erase r }
    some ((s.modSlot g fun x => { x with wait := Wait.none, stopped := some none }).afterStep r.key)

/-- A parked request withdrawn for a pre-emption (R230). -/
def State.withdraw (s : State) (g : Nat) : Option State := if s.mayStop g then s.unpark g else none

/-- PARKED_WITHDRAWAL (R230). -/
def execParkedWithdrawal (slot : Nat) (s : State) : Host.Outcome State Fault Refusal :=
  runEvent "PARKED_WITHDRAWAL" (s.withdraw slot)

/-! ## RING -/

/-- The header operand (R228). -/
def headerAt (k : Cap) (perm bits : List Nat) : Exec RecordAt := objectAt k 64 perm bits true

/-- RINIT's checks of its base capability (R228). -/
def checkBase (b : Cap) (n : Nat) : Exec Unit := do
  require b.tag .capTag (u64 b.cursor)
  require (decide (b.space ≤ 2)) .capSpace (u64 b.cursor)
  require (b.has 0 && b.has 1 && b.has 6) .capPerm (u64 b.cursor)
  require (decide (b.cursor % 64 = 0)) .align (u64 b.cursor)
  require (decide (b.base ≤ b.cursor) && decide (b.cursor + 64 * n ≤ b.top)) .capBnd (u64 b.cursor)

/-- RINIT (R228, R229): SC of the header capability, then kb, then C of the header's page; the step itself reads the header. -/
def execRinit (ka kb : BitVec 3) (s1 : BitVec 5) (s : State) : Host.Outcome State Fault Refusal :=
  runInstr 4 (do
    notLatent
    let k ← kreg ka
    let b ← kreg kb
    let r ← headerAt k [0, 1, 5] [1, 2, 4]
    require (k.has 4) .capPerm (u64 k.cursor)
    checkBase b (2 ^ s1.toNat)
    require r.keep .xperm (u64 k.cursor)
    let _ ← readBytes r.key 64
    let s ← get
    require (s.parkedAt r.key).isEmpty .ringOvr (u64 r.addr)
    let w := s.who s.cur
    let bs := toBytes 16 b.bits.toNat ++ toBytes 8 (2 ^ s1.toNat) ++ toBytes 40 0
    set (s.performWrites w.part w.tenant r.va (writesAt r.key bs) (some r.key))
    pure .next) s

/-- The end of a ring step of the current slot: the fault, -1, parking, or the new counters and the value pushed. -/
def ringStep (r : RecordAt) (x : Stepped Ring) (d : Option Dst) (op : Option ParkOp) (acq : Bool) : Exec Flow := do
  match x with
  | .fault => trap .ringOvr (u64 r.addr)
  | .refused => do
    match d with
    | some d => dst d (BitVec.allOnes 64)
    | none => pure ()
    pure .next
  | .park =>
    match op with
    | some op => park r op
    | none => pure .next
  | .done v h => do
    writeObject r 24 h.counters
    match d, v with
    | some d, some v => dst d (BitVec.ofNat 64 v)
    | _, _ => pure ()
    if acq then acquire
    modify fun s => s.afterStep r.key
    pure .next

/-- The header read in one step. -/
def readRing (r : RecordAt) : Exec Ring := do
  let bs ← readBytes r.key 64
  pure (ringOf bs)

/-- RCLAIM (R229, R231, R232). -/
def execRclaim (scope : BitVec 3) (d : Dst) (ka : BitVec 3) (b : Src) (s : State) : Host.Outcome State Fault Refusal :=
  runInstr 4 (do
    let n ← src b
    roleIs (fun i => i ≠ 11) (wordVal (encode (.rclaim scope d ka b)))
    notLatent
    let k ← kreg ka
    let r ← headerAt k [0, 1, 5] [1, 2, 4]
    let h ← readRing r
    let s ← get
    ringStep r (h.stepClaim n.toNat ((s.parkedAt r.key).any Parked.isClaim) false) (some d)
      (some (.rclaim n.toNat d scope.toNat)) true) s

/-- RTRYCLAIM (R229, R231). -/
def execRtryclaim (scope : BitVec 3) (d : Dst) (ka : BitVec 3) (b : Src) (s : State) : Host.Outcome State Fault Refusal :=
  runInstr 4 (do
    let _ := scope
    let n ← src b
    notLatent
    let k ← kreg ka
    let r ← headerAt k [0, 1, 5] [1, 2, 4]
    let h ← readRing r
    let s ← get
    ringStep r (h.stepClaim n.toNat ((s.parkedAt r.key).any Parked.isClaim) true) (some d) none true) s

/-- RCOMMIT (R229, R231, R232). -/
def execRcommit (scope : BitVec 3) (ka : BitVec 3) (i b : Src) (s : State) : Host.Outcome State Fault Refusal :=
  runInstr 4 (do
    let x ← src i
    let n ← src b
    roleIs (fun i => i ≠ 11) (wordVal (encode (.rcommit scope ka i b)))
    notLatent
    let k ← kreg ka
    fenceRel scope.toNat
    let r ← headerAt k [0, 1, 5] [1, 2, 4]
    let h ← readRing r
    ringStep r (h.stepCommit x.toNat n.toNat) none (some (.rcommit x.toNat n.toNat)) false) s

/-- RAWAIT (R229, R231, R232). -/
def execRawait (scope : BitVec 3) (d : Dst) (ka : BitVec 3) (b : Src) (s : State) : Host.Outcome State Fault Refusal :=
  runInstr 4 (do
    let n ← src b
    roleIs (fun i => i ≠ 11) (wordVal (encode (.rawait scope d ka b)))
    notLatent
    let k ← kreg ka
    let r ← headerAt k [0, 1, 5] [1, 2, 4]
    let h ← readRing r
    let s ← get
    ringStep r (h.stepAwait n.toNat ((s.parkedAt r.key).any Parked.isAwait)) (some d)
      (some (.rawait n.toNat d scope.toNat)) true) s

/-- RRETIRE (R229, R231, R232). -/
def execRretire (scope : BitVec 3) (ka : BitVec 3) (i b : Src) (s : State) : Host.Outcome State Fault Refusal :=
  runInstr 4 (do
    let x ← src i
    let n ← src b
    roleIs (fun i => i ≠ 11) (wordVal (encode (.rretire scope ka i b)))
    notLatent
    let k ← kreg ka
    fenceRel scope.toNat
    let r ← headerAt k [0, 1, 5] [1, 2, 4]
    let h ← readRing r
    ringStep r (h.stepRetire x.toNat n.toNat) none (some (.rretire x.toNat n.toNat)) false) s

/-! ## BAR -/

/-- The object operand (R236) and the object, read in one step. -/
def barrierAt (k : Cap) : Exec (RecordAt × Bar) := do
  let r ← objectAt k 16 [0, 1, 5] [1, 2, 4] false
  let bs ← readBytes r.key 16
  pure (r, barOf bs)

/-- The end of a barrier step of the current slot. -/
def barStep (r : RecordAt) (x : Stepped Bar) (d : Option Dst) : Exec Flow := do
  match x with
  | .done v o => do
    writeObject r 0 o.bytes
    match d, v with
    | some d, some v => dst d (BitVec.ofNat 64 v)
    | _, _ => pure ()
    modify fun s => s.afterStep r.key
    pure .next
  | _ => trap .barOvr (u64 r.addr)

/-- BINIT (R237). -/
def execBinit (ka : BitVec 3) (b : Src) (s : State) : Host.Outcome State Fault Refusal :=
  runInstr 4 (do
    let v ← src b
    notLatent
    let k ← kreg ka
    let (r, _) ← barrierAt k
    let s ← get
    require (decide (v ≠ 0#64) && decide (v.toNat ≤ 65535) && !(s.parkedAt r.key).any Parked.isBwait) .barOvr (u64 r.addr)
    writeObject r 0 (Bar.bytes { phase := 0, aexp := v.toNat, acnt := 0, bexp := 0, bcnt := 0 })
    pure .next) s

/-- BARRIVE (R237, R239). -/
def execBarrive (scope : BitVec 3) (d : Dst) (ka : BitVec 3) (b : Src) (s : State) : Host.Outcome State Fault Refusal :=
  runInstr 4 (do
    let v ← src b
    notLatent
    let k ← kreg ka
    fenceRel scope.toNat
    let (r, o) ← barrierAt k
    barStep r (o.stepArrive v.toNat) (some d)) s

/-- BEXPECT (R237). -/
def execBexpect (ka : BitVec 3) (b : Src) (s : State) : Host.Outcome State Fault Refusal :=
  runInstr 4 (do
    let v ← src b
    notLatent
    let k ← kreg ka
    let (r, o) ← barrierAt k
    barStep r (o.stepExpect v.toNat) none) s

/-- The object written where a step that pushes no change has ended its phase (R237). -/
def endStep (r : RecordAt) (o y : Bar) : Exec Unit :=
  if y = o then pure ()
  else do
    writeObject r 0 y.bytes
    modify fun s => s.afterStep r.key

/-- BWAIT (R237, R239). -/
def execBwait (scope : BitVec 3) (ka : BitVec 3) (b : Src) (s : State) : Host.Outcome State Fault Refusal :=
  runInstr 4 (do
    let v ← src b
    roleIs (fun i => i ≠ 11) (wordVal (encode (.bwait scope ka b)))
    notLatent
    let k ← kreg ka
    let (r, o) ← barrierAt k
    match o.stepWait v.toNat with
    | .park => park r (.bwait (v.toNat % 2 ^ 16) scope.toNat)
    | .done _ y => do
      endStep r o y
      acquire
      pure .next
    | _ => trap .barOvr (u64 r.addr)) s

/-- BTEST (R237, R239): it never parks. -/
def execBtest (scope : BitVec 3) (d : Dst) (ka : BitVec 3) (b : Src) (s : State) : Host.Outcome State Fault Refusal :=
  runInstr 4 (do
    let _ := scope
    let v ← src b
    notLatent
    let k ← kreg ka
    let (r, o) ← barrierAt k
    require o.ok .barOvr (u64 r.addr)
    let ended := decide (o.phase ≠ v.toNat % 2 ^ 16)
    dst d (flag ended)
    endStep r o o.endTest
    if ended then acquire
    pure .next) s

/-- The bytes of a copy card added to the barrier at GLOBAL address `a` (R238), or the engine code (R324) of a step that
is not performed. The object's page must have R, W and A, and an object that R238 refuses, ill-formed or not, has code 0x20 (DESIGN
CHOICE, log 96). -/
def State.barrierAdd (s : State) (p t a n : Nat) : Except Nat State :=
  if a % 16 ≠ 0 then .error 0x22
  else
    match s.hwPlace p t a [1, 2, 4] with
    | none => .error (if s.hwBad p t a [1, 2, 4] then 0x05 else 0x22)
    | some (key, _, log) =>
      let s := s.fillFor key 16
      match (barOf (s.bytes key 16)).stepBytes n with
      | .done _ o => .ok ((s.performWrites p t log (writesAt key o.bytes) none).afterStep key)
      | _ => .error 0x20

end Sys2Proof.Machine
end

