-- ==== Sys2Proof/Machine/Card.lean ====
section
/-!
DEFINITION. Job cards (R317, R318): the engines and their queues (R319, R321), the scoreboards (R249), issue (R320), and
what every card checks before it acts and how it reads and writes memory (R322).
-/

namespace Sys2Proof.Machine

/-! ## Engines (R319) -/

/-- Number of the engine of a kind for core `c`: a cluster's copy engine, transform engine and ray unit, a die's collective
engine. -/
def engineFor (kind c : Nat) : Nat :=
  match kind with
  | 0 => clusterOf c
  | 1 => 100 + clusterOf c
  | 2 => 300 + dieOf c
  | _ => 200 + clusterOf c

/-- Number of the edge copy engine for core `c` (R319): core index mod 4 of its die. -/
def edgeFor (c : Nat) : Nat := 400 + 4 * dieOf c + c % 4

/-- The KIND that an engine takes. -/
def engineKind (e : Nat) : Nat := if e < 100 then 0 else if e < 200 then 1 else if e < 300 then 3 else if e < 400 then 2 else 0

/-- The number of an engine in an error record (R212). -/
def engineNo (e : Nat) : Nat := if 400 ≤ e then 5 else engineKind e

/-! ## Fields of a card (R317) -/

def Card.word0 (c : Card) : Nat := leAt c.bytes 0 8
def Card.kind (c : Card) : Nat := c.word0 % 16
def Card.mode (c : Card) : Nat := c.word0 / 16 % 16
def Card.role0 (c : Card) : Nat := c.word0 / 2 ^ 8 % 4
def Card.role1 (c : Card) : Nat := c.word0 / 2 ^ 10 % 4
def Card.cmpl (c : Card) : Nat := c.word0 / 2 ^ 12 % 4
/-- GLOBAL address of the completion object. -/
def Card.caddr (c : Card) : Nat := leAt c.bytes 8 8 / 16 * 16 % 2 ^ 52
/-- Body word `i`. -/
def Card.body (c : Card) (i : Nat) : Nat := leAt c.bytes (16 + 4 * i) 4

/-- Whether the card keeps R317. -/
def Card.formed (c : Card) : Bool :=
  let w1 := leAt c.bytes 8 8
  c.word0 / 2 ^ 32 == 0 && c.word0 / 2 ^ 14 % 4 == 0 && c.cmpl ≠ 3 && w1 / 2 ^ 52 == 0 && w1 % 16 == 0 && (c.cmpl ≠ 0 || w1 == 0)

/-- Whether SPACE of CAP0 or CAP1 names HOST or REMOTE (R319). -/
def edgeCaps (k0 k1 : Cap) : Bool := [k0, k1].any fun k => k.space == 4 || k.space == 5

/-! ## Scoreboards (R249) -/

/-- The part of [lo, hi) that lies in a window of `size` bytes at `base`, by its place in the window. -/
def windowPart (base size lo hi : Nat) : Option (Nat × Nat) :=
  let a := max base lo
  let b := min (base + size) hi
  if a < b then some (a - base, b - base) else none

/-- The regions that a capability declares for partition `p` and slot `g` (R318): a GLOBAL one by virtual address, and by
memory key where it lies in an alias window (R168); a REMOTE one by the number under which the scoreboards know it. -/
def State.regionsOf (s : State) (p g : Nat) (k : Cap) (write : Bool) : List Region :=
  let byKey := fun (key : Nat) => [({ global := false, lo := key + k.base, hi := key + k.top, write := write } : Region)]
  let win := fun (base size key : Nat) =>
    ((windowPart base size k.base k.top).map fun x => ({ global := false, lo := key + x.1, hi := key + x.2, write := write } : Region)).toList
  match k.space with
  | 0 =>
    ({ global := true, lo := k.base, hi := k.top, write := write } : Region) ::
      (win (s.partReg p 0x808).toNat (640 * 2 ^ 18) (2 ^ 61) ++ win (s.partReg p 0x809).toNat (80 * 2 ^ 25) (2 ^ 60))
  | 1 => byKey (2 ^ 60)
  | 2 => byKey (2 ^ 61)
  | 3 => byKey (privateKey g 0)
  | 4 => byKey (2 ^ 63)
  | 5 => byKey (remoteKey 0)
  | _ => []

/-- The regions of a card: those of its tagged capabilities with a role; a role of 3 reads and writes. -/
def State.cardRegions (s : State) (p g word0 : Nat) (k0 k1 : Cap) : List Region :=
  let one := fun (role : Nat) (k : Cap) => if role ≠ 0 ∧ k.tag then s.regionsOf p g k (decide (2 ≤ role)) else []
  one (word0 / 2 ^ 8 % 4) k0 ++ one (word0 / 2 ^ 10 % 4) k1

/-- The scoreboard of a region: the die scheduler's for GLOBAL, HOST and REMOTE space and for every region of a kind-1 card
(R326), else the core's; a HOST or REMOTE region of a slot's card stands with the GLOBAL ones (DESIGN CHOICE, log 95). -/
def Card.board (c : Card) (r : Region) : Bool × Nat :=
  if r.global || decide (2 ^ 63 ≤ r.lo) || c.issuer.isNone then (true, dieOf c.core) else (false, c.core)

/-- Whether two regions of two cards meet, one of them a write region (R249). -/
def regionsMeet (c d : Card) : Bool :=
  c.regions.any fun a => d.regions.any fun b =>
    c.board a == d.board b && a.global == b.global && (a.write || b.write) && decide (a.lo < b.hi) && decide (b.lo < a.hi) &&
      (!a.global || (c.tenant == d.tenant && c.part == d.part))

/-- Where the scoreboards see an access in flight: whether by GLOBAL address, first byte and length. -/
def Access.span (a : Access) : Option (Bool × Nat × Nat) :=
  let at' := fun (key n : Nat) => match a.va with | some va => (true, va, n) | none => (false, key, n)
  match a.kind with
  | .zpiece _ _ _ key n => some (at' key n)
  | .store => a.writes.head?.map fun w => at' w.1 a.writes.length
  | _ => none

/-- The accesses of slot `g` in flight that meet a region (R249). RST and messages to other packages have no such edge (R250). -/
def State.before (s : State) (g : Nat) (rs : List Region) : List Nat :=
  (s.flight.filter fun a => a.slot == g && !a.rst && (a.span.any fun x => rs.any fun r => r.meets x.1 x.2.1 x.2.2)).map Access.id

/-- Whether a head card may start (R249, R321): its guard is bound, what comes before it is performed or complete. -/
def State.cardReady (s : State) (c : Card) : Bool :=
  (c.guard.isNone || c.bound.isSome) && (c.holds.all fun h => !s.pending h) &&
    !(s.cards.any fun d => decide (d.id < c.id) && regionsMeet d c)

/-- Whether a card is to be discarded (R321). -/
def Card.discarded (c : Card) : Bool := match c.guard, c.bound with | some (_, sense), some v => v == sense | _, _ => false

/-! ## Issue (R320) -/

/-- The word of an ENG-format instruction as TVAL holds it (R52). -/
def engWord (func5 : Nat) (k : BitVec 3) (ge sense : Bool) (g : BitVec 4) : U64 :=
  BitVec.ofNat 64 (2 + 4 * 0x29 + 2 ^ 8 * k.toNat + 2 ^ 11 * g.toNat + (if sense then 2 ^ 15 else 0) + (if ge then 2 ^ 16 else 0) + 2 ^ 23 * func5)

/-- The card operand of an engine instruction: its memory key, whether its page keeps tags, its place and GLOBAL address. -/
def cardAt (k : Cap) (perm bits : List Nat) : Exec (Nat × Bool × Place × Nat) := do
  let v ← checkCap k k.cursor 64 { spaces := [0, 1, 2], perm := perm, align := 64 }
  let s ← get
  let w := s.who s.cur
  let p ← locate w k.space v 64 bits
  let s ← get
  match p with
  | .mem key c _ => pure (key, c, p, s.globalAddr w.part k.space v)
  | _ => pure (0, false, p, 0)

/-- The value a guard holds for a command at issue (R138). -/
def Slot.guardNow (x : Slot) (g : BitVec 4) : Option Bool :=
  match x.guards.get Guard.clear g.toNat with
  | .resolved v => some v
  | _ => none

/-- A queue of an engine with `c` put at its end. -/
def Engine.push (e : Engine) (cls : Nat) (c : Card) : Engine := { e with queues := e.queues.set [] cls (e.queues.get [] cls ++ [c]) }

/-- COPY, XFORM, COLL and TRACE (R320). The descriptor is read in a step of its own, and again while the queue that it goes to is full.
An issue that FENCE.rel holds blocks its slot (DESIGN CHOICE, log 94). -/
def issueCard (kind : Nat) (ka : BitVec 3) (ge sense : Bool) (g : BitVec 4) : Exec Flow := do
  roleIs (fun n => n ≠ 11) (engWord kind ka ge sense g)
  notLatent
  let k ← kreg ka
  let o ← inStep 0 (do
    let (key, c, p, addr) ← cardAt k [0, 1, 3] [1, 2]
    let s ← get
    await (decide ((s.cardsOf s.cur).length < 32))
    beforeRead p 64
    look { key := key, keep := c, va := match p with | .mem _ _ va => va | _ => none, addr := addr } 64)
  let (key, va, addr, bs) := (o.loc.key, o.loc.va, o.loc.addr, o.bytes)
  let s ← get
  let cap := fun (i : Nat) => ({ tag := o.tags.getD (i / 16) false, bits := BitVec.ofNat 128 (leAt bs i 16) } : Cap)
  let w := s.who s.cur
  let cls := s.classOf s.cur
  let e := if kind = 0 && edgeCaps (cap 32) (cap 48) then edgeFor w.core else engineFor kind w.core
  if ((s.engine e).queues.get [] cls).length ≥ 32 then readAgain
  let x ← getSlot
  let o : Issuer := { slot := s.cur, tid := x.tid, pc := x.pc, tenant := w.tenant, part := w.part, group := x.group }
  if (s.cardsOf s.cur).any fun d => d.addr == addr then do
    set (s.engineError o (engineNo e) 0x30 addr)
    forget
    pure .next
  else do
    releaseWait
    raiseLive x.group 1
    let bound := if ge then x.guardNow g else none
    let held := ge && bound.isNone
    homeReady (homeOf key)
    modify fun s => s.performWrites w.part w.tenant (va.map (· + 2)) [(key + 2, if held then 1#8 else 2#8)] none
    let id ← newNo
    let s ← get
    let rs := s.cardRegions w.part s.cur (leAt bs 0 8) (cap 32) (cap 48)
    let card : Card :=
      { id := id, engine := e, regions := rs, bytes := bs, cap0 := cap 32, cap1 := cap 48, addr := addr,
        issuer := some (s.cur, x.tid), core := w.core, tenant := w.tenant, part := w.part, cls := cls, group := x.group,
        guard := if ge then some (g.toNat, sense) else none, bound := bound, holds := s.before s.cur rs }
    set (s.modEngine e fun y => y.push cls card)
    forget
    pure .next

/-! ## What every card checks (R322) -/

/-- An access of a card: through CAP0 or CAP1, address, bytes, whether it writes, alignment. -/
structure CardAcc where
  cap : Nat
  v : Nat
  n : Nat
  write : Bool
  align : Nat := 1
  deriving DecidableEq, Repr

/-- Capability `i` of a card and its role. -/
def Card.cap (c : Card) (i : Nat) : Cap := if i = 0 then c.cap0 else c.cap1
def Card.role (c : Card) (i : Nat) : Nat := if i = 0 then c.role0 else c.role1

/-- Whether an access lies inside a declared region of its role (R318). -/
def Card.inside (c : Card) (a : CardAcc) : Bool :=
  [0, 1].any fun i =>
    let k := c.cap i
    (if a.write then decide (2 ≤ c.role i) else c.role i % 2 == 1) && k.space == (c.cap a.cap).space &&
      decide (k.base ≤ a.v) && decide (a.v + a.n ≤ k.top)

/-- A card as one that makes accesses: an engine translates by walks, page by page. -/
def Card.who (c : Card) : Who :=
  { part := c.part, tenant := c.tenant, core := c.core, slot := (c.issuer.map Prod.fst).getD 0, cached := false }

/-- The longest aligned access at `v` of at most 64 bytes and at most `n` (R322). -/
def pieceAt (v n : Nat) : Nat := ([64, 32, 16, 8, 4, 2].find? fun m => v % m == 0 && decide (m ≤ n)).getD 1

/-- [v, v + n) in aligned pieces of at most one line, `fuel` of them at most. -/
def linesOf : Nat → Nat → Nat → List (Nat × Nat)
  | 0, _, _ => []
  | fuel + 1, v, n => if n = 0 then [] else (v, pieceAt v n) :: linesOf fuel (v + pieceAt v n) (n - pieceAt v n)

/-- The pieces of an access, each aligned and within one line (R322): up to six before the first whole line, and six after the
last. -/
def CardAcc.lines (a : CardAcc) : List (Nat × Nat) := linesOf (a.n / 64 + 12) a.v a.n

/-- The engine code of a failed access (R324). -/
def stopCode : Stop → Nat
  | .trap .xlate _ => 0x18
  | .trap .xperm _ => 0x19
  | .trap .mcheck _ => 0x05
  | _ => 0x13

/-- The place of one piece of a card's access, by R145 and a walk (R322). -/
def State.cardPlace (s : State) (c : Card) (k : Cap) (v n : Nat) (write : Bool) : Except Nat Place :=
  match (locate c.who k.space v n [if write then 2 else 1]).run s with
  | .error e => .error (stopCode e)
  | .ok (p, _) => .ok p

/-- Whether an access names memory without translation, so that R145 is checked before anything is performed. -/
def State.direct (s : State) (c : Card) (a : CardAcc) : Bool :=
  let k := c.cap a.cap
  k.space ≠ 0 || (s.alias? c.part a.v).isSome

/-- The checks on a list of accesses, in the order of R322: regions, alignment, R145. -/
def State.checkAccs (s : State) (c : Card) (as : List CardAcc) : Option Nat :=
  if !as.all c.inside then some 0x13
  else if as.any fun a => a.v % a.align ≠ 0 then some 0x14
  else
    (as.filter (s.direct c)).findSome? fun a => a.lines.findSome? fun l =>
      match s.cardPlace c (c.cap a.cap) l.1 l.2 a.write with
      | .error e => if e = 0x19 then some e else none
      | .ok _ => none

/-! ## The work of a card, by stages (R322) -/

/-- The bytes of a card's buffer, and whether it holds them all. -/
def Card.take (c : Card) (pos n : Nat) : List Byte := (List.range n).map fun i => c.buf.get 0#8 (pos + i)
def Card.holdsAll (c : Card) (pos n : Nat) : Bool := (List.range n).all fun i => c.buf.any fun e => e.1 == pos + i

/-- Bytes put into a card's buffer. -/
def Card.put (c : Card) (pos : Nat) (bs : List Byte) : Card :=
  { c with buf := (List.range bs.length).foldl (fun (m : SMap Byte) i => m.put (pos + i) (bs.getD i 0#8)) c.buf }

/-- What a card does next: accesses that are checked with those of the stage, bytes that it forms, accesses with their place
in its buffer, the packages to which it sends its contribution and in how many flits (R336, R418), whether they are its last, and
then RESULT and the bytes written; whether it waits; a failure once they are sent. -/
structure Stage where
  extent : List CardAcc := []
  form : List (Nat × List Byte) := []
  accs : List (CardAcc × Nat) := []
  others : List Nat := []
  flits : Nat := 0
  last : Bool := false
  result : Nat := 0
  delivered : Nat := 0
  waits : Bool := false
  fails : Nat := 0
  deriving DecidableEq, Repr

/-- The accesses of a stage as those of the card, numbered from `id`. -/
def opsFrom (id : Nat) (as : List (CardAcc × Nat)) : List CardOp :=
  let ps := as.flatMap fun a => a.1.lines.map fun l => (a.1, l, a.2 + (l.1 - a.1.v))
  (List.range ps.length).zip ps |>.map fun x =>
    { id := id + x.1, cap := x.2.1.cap, v := x.2.2.1.1, n := x.2.2.1.2, write := x.2.1.write, pos := x.2.2.2 }

/-- A flit of a collective's contribution sent to package `pkg`, if a route leads there (R418): the card waits until it has
crossed. -/
def State.contribute (s : State) (c : Card) (pkg : Nat) : State :=
  let id := s.fresh
  match s.pathTo c.core (remoteHome pkg) with
  | [] => s
  | path =>
    let s : State := { s with fresh := s.fresh + 1, acks := s.acks ++ [{ id := id, owner := c.id, kind := .data }] }
    s.post id c.cls false noSlot (remoteHome pkg) path

/-- A stage begun: its accesses checked, and put behind those still to be performed (R322). -/
def State.beginStage (s : State) (c : Card) (g : Stage) : Card × State :=
  match s.checkAccs c (g.extent ++ g.accs.map Prod.fst) with
  | some e => ({ c with err := e }, s)
  | none =>
    let ops := opsFrom s.fresh g.accs
    let c := g.form.foldl (fun c f => c.put f.1 f.2) c
    ({ c with
        ops := c.ops ++ ops, stage := c.stage + 1, last := g.last, result := g.result, delivered := g.delivered
        waits := g.waits, started := if g.waits then s.now else c.started, err := g.fails },
      (g.others.flatMap (List.replicate g.flits)).foldl (fun (u : State) pkg => u.contribute c pkg)
        ({ s with fresh := s.fresh + ops.length } : State))

/-- Whether a card may begin its next stage: nothing that it has still to read, and before the count of a KV cache, which is its
last write (R335), nothing to write either. -/
def Card.stageDue (c : Card) : Bool :=
  c.err == 0 && !c.last && !c.waits && c.ops.all CardOp.write &&
    (!(c.kind == 1 && c.mode == 2 && c.stage == 1 + 2 * c.body 0) || c.ops.isEmpty)

/-! ## One access of a card -/

/-- A card that runs, replaced in its engine. -/
def State.putCard (s : State) (c : Card) : State :=
  s.modEngine c.engine fun x => { x with running := x.running.map fun d => if d.id = c.id then c else d }

/-- The accesses of a card before access `o` in its kind's order (R322). -/
def Card.before (c : Card) (o : CardOp) : List CardOp := c.ops.takeWhile fun x => x.id ≠ o.id

/-- The level of the leaf that translates a card's access to its place: 0 where none does (R164, R222). -/
def State.leafOf (s : State) (c : Card) (o : CardOp) (p : Place) : Nat :=
  match p, s.walk c.part c.tenant o.v with
  | .mem _ _ (some _), .leaf _ _ lvl => lvl
  | _, _ => 0

/-- An access sent to its home once those before it of its direction are, and what it writes is there, all that the card has been
owed having come (R322, R407); a place that fails fails the card. -/
def State.sendCardOp (s : State) (c : Card) (o : CardOp) : Option State :=
  if (c.before o).any (fun x => x.write == o.write && x.place.isNone) ||
      (o.write && (!c.holdsAll o.pos o.n || s.owed c.id)) then none
  else
    match s.cardPlace c (c.cap o.cap) o.v o.n o.write with
    | .error e => some (s.putCard { c with err := e, ops := c.ops.filter fun x => x.id ≠ o.id })
    | .ok p =>
      let s := s.putCard
        { c with ops := c.ops.map fun x => if x.id = o.id then { x with place := some p, lvl := s.leafOf c o p } else x }
      some (s.post o.id c.cls false noSlot p.home (s.pathTo c.core p.home))

/-- The home of a card's access: where it was sent, or where it would be sent now. -/
def State.opHome (s : State) (c : Card) (o : CardOp) : Option Nat :=
  match o.place, s.cardPlace c (c.cap o.cap) o.v o.n o.write with
  | some p, _ => some p.home
  | none, .ok p => some p.home
  | none, .error _ => none

/-- The response of a card's access, on its way from home `h` (R407): the card waits for it. -/
def State.answerCard (s : State) (c : Card) (h : Nat) : State := s.respond h c.core c.cls (s.pathFrom h c.core) (some (c.id, .data))

/-- An access performed at its home: the card with what it reads, or its failure there, and the state (R322, R428, R420; what
another package answers is free, log 6). -/
def State.atHome (s : State) (c : Card) (o : CardOp) (p : Place) : Card × State :=
  let c := { c with ops := c.ops.filter fun x => x.id ≠ o.id }
  match p with
  | .mem key _ va =>
    if s.hostGone key then ({ c with err := 0x05 }, s)
    else if o.write then (c, s.performWrites c.part c.tenant va (writesAt key (c.take o.pos o.n)) none)
    else
      let s := s.fillFor key o.n
      if (s.poisonIn key o.n).isSome then ({ c with err := 0x05 }, s) else (c.put o.pos (s.bytes key o.n), s)
  | .device _ => (c, s)
  | .remote cur =>
    let f := Config.remoteFate s.tick
    let d := Config.remoteData s.tick
    let s := { s with tick := s.tick + 1 }
    if !s.routeUp (dieOf c.core) (cur / 2 ^ 43) || f == 3 then ({ c with err := 0x05 }, s)
    else if f == 1 then ({ c with err := 0x18 }, s)
    else if f == 2 then ({ c with err := 0x19 }, s)
    else (if o.write then c else c.put o.pos (toBytes o.n d), s)

/-- An access performed at its home, and its response on the way (R322, R407). -/
def State.performCardOp (s : State) (c : Card) (o : CardOp) (p : Place) : Card × State :=
  let r := s.atHome c o p
  (r.1, r.2.answerCard c p.home)

/-- Whether an access that was sent may be performed: it has arrived, its home performs accesses, and none before it goes
there (R322). -/
def State.cardOpDue (s : State) (c : Card) (o : CardOp) (p : Place) : Bool :=
  !s.crossing o.id && !s.homeHeld p.home && s.threadFree c.core p.home false &&
    !((c.before o).any fun x => s.opHome c x == some p.home)

end Sys2Proof.Machine
end

