-- ==== Sys2Proof/Machine/Ray.lean ====
section
/-!
DEFINITION. TRACE cards: rays through a bounding volume hierarchy (R338, R339). Every operation is one FP32 rounding
to nearest even; engines set no flags.
-/

namespace Sys2Proof.Machine

/-! ## FP32 arithmetic -/

def add32 (x y : Nat) : Nat := (fpAdd fp32 rneMode (Fp.ofBits fp32 x) (Fp.ofBits fp32 y)).bits
def sub32 (x y : Nat) : Nat := (fpSub fp32 rneMode (Fp.ofBits fp32 x) (Fp.ofBits fp32 y)).bits
def mul32 (x y : Nat) : Nat := (fpMul fp32 rneMode (Fp.ofBits fp32 x) (Fp.ofBits fp32 y)).bits
def rcp32 (x : Nat) : Nat := (fpRcp fp32 rneMode (Fp.ofBits fp32 x)).bits
def lt32 (x y : Nat) : Bool := fpLt (Fp.ofBits fp32 x) (Fp.ofBits fp32 y)
def eq32 (x y : Nat) : Bool := fpEq (Fp.ofBits fp32 x) (Fp.ofBits fp32 y)
def le32 (x y : Nat) : Bool := lt32 x y || eq32 x y
def nan32 (x : Nat) : Bool := (Fp.ofBits fp32 x).isNan
def min32 (x y : Nat) : Nat := if lt32 y x then y else x
def max32 (x y : Nat) : Nat := if lt32 x y then y else x
/-- +infinity and -infinity. -/
def posInf : Nat := 0x7F800000
def negInf : Nat := 0xFF800000

/-- A vector of three FP32 values. -/
abbrev Vec3 := Nat × Nat × Nat

def vsub (a b : Vec3) : Vec3 := (sub32 a.1 b.1, sub32 a.2.1 b.2.1, sub32 a.2.2 b.2.2)
/-- `cross` of R339. -/
def vcross (a b : Vec3) : Vec3 :=
  let f := fun (p q r s : Nat) => sub32 (mul32 p q) (mul32 r s)
  (f a.2.1 b.2.2 a.2.2 b.2.1, f a.2.2 b.1 a.1 b.2.2, f a.1 b.2.1 a.2.1 b.1)
/-- `dot` of R339. -/
def vdot (a b : Vec3) : Nat := add32 (add32 (mul32 a.1 b.1) (mul32 a.2.1 b.2.1)) (mul32 a.2.2 b.2.2)

/-! ## Records (R338) -/

/-- The FP32 value at byte `i` of a record, and three of them. -/
def f32At (bs : List Byte) (i : Nat) : Nat := leAt bs i 4
def vecAt (bs : List Byte) (i : Nat) : Vec3 := (f32At bs i, f32At bs (i + 4), f32At bs (i + 8))

/-- A ray. -/
structure RayRec where
  o : Vec3
  tmin : Nat
  d : Vec3
  tmax : Nat
  deriving DecidableEq, Repr

def rayOf (bs : List Byte) : RayRec := { o := vecAt bs 0, tmin := f32At bs 12, d := vecAt bs 16, tmax := f32At bs 28 }

/-- A hit record. -/
structure Hit where
  t : Nat
  prim : Nat
  u : Nat
  v : Nat
  deriving DecidableEq, Repr

def Hit.bytes (h : Hit) : List Byte := toBytes 4 h.t ++ toBytes 4 h.prim ++ toBytes 4 h.u ++ toBytes 4 h.v

/-- The miss record (R339): t is +infinity. -/
def missRec : Hit := { t := posInf, prim := 0xFFFF_FFFF, u := 0, v := 0 }

/-- Why a traversal cannot go on: it fails with a code, or it has still to read `n` bytes, aligned, at an offset from node 0. -/
inductive Stuck where
  | code (e : Nat)
  | need (off n align : Nat)
  deriving DecidableEq, Repr

/-- What a traversal finds of a structure of the hierarchy. -/
abbrev Look := Except Stuck (List Byte)

/-! ## One triangle and one box (R339) -/

/-- A triangle's test against a ray whose best distance is `best`: the hit, if it hits. -/
def triangleHit (r : RayRec) (cull : Bool) (best : Nat) (bs : List Byte) : Option Hit :=
  let v0 := vecAt bs 0
  let e1 := vsub (vecAt bs 12) v0
  let e2 := vsub (vecAt bs 24) v0
  let s := vsub r.o v0
  let p := vcross r.d e2
  let det := vdot e1 p
  if eq32 det 0 || nan32 det || (cull && lt32 det 0) then none
  else
    let inv := rcp32 det
    let u := mul32 (vdot s p) inv
    let q := vcross s e1
    let v := mul32 (vdot r.d q) inv
    let t := mul32 (vdot e2 q) inv
    if le32 0 u && le32 0 v && le32 (add32 u v) c1 && le32 r.tmin t && le32 t best then
      some { t := t, prim := leAt bs 36 4, u := u, v := v }
    else none

/-- A hit kept if it is nearer, or as near with a lower PRIM (R339); whether it replaced. -/
def Hit.better (best h : Hit) : Bool := lt32 h.t best.t || (eq32 h.t best.t && decide (h.prim < best.prim))

/-- Entry and exit of one axis of a box: a NaN counts as -infinity and +infinity. -/
def slab (lo hi o inv : Nat) : Nat × Nat :=
  let a := mul32 (sub32 lo o) inv
  let b := mul32 (sub32 hi o) inv
  if nan32 a || nan32 b then (negInf, posInf) else (min32 a b, max32 a b)

/-- Where a ray enters a box, if it does. -/
def enters (r : RayRec) (inv : Vec3) (best : Nat) (lo hi : Vec3) : Option Nat :=
  let x := slab lo.1 hi.1 r.o.1 inv.1
  let y := slab lo.2.1 hi.2.1 r.o.2.1 inv.2.1
  let z := slab lo.2.2 hi.2.2 r.o.2.2 inv.2.2
  let tn := max32 (max32 (max32 r.tmin x.1) y.1) z.1
  let tf := min32 (min32 (min32 best x.2) y.2) z.2
  if le32 tn tf then some tn else none

/-! ## Traversal (R339) -/

/-- A stack entry: a node, or a leaf with its first triangle and their count. -/
inductive BvhItem where
  | node (i : Nat)
  | leaf (first count : Nat)
  deriving DecidableEq, Repr

/-- A list of children in the order in which they pop: by entry distance, then by number. -/
def insertChild (x : Nat × BvhItem) : List (Nat × BvhItem) → List (Nat × BvhItem)
  | [] => [x]
  | y :: ys => if lt32 x.1 y.1 then x :: y :: ys else y :: insertChild x ys

/-- The children of a node that a ray enters, nearest first; the code 0x01 for a malformed CHILD or a reserved byte. -/
def childrenOf (r : RayRec) (inv : Vec3) (best : Nat) (bs : List Byte) : Except Stuck (List (Nat × BvhItem)) :=
  if leAt bs 112 16 ≠ 0 then .error (.code 0x01)
  else
    (List.range 4).foldl (fun acc c =>
      match acc with
      | .error e => .error e
      | .ok l =>
        let w := leAt bs (96 + 4 * c) 4
        match w / 2 ^ 30 with
        | 0 => .ok l
        | 3 => .error (.code 0x01)
        | k =>
          let item := if k = 1 then BvhItem.node (w % 2 ^ 30) else BvhItem.leaf (w / 16 % 2 ^ 26) (w % 16 + 1)
          match enters r inv best (vecAt bs (24 * c)) (vecAt bs (24 * c + 12)) with
          | some tn => .ok (insertChild (tn, item) l)
          | none => .ok l) (.ok [])

/-- Triangles `i`, `i + 1`, … of a leaf tested in order: the best hit, and whether the ray ends there. A reserved byte of a
triangle that is not 0 fails the card with 0x01 (DESIGN CHOICE, log 81). -/
def testLeaf (tri : Nat → Look) (r : RayRec) (any cull : Bool) : Nat → Nat → Hit → Except Stuck (Hit × Bool)
  | 0, _, best => .ok (best, false)
  | n + 1, i, best =>
    match tri i with
    | .error e => .error e
    | .ok bs =>
      if leAt bs 40 8 ≠ 0 then .error (.code 0x01)
      else
        match triangleHit r cull best.t bs with
        | some h =>
          if best.better h then (if any then .ok (h, true) else testLeaf tri r any cull n (i + 1) h)
          else testLeaf tri r any cull n (i + 1) best
        | none => testLeaf tri r any cull n (i + 1) best

/-- The traversal from a stack, with the number of nodes visited so far. -/
def traverse (node tri : Nat → Look) (r : RayRec) (inv : Vec3) (any cull : Bool) :
    Nat → Nat → List BvhItem → Hit → Except Stuck Hit
  | 0, _, _, _ => .error (.code 0x41)
  | _ + 1, _, [], best => .ok best
  | fuel + 1, seen, .leaf i n :: st, best =>
    match testLeaf tri r any cull n i best with
    | .error e => .error e
    | .ok (h, true) => .ok h
    | .ok (h, false) => traverse node tri r inv any cull fuel seen st h
  | fuel + 1, seen, .node i :: st, best =>
    if 2 ^ 20 ≤ seen then .error (.code 0x41)
    else
      match node i with
      | .error e => .error e
      | .ok bs =>
        match childrenOf r inv best.t bs with
        | .error e => .error e
        | .ok cs =>
          let st := cs.map Prod.snd ++ st
          if st.length > 64 then .error (.code 0x40) else traverse node tri r inv any cull fuel (seen + 1) st best

/-- One ray (R339): its hit record, and whether it hits. At most 5 pops follow each node, so the fuel never runs out
before the bound on nodes. -/
def traceRay (node tri : Nat → Look) (any cull : Bool) (r : RayRec) : Except Stuck (Hit × Bool) :=
  let bad := [r.o.1, r.o.2.1, r.o.2.2, r.tmin, r.d.1, r.d.2.1, r.d.2.2, r.tmax].any nan32 || lt32 r.tmax r.tmin
  if bad then .ok (missRec, false)
  else
    let inv : Vec3 := (rcp32 r.d.1, rcp32 r.d.2.1, rcp32 r.d.2.2)
    match traverse node tri r inv any cull (6 * 2 ^ 20) 0 [.node 0] { missRec with t := r.tmax } with
    | .error e => .error e
    | .ok h => if h.prim = 0xFFFF_FFFF ∧ h.t = r.tmax then .ok (missRec, false) else .ok (h, true)

/-- Rays in index order: hit records and hits. -/
def traceAll (node tri : Nat → Look) (any cull : Bool) : List RayRec → Except Stuck (List Hit × Nat)
  | [] => .ok ([], 0)
  | r :: rs =>
    match traceRay node tri any cull r with
    | .error e => .error e
    | .ok (h, hit) =>
      match traceAll node tri any cull rs with
      | .error e => .error e
      | .ok (hs, n) => .ok (h :: hs, (if hit then 1 else 0) + n)

/-! ## The card (R338) -/

/-- Whether the body of a TRACE card keeps its rule. -/
def traceBody (role0 role1 b0 b1 b2 b3 : Nat) : Bool :=
  role0 == 1 && role1 == 3 && decide (1 ≤ b0) && decide (b0 ≤ 4096) && b1 % 16 == 0 && b2 % 16 == 0 && decide (b3 < 4)

/-- Where the hierarchy stands in the buffer of a TRACE card, by offset from node 0. -/
def bvhAt (off : Nat) : Nat := 2 ^ 40 + off

/-- A structure of the hierarchy as the card has read it, or the need of it. -/
def Card.bvh (c : Card) (off n align : Nat) : Look :=
  if c.holdsAll (bvhAt off) n then .ok (c.take (bvhAt off) n) else .error (.need off n align)

/-- A stage of a TRACE card (R338, R339): the rays, then each node and triangle that they reach, then every hit record. -/
def Card.traceStage (c : Card) : Except Nat Stage :=
  let n := c.body 0
  let tri := c.body 1
  let hitAcc := fun (j : Nat) => ({ cap := 1, v := c.cap1.cursor + c.body 2 + 16 * j, n := 16, write := true, align := 16 } : CardAcc)
  if c.stage = 0 then
    .ok { extent := (List.range n).map hitAcc
          accs := (List.range n).map fun j => ({ cap := 1, v := c.cap1.cursor + 32 * j, n := 32, write := false, align := 32 }, 32 * j) }
  else
    let rays := (List.range n).map fun j => rayOf (c.take (32 * j) 32)
    match traceAll (fun i => c.bvh (128 * i) 128 128) (fun j => c.bvh (tri + 48 * j) 48 16) (decide (c.body 3 % 2 = 1))
        (decide (c.body 3 / 2 % 2 = 1)) rays with
    | .error (.code e) => .error e
    | .error (.need off m align) =>
      .ok { accs := [({ cap := 0, v := c.cap0.cursor + off, n := m, write := false, align := align }, bvhAt off)] }
    | .ok (hs, k) =>
      .ok { form := [(2 ^ 32, hs.flatMap Hit.bytes)]
            accs := (List.range n).map fun j => (hitAcc j, 2 ^ 32 + 16 * j)
            last := true, result := k, delivered := 16 * n }

end Sys2Proof.Machine
end

