-- ==== Sys2Proof/Machine/VPermute.lean ====
section
/-!
DEFINITION. Permutes and reductions: major VPERM (R281, R282).
-/

namespace Sys2Proof.Machine

/-- VBCAST (R281). -/
def execVbcast (p : Option Pfx) (et : BitVec 3) (d : BitVec 5) (a : Src) (s : State) : Host.Outcome State Fault Refusal :=
  runInstr (pairLen p) (do
    let v ← src a
    lanesHeld (wordVal (encode (.vbcast p et d a)))
    mapElems (pfxOf p) (etBits et) d fun _ _ => ⟨v.toNat % 2 ^ etBits et, 0#6⟩
    pure .next) s

/-- An element as a scalar: sign-extended for integers, zero-extended for floating types (R281). -/
def elemScalar (et : BitVec 3) (v : Nat) : U64 := if etInt et then sext64 v (etBits et) else BitVec.ofNat 64 v

/-- VEXT (R281). -/
def execVext (p : Option Pfx) (et : BitVec 3) (d : Dst) (a : BitVec 5) (b : Src) (s : State) : Host.Outcome State Fault Refusal :=
  runInstr (pairLen p) (do
    let v ← src b
    lanesHeld (wordVal (encode (.vext p et d a b)))
    let x ← getSlot
    let w := etBits et
    let i := v.toNat
    dst d (if i < x.count w ∧ x.enabled (pfxOf p) w i = true then elemScalar et (x.elem a w i) else 0#64)
    pure .next) s

/-- VINS (R281): nothing but element B changes. -/
def execVins (p : Option Pfx) (et : BitVec 3) (d : BitVec 5) (a b : Src) (s : State) : Host.Outcome State Fault Refusal :=
  runInstr (pairLen p) (do
    let v ← src a
    let n ← src b
    lanesHeld (wordVal (encode (.vins p et d a b)))
    let x ← getSlot
    let w := etBits et
    let i := n.toNat
    if i < x.count w ∧ x.enabled (pfxOf p) w i = true then
      modSlot fun y => { y with v := y.v.set 0#8192 d.toNat (putBits (y.vreg d.toNat) (w * i) w v.toNat) }
    pure .next) s

/-- VIOTA (R281). -/
def execViota (p : Option Pfx) (et : BitVec 3) (d : BitVec 5) (s : State) : Host.Outcome State Fault Refusal :=
  runInstr (pairLen p) (do
    lanesHeld (wordVal (encode (.viota p et d)))
    mapElems (pfxOf p) (etBits et) d fun _ i => ⟨i % 2 ^ etBits et, 0#6⟩
    pure .next) s

/-- VSHUF (R281). -/
def execVshuf (p : Option Pfx) (et : BitVec 3) (d a b : BitVec 5) (s : State) : Host.Outcome State Fault Refusal :=
  runInstr (pairLen p) (do
    lanesHeld (wordVal (encode (.vshuf p et d a b)))
    let q := pfxOf p
    let w := etBits et
    mapElems q w d fun x i =>
      let j := x.elem b w i
      let el := x.count w
      ⟨if j < el then x.elem a w j else if q.f4e ∧ j < 2 * el then x.elem q.f4 w (j - el) else 0, 0#6⟩
    pure .next) s

/-! ## Reductions (R282) -/

/-- The members of the reductions. -/
inductive RedOp where
  | sum | max | min
  deriving DecidableEq, Repr

/-- An integer reduction of the enabled elements, of `n` bits. -/
def reduceInt (op : RedOp) (n : Nat) (vs : List Int) : Int :=
  match op with
  | .sum => vs.foldl (fun a v => a + v) 0
  | .max => vs.foldl max (-(2 ^ (n - 1) : Nat))
  | .min => vs.foldl min ((2 ^ (n - 1) : Nat) - 1)

/-- One step of the tree: element `i` combined with element `i + P`; an absent value passes the other. -/
def combine (f : Fmt) (a b : Option Nat) : Option Nat × Flags :=
  match a, b with
  | some x, some y =>
    let r := fpAdd f rneMode (Fp.ofBits f x) (Fp.ofBits f y)
    (some r.bits, r.fl)
  | some x, none => (some x, 0#6)
  | none, y => (y, 0#6)

/-- The fixed tree of a floating sum: `k` levels over 2^k elements, with the flags. -/
def sumTree (f : Fmt) : Nat → List (Option Nat) → Flags → Option Nat × Flags
  | 0, es, fl => (es.getD 0 none, fl)
  | k + 1, es, fl =>
    let rs := (List.range (2 ^ k)).map fun i => combine f (es.getD i none) (es.getD (i + 2 ^ k) none)
    sumTree f k (rs.map Prod.fst) (rs.foldl (fun a r => a ||| r.2) fl)

/-- A floating reduction of the elements, absent where they are not enabled. -/
def reduceFp (op : RedOp) (f : Fmt) (es : List (Option Nat)) : FRes :=
  let fold := fun (g : Fmt → Rnd → Fp → Fp → FRes) (neg : Bool) =>
    (es.filterMap id).foldl (fun (a : FRes) v =>
      let r := g f rneMode (Fp.ofBits f a.bits) (Fp.ofBits f v)
      ⟨r.bits, a.fl ||| r.fl⟩) (f.infRes rneMode neg 0#6)
  match op with
  | .max => fold fpMax true
  | .min => fold fpMin false
  | .sum =>
    let r := sumTree f (bitLen (es.length - 1)) es 0#6
    ⟨r.1.getD 0, r.2⟩

/-- A reduction (R281, R282). -/
def reduce (op : RedOp) (p : Option Pfx) (et : BitVec 3) (d : Dst) (a : BitVec 5) (tval : U64) : Exec Flow := do
  lanesHeld tval
  let x ← getSlot
  let w := etBits et
  let es := (List.range (x.count w)).map fun i => if x.enabled (pfxOf p) w i then some (x.elem a w i) else none
  if etInt et then
    dst d (u64 (reduceInt op w ((es.filterMap id).map fun v => signed v w)))
  else
    let r := reduceFp op (etFmt et) es
    setFlags r.fl
    dst d (BitVec.ofNat 64 r.bits)
  pure .next

/-- VREDSUM (R282). -/
def execVredsum (p : Option Pfx) (et : BitVec 3) (d : Dst) (a : BitVec 5) (s : State) : Host.Outcome State Fault Refusal :=
  runInstr (pairLen p) (reduce .sum p et d a (wordVal (encode (.vredsum p et d a)))) s
/-- VREDMAX (R282). -/
def execVredmax (p : Option Pfx) (et : BitVec 3) (d : Dst) (a : BitVec 5) (s : State) : Host.Outcome State Fault Refusal :=
  runInstr (pairLen p) (reduce .max p et d a (wordVal (encode (.vredmax p et d a)))) s
/-- VREDMIN (R282). -/
def execVredmin (p : Option Pfx) (et : BitVec 3) (d : Dst) (a : BitVec 5) (s : State) : Host.Outcome State Fault Refusal :=
  runInstr (pairLen p) (reduce .min p et d a (wordVal (encode (.vredmin p et d a)))) s

end Sys2Proof.Machine
end

