-- ==== Sys2Proof/Machine/Transfer.lean ====
section
/-!
DEFINITION. What COPY, XFORM and COLL cards do once their capabilities have passed: the four transfers (R327, R328),
compression, expansion, KV append and codebook loads (R329 to R335), and collectives (R336, R337).
-/

namespace Sys2Proof.Machine

/-! ## COPY (R327) -/

/-- Whether the body of a COPY card keeps its rule. -/
def copyBody (mode role0 role1 b0 b1 b2 b3 : Nat) : Bool :=
  match mode with
  | 0 => role0 == 1 && role1 == 2 && decide (1 ≤ b0) && decide (b0 ≤ 2 ^ 24) && b1 == 0 && b2 == 0 && b3 == 0
  | 1 => role0 == 1 && role1 == 2 && decide (b0 * b1 ≤ 2 ^ 24) && (decide (b1 ≤ 1) || decide (b0 ≤ b3))
  | 2 => role0 == 1 && role1 == 3 && decide (b0 ≤ 4) && decide (1 ≤ b1) && decide (b1 ≤ 2 ^ 20) && decide (b1 * 2 ^ b0 ≤ 2 ^ 24) && b3 == 0
  | 3 => role0 == 3 && role1 == 2 && decide (b0 ≤ 4) && decide (1 ≤ b1) && decide (b1 ≤ 2 ^ 20) && decide (b1 * 2 ^ b0 ≤ 2 ^ 24) && b3 == 0
  | _ => false

/-- `n` bytes moved from `a` to `b`, byte by byte in rising order (R327), in pieces that are aligned at both, `fuel` of them at
most; each piece is read and then written, at `pos` of the buffer (DESIGN CHOICE, log 91). -/
def moveOf : Nat → Nat → Nat → Nat → Nat → Nat → List (CardAcc × Nat)
  | 0, _, _, _, _, _ => []
  | fuel + 1, align, a, b, n, pos =>
    if n = 0 then []
    else
      let m := min (pieceAt a n) (pieceAt b n)
      ({ cap := 0, v := a, n := m, write := false, align := align }, pos) ::
        ({ cap := 1, v := b, n := m, write := true, align := align }, pos) :: moveOf fuel align (a + m) (b + m) (n - m) (pos + m)

/-- The moves of a COPY card once its index words are read (R327): `n` elements of `z` bytes, element `j` between the two
addresses that `src` and `dst` give, aligned to `align`. An element that breaks its alignment is one access, for R322's check. -/
def moves (n z align : Nat) (src dst : Nat → Nat) : List (CardAcc × Nat) :=
  (List.range n).flatMap fun j =>
    if src j % align ≠ 0 ∨ dst j % align ≠ 0 then
      [({ cap := 0, v := src j, n := z, write := false, align := align }, 2 ^ 32 + j * z),
        ({ cap := 1, v := dst j, n := z, write := true, align := align }, 2 ^ 32 + j * z)]
    else moveOf z align (src j) (dst j) z (2 ^ 32 + j * z)

/-- A stage of a COPY card (R327, R328): the index words of a gather or scatter first, then every element, each piece read and
then written. -/
def Card.copyStage (c : Card) : Stage :=
  let b := c.body
  let c0 := c.cap0.cursor
  let c1 := c.cap1.cursor
  let z := 2 ^ b 0
  let all := fun (n : Nat) (m : List (CardAcc × Nat)) => ({ accs := m, last := true, result := n, delivered := n } : Stage)
  let words := fun (cap v : Nat) => ({ accs := [({ cap := cap, v := v, n := 4 * b 1, write := false, align := 4 }, 0)] } : Stage)
  let index := fun (j : Nat) => leAt (c.take (4 * j) 4) 0 4
  match c.mode, c.stage with
  | 0, _ => all (b 0) (moves 1 (b 0) 1 (fun _ => c0) fun _ => c1)
  | 1, _ => all (b 0 * b 1) (moves (b 1) (b 0) 1 (fun r => c0 + r * b 2) fun r => c1 + r * b 3)
  | 2, 0 => words 1 c1
  | 2, _ => all (b 1 * z) (moves (b 1) z z (fun j => c0 + index j * z) fun j => c1 + b 2 + j * z)
  | _, 0 => words 0 c0
  | _, _ => all (b 1 * z) (moves (b 1) z z (fun j => c0 + b 2 + j * z) fun j => c1 + index j * z)

/-! ## XFORM (R333) -/

/-- Whether the body of an XFORM card keeps its rule (R329, R333, R335). -/
def xformBody (mode role0 role1 b0 b1 b2 b3 : Nat) : Bool :=
  match mode with
  | 0 =>
    role0 == 1 && role1 == 2 && b0 % 256 == 0 && decide (256 ≤ b0) && decide (b0 ≤ 2 ^ 24) && (hdrByte (b1 % 256)).isSome &&
      b1 / 2 ^ 12 % 16 == 0 && b1 / 2 ^ 16 ≠ 0 && b2 == 0 && b3 == 0
  | 1 => role0 == 1 && role1 == 2 && b0 == 0 && b1 == 0 && b2 == 0 && b3 == 0
  | 2 => role0 == 1 && role1 == 3 && decide (1 ≤ b0) && decide (b0 ≤ 4096) && b1 == 0 && b2 == 0 && b3 == 0
  | 3 => role0 == 1 && role1 == 0 && decide (b0 < 16) && decide (1 ≤ b1) && decide (b1 < 2 ^ 16) && b2 == 0 && b3 == 0
  | _ => false

/-- Tiles coded in order: the bytes of those before the first that cannot be, and its code, 0 when there is none. -/
def codeTiles (book : Option (List Byte)) (lossy : Bool) : Nat → List Byte → List Byte × Nat
  | 0, _ => ([], 0)
  | n + 1, bs =>
    match codeTile book lossy (bs.take 256) with
    | .error e => ([], e)
    | .ok t =>
      let r := codeTiles book lossy n (bs.drop 256)
      (t ++ r.1, r.2)

/-- A stage of a compression (R330, R333): the input, then the header and the tiles. Its write region must hold the longest
stream; the card reaches only the pages of the stream that it writes. -/
def State.compressStage (s : State) (c : Card) : Except Nat Stage :=
  let n := c.body 0 / 256
  let b1 := c.body 1
  let slot := b1 / 2 ^ 8 % 16
  let gen := b1 / 2 ^ 16
  if c.stage = 0 then
    if !c.inside { cap := 1, v := c.cap1.cursor, n := 64 + 160 * n, write := true } then .error 0x13
    else .ok { accs := [({ cap := 0, v := c.cap0.cursor, n := c.body 0, write := false }, 0)] }
  else
    let (out, e) := codeTiles (s.codebook c.part (dieOf c.core) slot gen) (decide (b1 / 64 % 2 = 1)) n (c.take 0 (c.body 0))
    let all := hdrBytes (b1 % 256) slot gen n ++ out
    .ok { form := [(2 ^ 32, all)], accs := [({ cap := 1, v := c.cap1.cursor, n := all.length, write := true }, 2 ^ 32)], last := true,
          result := all.length, delivered := all.length, fails := e }

/-- The die at which a capability's memory stands. -/
def State.dieOfCap (s : State) (c : Card) (k : Cap) : Nat :=
  match s.cardPlace c k k.cursor 1 false with
  | .ok p => dieOfHome p.home % 4
  | .error _ => dieOf c.core

/-- Where the expanded bytes of tile `k` stand in the buffer of an expansion. -/
def tileAt (k : Nat) : Nat := 2 ^ 40 + 256 * k

/-- The first tile that an expansion has not taken, of `n` from tile `k` at byte `off` of the stream: its number and place. -/
def Card.nextTile (c : Card) : Nat → Nat → Nat → Nat × Nat
  | 0, k, off => (k, off)
  | n + 1, k, off =>
    if c.holdsAll (tileAt k) 1 then Card.nextTile c n (k + 1) (off + ((tileLength (c.take off 2)).getD 0)) else (k, off)

/-- Bytes of the stream that an expansion reads next; those beyond its read region are no part of the stream (R329). -/
def Card.streamPart (c : Card) (off n : Nat) : Except Nat Stage :=
  let a : CardAcc := { cap := 0, v := c.cap0.cursor + off, n := n, write := false }
  if c.inside a then .ok { accs := [(a, off)] } else .error 0x28

/-- A stage of an expansion (R331, R333): the header, and for each tile its first 16 bytes, the rest of it, and its 256 bytes
written. A stream that passes unchanged is written once its last tile is known. -/
def State.expandStage (s : State) (c : Card) : Except Nat Stage :=
  let write := fun (pos off n : Nat) => (({ cap := 1, v := c.cap1.cursor + off, n := n, write := true } : CardAcc), pos)
  if c.stage = 0 then .ok { accs := [({ cap := 0, v := c.cap0.cursor, n := 64, write := false }, 0)] }
  else
    match bufHdrOf (c.take 0 64) with
    | none => .error 0x28
    | some h =>
      let a := s.levelOf c.part c.cap0
      let b := s.levelOf c.part c.cap1
      let l := max a h.point
      let walk := decide (b < l)
      let die := expanderDie l a (s.dieOfCap c c.cap0) (if l = b then s.dieOfCap c c.cap1 else dieOf c.core)
      let (k, off) := c.nextTile h.tiles 0 64
      if k = h.tiles then
        if walk then .ok { accs := [write 0 0 off], last := true, result := off, delivered := off }
        else .ok { last := true, result := 256 * h.tiles, delivered := 256 * h.tiles }
      else if !walk && k == 0 && !c.inside { cap := 1, v := c.cap1.cursor, n := 256 * h.tiles, write := true } then .error 0x13
      else if !c.holdsAll off 16 then c.streamPart off 16
      else
        match tileLength (c.take off 16) with
        | none => .error 0x28
        | some n =>
          if !c.holdsAll off n then c.streamPart (off + 16) (n - 16)
          else
            match decodeTile walk (s.codebook c.part die h.slot h.gen) (c.take off n) with
            | .error e => .error e
            | .ok (out, _) =>
              if walk then .ok { form := [(tileAt k, [0#8])] }
              else .ok { form := [(tileAt k, out)], accs := [write (tileAt k) (256 * k) 256] }

/-! ## KV append (R335) -/

/-- A KV cache's header: tokens, channels, window, format. -/
structure KvHdr where
  n : Nat
  ch : Nat
  win : Nat
  fmt : Nat
  deriving DecidableEq, Repr

/-- The header in 64 bytes; none when it is ill-formed. -/
def kvHdrOf (bs : List Byte) : Option KvHdr :=
  let h : KvHdr := { n := leAt bs 0 8, ch := leAt bs 8 4, win := leAt bs 12 2, fmt := leAt bs 14 1 }
  if h.ch % 32 = 0 ∧ 32 ≤ h.ch ∧ h.ch ≤ 8192 ∧ 1 ≤ h.win ∧ h.win ≤ 4096 ∧ (h.fmt = 3 ∨ h.fmt = 5) ∧ leAt bs 15 49 = 0 then
    some h
  else none

/-- Bytes of a quantised token. -/
def KvHdr.bytes (h : KvHdr) : Nat := if h.fmt = 3 then h.ch else 17 * h.ch / 32

/-- A window token quantised with the channel scales (R335). -/
def KvHdr.quantise (h : KvHdr) (scales tok : List Byte) : List Byte :=
  let ys := (List.range h.ch).map fun i =>
    (fpDiv fp32 rneMode (Fp.ofBits bf16 (leAt tok (2 * i) 2)) (Fp.ofBits fp32 (leAt scales (4 * i) 4))).bits
  if h.fmt = 3 then ys.flatMap fun y => toBytes 1 (fpConvert fp32 e4m3 { mode := 0, sat := true } y).bits
  else
    (runs32 (h.ch / 32) ys).flatMap fun b =>
      let q := bfpQuantise 4 0 [] (b.map (Fp.ofBits fp32))
      bfpBytes 4 q.1 q.2.1

/-- Offsets of the window ring and of the quantised store from the cache's start (R335). -/
def KvHdr.ring (h : KvHdr) : Nat := 64 + 4 * h.ch
def KvHdr.store (h : KvHdr) : Nat := h.ring + 2 * h.ch * h.win

/-- The extent of an append of `t` tokens at `toks` to the cache at `base` (R335): the tokens; where a token leaves the window,
the scales, the slots read and the part of the quantised store that takes them; the slots written; and the count. -/
def KvHdr.extent (h : KvHdr) (base toks t : Nat) : List CardAcc :=
  let q := (h.n + t - h.win) - (h.n - h.win)
  let at1 := fun (off n : Nat) (write : Bool) => ({ cap := 1, v := base + off, n := n, write := write } : CardAcc)
  let slot := fun (write : Bool) (i : Nat) => at1 (h.ring + 2 * h.ch * ((h.n + i) % h.win)) (2 * h.ch) write
  { cap := 0, v := toks, n := 2 * h.ch * t, write := false } ::
    ((List.range (min t h.win)).map (slot true) ++
      ((List.range (min t h.win)).filter fun i => decide (h.win ≤ h.n + i)).map (slot false) ++
      (if q = 0 then [] else [at1 64 (4 * h.ch) false, at1 (h.store + (h.n - h.win) * h.bytes) (q * h.bytes) true]) ++ [at1 0 8 true])

/-- A stage of a KV append (R335), in the order of its pseudocode: the header; for each token what is read, the token and, where
another leaves the window for it, that one and the scales, and then what is written; last the count of tokens. -/
def Card.appendStage (c : Card) : Except Nat Stage :=
  let base := c.cap1.cursor
  let t := c.body 0
  if c.stage = 0 then .ok { accs := [({ cap := 1, v := base, n := 64, write := false }, 0)] }
  else
    match kvHdrOf (c.take 0 64) with
    | none => .error 0x01
    | some h =>
      let j := (c.stage - 1) / 2
      let n := h.n + j
      let at1 := fun (off len : Nat) (write : Bool) => ({ cap := 1, v := base + off, n := len, write := write } : CardAcc)
      let slot := at1 (h.ring + 2 * h.ch * (n % h.win)) (2 * h.ch)
      -- token `j`, the token that it drives out and that one's quantised bytes, in the buffer
      let tokAt := 2 ^ 32 + 2 * h.ch * j
      let outAt := 2 ^ 34 + 2 * h.ch * j
      let qAt := 2 ^ 40 + h.bytes * j
      if j = t then
        .ok { form := [(2 ^ 35, toBytes 8 n)], accs := [(at1 0 8 true, 2 ^ 35)], last := true, result := t, delivered := c.delivered + 8 }
      else if c.stage % 2 = 1 then
        .ok { extent := if j = 0 then h.extent base c.cap0.cursor t else []
              accs := ({ cap := 0, v := c.cap0.cursor + 2 * h.ch * j, n := 2 * h.ch, write := false }, tokAt) ::
                (if h.win ≤ n then [(slot false, outAt), (at1 64 (4 * h.ch) false, 2 ^ 33)] else [])
              delivered := c.delivered }
      else if h.win ≤ n then
        .ok { form := [(qAt, h.quantise (c.take (2 ^ 33) (4 * h.ch)) (c.take outAt (2 * h.ch)))]
              accs := [(at1 (h.store + (n - h.win) * h.bytes) h.bytes true, qAt), (slot true, tokAt)]
              delivered := c.delivered + h.bytes + 2 * h.ch }
      else .ok { accs := [(slot true, tokAt)], delivered := c.delivered + 2 * h.ch }

/-- A stage of a codebook load: its 15 bytes are read, and it waits for its bank (R332, R333). -/
def Card.bookStage (c : Card) : Stage :=
  if c.stage = 0 then { accs := [({ cap := 0, v := c.cap0.cursor, n := 15, write := false }, 0)] } else { waits := true }

/-- A stage of an XFORM card (R333). -/
def State.xformStage (s : State) (c : Card) : Except Nat Stage :=
  match c.mode with
  | 0 => s.compressStage c
  | 1 => s.expandStage c
  | 2 => c.appendStage
  | _ => .ok c.bookStage

/-! ## COLL (R336, R337) -/

/-- Format of a collective's elements, and its width in bytes. -/
def Card.collFmt (c : Card) : Fmt := if c.body 0 / 4 % 2 = 1 then bf16 else fp32
def Card.collWidth (c : Card) : Nat := if c.body 0 / 4 % 2 = 1 then 2 else 4
def Card.collBytes (c : Card) : Nat := c.body 1 * c.collWidth
def Card.stride (c : Card) : Nat := c.body 2 / 2 ^ 19 % 2 ^ 9
def Card.npart (c : Card) : Nat := c.body 2 / 2 ^ 9 % 2 ^ 10
def Card.first (c : Card) : Nat := c.body 2 % 2 ^ 9

/-- The packages that take part, in rank order (R336). -/
def Card.members (c : Card) : List Nat := (List.range c.npart).map fun r => c.first + r * c.stride

/-- Whether the body of a COLL card of package `pkg` keeps its rule (R336). A card of a package that takes no part breaks it
(DEDUCED, log 28). -/
def Card.collBody (c : Card) (pkg : Nat) : Bool :=
  c.role0 == 1 && c.role1 == 2 && decide (c.body 0 < 8) && c.body 0 % 4 ≠ 3 && decide (c.collBytes ≤ 2 ^ 24) &&
    decide (c.body 2 < 2 ^ 28) && decide (1 ≤ c.stride) && decide (1 ≤ c.npart) && decide (c.npart ≤ 512) &&
    c.members.contains pkg

/-- The operation of a collective. -/
def Card.collOp (c : Card) : RedOp := match c.body 0 % 4 with | 0 => .sum | 1 => .max | _ => .min

/-- The fixed tree of R282 over the participants' elements, `k` levels over 2^k places: a single one passes unchanged. -/
def combineTree (g : Nat → Nat → Nat) : Nat → List (Option Nat) → Option Nat
  | 0, es => es.getD 0 none
  | k + 1, es =>
    combineTree g k ((List.range (2 ^ k)).map fun i =>
      match es.getD i none, es.getD (i + 2 ^ k) none with
      | some x, some y => some (g x y)
      | some x, none => some x
      | none, y => y)

/-- How a collective combines two elements (R337): one rounding to nearest even, no flags. -/
def Card.combine2 (c : Card) (x y : Nat) : Nat :=
  let v := Fp.ofBits c.collFmt
  match c.collOp with
  | .sum => (fpAdd c.collFmt rneMode (v x) (v y)).bits
  | .max => (fpMax c.collFmt rneMode (v x) (v y)).bits
  | .min => (fpMin c.collFmt rneMode (v x) (v y)).bits

/-- The result over the participants' contributions, in rank order (R337). -/
def Card.combineAll (c : Card) (parts : List (List Byte)) : List Byte :=
  (List.range (c.body 1)).flatMap fun i =>
    toBytes c.collWidth ((combineTree c.combine2 (bitLen (parts.length - 1))
      (parts.map fun p => some (leAt p (i * c.collWidth) c.collWidth))).getD 0)

/-- Whether another collective with the same tag is in flight in the package (R336). -/
def State.tagInFlight (s : State) (c : Card) : Bool :=
  s.engines.any fun e => engineKind e.1 == 2 && e.2.running.any fun d => d.id ≠ c.id && d.outcome ≠ 6 && d.body 3 == c.body 3

/-- The accesses of a collective. -/
def Card.collRead (c : Card) : CardAcc := { cap := 0, v := c.cap0.cursor, n := c.collBytes, write := false }
def Card.collWrite (c : Card) : CardAcc := { cap := 1, v := c.cap1.cursor, n := c.collBytes, write := true }

/-- The result formed and written (R337). -/
def Card.collResult (c : Card) (parts : List (List Byte)) : Stage :=
  { form := [(2 ^ 32, c.combineAll parts)], accs := [(c.collWrite, 2 ^ 32)], last := true, result := c.collBytes, delivered := c.collBytes }

/-- A stage of a COLL card (R336): its contribution is read whole; alone it then writes its result, else it sends its contribution
to the others and waits for theirs. -/
def State.collStage (s : State) (c : Card) : Except Nat Stage :=
  if c.stage = 0 then
    if s.tagInFlight c then .error 0x38
    else if c.members.any fun m => decide (512 ≤ m) || (m ≠ s.pkgIndex && s.routeTo (dieOf c.core) m == 0#24) then .error 0x19
    else .ok { extent := [c.collWrite], accs := [(c.collRead, 0)] }
  else if c.npart = 1 then .ok (c.collResult [c.take 0 c.collBytes])
  else .ok { waits := true, others := c.members.filter fun m => m ≠ s.pkgIndex, flits := ceilDiv c.collBytes 64 }

/-- Whether a collective may still find its participants: its wait is not over (R336), a working port remains on the route to
each (R420), and what it sends them has crossed (R418). -/
def State.collOpen (s : State) (c : Card) : Bool :=
  decide (s.now < c.started + 2 ^ 31) && !s.owed c.id && c.members.all fun m => m == s.pkgIndex || s.routeUp (dieOf c.core) m

/-- The other participants' cards have come (R336, R337): what they contribute is free (log 6), and one that disagrees fails the
card with 0x38. -/
def State.collJoin (s : State) (c : Card) : Card × State :=
  let s' := { s with tick := s.tick + 1 + c.npart }
  let c := { c with waits := false }
  if Config.remoteFate s.tick = 4 then ({ c with err := 0x38 }, s')
  else
    s'.beginStage c (c.collResult (((List.range c.npart).zip c.members).map fun r =>
      if r.2 = s.pkgIndex then c.take 0 c.collBytes else toBytes c.collBytes (Config.remoteData (s.tick + 1 + r.1))))

end Sys2Proof.Machine
end

