-- ==== Sys2Proof/Machine/Engine.lean ====
section
/-!
DEFINITION. The engine instructions (R319, R320, R325) and the life of a card after its issue: its start and its checks
(R321, R322), its accesses at their homes (R322), its end (R323), cards of kind-1 records (R326, R445), and a collective or a
codebook load that waits (R336, R332).
-/

namespace Sys2Proof.Machine

/-! ## Instructions -/

/-- COPY (R320). -/
def execCopy (k : BitVec 3) (ge sense : Bool) (g : BitVec 4) (s : State) : Host.Outcome State Fault Refusal :=
  runInstr 4 (issueCard 0 k ge sense g) s

/-- XFORM (R320). -/
def execXform (k : BitVec 3) (ge sense : Bool) (g : BitVec 4) (s : State) : Host.Outcome State Fault Refusal :=
  runInstr 4 (issueCard 1 k ge sense g) s

/-- COLL (R320). -/
def execColl (k : BitVec 3) (ge sense : Bool) (g : BitVec 4) (s : State) : Host.Outcome State Fault Refusal :=
  runInstr 4 (issueCard 2 k ge sense g) s

/-- TRACE (R320). -/
def execTrace (k : BitVec 3) (ge sense : Bool) (g : BitVec 4) (s : State) : Host.Outcome State Fault Refusal :=
  runInstr 4 (issueCard 3 k ge sense g) s

/-- EWAIT and ESTAT (R325): the card's STATE and ERR pushed, or the oldest error record raised as ENGERR. -/
def observeCard (waits : Bool) (d : Dst) (ka : BitVec 3) : Exec Flow := do
  roleIs (fun n => n ≠ 11) (rForm 0x29 (if waits then 4 else 5) d.bits (ka.setWidth 5) 0#5 0#4)
  let k ← kreg ka
  let (key, _, p, addr) ← cardAt k [0] [1]
  let s ← get
  let x ← getSlot
  await (!waits || !((s.cardsOf s.cur).any fun c => c.addr == addr) || !x.errs.isEmpty)
  match x.errs with
  | e :: _ => trap .engErr e
  | [] => do
    let p' := match p with
      | .mem _ c va => Place.mem (key + 2) c (va.map (· + 2))
      | q => q
    let v ← readPlace p' 2
    dst d (BitVec.ofNat 64 v)
    if waits then acquire
    pure .next

/-- An instruction that removes the error record it raises ENGERR for (R212): the record is gone when the trap is
taken. -/
def runReporting (len : Nat) (m : Exec Flow) (s : State) : Host.Outcome State Fault Refusal :=
  match m s.noteIssue with
  | .error (.trap .engErr v) =>
    match (s.noteIssue.modSlot s.cur fun x => { x with errs := x.errs.tail }).takeTrap s.cur .engErr v len with
    | some s' => .next s'
    | none => .next s.passOver
  | _ => runInstr len m s

/-- EWAIT (R325). -/
def execEwait (d : Dst) (ka : BitVec 3) (s : State) : Host.Outcome State Fault Refusal := runReporting 4 (observeCard true d ka) s

/-- ESTAT (R325). -/
def execEstat (d : Dst) (ka : BitVec 3) (s : State) : Host.Outcome State Fault Refusal := runReporting 4 (observeCard false d ka) s

/-! ## The checks of a card (R322) -/

/-- Body words of a card of package `pkg`. -/
def Card.bodyOk (c : Card) (pkg : Nat) : Bool :=
  match c.kind with
  | 0 => copyBody c.mode c.role0 c.role1 (c.body 0) (c.body 1) (c.body 2) (c.body 3)
  | 1 => xformBody c.mode c.role0 c.role1 (c.body 0) (c.body 1) (c.body 2) (c.body 3)
  | 2 => c.collBody pkg
  | 3 => traceBody c.role0 c.role1 (c.body 0) (c.body 1) (c.body 2) (c.body 3)
  | _ => false

/-- The spaces that a card's kind allows for capability `i` (R322, R327, R333, R336, R338). -/
def Card.spacesOf (c : Card) (i : Nat) : List Nat :=
  match c.kind with
  | 0 => [0, 1, 2, 4, 5] ++ (if c.issuer.isSome then [3] else [])
  | 1 => if c.mode < 2 then [0, 1, 2, 4, 5] else [0, 1, 2]
  | 2 => [0, 1, 2]
  | _ => if i = 0 then [0, 1, 2] else [2]

/-- The check of one capability: the code of its failure. -/
def Card.capFails (c : Card) (i : Nat) : Option Nat :=
  let k := c.cap i
  let r := c.role i
  if r = 0 then none
  else if !k.tag then some 0x10
  else if !(c.spacesOf i).contains k.space then some 0x11
  else if (r % 2 == 1 && !k.has 0) || (decide (2 ≤ r) && !k.has 1) then some 0x12
  else none

/-- What fails a card of package `pkg` before it computes its accesses (R322). -/
def Card.refused (c : Card) (pkg : Nat) : Option Nat :=
  if !c.formed || c.kind ≠ engineKind c.engine || !c.bodyOk pkg then some 0x01
  else (c.capFails 0).or (c.capFails 1)

/-- The next stage of a card's work (R322). -/
def State.stageOf (s : State) (c : Card) : Except Nat Stage :=
  match c.kind with
  | 0 => .ok c.copyStage
  | 1 => s.xformStage c
  | 2 => s.collStage c
  | _ => c.traceStage

/-- A card's work taken as far as what it has read allows: `n` stages at most, of which none but the last needs a read. -/
def cardAdvance : Nat → Card × State → Card × State
  | 0, x => x
  | n + 1, (c, s) =>
    if c.stageDue then
      cardAdvance n (match s.stageOf c with
        | .error e => ({ c with err := e }, s)
        | .ok g => s.beginStage c g)
    else (c, s)

/-- A card that runs, its work taken on once all that it is owed has come (R407). -/
def State.keepCard (s : State) (c : Card) : State :=
  if s.owed c.id then s.putCard c
  else
    let r := cardAdvance 4 (c, s)
    r.2.putCard r.1

/-! ## Accesses of cards at their homes -/

/-- Access `id` of the cards that run. -/
def State.cardOp? (s : State) (id : Nat) : Option (Card × CardOp) :=
  s.engines.findSome? fun e => e.2.running.findSome? fun c => (c.ops.find? fun o => o.id == id).map fun o => (c, o)

/-- The card access numbered `id` is sent to its home, or performed there (R322). -/
def State.cardAccess (s : State) (id : Nat) : Option State :=
  match s.cardOp? id with
  | none => none
  | some (c, o) =>
    match o.place with
    | none => s.sendCardOp c o
    | some p => if s.cardOpDue c o p then some ((s.performCardOp c o p).2.keepCard (s.performCardOp c o p).1) else none

/-- The card that runs with number `id`. -/
def State.runningCard (s : State) (id : Nat) : Option Card := s.engines.findSome? fun e => e.2.running.find? fun c => c.id == id

/-- The slot whose load has number `no`. -/
def State.loadSlot (s : State) (no : Nat) : Option Nat := (s.slots.find? fun x => x.2.elems.any fun j => j.no == no).map Prod.fst

/-- The acknowledgement or request numbered `id` has come (R407): a card or a load goes on once it is owed nothing more, an NWR
completes (R95), and a request to another package is answered from there (R418). -/
def State.ackLands (s : State) (id : Nat) : State :=
  match s.acks.find? fun k => k.id == id with
  | none => s
  | some k =>
    let s := { s with acks := s.acks.erase k }
    match k.kind with
    | .data =>
      match s.runningCard k.owner, s.loadSlot k.owner with
      | some c, _ => s.keepCard c
      | none, some g => s.settleSlot g
      | none, none => s
    | .nwr g tid => s.nwrDone g tid
    | .request g home cls => s.post id cls true home (coreOf g) (s.pathFrom home (coreOf g))

/-- The response numbered `id` is lost, and will not come (R416): what waited for it fails as for a host that cannot be reached. -/
def State.ackLost (s : State) (id : Nat) : State :=
  match s.acks.find? fun k => k.id == id with
  | none => s
  | some k =>
    let s := { s with acks := s.acks.erase k }
    match s.runningCard k.owner, s.loadSlot k.owner with
    | some c, _ => s.putCard { c with err := if c.err = 0 then 0x05 else c.err }
    | none, some g =>
      let fails := fun (j : ElemJob) => { j with bad := some (j.bad.getD (.mcheck, Config.freeTval s.tick)) }
      ({ s with tick := s.tick + 1 } : State).modSlot g fun x => { x with elems := x.elems.map fails }
    | none, none => s

/-- HOME_ACCESS (R21, R149): an access of a slot or of a card is performed. -/
def execHomeAccess (id : Nat) (s : State) : Host.Outcome State Fault Refusal :=
  runEvent "HOME_ACCESS" ((s.homeAccess id).or (s.cardAccess id))

/-! ## Start (R321) -/

/-- The class that weighted round robin takes next among those ready, and how many it has then had in its turn. -/
def turnClass (ready : Nat → Bool) (w : Nat → Nat) (cls used : Nat) : Option (Nat × Nat) :=
  if ready cls && decide (used < w cls) then some (cls, used + 1)
  else (([0, 1, 2].map fun i => (cls + i) % 3 + 1).find? ready).map fun c => (c, 1)

/-- The round-robin weight of class `cls` in partition `p` (R401, QOS). -/
def State.weight (s : State) (p cls : Nat) : Nat := s.partFld p 0x80E (8 * (cls - 1)) 8

/-- The head of a class queue that may start. -/
def State.readyHead (s : State) (e cls : Nat) : Option Card := ((s.engine e).queues.get [] cls).head?.filter s.cardReady

/-- The class-0 rate of an engine: CAP0 of the partition whose card waits first in its class 0 queue, none when none waits. -/
def State.engineRate (s : State) (e : Nat) : Option Nat :=
  ((s.engine e).queues.get [] 0).head?.map fun c => s.partFld c.part 0x80E 32 9

/-- The weight of a class on an engine: that of the partition whose card is ready at the head of its queue. -/
def State.headWeight (s : State) (e cls : Nat) : Nat := (s.readyHead e cls).elim 0 fun c => s.weight c.part cls

/-- The class that an engine takes next (R321), and its place in the round robin: class 0 first, within its rate cap (DEDUCED,
log 29), else classes 1 to 3 by weighted round robin. -/
def State.nextClass (s : State) (e : Nat) : Option (Nat × Nat) :=
  let eng := s.engine e
  if (s.readyHead e 0).isSome && decide (1 ≤ eng.tokens) then some (0, eng.rrUsed)
  else turnClass (fun k => (s.readyHead e k).isSome) (s.headWeight e) eng.rrClass eng.rrUsed

/-- CARD_START: the head card of a class queue starts (R321, R322): discarded, refused, or with the first accesses of its work. -/
def State.cardStart (s : State) (e cls : Nat) : Option State :=
  match s.readyHead e cls with
  | none => none
  | some c =>
    match s.nextClass e with
    | none => none
    | some (k, used) =>
      if k ≠ cls then none
      else
        let s := s.modEngine e fun x =>
          { x with queues := x.queues.set [] cls (x.queues.get [] cls).tail
                   rrClass := if cls = 0 then x.rrClass else cls
                   rrUsed := used
                   tokens := if cls = 0 then x.tokens - 1 else x.tokens }
        let run := fun (s : State) (c : Card) => s.modEngine e fun x => { x with running := x.running ++ [c] }
        let c := { c with started := s.now }
        if c.discarded then some (run s { c with outcome := 6 })
        else
          let s := s.cardState c [3#8]
          match c.refused s.pkgIndex with
          | some code => some (run s { c with err := code })
          | none => some ((run s c).keepCard c)

/-- CARD_START (R321, R322). -/
def execCardStart (engine cls : Nat) (s : State) : Host.Outcome State Fault Refusal :=
  runEvent "CARD_START" (s.cardStart engine cls)

/-! ## End (R323) -/

/-- The error record of a card (R212); that of a kind-1 card goes to service firmware and its group alone (R326). -/
def State.cardError (s : State) (c : Card) (code : Nat) : State :=
  match c.issuer with
  | some (g, tid) =>
    s.engineError { slot := g, tid := tid, pc := 0, tenant := c.tenant, part := c.part, group := c.group } (engineNo c.engine) code c.addr
  | none =>
    let s := match groupRef c.part c.tenant c.group with
      | some r => s.groupLater { ref := r, delta := 0, failed := true, core := c.core }
      | none => s
    s.errorRecord (dieOf c.core) (BitVec.ofNat 64 c.addr) noSlot code 1 c.tenant c.part false

/-- What the completion object is told (R323): the code of a step that fails, and the state. -/
def State.cardCompletes (s : State) (c : Card) : Option Nat × State :=
  if c.cmpl = 1 ∧ c.outcome = 4 then
    match s.barrierAdd c.part c.tenant c.caddr c.delivered with
    | .ok s' => (none, s')
    | .error e => (some e, s)
  else if c.cmpl = 2 then
    let v := if c.outcome = 4 then c.result else if c.outcome = 5 then 2 ^ 64 - 1 else 2 ^ 64 - 2
    match s.resolveFuture c.part c.tenant c.caddr v c.core none with
    | (.done, s') => (none, s')
    | (.already, s') => (some 0x21, s')
    | (.bad, s') => (some 0x22, s')
    | (.poisoned, s') => (some 0x05, s')
  else (none, s)

/-- The end of a card begun (R323): the record of fail(e), then the completion object's step and the record of one that fails. A
card that breaks R317 names no completion object that can be trusted, so none is told when CMPL is 3. Nothing more of its
accesses is performed. -/
def State.finishCompletion (s : State) (c : Card) : State :=
  let c := { c with outcome := if c.outcome = 6 then 6 else if c.err = 0 then 4 else 5, ops := [] }
  let s := if c.err ≠ 0 then s.cardError c c.err else s
  let (e, s) := s.cardCompletes c
  let s := match e with | some e => s.cardError c e | none => s
  s.putCard { c with ending := 1, badEnd := e.getD 0 }

/-- STATE and ERR stored (R323): ERR is the code of fail(e), or that of a completion step that failed. -/
def State.finishState (s : State) (c : Card) : State :=
  (s.cardState c [BitVec.ofNat 8 (if c.badEnd ≠ 0 then 5 else c.outcome), BitVec.ofNat 8 (if c.err ≠ 0 then c.err else c.badEnd)]).putCard
    { c with ending := 2 }

/-- LIVE lower by 1, and the card leaves its engine (R323). -/
def State.finishLive (s : State) (c : Card) : State :=
  (s.liveNow c.part c.tenant c.group (-1) c.core).modEngine c.engine fun x =>
    { x with running := x.running.filter fun d => d.id ≠ c.id }

/-- The next step of a card's end, once its home performs it (R323, R240). -/
def State.finishCard (s : State) (c : Card) : Option State :=
  let ready := fun (va n : Nat) => s.stepReady c.core c.part c.tenant va n
  match c.ending with
  | 0 => if c.cmpl = 0 || ready c.caddr 16 then some (s.finishCompletion c) else none
  | 1 => if c.issuer.isNone || ready (c.addr + 2) 2 then some (s.finishState c) else none
  | _ => if (groupRef c.part c.tenant c.group).all fun r => ready (s.groupAddr r) 32 then some (s.finishLive c) else none

/-- CARD_FINISH: a step of a card's end (R323), which begins once the card is discarded or has failed, or with its last access
performed and answered. A collective whose participants have come goes on to its result (R337). -/
def State.cardFinish (s : State) (e i : Nat) : Option State :=
  match (s.engine e).running[i]? with
  | none => none
  | some c =>
    if c.waits ∧ c.err = 0 then
      if engineKind e = 2 ∧ s.collOpen c then some ((s.collJoin c).2.putCard (s.collJoin c).1) else none
    else if c.outcome = 6 ∨ c.err ≠ 0 ∨ (c.last ∧ c.ops = [] ∧ !s.owed c.id) then s.finishCard c
    else none

/-- CARD_FINISH (R323). -/
def execCardFinish (engine i : Nat) (s : State) : Host.Outcome State Fault Refusal :=
  runEvent "CARD_FINISH" (s.cardFinish engine i)

/-- Whether a collective's wait is over (R336). -/
def State.collDue (s : State) (c : Card) : Bool := c.kind == 2 && c.waits && c.err == 0 && decide (c.started + 2 ^ 31 ≤ s.now)

/-- COLL_TIMEOUT: a collective has waited 2^31 cycles for its participants (R336). -/
def State.collTimeout (s : State) (e i : Nat) : Option State :=
  match (s.engine e).running[i]? with
  | none => none
  | some c => if s.collDue c then some (s.putCard { c with err := 0x39 }) else none

/-- COLL_TIMEOUT (R336). -/
def execCollTimeout (engine i : Nat) (s : State) : Host.Outcome State Fault Refusal :=
  runEvent "COLL_TIMEOUT" (s.collTimeout engine i)

/-- CODEBOOK_BANK_WRITE: a codebook load writes the bank that does not hold the slot's newest generation, in every
expander of its die and the die's compressors (R332, R333). No tile is being coded between two steps. -/
def State.bankWrite (s : State) (e i : Nat) : Option State :=
  match (s.engine e).running[i]? with
  | none => none
  | some c =>
    if engineKind e = 1 ∧ c.waits then
      some ((s.loadCodebook c.part (dieOf c.core) (c.body 0 % 16) (c.body 1) (c.take 0 15)).putCard { c with waits := false, last := true })
    else none

/-- CODEBOOK_BANK_WRITE (R332). -/
def execCodebookBankWrite (engine i : Nat) (s : State) : Host.Outcome State Fault Refusal :=
  runEvent "CODEBOOK_BANK_WRITE" (s.bankWrite engine i)

/-! ## Cards of kind-1 records (R326, R445) -/

/-- A kind-1 record that is not run: an error record of source 2, LIVE lower by 1 and FAILED set (R445). -/
def State.cardNotRun (s : State) (r : Rec) (cl code addr : Nat) : State :=
  let s := match groupRef r.part r.tenant r.group with
    | some g => s.groupLater { ref := g, delta := -1, failed := true, core := 8 * cl }
    | none => s
  s.schedError (clusterDie cl) code (BitVec.ofNat 64 addr) r.tenant r.part

/-- The card of a kind-1 record at the head of cluster `cl`'s queue enters its engine; none while that queue is full. -/
def State.cardFromRecord (s : State) (r : Rec) (cl : Nat) : Option State :=
  let a := r.code.cursor
  let place := if r.code.base ≤ a ∧ a + 64 ≤ r.code.top then s.hwPlace r.part r.tenant a [1] else none
  match place with
  | none => some (s.cardNotRun r cl 4 a)
  | some (key, keep, _) =>
    let s := s.fillFor key 64
    let bs := s.bytes key 64
    let cap := fun (i : Nat) => ({ tag := keep && s.tagAt (key + i), bits := BitVec.ofNat 128 (leAt bs i 16) } : Cap)
    let kind := leAt bs 0 8 % 16
    let e := if kind = 0 && edgeCaps (cap 32) (cap 48) then edgeFor (8 * cl) else engineFor kind (8 * cl)
    let (id, s') := s.freshNo
    let c : Card :=
      { id := id, engine := e, regions := s.cardRegions r.part 0 (leAt bs 0 8) (cap 32) (cap 48), bytes := bs, cap0 := cap 32,
        cap1 := cap 48, addr := a, issuer := none, core := 8 * cl, tenant := r.tenant, part := r.part, cls := r.cls, group := r.group }
    if a % 64 ≠ 0 ∨ 3 < kind ∨ !c.formed ∨ !c.bodyOk s.pkgIndex then some (s.cardNotRun r cl 1 r.addr)
    else if ((s.engine e).queues.get [] r.cls).length < 32 then some (s'.modEngine e fun x => x.push r.cls c)
    else none

end Sys2Proof.Machine
end

