-- ==== Sys2Proof/Machine/Surrogate.lean ====
section
/-!
DEFINITION. The guarded-surrogate instructions: major SURR (R361 to R371), and the check slice that spends its charge
(R366).
-/

namespace Sys2Proof.Machine

/-! ## The launch descriptor (R361) -/

/-- The word of a SURR instruction (R52). -/
def surrWord (func5 : Nat) (d a b : BitVec 5) : U64 := rForm 0x2B func5 d a b 0#4

/-- Whether a TOL field is well-formed: finite or +infinity, not negative, not NaN (R361). -/
def tolOk (t : Nat) : Bool :=
  match Fp.ofBits fp32 t with
  | .nan _ => false
  | .inf n => !n
  | .fin n m _ => !n || m == 0

/-- The launch that a descriptor's 128 bytes and the tags of its first four granules describe. -/
def launchOf (bs : List Byte) (tags : List Bool) : Launch :=
  let b := fun (i n : Nat) => leAt bs i n
  let cap := fun (i : Nat) => ({ tag := tags.getD i false, bits := BitVec.ofNat 128 (b (16 * i) 16) } : Cap)
  { id := 0, scode := cap 0, ccode := cap 1, ecode := cap 2, frame := cap 3
    tiles := b 64 2, shape := BitVec.ofNat 32 (b 68 4), tol := BitVec.ofNat 32 (b 72 4), tolMode := BitVec.ofNat 2 (b 76 1)
    limit := b 77 1 % 128, cls := b 78 2 % 4, deadline := BitVec.ofNat 64 (b 80 8)
    bs := BitVec.ofNat 32 (b 88 4), bc := BitVec.ofNat 32 (b 92 4), be := BitVec.ofNat 32 (b 96 4)
    group := BitVec.ofNat 64 (b 104 8)
    addr := 0, key := 0, tenant := 0, part := 0, cluster := 0, launcher := 0, ltid := 0, admitted := b 80 8 ≠ 2 ^ 64 - 1 }

/-- Whether a descriptor is well-formed for tenant `t` of partition `p` (R361). -/
def State.launchOk (s : State) (p t : Nat) (bs : List Byte) (l : Launch) : Bool :=
  codeOk l.scode && codeOk l.ccode && codeOk l.ecode && (l.frame.tag || l.frame.bits == 0#128) &&
    decide (1 ≤ l.tiles) && decide (l.tiles ≤ 4096) && leAt bs 66 2 == 0 && tolOk l.tol.toNat && decide (leAt bs 76 1 ≤ 1) &&
    decide (1 ≤ leAt bs 77 1) && decide (leAt bs 77 1 ≤ 64) && leAt bs 78 2 == s.tenantClass p t && leAt bs 100 4 == 0 &&
    decide (l.limit * 1024 ≤ s.latentSize p) && s.groupOk p l.group &&
    (!l.admitted || (decide (l.tiles ≤ 32) && l.bs ≠ 0#32 && l.bc ≠ 0#32 && l.be ≠ 0#32 && l.group ≠ 0#64))

/-- The descriptor operand (R364, R371): key in memory, whether tags count, the address to log, its GLOBAL address. -/
def launchAt (k : Cap) (perm bits : List Nat) : Exec (Place × RecordAt) := do
  let p ← place k k.cursor 128 { spaces := [0], perm := perm, align := 128 } bits
  match p with
  | .mem key c va => pure (p, { key := key, keep := c, va := va, addr := k.cursor })
  | _ => trap .capSpace (u64 k.cursor)

/-! ## SLAUNCH (R364, R366) -/

/-- Latent bytes that the admitted, undecided tiles of partition `p` hold in cluster `cl` (R365, R366). -/
def State.latentAdmitted (s : State) (p cl : Nat) : Nat :=
  ((s.launches.filter fun l => l.admitted && l.part == p && l.cluster == cl).map fun l => (l.tiles - l.decided) * l.limit * 1024).sum

/-- The two slices of tile `i` (R366). -/
def Launch.pair (l : Launch) (i : Nat) : List Slice :=
  [{ slot := 0, job := l.job l.scode l.bs, charge := l.bs.toNat + l.bc.toNat + 16, launch := some l.id, index := i },
   { slot := 0, job := l.job l.ecode l.be, charge := l.be.toNat + 16, launch := some l.id, index := i, exact := true, ready := false }]

/-- STATUS and SEQ written as the launch is accepted (R362, R364). -/
def State.launchStatus (s : State) (l : Launch) (va : Option Nat) (seq : Nat) : State :=
  s.performWrites l.part l.tenant (va.map (· + 112)) (writesAt (l.key + 112) (toBytes 8 (2 ^ 40) ++ toBytes 8 seq)) none

/-- A background launch accepted (R364); none while the enqueuer waits. -/
def State.launchBackground (s : State) (l : Launch) (va : Option Nat) : Option (Int × State) :=
  let s := s.liveNow l.part l.tenant l.group l.tiles (coreOf l.launcher)
  let s := s.launchStatus l va 0
  let s := { s with launches := s.launches ++ [l] }
  (s.enqueue l.cluster { job := { l.job l.scode l.bs with kind := 3 }, count := l.tiles, gcount := l.tiles, launch := some l.id }).map
    fun s => (1, s)

/-- The admission of a launch with a deadline (R366): the value pushed, and the state. -/
def State.launchAdmit (s : State) (l : Launch) (va : Option Nat) : Int × State :=
  let rejected := (0, (s.journalNew l.part l.group.toNat l.deadline.toNat 1 l.tenant l.launcher 4).2)
  if s.latentAdmitted l.part l.cluster + l.tiles * l.limit * 1024 > s.latentSize l.part then rejected
  else
    match s.admitGroups l.part l.cls l.cluster ((List.range l.tiles).map l.pair) with
    | none => rejected
    | some s' =>
      match s'.journalNew l.part l.group.toNat l.deadline.toNat 1 l.tenant l.launcher 0 with
      | (none, _) => (0, s)
      | (some seq, s') =>
        let ref : GroupRef := { part := l.part, tenant := l.tenant, offset := l.group.toNat }
        let s' := s'.groupNow { ref := ref, delta := l.tiles, submitted := true, seq := some (BitVec.ofNat 64 seq), core := coreOf l.launcher }
        (seq, { s'.launchStatus l va seq with launches := s'.launches ++ [l] })

/-- SLAUNCH (R364). -/
def execSlaunch (d : Dst) (ka : BitVec 3) (s : State) : Host.Outcome State Fault Refusal :=
  runInstr 4 (do
    roleIs (fun n => n ≠ 11) (surrWord 0 d.bits (ka.setWidth 5) 0#5)
    let x ← getSlot
    require x.tile?.isNone .surrNest 0#64
    let k ← kreg ka
    let o ← inStep 0 (do
      let (p, r) ← launchAt k [0, 1, 5, 3] [1, 2, 4]
      stepPlace p 64
      look r 64)
    let r := o.loc
    let rest ← inStep 1 (do
      stepPlace (.mem (r.key + 64) r.keep (r.va.map (· + 64))) 64
      look { r with key := r.key + 64 } 64)
    homeReady (homeOf (r.key + 64))
    let bs := o.bytes ++ rest.bytes
    let id ← newNo
    let s ← get
    let w := s.who s.cur
    let l : Launch :=
      { launchOf bs o.tags with
        id := id, addr := r.addr, key := r.key, tenant := w.tenant, part := w.part, cluster := clusterOf w.core
        launcher := s.cur, ltid := x.tid }
    if !s.launchOk w.part w.tenant bs l then dst d (u64 (-1))
    else if l.admitted then do
      beforeLive l.group
      let s ← get
      let (v, s') := s.launchAdmit l r.va
      set s'
      dst d (u64 v)
    else do
      beforeLive l.group
      let s ← get
      match s.launchBackground l r.va with
      | none => block
      | some (v, s') => do
        set s'
        dst d (u64 v)
    forget
    pure .next) s

/-! ## Residuals (R369) -/

/-- Whether slot `x` runs a check phase. -/
def Slot.checking (x : Slot) : Bool := match x.phase with | .check .. => true | _ => false

/-- The residual to test: none for a deviation that R369 does not allow. `dev` is none for SRESID. -/
def residual (mode : BitVec 2) (r : Nat) (dev : Option Nat) : Option Fp :=
  let q := (Fp.ofBits fp32 r).abs
  if mode = 0#2 then some q
  else
    match dev.map (Fp.ofBits fp32) with
    | some (.fin false m e) => if m = 0 then none else some (Fp.ofBits fp32 (fpDiv fp32 rneMode q (.fin false m e)).bits)
    | _ => none

/-- A residual posted (R369). -/
def post (r : Nat) (dev : Option Nat) : Exec Flow := do
  let x ← getSlot
  match residual x.tolMode r dev with
  | none => throw (Stop.fail 8)
  | some q =>
    if q.isNan then throw (Stop.fail 1)
    else if fpLt (Fp.ofBits fp32 x.tol.toNat) q then throw (Stop.fail 2)
    else do
      modSlot fun y => { y with phase := match y.phase with | .check t _ => .check t true | p => p }
      pure .next

/-- SRESID (R369). -/
def execSresid (a : Src) (s : State) : Host.Outcome State Fault Refusal :=
  runInstr 4 (do
    let r ← src a
    let x ← getSlot
    require x.checking .illop (surrWord 1 0#5 a.bits 0#5)
    post (r.toNat % 2 ^ 32) none) s

/-- SRESIDM (R369). -/
def execSresidm (a b : Src) (s : State) : Host.Outcome State Fault Refusal :=
  runInstr 4 (do
    let r ← src a
    let v ← src b
    let x ← getSlot
    require x.checking .illop (surrWord 2 0#5 a.bits b.bits)
    post (r.toNat % 2 ^ 32) (some (v.toNat % 2 ^ 32))) s

/-- SABORT (R368): legal in the surrogate and check phases, it fails the tile. -/
def execSabort (s : State) : Host.Outcome State Fault Refusal :=
  runInstr 4 (do
    let x ← getSlot
    require x.tile?.isSome .illop (surrWord 3 0#5 0#5 0#5)
    throw (Stop.fail 4)) s

/-- SSTAT (R371). -/
def execSstat (d : Dst) (ka : BitVec 3) (s : State) : Host.Outcome State Fault Refusal :=
  runInstr 4 (do
    roleIs (fun n => n ≠ 11) (surrWord 4 d.bits (ka.setWidth 5) 0#5)
    let k ← kreg ka
    let (_, r) ← launchAt k [0] [1]
    let v ← readPlace (.mem (r.key + 112) r.keep (r.va.map (· + 112))) 8
    dst d (BitVec.ofNat 64 v)
    if v / 2 ^ 41 % 2 = 1 then acquire
    pure .next) s

/-! ## The check slice's charge (R366) -/

/-- An admitted slice of a surrogate tile that has spent its charge fails its tile with reason 9, once its slot is back from the
array (R308), and unless the tile has passed (R369). -/
def State.checkCharge (s : State) (g : Nat) : Option State :=
  let x := s.slot g
  if x.live ∧ x.admitted ∧ x.charge = 0 ∧ x.tile?.isSome ∧ x.wait ≠ Wait.array ∧ x.wait ≠ Wait.commit then s.failPhase g 9 else none

/-- CHECK_CHARGE_EXHAUSTED (R366). -/
def execCheckChargeExhausted (slot : Nat) (s : State) : Host.Outcome State Fault Refusal :=
  runEvent "CHECK_CHARGE_EXHAUSTED" (s.checkCharge slot)

end Sys2Proof.Machine
end

