-- ==== Sys2Proof/Machine/Scheduler.lean ====
section
/-!
DEFINITION. The die scheduler's events: dispatch (R177, R178), walking records (R181), gangs (R188), counts of LAUNCHI
(R186, R187), the hold register (R180), releases and completion records on their way (R174, R183), admitted slices
(R191 to R193) and their ends (R192, R195), and the host's enqueue windows (R190).
-/

namespace Sys2Proof.Machine

/-! ## Eligible helpers (R177, R178) -/

/-- Whether slot `g` is an idle helper, neither reserved nor borrowed (R177). -/
def State.idleHelper (s : State) (g : Nat) : Bool :=
  let x := s.slot g
  decide (1 ≤ slotNo g) && decide (slotNo g ≤ 10) && !x.live && !x.borrowed && (s.reservedFor g).isNone

/-- Whether slot `g` is not slot 10, or R178 lets that one take an entry of deadline `d`: a deadline record only while no background
record waits in the cluster. -/
def State.tenTakes (s : State) (d : U64) (g : Nat) : Bool :=
  slotNo g ≠ 10 || d == background || !s.backgroundWaits (clusterOf (coreOf g))

/-- Whether slot `g` may take records of tenant `t` of partition `p`, the window of a gang apart: on a core that is to pass to
another tenant none of the old one (R404). -/
def State.idleFor (s : State) (p t g : Nat) : Bool :=
  s.idleHelper g && s.ownsCore p (coreOf g) && s.takesFrom t g && s.partFld p 0x800 3 1 == 0

/-- The slots of core `c`. -/
def slotsOf (c : Nat) : List Nat := (List.range 12).map fun i => 12 * c + i

/-- The eligible idle helpers of core `c` for entries of tenant `t` of partition `p` with deadline `d`, lowest first (R177). -/
def State.helpers (s : State) (p t : Nat) (d : U64) (c : Nat) : List Nat :=
  (slotsOf c).filter fun g => s.idleFor p t g && s.tenTakes d g

/-- As `helpers`, less the helpers held for a gang (R188). -/
def State.freeHelpers (s : State) (p t : Nat) (d : U64) (c : Nat) : List Nat :=
  if (s.cluster (clusterOf c)).holdsCore c then [] else s.helpers p t d c

/-- Whether core `c` has an eligible idle helper to offer an entry of deadline `d`, of whatever tenant (R177). -/
def State.offers (s : State) (d : U64) (c : Nat) : Bool :=
  !(s.cluster (clusterOf c)).holdsCore c && (slotsOf c).any fun g => s.idleHelper g && s.tenTakes d g

/-- The helpers of core `c` that a gang with arrival number `n` and deadline `d` may hold: those that no gang before it holds
(R188). -/
def State.gangHelpers (s : State) (p t : Nat) (d : U64) (n c : Nat) : List Nat :=
  if (s.cluster (clusterOf c)).windows.any fun w => decide (w.1 < n) && w.2.contains c then [] else s.helpers p t d c

/-! ## Starting an entry -/

/-- Whether a background tile of a launch finds its latent reservation (R365). -/
def State.latentFits (s : State) (l : Launch) : Bool :=
  let running := (s.tiles.filter fun t =>
    (s.launch? t.launch).any fun k => !k.admitted && k.part == l.part && k.cluster == l.cluster).map fun t =>
      ((s.launch? t.launch).map Launch.limit).getD 0 * 1024
  decide (running.sum + s.latentAdmitted l.part l.cluster + l.limit * 1024 ≤ s.latentSize l.part)

/-- The next item of an entry started on slot `g`; none when it cannot start there (R177). -/
def State.startEntry (s : State) (g : Nat) (e : Entry) : Option State :=
  match e.cont with
  | some c => if c.core.all fun k => k == coreOf g then s.restore g c else none
  | none =>
    match e.launch, e.exactOf with
    | some id, _ => (s.launch? id).bind fun l => if s.latentFits l then some (s.startTile g l e.next) else none
    | none, some id => (s.launch? id).map fun l => s.startExact g l e.next
    | none, none => some (s.startRec g e.job e.next e.gcount id)

/-- Whether an entry waits for something other than a helper: an engine, a count or a gang's window. -/
def Entry.special (e : Entry) : Bool := e.job.kind == 1 || e.unread.isSome || !e.gang.isEmpty

/-- An entry after the start of an item: none once its last item has started. -/
def Entry.after (e : Entry) : Option Entry :=
  if e.cont.isSome ∨ e.count ≤ e.next + 1 then none else some { e with next := e.next + 1 }

/-- A list of entries after the start of an item of the entry with arrival number `n`. -/
def afterStart (n : Nat) (l : List Entry) : List Entry := l.filterMap fun e => if e.seq = n then e.after else some e

/-- The first slot of `gs` on which an entry starts. -/
def State.startOn (s : State) (e : Entry) (gs : List Nat) : Option State := gs.head?.bind fun g => s.startEntry g e

/-- Whether an entry that could not start on the helpers `gs` offered is passed over (R177): a continuation, unless it waits for its
granules alone (R221), a launch, or one for whose tenant none of the helpers is (DEDUCED, log 62). -/
def State.passedOver (s : State) (e : Entry) (gs : List Nat) : Bool :=
  gs.isEmpty || e.launch.isSome || e.cont.any fun c => !gs.any fun g => s.eagerHeld g c

/-- Step 1 of R177 on core `c`: the first entry of its local queue starts, less those that are passed over. -/
def State.localList (s : State) (c : Nat) : List Entry → Option State
  | [] => none
  | e :: es =>
    if e.special || !s.offers e.job.deadline c then none
    else
      let gs := s.freeHelpers e.job.part e.job.tenant e.job.deadline c
      match s.startOn e gs with
      | some s => some (s.modCore c fun x => { x with localQ := afterStart e.seq x.localQ })
      | none => if s.passedOver e gs then State.localList s c es else none

/-- Step 1 of R177 on core `c`. -/
def State.localStart (s : State) (c : Nat) : Option State := s.localList c (s.core c).localQ

/-- The cores that step 2 of R177 looks at: those of the cluster with an empty local queue. -/
def State.openCores (s : State) (cl : Nat) : List Nat := (coresOf cl).filter fun c => (s.core c).localQ.isEmpty

/-- The slots that step 2 of R177 offers an entry, that of the lowest core first. -/
def State.offered (s : State) (cl : Nat) (e : Entry) : List Nat :=
  (s.openCores cl).flatMap fun c => s.freeHelpers e.job.part e.job.tenant e.job.deadline c

/-- A cluster's list after a change of its entries (R179). -/
def State.setList (s : State) (cl : Nat) (f : List Entry → List Entry) : State := s.setAll cl (f (s.cluster cl).list)

/-- Windows of `n` neighbouring cores of cluster `cl` (R188). -/
def windows (cl n : Nat) : List (List Nat) :=
  let order := [0, 1, 2, 3, 7, 6, 5, 4].map fun i => 8 * cl + i
  (List.range (9 - n)).map fun i => (order.drop i).take n

/-- The window that a gang chooses: most eligible idle helpers, lowest position on a tie, among those that its partition
owns (R188). -/
def State.chooseWindow (s : State) (cl : Nat) (e : Entry) : Option (List Nat) :=
  let ws := (windows cl e.gang.length).filter fun w => w.all (s.ownsCore e.job.part)
  let score := fun (w : List Nat) => (w.map fun c => (s.freeHelpers e.job.part e.job.tenant e.job.deadline c).length).sum
  ws.foldl (fun (b : Option (List Nat)) w => match b with | none => some w | some v => if score v < score w then some w else b) none

/-- The first entry of the cluster's list that is not passed over goes on (R177): it starts an item, goes to its engine,
or chooses its gang's window. While no helper can be offered to it, nothing behind it moves. -/
def State.listStart (s : State) (cl : Nat) : List Entry → Option State
  | [] => none
  | e :: es =>
    if !e.gang.isEmpty then
      if (s.cluster cl).windows.any fun w => w.1 == e.seq then none
      else (s.chooseWindow cl e).map fun w => s.modCluster cl fun c => { c with windows := c.windows.put e.seq w }
    else if e.unread.isSome then none
    else if e.job.kind = 1 then (s.cardFromRecord e.job cl).map fun s => s.setList cl fun l => l.filter fun x => x.seq ≠ e.seq
    else if !(s.openCores cl).any (s.offers e.job.deadline) then none
    else
      match s.startOn e (s.offered cl e) with
      | some s => some (s.setList cl (afterStart e.seq))
      | none => if s.passedOver e (s.offered cl e) then State.listStart s cl es else none

/-- An entry put in the order of arrival. -/
def insertSeq (e : Entry) : List Entry → List Entry
  | [] => [e]
  | x :: xs => if e.seq < x.seq then e :: x :: xs else x :: insertSeq e xs

/-- Background entries in the order of arrival, as slot 10 of core `c` takes them (R178): the first that can start there. A gang of
theirs that holds the core's helpers keeps it (R188). -/
def State.tenList (s : State) (cl c : Nat) : List Entry → Option State
  | [] => none
  | e :: es =>
    if (s.cluster cl).windows.any fun w => w.1 == e.seq && w.2.contains c then none
    else
      let g := 12 * c + 10
      let fits := !e.special && s.idleFor e.job.part e.job.tenant g && (e.cont.all fun k => k.core.all fun j => j == c)
      match if fits then s.startEntry g e else none with
      | some s => some ((coresOf cl).foldl (fun s k => s.modCore k fun x => { x with localQ := afterStart e.seq x.localQ })
          (s.setList cl (afterStart e.seq)))
      | none => State.tenList s cl c es

/-- An idle slot 10 takes the earliest-queued background record that can start there, of those that wait in its cluster: in its
queue, its ring or a local queue (R178). -/
def State.slotTen (s : State) (cl c : Nat) : Option State :=
  s.tenList cl c ((((s.cluster cl).list ++ s.locals cl).filter fun e => e.job.deadline == background).foldr insertSeq [])

/-- The next slice of reserved slot `g`: the earliest deadline among those ready, first admitted on a tie (R191). -/
def State.nextSlice (s : State) (g : Nat) : Option Slice :=
  ((s.slicesOn g).filter Slice.ready).foldl (fun (b : Option Slice) x =>
    match b with | none => some x | some y => if x.job.deadline < y.job.deadline then some x else b) none

/-- An admitted slice started on its slot (R191, R366). -/
def State.startSlice (s : State) (g : Nat) : Option State :=
  let x := s.slot g
  if x.live ∨ x.borrowed then none
  else
    (s.nextSlice g).bind fun sl =>
      let s := { s with slices := s.slices.erase sl }
      let s := s.journalStarted sl.job
      let s' : Option State := match sl.launch with
        | none => some (s.startRec g sl.job 0 1 id)
        | some id => (s.launch? id).map fun l => if sl.exact then s.startExact g l sl.index else s.startTile g l sl.index
      s'.map fun s => s.modSlot g fun y => { y with admitted := true, charge := sl.charge }

/-- A slot 0 that was saved resumes (R218). -/
def State.resumeZero (s : State) (g : Nat) : Option State :=
  match s.savedZero.find? fun x => x.1 = g with
  | none => none
  | some x => if (s.slot g).live ∨ (s.slot g).halted then none else (s.restore g x.2).map fun s => { s with savedZero := s.savedZero.erase g }

/-- Go on with the state that a step gives, noting that something has been done. -/
def State.orSame (s : State) (f : State → Option State) (done : Bool) : State × Bool :=
  match f s with
  | some s' => (s', true)
  | none => (s, done)

/-- One cycle of dispatch in cluster `cl` (R177, R178, R191); none when nothing can be done. -/
def State.dispatch (s : State) (cl : Nat) : Option State :=
  let each := fun (r : State × Bool) (xs : List Nat) (f : Nat → State → Option State) => xs.foldl (fun r x => r.1.orSame (f x) r.2) r
  let r := each (s, false) (coresOf cl) fun c s => s.resumeZero (12 * c)
  let r := each r ((coresOf cl).flatMap fun c => (List.range 12).map fun i => 12 * c + i) fun g s => s.startSlice g
  let r := each r (coresOf cl) fun c s => s.localStart c
  let r := r.1.orSame (fun s => s.listStart cl (s.cluster cl).list) r.2
  let r := each r (coresOf cl) fun c s => s.slotTen cl c
  if r.2 then some r.1 else none

/-- DISPATCH (R177, R178). -/
def execDispatch (cluster : Nat) (s : State) : Host.Outcome State Fault Refusal := runEvent "DISPATCH" (s.dispatch cluster)

/-! ## Gangs (R188) -/

/-- The members of a gang started on the helpers of its window. -/
def State.startMembers (s : State) (e : Entry) : List Nat → Nat → State
  | [], _ => s
  | g :: gs, j =>
    let pipe := fun (i : Nat) => e.pipes.getD i Cap.null
    let k2 := if j = 0 then Cap.null else pipe (j - 1)
    let s := s.startRec g (e.gang.getD j {}) j e.gang.length fun x =>
      { x with k := (x.k.set Cap.null 2 k2).set Cap.null 3 (pipe j) }
    State.startMembers s e gs (j + 1)

/-- The gang of an entry started, when every core of its window holds a helper for it (R188). -/
def State.startGang (s : State) (cl : Nat) (e : Entry) : Option State :=
  let w := (s.cluster cl).windows.get [] e.seq
  let gs := w.filterMap fun k => (s.gangHelpers e.job.part e.job.tenant e.job.deadline e.seq k).head?
  if e.gang ≠ [] ∧ gs.length = e.gang.length then
    let s := (s.startMembers e gs 0).setList cl fun l => l.filter fun x => x.seq ≠ e.seq
    some (s.modCluster cl fun c => { c with windows := c.windows.erase e.seq })
  else none

/-- GANG_START: every core of a gang's window holds a helper, and all members start (R188). -/
def State.gangStart (s : State) (cl : Nat) : Option State := (s.cluster cl).list.findSome? fun e => s.startGang cl e

/-- GANG_START (R188). -/
def execGangStart (cluster : Nat) (s : State) : Host.Outcome State Fault Refusal := runEvent "GANG_START" (s.gangStart cluster)

/-! ## Walking records (R181) -/

/-- The next core of a walk, along X first. -/
def hop (c hx hy : Nat) : Nat :=
  let x := coreX c
  let y := coreY c
  if x < hx then coreAt (x + 1) y else if hx < x then coreAt (x - 1) y else if y < hy then coreAt x (y + 1) else coreAt x (y - 1)

/-- The Chebyshev distance of core `c` from a place of the mesh. -/
def chebyshev (c hx hy : Nat) : Nat :=
  let d := fun (a b : Nat) => max a b - min a b
  max (d (coreX c) hx) (d (coreY c) hy)

/-- RECORD_WALK_HOP: a walking record is taken where it stands, enters the hint core's queue, or moves on one core. -/
def State.walkHop (s : State) (i : Nat) : Option State :=
  match s.walks[i]? with
  | none => none
  | some w =>
    let r := w.job
    let rest := { s with walks := s.walks.eraseIdx i }
    let taken := if chebyshev w.core r.hx r.hy ≤ r.radius then rest.startOn { job := r } (s.freeHelpers r.part r.tenant r.deadline w.core) else none
    match taken with
    | some s' => some s'
    | none =>
      if coreX w.core = r.hx ∧ coreY w.core = r.hy then rest.queueCont w.core { job := r }
      else
        let c := hop w.core r.hx r.hy
        let dl := if dieOf c = dieOf w.core then r.deadline else s.rebaseDeadline (dieOf w.core) (dieOf c) r.deadline
        some { s with walks := s.walks.set i { job := { r with deadline := dl }, core := c } }

/-- RECORD_WALK_HOP (R181). -/
def execRecordWalkHop (i : Nat) (s : State) : Host.Outcome State Fault Refusal := runEvent "RECORD_WALK_HOP" (s.walkHop i)

/-! ## Counts of LAUNCHI (R186, R187) -/

/-- A load of `n` bytes that hardware makes through a checked capability, with no slot to trap in; none when it fails. -/
def State.hwLoad (s : State) (w : Who) (space v n : Nat) : Option (Nat × State) :=
  match (locate w space v n [1]).run s with
  | .error _ => none
  | .ok (p, s) =>
    match p with
    | .mem key _ _ =>
      let s := s.fillFor key n
      if (s.poisonIn key n).isSome then none else some (s.num key n, s)
    | .device off => some (s.deviceRead off n, s)
    | .remote cur =>
      let s' := { s with tick := s.tick + 1 }
      if s.remoteFails (dieOf w.core) (cur / 2 ^ 43) then none else some (Config.remoteData s.tick % 2 ^ (8 * n), s')

/-- Whether a card is still to write into `n` bytes at a place (R187). -/
def State.cardsWrite (s : State) (w : Who) (space v n : Nat) : Bool :=
  match (locate w space v n [1]).run s with
  | .ok (p, _) =>
    match p.scored with
    | some (gl, lo) => s.cards.any fun c => c.regions.any fun r => r.write && r.meets gl lo n && (!gl || (c.tenant == w.tenant && c.part == w.part))
    | none => false
  | .error _ => false

/-- Whether a load that hardware makes must wait at its home: that is held, or its message thread runs (R12, R180), or a fill waits
for a card (R220, R221). -/
def State.loadWaits (s : State) (w : Who) (space v n : Nat) : Bool :=
  match (locate w space v n [1]).run s with
  | .ok (.mem key _ _, _) => !s.stepAt w.core key n
  | _ => false

/-- Whether the count word of an entry may be read now (R187): no card is still to write it, and its home performs the load. -/
def State.countReady (s : State) (w : Who) (space v : Nat) : Bool := !s.cardsWrite w space v 8 && !s.loadWaits w space v 8

/-- The scheduler as one that reads the count word of an entry (R186). -/
def Entry.reader (e : Entry) (g : Nat) : Who :=
  { part := e.job.part, tenant := e.job.tenant, core := coreOf g, slot := g, cached := false }

/-- A value that the count word of the entry with arrival number `n` holds at some moment between LAUNCHI and its read, taken for
that read (R187). -/
def State.countSeen (s : State) (cl n : Nat) : Option State :=
  ((s.cluster cl).list.find? fun e => e.seq == n && e.seen.isNone).bind fun e =>
    e.unread.bind fun u =>
      if s.countReady (e.reader u.2.2) u.1 u.2.1 then
        (s.hwLoad (e.reader u.2.2) u.1 u.2.1 8).map fun r =>
          r.2.setList cl fun l => l.map fun x => if x.seq = n then { x with seen := some r.1 } else x
      else none

/-- LAUNCHI_COUNT_READ: the count word of the entry at the head of its queue is read (R186). Of the values that it has held since
LAUNCHI, it gives one taken before, or else the one that stands when this step runs (R187). -/
def State.countRead (s : State) (cl : Nat) : Option State :=
  match (s.cluster cl).ready with
  | [] => none
  | e :: _ =>
    e.unread.bind fun u =>
      let r := e.job
      let w := e.reader u.2.2
      let live := fun (s : State) (delta : Int) (failed : Bool) =>
        match groupRef r.part r.tenant r.group with
        | none => s
        | some g => s.groupNow { ref := g, delta := delta, failed := failed, core := coreOf u.2.2 }
      let gone := fun (s : State) => s.setList cl fun l => l.filter fun x => x.seq ≠ e.seq
      let home := (groupRef r.part r.tenant r.group).all fun g => s.stepReady w.core r.part r.tenant (s.groupAddr g) 32
      if !home || !s.countReady w u.1 u.2.1 then none
      else
        match (e.seen.map fun v => (v, s)).or (s.hwLoad w u.1 u.2.1 8) with
        | none => some (gone ((live s (-1) true).schedError (clusterDie cl) 4 (BitVec.ofNat 64 u.2.1) r.tenant r.part))
        | some (c, s) =>
          if c = 0 then some (gone (live s (-1) false))
          else if 2 ^ 32 ≤ c then some (gone (live s (-1) true))
          else
            let s := if c = 1 then s else live s (c - 1) false
            some (s.setList cl fun l => l.map fun x => if x.seq = e.seq then { x with count := c, gcount := c, unread := none } else x)

/-- LAUNCHI_COUNT_READ (R186, R187). -/
def execLaunchiCountRead (cluster : Nat) (s : State) : Host.Outcome State Fault Refusal :=
  runEvent "LAUNCHI_COUNT_READ" (s.countRead cluster)

/-! ## The hold register (R180) -/

/-- HOLD_CLEAR: the ring has room again, and the held entry's spill completes. -/
def State.holdClear (s : State) (cl : Nat) : Option State :=
  let c := s.cluster cl
  c.hold.bind fun h =>
    let all := insertEntry h.1 c.list
    if s.ringRoom h.1.job.part cl (entriesOf h.1.job.part (all.drop 256)).length then
      some ((s.setAll cl all).modCluster cl fun c => { c with hold := none })
    else none

/-- HOLD_CLEAR (R180). -/
def execHoldClear (cluster : Nat) (s : State) : Host.Outcome State Fault Refusal := runEvent "HOLD_CLEAR" (s.holdClear cluster)

/-- Whether cluster `cl`'s hold register has been occupied for 2^24 cycles in a partition that has not halted (R180). -/
def State.holdDue (s : State) (cl : Nat) : Bool :=
  (s.cluster cl).hold.any fun h => decide (h.2 + 2 ^ 24 ≤ s.now) && s.partFld h.1.job.part 0x800 3 1 == 0

/-- HOLD_TIMEOUT: the hold register has been occupied for 2^24 cycles; the partition halts, and the journal says so
(R180, R413). -/
def State.holdTimeout (s : State) (cl : Nat) : Option State :=
  (s.cluster cl).hold.bind fun h =>
    let p := h.1.job.part
    if s.holdDue cl then
      let s := s.setPartReg p 0x800 (s.partReg p 0x800 ||| 8#64)
      some (s.journalPut p 0 (s.cycle (clusterDie cl)).toNat 2 h.1.job.tenant noSlot 5)
    else none

/-- HOLD_TIMEOUT (R180). -/
def execHoldTimeout (cluster : Nat) (s : State) : Host.Outcome State Fault Refusal := runEvent "HOLD_TIMEOUT" (s.holdTimeout cluster)

/-! ## Releases and completion records on their way -/

/-- RECORD_RELEASE: a JOIN step reaches its record's home (R183, R198). -/
def State.releaseAt' (s : State) (i : Nat) : Option State :=
  s.releases[i]?.bind fun x =>
    if s.stepReady x.core x.part x.tenant x.addr 64 then { s with releases := s.releases.eraseIdx i }.releaseStep x else none

/-- RECORD_RELEASE (R183, R198). -/
def execRecordRelease (i : Nat) (s : State) : Host.Outcome State Fault Refusal := runEvent "RECORD_RELEASE" (s.releaseAt' i)

/-- GROUP_COUNT_STEP: a change of a completion record reaches its home (R174, R175). -/
def State.groupStepAt (s : State) (i : Nat) : Option State :=
  s.groupSteps[i]?.bind fun x =>
    if s.stepReady x.core x.ref.part x.ref.tenant (s.groupAddr x.ref) 32 then some ({ s with groupSteps := s.groupSteps.eraseIdx i }.applyGroup x)
    else none

/-- GROUP_COUNT_STEP (R174, R175). -/
def execGroupCountStep (i : Nat) (s : State) : Host.Outcome State Fault Refusal := runEvent "GROUP_COUNT_STEP" (s.groupStepAt i)

/-! ## Charge and budget (R192, R195) -/

/-- CHARGE_EXHAUSTED: an admitted slice has spent its charge. It stops, to be saved in full and to go on as a background
record; LATE is set in its group. What it holds in a queue of requests is withdrawn; an NWR that has been performed completes. -/
def State.chargeSpent (s : State) (g : Nat) : Option State :=
  let x := s.slot g
  if x.live ∧ x.admitted ∧ x.charge = 0 ∧ x.tile?.isNone then
    let s := match groupRef (s.partOfSlot g) x.tenant x.group with
      | some r => s.groupLater { ref := r, delta := 0, late := true, core := coreOf g }
      | none => s
    let s := s.modSlot g fun y =>
      { y with admitted := false, charge := 0, chargeFrac := 0, dline := background, stopped := some none }
    match x.wait with
    | .parked => some ((s.unpark g).getD s)
    | .nwr =>
      if s.nwrs.any fun r => r.src == g then
        some ({ s with nwrs := s.nwrs.filter fun r => r.src ≠ g }.modSlot g fun y => { y with wait := Wait.none })
      else some s
    | _ => some s
  else none

/-- CHARGE_EXHAUSTED (R192). -/
def execChargeExhausted (slot : Nat) (s : State) : Host.Outcome State Fault Refusal := runEvent "CHARGE_EXHAUSTED" (s.chargeSpent slot)

/-- Whether slot `g` is about to fetch with no issue left. -/
def State.issuesSpent (s : State) (g : Nat) : Bool :=
  let x := s.slot g
  x.live && x.limited && x.issues == 0#32 && x.wait == Wait.none && x.stopped.isNone

/-- BUDGET_EXHAUSTED: BUDGET is raised before the next fetch (R195). -/
def State.budgetSpent (s : State) (g : Nat) : Option State :=
  if s.issuesSpent g && !(s.slot g).grace then s.takeTrap g .budget 0#64 0 else none

/-- BUDGET_EXHAUSTED (R195). -/
def execBudgetExhausted (slot : Nat) (s : State) : Host.Outcome State Fault Refusal := runEvent "BUDGET_EXHAUSTED" (s.budgetSpent slot)

/-- GRACE_EXHAUSTED: the grace has run out; the trap is unhandled (R195, R205). -/
def State.graceSpent (s : State) (g : Nat) : Option State :=
  if s.issuesSpent g && (s.slot g).grace then s.unhandled g .budget 0#64 0 else none

/-- GRACE_EXHAUSTED (R195). -/
def execGraceExhausted (slot : Nat) (s : State) : Host.Outcome State Fault Refusal := runEvent "GRACE_EXHAUSTED" (s.graceSpent slot)

/-! ## The host's enqueue windows (R190) -/

/-- A store of the host on its way to its home (R417): it enters at die 0, an enqueue-window store on the channel of its class,
another on that of class 3 (DESIGN CHOICE, log 30). A window store releases: the host's earlier stores come first. -/
def State.hostSend (s : State) (kind : AccessKind) (home p t : Nat) (ws : List (Nat × Byte)) : State :=
  let id := s.fresh
  let before := match kind with | .store => [] | _ => (s.flight.filter fun (x : Access) => x.slot == hostSlot).map Access.id
  let a : Access :=
    { id := id, slot := hostSlot, tid := 0, instr := id, kind := kind, home := home, writes := ws, holds := before, tenant := t, part := p }
  let cls := match kind with | .store => hardwareClass | _ => s.messageClass p t (some kind)
  { s with fresh := s.fresh + 1, flight := s.flight ++ [a] }.post id cls false hostSlot home
    (hostIn :: s.pathTo 0 home)

/-- A window store that the host makes: on its way, or lost with an error record while the link is down (R190, R416). -/
def State.hostEnqueue (s : State) (cl t : Nat) (addr : U64) (submit : Bool) : Option State :=
  let p := s.partOf (8 * cl)
  if 80 ≤ cl ∨ 16 ≤ t ∨ !s.fw.booted then none
  else if s.hostDown = 15#4 then some (s.errorRecord 0 addr noSlot ((Config.freeTval s.tick).toNat % 256) 3 t p false)
  else some (s.hostSend (.window cl t (if submit then 8 else 0) addr) (5000 + cl) p t [])

/-- A window store of the host that is on its way takes effect at its home (R190): in the order in which the host made those
to one home (R149). A cluster whose hold register is occupied leaves it on its channel (R180). -/
def State.hostWindow (s : State) (cl t : Nat) (addr : U64) (submit : Bool) : Option State :=
  (s.flight.find? fun a => a.slot == hostSlot && a.kind == .window cl t (if submit then 8 else 0) addr).bind fun a =>
    if s.mayPerform a then s.perform a else none

/-- ENQUEUE_WINDOW_SPAWN (R190). -/
def execEnqueueWindowSpawn (cluster tenant : Nat) (addr : U64) (s : State) : Host.Outcome State Fault Refusal :=
  runEvent "ENQUEUE_WINDOW_SPAWN" (s.hostWindow cluster tenant addr false)

/-- ENQUEUE_WINDOW_SUBMIT (R190). -/
def execEnqueueWindowSubmit (cluster tenant : Nat) (addr : U64) (s : State) : Host.Outcome State Fault Refusal :=
  runEvent "ENQUEUE_WINDOW_SUBMIT" (s.hostWindow cluster tenant addr true)

/-- ENQUEUE_WINDOW_SPAWN_RESULT: the host loads the result word, which stays as it is (R190). -/
def execEnqueueWindowSpawnResult (cluster tenant : Nat) (s : State) : Host.Outcome State Fault Refusal :=
  runEvent "ENQUEUE_WINDOW_SPAWN_RESULT" (if cluster < 80 ∧ tenant < 16 ∧ s.fw.booted then some s else none)

/-- ENQUEUE_WINDOW_SUBMIT_RESULT: the host loads the result word, which stays as it is (R190). -/
def execEnqueueWindowSubmitResult (cluster tenant : Nat) (s : State) : Host.Outcome State Fault Refusal :=
  runEvent "ENQUEUE_WINDOW_SUBMIT_RESULT" (if cluster < 80 ∧ tenant < 16 ∧ s.fw.booted then some s else none)

end Sys2Proof.Machine
end

