-- ==== Sys2Proof/Machine/Firmware.lean ====
section
/-!
DEFINITION. Partitions, tenants, links, firmware and errors: partition start and reset (R88, R399 to R402), a tenant
switch (R217, R404, R405), link training (R24), virtual channels (R406, R408), module and port failures (R11, R416, R419), boot,
firmware and attestation (R403, R411, R422 to R426), the host's stores (R417), and soft errors (R427, R428).
-/

namespace Sys2Proof.Machine

/-! ## Partition reset (R402) -/

/-- The bits of a register of the control block or of a tenant block that root firmware sets; the others are reserved
and read 0 (R401, R403). None for a number of neither. -/
def blockMask (n : Nat) : Option U64 :=
  if n = 0x800 then some 0x000F_FF0C#64
  else if n = 0x80C then some 0x0000_7F03#64
  else if n = 0x80D then some 0x0000_7F3F_1FFF_0FFF#64
  else if n = 0x80E then some 0x0000_01FF_00FF_FFFF#64
  else if n = 0x80F then some 0x03FE_03FE_03FE_03FE#64
  else if n = 0x813 then some 0x1F#64
  else if 0x801 ≤ n ∧ n ≤ 0x814 then some (BitVec.allOnes 64)
  else if 0x840 ≤ n ∧ n < 0x8C0 then
    match n % 8 with
    | 0 => some 0x000F_FFFF_FFFF_0007#64
    | 1 => some 0x000F_FFFF_FFFF_FFF8#64
    | 2 => some 0x003F_1F07#64
    | 3 | 4 => some (BitVec.allOnes 64)
    | 5 => some 0x000F_FFFF_FFFF_FFF8#64
    | _ => none
  else none

/-- One word of a block written by root firmware; PCFG keeps the partition's number. -/
def State.setBlockWord (s : State) (p : Nat) (w : Nat × BitVec 64) : State :=
  match blockMask w.1 with
  | none => s
  | some m => s.setPartReg p w.1 ((w.2 &&& m) ||| (if w.1 = 0x800 then BitVec.ofNat 64 p else 0#64))

/-- An entry that belongs to another partition than `p`. -/
def Entry.notOf (p : Nat) (e : Entry) : Bool := e.job.part ≠ p

/-- Cluster `cl` without the entries of partition `p`. -/
def State.clearCluster (s : State) (p cl : Nat) : State :=
  let gone := ((s.cluster cl).list.filter fun e => !e.notOf p).map Entry.seq
  let mine := s.ownsCore p (8 * cl)
  (s.setList cl fun l => l.filter (Entry.notOf p)).modCluster cl fun c =>
    { c with
      hold := c.hold.filter fun h => h.1.notOf p
      windows := c.windows.filter fun w => !gone.contains w.1
      ringHead := c.ringHead.erase p
      winSpawn := if mine then [] else c.winSpawn
      winSubmit := if mine then [] else c.winSubmit }

/-- Whether what slot `g` holds belongs to partition `p`: slot 11 runs messages of every partition (R161). -/
def State.slotOf (s : State) (p g : Nat) : Bool :=
  if slotNo g = 11 ∧ (s.slot g).live then s.partOfSlot g == p else s.ownsCore p (coreOf g)

/-- A core of partition `p` as R289 and R405 leave it: what other partitions have sent to slot 11 still waits. -/
def Core.emptied (c : Core) (p : Nat) : Core := { amsgs := c.amsgs.filter fun m => m.part ≠ p }

/-- A core of another partition than `p`: what it holds for `p` is dropped. -/
def Core.without (c : Core) (p : Nat) : Core :=
  { c with
    tlb := c.tlb.filter fun e => e.part ≠ p
    rcache := c.rcache.filter fun l => l.part ≠ p
    ibuf := c.ibuf.filter fun b => b.part ≠ p
    amsgs := c.amsgs.filter fun m => m.part ≠ p }

/-- Everything that runs, waits or is queued for partition `p` gone, its cores and quadrants as R289 leaves them, its
translations dropped (R402). Accesses already sent are still performed at their homes. -/
def State.emptied (s : State) (p : Nat) : State :=
  let s := (s.clusters.map Prod.fst).foldl (fun s cl => s.clearCluster p cl) s
  let mine := fun (c : Nat) => s.ownsCore p c
  { s with
    slots := s.slots.filterMap fun x => if !s.slotOf p x.1 then some x else if mine (coreOf x.1) then none else some (x.1, x.2.idle)
    cores := (s.cores.map fun x => (x.1, if mine x.1 then x.2.emptied p else x.2.without p)).filter fun x => decide (x.2 ≠ {})
    quads := s.quads.filter fun x => !s.ownsQuad p x.1
    poison := s.poison.filter fun e => (List.range 320).all fun q => !(s.ownsQuad p q) || (lineIn q e.1).isNone
    engines := s.engines.map fun x =>
      (x.1, { x.2 with queues := x.2.queues.map fun q => (q.1, q.2.filter fun c => c.part ≠ p)
                       running := x.2.running.filter fun c => c.part ≠ p })
    layers := s.layers.filter fun x => !s.ownsLayer p x.1
    views := s.views.filter fun x => !s.ownsView p x.1
    flight := s.flight.filter fun (a : Access) => a.part ≠ p || (match a.kind with | .zpiece .. | .elem .. => false | _ => true)
    nwrs := s.nwrs.filter fun r => !s.slotOf p r.src
    parked := s.parked.filter fun r => !s.slotOf p r.slot
    returns := s.returns.filter fun r => !s.slotOf p r.slot
    releases := s.releases.filter fun r => r.part ≠ p
    groupSteps := s.groupSteps.filter fun g => g.ref.part ≠ p
    walks := s.walks.filter fun w => w.job.part ≠ p
    pageWalks := s.pageWalks.filter fun w => w.part ≠ p
    amsgs := s.amsgs.filter fun m => m.part ≠ p
    slices := s.slices.filter fun x => x.job.part ≠ p
    launches := s.launches.filter fun l => l.part ≠ p
    tiles := s.tiles.filter fun t => (s.launch? t.launch).any fun l => l.part ≠ p
    savedZero := s.savedZero.filter fun x => !mine (coreOf x.1)
    savedTiles := s.savedTiles.filter fun x => x.1 / 320 / 16 ≠ p
    absent := s.absent.filter fun g => !mine (coreOfKey g.key)
    codebooks := s.codebooks.filter fun x => x.1 / 2 / 16 / 4 ≠ p
    dirtyFilter := s.dirtyFilter.filter fun x => x.1 / 16 % 4 ≠ p }

/-- PARTITION_RESET: root firmware resets the partition and may then change its control block (R402). -/
def State.partitionReset (s : State) (p : Nat) (ws : List (Nat × BitVec 64)) : Option State :=
  if 4 ≤ p ∨ !s.fw.booted then none
  else
    let s := s.emptied p
    let s := s.setPartReg p 0x800 (s.partReg p 0x800 &&& ~~~8#64)
    let s := ws.foldl (fun s w => s.setBlockWord p w) s
    some { s with parts := s.parts.set {} p { s.part p with running := false } }

/-- PARTITION_RESET (R402). -/
def execPartitionReset (part : Nat) (words : List (Nat × BitVec 64)) (s : State) : Host.Outcome State Fault Refusal :=
  runEvent "PARTITION_RESET" (s.partitionReset part words)

/-! ## Partition start (R88) -/

/-- A set of quadrants that a partition may own in a cluster (R399). -/
def quadSetOk (m : Nat) : Bool := [0, 1, 2, 4, 8, 3, 12, 5, 10, 15].contains m

/-- The set of quadrants of cluster `cl` in the control block of partition `p`. -/
def State.qmap (s : State) (p cl : Nat) : Nat := s.partFld p (0x801 + cl / 16) (4 * (cl % 16)) 4

/-- Whether the control block of partition `p` keeps R399, R401 and R103, beside the partitions that run. -/
def State.blockOk (s : State) (p : Nat) : Bool :=
  ((List.range 80).all fun cl =>
    quadSetOk (s.qmap p cl) && (List.range 4).all fun q => q = p || s.ownedQuads q cl &&& s.qmap p cl == 0) &&
  (s.partReg p 0x806 ≠ 0#64 || s.partReg p 0x807 ≠ 0#64) &&
  decide (12 ≤ s.partFld p 0x800 8 8) && decide (s.partFld p 0x800 8 8 ≤ 20) && decide (s.partFld p 0x80C 8 7 ≤ 64) &&
  (s.partReg p 0x808).toNat % 2 ^ 32 == 0 && (s.partReg p 0x809).toNat % 2 ^ 32 == 0 &&
  ((List.range 4).all fun a => (List.range 4).all fun b => a = b || s.reservedSlots p a &&& s.reservedSlots p b == 0)

/-- The control record of slot 0 (R88): what R171 takes from it. -/
def controlRec (p t : Nat) (code frame : BitVec 128) (deadline : U64) (budget : BitVec 32) (addr : BitVec 52) (group : U64) : Rec :=
  { code := { tag := true, bits := code }, frame := { tag := frame ≠ 0#128, bits := frame }, deadline := deadline, budget := budget,
    addr := addr.toNat, group := group, tenant := t, part := p }

/-- A core of a partition as it starts: every slot's generator seeded (R103), slot 0 running its control record, the helpers with
that record's tenant (DEDUCED, log 36). A message of another partition in slot 11 goes on (R161). -/
def State.startCore (s : State) (p : Nat) (r : Rec) (c : Nat) : State :=
  let s := (List.range 12).foldl (fun s i =>
    let g := 12 * c + i
    let x : Slot := if (s.slot g).live then s.slot g else { tenant := r.tenant }
    let seed := s.seeded p g
    s.setSlot g { x with rngLo := seed.1, rngHi := seed.2 }) s
  s.startRec (12 * c) r 0 1 fun x => { x with user := s.partFld p 0x800 2 1 == 0 }

/-- Whether the capabilities of a control record keep R113. -/
def Rec.capsLegal (r : Rec) : Bool := r.code.legal && (!r.frame.tag || r.frame.legal)

/-- Partition `p` counted as running. -/
def State.running (s : State) (p : Nat) : State := { s with parts := s.parts.set {} p { s.part p with running := true } }

/-- Whether the dies of the cores that partition `p` owns once it runs have left reset (R23). -/
def State.diesUp (s : State) (p : Nat) : Bool :=
  ((List.range 640).filter ((s.running p).ownsCore p)).all fun c => s.dieUp (dieOf c)

/-- PARTITION_START: the partition leaves reset (R88). Root firmware does so once it runs (R422, R425) and the dies of the
partition's cores have left reset (R23), with capabilities that keep R113. -/
def State.partitionStart (s : State) (p : Nat) (r : Rec) : Option State :=
  if 4 ≤ p ∨ (s.part p).running ∨ !s.fw.booted ∨ !s.blockOk p ∨ !r.capsLegal ∨ !s.diesUp p then none
  else
    let s := (s.running p).emptied p
    some (((List.range 640).filter (s.ownsCore p)).foldl (fun s c => s.startCore p r c) s)

/-- PARTITION_START (R88, R171). -/
def execPartitionStart (part tenant : Nat) (code frame : BitVec 128) (deadline : U64) (budget : BitVec 32)
    (recAddr : BitVec 52) (group : U64) (s : State) : Host.Outcome State Fault Refusal :=
  runEvent "PARTITION_START" (s.partitionStart part (controlRec part tenant code frame deadline budget recAddr group))

/-! ## Tenant switch (R404, R405) -/

/-- Helpers 1 to 10 of a core. -/
def helpersOf (c : Nat) : List Nat := (List.range 10).map fun i => 12 * c + 1 + i

/-- What a core discards when the last helper of tenant `t` of partition `p` has left it (R404). -/
def Core.forget (c : Core) (p t : Nat) : Core :=
  { c with rcache := c.rcache.filter fun l => !(l.part == p && l.tenant == t)
           ibuf := c.ibuf.filter fun b => !(b.part == p && b.tenant == t) }

/-- The entries of a tenant taken out of a core's queue registers (R405). -/
def Core.dropEntries (c : Core) (t : Nat) : Core :=
  { c with queues := (c.queues.map fun q => (q.1, q.2.filter fun e => e.tenant ≠ t)).filter fun q => !q.2.isEmpty }

/-- Helper `g` passes to tenant `nt`; none while it must wait (R404): it runs or is borrowed; the core's last helper of its tenant
waits for the message that slot 11 runs (R217), and the tenant's last slot of the pair for the commands on its quadrant (R316). -/
def State.passHelper (s : State) (nt g : Nat) : Option State :=
  let x := s.slot g
  let c := coreOf g
  let p := s.partOf c
  if x.tenant = nt ∨ x.live ∨ x.borrowed then none
  else
    let s' := s.modSlot g fun y => { y with tenant := nt }
    if (helpersOf c).any (s'.slotOfTenant p x.tenant) then some s'
    else if (s.slot (12 * c + 11)).live then none
    else
      let s' := s'.modCore c fun k => k.forget p x.tenant
      let s' := if s'.holdsCore p x.tenant c then s' else s'.modCore c fun k => k.dropEntries x.tenant
      if s'.holdsPair p x.tenant c then
        -- slot 0 or 11 alone holds the pair still
        some (if (helpersOf (c / 2 * 2) ++ helpersOf (c / 2 * 2 + 1)).any (s'.slotOfTenant p x.tenant) then s'
          else s'.modQuad (quadOf c) fun q => { q with parting := some (x.tenant, nt) })
      else if s.commandsOn (quadOf c) ∨ (s.quad (quadOf c)).leaving.isSome then none
      else some (s'.modQuad (quadOf c) fun q => { q with leaving := some (x.tenant, nt) })

/-- The helpers among `gs` that can pass to tenant `nt` have passed. -/
def State.passAll (s : State) (nt : Nat) (gs : List Nat) : State := gs.foldl (fun s g => (s.passHelper nt g).getD s) s

/-- TENANT_SWITCH: service firmware has the helpers of core `c` pass to tenant `nt` (R404). Those that run are asked to stop
(R217), but for admitted slices; each passes once it is idle, and the event comes again until all have passed. -/
def State.tenantSwitch (s : State) (c nt : Nat) : Option State :=
  if 640 ≤ c ∨ 16 ≤ nt ∨ !s.fw.booted then none
  else
    let asked := (helpersOf c).filter fun g =>
      (s.slot g).tenant ≠ nt && (s.slot g).live && !(s.slot g).admitted && (s.slot g).preempt.isNone
    let s1 := asked.foldl (fun s g => s.modSlot g fun x => { x with preempt := some s.now }) s
    let s2 := s1.passAll nt (helpersOf c)
    let all := (helpersOf c).all fun g => (s2.slot g).tenant == nt
    let moved := (helpersOf c).any fun g => (s2.slot g).tenant ≠ (s.slot g).tenant
    if (s.core c).switchTo = some nt ∧ asked = [] ∧ !moved then none
    else some (s2.modCore c fun k => { k with switchTo := if all then none else some nt })

/-- TENANT_SWITCH (R404). -/
def execTenantSwitch (core toTenant : Nat) (s : State) : Host.Outcome State Fault Refusal :=
  runEvent "TENANT_SWITCH" (s.tenantSwitch core toTenant)

/-! ## Links (R24, R406, R408) -/

/-- The flits that a link has sent and that were not acknowledged stand before its others again, oldest first, each on its
channel (R416); their places at the far end are free. -/
def Link.recall (k : Link) : Link :=
  { k with unacked := [], credits := []
           waiting := k.unacked.reverse.foldl (fun w f => w.set [] f.sub (f :: w.get [] f.sub)) k.waiting }

/-- LINK_TRAIN: once both dies count (R23), a die-to-die link measures the difference of its two counters, `err` - 4 cycles off, and stores an offset
for each direction (R24); its counters of free slots start again (R406). -/
def State.linkTrain (s : State) (l : Nat) (err : BitVec 4) : Option State :=
  let a := l / 4
  let b := l % 4
  if 16 ≤ l ∨ (dieRoute a b).length ≠ 1 ∨ 8 < err.toNat ∨ !s.dieUp a ∨ !s.dieUp b then none
  else
    let m := s.cycle b - s.cycle a + BitVec.ofNat 64 err.toNat - 4#64
    let offs := (s.linkOff.set 0#64 (linkDir a b) (m - 4#64)).set 0#64 (linkDir b a) (0#64 - m - 4#64)
    some (({ s with linkOff := offs }.modLink (dieLink a b) Link.recall).modLink (dieLink b a) Link.recall)

/-- LINK_TRAIN (R24). -/
def execLinkTrain (link : Nat) (err : BitVec 4) (s : State) : Host.Outcome State Fault Refusal :=
  runEvent "LINK_TRAIN" (s.linkTrain link err)

/-- The partition whose rates an output's arbiter uses (log 30): that of the core where it stands, else the lowest that
runs. -/
def State.linkPart (s : State) (l : Nat) : Nat :=
  if l < 2560 then s.partOf (l / 4) else if 2602 ≤ l then s.partOf (nodeOfHome (l - 2602))
  else ((List.range 4).find? fun p => (s.part p).running).getD 0

/-- Whether a link is down: a failed port (R11, R419), or the host link with no module left (R416). -/
def State.linkDown (s : State) (l : Nat) : Bool :=
  (decide (2576 ≤ l) && decide (l < 2600) && bitAt s.portDown (l - 2576)) || ((l == hostLink || l == hostIn) && s.hostDown == 15#4)

/-- Whether class `c` has a flit with a free slot, and its subchannel: a response before a request (R408). -/
def Link.ready (k : Link) (l c : Nat) : Option Nat :=
  [2 * c + 1, 2 * c].find? fun i => !(k.waiting.get [] i).isEmpty && decide (0 < k.free l i)

/-- A flit of subchannel `i` sent (R406). -/
def Link.send (k : Link) (l i : Nat) : Link :=
  match k.waiting.get [] i with
  | [] => k
  | f :: fs => { k with waiting := k.waiting.set [] i fs, credits := k.credits.set (linkDepth l) i (k.free l i - 1), unacked := k.unacked ++ [f] }

/-- What a rate adds to a counter of 256ths and to its tokens in one cycle (R408). -/
def accrue (rate acc tokens : Nat) : Nat × Nat := if 256 ≤ acc + rate then (acc + rate - 256, min (tokens + 1) 16) else (acc + rate, tokens)

/-- One cycle of an output's arbiter, which chooses once a cycle (R408). Nothing counts while no flit waits. -/
def State.arbitrate (s : State) (l : Nat) : Option State :=
  let k := s.link l
  let p := s.linkPart l
  if (k.waiting.all fun w => w.2.isEmpty) ∨ s.linkDown l ∨ k.chosenAt = some s.now then none
  else
    let r := accrue (s.partFld p 0x80E 32 9) k.acc k.tokens
    let k := { k with acc := r.1, tokens := r.2, chosenAt := some s.now }
    let k' : Link := match k.ready l 0, decide (1 ≤ k.tokens) with
      | some i, true => { k.send l i with tokens := k.tokens - 1 }
      | _, _ =>
        match turnClass (fun c => (k.ready l c).isSome) (s.weight p) k.rrClass k.rrUsed with
        | some (c, used) => { k.send l ((k.ready l c).getD 0) with rrClass := c, rrUsed := used }
        | none => k
    some (s.modLink l fun _ => k')

/-- FLIT_ARBITRATION (R408). -/
def execFlitArbitration (link : Nat) (s : State) : Host.Outcome State Fault Refusal :=
  runEvent "FLIT_ARBITRATION" (s.arbitrate link)

/-- A flit that has crossed a link: it waits for the next one of its path, or its message has arrived (R407). -/
def State.flitArrives (s : State) (f : Flit) : State :=
  match f.path with
  | [] => (s.landed f.id).ackLands f.id
  | _ => s.putFlit f

/-- CREDIT_RETURN: the receiver has freed a slot of a subchannel (R406); the flit that stood in it, the oldest, has gone on. -/
def State.creditReturn (s : State) (l cls : Nat) (resp : Bool) : Option State :=
  let i := 2 * cls + (if resp then 1 else 0)
  ((s.link l).unacked.find? fun f => f.sub == i).map fun f =>
    (s.modLink l fun k =>
      { k with credits := k.credits.set (linkDepth l) i (min (linkDepth l) (k.free l i + 1)), unacked := k.unacked.erase f }).flitArrives f

/-- CREDIT_RETURN (R406). -/
def execCreditReturn (link cls : Nat) (resp : Bool) (s : State) : Host.Outcome State Fault Refusal :=
  runEvent "CREDIT_RETURN" (s.creditReturn link cls resp)

/-- FLIT_RETRY: a flit that fails its CRC is sent again, and stays unacknowledged (R418). -/
def execFlitRetry (link : Nat) (s : State) : Host.Outcome State Fault Refusal :=
  runEvent "FLIT_RETRY" (if (s.link link).unacked.isEmpty then none else some s)

/-! ## Failures of links (R11, R416, R419) -/

/-- An error record of which the manual gives ADDR, CODE, TENANT and PART no value where it gives none here: they are free
(log 25). -/
def State.openError (s : State) (die : Nat) (addr : Option U64) (source : Nat) (corr : Bool) : State :=
  let f := (Config.freeTval s.tick).toNat
  { s with tick := s.tick + 2 }.errorRecord die (addr.getD (Config.freeTval (s.tick + 1))) noSlot (f % 256) source (f / 256 % 16)
    (f / 4096 % 4) corr

/-- An enqueue-window store that has not crossed the host link when its last module fails is lost, with an error record
(R416). -/
def State.loseWindows (s : State) : State :=
  let gone := s.flight.filter fun (a : Access) =>
    a.slot == hostSlot && (match a.kind with | .window .. => true | _ => false) &&
      (((s.link hostIn).waiting.flatMap Prod.snd) ++ (s.link hostIn).unacked).any fun f => f.id == a.id
  gone.foldl (fun s (a : Access) => { s with flight := s.flight.filter fun x => x.id ≠ a.id }.openError 0 none 3 false) s

/-- HOST_MODULE_FAILURE: a module of the host link goes down as a whole (R11, R416). What it had not had acknowledged, in either
direction, is sent again before any later flit of its channel, and service firmware gets an error record. With no module left
nothing crosses: what waits for the host finds that it cannot be reached. -/
def State.moduleDown (s : State) (i : Nat) : Option State :=
  if 4 ≤ i ∨ bitAt s.hostDown i then none
  else
    let s := { s with hostDown := s.hostDown ||| BitVec.ofNat 4 (2 ^ i) }.openError 0 none 3 false
    let s := (s.modLink hostLink Link.recall).modLink hostIn Link.recall
    if s.hostDown = 15#4 then
      let lost := (s.link hostIn).waiting.flatMap Prod.snd
      let s := (s.loseWindows.modLink hostLink fun k => { k with waiting := [] }).modLink hostIn fun k => { k with waiting := [] }
      some (lost.foldl (fun s f => s.ackLost f.id) s)
    else some s

/-- HOST_MODULE_FAILURE (R416). -/
def execHostModuleFailure (module : Nat) (s : State) : Host.Outcome State Fault Refusal :=
  runEvent "HOST_MODULE_FAILURE" (s.moduleDown module)

/-- A flit put before the first that follows it between the same source and destination, else at the end (R419). -/
def insertFlit (f : Flit) : List Flit → List Flit
  | [] => [f]
  | g :: gs => if g.src = f.src ∧ g.dst = f.dst ∧ f.id < g.id then f :: g :: gs else g :: insertFlit f gs

/-- The flits of the package that are on link `l` or still to cross it, and the links without them. -/
def State.flitsOf (s : State) (l : Nat) : List Flit :=
  s.links.flatMap fun k => ((k.2.unacked ++ k.2.waiting.flatMap Prod.snd).filter fun f => k.1 == l || f.path.contains l)

/-- The links with the flits of `l` taken out. -/
def State.takeFlits (s : State) (l : Nat) : State :=
  let keep := fun (i : Nat) (f : Flit) => !(i == l || f.path.contains l)
  { s with links := s.links.map fun k =>
      (k.1, { k.2 with unacked := k.2.unacked.filter (keep k.1)
                       waiting := (k.2.waiting.map fun w => (w.1, w.2.filter (keep k.1))).filter fun w => !w.2.isEmpty }) }

/-- The die at whose route table a flit looks: its source's, for a message of a slot. -/
def Flit.die (f : Flit) (port : Nat) : Nat := if f.src < 7680 then dieOf (coreOf f.src) else port / 6

/-- A flit of a failed port sent again on the lowest remaining port of its route; none when no port remains (R419, R420). -/
def State.reroute (s : State) (port : Nat) (f : Flit) : State :=
  match s.portTo (f.die port) (f.dst - 10000) with
  | none => s
  | some j => s.modLink (portLink j) fun k => { k with waiting := k.waiting.set [] f.sub (insertFlit { f with path := [] } (k.waiting.get [] f.sub)) }

/-- FABRIC_PORT_FAILURE: a port goes down as a whole (R11, R419): what it had not had acknowledged, and what waits for it, goes to
the remaining ports of its route, and service firmware gets an error record. -/
def State.portFails (s : State) (i : Nat) : Option State :=
  if 24 ≤ i ∨ bitAt s.portDown i then none
  else
    let s := { s with portDown := s.portDown ||| BitVec.ofNat 24 (2 ^ i) }.openError (i / 6) none 3 false
    some ((s.flitsOf (portLink i)).foldl (fun s f => s.reroute i f) (s.takeFlits (portLink i)))

/-- FABRIC_PORT_FAILURE (R419). -/
def execFabricPortFailure (port : Nat) (s : State) : Host.Outcome State Fault Refusal :=
  runEvent "FABRIC_PORT_FAILURE" (s.portFails port)

/-! ## Boot, firmware and attestation (R422 to R426) -/

/-- BOOT: the image's signatures and security version are checked; the measurements are free (log 8). When every check passes the
dies leave reset, each after a time that is free (R23, log 70); otherwise they stay there. -/
def State.bootUp (s : State) (ecdsa lms : Bool) (version : U64) : Option State :=
  if s.fw.booted || s.fw.bootFailed then none
  else if ecdsa && lms && decide (s.fw.fusedVersion.toNat ≤ version.toNat) then
    some { s with tick := s.tick + 6
                  dieStart := [0, 1, 2, 3].map fun d => (d, s.now + Config.startDelay (s.tick + 2 + d))
                  fw := { s.fw with booted := true, measRoot := BitVec.ofNat 384 (Config.digest s.tick)
                                    measService := BitVec.ofNat 384 (Config.digest (s.tick + 1)) } }
  else some { s with fw := { s.fw with bootFailed := true } }

/-- BOOT (R425). -/
def execBoot (ecdsaOk lmsOk : Bool) (version : U64) (s : State) : Host.Outcome State Fault Refusal :=
  runEvent "BOOT" (s.bootUp ecdsaOk lmsOk version)

/-- SERVICE_CORE_RESTART: a fault in service firmware. An error record goes to root firmware, which restarts that core; requests
that are held stay held (R423). What the record says beside its time and source is free (log 25). -/
def State.serviceRestart (s : State) (die : Nat) : Option State :=
  if die < 4 ∧ s.fw.booted then
    let f := (Config.freeTval s.tick).toNat
    let r : ErrorRec := { addr := Config.freeTval (s.tick + 1), time := s.cycle die, gslot := noSlot, code := f % 256, source := 5,
                          tenant := f / 256 % 16, part := f / 4096 % 4, corr := false }
    some { s with tick := s.tick + 2
                  fw := { s.fw with restarts := s.fw.restarts.set 0 die (s.fw.restarts.get 0 die + 1), rootErrors := s.fw.rootErrors ++ [r] } }
  else none

/-- SERVICE_CORE_RESTART (R423). -/
def execServiceCoreRestart (die : Nat) (s : State) : Host.Outcome State Fault Refusal :=
  runEvent "SERVICE_CORE_RESTART" (s.serviceRestart die)

/-- The words of the control block of partition `p` (R401). -/
def State.controlBlock (s : State) (p : Nat) : SMap U64 := (List.range 21).map fun i => (0x800 + i, s.partReg p (0x800 + i))

/-- ATTESTATION_REQUEST: a report over both measurements, the fused version, the control blocks in force and the nonce, signed by
both identity keys (R426); signatures are free (log 8). -/
def State.attest (s : State) (nonce : BitVec 256) : Option State :=
  if s.fw.booted then
    let r : Report :=
      { measRoot := s.fw.measRoot, measService := s.fw.measService, version := s.fw.fusedVersion
        blocks := ((List.range 4).filter fun p => (s.part p).running).map fun p => (p, s.controlBlock p)
        nonce := nonce, sigEcdsa := Config.signature 0 s.fw.ecdsaKey s.tick, sigLms := Config.signature 1 s.fw.lmsKey s.tick }
    some { s with tick := s.tick + 1, fw := { s.fw with report := some r } }
  else none

/-- ATTESTATION_REQUEST (R426). -/
def execAttestationRequest (nonce : BitVec 256) (s : State) : Host.Outcome State Fault Refusal :=
  runEvent "ATTESTATION_REQUEST" (s.attest nonce)

/-! ## What the host and firmware do beside the events of the table -/

/-- Whether bytes of memory are root firmware's alone to write (R422): part of the journal of a partition that runs, or of the root
table of one of its tenants (R163, R412). -/
def State.rootOnly (s : State) (key n : Nat) : Bool :=
  let meets := fun (lo size : Nat) => decide (key < lo + size) && decide (lo < key + n)
  (List.range 4).any fun p => (s.part p).running &&
    (meets (s.partReg p 0x812).toNat (32 * 2 ^ s.partFld p 0x813 0 5) ||
      (List.range 16).any fun t => s.partFld p (tenantReg t 0) 2 1 ≠ 0 && meets (s.partFld p (tenantReg t 0) 16 36 * 2 ^ 16) (2 ^ 16))

/-- A store of the host to memory of the package, within one line (R417): on its way, or lost while the link is down. What is root
firmware's alone to write is no place for it (R422). -/
def State.hostStore (s : State) (key : Nat) (bs : List Byte) : Option State :=
  if !s.fw.booted ∨ bs = [] ∨ 64 < key % 64 + bs.length ∨ 2 ^ 60 ≤ key ∨ dieOfPA key = none ∨ s.rootOnly key bs.length then none
  else if s.hostDown = 15#4 then some s
  else some (s.hostSend .store (homeOf key) 0 0 (writesAt key bs))

/-- Service firmware writes a word of a tenant block (R403, R411). Setting EN starts HEAD and the logging filters again (R403,
R409). -/
def State.serviceWord (s : State) (p t : Nat) (w : ServiceWord) : Option State :=
  let ctl := tenantReg t 2
  if 4 ≤ p ∨ 16 ≤ t ∨ !s.fw.booted then none
  else match w with
    | .tail v => some (s.setPartReg p (tenantReg t 4) v)
    | .clearFlags => some (s.setPartReg p ctl (s.partReg p ctl &&& ~~~6#64))
    | .logOn false => some (s.setPartReg p ctl (s.partReg p ctl &&& ~~~1#64))
    | .logOn true =>
      let s := { s with dirtyFilter := s.dirtyFilter.filter fun x => x.1 % 64 ≠ p * 16 + t }
      some ((s.setPartReg p ctl (s.partReg p ctl ||| 1#64)).setPartReg p (tenantReg t 3) 0#64)

/-- A store of firmware on its way to its home on the channel of class 3 (R407), from core `c` (log 30). -/
def State.firmwareSend (s : State) (c key : Nat) (bs : List Byte) : State :=
  let a : Access :=
    { id := s.fresh, slot := serviceSlot, tid := 0, instr := s.fresh, kind := .store, home := homeOf key, writes := writesAt key bs, core := c }
  { s with fresh := s.fresh + 1 }.launchAccess a

/-- Service firmware stores to memory that root firmware has mapped for it (R411, R422, R423), from the die where that stands. -/
def State.serviceStore (s : State) (key : Nat) (bs : List Byte) : Option State :=
  if s.fw.booted ∧ bs ≠ [] ∧ key % 64 + bs.length ≤ 64 ∧ s.rootOnly key bs.length = false ∧
      s.fw.serviceMap.any fun r => decide (r.1 ≤ key) && decide (key + bs.length ≤ r.2) then
    some (s.firmwareSend (160 * dieOfHome (homeOf key)) key bs)
  else none

/-- Root firmware, on die 0, stores to a journal or to a root table (R412, R422). -/
def State.rootStore (s : State) (key : Nat) (bs : List Byte) : Option State :=
  if s.fw.booted ∧ bs ≠ [] ∧ key % 64 + bs.length ≤ 64 ∧ s.rootOnly key bs.length then some (s.firmwareSend 0 key bs) else none

/-- Service firmware takes the oldest error record of a die's ring (R423, R424). -/
def State.takeRecord (s : State) (die : Nat) : Option State :=
  match s.errRing.get [] die with
  | [] => none
  | _ :: rs => if s.fw.booted then some { s with errRing := s.errRing.set [] die rs } else none

/-- Root firmware gives the package its index (R418). -/
def State.setIndex (s : State) (n : Nat) : Option State := if s.fw.booted ∧ n < 512 then some { s with pkgIndex := n } else none

/-- Root firmware fills an entry of a die's route table (R419, R422): a package with no port lies outside the domain (R418). -/
def State.setRoute (s : State) (die pkg : Nat) (ports : BitVec 24) : Option State :=
  if s.fw.booted ∧ die < 4 ∧ pkg < 512 then some { s with routes := s.routes.set 0#24 (512 * die + pkg) ports } else none

/-- Root firmware maps memory for service firmware (R422). -/
def State.mapService (s : State) (lo hi : Nat) : Option State :=
  if s.fw.booted then some { s with fw := { s.fw with serviceMap := s.fw.serviceMap ++ [(lo, hi)] } } else none

/-- An array's accumulation is hit by an error that its residue shows (R427). -/
def State.hitResidue (s : State) (quad : Nat) : Option State :=
  if quad < 320 then some (s.modQuad quad fun q => { q with residue := true }) else none

/-! ## Soft errors (R427, R428) -/

/-- PATROL_SCRUB: a line read and corrected; nothing visible changes (R427). -/
def execPatrolScrub (_line : Nat) (s : State) : Host.Outcome State Fault Refusal := runEvent "PATROL_SCRUB" (some s)

/-- CORRECTED_ERROR: no visible state changes, and a record with CORR = 1 is sent (R427). -/
def execCorrectedError (die : Nat) (addr : U64) (s : State) : Host.Outcome State Fault Refusal :=
  runEvent "CORRECTED_ERROR" (if die < 4 then some (s.openError die (some addr) 4 true) else none)

/-- Where the lines of the register files stand, after those of memory, tiles and accumulators: 2^61 + slot. -/
def registerLine : Nat := 2 ^ 61

/-- UNCORRECTABLE_ERROR: a line of memory, of a tile or of an accumulator is marked poisoned and reported, and the groups of
the stores on their way to it get FAILED; a register file's error raises MCHECK in its slot at its next issue (R428, R313).
-/
def State.uncorrectable (s : State) (line : Nat) : Option State :=
  if registerLine ≤ line then
    let g := line - registerLine
    if (s.slot g).live then some ({ s with tick := s.tick + 1 }.modSlot g fun x => { x with mcheck := some (Config.freeTval s.tick) }) else none
  else
    let s' := s.setPoison (line * 64) true
    if 2 ^ 60 ≤ line then some s'
    else
      let hit := s.flight.filter fun a => a.writes.any fun w => w.1 / 64 == line
      let s' := hit.foldl (fun s (a : Access) =>
        match groupRef a.part a.tenant a.group with
        | some r => s.groupLater { ref := r, delta := 0, failed := true, core := coreOf a.slot }
        | none => s) s'
      let die := dieOfHome (homeOf (line * 64)) % 4
      some (s'.openError die (some (BitVec.ofNat 64 (physOf (line * 64)))) 4 false)

/-- UNCORRECTABLE_ERROR (R428). -/
def execUncorrectableError (line : Nat) (s : State) : Host.Outcome State Fault Refusal :=
  runEvent "UNCORRECTABLE_ERROR" (s.uncorrectable line)

end Sys2Proof.Machine
end

