-- ==== Sys2Proof/Machine/Future.lean ====
section
/-!
DEFINITION. Futures: major FUT (R197 to R199).
-/

namespace Sys2Proof.Machine

/-- The future operand (R198), its low word and its value. -/
def futureAt (k : Cap) : Exec (RecordAt × Nat × U64) := do
  let r ← objectAt k 16 [0, 1, 5] [1, 2, 4] false
  let bs ← readBytes r.key 16
  pure (r, leAt bs 0 8, BitVec.ofNat 64 (leAt bs 8 8))

/-- STATE of a future's low word. -/
def futState (lo : Nat) : Nat := lo % 4

/-- An ill-formed future raises FUTREG (R197). -/
def wellFormedFuture (r : RecordAt) (lo : Nat) : Exec Unit := require (futureOk lo) .futReg (u64 r.addr)

/-- The JOIN step of R183 sent to the record at `addr` (R198). -/
def sendRelease (addr : Nat) : Exec Unit := do
  let s ← get
  let w := s.who s.cur
  set { s with releases := s.releases ++ [({ addr := addr, tenant := w.tenant, part := w.part, core := w.core } : Release)] }

/-- A step that would release the record at `addr` into a queue waits while the enqueuer must (R180). -/
def releaseFree (addr : Nat) : Exec Unit := do
  let s ← get
  let w := s.who s.cur
  await (!s.releaseBlocked addr w.tenant w.part w.core)

/-- FINIT (R198). -/
def execFinit (ka : BitVec 3) (s : State) : Host.Outcome State Fault Refusal :=
  runInstr 4 (do
    notLatent
    let k ← kreg ka
    let (r, lo, _) ← futureAt k
    require (decide (futState lo ≠ 1)) .futReg (u64 r.addr)
    writeObject r 0 (toBytes 16 0)
    pure .next) s

/-- FRES (R198), after a release at domain scope (R172). -/
def execFres (d : Dst) (ka : BitVec 3) (b : Src) (s : State) : Host.Outcome State Fault Refusal :=
  runInstr 4 (do
    let v ← src b
    notLatent
    let k ← kreg ka
    fenceRel 5
    let (r, lo, _) ← futureAt k
    wellFormedFuture r lo
    require (decide (futState lo ≠ 2)) .futDbl (u64 r.addr)
    if futState lo = 1 then releaseFree (lo / 16 * 16)
    writeObject r 0 (resolvedFuture lo v.toNat)
    if futState lo = 1 then sendRelease (lo / 16 * 16)
    dst d (BitVec.ofNat 64 (futState lo))
    pure .next) s

/-- FREG (R198), after a release at domain scope (R172). -/
def execFreg (d : Dst) (ka kb : BitVec 3) (s : State) : Host.Outcome State Fault Refusal :=
  runInstr 4 (do
    notLatent
    let k ← kreg ka
    let c ← kreg kb
    fenceRel 5
    let (r, lo, _) ← futureAt k
    let j ← recordAt c
    wellFormedFuture r lo
    require (decide (futState lo ≠ 1)) .futReg (u64 r.addr)
    if futState lo = 0 then writeObject r 0 (toBytes 8 (j.addr + 1))
    else
      releaseFree j.addr
      sendRelease j.addr
    dst d (BitVec.ofNat 64 (futState lo))
    pure .next) s

/-- FGET (R198). -/
def execFget (d : Dst) (ka : BitVec 3) (s : State) : Host.Outcome State Fault Refusal :=
  runInstr 4 (do
    notLatent
    let k ← kreg ka
    let (r, lo, v) ← futureAt k
    wellFormedFuture r lo
    require (decide (futState lo = 2)) .futEmpty (u64 r.addr)
    dst d v
    pure .next) s

/-- FSTAT (R197, R198): it ignores the reserved bits. -/
def execFstat (d : Dst) (ka : BitVec 3) (s : State) : Host.Outcome State Fault Refusal :=
  runInstr 4 (do
    notLatent
    let k ← kreg ka
    let (_, lo, _) ← futureAt k
    dst d (BitVec.ofNat 64 (futState lo))
    pure .next) s

end Sys2Proof.Machine
end

