-- ==== Sys2Proof/Machine/Remote.lean ====
section
/-!
DEFINITION. Remote operations and active messages: major REMOTE (R159 to R161), and the events that run a message
and return a count.
-/

namespace Sys2Proof.Machine

/-- The group against which an RST or AMSG of slot `g` counts: none in slots 0 and 11 (R160). -/
def State.remoteGroup (s : State) (g : Nat) : U64 := if slotNo g = 0 ∨ slotNo g = 11 then 0#64 else (s.slot g).group

/-- The count of the issuing slot and of its group raised at issue (R160, R161). -/
def countRemote : Exec Unit := do
  let s ← get
  raiseLive (s.remoteGroup s.cur) 1
  modSlot fun y => { y with rsts := y.rsts + 1 }

/-- RST (R160). -/
def execRst (size : BitVec 2) (ka : BitVec 3) (b : Src) (s : State) : Host.Outcome State Fault Refusal :=
  runInstr 4 (do
    let x ← src b
    notLatent
    let c ← kreg ka
    let n := 2 ^ size.toNat
    let p ← place c c.cursor n { spaces := [0, 1, 2, 3, 5, 6], perm := [1], align := n } [2]
    storeSlot
    countRemote
    let i ← newNo
    storePlace p i c.cursor (toBytes n x.toNat) false true
    pure .next) s

/-- The core whose message thread serves a home (R161): core 0 of the cluster for a vault. -/
def messageCore (h : Nat) : Nat := if h < 640 then h else 8 * (h - 1000)

/-- The accesses of slot `g` that go to home `h` and have not been performed: they come before its message (R250). -/
def State.toHome (s : State) (g h : Nat) : List Nat := (s.flight.filter fun a => a.slot == g && a.home == h).map Access.id

/-- A message sent to slot 11 of its core, on the channel of its class (R161, R407). -/
def State.sendMessage (s : State) (m : Amsg) : State :=
  { s with amsgs := s.amsgs ++ [m] }.post m.id (s.messageClass m.part m.tenant none) false m.slot m.home
    (s.pathTo (coreOf m.slot) m.home)

/-- AMSG (R161): the target is checked for one byte at its cursor (DEDUCED, log 18), then the code. -/
def execAmsg (ka kb : BitVec 3) (s : State) : Host.Outcome State Fault Refusal :=
  runInstr 4 (do
    notLatent
    let c ← kreg ka
    let k ← kreg kb
    let x ← getSlot
    let p ← place c c.cursor 1 { spaces := [0, 1, 2, 5], perm := [1] } []
    checkCode k
    let hs ← relHolds
    countRemote
    let i ← newNo
    let s ← get
    match p with
    | .remote _ => send i .amsg p.home [] none hs none 0 true
    | _ =>
      let m : Amsg := { id := i, core := messageCore p.home, home := p.home, code := k, target := c,
                        v0 := x.rq.getD 0 0#64, v1 := x.rq.getD 1 0#64, slot := s.cur, tid := x.tid,
                        tenant := x.tenant, part := s.partOfSlot s.cur,
                        group := groupRef (s.partOfSlot s.cur) x.tenant (s.remoteGroup s.cur),
                        holds := hs ++ s.toHome s.cur p.home }
      set (s.sendMessage m)
    pure .next) s

/-- RDRAIN (R161): every count that the slot has out has been returned. -/
def execRdrain (s : State) : Host.Outcome State Fault Refusal :=
  runInstr 4 (do
    notLatent
    let x ← getSlot
    await (decide (x.rsts = 0))
    pure .next) s

/-! ## Events -/

/-- A count comes back once its response has arrived (R160, R161, R407): its slot's count and its group's fall. -/
def State.rstReturn (s : State) (i : Nat) : Option State :=
  match s.returns[i]? with
  | none => none
  | some r =>
    if s.crossing r.id then none
    else
      let s := { s with returns := s.returns.eraseIdx i }
      let s := s.modTask r.tid fun x => { x with rsts := x.rsts - 1 }
      match r.ref with
      | none => some s
      | some g => some (s.groupLater { ref := g, delta := -1, failed := r.failed, core := r.core })

/-- RST_RETURN. -/
def execRstReturn (i : Nat) (s : State) : Host.Outcome State Fault Refusal := runEvent "RST_RETURN" (s.rstReturn i)

/-- The first message that has arrived at core `c` and may run: its holds are over, and its slot sent none to this core before it
that is still on its way or waits here (R12, R250). -/
def State.nextMessage (s : State) (c : Nat) : Option Amsg :=
  let here := (s.core c).amsgs
  here.find? fun m => (m.holds.all fun h => !s.pending h) &&
    !((s.amsgs ++ here).any fun k => k.slot == m.slot && k.core == c && decide (k.id < m.id))

/-- The next message starts in slot 11 of core `c`, when that slot is idle (R161). -/
def State.amsgRun (s : State) (c : Nat) : Option State :=
  let g := 12 * c + 11
  if (s.slot g).live then none
  else
    match s.nextMessage c with
    | none => none
    | some m =>
      let s := s.modCore c fun x => { x with amsgs := x.amsgs.erase m }
      let (tid, s) := s.freshNo
      let s := s.modSlot g fun x =>
        { x.kept with
          live := true, pcc := m.code, tid := tid
          n := (SMap.set 0#64 [] 0 m.v0).set 0#64 1 m.v1, pres := 3#16
          k := SMap.set Cap.null [] 0 m.target
          tenant := m.tenant, msgPart := some m.part
          msg := some { id := m.id, slot := m.slot, tid := m.tid, core := coreOf m.slot, ref := m.group, failed := false, home := m.home } }
      some (s.modCore c fun x => { x with rcache := [] })

/-- AMSG_RUN (R161). -/
def execAmsgRun (core : Nat) (s : State) : Host.Outcome State Fault Refusal :=
  runEvent "AMSG_RUN" (if core < 640 then s.amsgRun core else none)

/-- A message that has spent 65,536 issues without reaching DONE raises AMSGTIME, once (R161; log 19). -/
def State.amsgTimeout (s : State) (c : Nat) : Option State :=
  let g := 12 * c + 11
  let x := s.slot g
  if x.live && x.msgIssues == 65536 then
    (s.modSlot g fun y => { y with msgIssues := y.msgIssues + 1 }).takeTrap g .amsgTime 0#64 0
  else none

/-- AMSG_TIMEOUT (R161). -/
def execAmsgTimeout (core : Nat) (s : State) : Host.Outcome State Fault Refusal :=
  runEvent "AMSG_TIMEOUT" (s.amsgTimeout core)

end Sys2Proof.Machine
end

