-- ==== Sys2Proof/Machine/Scalar.lean ====
section
/-!
DEFINITION. The integer instructions: IALU (R89, R90), IIMM (R91), LI (R92), and their compact forms (R44, R46).
-/

namespace Sys2Proof.Machine

/-! ## Values -/

/-- Bits 127 to 64 of the signed product (R89). -/
def mulHigh (x y : U64) : U64 := BitVec.ofInt 64 (x.toInt * y.toInt / 2 ^ 64)

/-- Bits 127 to 64 of the unsigned product (R89). -/
def mulHighU (x y : U64) : U64 := BitVec.ofNat 64 (x.toNat * y.toNat / 2 ^ 64)

/-- Signed quotient, rounded towards zero; all ones for a zero divisor (R90). -/
def divS (x y : U64) : U64 := if y = 0#64 then BitVec.allOnes 64 else x.sdiv y

/-- Unsigned quotient; all ones for a zero divisor (R90). -/
def divU (x y : U64) : U64 := if y = 0#64 then BitVec.allOnes 64 else x / y

/-- Signed remainder, with the sign of the dividend; the dividend for a zero divisor (R90). -/
def remS (x y : U64) : U64 := if y = 0#64 then x else x.srem y

/-- Unsigned remainder; the dividend for a zero divisor (R90). -/
def remU (x y : U64) : U64 := if y = 0#64 then x else x % y

/-- The width of SEXT and ZEXT: B mod 64, where 0 means 64 (R89). -/
def fieldWidth (y : U64) : Nat := if y.toNat % 64 = 0 then 64 else y.toNat % 64

/-! ## Shapes -/

/-- A member with two scalar sources and one result. -/
def alu2 (d : Dst) (a b : Src) (f : U64 → U64 → U64) : Exec Flow := do
  let x ← src a
  let y ← src b
  dst d (f x y)
  pure .next

/-- A member with one scalar source and one result. -/
def alu1 (d : Dst) (a : Src) (f : U64 → U64) : Exec Flow := do
  let x ← src a
  dst d (f x)
  pure .next

/-- imm11 sign-extended (R91). -/
def imm11 (imm : BitVec 11) : U64 := imm.signExtend 64

/-- The 6 bits b:x of a compact word (R44). -/
def bx (b : BitVec 4) (x : BitVec 2) : BitVec 6 := b ++ x

/-! ## IALU -/

/-- ADD (R89). -/
def execAdd (d : Dst) (a b : Src) (s : State) : Host.Outcome State Fault Refusal :=
  runInstr 4 (alu2 d a b fun x y => x + y) s

/-- SUB (R89). -/
def execSub (d : Dst) (a b : Src) (s : State) : Host.Outcome State Fault Refusal :=
  runInstr 4 (alu2 d a b fun x y => x - y) s

/-- MUL (R89). -/
def execMul (d : Dst) (a b : Src) (s : State) : Host.Outcome State Fault Refusal :=
  runInstr 4 (alu2 d a b fun x y => x * y) s

/-- MULH (R89). -/
def execMulh (d : Dst) (a b : Src) (s : State) : Host.Outcome State Fault Refusal :=
  runInstr 4 (alu2 d a b fun x y => mulHigh x y) s

/-- MULHU (R89). -/
def execMulhu (d : Dst) (a b : Src) (s : State) : Host.Outcome State Fault Refusal :=
  runInstr 4 (alu2 d a b fun x y => mulHighU x y) s

/-- DIV (R89, R90). -/
def execDiv (d : Dst) (a b : Src) (s : State) : Host.Outcome State Fault Refusal :=
  runInstr 4 (alu2 d a b fun x y => divS x y) s

/-- DIVU (R89, R90). -/
def execDivu (d : Dst) (a b : Src) (s : State) : Host.Outcome State Fault Refusal :=
  runInstr 4 (alu2 d a b fun x y => divU x y) s

/-- REM (R89, R90). -/
def execRem (d : Dst) (a b : Src) (s : State) : Host.Outcome State Fault Refusal :=
  runInstr 4 (alu2 d a b fun x y => remS x y) s

/-- REMU (R89, R90). -/
def execRemu (d : Dst) (a b : Src) (s : State) : Host.Outcome State Fault Refusal :=
  runInstr 4 (alu2 d a b fun x y => remU x y) s

/-- AND (R89). -/
def execAnd (d : Dst) (a b : Src) (s : State) : Host.Outcome State Fault Refusal :=
  runInstr 4 (alu2 d a b fun x y => x &&& y) s

/-- OR (R89). -/
def execOr (d : Dst) (a b : Src) (s : State) : Host.Outcome State Fault Refusal :=
  runInstr 4 (alu2 d a b fun x y => x ||| y) s

/-- XOR (R89). -/
def execXor (d : Dst) (a b : Src) (s : State) : Host.Outcome State Fault Refusal :=
  runInstr 4 (alu2 d a b fun x y => x ^^^ y) s

/-- ANDN (R89). -/
def execAndn (d : Dst) (a b : Src) (s : State) : Host.Outcome State Fault Refusal :=
  runInstr 4 (alu2 d a b fun x y => x &&& ~~~y) s

/-- SHL (R89). -/
def execShl (d : Dst) (a b : Src) (s : State) : Host.Outcome State Fault Refusal :=
  runInstr 4 (alu2 d a b fun x y => x <<< (y.toNat % 64)) s

/-- SHR (R89). -/
def execShr (d : Dst) (a b : Src) (s : State) : Host.Outcome State Fault Refusal :=
  runInstr 4 (alu2 d a b fun x y => x >>> (y.toNat % 64)) s

/-- SRA (R89). -/
def execSra (d : Dst) (a b : Src) (s : State) : Host.Outcome State Fault Refusal :=
  runInstr 4 (alu2 d a b fun x y => x.sshiftRight (y.toNat % 64)) s

/-- ROL (R89). -/
def execRol (d : Dst) (a b : Src) (s : State) : Host.Outcome State Fault Refusal :=
  runInstr 4 (alu2 d a b fun x y => x.rotateLeft (y.toNat % 64)) s

/-- MIN (R89). -/
def execMin (d : Dst) (a b : Src) (s : State) : Host.Outcome State Fault Refusal :=
  runInstr 4 (alu2 d a b fun x y => if x.slt y then x else y) s

/-- MAX (R89). -/
def execMax (d : Dst) (a b : Src) (s : State) : Host.Outcome State Fault Refusal :=
  runInstr 4 (alu2 d a b fun x y => if x.slt y then y else x) s

/-- MINU (R89). -/
def execMinu (d : Dst) (a b : Src) (s : State) : Host.Outcome State Fault Refusal :=
  runInstr 4 (alu2 d a b fun x y => if x.ult y then x else y) s

/-- MAXU (R89). -/
def execMaxu (d : Dst) (a b : Src) (s : State) : Host.Outcome State Fault Refusal :=
  runInstr 4 (alu2 d a b fun x y => if x.ult y then y else x) s

/-- SLT (R89). -/
def execSlt (d : Dst) (a b : Src) (s : State) : Host.Outcome State Fault Refusal :=
  runInstr 4 (alu2 d a b fun x y => flag (x.slt y)) s

/-- SLTU (R89). -/
def execSltu (d : Dst) (a b : Src) (s : State) : Host.Outcome State Fault Refusal :=
  runInstr 4 (alu2 d a b fun x y => flag (x.ult y)) s

/-- SEQ (R89). -/
def execSeq (d : Dst) (a b : Src) (s : State) : Host.Outcome State Fault Refusal :=
  runInstr 4 (alu2 d a b fun x y => flag (x == y)) s

/-- SNE (R89). -/
def execSne (d : Dst) (a b : Src) (s : State) : Host.Outcome State Fault Refusal :=
  runInstr 4 (alu2 d a b fun x y => flag (x != y)) s

/-- SEXT (R89). -/
def execSext (d : Dst) (a b : Src) (s : State) : Host.Outcome State Fault Refusal :=
  runInstr 4 (alu2 d a b fun x y => sext64 x.toNat (fieldWidth y)) s

/-- ZEXT (R89). -/
def execZext (d : Dst) (a b : Src) (s : State) : Host.Outcome State Fault Refusal :=
  runInstr 4 (alu2 d a b fun x y => BitVec.ofNat 64 (x.toNat % 2 ^ fieldWidth y)) s

/-- CLZ (R89). -/
def execClz (d : Dst) (a : Src) (s : State) : Host.Outcome State Fault Refusal :=
  runInstr 4 (alu1 d a fun x => BitVec.ofNat 64 (64 - bitLen x.toNat)) s

/-- CTZ (R89). -/
def execCtz (d : Dst) (a : Src) (s : State) : Host.Outcome State Fault Refusal :=
  runInstr 4 (alu1 d a fun x => BitVec.ofNat 64 (ctzNat 64 x.toNat)) s

/-- POPC (R89). -/
def execPopc (d : Dst) (a : Src) (s : State) : Host.Outcome State Fault Refusal :=
  runInstr 4 (alu1 d a fun x => BitVec.ofNat 64 (popNat 64 x.toNat)) s

/-- BREV (R89). -/
def execBrev (d : Dst) (a : Src) (s : State) : Host.Outcome State Fault Refusal :=
  runInstr 4 (alu1 d a fun x => BitVec.ofNat 64 (revNat 64 x.toNat)) s

/-- SEL (R89): A when the age `c` is not 0, else B. -/
def execSel (d : Dst) (a b : Src) (c : BitVec 4) (s : State) : Host.Outcome State Fault Refusal :=
  runInstr 4 (do
    let z ← src (.age c)
    alu2 d a b fun x y => if z ≠ 0#64 then x else y) s

/-! ## IIMM and LI -/

/-- ADDI (R91). -/
def execAddi (d : Dst) (a : Src) (imm : BitVec 11) (s : State) : Host.Outcome State Fault Refusal :=
  runInstr 4 (alu1 d a fun x => x + imm11 imm) s

/-- ANDI (R91). -/
def execAndi (d : Dst) (a : Src) (imm : BitVec 11) (s : State) : Host.Outcome State Fault Refusal :=
  runInstr 4 (alu1 d a fun x => x &&& imm11 imm) s

/-- ORI (R91). -/
def execOri (d : Dst) (a : Src) (imm : BitVec 11) (s : State) : Host.Outcome State Fault Refusal :=
  runInstr 4 (alu1 d a fun x => x ||| imm11 imm) s

/-- XORI (R91). -/
def execXori (d : Dst) (a : Src) (imm : BitVec 11) (s : State) : Host.Outcome State Fault Refusal :=
  runInstr 4 (alu1 d a fun x => x ^^^ imm11 imm) s

/-- SHLI (R91): decoding refuses an amount above 63. -/
def execShli (d : Dst) (a : Src) (imm : BitVec 11) (s : State) : Host.Outcome State Fault Refusal :=
  runInstr 4 (alu1 d a fun x => x <<< imm.toNat) s

/-- SHRI (R91): decoding refuses an amount above 63. -/
def execShri (d : Dst) (a : Src) (imm : BitVec 11) (s : State) : Host.Outcome State Fault Refusal :=
  runInstr 4 (alu1 d a fun x => x >>> imm.toNat) s

/-- SRAI (R91): decoding refuses an amount above 63. -/
def execSrai (d : Dst) (a : Src) (imm : BitVec 11) (s : State) : Host.Outcome State Fault Refusal :=
  runInstr 4 (alu1 d a fun x => x.sshiftRight imm.toNat) s

/-- SLTI (R91). -/
def execSlti (d : Dst) (a : Src) (imm : BitVec 11) (s : State) : Host.Outcome State Fault Refusal :=
  runInstr 4 (alu1 d a fun x => flag (x.slt (imm11 imm))) s

/-- LI (R92). -/
def execLi (d : Dst) (imm : BitVec 19) (s : State) : Host.Outcome State Fault Refusal :=
  runInstr 4 (do
    dst d (imm.signExtend 64)
    pure .next) s

/-! ## Compact forms (R44, R46) -/

/-- ADD.c (R44). -/
def execAddC (a b : BitVec 4) (s : State) : Host.Outcome State Fault Refusal :=
  runInstr 2 (alu2 .queue (.age a) (.age b) fun x y => x + y) s

/-- SUB.c (R44). -/
def execSubC (a b : BitVec 4) (s : State) : Host.Outcome State Fault Refusal :=
  runInstr 2 (alu2 .queue (.age a) (.age b) fun x y => x - y) s

/-- AND.c (R44). -/
def execAndC (a b : BitVec 4) (s : State) : Host.Outcome State Fault Refusal :=
  runInstr 2 (alu2 .queue (.age a) (.age b) fun x y => x &&& y) s

/-- OR.c (R44). -/
def execOrC (a b : BitVec 4) (s : State) : Host.Outcome State Fault Refusal :=
  runInstr 2 (alu2 .queue (.age a) (.age b) fun x y => x ||| y) s

/-- XOR.c (R44). -/
def execXorC (a b : BitVec 4) (s : State) : Host.Outcome State Fault Refusal :=
  runInstr 2 (alu2 .queue (.age a) (.age b) fun x y => x ^^^ y) s

/-- MUL.c (R44). -/
def execMulC (a b : BitVec 4) (s : State) : Host.Outcome State Fault Refusal :=
  runInstr 2 (alu2 .queue (.age a) (.age b) fun x y => x * y) s

/-- SLT.c (R44). -/
def execSltC (a b : BitVec 4) (s : State) : Host.Outcome State Fault Refusal :=
  runInstr 2 (alu2 .queue (.age a) (.age b) fun x y => flag (x.slt y)) s

/-- SEQ.c (R44). -/
def execSeqC (a b : BitVec 4) (s : State) : Host.Outcome State Fault Refusal :=
  runInstr 2 (alu2 .queue (.age a) (.age b) fun x y => flag (x == y)) s

/-- SHLI.c (R44). -/
def execShliC (a b : BitVec 4) (x : BitVec 2) (s : State) : Host.Outcome State Fault Refusal :=
  runInstr 2 (alu1 .queue (.age a) fun v => v <<< (bx b x).toNat) s

/-- SHRI.c (R44). -/
def execShriC (a b : BitVec 4) (x : BitVec 2) (s : State) : Host.Outcome State Fault Refusal :=
  runInstr 2 (alu1 .queue (.age a) fun v => v >>> (bx b x).toNat) s

/-- ADDI.c (R44): the immediate is signed. -/
def execAddiC (a b : BitVec 4) (x : BitVec 2) (s : State) : Host.Outcome State Fault Refusal :=
  runInstr 2 (alu1 .queue (.age a) fun v => v + (bx b x).signExtend 64) s

/-- LI.c (R44): the immediate is a:b:x, signed. -/
def execLiC (a b : BitVec 4) (x : BitVec 2) (s : State) : Host.Outcome State Fault Refusal :=
  runInstr 2 (do
    dst .queue ((a ++ bx b x).signExtend 64)
    pure .next) s

end Sys2Proof.Machine
end

