-- ==== Sys2Proof/Machine/System.lean ====
section
/-!
DEFINITION. The system instructions: major SYS (R206 to R211, R215, R222, R223), and the events of pre-emption and of
firmware's answers (R209, R217, R218, R220).
-/

namespace Sys2Proof.Machine

/-- TRAP (R208). -/
def execTrap (a : Src) (s : State) : Host.Outcome State Fault Refusal :=
  runInstr 4 (do
    let v ← src a
    trap .trapi v) s

/-- BRK (R208). -/
def execBrk (s : State) : Host.Outcome State Fault Refusal := runInstr 4 (trap .brk 0#64) s

/-- RTE (R206). -/
def execRte (s : State) : Host.Outcome State Fault Refusal :=
  runInstr 4 (do
    let x ← getSlot
    require x.inTrap .illop (wordVal (encode .rte))
    returnFromTrap) s

/-- SVC (R209): the slot is held until firmware answers. -/
def execSvc (d : Dst) (a b : Src) (s : State) : Host.Outcome State Fault Refusal :=
  runInstr 4 (do
    let x ← src a
    let y ← src b
    roleIs (fun n => n ≠ 11) (wordVal (encode (.svc d a b)))
    let no ← newNo
    let s ← get
    modSlot fun z =>
      { z with svc := some { no := no, gslot := s.cur, partid := BitVec.ofNat 64 (s.readSys s.cur 0x002), taskRec := z.taskRec
                             a := x, b := y, d := d, answer := none }
               wait := Wait.svc }
    pure .hold) s

/-- CHKPT's effect (R215): with a request pending, the slot stops after it. -/
def checkpoint (idx : BitVec 10) : Exec Flow := do
  let s ← get
  if s.mayStop s.cur then modSlot fun x => { x with stopped := some (some idx.toNat) }
  pure .next

/-- CHKPT (R215). -/
def execChkpt (idx : BitVec 10) (s : State) : Host.Outcome State Fault Refusal := runInstr 4 (checkpoint idx) s
/-- CHKPT.c (R45, R215). -/
def execChkptC (idx : BitVec 10) (s : State) : Host.Outcome State Fault Refusal := runInstr 2 (checkpoint idx) s

/-- WFI (R210). -/
def execWfi (d : Dst) (a : Src) (s : State) : Host.Outcome State Fault Refusal :=
  runInstr 4 (do
    let v ← src a
    roleIs (fun n => n ≠ 11) (wordVal (encode (.wfi d a)))
    let s ← get
    let m := (s.core (coreOf s.cur)).mbxp &&& fld v 0 8
    await (fld v 0 8 == 0#8 || m ≠ 0#8)
    dst d (m.setWidth 64)
    pure .next) s

/-- HALT (R211). -/
def execHalt (s : State) : Host.Outcome State Fault Refusal :=
  runInstr 4 (do
    roleIs (fun n => n == 0) (wordVal (encode .halt))
    let s ← get
    match s.drain s.cur with
    | none => block
    | some s =>
      unlessBad s
      set (s.stopZero s.cur)
    pure .ended) s

/-! ## TINV (R222) -/

/-- Whether a cached leaf is one that TINV drops. -/
def TlbEntry.dropped (e : TlbEntry) (p t : Nat) (all : Bool) (va : Nat) : Bool :=
  e.part == p && e.tenant == t && (all || e.page == va / leafSize e.lvl)

/-- Whether a walk for `page` has found a leaf that maps `va` too (R222). -/
def WalkEnd.covers (w : WalkEnd) (page va : Nat) : Bool :=
  match w with
  | .leaf _ lvl => page / leafSize lvl == va / leafSize lvl
  | _ => false

/-- TINV's effect in partition `p` on tenant `t`: translations dropped, read caches and the tenant's fetch blocks emptied
on every core of the partition (R222, R248), matching walks in flight begun again, accesses in flight that a dropped leaf
translated marked old (R223), those of engine cards among them. -/
def State.invalidate (s : State) (p t : Nat) (all : Bool) (va : Nat) : State :=
  let gone := s.cores.flatMap fun c => if s.ownsCore p c.1 then c.2.tlb.filter fun e => e.dropped p t all va else []
  let cores := s.cores.map fun c =>
    if s.ownsCore p c.1 then
      (c.1, { c.2 with tlb := c.2.tlb.filter (fun e => !e.dropped p t all va), rcache := []
                       ibuf := c.2.ibuf.filter fun b => !(b.part == p && b.tenant == t) })
    else c
  let hit := fun (a : Access) =>
    a.part == p && a.tenant == t &&
      (match a.va with
        | none => false
        | some v => all || v / 2 ^ 16 == va / 2 ^ 16 || gone.any fun e => e.page == v / leafSize e.lvl)
  let again := fun (w : PageWalk) =>
    if w.part = p ∧ w.tenant = t ∧ (all || w.page == va / 2 ^ 16 || w.found.covers (w.page * 2 ^ 16) va) then
      { w with found := (s.walk p t (w.page * 2 ^ 16)).found }
    else w
  let stale := fun (c : Card) (o : CardOp) =>
    c.part == p && c.tenant == t && (match o.place with
      | some (.mem _ _ (some v)) => all || v / leafSize o.lvl == va / leafSize o.lvl
      | _ => false)
  let card := fun (c : Card) => { c with ops := c.ops.map fun o => if stale c o then { o with old := true } else o }
  { s with cores := cores, pageWalks := s.pageWalks.map again
           flight := s.flight.map fun (a : Access) => if hit a then { a with old := true } else a
           engines := s.engines.map fun e => (e.1, { e.2 with running := e.2.running.map card }) }

/-- TINV (R222). -/
def execTinv (all : Bool) (a b : Src) (s : State) : Host.Outcome State Fault Refusal :=
  runInstr 4 (do
    let w := wordVal (encode (.tinv all a b))
    privileged w
    let x ← src a
    let y ← src b
    require (decide (y.toNat < 16)) .illop w
    releaseAt 5
    modify fun s => s.invalidate (s.partOfSlot s.cur) y.toNat all x.toNat
    pure .next) s

/-! ## Firmware's answers (R209) -/

/-- Request number `no`, held by a saved slot, answered. -/
def Saved.answered (c : Saved) (no : Nat) (v : U64) : Saved :=
  match c.slot.svc with
  | some r => if r.no = no then { c with slot := { c.slot with svc := some { r with answer := some v } } } else c
  | none => c

/-- Every saved slot, in the queues and at slots 0. -/
def State.savedSlots (s : State) : List Saved :=
  (s.clusters.flatMap fun x => (x.2.ready ++ x.2.ring ++ x.2.hold.toList.map Prod.fst).filterMap Entry.cont) ++
    (s.cores.flatMap fun x => x.2.localQ.filterMap Entry.cont) ++ s.savedZero.map Prod.snd

/-- The saved slot that holds request number `no` given its answer. -/
def State.answerSaved (s : State) (no : Nat) (v : U64) : State :=
  let fix := fun (e : Entry) => { e with cont := e.cont.map fun c => c.answered no v }
  { s with
    clusters := s.clusters.map fun x => (x.1, { x.2 with ready := x.2.ready.map fix, ring := x.2.ring.map fix
                                                         hold := x.2.hold.map fun h => (fix h.1, h.2) })
    cores := s.cores.map fun x => (x.1, { x.2 with localQ := x.2.localQ.map fix })
    savedZero := s.savedZero.map fun x => (x.1, x.2.answered no v) }

/-- The unanswered requests of GSLOT `g`: each with the slot that waits for it, none for a saved one. -/
def State.requests (s : State) (g : Nat) : List (SvcReq × Option Nat) :=
  (s.slots.filterMap fun x =>
    if x.2.wait == Wait.svc then (x.2.svc.filter fun r => r.gslot == g).map fun r => (r, some x.1) else none) ++
  (s.savedSlots.filterMap fun c => (c.slot.svc.filter fun r => r.gslot == g && r.answer.isNone).map fun r => (r, none))

/-- Firmware answers a request of GSLOT `g`: of several, a saved task's and its successor's, the oldest (log 76). -/
def State.svcAnswer (s : State) (g : Nat) (v : U64) : Option State :=
  let oldest := (s.requests g).foldl (fun (b : Option (SvcReq × Option Nat)) x =>
    match b with | none => some x | some y => if x.1.no < y.1.no then some x else b) none
  oldest.map fun x =>
    match x.2 with
    | some h => (s.completeWith h 4 x.1.d v).modSlot h fun y => { y with svc := none }
    | none => s.answerSaved x.1.no v

/-- SVC_ANSWER (R209). -/
def execSvcAnswer (slot : Nat) (v : U64) (s : State) : Host.Outcome State Fault Refusal :=
  runEvent "SVC_ANSWER" (s.svcAnswer slot v)

/-! ## Pre-emption -/

/-- A request for one slot (R217): slot 11 is never pre-empted. -/
def State.preemptRequest (s : State) (g : Nat) : Option State :=
  if (s.slot g).live && slotNo g ≠ 11 && (s.slot g).preempt.isNone then
    some (s.modSlot g fun x => { x with preempt := some s.now })
  else none

/-- PREEMPT_REQUEST (R217). -/
def execPreemptRequest (slot : Nat) (s : State) : Host.Outcome State Fault Refusal :=
  runEvent "PREEMPT_REQUEST" (s.preemptRequest slot)

/-- 65,536 cycles have passed since the request (R217): the slot stops between two instructions. -/
def State.preemptTimeout (s : State) (g : Nat) : Option State :=
  let x := s.slot g
  let due := x.preempt.any fun t => decide (t + 65536 ≤ s.now)
  if due && s.mayStop g && x.stopped.isNone && x.wait == Wait.none then some (s.modSlot g fun y => { y with stopped := some none })
  else none

/-- PREEMPT_TIMEOUT (R217). -/
def execPreemptTimeout (slot : Nat) (s : State) : Host.Outcome State Fault Refusal :=
  runEvent "PREEMPT_TIMEOUT" (s.preemptTimeout slot)

/-- SPILL_SAVE (R214 to R219). -/
def execSpillSave (slot : Nat) (s : State) : Host.Outcome State Fault Refusal := runEvent "SPILL_SAVE" (s.spillSave slot)

/-- An absent granule is brought back, after every card that writes it (R220, R221). -/
def State.fillAt (s : State) (i : Nat) : Option State := s.absent[i]?.bind fun g => if s.fillHeld g then none else some (s.fill g)

/-- GRANULE_FILL (R220). -/
def execGranuleFill (i : Nat) (s : State) : Host.Outcome State Fault Refusal := runEvent "GRANULE_FILL" (s.fillAt i)

end Sys2Proof.Machine
end

