-- ==== Sys2Proof/Machine/VClaim.lean ====
section
/-!
DEFINITION. Claims of lane groups: major VCLAIM (R263 to R267).
-/

namespace Sys2Proof.Machine

/-- Lane groups free to the current slot's partition in its cluster. -/
def freeHere : Exec Nat := do
  let s ← get
  pure (s.freeGroups (s.partOf (coreOf s.cur)) (clusterOf (coreOf s.cur)))

/-- Whether the wanted and minimum numbers are in range (R264). -/
def claimOk (a b : U64) : Bool :=
  decide (1 ≤ a.toNat) && decide (a.toNat ≤ 16) && decide (1 ≤ b.toNat) && decide (b.toNat ≤ a.toNat)

/-- A slot with `g` groups granted and every vector, mask and moment register 0. -/
def Slot.granted (x : Slot) (g min : Nat) : Slot := { x with groups := g, minGrp := min, v := [], vm := [], m := [] }

/-- VCLAIM (R264). -/
def execVclaim (d : Dst) (a b : Src) (s : State) : Host.Outcome State Fault Refusal :=
  runInstr 4 (do
    let x ← src a
    let y ← src b
    let z ← getSlot
    let f ← freeHere
    if !claimOk x y || decide (z.groups ≠ 0) then dst d (BitVec.allOnes 64)
    else if f < y.toNat then dst d 0#64
    else
      let g := min x.toNat f
      modSlot fun t => t.granted g y.toNat
      dst d (BitVec.ofNat 64 (16 * g))
    pure .next) s

/-- VRENEG (R264). -/
def execVreneg (d : Dst) (a b : Src) (s : State) : Host.Outcome State Fault Refusal :=
  runInstr 4 (do
    let x ← src a
    let y ← src b
    let z ← getSlot
    let f ← freeHere
    if !claimOk x y || decide (z.groups = 0) then dst d (BitVec.allOnes 64)
    else if f + z.groups < y.toNat then dst d 0#64
    else
      let g := min x.toNat (f + z.groups)
      modSlot fun t => { t.narrow g with minGrp := y.toNat }
      dst d (BitVec.ofNat 64 (16 * g))
    pure .next) s

/-- VREL (R264). -/
def execVrel (s : State) : Host.Outcome State Fault Refusal :=
  runInstr 4 (do
    modSlot fun t => t.granted 0 0
    pure .next) s

end Sys2Proof.Machine
end

