-- ==== Sys2Proof/Machine/VCompare.lean ====
section
/-!
DEFINITION. Compares and mask operations: major VCMP (R275).
-/

namespace Sys2Proof.Machine

/-- Mask register `d` written lane by lane: `f i` for each enabled lane, the others by R271. -/
def mapLanes (q : Pfx) (d : BitVec 3) (en : Slot → Nat → Bool) (f : Slot → Nat → Bool) : Exec Unit := do
  let x ← getSlot
  let old := x.vmask d.toNat
  let bit := fun i => if en x i then f x i else !q.zero && bitAt old i
  let v := packElems 1 ((List.range x.lanes).map fun i => if bit i then 1 else 0)
  modSlot fun y => { y with vm := y.vm.set 0#256 d.toNat (BitVec.ofNat 256 v) }

/-- A compare of elements of `w` bits: the bits of every lane of an element follow it (R275). -/
def compare (q : Pfx) (w : Nat) (d : BitVec 3) (f : Slot → Nat → Bool × Flags) : Exec Unit := do
  let x ← getSlot
  let el := x.count w
  let rs := (List.range el).map fun i => if x.enabled q w i then f x i else (false, 0#6)
  mapLanes q d (fun x i => x.enabled q w (i * 32 / w)) fun _ i => ((rs.getD (i * 32 / w) (false, 0#6)).1)
  setFlags (rs.foldl (fun a r => a ||| r.2) 0#6)

/-- VCMP's conditions (R275). -/
def intCond (cc : BitVec 2) (n a b : Nat) : Bool :=
  match cc.toNat with
  | 0 => a == b
  | 1 => a != b
  | 2 => decide (signed a n < signed b n)
  | _ => decide (a < b)

/-- VFCMP's conditions and flags (R275). -/
def fpCond (cc : BitVec 2) (a b : Fp) : Bool × Flags :=
  let nan := a.isNan || b.isNan
  let quiet := snanFl [a, b]
  let loud : Flags := if nan then flInvalid else 0#6
  match cc.toNat with
  | 0 => (!nan && fpEq a b, quiet)
  | 1 => (!nan && fpLt a b, loud)
  | 2 => (!nan && (fpLt a b || fpEq a b), loud)
  | _ => (nan, quiet)

/-- VCMP (R275). -/
def execVcmp (p : Option Pfx) (et : BitVec 3) (cc : BitVec 2) (vmd : BitVec 3) (a b : BitVec 5) (s : State) :
    Host.Outcome State Fault Refusal :=
  runInstr (pairLen p) (do
    lanesHeld (wordVal (encode (.vcmp p et cc vmd a b)))
    let n := etBits et
    compare (pfxOf p) n vmd fun x i => (intCond cc n (x.elem a n i) (x.elem b n i), 0#6)
    pure .next) s

/-- VFCMP (R275). -/
def execVfcmp (p : Option Pfx) (et : BitVec 3) (cc : BitVec 2) (vmd : BitVec 3) (a b : BitVec 5) (s : State) :
    Host.Outcome State Fault Refusal :=
  runInstr (pairLen p) (do
    lanesHeld (wordVal (encode (.vfcmp p et cc vmd a b)))
    let n := etBits et
    let v := Fp.ofBits (etFmt et)
    compare (pfxOf p) n vmd fun x i => fpCond cc (v (x.elem a n i)) (v (x.elem b n i))
    pure .next) s

/-- A mask operation, lane by lane (R275). -/
def maskOp (f : Bool → Bool → Bool) (p : Option Pfx) (vmd vma vmb : BitVec 3) (tval : U64) : Exec Flow := do
  lanesHeld tval
  let q := pfxOf p
  mapLanes q vmd (fun x i => x.enabled q 32 i) fun x i => f (bitAt (x.vmask vma.toNat) i) (bitAt (x.vmask vmb.toNat) i)
  pure .next

/-- VMAND (R275). -/
def execVmand (p : Option Pfx) (vmd vma vmb : BitVec 3) (s : State) : Host.Outcome State Fault Refusal :=
  runInstr (pairLen p) (maskOp (fun a b => a && b) p vmd vma vmb (wordVal (encode (.vmand p vmd vma vmb)))) s
/-- VMOR (R275). -/
def execVmor (p : Option Pfx) (vmd vma vmb : BitVec 3) (s : State) : Host.Outcome State Fault Refusal :=
  runInstr (pairLen p) (maskOp (fun a b => a || b) p vmd vma vmb (wordVal (encode (.vmor p vmd vma vmb)))) s
/-- VMXOR (R275). -/
def execVmxor (p : Option Pfx) (vmd vma vmb : BitVec 3) (s : State) : Host.Outcome State Fault Refusal :=
  runInstr (pairLen p) (maskOp (fun a b => a != b) p vmd vma vmb (wordVal (encode (.vmxor p vmd vma vmb)))) s
/-- VMNOT (R275). -/
def execVmnot (p : Option Pfx) (vmd vma : BitVec 3) (s : State) : Host.Outcome State Fault Refusal :=
  runInstr (pairLen p) (maskOp (fun a _ => !a) p vmd vma 0#3 (wordVal (encode (.vmnot p vmd vma)))) s

/-- The enabled lanes whose bit in `vma` is set, lowest first. -/
def Slot.setLanes (x : Slot) (q : Pfx) (vma : BitVec 3) : List Nat :=
  (List.range x.lanes).filter fun i => x.enabled q 32 i && bitAt (x.vmask vma.toNat) i

/-- VMPOP (R275). -/
def execVmpop (p : Option Pfx) (d : Dst) (vma : BitVec 3) (s : State) : Host.Outcome State Fault Refusal :=
  runInstr (pairLen p) (do
    lanesHeld (wordVal (encode (.vmpop p d vma)))
    let x ← getSlot
    dst d (BitVec.ofNat 64 (x.setLanes (pfxOf p) vma).length)
    pure .next) s

/-- VMFIRST (R275). -/
def execVmfirst (p : Option Pfx) (d : Dst) (vma : BitVec 3) (s : State) : Host.Outcome State Fault Refusal :=
  runInstr (pairLen p) (do
    lanesHeld (wordVal (encode (.vmfirst p d vma)))
    let x ← getSlot
    dst d (((x.setLanes (pfxOf p) vma).head?).elim (BitVec.allOnes 64) (BitVec.ofNat 64))
    pure .next) s

end Sys2Proof.Machine
end

