-- ==== Sys2Proof/Machine/VFloat.lean ====
section
/-!
DEFINITION. Floating-point vector operations: major VFP (R274).
-/

namespace Sys2Proof.Machine

/-- The members of VFP (R274). -/
inductive VFpOp where
  | add | sub | mul | fma | div | sqrt | min | max | abs | neg | rcp | rsq | exp2 | log2 | cls
  deriving DecidableEq, Repr

/-- The result of a member on elements of format `f` (R274). -/
def VFpOp.apply (op : VFpOp) (f : Fmt) (r : Rnd) (a b c : Nat) : FRes :=
  let v := Fp.ofBits f
  match op with
  | .add => fpAdd f r (v a) (v b)
  | .sub => fpSub f r (v a) (v b)
  | .mul => fpMul f r (v a) (v b)
  | .fma => fpFma f r (v a) (v b) (v c)
  | .div => fpDiv f r (v a) (v b)
  | .sqrt => fpSqrt f r (v a)
  | .min => fpMin f r (v a) (v b)
  | .max => fpMax f r (v a) (v b)
  | .abs => ⟨a % 2 ^ (f.width - 1), 0#6⟩
  | .neg => ⟨a ^^^ 2 ^ (f.width - 1), 0#6⟩
  | .rcp => fpRcp f r (v a)
  | .rsq => fpRsq f r (v a)
  | .exp2 => exp2Core f r (v a)
  | .log2 => fpLog2 f r (v a)
  | .cls => ⟨fpClass f a, 0#6⟩

/-- A member of VFP (R274): the addend of VFMA is f4, or the old destination. Each element is rounded once in the prefix's
mode, so that every member takes an STO field for each element, whether or not its result is exact (R65; DEDUCED, log 22). -/
def vfp (op : VFpOp) (p : Option Pfx) (et : BitVec 3) (d a b : BitVec 5) (tval : U64) : Exec Flow := do
  lanesHeld tval
  let q := pfxOf p
  let n := etBits et
  let x ← getSlot
  let r ← roundings q (x.count n)
  let c := if q.f4e then q.f4 else d
  mapElems q n d fun x i => op.apply (etFmt et) (r i) (x.elem a n i) (x.elem b n i) (x.elem c n i)
  pure .next

/-- VFADD (R274). -/
def execVfadd (p : Option Pfx) (et : BitVec 3) (d a b : BitVec 5) (s : State) : Host.Outcome State Fault Refusal :=
  runInstr (pairLen p) (vfp .add p et d a b (wordVal (encode (.vfadd p et d a b)))) s

/-- VFSUB (R274). -/
def execVfsub (p : Option Pfx) (et : BitVec 3) (d a b : BitVec 5) (s : State) : Host.Outcome State Fault Refusal :=
  runInstr (pairLen p) (vfp .sub p et d a b (wordVal (encode (.vfsub p et d a b)))) s

/-- VFMUL (R274). -/
def execVfmul (p : Option Pfx) (et : BitVec 3) (d a b : BitVec 5) (s : State) : Host.Outcome State Fault Refusal :=
  runInstr (pairLen p) (vfp .mul p et d a b (wordVal (encode (.vfmul p et d a b)))) s

/-- VFMA (R274). -/
def execVfma (p : Option Pfx) (et : BitVec 3) (d a b : BitVec 5) (s : State) : Host.Outcome State Fault Refusal :=
  runInstr (pairLen p) (vfp .fma p et d a b (wordVal (encode (.vfma p et d a b)))) s

/-- VFDIV (R274). -/
def execVfdiv (p : Option Pfx) (et : BitVec 3) (d a b : BitVec 5) (s : State) : Host.Outcome State Fault Refusal :=
  runInstr (pairLen p) (vfp .div p et d a b (wordVal (encode (.vfdiv p et d a b)))) s

/-- VFSQRT (R274). -/
def execVfsqrt (p : Option Pfx) (et : BitVec 3) (d a : BitVec 5) (s : State) : Host.Outcome State Fault Refusal :=
  runInstr (pairLen p) (vfp .sqrt p et d a 0#5 (wordVal (encode (.vfsqrt p et d a)))) s

/-- VFMIN (R274). -/
def execVfmin (p : Option Pfx) (et : BitVec 3) (d a b : BitVec 5) (s : State) : Host.Outcome State Fault Refusal :=
  runInstr (pairLen p) (vfp .min p et d a b (wordVal (encode (.vfmin p et d a b)))) s

/-- VFMAX (R274). -/
def execVfmax (p : Option Pfx) (et : BitVec 3) (d a b : BitVec 5) (s : State) : Host.Outcome State Fault Refusal :=
  runInstr (pairLen p) (vfp .max p et d a b (wordVal (encode (.vfmax p et d a b)))) s

/-- VFABS (R274). -/
def execVfabs (p : Option Pfx) (et : BitVec 3) (d a : BitVec 5) (s : State) : Host.Outcome State Fault Refusal :=
  runInstr (pairLen p) (vfp .abs p et d a 0#5 (wordVal (encode (.vfabs p et d a)))) s

/-- VFNEG (R274). -/
def execVfneg (p : Option Pfx) (et : BitVec 3) (d a : BitVec 5) (s : State) : Host.Outcome State Fault Refusal :=
  runInstr (pairLen p) (vfp .neg p et d a 0#5 (wordVal (encode (.vfneg p et d a)))) s

/-- VFRCP (R274). -/
def execVfrcp (p : Option Pfx) (et : BitVec 3) (d a : BitVec 5) (s : State) : Host.Outcome State Fault Refusal :=
  runInstr (pairLen p) (vfp .rcp p et d a 0#5 (wordVal (encode (.vfrcp p et d a)))) s

/-- VFRSQ (R274). -/
def execVfrsq (p : Option Pfx) (et : BitVec 3) (d a : BitVec 5) (s : State) : Host.Outcome State Fault Refusal :=
  runInstr (pairLen p) (vfp .rsq p et d a 0#5 (wordVal (encode (.vfrsq p et d a)))) s

/-- VFEXP2 (R274). -/
def execVfexp2 (p : Option Pfx) (et : BitVec 3) (d a : BitVec 5) (s : State) : Host.Outcome State Fault Refusal :=
  runInstr (pairLen p) (vfp .exp2 p et d a 0#5 (wordVal (encode (.vfexp2 p et d a)))) s

/-- VFLOG2 (R274). -/
def execVflog2 (p : Option Pfx) (et : BitVec 3) (d a : BitVec 5) (s : State) : Host.Outcome State Fault Refusal :=
  runInstr (pairLen p) (vfp .log2 p et d a 0#5 (wordVal (encode (.vflog2 p et d a)))) s

/-- VFCLASS (R274). -/
def execVfclass (p : Option Pfx) (et : BitVec 3) (d a : BitVec 5) (s : State) : Host.Outcome State Fault Refusal :=
  runInstr (pairLen p) (vfp .cls p et d a 0#5 (wordVal (encode (.vfclass p et d a)))) s

end Sys2Proof.Machine
end

