-- ==== Sys2Proof/Machine/VInt.lean ====
section
/-!
DEFINITION. Integer vector operations: major VINT (R273).
-/

namespace Sys2Proof.Machine

/-- The members of VINT (R273). -/
inductive VIntOp where
  | add | sub | mul | mulh | min | max | minu | maxu | and | or | xor | shl | shr | sra | abs | sadd | ssub
  deriving DecidableEq, Repr

/-- An exact value as `n` bits: wrapped, or clamped to the signed range with SATURATED (R273). -/
def vintFit (n : Nat) (sat : Bool) (v : Int) : FRes :=
  if sat then
    let (c, clamped) := clampInt n v
    ⟨wrapNat c n, if clamped then flSaturated else 0#6⟩
  else ⟨wrapNat v n, 0#6⟩

/-- The result of a member on elements `a` and `b` of `n` bits (R273). -/
def VIntOp.apply (op : VIntOp) (n : Nat) (sat : Bool) (a b : Nat) : FRes :=
  let x := signed a n
  let y := signed b n
  match op with
  | .add => vintFit n sat (x + y)
  | .sub => vintFit n sat (x - y)
  | .mul => vintFit n sat (x * y)
  | .mulh => ⟨wrapNat (x * y / (2 ^ n : Nat)) n, 0#6⟩
  | .min => ⟨if x ≤ y then a else b, 0#6⟩
  | .max => ⟨if x ≤ y then b else a, 0#6⟩
  | .minu => ⟨Nat.min a b, 0#6⟩
  | .maxu => ⟨Nat.max a b, 0#6⟩
  | .and => ⟨a &&& b, 0#6⟩
  | .or => ⟨a ||| b, 0#6⟩
  | .xor => ⟨a ^^^ b, 0#6⟩
  | .shl => ⟨a * 2 ^ (b % n) % 2 ^ n, 0#6⟩
  | .shr => ⟨a / 2 ^ (b % n), 0#6⟩
  | .sra => ⟨wrapNat (x / (2 ^ (b % n) : Nat)) n, 0#6⟩
  | .abs => vintFit n sat x.natAbs
  | .sadd => vintFit n true (x + y)
  | .ssub => vintFit n true (x - y)

/-- A member of VINT (R273). -/
def vint (op : VIntOp) (p : Option Pfx) (et : BitVec 3) (d a b : BitVec 5) (tval : U64) : Exec Flow := do
  lanesHeld tval
  let q := pfxOf p
  let n := etBits et
  mapElems q n d fun x i => op.apply n q.sat (x.elem a n i) (x.elem b n i)
  pure .next

/-- VADD (R273). -/
def execVadd (p : Option Pfx) (et : BitVec 3) (d a b : BitVec 5) (s : State) : Host.Outcome State Fault Refusal :=
  runInstr (pairLen p) (vint .add p et d a b (wordVal (encode (.vadd p et d a b)))) s

/-- VSUB (R273). -/
def execVsub (p : Option Pfx) (et : BitVec 3) (d a b : BitVec 5) (s : State) : Host.Outcome State Fault Refusal :=
  runInstr (pairLen p) (vint .sub p et d a b (wordVal (encode (.vsub p et d a b)))) s

/-- VMUL (R273). -/
def execVmul (p : Option Pfx) (et : BitVec 3) (d a b : BitVec 5) (s : State) : Host.Outcome State Fault Refusal :=
  runInstr (pairLen p) (vint .mul p et d a b (wordVal (encode (.vmul p et d a b)))) s

/-- VMULH (R273). -/
def execVmulh (p : Option Pfx) (et : BitVec 3) (d a b : BitVec 5) (s : State) : Host.Outcome State Fault Refusal :=
  runInstr (pairLen p) (vint .mulh p et d a b (wordVal (encode (.vmulh p et d a b)))) s

/-- VMIN (R273). -/
def execVmin (p : Option Pfx) (et : BitVec 3) (d a b : BitVec 5) (s : State) : Host.Outcome State Fault Refusal :=
  runInstr (pairLen p) (vint .min p et d a b (wordVal (encode (.vmin p et d a b)))) s

/-- VMAX (R273). -/
def execVmax (p : Option Pfx) (et : BitVec 3) (d a b : BitVec 5) (s : State) : Host.Outcome State Fault Refusal :=
  runInstr (pairLen p) (vint .max p et d a b (wordVal (encode (.vmax p et d a b)))) s

/-- VMINU (R273). -/
def execVminu (p : Option Pfx) (et : BitVec 3) (d a b : BitVec 5) (s : State) : Host.Outcome State Fault Refusal :=
  runInstr (pairLen p) (vint .minu p et d a b (wordVal (encode (.vminu p et d a b)))) s

/-- VMAXU (R273). -/
def execVmaxu (p : Option Pfx) (et : BitVec 3) (d a b : BitVec 5) (s : State) : Host.Outcome State Fault Refusal :=
  runInstr (pairLen p) (vint .maxu p et d a b (wordVal (encode (.vmaxu p et d a b)))) s

/-- VAND (R273). -/
def execVand (p : Option Pfx) (et : BitVec 3) (d a b : BitVec 5) (s : State) : Host.Outcome State Fault Refusal :=
  runInstr (pairLen p) (vint .and p et d a b (wordVal (encode (.vand p et d a b)))) s

/-- VOR (R273). -/
def execVor (p : Option Pfx) (et : BitVec 3) (d a b : BitVec 5) (s : State) : Host.Outcome State Fault Refusal :=
  runInstr (pairLen p) (vint .or p et d a b (wordVal (encode (.vor p et d a b)))) s

/-- VXOR (R273). -/
def execVxor (p : Option Pfx) (et : BitVec 3) (d a b : BitVec 5) (s : State) : Host.Outcome State Fault Refusal :=
  runInstr (pairLen p) (vint .xor p et d a b (wordVal (encode (.vxor p et d a b)))) s

/-- VSHL (R273). -/
def execVshl (p : Option Pfx) (et : BitVec 3) (d a b : BitVec 5) (s : State) : Host.Outcome State Fault Refusal :=
  runInstr (pairLen p) (vint .shl p et d a b (wordVal (encode (.vshl p et d a b)))) s

/-- VSHR (R273). -/
def execVshr (p : Option Pfx) (et : BitVec 3) (d a b : BitVec 5) (s : State) : Host.Outcome State Fault Refusal :=
  runInstr (pairLen p) (vint .shr p et d a b (wordVal (encode (.vshr p et d a b)))) s

/-- VSRA (R273). -/
def execVsra (p : Option Pfx) (et : BitVec 3) (d a b : BitVec 5) (s : State) : Host.Outcome State Fault Refusal :=
  runInstr (pairLen p) (vint .sra p et d a b (wordVal (encode (.vsra p et d a b)))) s

/-- VABS (R273). -/
def execVabs (p : Option Pfx) (et : BitVec 3) (d a : BitVec 5) (s : State) : Host.Outcome State Fault Refusal :=
  runInstr (pairLen p) (vint .abs p et d a 0#5 (wordVal (encode (.vabs p et d a)))) s

/-- VSADD (R273). -/
def execVsadd (p : Option Pfx) (et : BitVec 3) (d a b : BitVec 5) (s : State) : Host.Outcome State Fault Refusal :=
  runInstr (pairLen p) (vint .sadd p et d a b (wordVal (encode (.vsadd p et d a b)))) s

/-- VSSUB (R273). -/
def execVssub (p : Option Pfx) (et : BitVec 3) (d a b : BitVec 5) (s : State) : Host.Outcome State Fault Refusal :=
  runInstr (pairLen p) (vint .ssub p et d a b (wordVal (encode (.vssub p et d a b)))) s

end Sys2Proof.Machine
end

