-- ==== Sys2Proof/Machine/Dispatch.lean ====
section
/-!
DEFINITION. The dispatch: one arm for every constructor of `Instr`, each a direct call of its meaning.
-/

namespace Sys2Proof.Machine

def exec (i : Instr) (s : State) : Host.Outcome State Fault Refusal :=
  match i with
  | .add d a b => Sys2Proof.Machine.execAdd d a b s
  | .sub d a b => Sys2Proof.Machine.execSub d a b s
  | .mul d a b => Sys2Proof.Machine.execMul d a b s
  | .mulh d a b => Sys2Proof.Machine.execMulh d a b s
  | .mulhu d a b => Sys2Proof.Machine.execMulhu d a b s
  | .div d a b => Sys2Proof.Machine.execDiv d a b s
  | .divu d a b => Sys2Proof.Machine.execDivu d a b s
  | .rem d a b => Sys2Proof.Machine.execRem d a b s
  | .remu d a b => Sys2Proof.Machine.execRemu d a b s
  | .and d a b => Sys2Proof.Machine.execAnd d a b s
  | .or d a b => Sys2Proof.Machine.execOr d a b s
  | .xor d a b => Sys2Proof.Machine.execXor d a b s
  | .andn d a b => Sys2Proof.Machine.execAndn d a b s
  | .shl d a b => Sys2Proof.Machine.execShl d a b s
  | .shr d a b => Sys2Proof.Machine.execShr d a b s
  | .sra d a b => Sys2Proof.Machine.execSra d a b s
  | .rol d a b => Sys2Proof.Machine.execRol d a b s
  | .min d a b => Sys2Proof.Machine.execMin d a b s
  | .max d a b => Sys2Proof.Machine.execMax d a b s
  | .minu d a b => Sys2Proof.Machine.execMinu d a b s
  | .maxu d a b => Sys2Proof.Machine.execMaxu d a b s
  | .slt d a b => Sys2Proof.Machine.execSlt d a b s
  | .sltu d a b => Sys2Proof.Machine.execSltu d a b s
  | .seq d a b => Sys2Proof.Machine.execSeq d a b s
  | .sne d a b => Sys2Proof.Machine.execSne d a b s
  | .clz d a => Sys2Proof.Machine.execClz d a s
  | .ctz d a => Sys2Proof.Machine.execCtz d a s
  | .popc d a => Sys2Proof.Machine.execPopc d a s
  | .brev d a => Sys2Proof.Machine.execBrev d a s
  | .sext d a b => Sys2Proof.Machine.execSext d a b s
  | .zext d a b => Sys2Proof.Machine.execZext d a b s
  | .sel d a b c => Sys2Proof.Machine.execSel d a b c s
  | .addi d a imm => Sys2Proof.Machine.execAddi d a imm s
  | .andi d a imm => Sys2Proof.Machine.execAndi d a imm s
  | .ori d a imm => Sys2Proof.Machine.execOri d a imm s
  | .xori d a imm => Sys2Proof.Machine.execXori d a imm s
  | .shli d a imm => Sys2Proof.Machine.execShli d a imm s
  | .shri d a imm => Sys2Proof.Machine.execShri d a imm s
  | .srai d a imm => Sys2Proof.Machine.execSrai d a imm s
  | .slti d a imm => Sys2Proof.Machine.execSlti d a imm s
  | .li d imm => Sys2Proof.Machine.execLi d imm s
  | .xset x imm part => Sys2Proof.Machine.execXset x imm part s
  | .mov d a => Sys2Proof.Machine.execMov d a s
  | .xget d x => Sys2Proof.Machine.execXget d x s
  | .xsetr x a => Sys2Proof.Machine.execXsetr x a s
  | .nclr n => Sys2Proof.Machine.execNclr n s
  | .nwr dir n a slot => Sys2Proof.Machine.execNwr dir n a slot s
  | .ntest d n => Sys2Proof.Machine.execNtest d n s
  | .borrow d a => Sys2Proof.Machine.execBorrow d a s
  | .brd d n => Sys2Proof.Machine.execBrd d n s
  | .bwr n a => Sys2Proof.Machine.execBwr n a s
  | .bret => Sys2Proof.Machine.execBret s
  | .qsend q a => Sys2Proof.Machine.execQsend q a s
  | .qrecv d q => Sys2Proof.Machine.execQrecv d q s
  | .qstat d q => Sys2Proof.Machine.execQstat d q s
  | .rng d => Sys2Proof.Machine.execRng d s
  | .rngseed a => Sys2Proof.Machine.execRngseed a s
  | .cycle d => Sys2Proof.Machine.execCycle d s
  | .mfs d sys => Sys2Proof.Machine.execMfs d sys s
  | .mts sys a => Sys2Proof.Machine.execMts sys a s
  | .mtsi sys ihi ilo => Sys2Proof.Machine.execMtsi sys ihi ilo s
  | .cgeta d ka => Sys2Proof.Machine.execCgeta d ka s
  | .cgetb d ka => Sys2Proof.Machine.execCgetb d ka s
  | .cgetl d ka => Sys2Proof.Machine.execCgetl d ka s
  | .cgetp d ka => Sys2Proof.Machine.execCgetp d ka s
  | .ctag d ka => Sys2Proof.Machine.execCtag d ka s
  | .cmov kd ka => Sys2Proof.Machine.execCmov kd ka s
  | .cseta kd ka b => Sys2Proof.Machine.execCseta kd ka b s
  | .cinc kd ka b => Sys2Proof.Machine.execCinc kd ka b s
  | .cbound exact kd ka b => Sys2Proof.Machine.execCbound exact kd ka b s
  | .cperm kd ka b => Sys2Proof.Machine.execCperm kd ka b s
  | .cgen kd ka => Sys2Proof.Machine.execCgen kd ka s
  | .cclr kd => Sys2Proof.Machine.execCclr kd s
  | .ceq d ka kb => Sys2Proof.Machine.execCeq d ka kb s
  | .csub d ka kb => Sys2Proof.Machine.execCsub d ka kb s
  | .ldk kd idx => Sys2Proof.Machine.execLdk kd idx s
  | .beq a b off => Sys2Proof.Machine.execBeq a b off s
  | .bne a b off => Sys2Proof.Machine.execBne a b off s
  | .blt a b off => Sys2Proof.Machine.execBlt a b off s
  | .bge a b off => Sys2Proof.Machine.execBge a b off s
  | .bltu a b off => Sys2Proof.Machine.execBltu a b off s
  | .bgeu a b off => Sys2Proof.Machine.execBgeu a b off s
  | .bbs a b off => Sys2Proof.Machine.execBbs a b off s
  | .bbc a b off => Sys2Proof.Machine.execBbc a b off s
  | .bez a off => Sys2Proof.Machine.execBez a off s
  | .bnz a off => Sys2Proof.Machine.execBnz a off s
  | .bgs g off => Sys2Proof.Machine.execBgs g off s
  | .bgc g off => Sys2Proof.Machine.execBgc g off s
  | .j off => Sys2Proof.Machine.execJ off s
  | .call off => Sys2Proof.Machine.execCall off s
  | .jk k => Sys2Proof.Machine.execJk k s
  | .callk k => Sys2Proof.Machine.execCallk k s
  | .loop a off => Sys2Proof.Machine.execLoop a off s
  | .loopm i1 off => Sys2Proof.Machine.execLoopm i1 off s
  | .loopi cnt off => Sys2Proof.Machine.execLoopi cnt off s
  | .gset cc g a b => Sys2Proof.Machine.execGset cc g a b s
  | .gsetn cc g a b => Sys2Proof.Machine.execGsetn cc g a b s
  | .gclr g => Sys2Proof.Machine.execGclr g s
  | .gwait g => Sys2Proof.Machine.execGwait g s
  | .ld type d k off => Sys2Proof.Machine.execLd type d k off s
  | .st size rel k off a => Sys2Proof.Machine.execSt size rel k off a s
  | .ldx type acq d k i1 scale => Sys2Proof.Machine.execLdx type acq d k i1 scale s
  | .stx size rel k i1 scale a => Sys2Proof.Machine.execStx size rel k i1 scale a s
  | .ldc kd k off => Sys2Proof.Machine.execLdc kd k off s
  | .stc k off kd => Sys2Proof.Machine.execStc k off kd s
  | .aadd wide order d k off => Sys2Proof.Machine.execAadd wide order d k off s
  | .aand wide order d k off => Sys2Proof.Machine.execAand wide order d k off s
  | .aor wide order d k off => Sys2Proof.Machine.execAor wide order d k off s
  | .axor wide order d k off => Sys2Proof.Machine.execAxor wide order d k off s
  | .amin wide order d k off => Sys2Proof.Machine.execAmin wide order d k off s
  | .amax wide order d k off => Sys2Proof.Machine.execAmax wide order d k off s
  | .aminu wide order d k off => Sys2Proof.Machine.execAminu wide order d k off s
  | .amaxu wide order d k off => Sys2Proof.Machine.execAmaxu wide order d k off s
  | .aswp wide order d k off => Sys2Proof.Machine.execAswp wide order d k off s
  | .acas wide order d k off => Sys2Proof.Machine.execAcas wide order d k off s
  | .afadd wide order d k off => Sys2Proof.Machine.execAfadd wide order d k off s
  | .fence kind scope => Sys2Proof.Machine.execFence kind scope s
  | .efence => Sys2Proof.Machine.execEfence s
  | .ifence => Sys2Proof.Machine.execIfence s
  | .rst size ka b => Sys2Proof.Machine.execRst size ka b s
  | .amsg ka kb => Sys2Proof.Machine.execAmsg ka kb s
  | .rdrain => Sys2Proof.Machine.execRdrain s
  | .spawn d ka => Sys2Proof.Machine.execSpawn d ka s
  | .start d ka => Sys2Proof.Machine.execStart d ka s
  | .done => Sys2Proof.Machine.execDone s
  | .yield a b => Sys2Proof.Machine.execYield a b s
  | .join d ka => Sys2Proof.Machine.execJoin d ka s
  | .walk d ka b => Sys2Proof.Machine.execWalk d ka b s
  | .launch d ka b => Sys2Proof.Machine.execLaunch d ka b s
  | .launchi d ka kb => Sys2Proof.Machine.execLaunchi d ka kb s
  | .gang d ka => Sys2Proof.Machine.execGang d ka s
  | .submit d ka => Sys2Proof.Machine.execSubmit d ka s
  | .dline d a => Sys2Proof.Machine.execDline d a s
  | .self kd => Sys2Proof.Machine.execSelf kd s
  | .finit ka => Sys2Proof.Machine.execFinit ka s
  | .fres d ka b => Sys2Proof.Machine.execFres d ka b s
  | .freg d ka kb => Sys2Proof.Machine.execFreg d ka kb s
  | .fget d ka => Sys2Proof.Machine.execFget d ka s
  | .fstat d ka => Sys2Proof.Machine.execFstat d ka s
  | .rinit ka kb s1 => Sys2Proof.Machine.execRinit ka kb s1 s
  | .rclaim scope d ka b => Sys2Proof.Machine.execRclaim scope d ka b s
  | .rtryclaim scope d ka b => Sys2Proof.Machine.execRtryclaim scope d ka b s
  | .rcommit scope ka i1 b => Sys2Proof.Machine.execRcommit scope ka i1 b s
  | .rawait scope d ka b => Sys2Proof.Machine.execRawait scope d ka b s
  | .rretire scope ka i1 b => Sys2Proof.Machine.execRretire scope ka i1 b s
  | .binit ka b => Sys2Proof.Machine.execBinit ka b s
  | .barrive scope d ka b => Sys2Proof.Machine.execBarrive scope d ka b s
  | .bexpect ka b => Sys2Proof.Machine.execBexpect ka b s
  | .bwait scope ka b => Sys2Proof.Machine.execBwait scope ka b s
  | .btest scope d ka b => Sys2Proof.Machine.execBtest scope d ka b s
  | .trap a => Sys2Proof.Machine.execTrap a s
  | .rte => Sys2Proof.Machine.execRte s
  | .svc d a b => Sys2Proof.Machine.execSvc d a b s
  | .brk => Sys2Proof.Machine.execBrk s
  | .chkpt idx => Sys2Proof.Machine.execChkpt idx s
  | .realign tag => Sys2Proof.Machine.execRealign tag s
  | .wfi d a => Sys2Proof.Machine.execWfi d a s
  | .halt => Sys2Proof.Machine.execHalt s
  | .tinv all a b => Sys2Proof.Machine.execTinv all a b s
  | .vclaim d a b => Sys2Proof.Machine.execVclaim d a b s
  | .vreneg d a b => Sys2Proof.Machine.execVreneg d a b s
  | .vrel => Sys2Proof.Machine.execVrel s
  | .vadd p et d a b => Sys2Proof.Machine.execVadd p et d a b s
  | .vsub p et d a b => Sys2Proof.Machine.execVsub p et d a b s
  | .vmul p et d a b => Sys2Proof.Machine.execVmul p et d a b s
  | .vmulh p et d a b => Sys2Proof.Machine.execVmulh p et d a b s
  | .vmin p et d a b => Sys2Proof.Machine.execVmin p et d a b s
  | .vmax p et d a b => Sys2Proof.Machine.execVmax p et d a b s
  | .vminu p et d a b => Sys2Proof.Machine.execVminu p et d a b s
  | .vmaxu p et d a b => Sys2Proof.Machine.execVmaxu p et d a b s
  | .vand p et d a b => Sys2Proof.Machine.execVand p et d a b s
  | .vor p et d a b => Sys2Proof.Machine.execVor p et d a b s
  | .vxor p et d a b => Sys2Proof.Machine.execVxor p et d a b s
  | .vshl p et d a b => Sys2Proof.Machine.execVshl p et d a b s
  | .vshr p et d a b => Sys2Proof.Machine.execVshr p et d a b s
  | .vsra p et d a b => Sys2Proof.Machine.execVsra p et d a b s
  | .vabs p et d a => Sys2Proof.Machine.execVabs p et d a s
  | .vsadd p et d a b => Sys2Proof.Machine.execVsadd p et d a b s
  | .vssub p et d a b => Sys2Proof.Machine.execVssub p et d a b s
  | .vfadd p et d a b => Sys2Proof.Machine.execVfadd p et d a b s
  | .vfsub p et d a b => Sys2Proof.Machine.execVfsub p et d a b s
  | .vfmul p et d a b => Sys2Proof.Machine.execVfmul p et d a b s
  | .vfma p et d a b => Sys2Proof.Machine.execVfma p et d a b s
  | .vfdiv p et d a b => Sys2Proof.Machine.execVfdiv p et d a b s
  | .vfsqrt p et d a => Sys2Proof.Machine.execVfsqrt p et d a s
  | .vfmin p et d a b => Sys2Proof.Machine.execVfmin p et d a b s
  | .vfmax p et d a b => Sys2Proof.Machine.execVfmax p et d a b s
  | .vfabs p et d a => Sys2Proof.Machine.execVfabs p et d a s
  | .vfneg p et d a => Sys2Proof.Machine.execVfneg p et d a s
  | .vfrcp p et d a => Sys2Proof.Machine.execVfrcp p et d a s
  | .vfrsq p et d a => Sys2Proof.Machine.execVfrsq p et d a s
  | .vfexp2 p et d a => Sys2Proof.Machine.execVfexp2 p et d a s
  | .vflog2 p et d a => Sys2Proof.Machine.execVflog2 p et d a s
  | .vfclass p et d a => Sys2Proof.Machine.execVfclass p et d a s
  | .vcmp p et cc vmd a b => Sys2Proof.Machine.execVcmp p et cc vmd a b s
  | .vfcmp p et cc vmd a b => Sys2Proof.Machine.execVfcmp p et cc vmd a b s
  | .vmand p vmd vma vmb => Sys2Proof.Machine.execVmand p vmd vma vmb s
  | .vmor p vmd vma vmb => Sys2Proof.Machine.execVmor p vmd vma vmb s
  | .vmxor p vmd vma vmb => Sys2Proof.Machine.execVmxor p vmd vma vmb s
  | .vmnot p vmd vma => Sys2Proof.Machine.execVmnot p vmd vma s
  | .vmpop p d vma => Sys2Proof.Machine.execVmpop p d vma s
  | .vmfirst p d vma => Sys2Proof.Machine.execVmfirst p d vma s
  | .vcvt p et d a src part => Sys2Proof.Machine.execVcvt p et d a src part s
  | .vqbfp p et d a m1 => Sys2Proof.Machine.execVqbfp p et d a m1 s
  | .vdqbfp p et d a m1 => Sys2Proof.Machine.execVdqbfp p et d a m1 s
  | .vld p et d k off => Sys2Proof.Machine.execVld p et d k off s
  | .vst p et d k off => Sys2Proof.Machine.execVst p et d k off s
  | .vlds p et d k b => Sys2Proof.Machine.execVlds p et d k b s
  | .vsts p et d k b => Sys2Proof.Machine.execVsts p et d k b s
  | .vgth p et d k b => Sys2Proof.Machine.execVgth p et d k b s
  | .vsct p et d k b => Sys2Proof.Machine.execVsct p et d k b s
  | .vbcast p et d a => Sys2Proof.Machine.execVbcast p et d a s
  | .vext p et d a b => Sys2Proof.Machine.execVext p et d a b s
  | .vins p et d a b => Sys2Proof.Machine.execVins p et d a b s
  | .viota p et d => Sys2Proof.Machine.execViota p et d s
  | .vshuf p et d a b => Sys2Proof.Machine.execVshuf p et d a b s
  | .vredsum p et d a => Sys2Proof.Machine.execVredsum p et d a s
  | .vredmax p et d a => Sys2Proof.Machine.execVredmax p et d a s
  | .vredmin p et d a => Sys2Proof.Machine.execVredmin p et d a s
  | .vtbl p et d a kb => Sys2Proof.Machine.execVtbl p et d a kb s
  | .vrng p et d => Sys2Proof.Machine.execVrng p et d s
  | .vrngn p et d => Sys2Proof.Machine.execVrngn p et d s
  | .madd p cov d a b => Sys2Proof.Machine.execMadd p cov d a b s
  | .msub p cov d a b => Sys2Proof.Machine.execMsub p cov d a b s
  | .mmul p cov d a b => Sys2Proof.Machine.execMmul p cov d a b s
  | .mscale p d a b => Sys2Proof.Machine.execMscale p d a b s
  | .mfma p cov d a b => Sys2Proof.Machine.execMfma p cov d a b s
  | .mneg p d a => Sys2Proof.Machine.execMneg p d a s
  | .mrelu p d a => Sys2Proof.Machine.execMrelu p d a s
  | .msig p d a => Sys2Proof.Machine.execMsig p d a s
  | .mexp p d a => Sys2Proof.Machine.execMexp p d a s
  | .msqr p d a => Sys2Proof.Machine.execMsqr p d a s
  | .mset p d a b => Sys2Proof.Machine.execMset p d a b s
  | .mmean p d a => Sys2Proof.Machine.execMmean p d a s
  | .mvar p d a => Sys2Proof.Machine.execMvar p d a s
  | .mcoll p mode d a => Sys2Proof.Machine.execMcoll p mode d a s
  | .mld p d k off => Sys2Proof.Machine.execMld p d k off s
  | .mst p d k off => Sys2Proof.Machine.execMst p d k off s
  | .mchk p d a => Sys2Proof.Machine.execMchk p d a s
  | .zld expand zd ka b => Sys2Proof.Machine.execZld expand zd ka b s
  | .zst zd ka b => Sys2Proof.Machine.execZst zd ka b s
  | .zzero zd => Sys2Proof.Machine.execZzero zd s
  | .zrel zd => Sys2Proof.Machine.execZrel zd s
  | .zstate d za => Sys2Proof.Machine.execZstate d za s
  | .zmov zd za => Sys2Proof.Machine.execZmov zd za s
  | .wload za => Sys2Proof.Machine.execWload za s
  | .wswap => Sys2Proof.Machine.execWswap s
  | .mma yd za => Sys2Proof.Machine.execMma yd za s
  | .mmam yd za => Sys2Proof.Machine.execMmam yd za s
  | .yzero mom yd => Sys2Proof.Machine.execYzero mom yd s
  | .ydrain p zero zd ya b => Sys2Proof.Machine.execYdrain p zero zd ya b s
  | .ymov yd ya => Sys2Proof.Machine.execYmov yd ya s
  | .qfuse a => Sys2Proof.Machine.execQfuse a s
  | .qsplit a => Sys2Proof.Machine.execQsplit a s
  | .copy k ge sense g => Sys2Proof.Machine.execCopy k ge sense g s
  | .xform k ge sense g => Sys2Proof.Machine.execXform k ge sense g s
  | .coll k ge sense g => Sys2Proof.Machine.execColl k ge sense g s
  | .trace k ge sense g => Sys2Proof.Machine.execTrace k ge sense g s
  | .ewait d ka => Sys2Proof.Machine.execEwait d ka s
  | .estat d ka => Sys2Proof.Machine.execEstat d ka s
  | .lnew d a => Sys2Proof.Machine.execLnew d a s
  | .lfree a => Sys2Proof.Machine.execLfree a s
  | .lset f a b => Sys2Proof.Machine.execLset f a b s
  | .lget f d a => Sys2Proof.Machine.execLget f d a s
  | .lest d a => Sys2Proof.Machine.execLest d a s
  | .lprice a b => Sys2Proof.Machine.execLprice a b s
  | .lreq d => Sys2Proof.Machine.execLreq d s
  | .lreqS d => Sys2Proof.Machine.execLreqS d s
  | .lbegin a => Sys2Proof.Machine.execLbegin a s
  | .ldone a => Sys2Proof.Machine.execLdone a s
  | .lsplit a b => Sys2Proof.Machine.execLsplit a b s
  | .lmerge a b => Sys2Proof.Machine.execLmerge a b s
  | .llight a b => Sys2Proof.Machine.execLlight a b s
  | .compose d => Sys2Proof.Machine.execCompose d s
  | .slaunch d ka => Sys2Proof.Machine.execSlaunch d ka s
  | .sresid a => Sys2Proof.Machine.execSresid a s
  | .sresidm a b => Sys2Proof.Machine.execSresidm a b s
  | .sabort => Sys2Proof.Machine.execSabort s
  | .sstat d ka => Sys2Proof.Machine.execSstat d ka s
  | .addC a b => Sys2Proof.Machine.execAddC a b s
  | .subC a b => Sys2Proof.Machine.execSubC a b s
  | .andC a b => Sys2Proof.Machine.execAndC a b s
  | .orC a b => Sys2Proof.Machine.execOrC a b s
  | .xorC a b => Sys2Proof.Machine.execXorC a b s
  | .mulC a b => Sys2Proof.Machine.execMulC a b s
  | .sltC a b => Sys2Proof.Machine.execSltC a b s
  | .seqC a b => Sys2Proof.Machine.execSeqC a b s
  | .shliC a b x => Sys2Proof.Machine.execShliC a b x s
  | .shriC a b x => Sys2Proof.Machine.execShriC a b x s
  | .addiC a b x => Sys2Proof.Machine.execAddiC a b x s
  | .movCToNamed b a => Sys2Proof.Machine.execMovCToNamed b a s
  | .movCFromNamed b => Sys2Proof.Machine.execMovCFromNamed b s
  | .liC a b x => Sys2Proof.Machine.execLiC a b x s
  | .movCAge a => Sys2Proof.Machine.execMovCAge a s
  | .nop => Sys2Proof.Machine.execNop s
  | .jC off => Sys2Proof.Machine.execJC off s
  | .bezC off => Sys2Proof.Machine.execBezC off s
  | .bnzC off => Sys2Proof.Machine.execBnzC off s
  | .lexit => Sys2Proof.Machine.execLexit s
  | .doneC => Sys2Proof.Machine.execDoneC s
  | .chkptC idx => Sys2Proof.Machine.execChkptC idx s
  | .realignC tag => Sys2Proof.Machine.execRealignC tag s
  | .retC => Sys2Proof.Machine.execRetC s
  | .nclrC n => Sys2Proof.Machine.execNclrC n s
  | .fenceCoreC => Sys2Proof.Machine.execFenceCoreC s
  | .mailboxWrite core i1 v => Sys2Proof.Machine.execMailboxWrite core i1 v s
  | .mbxpClear core m => Sys2Proof.Machine.execMbxpClear core m s
  | .heldMailboxWrite core i1 => Sys2Proof.Machine.execHeldMailboxWrite core i1 s
  | .guardResolve slot g => Sys2Proof.Machine.execGuardResolve slot g s
  | .homeAccess id => Sys2Proof.Machine.execHomeAccess id s
  | .pageWalk core tenant va => Sys2Proof.Machine.execPageWalk core tenant va s
  | .nwrHeldWrite slot n => Sys2Proof.Machine.execNwrHeldWrite slot n s
  | .nwrWithdrawal src => Sys2Proof.Machine.execNwrWithdrawal src s
  | .rstReturn i1 => Sys2Proof.Machine.execRstReturn i1 s
  | .amsgRun core => Sys2Proof.Machine.execAmsgRun core s
  | .amsgTimeout core => Sys2Proof.Machine.execAmsgTimeout core s
  | .holdClear cluster => Sys2Proof.Machine.execHoldClear cluster s
  | .holdTimeout cluster => Sys2Proof.Machine.execHoldTimeout cluster s
  | .dispatch cluster => Sys2Proof.Machine.execDispatch cluster s
  | .recordWalkHop i1 => Sys2Proof.Machine.execRecordWalkHop i1 s
  | .gangStart cluster => Sys2Proof.Machine.execGangStart cluster s
  | .launchiCountRead cluster => Sys2Proof.Machine.execLaunchiCountRead cluster s
  | .recordRelease i1 => Sys2Proof.Machine.execRecordRelease i1 s
  | .groupCountStep i1 => Sys2Proof.Machine.execGroupCountStep i1 s
  | .chargeExhausted slot => Sys2Proof.Machine.execChargeExhausted slot s
  | .budgetExhausted slot => Sys2Proof.Machine.execBudgetExhausted slot s
  | .graceExhausted slot => Sys2Proof.Machine.execGraceExhausted slot s
  | .parkedWithdrawal slot => Sys2Proof.Machine.execParkedWithdrawal slot s
  | .realignTimeout slot => Sys2Proof.Machine.execRealignTimeout slot s
  | .svcAnswer slot v => Sys2Proof.Machine.execSvcAnswer slot v s
  | .preemptRequest slot => Sys2Proof.Machine.execPreemptRequest slot s
  | .preemptTimeout slot => Sys2Proof.Machine.execPreemptTimeout slot s
  | .spillSave slot => Sys2Proof.Machine.execSpillSave slot s
  | .granuleFill i1 => Sys2Proof.Machine.execGranuleFill i1 s
  | .zldComplete quad z => Sys2Proof.Machine.execZldComplete quad z s
  | .tileDrainDone quad z => Sys2Proof.Machine.execTileDrainDone quad z s
  | .wloadExecute quad => Sys2Proof.Machine.execWloadExecute quad s
  | .wswapExecute quad => Sys2Proof.Machine.execWswapExecute quad s
  | .mmaExecute quad => Sys2Proof.Machine.execMmaExecute quad s
  | .mmamExecute quad => Sys2Proof.Machine.execMmamExecute quad s
  | .yzeroExecute quad => Sys2Proof.Machine.execYzeroExecute quad s
  | .ydrainExecute quad => Sys2Proof.Machine.execYdrainExecute quad s
  | .ymovExecute quad => Sys2Proof.Machine.execYmovExecute quad s
  | .tileStateDrain quad => Sys2Proof.Machine.execTileStateDrain quad s
  | .cardStart engine cls => Sys2Proof.Machine.execCardStart engine cls s
  | .cardFinish engine i1 => Sys2Proof.Machine.execCardFinish engine i1 s
  | .collTimeout engine i1 => Sys2Proof.Machine.execCollTimeout engine i1 s
  | .codebookBankWrite engine i1 => Sys2Proof.Machine.execCodebookBankWrite engine i1 s
  | .checkChargeExhausted slot => Sys2Proof.Machine.execCheckChargeExhausted slot s
  | .enqueueWindowSpawn cluster tenant addr => Sys2Proof.Machine.execEnqueueWindowSpawn cluster tenant addr s
  | .enqueueWindowSubmit cluster tenant addr => Sys2Proof.Machine.execEnqueueWindowSubmit cluster tenant addr s
  | .enqueueWindowSpawnResult cluster tenant => Sys2Proof.Machine.execEnqueueWindowSpawnResult cluster tenant s
  | .enqueueWindowSubmitResult cluster tenant => Sys2Proof.Machine.execEnqueueWindowSubmitResult cluster tenant s
  | .partitionStart part tenant code frame deadline budget recAddr group => Sys2Proof.Machine.execPartitionStart part tenant code frame deadline budget recAddr group s
  | .boot ecdsaOk lmsOk version => Sys2Proof.Machine.execBoot ecdsaOk lmsOk version s
  | .linkTrain link err => Sys2Proof.Machine.execLinkTrain link err s
  | .tenantSwitch core toTenant => Sys2Proof.Machine.execTenantSwitch core toTenant s
  | .flitArbitration link => Sys2Proof.Machine.execFlitArbitration link s
  | .creditReturn link cls resp => Sys2Proof.Machine.execCreditReturn link cls resp s
  | .hostModuleFailure module => Sys2Proof.Machine.execHostModuleFailure module s
  | .fabricPortFailure port => Sys2Proof.Machine.execFabricPortFailure port s
  | .serviceCoreRestart die => Sys2Proof.Machine.execServiceCoreRestart die s
  | .attestationRequest nonce => Sys2Proof.Machine.execAttestationRequest nonce s
  | .patrolScrub line => Sys2Proof.Machine.execPatrolScrub line s
  | .correctedError die addr => Sys2Proof.Machine.execCorrectedError die addr s
  | .uncorrectableError line => Sys2Proof.Machine.execUncorrectableError line s
  | .partitionReset part words => Sys2Proof.Machine.execPartitionReset part words s
  | .flitRetry link => Sys2Proof.Machine.execFlitRetry link s

end Sys2Proof.Machine
end

