-- ==== Sys2Proof/Machine/Turn.lean ====
section
/-!
DEFINITION. What happens next: one event of the package, one issue of one slot (R13), or the end of a cycle (R23).
The manual orders events only by the edges of its chapters, so which of those that can take place comes next, or
an issue before them, is read from a free choice (log 5).
-/

namespace Sys2Proof.Machine

/-! ## Inputs -/

/-- The events of the table that come from outside the compute dies: the host, root and service firmware, the links, errors of
the memory, and the walks that hardware may make of its own accord (R166). -/
def isInput : Instr → Bool
  | .mailboxWrite .. | .mbxpClear .. | .pageWalk .. | .svcAnswer .. | .preemptRequest .. | .enqueueWindowSpawnResult ..
  | .enqueueWindowSubmitResult .. | .partitionStart .. | .boot .. | .linkTrain .. | .tenantSwitch .. | .hostModuleFailure ..
  | .fabricPortFailure .. | .serviceCoreRestart .. | .attestationRequest .. | .patrolScrub .. | .correctedError ..
  | .uncorrectableError .. | .partitionReset .. | .flitRetry .. => true
  | _ => false

/-- What an outside input does; none while it cannot take place. A window store of the host is sent on its way (R417). -/
def State.takeInput (s : State) : Input → Option State
  | .event i =>
    match i with
    | .enqueueWindowSpawn cl t a => s.hostEnqueue cl t a false
    | .enqueueWindowSubmit cl t a => s.hostEnqueue cl t a true
    | i => if isInput i then (match exec i s with | .next s' => some s' | _ => none) else none
  | .hostStore key bs => s.hostStore key bs
  | .serviceWord p t w => s.serviceWord p t w
  | .serviceStore key bs => s.serviceStore key bs
  | .rootStore key bs => s.rootStore key bs
  | .takeRecord d => s.takeRecord d
  | .packageIndex n => s.setIndex n
  | .route d pkg ports => s.setRoute d pkg ports
  | .mapService lo hi => s.mapService lo hi
  | .residue q => s.hitResidue q

/-! ## Events -/

/-- GUARD_RESOLVE of a guard whose operands are all there, if there is one: it comes before anything else (R136). -/
noncomputable def State.settledGuard (s : State) : Option Instr :=
  s.slots.findSome? fun x => (List.range 16).findSome? fun i =>
    if (s.resolveGuard x.1 i).isSome then some (Instr.guardResolve x.1 i) else none

/-- An event whose time has come, which nothing precedes: the end of a REALIGN hold (R140), of the time of a pre-emption request
(R217), of a collective's wait (R336), of a cluster's hold (R180). -/
noncomputable def State.overdue (s : State) : Option Instr :=
  (s.slots.findSome? fun x => if (s.realignDue x.1).isSome then some (Instr.realignTimeout x.1) else none).or
    ((s.slots.findSome? fun x => if (s.preemptTimeout x.1).isSome then some (Instr.preemptTimeout x.1) else none).or
      ((s.engines.findSome? fun e =>
          ((List.range e.2.running.length).find? fun i => (e.2.running[i]?).any s.collDue).map (Instr.collTimeout e.1)).or
        (s.clusters.findSome? fun c => if s.holdDue c.1 then some (Instr.holdTimeout c.1) else none)))

/-- What comes before anything else. -/
noncomputable def State.forced (s : State) : Option Instr := s.settledGuard.or s.overdue

/-- The event in which an access is performed: that of a window store of the host has a name of its own. -/
noncomputable def Access.event (a : Access) : Instr :=
  match a.kind with
  | .window cl t off v =>
    if a.slot ≠ hostSlot then .homeAccess a.id else if off = 0 then .enqueueWindowSpawn cl t v else .enqueueWindowSubmit cl t v
  | _ => .homeAccess a.id

/-- Events of accesses, mailboxes, named registers, messages and walks on their way. -/
noncomputable def State.deliveries (s : State) : List Instr :=
  (s.cores.flatMap fun c => c.2.mbxHeld.map fun m => Instr.heldMailboxWrite c.1 m.1) ++
  s.flight.map Access.event ++
  s.nwrs.map (fun r => Instr.nwrHeldWrite r.dst r.n) ++
  s.nwrs.map (fun r => Instr.nwrWithdrawal r.src) ++
  (List.range s.returns.length).map Instr.rstReturn ++
  (s.cores.flatMap fun c => if c.2.amsgs.isEmpty then [] else [Instr.amsgRun c.1]) ++
  s.pageWalks.map fun w => Instr.pageWalk w.core w.tenant (w.page * 2 ^ 16)

/-- Clusters in which the die scheduler has something to start. -/
def State.clustersDue (s : State) : List Nat :=
  ((s.clusters.filter fun c => !c.2.list.isEmpty).map Prod.fst ++
    (s.cores.filter fun c => !c.2.localQ.isEmpty).map (fun c => clusterOf c.1) ++
    s.slices.map (fun x => clusterOf (coreOf x.slot)) ++ s.savedZero.map (fun x => clusterOf (coreOf x.1))).eraseDups

/-- Events of the die scheduler and of tenant switches. -/
noncomputable def State.scheduling (s : State) : List Instr :=
  let hold := (s.clusters.filter fun c => c.2.hold.isSome).map Prod.fst
  let gangs := (s.clusters.filter fun c => !c.2.windows.isEmpty).map Prod.fst
  let head := (s.clusters.filter fun c => !c.2.ready.isEmpty).map Prod.fst
  hold.map Instr.holdClear ++ s.clustersDue.map Instr.dispatch ++ gangs.map Instr.gangStart ++
  head.map Instr.launchiCountRead ++ (List.range s.walks.length).map Instr.recordWalkHop ++
  (List.range s.releases.length).map Instr.recordRelease ++ (List.range s.groupSteps.length).map Instr.groupCountStep ++
  s.cores.flatMap fun c => c.2.switchTo.toList.map (Instr.tenantSwitch c.1)

/-- Events of slots that wait, stop or have spent their charge. -/
noncomputable def State.stopping (s : State) : List Instr :=
  let slots := fun (f : Slot → Bool) => (s.slots.filter fun x => f x.2).map Prod.fst
  let spent := slots fun x => x.live && x.admitted && x.charge == 0
  s.parked.map (fun p => Instr.parkedWithdrawal p.slot) ++
  (slots fun x => x.stopped.isSome || x.preempt.isSome).map Instr.spillSave ++
  (List.range s.absent.length).map Instr.granuleFill ++ spent.map Instr.chargeExhausted ++ spent.map Instr.checkChargeExhausted

/-- Events of tiles and arrays. -/
noncomputable def State.tileEvents (s : State) : List Instr :=
  (s.quads.flatMap fun q =>
    q.2.zlds.map (fun z => Instr.zldComplete q.1 z.z) ++
    (q.2.tiles.filter fun t => t.2.state == .draining).map (fun t => Instr.tileDrainDone q.1 t.1) ++
    (if q.2.queue.isEmpty then []
      else [Instr.wloadExecute q.1, Instr.wswapExecute q.1, Instr.mmaExecute q.1, Instr.mmamExecute q.1,
            Instr.yzeroExecute q.1, Instr.ydrainExecute q.1, Instr.ymovExecute q.1]) ++
    (if q.2.leaving.isSome then [Instr.tileStateDrain q.1] else []))

/-- Events of engines and links. -/
noncomputable def State.engineEvents (s : State) : List Instr :=
  (s.engines.flatMap fun e =>
    e.2.queues.map (fun q => Instr.cardStart e.1 q.1) ++
    (e.2.running.flatMap fun c => c.ops.map fun o => Instr.homeAccess o.id) ++
    (List.range e.2.running.length).flatMap fun i => [Instr.cardFinish e.1 i, Instr.codebookBankWrite e.1 i]) ++
  (s.links.flatMap fun l =>
    (if l.2.waiting.isEmpty then [] else [Instr.flitArbitration l.1]) ++
    l.2.unacked.map fun f => Instr.creditReturn l.1 (f.sub / 2) (f.sub % 2 == 1))

/-- What may come next: the first input of the inbox, an event of the package, a step of the COMPOSE, LSPLIT or LMERGE of a slot
(R381), or a value of the count word of an entry of a cluster taken before its read (R187). -/
inductive Choice where
  | input (x : Input)
  | event (i : Instr)
  | layer (g : Nat)
  | count (cl n : Nat)
  deriving DecidableEq, Repr

/-- What a choice does, if it can take place. An input leaves the inbox. -/
def State.choose (s : State) : Choice → Option State
  | .input x => (s.takeInput x).map fun t => { t with inbox := t.inbox.tail }
  | .event i =>
    match exec i s with
    | .next t => some t
    | _ => none
  | .layer g => s.layerStep g
  | .count cl n => s.countSeen cl n

/-- The steps that are no events of the table. -/
def State.unnamed (s : State) : List Choice :=
  ((s.slots.filter fun x => x.2.job.isSome).map fun x => Choice.layer x.1) ++
    s.clusters.flatMap fun c => (c.2.list.filter fun e => e.unread.isSome).map fun e => Choice.count c.1 e.seq

/-- The next input, and every event of the package, that can take place. -/
noncomputable def State.enabled (s : State) : List Choice :=
  ((s.inbox.take 1).map Choice.input ++ s.unnamed ++
    (s.deliveries ++ s.scheduling ++ s.stopping ++ s.tileEvents ++ s.engineEvents).map Choice.event).filter fun c => (s.choose c).isSome

/-! ## Issue (R13) -/

/-- Whether the tile state that the tenant of slot `g` has saved on its pair has still to come back, before its first issue there
(R316). Slot 11, which serves every tenant, waits for none. -/
def State.tilesAway (s : State) (g : Nat) : Bool :=
  let q := quadOf (coreOf g)
  (s.quad q).leaving.isSome ||
    slotNo g ≠ 11 && s.savedTiles.any fun e => e.1 == savedTileKey (s.partOfSlot g) (s.slot g).tenant q

/-- Whether slot `g` is ready in this cycle, as far as it shows before its instruction is looked at (R13): live, on a die that has
left reset (R23), nothing held, and 6 cycles past its previous issue, on a core that has not issued. A halted partition issues
nothing (R180), and no slot issues on a pair that waits for a drain (R316). A load whose elements are in place, or a tile whose
latent writes are, ends in its slot's turn when it could not at once. -/
def State.readySlot (s : State) (g : Nat) : Bool :=
  let x := s.slot g
  x.live && (x.wait == Wait.none && x.stopped.isNone || s.loadDone g || s.commitDone g) && !x.borrowed && s.dieUp (dieOf (coreOf g)) &&
    (x.lastIssue.all fun t => decide (t + 6 ≤ s.now)) && (s.core (coreOf g)).issuedAt ≠ some s.now &&
    s.partFld (s.partOfSlot g) 0x800 3 1 == 0 && !s.tilesAway g

/-- Slots from the rotation pointer of its core to slot `g` (R13). -/
def State.rotation (s : State) (g : Nat) : Nat := (slotNo g + 12 - (s.core (coreOf g)).rot) % 12

/-- The place of slot `g` in the order in which a cycle offers the slots their turns. -/
def State.turnKey (s : State) (g : Nat) : Nat := 12 * coreOf g + s.rotation g

/-- The slot whose turn is next in this cycle: its core has the lowest number, and it is the first from its pointer. -/
def State.nextSlot (s : State) : Option Nat :=
  (s.slots.filter fun x => decide (12 * s.turn + s.scan ≤ s.turnKey x.1) && s.readySlot x.1).foldl
    (fun (b : Option Nat) x => match b with | none => some x.1 | some g => if s.turnKey x.1 < s.turnKey g then some x.1 else b) none

/-- The turn given to slot `g`. -/
def State.giveTurn (s : State) (g : Nat) : State := { s with cur := g, turn := coreOf g, scan := s.rotation g }

/-- A blocked cycle of an admitted slice counted towards its charge (R192). -/
def Slot.blockedCycle (x : Slot) : Slot :=
  if x.live && x.admitted && (x.blocked || x.wait ≠ Wait.none || x.stopped.isSome) then
    if x.chargeFrac = 11 then { x with chargeFrac := 0, charge := x.charge - 1 } else { x with chargeFrac := x.chargeFrac + 1 }
  else x

/-- A cycle of the engines' class-0 rates (R321). -/
def State.accrueEngines (s : State) : SMap Engine :=
  s.engines.map fun e => (e.1, match s.engineRate e.1 with
    | none => e.2
    | some r => { e.2 with acc := (accrue r e.2.acc e.2.tokens).1, tokens := (accrue r e.2.acc e.2.tokens).2 })

/-- The end of a cycle (R23). Dies that have not been booted stay in reset, and count none (R425). -/
def State.nextCycle (s : State) : State :=
  if s.fw.booted then
    { s with slots := s.slots.map (fun x => (x.1, x.2.blockedCycle)), engines := s.accrueEngines, now := s.now + 1, turn := 0, scan := 0 }
  else s

/-- What stops the current slot before its next fetch: a spent charge (R192, R366), spent issues (R195), a message past
its bound (R161). The inner option is none when that must wait. -/
def State.beforeFetch (s : State) : Option (Option State) :=
  let g := s.cur
  let x := s.slot g
  if x.admitted ∧ x.charge = 0 then some (if x.tile?.isSome then s.checkCharge g else s.chargeSpent g)
  else if s.issuesSpent g then some (if x.grace then s.graceSpent g else s.budgetSpent g)
  else if slotNo g = 11 ∧ x.msgIssues = 65536 then some (s.amsgTimeout (coreOf g))
  else none

/-- The current slot issues an instruction that traps before it is executed (R27). -/
def State.issueTrap (s : State) (c : Cause) (tval : U64) (ilen : Nat) : State :=
  (s.noteIssue.takeTrap s.cur c tval ilen).getD s.passOver

/-- The turn of the current slot: it fetches, decodes and executes the instruction at its program counter (R27). -/
noncomputable def State.slotTurn (s : State) : Host.Outcome State Fault Refusal :=
  if s.loadDone s.cur then .next ((s.finishLoad s.cur).getD s.passOver)
  else if s.commitDone s.cur then
    .next (let t := s.settleCommit s.cur; if t.commitDone s.cur then s.passOver else t)
  else match s.beforeFetch with
  | some o => .next (o.getD s.passOver)
  | none =>
    match (s.slot s.cur).mcheck with
    | some v =>
      .next ((s.noteIssue.takeTrap s.cur .mcheck v s.fetchLen).elim s.passOver fun t => t.modSlot s.cur fun x => { x with mcheck := none })
    | none =>
      match s.fetchDecode with
      | (.wait, _) => .next s.passOver
      | (.trap c v len, s') => .next (s'.issueTrap c v len)
      | (.instr i _, s') => exec i s'

/-- The next turn of a slot, or the end of the cycle when no slot is ready. -/
noncomputable def State.issueStep (s : State) : Host.Outcome State Fault Refusal :=
  match s.nextSlot with
  | some g => (s.giveTurn g).slotTurn
  | none => .next s.nextCycle

/-! ## One step -/

/-- After a step that is no issue, the core whose turn it is looks at its slots again from its rotation pointer: the step may have
made one ready that was passed over (R13, R134). -/
def State.rescan (s : State) : State := { s with scan := 0 }

/-- One step: what comes before anything else; or, as the free choice says, the next input, one of the events that can take
place, or an issue. -/
noncomputable def State.takeStep (s : State) : Host.Outcome State Fault Refusal :=
  match s.forced with
  | some i =>
    match exec i s with
    | .next t => .next t.rescan
    | r => r
  | none =>
    let t := { s with tick := s.tick + 1 }
    match t.enabled with
    | [] => s.issueStep
    | cs =>
      match (cs[Config.pick s.tick % (cs.length + 1)]?).bind t.choose with
      | some u => .next u.rescan
      | none => t.issueStep

/-! ## A program in place -/

/-- GLOBAL address at which `placeProgram` stores its bytes: offset 0x1000 of core 0's scratchpad, seen through the
scratchpad window (R168). -/
def placedAt : Nat := 2 ^ 40 + 0x1000

/-- The code capability of a placed program: GLOBAL, R and X, over 4 KiB. -/
def placedCode : Cap := (capFor 0 5 placedAt placedAt (placedAt + 0x1000)).getD Cap.null

/-- What slot 0 of core 0 needs to fetch at `placedAt` in its next turn. -/
def State.placeProgram (s : State) (bs : List Byte) : State :=
  let s := { s with parts := s.parts.set {} 0 { s.part 0 with running := true }, fw := { s.fw with booted := true } }
  let s := [0x801, 0x802, 0x803, 0x804, 0x805].foldl (fun s n => s.setPartReg 0 n (BitVec.allOnes 64)) s
  let s := (s.setPartReg 0 0x808 (BitVec.ofNat 64 (2 ^ 40))).setPartReg 0 0x800 (s.partReg 0 0x800 &&& ~~~8#64)
  let s := s.writeAll (writesAt (scratchKey 0 0x1000) bs)
  let s := s.modSlot 0 fun x =>
    { x with live := true, halted := false, borrowed := false, pcc := placedCode, wait := Wait.none, stopped := none
             lastIssue := none, limited := false, admitted := false, seen := [], mcheck := none }
  let s := s.modCore 0 fun c => { c with issuedAt := none, ibuf := c.ibuf.filter fun b => b.block ≠ placedAt / 32 }
  (s.modQuad 0 fun q => { q with leaving := none }).giveTurn 0

end Sys2Proof.Machine
end

