-- ==== Sys2Proof/Machine/Step.lean ====
section
/-!
DEFINITION. The step function, and a state in which the next step fetches a given instruction.
-/

namespace Sys2Proof.Machine

/-- One step of the package: `State.takeStep` of Turn.lean says what it can be. -/
noncomputable def step (s : State) : Host.Outcome State Fault Refusal := s.takeStep

/-- Core 0's slot 0 about to issue the instruction whose bits are `w`, as root firmware and a host would bring it
about (R88, R171; log 32): partition 0 runs and owns every quadrant, its scratchpad window stands at 2^40, and the
instruction stands in core 0's scratchpad, where the slot's code capability points. -/
def State.withFetchWord (s : State) (nbits w : Nat) : State :=
  State.placeProgram s (toBytes (nbits / 8) (w % 2 ^ nbits) ++ List.replicate (8 - nbits / 8) 0#8)

end Sys2Proof.Machine
end

