-- ==== Sys2Proof/Laws/PerInstr.lean ====
section
/-!
SUPPORT. Decoding undoes encoding, constructor by constructor (R26 to R52): fields of a word made of pieces, the three
lengths of an instruction, and one lemma for each constructor of `Instr`.
-/

namespace Sys2Proof.Laws

open Sys2Proof.Machine

/-- Decoding the bytes of a well-formed instruction, whatever follows them, gives it back with its length. -/
def RoundTrip.Statement (i : Instr) : Prop :=
  i.wf = true → ∀ rest, decodeBytes (encodeBytes i ++ rest) = .ok (i, (encode i).len)

/-! ## Operand fields -/

@[simp] theorem src_ofBits_bits (a : Src) : Src.ofBits a.bits = a := by
  cases a with | _ i => revert i; decide

@[simp] theorem dst_ofBits_bits (d : Dst) : Dst.ofBits d.bits = some d := by
  cases d with
  | queue => rfl
  | nam i => revert i; decide

/-! ## Pieces of a word -/

theorem fldHere {m n : Nat} (x : BitVec m) (y : BitVec n) : fld (x ++ y) 0 n = y := by
  ext i hi; simp [BitVec.getLsbD_append, hi]

theorem fldSelf {n : Nat} (x : BitVec n) : fld x 0 n = x := by
  ext i hi; simp

theorem fldSkip (k n : Nat) {m len : Nat} {x : BitVec m} {y : BitVec n} {z : BitVec len} (h : fld x k len = z) :
    fld (x ++ y) (k + n) len = z := by
  subst h; ext i hi
  have h1 : ¬ k + n + i < n := by omega
  have h2 : k + n + i - n = k + i := by omega
  simp [BitVec.getLsbD_append, h1, h2]

theorem bitHere {m : Nat} (x : BitVec m) (b : Bool) : bitAt (x ++ BitVec.ofBool b) 0 = b := by
  simp [BitVec.getElem_append]

theorem bitSelf (b : Bool) : bitAt (BitVec.ofBool b) 0 = b := by cases b <;> rfl

theorem bitSkip (k n : Nat) {m : Nat} {x : BitVec m} {y : BitVec n} {b : Bool} (h : bitAt x k = b) :
    bitAt (x ++ y) (k + n) = b := by
  have h1 : ¬ k + n < n := by omega
  simpa [bitAt, BitVec.getLsbD_append, h1] using h

/-! ## Bytes of a number -/

@[simp] theorem length_toBytes (n v : Nat) : (toBytes n v).length = n := by
  induction n generalizing v with
  | zero => rfl
  | succ n ih => simp [toBytes, ih]

theorem ofBytes_toBytes (n v : Nat) : ofBytes (toBytes n v) = v % 256 ^ n := by
  induction n generalizing v with
  | zero => simp [toBytes, ofBytes, Nat.mod_one]
  | succ n ih =>
    have h : v % 256 ^ (n + 1) = v % 256 + 256 * (v / 256 % 256 ^ n) := by
      rw [Nat.pow_succ, Nat.mul_comm, Nat.mod_mul]
    simp [toBytes, ofBytes, ih, h]

theorem take_toBytes (n m v : Nat) : (toBytes (n + m) v).take n = toBytes n v := by
  induction n generalizing v with
  | zero => simp [toBytes]
  | succ n ih =>
    rw [show n + 1 + m = n + m + 1 by omega]
    simp [toBytes, ih]

theorem drop_toBytes (n m v : Nat) : (toBytes (n + m) v).drop n = toBytes m (v / 256 ^ n) := by
  induction n generalizing v with
  | zero => simp
  | succ n ih =>
    rw [show n + 1 + m = n + m + 1 by omega]
    simp [toBytes, ih, Nat.pow_succ, Nat.div_div_eq_div_mul, Nat.mul_comm]

/-! ## The three lengths -/

/-- A number whose bytes are `toBytes n v`, read back from the front of a longer string. -/
theorem read_front (n v : Nat) (rest : List Byte) (hv : v < 256 ^ n) :
    ofBytes ((toBytes n v ++ rest).take n) = v := by
  rw [List.take_left' (by simp), ofBytes_toBytes, Nat.mod_eq_of_lt hv]

theorem decode_half {w : U16} (rest : List Byte) (h1 : fld w 1 1 = 0#1) :
    decodeBytes (toBytes 2 w.toNat ++ rest) =
      match decode16 w with
      | some i => .ok (i, 2)
      | none => .error (.illop 2 (w.setWidth 64)) := by
  have hl : ¬ (toBytes 2 w.toNat ++ rest).length < 2 := by rw [List.length_append, length_toBytes]; omega
  have hb : BitVec.ofNat 16 (ofBytes ((toBytes 2 w.toNat ++ rest).take 2)) = w := by
    rw [read_front _ _ _ (by have := w.isLt; omega)]; simp
  simp only [decodeBytes, if_neg hl, hb, h1, if_true]
  -- compiled as a module, the two sides have matchers of their own; in one text they are the same
  all_goals cases decode16 w <;> rfl

/-- The first halfword of a word of 32 bits. -/
theorem first_half (n : Nat) {w : U32} {v : Nat} (rest : List Byte) (hv : v % 2 ^ 32 = w.toNat) (h0 : fld w 0 2 = 2#2) :
    let h : U16 := BitVec.ofNat 16 (ofBytes ((toBytes (n + 2) v ++ rest).take 2))
    fld h 1 1 = 1#1 ∧ fld h 0 1 = 0#1 := by
  have ht : (toBytes (n + 2) v ++ rest).take 2 = toBytes 2 v := by
    rw [List.take_append_of_le_length (by simp), Nat.add_comm, take_toBytes]
  have h2 : w.toNat % 4 = 2 := by
    have := congrArg BitVec.toNat h0
    simpa [BitVec.extractLsb'_toNat] using this
  simp only [ht, ofBytes_toBytes]
  constructor <;> apply BitVec.eq_of_toNat_eq <;> simp [BitVec.extractLsb'_toNat] <;> omega

theorem decode_word {w : U32} (rest : List Byte) (h0 : fld w 0 2 = 2#2) :
    decodeBytes (toBytes 4 w.toNat ++ rest) =
      match decode32 w with
      | some i => .ok (i, 4)
      | none => .error (.illop 4 (w.setWidth 64)) := by
  have hl : ¬ (toBytes 4 w.toNat ++ rest).length < 2 := by rw [List.length_append, length_toBytes]; omega
  have hl4 : ¬ (toBytes 4 w.toNat ++ rest).length < 4 := by rw [List.length_append, length_toBytes]; omega
  have hb : BitVec.ofNat 32 (ofBytes ((toBytes 4 w.toNat ++ rest).take 4)) = w := by
    rw [read_front _ _ _ (by have := w.isLt; omega)]; simp
  obtain ⟨ha, hc⟩ := first_half 2 (w := w) (v := w.toNat) rest (Nat.mod_eq_of_lt w.isLt) h0
  have hn : ¬ (1#1 : BitVec 1) = 0#1 := by decide
  simp only [decodeBytes, if_neg hl, ha, if_neg hn, if_neg hl4, hb, hc, if_true]
  all_goals cases decode32 w <;> rfl

theorem decode_pair {q w : U32} (rest : List Byte) (hq : fld q 0 2 = 3#2) (h0 : fld w 0 2 = 2#2)
    (hp : prefixable w = true) :
    decodeBytes (toBytes 8 (q.toNat + 2 ^ 32 * w.toNat) ++ rest) =
      match decodePair q w with
      | some i => .ok (i, 8)
      | none => .error (.illop 8 (BitVec.ofNat 64 (q.toNat + 2 ^ 32 * w.toNat))) := by
  have hql := q.isLt
  have hwl := w.isLt
  have hq3 : q.toNat % 4 = 3 := by
    have := congrArg BitVec.toNat hq
    simpa [BitVec.extractLsb'_toNat] using this
  have hw2 : w.toNat % 4 = 2 := by
    have := congrArg BitVec.toNat h0
    simpa [BitVec.extractLsb'_toNat] using this
  generalize hv : q.toNat + 2 ^ 32 * w.toNat = v
  generalize hs : toBytes 8 v ++ rest = bs
  have hlen : 8 ≤ bs.length := by subst hs; rw [List.length_append, length_toBytes]; omega
  have ht2 : ofBytes (bs.take 2) = v % 2 ^ 16 := by
    subst hs; rw [List.take_append_of_le_length (by simp), take_toBytes 2 6]; exact ofBytes_toBytes 2 v
  have ht4 : ofBytes (bs.take 4) = q.toNat := by
    subst hs; rw [List.take_append_of_le_length (by simp), take_toBytes 4 4, ofBytes_toBytes]; omega
  have hd : (bs.drop 4).take 4 = toBytes 4 w.toNat := by
    subst hs
    rw [List.drop_append_of_le_length (by simp), List.take_append_of_le_length (by simp), drop_toBytes 4 4]
    rw [show v / 256 ^ 4 = w.toNat by omega]
    exact List.take_of_length_le (by simp)
  have hd2 : (bs.drop 4).take 2 = toBytes 2 w.toNat := by
    have : (bs.drop 4).take 2 = ((bs.drop 4).take 4).take 2 := by rw [List.take_take]; rfl
    rw [this, hd, take_toBytes 2 2]
  have e1 : fld (BitVec.ofNat 16 (ofBytes (bs.take 2))) 1 1 = 1#1 := by
    rw [ht2]; apply BitVec.eq_of_toNat_eq; simp [BitVec.extractLsb'_toNat]; omega
  have e0 : fld (BitVec.ofNat 16 (ofBytes (bs.take 2))) 0 1 = 1#1 := by
    rw [ht2]; apply BitVec.eq_of_toNat_eq; simp [BitVec.extractLsb'_toNat]; omega
  have e2 : fld (BitVec.ofNat 16 (ofBytes ((bs.drop 4).take 2))) 0 2 = 2#2 := by
    rw [hd2, ofBytes_toBytes]; apply BitVec.eq_of_toNat_eq; simp [BitVec.extractLsb'_toNat]; omega
  have eq' : BitVec.ofNat 32 (ofBytes (bs.take 4)) = q := by rw [ht4]; simp
  have ew : BitVec.ofNat 32 (ofBytes ((bs.drop 4).take 4)) = w := by
    rw [hd, ofBytes_toBytes]; apply BitVec.eq_of_toNat_eq; simp; omega
  have n1 : ¬ (1#1 : BitVec 1) = 0#1 := by decide
  have l2 : ¬ bs.length < 2 := by omega
  have l4 : ¬ bs.length < 4 := by omega
  have l6 : ¬ bs.length < 6 := by omega
  have l8 : ¬ bs.length < 8 := by omega
  simp only [decodeBytes, if_neg l2, e1, if_neg n1, if_neg l4, eq', e0, if_neg l6, e2, ne_eq, not_true_eq_false,
    if_false, if_neg l8, ew, hp, Bool.not_true, Bool.false_eq_true, hv]
  all_goals cases decodePair q w <;> rfl

/-! ## Instructions of one word -/

theorem halfART {i : Instr} {w : U16} (h0 : fld w 0 2 = 0#2) (hd : decodeGroupA w = some i) (he : encode i = .half w) :
    RoundTrip.Statement i := by
  intro hw rest
  have h1 : fld w 1 1 = 0#1 := by
    have h2 := congrArg BitVec.toNat h0
    simp [BitVec.extractLsb'_toNat] at h2
    apply BitVec.eq_of_toNat_eq; simp [BitVec.extractLsb'_toNat]; omega
  have h16 : decode16 w = some i := by simp only [decode16, h0, if_true, hd]; simp [checked, hw]
  rw [encodeBytes, he]
  exact (decode_half rest h1).trans (by rw [h16]; rfl)

theorem halfBRT {i : Instr} {w : U16} (h0 : fld w 0 2 = 1#2) (hd : decodeGroupB w = some i) (he : encode i = .half w) :
    RoundTrip.Statement i := by
  intro hw rest
  have h1 : fld w 1 1 = 0#1 := by
    have h2 := congrArg BitVec.toNat h0
    simp [BitVec.extractLsb'_toNat] at h2
    apply BitVec.eq_of_toNat_eq; simp [BitVec.extractLsb'_toNat]; omega
  have h16 : decode16 w = some i := by
    have hn : ¬ (1#2 : BitVec 2) = 0#2 := by decide
    simp only [decode16, h0, if_neg hn, if_true, hd]; simp [checked, hw]
  rw [encodeBytes, he]
  exact (decode_half rest h1).trans (by rw [h16]; rfl)

theorem wordRT {i : Instr} {w : U32} (h0 : fld w 0 2 = 2#2) (hd : decodeFields none w = some i)
    (he : encode i = .word w) : RoundTrip.Statement i := by
  intro hw rest
  have h32 : decode32 w = some i := by simp [decode32, hd, checked, hw]
  rw [encodeBytes, he]
  exact (decode_word rest h0).trans (by rw [h32]; rfl)

/-! ## Pairs -/

/-- Fields of a prefix (R41). -/
theorem fieldsPfx (z : BitVec 9) (ovt : BitVec 3) (ove : Bool) (cov : BitVec 2) (f4e : Bool) (f4 : BitVec 5) (sat : Bool) (rnd : BitVec 3) (zero : Bool) (me : Bool) (vm : BitVec 3) :
    let w : BitVec 32 := z ++ ovt ++ BitVec.ofBool ove ++ cov ++ BitVec.ofBool f4e ++ f4 ++ BitVec.ofBool sat ++ rnd ++ BitVec.ofBool zero ++ BitVec.ofBool me ++ vm ++ 3#2
    fld w 0 2 = 3#2 ∧ fld w 2 3 = vm ∧ bitAt w 5 = me ∧ bitAt w 6 = zero ∧ fld w 7 3 = rnd ∧ bitAt w 10 = sat ∧ fld w 11 5 = f4 ∧ bitAt w 16 = f4e ∧ fld w 17 2 = cov ∧ bitAt w 19 = ove ∧ fld w 20 3 = ovt ∧ fld w 23 9 = z :=
  ⟨fldHere _ _,
    fldSkip 0 2 (fldHere _ _),
    bitSkip 3 2 (bitSkip 0 3 (bitHere _ _)),
    bitSkip 4 2 (bitSkip 1 3 (bitSkip 0 1 (bitHere _ _))),
    fldSkip 5 2 (fldSkip 2 3 (fldSkip 1 1 (fldSkip 0 1 (fldHere _ _)))),
    bitSkip 8 2 (bitSkip 5 3 (bitSkip 4 1 (bitSkip 3 1 (bitSkip 0 3 (bitHere _ _))))),
    fldSkip 9 2 (fldSkip 6 3 (fldSkip 5 1 (fldSkip 4 1 (fldSkip 1 3 (fldSkip 0 1 (fldHere _ _)))))),
    bitSkip 14 2 (bitSkip 11 3 (bitSkip 10 1 (bitSkip 9 1 (bitSkip 6 3 (bitSkip 5 1 (bitSkip 0 5 (bitHere _ _))))))),
    fldSkip 15 2 (fldSkip 12 3 (fldSkip 11 1 (fldSkip 10 1 (fldSkip 7 3 (fldSkip 6 1 (fldSkip 1 5 (fldSkip 0 1 (fldHere _ _)))))))),
    bitSkip 17 2 (bitSkip 14 3 (bitSkip 13 1 (bitSkip 12 1 (bitSkip 9 3 (bitSkip 8 1 (bitSkip 3 5 (bitSkip 2 1 (bitSkip 0 2 (bitHere _ _))))))))),
    fldSkip 18 2 (fldSkip 15 3 (fldSkip 14 1 (fldSkip 13 1 (fldSkip 10 3 (fldSkip 9 1 (fldSkip 4 5 (fldSkip 3 1 (fldSkip 1 2 (fldSkip 0 1 (fldHere _ _)))))))))),
    fldSkip 21 2 (fldSkip 18 3 (fldSkip 17 1 (fldSkip 16 1 (fldSkip 13 3 (fldSkip 12 1 (fldSkip 7 5 (fldSkip 6 1 (fldSkip 4 2 (fldSkip 3 1 (fldSkip 0 3 (fldSelf _)))))))))))⟩

theorem pfx_word (q : Pfx) : fld q.word 0 2 = 3#2 ∧ Pfx.ofWord q.word = some q := by
  obtain ⟨h0, h2, h5, h6, h7, h10, h11, h16, h17, h19, h20, h23⟩ :=
    fieldsPfx 0#9 q.ovt q.ove q.cov q.f4e q.f4 q.sat q.rnd q.zero q.me q.vm
  refine ⟨h0, ?_⟩
  have hw : q.word = 0#9 ++ q.ovt ++ BitVec.ofBool q.ove ++ q.cov ++ BitVec.ofBool q.f4e ++ q.f4 ++ BitVec.ofBool q.sat ++
      q.rnd ++ BitVec.ofBool q.zero ++ BitVec.ofBool q.me ++ q.vm ++ 3#2 := rfl
  rw [Pfx.ofWord, hw, if_pos h23]
  simp only [h2, h5, h6, h7, h10, h11, h16, h17, h19, h20]

theorem pairRT {i : Instr} (p : Option Pfx) {w : U32} (h0 : fld w 0 2 = 2#2) (hp : prefixable w = true)
    (hd : decodeFields p w = some i) (he : encode i = .pair p w) : RoundTrip.Statement i := by
  cases p with
  | none => exact wordRT h0 hd he
  | some q =>
    intro hw rest
    have hq := pfx_word q
    have h64 : decodePair q.word w = some i := by simp [decodePair, hq.2, hd, checked, hw]
    rw [encodeBytes, he]
    exact (decode_pair rest hq.1 h0 hp).trans (by rw [h64]; rfl)


theorem prefixMajor {w : U32} {m : BitVec 6} (hm : fld w 2 6 = m) (h : 0x1D ≤ m.toNat ∧ m.toNat ≤ 0x26) :
    prefixable w = true := by
  simp [prefixable, hm, h.1, h.2]

theorem prefixMatrix {w : U32} (hm : fld w 2 6 = 40#6) (hf : fld w 23 5 = 5#5) : prefixable w = true := by
  simp [prefixable, hm, hf]

/-! ## Words by the widths of their pieces -/

/-- Fields of a word in pieces of 4, 5, 5, 5, 5, 6, 2 bits. -/
theorem fields1 (x0 : BitVec 4) (x1 : BitVec 5) (x2 : BitVec 5) (x3 : BitVec 5) (x4 : BitVec 5) (x5 : BitVec 6) (x6 : BitVec 2) :
    ∃ w : BitVec 32, w = x0 ++ x1 ++ x2 ++ x3 ++ x4 ++ x5 ++ x6 ∧
      fld w 0 2 = x6 ∧ fld w 2 6 = x5 ∧ fld w 8 5 = x4 ∧ fld w 13 5 = x3 ∧ fld w 18 5 = x2 ∧ fld w 23 5 = x1 ∧ fld w 28 4 = x0 :=
  ⟨_, rfl, fldHere _ _,
    fldSkip 0 2 (fldHere _ _),
    fldSkip 6 2 (fldSkip 0 6 (fldHere _ _)),
    fldSkip 11 2 (fldSkip 5 6 (fldSkip 0 5 (fldHere _ _))),
    fldSkip 16 2 (fldSkip 10 6 (fldSkip 5 5 (fldSkip 0 5 (fldHere _ _)))),
    fldSkip 21 2 (fldSkip 15 6 (fldSkip 10 5 (fldSkip 5 5 (fldSkip 0 5 (fldHere _ _))))),
    fldSkip 26 2 (fldSkip 20 6 (fldSkip 15 5 (fldSkip 10 5 (fldSkip 5 5 (fldSkip 0 5 (fldSelf _))))))⟩

/-- Fields of a word in pieces of 11, 3, 5, 5, 6, 2 bits. -/
theorem fields2 (x0 : BitVec 11) (x1 : BitVec 3) (x2 : BitVec 5) (x3 : BitVec 5) (x4 : BitVec 6) (x5 : BitVec 2) :
    ∃ w : BitVec 32, w = x0 ++ x1 ++ x2 ++ x3 ++ x4 ++ x5 ∧
      fld w 0 2 = x5 ∧ fld w 2 6 = x4 ∧ fld w 8 5 = x3 ∧ fld w 13 5 = x2 ∧ fld w 18 3 = x1 ∧ fld w 21 11 = x0 :=
  ⟨_, rfl, fldHere _ _,
    fldSkip 0 2 (fldHere _ _),
    fldSkip 6 2 (fldSkip 0 6 (fldHere _ _)),
    fldSkip 11 2 (fldSkip 5 6 (fldSkip 0 5 (fldHere _ _))),
    fldSkip 16 2 (fldSkip 10 6 (fldSkip 5 5 (fldSkip 0 5 (fldHere _ _)))),
    fldSkip 19 2 (fldSkip 13 6 (fldSkip 8 5 (fldSkip 3 5 (fldSkip 0 3 (fldSelf _)))))⟩

/-- Fields of a word in pieces of 19, 5, 6, 2 bits. -/
theorem fields3 (x0 : BitVec 19) (x1 : BitVec 5) (x2 : BitVec 6) (x3 : BitVec 2) :
    ∃ w : BitVec 32, w = x0 ++ x1 ++ x2 ++ x3 ∧
      fld w 0 2 = x3 ∧ fld w 2 6 = x2 ∧ fld w 8 5 = x1 ∧ fld w 13 19 = x0 :=
  ⟨_, rfl, fldHere _ _,
    fldSkip 0 2 (fldHere _ _),
    fldSkip 6 2 (fldSkip 0 6 (fldHere _ _)),
    fldSkip 11 2 (fldSkip 5 6 (fldSkip 0 5 (fldSelf _)))⟩

/-- Fields of a word in pieces of 16, 3, 2, 3, 6, 2 bits. -/
theorem fields4 (x0 : BitVec 16) (x1 : BitVec 3) (x2 : BitVec 2) (x3 : BitVec 3) (x4 : BitVec 6) (x5 : BitVec 2) :
    ∃ w : BitVec 32, w = x0 ++ x1 ++ x2 ++ x3 ++ x4 ++ x5 ∧
      fld w 0 2 = x5 ∧ fld w 2 6 = x4 ∧ fld w 8 3 = x3 ∧ fld w 11 2 = x2 ∧ fld w 13 3 = x1 ∧ fld w 16 16 = x0 :=
  ⟨_, rfl, fldHere _ _,
    fldSkip 0 2 (fldHere _ _),
    fldSkip 6 2 (fldSkip 0 6 (fldHere _ _)),
    fldSkip 9 2 (fldSkip 3 6 (fldSkip 0 3 (fldHere _ _))),
    fldSkip 11 2 (fldSkip 5 6 (fldSkip 2 3 (fldSkip 0 2 (fldHere _ _)))),
    fldSkip 14 2 (fldSkip 8 6 (fldSkip 5 3 (fldSkip 3 2 (fldSkip 0 3 (fldSelf _)))))⟩

/-- Fields of a word in pieces of 4, 5, 5, 2, 3, 5, 6, 2 bits. -/
theorem fields5 (x0 : BitVec 4) (x1 : BitVec 5) (x2 : BitVec 5) (x3 : BitVec 2) (x4 : BitVec 3) (x5 : BitVec 5) (x6 : BitVec 6) (x7 : BitVec 2) :
    ∃ w : BitVec 32, w = x0 ++ x1 ++ x2 ++ x3 ++ x4 ++ x5 ++ x6 ++ x7 ∧
      fld w 0 2 = x7 ∧ fld w 2 6 = x6 ∧ fld w 8 5 = x5 ∧ fld w 13 3 = x4 ∧ fld w 16 2 = x3 ∧ fld w 18 5 = x2 ∧ fld w 23 5 = x1 ∧ fld w 28 4 = x0 :=
  ⟨_, rfl, fldHere _ _,
    fldSkip 0 2 (fldHere _ _),
    fldSkip 6 2 (fldSkip 0 6 (fldHere _ _)),
    fldSkip 11 2 (fldSkip 5 6 (fldSkip 0 5 (fldHere _ _))),
    fldSkip 14 2 (fldSkip 8 6 (fldSkip 3 5 (fldSkip 0 3 (fldHere _ _)))),
    fldSkip 16 2 (fldSkip 10 6 (fldSkip 5 5 (fldSkip 2 3 (fldSkip 0 2 (fldHere _ _))))),
    fldSkip 21 2 (fldSkip 15 6 (fldSkip 10 5 (fldSkip 7 3 (fldSkip 5 2 (fldSkip 0 5 (fldHere _ _)))))),
    fldSkip 26 2 (fldSkip 20 6 (fldSkip 15 5 (fldSkip 12 3 (fldSkip 10 2 (fldSkip 5 5 (fldSkip 0 5 (fldSelf _)))))))⟩

/-- Fields of a word in pieces of 4, 5, 5, 5, 2, 3, 6, 2 bits. -/
theorem fields6 (x0 : BitVec 4) (x1 : BitVec 5) (x2 : BitVec 5) (x3 : BitVec 5) (x4 : BitVec 2) (x5 : BitVec 3) (x6 : BitVec 6) (x7 : BitVec 2) :
    ∃ w : BitVec 32, w = x0 ++ x1 ++ x2 ++ x3 ++ x4 ++ x5 ++ x6 ++ x7 ∧
      fld w 0 2 = x7 ∧ fld w 2 6 = x6 ∧ fld w 8 3 = x5 ∧ fld w 11 2 = x4 ∧ fld w 13 5 = x3 ∧ fld w 18 5 = x2 ∧ fld w 23 5 = x1 ∧ fld w 28 4 = x0 :=
  ⟨_, rfl, fldHere _ _,
    fldSkip 0 2 (fldHere _ _),
    fldSkip 6 2 (fldSkip 0 6 (fldHere _ _)),
    fldSkip 9 2 (fldSkip 3 6 (fldSkip 0 3 (fldHere _ _))),
    fldSkip 11 2 (fldSkip 5 6 (fldSkip 2 3 (fldSkip 0 2 (fldHere _ _)))),
    fldSkip 16 2 (fldSkip 10 6 (fldSkip 7 3 (fldSkip 5 2 (fldSkip 0 5 (fldHere _ _))))),
    fldSkip 21 2 (fldSkip 15 6 (fldSkip 12 3 (fldSkip 10 2 (fldSkip 5 5 (fldSkip 0 5 (fldHere _ _)))))),
    fldSkip 26 2 (fldSkip 20 6 (fldSkip 17 3 (fldSkip 15 2 (fldSkip 10 5 (fldSkip 5 5 (fldSkip 0 5 (fldSelf _)))))))⟩

/-- Fields of a word in pieces of 4, 5, 5, 5, 1, 4, 6, 2 bits. -/
theorem fields7 (x0 : BitVec 4) (x1 : BitVec 5) (x2 : BitVec 5) (x3 : BitVec 5) (x4 : BitVec 1) (x5 : BitVec 4) (x6 : BitVec 6) (x7 : BitVec 2) :
    ∃ w : BitVec 32, w = x0 ++ x1 ++ x2 ++ x3 ++ x4 ++ x5 ++ x6 ++ x7 ∧
      fld w 0 2 = x7 ∧ fld w 2 6 = x6 ∧ fld w 8 4 = x5 ∧ fld w 12 1 = x4 ∧ fld w 13 5 = x3 ∧ fld w 18 5 = x2 ∧ fld w 23 5 = x1 ∧ fld w 28 4 = x0 :=
  ⟨_, rfl, fldHere _ _,
    fldSkip 0 2 (fldHere _ _),
    fldSkip 6 2 (fldSkip 0 6 (fldHere _ _)),
    fldSkip 10 2 (fldSkip 4 6 (fldSkip 0 4 (fldHere _ _))),
    fldSkip 11 2 (fldSkip 5 6 (fldSkip 1 4 (fldSkip 0 1 (fldHere _ _)))),
    fldSkip 16 2 (fldSkip 10 6 (fldSkip 6 4 (fldSkip 5 1 (fldSkip 0 5 (fldHere _ _))))),
    fldSkip 21 2 (fldSkip 15 6 (fldSkip 11 4 (fldSkip 10 1 (fldSkip 5 5 (fldSkip 0 5 (fldHere _ _)))))),
    fldSkip 26 2 (fldSkip 20 6 (fldSkip 16 4 (fldSkip 15 1 (fldSkip 10 5 (fldSkip 5 5 (fldSkip 0 5 (fldSelf _)))))))⟩

/-- Fields of a word in pieces of 2, 2, 5, 5, 5, 1, 4, 6, 2 bits. -/
theorem fields8 (x0 : BitVec 2) (x1 : BitVec 2) (x2 : BitVec 5) (x3 : BitVec 5) (x4 : BitVec 5) (x5 : BitVec 1) (x6 : BitVec 4) (x7 : BitVec 6) (x8 : BitVec 2) :
    ∃ w : BitVec 32, w = x0 ++ x1 ++ x2 ++ x3 ++ x4 ++ x5 ++ x6 ++ x7 ++ x8 ∧
      fld w 0 2 = x8 ∧ fld w 2 6 = x7 ∧ fld w 8 4 = x6 ∧ fld w 12 1 = x5 ∧ fld w 13 5 = x4 ∧ fld w 18 5 = x3 ∧ fld w 23 5 = x2 ∧ fld w 28 2 = x1 ∧ fld w 30 2 = x0 :=
  ⟨_, rfl, fldHere _ _,
    fldSkip 0 2 (fldHere _ _),
    fldSkip 6 2 (fldSkip 0 6 (fldHere _ _)),
    fldSkip 10 2 (fldSkip 4 6 (fldSkip 0 4 (fldHere _ _))),
    fldSkip 11 2 (fldSkip 5 6 (fldSkip 1 4 (fldSkip 0 1 (fldHere _ _)))),
    fldSkip 16 2 (fldSkip 10 6 (fldSkip 6 4 (fldSkip 5 1 (fldSkip 0 5 (fldHere _ _))))),
    fldSkip 21 2 (fldSkip 15 6 (fldSkip 11 4 (fldSkip 10 1 (fldSkip 5 5 (fldSkip 0 5 (fldHere _ _)))))),
    fldSkip 26 2 (fldSkip 20 6 (fldSkip 16 4 (fldSkip 15 1 (fldSkip 10 5 (fldSkip 5 5 (fldSkip 0 5 (fldHere _ _))))))),
    fldSkip 28 2 (fldSkip 22 6 (fldSkip 18 4 (fldSkip 17 1 (fldSkip 12 5 (fldSkip 7 5 (fldSkip 2 5 (fldSkip 0 2 (fldSelf _))))))))⟩

/-- Fields of a word in pieces of 4, 5, 5, 1, 4, 5, 6, 2 bits. -/
theorem fields9 (x0 : BitVec 4) (x1 : BitVec 5) (x2 : BitVec 5) (x3 : BitVec 1) (x4 : BitVec 4) (x5 : BitVec 5) (x6 : BitVec 6) (x7 : BitVec 2) :
    ∃ w : BitVec 32, w = x0 ++ x1 ++ x2 ++ x3 ++ x4 ++ x5 ++ x6 ++ x7 ∧
      fld w 0 2 = x7 ∧ fld w 2 6 = x6 ∧ fld w 8 5 = x5 ∧ fld w 13 4 = x4 ∧ fld w 17 1 = x3 ∧ fld w 18 5 = x2 ∧ fld w 23 5 = x1 ∧ fld w 28 4 = x0 :=
  ⟨_, rfl, fldHere _ _,
    fldSkip 0 2 (fldHere _ _),
    fldSkip 6 2 (fldSkip 0 6 (fldHere _ _)),
    fldSkip 11 2 (fldSkip 5 6 (fldSkip 0 5 (fldHere _ _))),
    fldSkip 15 2 (fldSkip 9 6 (fldSkip 4 5 (fldSkip 0 4 (fldHere _ _)))),
    fldSkip 16 2 (fldSkip 10 6 (fldSkip 5 5 (fldSkip 1 4 (fldSkip 0 1 (fldHere _ _))))),
    fldSkip 21 2 (fldSkip 15 6 (fldSkip 10 5 (fldSkip 6 4 (fldSkip 5 1 (fldSkip 0 5 (fldHere _ _)))))),
    fldSkip 26 2 (fldSkip 20 6 (fldSkip 15 5 (fldSkip 11 4 (fldSkip 10 1 (fldSkip 5 5 (fldSkip 0 5 (fldSelf _)))))))⟩

/-- Fields of a word in pieces of 2, 12, 3, 2, 5, 6, 2 bits. -/
theorem fields10 (x0 : BitVec 2) (x1 : BitVec 12) (x2 : BitVec 3) (x3 : BitVec 2) (x4 : BitVec 5) (x5 : BitVec 6) (x6 : BitVec 2) :
    ∃ w : BitVec 32, w = x0 ++ x1 ++ x2 ++ x3 ++ x4 ++ x5 ++ x6 ∧
      fld w 0 2 = x6 ∧ fld w 2 6 = x5 ∧ fld w 8 5 = x4 ∧ fld w 13 2 = x3 ∧ fld w 15 3 = x2 ∧ fld w 18 12 = x1 ∧ fld w 30 2 = x0 :=
  ⟨_, rfl, fldHere _ _,
    fldSkip 0 2 (fldHere _ _),
    fldSkip 6 2 (fldSkip 0 6 (fldHere _ _)),
    fldSkip 11 2 (fldSkip 5 6 (fldSkip 0 5 (fldHere _ _))),
    fldSkip 13 2 (fldSkip 7 6 (fldSkip 2 5 (fldSkip 0 2 (fldHere _ _)))),
    fldSkip 16 2 (fldSkip 10 6 (fldSkip 5 5 (fldSkip 3 2 (fldSkip 0 3 (fldHere _ _))))),
    fldSkip 28 2 (fldSkip 22 6 (fldSkip 17 5 (fldSkip 15 2 (fldSkip 12 3 (fldSkip 0 12 (fldSelf _))))))⟩

/-- Fields of a word in pieces of 4, 5, 5, 2, 3, 2, 3, 6, 2 bits. -/
theorem fields11 (x0 : BitVec 4) (x1 : BitVec 5) (x2 : BitVec 5) (x3 : BitVec 2) (x4 : BitVec 3) (x5 : BitVec 2) (x6 : BitVec 3) (x7 : BitVec 6) (x8 : BitVec 2) :
    ∃ w : BitVec 32, w = x0 ++ x1 ++ x2 ++ x3 ++ x4 ++ x5 ++ x6 ++ x7 ++ x8 ∧
      fld w 0 2 = x8 ∧ fld w 2 6 = x7 ∧ fld w 8 3 = x6 ∧ fld w 11 2 = x5 ∧ fld w 13 3 = x4 ∧ fld w 16 2 = x3 ∧ fld w 18 5 = x2 ∧ fld w 23 5 = x1 ∧ fld w 28 4 = x0 :=
  ⟨_, rfl, fldHere _ _,
    fldSkip 0 2 (fldHere _ _),
    fldSkip 6 2 (fldSkip 0 6 (fldHere _ _)),
    fldSkip 9 2 (fldSkip 3 6 (fldSkip 0 3 (fldHere _ _))),
    fldSkip 11 2 (fldSkip 5 6 (fldSkip 2 3 (fldSkip 0 2 (fldHere _ _)))),
    fldSkip 14 2 (fldSkip 8 6 (fldSkip 5 3 (fldSkip 3 2 (fldSkip 0 3 (fldHere _ _))))),
    fldSkip 16 2 (fldSkip 10 6 (fldSkip 7 3 (fldSkip 5 2 (fldSkip 2 3 (fldSkip 0 2 (fldHere _ _)))))),
    fldSkip 21 2 (fldSkip 15 6 (fldSkip 12 3 (fldSkip 10 2 (fldSkip 7 3 (fldSkip 5 2 (fldSkip 0 5 (fldHere _ _))))))),
    fldSkip 26 2 (fldSkip 20 6 (fldSkip 17 3 (fldSkip 15 2 (fldSkip 12 3 (fldSkip 10 2 (fldSkip 5 5 (fldSkip 0 5 (fldSelf _))))))))⟩

/-- Fields of a word in pieces of 3, 1, 5, 5, 2, 3, 2, 3, 6, 2 bits. -/
theorem fields12 (x0 : BitVec 3) (x1 : Bool) (x2 : BitVec 5) (x3 : BitVec 5) (x4 : BitVec 2) (x5 : BitVec 3) (x6 : BitVec 2) (x7 : BitVec 3) (x8 : BitVec 6) (x9 : BitVec 2) :
    ∃ w : BitVec 32, w = x0 ++ BitVec.ofBool x1 ++ x2 ++ x3 ++ x4 ++ x5 ++ x6 ++ x7 ++ x8 ++ x9 ∧
      fld w 0 2 = x9 ∧ fld w 2 6 = x8 ∧ fld w 8 3 = x7 ∧ fld w 11 2 = x6 ∧ fld w 13 3 = x5 ∧ fld w 16 2 = x4 ∧ fld w 18 5 = x3 ∧ fld w 23 5 = x2 ∧ w[28] = x1 ∧ fld w 29 3 = x0 :=
  ⟨_, rfl, fldHere _ _,
    fldSkip 0 2 (fldHere _ _),
    fldSkip 6 2 (fldSkip 0 6 (fldHere _ _)),
    fldSkip 9 2 (fldSkip 3 6 (fldSkip 0 3 (fldHere _ _))),
    fldSkip 11 2 (fldSkip 5 6 (fldSkip 2 3 (fldSkip 0 2 (fldHere _ _)))),
    fldSkip 14 2 (fldSkip 8 6 (fldSkip 5 3 (fldSkip 3 2 (fldSkip 0 3 (fldHere _ _))))),
    fldSkip 16 2 (fldSkip 10 6 (fldSkip 7 3 (fldSkip 5 2 (fldSkip 2 3 (fldSkip 0 2 (fldHere _ _)))))),
    fldSkip 21 2 (fldSkip 15 6 (fldSkip 12 3 (fldSkip 10 2 (fldSkip 7 3 (fldSkip 5 2 (fldSkip 0 5 (fldHere _ _))))))),
    bitSkip 26 2 (bitSkip 20 6 (bitSkip 17 3 (bitSkip 15 2 (bitSkip 12 3 (bitSkip 10 2 (bitSkip 5 5 (bitSkip 0 5 (bitHere _ _)))))))),
    fldSkip 27 2 (fldSkip 21 6 (fldSkip 18 3 (fldSkip 16 2 (fldSkip 13 3 (fldSkip 11 2 (fldSkip 6 5 (fldSkip 1 5 (fldSkip 0 1 (fldSelf _)))))))))⟩

/-- Fields of a word in pieces of 4, 5, 2, 3, 2, 3, 5, 6, 2 bits. -/
theorem fields13 (x0 : BitVec 4) (x1 : BitVec 5) (x2 : BitVec 2) (x3 : BitVec 3) (x4 : BitVec 2) (x5 : BitVec 3) (x6 : BitVec 5) (x7 : BitVec 6) (x8 : BitVec 2) :
    ∃ w : BitVec 32, w = x0 ++ x1 ++ x2 ++ x3 ++ x4 ++ x5 ++ x6 ++ x7 ++ x8 ∧
      fld w 0 2 = x8 ∧ fld w 2 6 = x7 ∧ fld w 8 5 = x6 ∧ fld w 13 3 = x5 ∧ fld w 16 2 = x4 ∧ fld w 18 3 = x3 ∧ fld w 21 2 = x2 ∧ fld w 23 5 = x1 ∧ fld w 28 4 = x0 :=
  ⟨_, rfl, fldHere _ _,
    fldSkip 0 2 (fldHere _ _),
    fldSkip 6 2 (fldSkip 0 6 (fldHere _ _)),
    fldSkip 11 2 (fldSkip 5 6 (fldSkip 0 5 (fldHere _ _))),
    fldSkip 14 2 (fldSkip 8 6 (fldSkip 3 5 (fldSkip 0 3 (fldHere _ _)))),
    fldSkip 16 2 (fldSkip 10 6 (fldSkip 5 5 (fldSkip 2 3 (fldSkip 0 2 (fldHere _ _))))),
    fldSkip 19 2 (fldSkip 13 6 (fldSkip 8 5 (fldSkip 5 3 (fldSkip 3 2 (fldSkip 0 3 (fldHere _ _)))))),
    fldSkip 21 2 (fldSkip 15 6 (fldSkip 10 5 (fldSkip 7 3 (fldSkip 5 2 (fldSkip 2 3 (fldSkip 0 2 (fldHere _ _))))))),
    fldSkip 26 2 (fldSkip 20 6 (fldSkip 15 5 (fldSkip 12 3 (fldSkip 10 2 (fldSkip 7 3 (fldSkip 5 2 (fldSkip 0 5 (fldSelf _))))))))⟩

/-- Fields of a word in pieces of 4, 5, 10, 2, 3, 6, 2 bits. -/
theorem fields14 (x0 : BitVec 4) (x1 : BitVec 5) (x2 : BitVec 10) (x3 : BitVec 2) (x4 : BitVec 3) (x5 : BitVec 6) (x6 : BitVec 2) :
    ∃ w : BitVec 32, w = x0 ++ x1 ++ x2 ++ x3 ++ x4 ++ x5 ++ x6 ∧
      fld w 0 2 = x6 ∧ fld w 2 6 = x5 ∧ fld w 8 3 = x4 ∧ fld w 11 2 = x3 ∧ fld w 13 10 = x2 ∧ fld w 23 5 = x1 ∧ fld w 28 4 = x0 :=
  ⟨_, rfl, fldHere _ _,
    fldSkip 0 2 (fldHere _ _),
    fldSkip 6 2 (fldSkip 0 6 (fldHere _ _)),
    fldSkip 9 2 (fldSkip 3 6 (fldSkip 0 3 (fldHere _ _))),
    fldSkip 11 2 (fldSkip 5 6 (fldSkip 2 3 (fldSkip 0 2 (fldHere _ _)))),
    fldSkip 21 2 (fldSkip 15 6 (fldSkip 12 3 (fldSkip 10 2 (fldSkip 0 10 (fldHere _ _))))),
    fldSkip 26 2 (fldSkip 20 6 (fldSkip 17 3 (fldSkip 15 2 (fldSkip 5 10 (fldSkip 0 5 (fldSelf _))))))⟩

/-- Fields of a word in pieces of 18, 1, 5, 6, 2 bits. -/
theorem fields15 (x0 : BitVec 18) (x1 : BitVec 1) (x2 : BitVec 5) (x3 : BitVec 6) (x4 : BitVec 2) :
    ∃ w : BitVec 32, w = x0 ++ x1 ++ x2 ++ x3 ++ x4 ∧
      fld w 0 2 = x4 ∧ fld w 2 6 = x3 ∧ fld w 8 5 = x2 ∧ fld w 13 1 = x1 ∧ fld w 14 18 = x0 :=
  ⟨_, rfl, fldHere _ _,
    fldSkip 0 2 (fldHere _ _),
    fldSkip 6 2 (fldSkip 0 6 (fldHere _ _)),
    fldSkip 11 2 (fldSkip 5 6 (fldSkip 0 5 (fldHere _ _))),
    fldSkip 12 2 (fldSkip 6 6 (fldSkip 1 5 (fldSkip 0 1 (fldSelf _))))⟩

/-- Fields of a word in pieces of 18, 1, 1, 4, 6, 2 bits. -/
theorem fields16 (x0 : BitVec 18) (x1 : BitVec 1) (x2 : BitVec 1) (x3 : BitVec 4) (x4 : BitVec 6) (x5 : BitVec 2) :
    ∃ w : BitVec 32, w = x0 ++ x1 ++ x2 ++ x3 ++ x4 ++ x5 ∧
      fld w 0 2 = x5 ∧ fld w 2 6 = x4 ∧ fld w 8 4 = x3 ∧ fld w 12 1 = x2 ∧ fld w 13 1 = x1 ∧ fld w 14 18 = x0 :=
  ⟨_, rfl, fldHere _ _,
    fldSkip 0 2 (fldHere _ _),
    fldSkip 6 2 (fldSkip 0 6 (fldHere _ _)),
    fldSkip 10 2 (fldSkip 4 6 (fldSkip 0 4 (fldHere _ _))),
    fldSkip 11 2 (fldSkip 5 6 (fldSkip 1 4 (fldSkip 0 1 (fldHere _ _)))),
    fldSkip 12 2 (fldSkip 6 6 (fldSkip 2 4 (fldSkip 1 1 (fldSkip 0 1 (fldSelf _)))))⟩

/-- Fields of a word in pieces of 23, 1, 6, 2 bits. -/
theorem fields17 (x0 : BitVec 23) (x1 : BitVec 1) (x2 : BitVec 6) (x3 : BitVec 2) :
    ∃ w : BitVec 32, w = x0 ++ x1 ++ x2 ++ x3 ∧
      fld w 0 2 = x3 ∧ fld w 2 6 = x2 ∧ fld w 8 1 = x1 ∧ fld w 9 23 = x0 :=
  ⟨_, rfl, fldHere _ _,
    fldSkip 0 2 (fldHere _ _),
    fldSkip 6 2 (fldSkip 0 6 (fldHere _ _)),
    fldSkip 7 2 (fldSkip 1 6 (fldSkip 0 1 (fldSelf _)))⟩

/-- Fields of a word in pieces of 20, 1, 3, 6, 2 bits. -/
theorem fields18 (x0 : BitVec 20) (x1 : BitVec 1) (x2 : BitVec 3) (x3 : BitVec 6) (x4 : BitVec 2) :
    ∃ w : BitVec 32, w = x0 ++ x1 ++ x2 ++ x3 ++ x4 ∧
      fld w 0 2 = x4 ∧ fld w 2 6 = x3 ∧ fld w 8 3 = x2 ∧ fld w 11 1 = x1 ∧ fld w 12 20 = x0 :=
  ⟨_, rfl, fldHere _ _,
    fldSkip 0 2 (fldHere _ _),
    fldSkip 6 2 (fldSkip 0 6 (fldHere _ _)),
    fldSkip 9 2 (fldSkip 3 6 (fldSkip 0 3 (fldHere _ _))),
    fldSkip 10 2 (fldSkip 4 6 (fldSkip 1 3 (fldSkip 0 1 (fldSelf _))))⟩

/-- Fields of a word in pieces of 18, 1, 2, 3, 6, 2 bits. -/
theorem fields19 (x0 : BitVec 18) (x1 : BitVec 1) (x2 : BitVec 2) (x3 : BitVec 3) (x4 : BitVec 6) (x5 : BitVec 2) :
    ∃ w : BitVec 32, w = x0 ++ x1 ++ x2 ++ x3 ++ x4 ++ x5 ∧
      fld w 0 2 = x5 ∧ fld w 2 6 = x4 ∧ fld w 8 3 = x3 ∧ fld w 11 2 = x2 ∧ fld w 13 1 = x1 ∧ fld w 14 18 = x0 :=
  ⟨_, rfl, fldHere _ _,
    fldSkip 0 2 (fldHere _ _),
    fldSkip 6 2 (fldSkip 0 6 (fldHere _ _)),
    fldSkip 9 2 (fldSkip 3 6 (fldSkip 0 3 (fldHere _ _))),
    fldSkip 11 2 (fldSkip 5 6 (fldSkip 2 3 (fldSkip 0 2 (fldHere _ _)))),
    fldSkip 12 2 (fldSkip 6 6 (fldSkip 3 3 (fldSkip 1 2 (fldSkip 0 1 (fldSelf _)))))⟩

/-- Fields of a word in pieces of 14, 10, 6, 2 bits. -/
theorem fields20 (x0 : BitVec 14) (x1 : BitVec 10) (x2 : BitVec 6) (x3 : BitVec 2) :
    ∃ w : BitVec 32, w = x0 ++ x1 ++ x2 ++ x3 ∧
      fld w 0 2 = x3 ∧ fld w 2 6 = x2 ∧ fld w 8 10 = x1 ∧ fld w 18 14 = x0 :=
  ⟨_, rfl, fldHere _ _,
    fldSkip 0 2 (fldHere _ _),
    fldSkip 6 2 (fldSkip 0 6 (fldHere _ _)),
    fldSkip 16 2 (fldSkip 10 6 (fldSkip 0 10 (fldSelf _)))⟩

/-- Fields of a word in pieces of 4, 2, 3, 5, 5, 1, 4, 6, 2 bits. -/
theorem fields21 (x0 : BitVec 4) (x1 : BitVec 2) (x2 : BitVec 3) (x3 : BitVec 5) (x4 : BitVec 5) (x5 : BitVec 1) (x6 : BitVec 4) (x7 : BitVec 6) (x8 : BitVec 2) :
    ∃ w : BitVec 32, w = x0 ++ x1 ++ x2 ++ x3 ++ x4 ++ x5 ++ x6 ++ x7 ++ x8 ∧
      fld w 0 2 = x8 ∧ fld w 2 6 = x7 ∧ fld w 8 4 = x6 ∧ fld w 12 1 = x5 ∧ fld w 13 5 = x4 ∧ fld w 18 5 = x3 ∧ fld w 23 3 = x2 ∧ fld w 26 2 = x1 ∧ fld w 28 4 = x0 :=
  ⟨_, rfl, fldHere _ _,
    fldSkip 0 2 (fldHere _ _),
    fldSkip 6 2 (fldSkip 0 6 (fldHere _ _)),
    fldSkip 10 2 (fldSkip 4 6 (fldSkip 0 4 (fldHere _ _))),
    fldSkip 11 2 (fldSkip 5 6 (fldSkip 1 4 (fldSkip 0 1 (fldHere _ _)))),
    fldSkip 16 2 (fldSkip 10 6 (fldSkip 6 4 (fldSkip 5 1 (fldSkip 0 5 (fldHere _ _))))),
    fldSkip 21 2 (fldSkip 15 6 (fldSkip 11 4 (fldSkip 10 1 (fldSkip 5 5 (fldSkip 0 5 (fldHere _ _)))))),
    fldSkip 24 2 (fldSkip 18 6 (fldSkip 14 4 (fldSkip 13 1 (fldSkip 8 5 (fldSkip 3 5 (fldSkip 0 3 (fldHere _ _))))))),
    fldSkip 26 2 (fldSkip 20 6 (fldSkip 16 4 (fldSkip 15 1 (fldSkip 10 5 (fldSkip 5 5 (fldSkip 2 3 (fldSkip 0 2 (fldSelf _))))))))⟩

/-- Fields of a word in pieces of 13, 3, 3, 5, 6, 2 bits. -/
theorem fields22 (x0 : BitVec 13) (x1 : BitVec 3) (x2 : BitVec 3) (x3 : BitVec 5) (x4 : BitVec 6) (x5 : BitVec 2) :
    ∃ w : BitVec 32, w = x0 ++ x1 ++ x2 ++ x3 ++ x4 ++ x5 ∧
      fld w 0 2 = x5 ∧ fld w 2 6 = x4 ∧ fld w 8 5 = x3 ∧ fld w 13 3 = x2 ∧ fld w 16 3 = x1 ∧ fld w 19 13 = x0 :=
  ⟨_, rfl, fldHere _ _,
    fldSkip 0 2 (fldHere _ _),
    fldSkip 6 2 (fldSkip 0 6 (fldHere _ _)),
    fldSkip 11 2 (fldSkip 5 6 (fldSkip 0 5 (fldHere _ _))),
    fldSkip 14 2 (fldSkip 8 6 (fldSkip 3 5 (fldSkip 0 3 (fldHere _ _)))),
    fldSkip 17 2 (fldSkip 11 6 (fldSkip 6 5 (fldSkip 3 3 (fldSkip 0 3 (fldSelf _)))))⟩

/-- Fields of a word in pieces of 13, 1, 2, 3, 5, 6, 2 bits. -/
theorem fields23 (x0 : BitVec 13) (x1 : Bool) (x2 : BitVec 2) (x3 : BitVec 3) (x4 : BitVec 5) (x5 : BitVec 6) (x6 : BitVec 2) :
    ∃ w : BitVec 32, w = x0 ++ BitVec.ofBool x1 ++ x2 ++ x3 ++ x4 ++ x5 ++ x6 ∧
      fld w 0 2 = x6 ∧ fld w 2 6 = x5 ∧ fld w 8 5 = x4 ∧ fld w 13 3 = x3 ∧ fld w 16 2 = x2 ∧ w[18] = x1 ∧ fld w 19 13 = x0 :=
  ⟨_, rfl, fldHere _ _,
    fldSkip 0 2 (fldHere _ _),
    fldSkip 6 2 (fldSkip 0 6 (fldHere _ _)),
    fldSkip 11 2 (fldSkip 5 6 (fldSkip 0 5 (fldHere _ _))),
    fldSkip 14 2 (fldSkip 8 6 (fldSkip 3 5 (fldSkip 0 3 (fldHere _ _)))),
    bitSkip 16 2 (bitSkip 10 6 (bitSkip 5 5 (bitSkip 2 3 (bitSkip 0 2 (bitHere _ _))))),
    fldSkip 17 2 (fldSkip 11 6 (fldSkip 6 5 (fldSkip 3 3 (fldSkip 1 2 (fldSkip 0 1 (fldSelf _))))))⟩

/-- Fields of a word in pieces of 4, 1, 1, 3, 2, 5, 3, 5, 6, 2 bits. -/
theorem fields24 (x0 : BitVec 4) (x1 : BitVec 1) (x2 : Bool) (x3 : BitVec 3) (x4 : BitVec 2) (x5 : BitVec 5) (x6 : BitVec 3) (x7 : BitVec 5) (x8 : BitVec 6) (x9 : BitVec 2) :
    ∃ w : BitVec 32, w = x0 ++ x1 ++ BitVec.ofBool x2 ++ x3 ++ x4 ++ x5 ++ x6 ++ x7 ++ x8 ++ x9 ∧
      fld w 0 2 = x9 ∧ fld w 2 6 = x8 ∧ fld w 8 5 = x7 ∧ fld w 13 3 = x6 ∧ fld w 16 5 = x5 ∧ fld w 21 2 = x4 ∧ fld w 23 3 = x3 ∧ w[26] = x2 ∧ fld w 27 1 = x1 ∧ fld w 28 4 = x0 :=
  ⟨_, rfl, fldHere _ _,
    fldSkip 0 2 (fldHere _ _),
    fldSkip 6 2 (fldSkip 0 6 (fldHere _ _)),
    fldSkip 11 2 (fldSkip 5 6 (fldSkip 0 5 (fldHere _ _))),
    fldSkip 14 2 (fldSkip 8 6 (fldSkip 3 5 (fldSkip 0 3 (fldHere _ _)))),
    fldSkip 19 2 (fldSkip 13 6 (fldSkip 8 5 (fldSkip 5 3 (fldSkip 0 5 (fldHere _ _))))),
    fldSkip 21 2 (fldSkip 15 6 (fldSkip 10 5 (fldSkip 7 3 (fldSkip 2 5 (fldSkip 0 2 (fldHere _ _)))))),
    bitSkip 24 2 (bitSkip 18 6 (bitSkip 13 5 (bitSkip 10 3 (bitSkip 5 5 (bitSkip 3 2 (bitSkip 0 3 (bitHere _ _))))))),
    fldSkip 25 2 (fldSkip 19 6 (fldSkip 14 5 (fldSkip 11 3 (fldSkip 6 5 (fldSkip 4 2 (fldSkip 1 3 (fldSkip 0 1 (fldHere _ _)))))))),
    fldSkip 26 2 (fldSkip 20 6 (fldSkip 15 5 (fldSkip 12 3 (fldSkip 7 5 (fldSkip 5 2 (fldSkip 2 3 (fldSkip 1 1 (fldSkip 0 1 (fldSelf _)))))))))⟩

/-- Fields of a word in pieces of 4, 1, 1, 1, 2, 2, 5, 3, 5, 6, 2 bits. -/
theorem fields25 (x0 : BitVec 4) (x1 : BitVec 1) (x2 : Bool) (x3 : BitVec 1) (x4 : BitVec 2) (x5 : BitVec 2) (x6 : BitVec 5) (x7 : BitVec 3) (x8 : BitVec 5) (x9 : BitVec 6) (x10 : BitVec 2) :
    ∃ w : BitVec 32, w = x0 ++ x1 ++ BitVec.ofBool x2 ++ x3 ++ x4 ++ x5 ++ x6 ++ x7 ++ x8 ++ x9 ++ x10 ∧
      fld w 0 2 = x10 ∧ fld w 2 6 = x9 ∧ fld w 8 5 = x8 ∧ fld w 13 3 = x7 ∧ fld w 16 5 = x6 ∧ fld w 21 2 = x5 ∧ fld w 23 2 = x4 ∧ fld w 25 1 = x3 ∧ w[26] = x2 ∧ fld w 27 1 = x1 ∧ fld w 28 4 = x0 :=
  ⟨_, rfl, fldHere _ _,
    fldSkip 0 2 (fldHere _ _),
    fldSkip 6 2 (fldSkip 0 6 (fldHere _ _)),
    fldSkip 11 2 (fldSkip 5 6 (fldSkip 0 5 (fldHere _ _))),
    fldSkip 14 2 (fldSkip 8 6 (fldSkip 3 5 (fldSkip 0 3 (fldHere _ _)))),
    fldSkip 19 2 (fldSkip 13 6 (fldSkip 8 5 (fldSkip 5 3 (fldSkip 0 5 (fldHere _ _))))),
    fldSkip 21 2 (fldSkip 15 6 (fldSkip 10 5 (fldSkip 7 3 (fldSkip 2 5 (fldSkip 0 2 (fldHere _ _)))))),
    fldSkip 23 2 (fldSkip 17 6 (fldSkip 12 5 (fldSkip 9 3 (fldSkip 4 5 (fldSkip 2 2 (fldSkip 0 2 (fldHere _ _))))))),
    bitSkip 24 2 (bitSkip 18 6 (bitSkip 13 5 (bitSkip 10 3 (bitSkip 5 5 (bitSkip 3 2 (bitSkip 1 2 (bitSkip 0 1 (bitHere _ _)))))))),
    fldSkip 25 2 (fldSkip 19 6 (fldSkip 14 5 (fldSkip 11 3 (fldSkip 6 5 (fldSkip 4 2 (fldSkip 2 2 (fldSkip 1 1 (fldSkip 0 1 (fldHere _ _))))))))),
    fldSkip 26 2 (fldSkip 20 6 (fldSkip 15 5 (fldSkip 12 3 (fldSkip 7 5 (fldSkip 5 2 (fldSkip 3 2 (fldSkip 2 1 (fldSkip 1 1 (fldSkip 0 1 (fldSelf _))))))))))⟩

/-- Fields of a word in pieces of 15, 1, 3, 1, 1, 3, 6, 2 bits. -/
theorem fields26 (x0 : BitVec 15) (x1 : BitVec 1) (x2 : BitVec 3) (x3 : BitVec 1) (x4 : BitVec 1) (x5 : BitVec 3) (x6 : BitVec 6) (x7 : BitVec 2) :
    ∃ w : BitVec 32, w = x0 ++ x1 ++ x2 ++ x3 ++ x4 ++ x5 ++ x6 ++ x7 ∧
      fld w 0 2 = x7 ∧ fld w 2 6 = x6 ∧ fld w 8 3 = x5 ∧ fld w 11 1 = x4 ∧ fld w 12 1 = x3 ∧ fld w 13 3 = x2 ∧ fld w 16 1 = x1 ∧ fld w 17 15 = x0 :=
  ⟨_, rfl, fldHere _ _,
    fldSkip 0 2 (fldHere _ _),
    fldSkip 6 2 (fldSkip 0 6 (fldHere _ _)),
    fldSkip 9 2 (fldSkip 3 6 (fldSkip 0 3 (fldHere _ _))),
    fldSkip 10 2 (fldSkip 4 6 (fldSkip 1 3 (fldSkip 0 1 (fldHere _ _)))),
    fldSkip 11 2 (fldSkip 5 6 (fldSkip 2 3 (fldSkip 1 1 (fldSkip 0 1 (fldHere _ _))))),
    fldSkip 14 2 (fldSkip 8 6 (fldSkip 5 3 (fldSkip 4 1 (fldSkip 3 1 (fldSkip 0 3 (fldHere _ _)))))),
    fldSkip 15 2 (fldSkip 9 6 (fldSkip 6 3 (fldSkip 5 1 (fldSkip 4 1 (fldSkip 1 3 (fldSkip 0 1 (fldSelf _)))))))⟩

/-- Fields of a word in pieces of 8, 1, 2, 1, 4, 3, 5, 6, 2 bits. -/
theorem fields27 (x0 : BitVec 8) (x1 : BitVec 1) (x2 : BitVec 2) (x3 : Bool) (x4 : BitVec 4) (x5 : BitVec 3) (x6 : BitVec 5) (x7 : BitVec 6) (x8 : BitVec 2) :
    ∃ w : BitVec 32, w = x0 ++ x1 ++ x2 ++ BitVec.ofBool x3 ++ x4 ++ x5 ++ x6 ++ x7 ++ x8 ∧
      fld w 0 2 = x8 ∧ fld w 2 6 = x7 ∧ fld w 8 5 = x6 ∧ fld w 13 3 = x5 ∧ fld w 16 4 = x4 ∧ w[20] = x3 ∧ fld w 21 2 = x2 ∧ fld w 23 1 = x1 ∧ fld w 24 8 = x0 :=
  ⟨_, rfl, fldHere _ _,
    fldSkip 0 2 (fldHere _ _),
    fldSkip 6 2 (fldSkip 0 6 (fldHere _ _)),
    fldSkip 11 2 (fldSkip 5 6 (fldSkip 0 5 (fldHere _ _))),
    fldSkip 14 2 (fldSkip 8 6 (fldSkip 3 5 (fldSkip 0 3 (fldHere _ _)))),
    bitSkip 18 2 (bitSkip 12 6 (bitSkip 7 5 (bitSkip 4 3 (bitSkip 0 4 (bitHere _ _))))),
    fldSkip 19 2 (fldSkip 13 6 (fldSkip 8 5 (fldSkip 5 3 (fldSkip 1 4 (fldSkip 0 1 (fldHere _ _)))))),
    fldSkip 21 2 (fldSkip 15 6 (fldSkip 10 5 (fldSkip 7 3 (fldSkip 3 4 (fldSkip 2 1 (fldSkip 0 2 (fldHere _ _))))))),
    fldSkip 22 2 (fldSkip 16 6 (fldSkip 11 5 (fldSkip 8 3 (fldSkip 4 4 (fldSkip 3 1 (fldSkip 1 2 (fldSkip 0 1 (fldSelf _))))))))⟩

/-- Fields of a word in pieces of 4, 5, 9, 3, 3, 6, 2 bits. -/
theorem fields28 (x0 : BitVec 4) (x1 : BitVec 5) (x2 : BitVec 9) (x3 : BitVec 3) (x4 : BitVec 3) (x5 : BitVec 6) (x6 : BitVec 2) :
    ∃ w : BitVec 32, w = x0 ++ x1 ++ x2 ++ x3 ++ x4 ++ x5 ++ x6 ∧
      fld w 0 2 = x6 ∧ fld w 2 6 = x5 ∧ fld w 8 3 = x4 ∧ fld w 11 3 = x3 ∧ fld w 14 9 = x2 ∧ fld w 23 5 = x1 ∧ fld w 28 4 = x0 :=
  ⟨_, rfl, fldHere _ _,
    fldSkip 0 2 (fldHere _ _),
    fldSkip 6 2 (fldSkip 0 6 (fldHere _ _)),
    fldSkip 9 2 (fldSkip 3 6 (fldSkip 0 3 (fldHere _ _))),
    fldSkip 12 2 (fldSkip 6 6 (fldSkip 3 3 (fldSkip 0 3 (fldHere _ _)))),
    fldSkip 21 2 (fldSkip 15 6 (fldSkip 12 3 (fldSkip 9 3 (fldSkip 0 9 (fldHere _ _))))),
    fldSkip 26 2 (fldSkip 20 6 (fldSkip 17 3 (fldSkip 14 3 (fldSkip 5 9 (fldSkip 0 5 (fldSelf _))))))⟩

/-- Fields of a word in pieces of 4, 5, 9, 6, 6, 2 bits. -/
theorem fields29 (x0 : BitVec 4) (x1 : BitVec 5) (x2 : BitVec 9) (x3 : BitVec 6) (x4 : BitVec 6) (x5 : BitVec 2) :
    ∃ w : BitVec 32, w = x0 ++ x1 ++ x2 ++ x3 ++ x4 ++ x5 ∧
      fld w 0 2 = x5 ∧ fld w 2 6 = x4 ∧ fld w 8 6 = x3 ∧ fld w 14 9 = x2 ∧ fld w 23 5 = x1 ∧ fld w 28 4 = x0 :=
  ⟨_, rfl, fldHere _ _,
    fldSkip 0 2 (fldHere _ _),
    fldSkip 6 2 (fldSkip 0 6 (fldHere _ _)),
    fldSkip 12 2 (fldSkip 6 6 (fldSkip 0 6 (fldHere _ _))),
    fldSkip 21 2 (fldSkip 15 6 (fldSkip 9 6 (fldSkip 0 9 (fldHere _ _)))),
    fldSkip 26 2 (fldSkip 20 6 (fldSkip 14 6 (fldSkip 5 9 (fldSkip 0 5 (fldSelf _)))))⟩

/-- Fields of a word in pieces of 2, 2, 5, 5, 2, 3, 5, 6, 2 bits. -/
theorem fields30 (x0 : BitVec 2) (x1 : BitVec 2) (x2 : BitVec 5) (x3 : BitVec 5) (x4 : BitVec 2) (x5 : BitVec 3) (x6 : BitVec 5) (x7 : BitVec 6) (x8 : BitVec 2) :
    ∃ w : BitVec 32, w = x0 ++ x1 ++ x2 ++ x3 ++ x4 ++ x5 ++ x6 ++ x7 ++ x8 ∧
      fld w 0 2 = x8 ∧ fld w 2 6 = x7 ∧ fld w 8 5 = x6 ∧ fld w 13 3 = x5 ∧ fld w 16 2 = x4 ∧ fld w 18 5 = x3 ∧ fld w 23 5 = x2 ∧ fld w 28 2 = x1 ∧ fld w 30 2 = x0 :=
  ⟨_, rfl, fldHere _ _,
    fldSkip 0 2 (fldHere _ _),
    fldSkip 6 2 (fldSkip 0 6 (fldHere _ _)),
    fldSkip 11 2 (fldSkip 5 6 (fldSkip 0 5 (fldHere _ _))),
    fldSkip 14 2 (fldSkip 8 6 (fldSkip 3 5 (fldSkip 0 3 (fldHere _ _)))),
    fldSkip 16 2 (fldSkip 10 6 (fldSkip 5 5 (fldSkip 2 3 (fldSkip 0 2 (fldHere _ _))))),
    fldSkip 21 2 (fldSkip 15 6 (fldSkip 10 5 (fldSkip 7 3 (fldSkip 5 2 (fldSkip 0 5 (fldHere _ _)))))),
    fldSkip 26 2 (fldSkip 20 6 (fldSkip 15 5 (fldSkip 12 3 (fldSkip 10 2 (fldSkip 5 5 (fldSkip 0 5 (fldHere _ _))))))),
    fldSkip 28 2 (fldSkip 22 6 (fldSkip 17 5 (fldSkip 14 3 (fldSkip 12 2 (fldSkip 7 5 (fldSkip 2 5 (fldSkip 0 2 (fldSelf _))))))))⟩

/-- Fields of a word in pieces of 1, 3, 5, 5, 2, 3, 5, 6, 2 bits. -/
theorem fields31 (x0 : BitVec 1) (x1 : BitVec 3) (x2 : BitVec 5) (x3 : BitVec 5) (x4 : BitVec 2) (x5 : BitVec 3) (x6 : BitVec 5) (x7 : BitVec 6) (x8 : BitVec 2) :
    ∃ w : BitVec 32, w = x0 ++ x1 ++ x2 ++ x3 ++ x4 ++ x5 ++ x6 ++ x7 ++ x8 ∧
      fld w 0 2 = x8 ∧ fld w 2 6 = x7 ∧ fld w 8 5 = x6 ∧ fld w 13 3 = x5 ∧ fld w 16 2 = x4 ∧ fld w 18 5 = x3 ∧ fld w 23 5 = x2 ∧ fld w 28 3 = x1 ∧ fld w 31 1 = x0 :=
  ⟨_, rfl, fldHere _ _,
    fldSkip 0 2 (fldHere _ _),
    fldSkip 6 2 (fldSkip 0 6 (fldHere _ _)),
    fldSkip 11 2 (fldSkip 5 6 (fldSkip 0 5 (fldHere _ _))),
    fldSkip 14 2 (fldSkip 8 6 (fldSkip 3 5 (fldSkip 0 3 (fldHere _ _)))),
    fldSkip 16 2 (fldSkip 10 6 (fldSkip 5 5 (fldSkip 2 3 (fldSkip 0 2 (fldHere _ _))))),
    fldSkip 21 2 (fldSkip 15 6 (fldSkip 10 5 (fldSkip 7 3 (fldSkip 5 2 (fldSkip 0 5 (fldHere _ _)))))),
    fldSkip 26 2 (fldSkip 20 6 (fldSkip 15 5 (fldSkip 12 3 (fldSkip 10 2 (fldSkip 5 5 (fldSkip 0 5 (fldHere _ _))))))),
    fldSkip 29 2 (fldSkip 23 6 (fldSkip 18 5 (fldSkip 15 3 (fldSkip 13 2 (fldSkip 8 5 (fldSkip 3 5 (fldSkip 0 3 (fldSelf _))))))))⟩

/-- Fields of a word in pieces of 4, 5, 10, 5, 6, 2 bits. -/
theorem fields32 (x0 : BitVec 4) (x1 : BitVec 5) (x2 : BitVec 10) (x3 : BitVec 5) (x4 : BitVec 6) (x5 : BitVec 2) :
    ∃ w : BitVec 32, w = x0 ++ x1 ++ x2 ++ x3 ++ x4 ++ x5 ∧
      fld w 0 2 = x5 ∧ fld w 2 6 = x4 ∧ fld w 8 5 = x3 ∧ fld w 13 10 = x2 ∧ fld w 23 5 = x1 ∧ fld w 28 4 = x0 :=
  ⟨_, rfl, fldHere _ _,
    fldSkip 0 2 (fldHere _ _),
    fldSkip 6 2 (fldSkip 0 6 (fldHere _ _)),
    fldSkip 11 2 (fldSkip 5 6 (fldSkip 0 5 (fldHere _ _))),
    fldSkip 21 2 (fldSkip 15 6 (fldSkip 10 5 (fldSkip 0 10 (fldHere _ _)))),
    fldSkip 26 2 (fldSkip 20 6 (fldSkip 15 5 (fldSkip 5 10 (fldSkip 0 5 (fldSelf _)))))⟩

/-- Fields of a word in pieces of 3, 1, 5, 5, 5, 5, 6, 2 bits. -/
theorem fields33 (x0 : BitVec 3) (x1 : Bool) (x2 : BitVec 5) (x3 : BitVec 5) (x4 : BitVec 5) (x5 : BitVec 5) (x6 : BitVec 6) (x7 : BitVec 2) :
    ∃ w : BitVec 32, w = x0 ++ BitVec.ofBool x1 ++ x2 ++ x3 ++ x4 ++ x5 ++ x6 ++ x7 ∧
      fld w 0 2 = x7 ∧ fld w 2 6 = x6 ∧ fld w 8 5 = x5 ∧ fld w 13 5 = x4 ∧ fld w 18 5 = x3 ∧ fld w 23 5 = x2 ∧ w[28] = x1 ∧ fld w 29 3 = x0 :=
  ⟨_, rfl, fldHere _ _,
    fldSkip 0 2 (fldHere _ _),
    fldSkip 6 2 (fldSkip 0 6 (fldHere _ _)),
    fldSkip 11 2 (fldSkip 5 6 (fldSkip 0 5 (fldHere _ _))),
    fldSkip 16 2 (fldSkip 10 6 (fldSkip 5 5 (fldSkip 0 5 (fldHere _ _)))),
    fldSkip 21 2 (fldSkip 15 6 (fldSkip 10 5 (fldSkip 5 5 (fldSkip 0 5 (fldHere _ _))))),
    bitSkip 26 2 (bitSkip 20 6 (bitSkip 15 5 (bitSkip 10 5 (bitSkip 5 5 (bitSkip 0 5 (bitHere _ _)))))),
    fldSkip 27 2 (fldSkip 21 6 (fldSkip 16 5 (fldSkip 11 5 (fldSkip 6 5 (fldSkip 1 5 (fldSkip 0 1 (fldSelf _)))))))⟩

/-- Fields of a word in pieces of 1, 5, 3, 5, 5, 5, 6, 2 bits. -/
theorem fields34 (x0 : BitVec 1) (x1 : BitVec 5) (x2 : BitVec 3) (x3 : BitVec 5) (x4 : BitVec 5) (x5 : BitVec 5) (x6 : BitVec 6) (x7 : BitVec 2) :
    ∃ w : BitVec 32, w = x0 ++ x1 ++ x2 ++ x3 ++ x4 ++ x5 ++ x6 ++ x7 ∧
      fld w 0 2 = x7 ∧ fld w 2 6 = x6 ∧ fld w 8 5 = x5 ∧ fld w 13 5 = x4 ∧ fld w 18 5 = x3 ∧ fld w 23 3 = x2 ∧ fld w 26 5 = x1 ∧ fld w 31 1 = x0 :=
  ⟨_, rfl, fldHere _ _,
    fldSkip 0 2 (fldHere _ _),
    fldSkip 6 2 (fldSkip 0 6 (fldHere _ _)),
    fldSkip 11 2 (fldSkip 5 6 (fldSkip 0 5 (fldHere _ _))),
    fldSkip 16 2 (fldSkip 10 6 (fldSkip 5 5 (fldSkip 0 5 (fldHere _ _)))),
    fldSkip 21 2 (fldSkip 15 6 (fldSkip 10 5 (fldSkip 5 5 (fldSkip 0 5 (fldHere _ _))))),
    fldSkip 24 2 (fldSkip 18 6 (fldSkip 13 5 (fldSkip 8 5 (fldSkip 3 5 (fldSkip 0 3 (fldHere _ _)))))),
    fldSkip 29 2 (fldSkip 23 6 (fldSkip 18 5 (fldSkip 13 5 (fldSkip 8 5 (fldSkip 5 3 (fldSkip 0 5 (fldSelf _)))))))⟩

/-- Fields of a word in pieces of 1, 5, 3, 5, 5, 2, 3, 6, 2 bits. -/
theorem fields35 (x0 : BitVec 1) (x1 : BitVec 5) (x2 : BitVec 3) (x3 : BitVec 5) (x4 : BitVec 5) (x5 : BitVec 2) (x6 : BitVec 3) (x7 : BitVec 6) (x8 : BitVec 2) :
    ∃ w : BitVec 32, w = x0 ++ x1 ++ x2 ++ x3 ++ x4 ++ x5 ++ x6 ++ x7 ++ x8 ∧
      fld w 0 2 = x8 ∧ fld w 2 6 = x7 ∧ fld w 8 3 = x6 ∧ fld w 11 2 = x5 ∧ fld w 13 5 = x4 ∧ fld w 18 5 = x3 ∧ fld w 23 3 = x2 ∧ fld w 26 5 = x1 ∧ fld w 31 1 = x0 :=
  ⟨_, rfl, fldHere _ _,
    fldSkip 0 2 (fldHere _ _),
    fldSkip 6 2 (fldSkip 0 6 (fldHere _ _)),
    fldSkip 9 2 (fldSkip 3 6 (fldSkip 0 3 (fldHere _ _))),
    fldSkip 11 2 (fldSkip 5 6 (fldSkip 2 3 (fldSkip 0 2 (fldHere _ _)))),
    fldSkip 16 2 (fldSkip 10 6 (fldSkip 7 3 (fldSkip 5 2 (fldSkip 0 5 (fldHere _ _))))),
    fldSkip 21 2 (fldSkip 15 6 (fldSkip 12 3 (fldSkip 10 2 (fldSkip 5 5 (fldSkip 0 5 (fldHere _ _)))))),
    fldSkip 24 2 (fldSkip 18 6 (fldSkip 15 3 (fldSkip 13 2 (fldSkip 8 5 (fldSkip 3 5 (fldSkip 0 3 (fldHere _ _))))))),
    fldSkip 29 2 (fldSkip 23 6 (fldSkip 20 3 (fldSkip 18 2 (fldSkip 13 5 (fldSkip 8 5 (fldSkip 5 3 (fldSkip 0 5 (fldSelf _))))))))⟩

/-- Fields of a word in pieces of 1, 5, 3, 2, 3, 2, 3, 2, 3, 6, 2 bits. -/
theorem fields36 (x0 : BitVec 1) (x1 : BitVec 5) (x2 : BitVec 3) (x3 : BitVec 2) (x4 : BitVec 3) (x5 : BitVec 2) (x6 : BitVec 3) (x7 : BitVec 2) (x8 : BitVec 3) (x9 : BitVec 6) (x10 : BitVec 2) :
    ∃ w : BitVec 32, w = x0 ++ x1 ++ x2 ++ x3 ++ x4 ++ x5 ++ x6 ++ x7 ++ x8 ++ x9 ++ x10 ∧
      fld w 0 2 = x10 ∧ fld w 2 6 = x9 ∧ fld w 8 3 = x8 ∧ fld w 11 2 = x7 ∧ fld w 13 3 = x6 ∧ fld w 16 2 = x5 ∧ fld w 18 3 = x4 ∧ fld w 21 2 = x3 ∧ fld w 23 3 = x2 ∧ fld w 26 5 = x1 ∧ fld w 31 1 = x0 :=
  ⟨_, rfl, fldHere _ _,
    fldSkip 0 2 (fldHere _ _),
    fldSkip 6 2 (fldSkip 0 6 (fldHere _ _)),
    fldSkip 9 2 (fldSkip 3 6 (fldSkip 0 3 (fldHere _ _))),
    fldSkip 11 2 (fldSkip 5 6 (fldSkip 2 3 (fldSkip 0 2 (fldHere _ _)))),
    fldSkip 14 2 (fldSkip 8 6 (fldSkip 5 3 (fldSkip 3 2 (fldSkip 0 3 (fldHere _ _))))),
    fldSkip 16 2 (fldSkip 10 6 (fldSkip 7 3 (fldSkip 5 2 (fldSkip 2 3 (fldSkip 0 2 (fldHere _ _)))))),
    fldSkip 19 2 (fldSkip 13 6 (fldSkip 10 3 (fldSkip 8 2 (fldSkip 5 3 (fldSkip 3 2 (fldSkip 0 3 (fldHere _ _))))))),
    fldSkip 21 2 (fldSkip 15 6 (fldSkip 12 3 (fldSkip 10 2 (fldSkip 7 3 (fldSkip 5 2 (fldSkip 2 3 (fldSkip 0 2 (fldHere _ _)))))))),
    fldSkip 24 2 (fldSkip 18 6 (fldSkip 15 3 (fldSkip 13 2 (fldSkip 10 3 (fldSkip 8 2 (fldSkip 5 3 (fldSkip 3 2 (fldSkip 0 3 (fldHere _ _))))))))),
    fldSkip 29 2 (fldSkip 23 6 (fldSkip 20 3 (fldSkip 18 2 (fldSkip 15 3 (fldSkip 13 2 (fldSkip 10 3 (fldSkip 8 2 (fldSkip 5 3 (fldSkip 0 5 (fldSelf _))))))))))⟩

/-- Fields of a word in pieces of 1, 5, 3, 5, 2, 3, 2, 3, 6, 2 bits. -/
theorem fields37 (x0 : BitVec 1) (x1 : BitVec 5) (x2 : BitVec 3) (x3 : BitVec 5) (x4 : BitVec 2) (x5 : BitVec 3) (x6 : BitVec 2) (x7 : BitVec 3) (x8 : BitVec 6) (x9 : BitVec 2) :
    ∃ w : BitVec 32, w = x0 ++ x1 ++ x2 ++ x3 ++ x4 ++ x5 ++ x6 ++ x7 ++ x8 ++ x9 ∧
      fld w 0 2 = x9 ∧ fld w 2 6 = x8 ∧ fld w 8 3 = x7 ∧ fld w 11 2 = x6 ∧ fld w 13 3 = x5 ∧ fld w 16 2 = x4 ∧ fld w 18 5 = x3 ∧ fld w 23 3 = x2 ∧ fld w 26 5 = x1 ∧ fld w 31 1 = x0 :=
  ⟨_, rfl, fldHere _ _,
    fldSkip 0 2 (fldHere _ _),
    fldSkip 6 2 (fldSkip 0 6 (fldHere _ _)),
    fldSkip 9 2 (fldSkip 3 6 (fldSkip 0 3 (fldHere _ _))),
    fldSkip 11 2 (fldSkip 5 6 (fldSkip 2 3 (fldSkip 0 2 (fldHere _ _)))),
    fldSkip 14 2 (fldSkip 8 6 (fldSkip 5 3 (fldSkip 3 2 (fldSkip 0 3 (fldHere _ _))))),
    fldSkip 16 2 (fldSkip 10 6 (fldSkip 7 3 (fldSkip 5 2 (fldSkip 2 3 (fldSkip 0 2 (fldHere _ _)))))),
    fldSkip 21 2 (fldSkip 15 6 (fldSkip 12 3 (fldSkip 10 2 (fldSkip 7 3 (fldSkip 5 2 (fldSkip 0 5 (fldHere _ _))))))),
    fldSkip 24 2 (fldSkip 18 6 (fldSkip 15 3 (fldSkip 13 2 (fldSkip 10 3 (fldSkip 8 2 (fldSkip 3 5 (fldSkip 0 3 (fldHere _ _)))))))),
    fldSkip 29 2 (fldSkip 23 6 (fldSkip 20 3 (fldSkip 18 2 (fldSkip 15 3 (fldSkip 13 2 (fldSkip 8 5 (fldSkip 5 3 (fldSkip 0 5 (fldSelf _)))))))))⟩

/-- Fields of a word in pieces of 1, 5, 3, 5, 2, 3, 5, 6, 2 bits. -/
theorem fields38 (x0 : BitVec 1) (x1 : BitVec 5) (x2 : BitVec 3) (x3 : BitVec 5) (x4 : BitVec 2) (x5 : BitVec 3) (x6 : BitVec 5) (x7 : BitVec 6) (x8 : BitVec 2) :
    ∃ w : BitVec 32, w = x0 ++ x1 ++ x2 ++ x3 ++ x4 ++ x5 ++ x6 ++ x7 ++ x8 ∧
      fld w 0 2 = x8 ∧ fld w 2 6 = x7 ∧ fld w 8 5 = x6 ∧ fld w 13 3 = x5 ∧ fld w 16 2 = x4 ∧ fld w 18 5 = x3 ∧ fld w 23 3 = x2 ∧ fld w 26 5 = x1 ∧ fld w 31 1 = x0 :=
  ⟨_, rfl, fldHere _ _,
    fldSkip 0 2 (fldHere _ _),
    fldSkip 6 2 (fldSkip 0 6 (fldHere _ _)),
    fldSkip 11 2 (fldSkip 5 6 (fldSkip 0 5 (fldHere _ _))),
    fldSkip 14 2 (fldSkip 8 6 (fldSkip 3 5 (fldSkip 0 3 (fldHere _ _)))),
    fldSkip 16 2 (fldSkip 10 6 (fldSkip 5 5 (fldSkip 2 3 (fldSkip 0 2 (fldHere _ _))))),
    fldSkip 21 2 (fldSkip 15 6 (fldSkip 10 5 (fldSkip 7 3 (fldSkip 5 2 (fldSkip 0 5 (fldHere _ _)))))),
    fldSkip 24 2 (fldSkip 18 6 (fldSkip 13 5 (fldSkip 10 3 (fldSkip 8 2 (fldSkip 3 5 (fldSkip 0 3 (fldHere _ _))))))),
    fldSkip 29 2 (fldSkip 23 6 (fldSkip 18 5 (fldSkip 15 3 (fldSkip 13 2 (fldSkip 8 5 (fldSkip 5 3 (fldSkip 0 5 (fldSelf _))))))))⟩

/-- Fields of a word in pieces of 1, 5, 3, 2, 3, 5, 5, 6, 2 bits. -/
theorem fields39 (x0 : BitVec 1) (x1 : BitVec 5) (x2 : BitVec 3) (x3 : BitVec 2) (x4 : BitVec 3) (x5 : BitVec 5) (x6 : BitVec 5) (x7 : BitVec 6) (x8 : BitVec 2) :
    ∃ w : BitVec 32, w = x0 ++ x1 ++ x2 ++ x3 ++ x4 ++ x5 ++ x6 ++ x7 ++ x8 ∧
      fld w 0 2 = x8 ∧ fld w 2 6 = x7 ∧ fld w 8 5 = x6 ∧ fld w 13 5 = x5 ∧ fld w 18 3 = x4 ∧ fld w 21 2 = x3 ∧ fld w 23 3 = x2 ∧ fld w 26 5 = x1 ∧ fld w 31 1 = x0 :=
  ⟨_, rfl, fldHere _ _,
    fldSkip 0 2 (fldHere _ _),
    fldSkip 6 2 (fldSkip 0 6 (fldHere _ _)),
    fldSkip 11 2 (fldSkip 5 6 (fldSkip 0 5 (fldHere _ _))),
    fldSkip 16 2 (fldSkip 10 6 (fldSkip 5 5 (fldSkip 0 5 (fldHere _ _)))),
    fldSkip 19 2 (fldSkip 13 6 (fldSkip 8 5 (fldSkip 3 5 (fldSkip 0 3 (fldHere _ _))))),
    fldSkip 21 2 (fldSkip 15 6 (fldSkip 10 5 (fldSkip 5 5 (fldSkip 2 3 (fldSkip 0 2 (fldHere _ _)))))),
    fldSkip 24 2 (fldSkip 18 6 (fldSkip 13 5 (fldSkip 8 5 (fldSkip 5 3 (fldSkip 3 2 (fldSkip 0 3 (fldHere _ _))))))),
    fldSkip 29 2 (fldSkip 23 6 (fldSkip 18 5 (fldSkip 13 5 (fldSkip 10 3 (fldSkip 8 2 (fldSkip 5 3 (fldSkip 0 5 (fldSelf _))))))))⟩

/-- Fields of a word in pieces of 1, 5, 3, 1, 4, 1, 4, 1, 4, 6, 2 bits. -/
theorem fields40 (x0 : BitVec 1) (x1 : BitVec 5) (x2 : BitVec 3) (x3 : BitVec 1) (x4 : BitVec 4) (x5 : BitVec 1) (x6 : BitVec 4) (x7 : BitVec 1) (x8 : BitVec 4) (x9 : BitVec 6) (x10 : BitVec 2) :
    ∃ w : BitVec 32, w = x0 ++ x1 ++ x2 ++ x3 ++ x4 ++ x5 ++ x6 ++ x7 ++ x8 ++ x9 ++ x10 ∧
      fld w 0 2 = x10 ∧ fld w 2 6 = x9 ∧ fld w 8 4 = x8 ∧ fld w 12 1 = x7 ∧ fld w 13 4 = x6 ∧ fld w 17 1 = x5 ∧ fld w 18 4 = x4 ∧ fld w 22 1 = x3 ∧ fld w 23 3 = x2 ∧ fld w 26 5 = x1 ∧ fld w 31 1 = x0 :=
  ⟨_, rfl, fldHere _ _,
    fldSkip 0 2 (fldHere _ _),
    fldSkip 6 2 (fldSkip 0 6 (fldHere _ _)),
    fldSkip 10 2 (fldSkip 4 6 (fldSkip 0 4 (fldHere _ _))),
    fldSkip 11 2 (fldSkip 5 6 (fldSkip 1 4 (fldSkip 0 1 (fldHere _ _)))),
    fldSkip 15 2 (fldSkip 9 6 (fldSkip 5 4 (fldSkip 4 1 (fldSkip 0 4 (fldHere _ _))))),
    fldSkip 16 2 (fldSkip 10 6 (fldSkip 6 4 (fldSkip 5 1 (fldSkip 1 4 (fldSkip 0 1 (fldHere _ _)))))),
    fldSkip 20 2 (fldSkip 14 6 (fldSkip 10 4 (fldSkip 9 1 (fldSkip 5 4 (fldSkip 4 1 (fldSkip 0 4 (fldHere _ _))))))),
    fldSkip 21 2 (fldSkip 15 6 (fldSkip 11 4 (fldSkip 10 1 (fldSkip 6 4 (fldSkip 5 1 (fldSkip 1 4 (fldSkip 0 1 (fldHere _ _)))))))),
    fldSkip 24 2 (fldSkip 18 6 (fldSkip 14 4 (fldSkip 13 1 (fldSkip 9 4 (fldSkip 8 1 (fldSkip 4 4 (fldSkip 3 1 (fldSkip 0 3 (fldHere _ _))))))))),
    fldSkip 29 2 (fldSkip 23 6 (fldSkip 19 4 (fldSkip 18 1 (fldSkip 14 4 (fldSkip 13 1 (fldSkip 9 4 (fldSkip 8 1 (fldSkip 5 3 (fldSkip 0 5 (fldSelf _))))))))))⟩

/-- Fields of a word in pieces of 1, 5, 3, 5, 1, 4, 1, 4, 6, 2 bits. -/
theorem fields41 (x0 : BitVec 1) (x1 : BitVec 5) (x2 : BitVec 3) (x3 : BitVec 5) (x4 : BitVec 1) (x5 : BitVec 4) (x6 : BitVec 1) (x7 : BitVec 4) (x8 : BitVec 6) (x9 : BitVec 2) :
    ∃ w : BitVec 32, w = x0 ++ x1 ++ x2 ++ x3 ++ x4 ++ x5 ++ x6 ++ x7 ++ x8 ++ x9 ∧
      fld w 0 2 = x9 ∧ fld w 2 6 = x8 ∧ fld w 8 4 = x7 ∧ fld w 12 1 = x6 ∧ fld w 13 4 = x5 ∧ fld w 17 1 = x4 ∧ fld w 18 5 = x3 ∧ fld w 23 3 = x2 ∧ fld w 26 5 = x1 ∧ fld w 31 1 = x0 :=
  ⟨_, rfl, fldHere _ _,
    fldSkip 0 2 (fldHere _ _),
    fldSkip 6 2 (fldSkip 0 6 (fldHere _ _)),
    fldSkip 10 2 (fldSkip 4 6 (fldSkip 0 4 (fldHere _ _))),
    fldSkip 11 2 (fldSkip 5 6 (fldSkip 1 4 (fldSkip 0 1 (fldHere _ _)))),
    fldSkip 15 2 (fldSkip 9 6 (fldSkip 5 4 (fldSkip 4 1 (fldSkip 0 4 (fldHere _ _))))),
    fldSkip 16 2 (fldSkip 10 6 (fldSkip 6 4 (fldSkip 5 1 (fldSkip 1 4 (fldSkip 0 1 (fldHere _ _)))))),
    fldSkip 21 2 (fldSkip 15 6 (fldSkip 11 4 (fldSkip 10 1 (fldSkip 6 4 (fldSkip 5 1 (fldSkip 0 5 (fldHere _ _))))))),
    fldSkip 24 2 (fldSkip 18 6 (fldSkip 14 4 (fldSkip 13 1 (fldSkip 9 4 (fldSkip 8 1 (fldSkip 3 5 (fldSkip 0 3 (fldHere _ _)))))))),
    fldSkip 29 2 (fldSkip 23 6 (fldSkip 19 4 (fldSkip 18 1 (fldSkip 14 4 (fldSkip 13 1 (fldSkip 8 5 (fldSkip 5 3 (fldSkip 0 5 (fldSelf _)))))))))⟩

/-- Fields of a word in pieces of 1, 5, 3, 5, 5, 1, 4, 6, 2 bits. -/
theorem fields42 (x0 : BitVec 1) (x1 : BitVec 5) (x2 : BitVec 3) (x3 : BitVec 5) (x4 : BitVec 5) (x5 : BitVec 1) (x6 : BitVec 4) (x7 : BitVec 6) (x8 : BitVec 2) :
    ∃ w : BitVec 32, w = x0 ++ x1 ++ x2 ++ x3 ++ x4 ++ x5 ++ x6 ++ x7 ++ x8 ∧
      fld w 0 2 = x8 ∧ fld w 2 6 = x7 ∧ fld w 8 4 = x6 ∧ fld w 12 1 = x5 ∧ fld w 13 5 = x4 ∧ fld w 18 5 = x3 ∧ fld w 23 3 = x2 ∧ fld w 26 5 = x1 ∧ fld w 31 1 = x0 :=
  ⟨_, rfl, fldHere _ _,
    fldSkip 0 2 (fldHere _ _),
    fldSkip 6 2 (fldSkip 0 6 (fldHere _ _)),
    fldSkip 10 2 (fldSkip 4 6 (fldSkip 0 4 (fldHere _ _))),
    fldSkip 11 2 (fldSkip 5 6 (fldSkip 1 4 (fldSkip 0 1 (fldHere _ _)))),
    fldSkip 16 2 (fldSkip 10 6 (fldSkip 6 4 (fldSkip 5 1 (fldSkip 0 5 (fldHere _ _))))),
    fldSkip 21 2 (fldSkip 15 6 (fldSkip 11 4 (fldSkip 10 1 (fldSkip 5 5 (fldSkip 0 5 (fldHere _ _)))))),
    fldSkip 24 2 (fldSkip 18 6 (fldSkip 14 4 (fldSkip 13 1 (fldSkip 8 5 (fldSkip 3 5 (fldSkip 0 3 (fldHere _ _))))))),
    fldSkip 29 2 (fldSkip 23 6 (fldSkip 19 4 (fldSkip 18 1 (fldSkip 13 5 (fldSkip 8 5 (fldSkip 5 3 (fldSkip 0 5 (fldSelf _))))))))⟩

/-- Fields of a word in pieces of 1, 5, 3, 5, 1, 4, 5, 6, 2 bits. -/
theorem fields43 (x0 : BitVec 1) (x1 : BitVec 5) (x2 : BitVec 3) (x3 : BitVec 5) (x4 : BitVec 1) (x5 : BitVec 4) (x6 : BitVec 5) (x7 : BitVec 6) (x8 : BitVec 2) :
    ∃ w : BitVec 32, w = x0 ++ x1 ++ x2 ++ x3 ++ x4 ++ x5 ++ x6 ++ x7 ++ x8 ∧
      fld w 0 2 = x8 ∧ fld w 2 6 = x7 ∧ fld w 8 5 = x6 ∧ fld w 13 4 = x5 ∧ fld w 17 1 = x4 ∧ fld w 18 5 = x3 ∧ fld w 23 3 = x2 ∧ fld w 26 5 = x1 ∧ fld w 31 1 = x0 :=
  ⟨_, rfl, fldHere _ _,
    fldSkip 0 2 (fldHere _ _),
    fldSkip 6 2 (fldSkip 0 6 (fldHere _ _)),
    fldSkip 11 2 (fldSkip 5 6 (fldSkip 0 5 (fldHere _ _))),
    fldSkip 15 2 (fldSkip 9 6 (fldSkip 4 5 (fldSkip 0 4 (fldHere _ _)))),
    fldSkip 16 2 (fldSkip 10 6 (fldSkip 5 5 (fldSkip 1 4 (fldSkip 0 1 (fldHere _ _))))),
    fldSkip 21 2 (fldSkip 15 6 (fldSkip 10 5 (fldSkip 6 4 (fldSkip 5 1 (fldSkip 0 5 (fldHere _ _)))))),
    fldSkip 24 2 (fldSkip 18 6 (fldSkip 13 5 (fldSkip 9 4 (fldSkip 8 1 (fldSkip 3 5 (fldSkip 0 3 (fldHere _ _))))))),
    fldSkip 29 2 (fldSkip 23 6 (fldSkip 18 5 (fldSkip 14 4 (fldSkip 13 1 (fldSkip 8 5 (fldSkip 5 3 (fldSkip 0 5 (fldSelf _))))))))⟩

/-- Fields of a word in pieces of 1, 5, 3, 2, 3, 1, 4, 5, 6, 2 bits. -/
theorem fields44 (x0 : BitVec 1) (x1 : BitVec 5) (x2 : BitVec 3) (x3 : BitVec 2) (x4 : BitVec 3) (x5 : BitVec 1) (x6 : BitVec 4) (x7 : BitVec 5) (x8 : BitVec 6) (x9 : BitVec 2) :
    ∃ w : BitVec 32, w = x0 ++ x1 ++ x2 ++ x3 ++ x4 ++ x5 ++ x6 ++ x7 ++ x8 ++ x9 ∧
      fld w 0 2 = x9 ∧ fld w 2 6 = x8 ∧ fld w 8 5 = x7 ∧ fld w 13 4 = x6 ∧ fld w 17 1 = x5 ∧ fld w 18 3 = x4 ∧ fld w 21 2 = x3 ∧ fld w 23 3 = x2 ∧ fld w 26 5 = x1 ∧ fld w 31 1 = x0 :=
  ⟨_, rfl, fldHere _ _,
    fldSkip 0 2 (fldHere _ _),
    fldSkip 6 2 (fldSkip 0 6 (fldHere _ _)),
    fldSkip 11 2 (fldSkip 5 6 (fldSkip 0 5 (fldHere _ _))),
    fldSkip 15 2 (fldSkip 9 6 (fldSkip 4 5 (fldSkip 0 4 (fldHere _ _)))),
    fldSkip 16 2 (fldSkip 10 6 (fldSkip 5 5 (fldSkip 1 4 (fldSkip 0 1 (fldHere _ _))))),
    fldSkip 19 2 (fldSkip 13 6 (fldSkip 8 5 (fldSkip 4 4 (fldSkip 3 1 (fldSkip 0 3 (fldHere _ _)))))),
    fldSkip 21 2 (fldSkip 15 6 (fldSkip 10 5 (fldSkip 6 4 (fldSkip 5 1 (fldSkip 2 3 (fldSkip 0 2 (fldHere _ _))))))),
    fldSkip 24 2 (fldSkip 18 6 (fldSkip 13 5 (fldSkip 9 4 (fldSkip 8 1 (fldSkip 5 3 (fldSkip 3 2 (fldSkip 0 3 (fldHere _ _)))))))),
    fldSkip 29 2 (fldSkip 23 6 (fldSkip 18 5 (fldSkip 14 4 (fldSkip 13 1 (fldSkip 10 3 (fldSkip 8 2 (fldSkip 5 3 (fldSkip 0 5 (fldSelf _)))))))))⟩

/-- Fields of a word in pieces of 1, 5, 3, 5, 2, 3, 1, 4, 6, 2 bits. -/
theorem fields45 (x0 : BitVec 1) (x1 : BitVec 5) (x2 : BitVec 3) (x3 : BitVec 5) (x4 : BitVec 2) (x5 : BitVec 3) (x6 : BitVec 1) (x7 : BitVec 4) (x8 : BitVec 6) (x9 : BitVec 2) :
    ∃ w : BitVec 32, w = x0 ++ x1 ++ x2 ++ x3 ++ x4 ++ x5 ++ x6 ++ x7 ++ x8 ++ x9 ∧
      fld w 0 2 = x9 ∧ fld w 2 6 = x8 ∧ fld w 8 4 = x7 ∧ fld w 12 1 = x6 ∧ fld w 13 3 = x5 ∧ fld w 16 2 = x4 ∧ fld w 18 5 = x3 ∧ fld w 23 3 = x2 ∧ fld w 26 5 = x1 ∧ fld w 31 1 = x0 :=
  ⟨_, rfl, fldHere _ _,
    fldSkip 0 2 (fldHere _ _),
    fldSkip 6 2 (fldSkip 0 6 (fldHere _ _)),
    fldSkip 10 2 (fldSkip 4 6 (fldSkip 0 4 (fldHere _ _))),
    fldSkip 11 2 (fldSkip 5 6 (fldSkip 1 4 (fldSkip 0 1 (fldHere _ _)))),
    fldSkip 14 2 (fldSkip 8 6 (fldSkip 4 4 (fldSkip 3 1 (fldSkip 0 3 (fldHere _ _))))),
    fldSkip 16 2 (fldSkip 10 6 (fldSkip 6 4 (fldSkip 5 1 (fldSkip 2 3 (fldSkip 0 2 (fldHere _ _)))))),
    fldSkip 21 2 (fldSkip 15 6 (fldSkip 11 4 (fldSkip 10 1 (fldSkip 7 3 (fldSkip 5 2 (fldSkip 0 5 (fldHere _ _))))))),
    fldSkip 24 2 (fldSkip 18 6 (fldSkip 14 4 (fldSkip 13 1 (fldSkip 10 3 (fldSkip 8 2 (fldSkip 3 5 (fldSkip 0 3 (fldHere _ _)))))))),
    fldSkip 29 2 (fldSkip 23 6 (fldSkip 19 4 (fldSkip 18 1 (fldSkip 15 3 (fldSkip 13 2 (fldSkip 8 5 (fldSkip 5 3 (fldSkip 0 5 (fldSelf _)))))))))⟩

/-- Fields of a word in pieces of 3, 1, 5, 5, 2, 3, 1, 4, 6, 2 bits. -/
theorem fields46 (x0 : BitVec 3) (x1 : Bool) (x2 : BitVec 5) (x3 : BitVec 5) (x4 : BitVec 2) (x5 : BitVec 3) (x6 : BitVec 1) (x7 : BitVec 4) (x8 : BitVec 6) (x9 : BitVec 2) :
    ∃ w : BitVec 32, w = x0 ++ BitVec.ofBool x1 ++ x2 ++ x3 ++ x4 ++ x5 ++ x6 ++ x7 ++ x8 ++ x9 ∧
      fld w 0 2 = x9 ∧ fld w 2 6 = x8 ∧ fld w 8 4 = x7 ∧ fld w 12 1 = x6 ∧ fld w 13 3 = x5 ∧ fld w 16 2 = x4 ∧ fld w 18 5 = x3 ∧ fld w 23 5 = x2 ∧ w[28] = x1 ∧ fld w 29 3 = x0 :=
  ⟨_, rfl, fldHere _ _,
    fldSkip 0 2 (fldHere _ _),
    fldSkip 6 2 (fldSkip 0 6 (fldHere _ _)),
    fldSkip 10 2 (fldSkip 4 6 (fldSkip 0 4 (fldHere _ _))),
    fldSkip 11 2 (fldSkip 5 6 (fldSkip 1 4 (fldSkip 0 1 (fldHere _ _)))),
    fldSkip 14 2 (fldSkip 8 6 (fldSkip 4 4 (fldSkip 3 1 (fldSkip 0 3 (fldHere _ _))))),
    fldSkip 16 2 (fldSkip 10 6 (fldSkip 6 4 (fldSkip 5 1 (fldSkip 2 3 (fldSkip 0 2 (fldHere _ _)))))),
    fldSkip 21 2 (fldSkip 15 6 (fldSkip 11 4 (fldSkip 10 1 (fldSkip 7 3 (fldSkip 5 2 (fldSkip 0 5 (fldHere _ _))))))),
    bitSkip 26 2 (bitSkip 20 6 (bitSkip 16 4 (bitSkip 15 1 (bitSkip 12 3 (bitSkip 10 2 (bitSkip 5 5 (bitSkip 0 5 (bitHere _ _)))))))),
    fldSkip 27 2 (fldSkip 21 6 (fldSkip 17 4 (fldSkip 16 1 (fldSkip 13 3 (fldSkip 11 2 (fldSkip 6 5 (fldSkip 1 5 (fldSkip 0 1 (fldSelf _)))))))))⟩

/-- Fields of a word in pieces of 4, 5, 5, 2, 3, 1, 4, 6, 2 bits. -/
theorem fields47 (x0 : BitVec 4) (x1 : BitVec 5) (x2 : BitVec 5) (x3 : BitVec 2) (x4 : BitVec 3) (x5 : BitVec 1) (x6 : BitVec 4) (x7 : BitVec 6) (x8 : BitVec 2) :
    ∃ w : BitVec 32, w = x0 ++ x1 ++ x2 ++ x3 ++ x4 ++ x5 ++ x6 ++ x7 ++ x8 ∧
      fld w 0 2 = x8 ∧ fld w 2 6 = x7 ∧ fld w 8 4 = x6 ∧ fld w 12 1 = x5 ∧ fld w 13 3 = x4 ∧ fld w 16 2 = x3 ∧ fld w 18 5 = x2 ∧ fld w 23 5 = x1 ∧ fld w 28 4 = x0 :=
  ⟨_, rfl, fldHere _ _,
    fldSkip 0 2 (fldHere _ _),
    fldSkip 6 2 (fldSkip 0 6 (fldHere _ _)),
    fldSkip 10 2 (fldSkip 4 6 (fldSkip 0 4 (fldHere _ _))),
    fldSkip 11 2 (fldSkip 5 6 (fldSkip 1 4 (fldSkip 0 1 (fldHere _ _)))),
    fldSkip 14 2 (fldSkip 8 6 (fldSkip 4 4 (fldSkip 3 1 (fldSkip 0 3 (fldHere _ _))))),
    fldSkip 16 2 (fldSkip 10 6 (fldSkip 6 4 (fldSkip 5 1 (fldSkip 2 3 (fldSkip 0 2 (fldHere _ _)))))),
    fldSkip 21 2 (fldSkip 15 6 (fldSkip 11 4 (fldSkip 10 1 (fldSkip 7 3 (fldSkip 5 2 (fldSkip 0 5 (fldHere _ _))))))),
    fldSkip 26 2 (fldSkip 20 6 (fldSkip 16 4 (fldSkip 15 1 (fldSkip 12 3 (fldSkip 10 2 (fldSkip 5 5 (fldSkip 0 5 (fldSelf _))))))))⟩

/-- Fields of a word in pieces of 4, 5, 5, 1, 4, 1, 4, 6, 2 bits. -/
theorem fields48 (x0 : BitVec 4) (x1 : BitVec 5) (x2 : BitVec 5) (x3 : BitVec 1) (x4 : BitVec 4) (x5 : BitVec 1) (x6 : BitVec 4) (x7 : BitVec 6) (x8 : BitVec 2) :
    ∃ w : BitVec 32, w = x0 ++ x1 ++ x2 ++ x3 ++ x4 ++ x5 ++ x6 ++ x7 ++ x8 ∧
      fld w 0 2 = x8 ∧ fld w 2 6 = x7 ∧ fld w 8 4 = x6 ∧ fld w 12 1 = x5 ∧ fld w 13 4 = x4 ∧ fld w 17 1 = x3 ∧ fld w 18 5 = x2 ∧ fld w 23 5 = x1 ∧ fld w 28 4 = x0 :=
  ⟨_, rfl, fldHere _ _,
    fldSkip 0 2 (fldHere _ _),
    fldSkip 6 2 (fldSkip 0 6 (fldHere _ _)),
    fldSkip 10 2 (fldSkip 4 6 (fldSkip 0 4 (fldHere _ _))),
    fldSkip 11 2 (fldSkip 5 6 (fldSkip 1 4 (fldSkip 0 1 (fldHere _ _)))),
    fldSkip 15 2 (fldSkip 9 6 (fldSkip 5 4 (fldSkip 4 1 (fldSkip 0 4 (fldHere _ _))))),
    fldSkip 16 2 (fldSkip 10 6 (fldSkip 6 4 (fldSkip 5 1 (fldSkip 1 4 (fldSkip 0 1 (fldHere _ _)))))),
    fldSkip 21 2 (fldSkip 15 6 (fldSkip 11 4 (fldSkip 10 1 (fldSkip 6 4 (fldSkip 5 1 (fldSkip 0 5 (fldHere _ _))))))),
    fldSkip 26 2 (fldSkip 20 6 (fldSkip 16 4 (fldSkip 15 1 (fldSkip 11 4 (fldSkip 10 1 (fldSkip 5 5 (fldSkip 0 5 (fldSelf _))))))))⟩

/-- Fields of a word in pieces of 4, 5, 5, 1, 4, 2, 3, 6, 2 bits. -/
theorem fields49 (x0 : BitVec 4) (x1 : BitVec 5) (x2 : BitVec 5) (x3 : BitVec 1) (x4 : BitVec 4) (x5 : BitVec 2) (x6 : BitVec 3) (x7 : BitVec 6) (x8 : BitVec 2) :
    ∃ w : BitVec 32, w = x0 ++ x1 ++ x2 ++ x3 ++ x4 ++ x5 ++ x6 ++ x7 ++ x8 ∧
      fld w 0 2 = x8 ∧ fld w 2 6 = x7 ∧ fld w 8 3 = x6 ∧ fld w 11 2 = x5 ∧ fld w 13 4 = x4 ∧ fld w 17 1 = x3 ∧ fld w 18 5 = x2 ∧ fld w 23 5 = x1 ∧ fld w 28 4 = x0 :=
  ⟨_, rfl, fldHere _ _,
    fldSkip 0 2 (fldHere _ _),
    fldSkip 6 2 (fldSkip 0 6 (fldHere _ _)),
    fldSkip 9 2 (fldSkip 3 6 (fldSkip 0 3 (fldHere _ _))),
    fldSkip 11 2 (fldSkip 5 6 (fldSkip 2 3 (fldSkip 0 2 (fldHere _ _)))),
    fldSkip 15 2 (fldSkip 9 6 (fldSkip 6 3 (fldSkip 4 2 (fldSkip 0 4 (fldHere _ _))))),
    fldSkip 16 2 (fldSkip 10 6 (fldSkip 7 3 (fldSkip 5 2 (fldSkip 1 4 (fldSkip 0 1 (fldHere _ _)))))),
    fldSkip 21 2 (fldSkip 15 6 (fldSkip 12 3 (fldSkip 10 2 (fldSkip 6 4 (fldSkip 5 1 (fldSkip 0 5 (fldHere _ _))))))),
    fldSkip 26 2 (fldSkip 20 6 (fldSkip 17 3 (fldSkip 15 2 (fldSkip 11 4 (fldSkip 10 1 (fldSkip 5 5 (fldSkip 0 5 (fldSelf _))))))))⟩

/-- Fields of a word in pieces of 3, 1, 5, 5, 5, 2, 3, 6, 2 bits. -/
theorem fields50 (x0 : BitVec 3) (x1 : Bool) (x2 : BitVec 5) (x3 : BitVec 5) (x4 : BitVec 5) (x5 : BitVec 2) (x6 : BitVec 3) (x7 : BitVec 6) (x8 : BitVec 2) :
    ∃ w : BitVec 32, w = x0 ++ BitVec.ofBool x1 ++ x2 ++ x3 ++ x4 ++ x5 ++ x6 ++ x7 ++ x8 ∧
      fld w 0 2 = x8 ∧ fld w 2 6 = x7 ∧ fld w 8 3 = x6 ∧ fld w 11 2 = x5 ∧ fld w 13 5 = x4 ∧ fld w 18 5 = x3 ∧ fld w 23 5 = x2 ∧ w[28] = x1 ∧ fld w 29 3 = x0 :=
  ⟨_, rfl, fldHere _ _,
    fldSkip 0 2 (fldHere _ _),
    fldSkip 6 2 (fldSkip 0 6 (fldHere _ _)),
    fldSkip 9 2 (fldSkip 3 6 (fldSkip 0 3 (fldHere _ _))),
    fldSkip 11 2 (fldSkip 5 6 (fldSkip 2 3 (fldSkip 0 2 (fldHere _ _)))),
    fldSkip 16 2 (fldSkip 10 6 (fldSkip 7 3 (fldSkip 5 2 (fldSkip 0 5 (fldHere _ _))))),
    fldSkip 21 2 (fldSkip 15 6 (fldSkip 12 3 (fldSkip 10 2 (fldSkip 5 5 (fldSkip 0 5 (fldHere _ _)))))),
    bitSkip 26 2 (bitSkip 20 6 (bitSkip 17 3 (bitSkip 15 2 (bitSkip 10 5 (bitSkip 5 5 (bitSkip 0 5 (bitHere _ _))))))),
    fldSkip 27 2 (fldSkip 21 6 (fldSkip 18 3 (fldSkip 16 2 (fldSkip 11 5 (fldSkip 6 5 (fldSkip 1 5 (fldSkip 0 1 (fldSelf _))))))))⟩

/-- Fields of a word in pieces of 4, 5, 6, 1, 1, 4, 3, 6, 2 bits. -/
theorem fields51 (x0 : BitVec 4) (x1 : BitVec 5) (x2 : BitVec 6) (x3 : Bool) (x4 : Bool) (x5 : BitVec 4) (x6 : BitVec 3) (x7 : BitVec 6) (x8 : BitVec 2) :
    ∃ w : BitVec 32, w = x0 ++ x1 ++ x2 ++ BitVec.ofBool x3 ++ BitVec.ofBool x4 ++ x5 ++ x6 ++ x7 ++ x8 ∧
      fld w 0 2 = x8 ∧ fld w 2 6 = x7 ∧ fld w 8 3 = x6 ∧ fld w 11 4 = x5 ∧ w[15] = x4 ∧ w[16] = x3 ∧ fld w 17 6 = x2 ∧ fld w 23 5 = x1 ∧ fld w 28 4 = x0 :=
  ⟨_, rfl, fldHere _ _,
    fldSkip 0 2 (fldHere _ _),
    fldSkip 6 2 (fldSkip 0 6 (fldHere _ _)),
    fldSkip 9 2 (fldSkip 3 6 (fldSkip 0 3 (fldHere _ _))),
    bitSkip 13 2 (bitSkip 7 6 (bitSkip 4 3 (bitSkip 0 4 (bitHere _ _)))),
    bitSkip 14 2 (bitSkip 8 6 (bitSkip 5 3 (bitSkip 1 4 (bitSkip 0 1 (bitHere _ _))))),
    fldSkip 15 2 (fldSkip 9 6 (fldSkip 6 3 (fldSkip 2 4 (fldSkip 1 1 (fldSkip 0 1 (fldHere _ _)))))),
    fldSkip 21 2 (fldSkip 15 6 (fldSkip 12 3 (fldSkip 8 4 (fldSkip 7 1 (fldSkip 6 1 (fldSkip 0 6 (fldHere _ _))))))),
    fldSkip 26 2 (fldSkip 20 6 (fldSkip 17 3 (fldSkip 13 4 (fldSkip 12 1 (fldSkip 11 1 (fldSkip 5 6 (fldSkip 0 5 (fldSelf _))))))))⟩

/-- Fields of a word in pieces of 2, 4, 4, 4, 2 bits. -/
theorem fields52 (x0 : BitVec 2) (x1 : BitVec 4) (x2 : BitVec 4) (x3 : BitVec 4) (x4 : BitVec 2) :
    ∃ w : BitVec 16, w = x0 ++ x1 ++ x2 ++ x3 ++ x4 ∧
      fld w 0 2 = x4 ∧ fld w 2 4 = x3 ∧ fld w 6 4 = x2 ∧ fld w 10 4 = x1 ∧ fld w 14 2 = x0 :=
  ⟨_, rfl, fldHere _ _,
    fldSkip 0 2 (fldHere _ _),
    fldSkip 4 2 (fldSkip 0 4 (fldHere _ _)),
    fldSkip 8 2 (fldSkip 4 4 (fldSkip 0 4 (fldHere _ _))),
    fldSkip 12 2 (fldSkip 8 4 (fldSkip 4 4 (fldSkip 0 4 (fldSelf _))))⟩

/-- Fields of a word in pieces of 10, 4, 2 bits. -/
theorem fields53 (x0 : BitVec 10) (x1 : BitVec 4) (x2 : BitVec 2) :
    ∃ w : BitVec 16, w = x0 ++ x1 ++ x2 ∧
      fld w 0 2 = x2 ∧ fld w 2 4 = x1 ∧ fld w 6 10 = x0 :=
  ⟨_, rfl, fldHere _ _,
    fldSkip 0 2 (fldHere _ _),
    fldSkip 4 2 (fldSkip 0 4 (fldSelf _))⟩

/-- Fields of a word in pieces of 6, 4, 4, 2 bits. -/
theorem fields54 (x0 : BitVec 6) (x1 : BitVec 4) (x2 : BitVec 4) (x3 : BitVec 2) :
    ∃ w : BitVec 16, w = x0 ++ x1 ++ x2 ++ x3 ∧
      fld w 0 2 = x3 ∧ fld w 2 4 = x2 ∧ fld w 6 4 = x1 ∧ fld w 10 6 = x0 :=
  ⟨_, rfl, fldHere _ _,
    fldSkip 0 2 (fldHere _ _),
    fldSkip 4 2 (fldSkip 0 4 (fldHere _ _)),
    fldSkip 8 2 (fldSkip 4 4 (fldSkip 0 4 (fldSelf _)))⟩

/-! ## The constructors -/

theorem RoundTrip.add (d : Dst) (a : Src) (b : Src) : RoundTrip.Statement (.add d a b) := by
  obtain ⟨w, hw, h0, hm, h8, h13, h18, h23, h28⟩ := fields1 0#4 0#5 b.bits a.bits d.bits 1#6 2#2
  refine wordRT h0 ?_ (hw ▸ rfl)
  rw [decodeFields, hm]; change decIalu w = _; rw [decIalu, h23]
  simp [h8, h13, h18, h28]

theorem RoundTrip.sub (d : Dst) (a : Src) (b : Src) : RoundTrip.Statement (.sub d a b) := by
  obtain ⟨w, hw, h0, hm, h8, h13, h18, h23, h28⟩ := fields1 0#4 1#5 b.bits a.bits d.bits 1#6 2#2
  refine wordRT h0 ?_ (hw ▸ rfl)
  rw [decodeFields, hm]; change decIalu w = _; rw [decIalu, h23]
  simp [h8, h13, h18, h28]

theorem RoundTrip.mul (d : Dst) (a : Src) (b : Src) : RoundTrip.Statement (.mul d a b) := by
  obtain ⟨w, hw, h0, hm, h8, h13, h18, h23, h28⟩ := fields1 0#4 2#5 b.bits a.bits d.bits 1#6 2#2
  refine wordRT h0 ?_ (hw ▸ rfl)
  rw [decodeFields, hm]; change decIalu w = _; rw [decIalu, h23]
  simp [h8, h13, h18, h28]

theorem RoundTrip.mulh (d : Dst) (a : Src) (b : Src) : RoundTrip.Statement (.mulh d a b) := by
  obtain ⟨w, hw, h0, hm, h8, h13, h18, h23, h28⟩ := fields1 0#4 3#5 b.bits a.bits d.bits 1#6 2#2
  refine wordRT h0 ?_ (hw ▸ rfl)
  rw [decodeFields, hm]; change decIalu w = _; rw [decIalu, h23]
  simp [h8, h13, h18, h28]

theorem RoundTrip.mulhu (d : Dst) (a : Src) (b : Src) : RoundTrip.Statement (.mulhu d a b) := by
  obtain ⟨w, hw, h0, hm, h8, h13, h18, h23, h28⟩ := fields1 0#4 4#5 b.bits a.bits d.bits 1#6 2#2
  refine wordRT h0 ?_ (hw ▸ rfl)
  rw [decodeFields, hm]; change decIalu w = _; rw [decIalu, h23]
  simp [h8, h13, h18, h28]

theorem RoundTrip.div (d : Dst) (a : Src) (b : Src) : RoundTrip.Statement (.div d a b) := by
  obtain ⟨w, hw, h0, hm, h8, h13, h18, h23, h28⟩ := fields1 0#4 5#5 b.bits a.bits d.bits 1#6 2#2
  refine wordRT h0 ?_ (hw ▸ rfl)
  rw [decodeFields, hm]; change decIalu w = _; rw [decIalu, h23]
  simp [h8, h13, h18, h28]

theorem RoundTrip.divu (d : Dst) (a : Src) (b : Src) : RoundTrip.Statement (.divu d a b) := by
  obtain ⟨w, hw, h0, hm, h8, h13, h18, h23, h28⟩ := fields1 0#4 6#5 b.bits a.bits d.bits 1#6 2#2
  refine wordRT h0 ?_ (hw ▸ rfl)
  rw [decodeFields, hm]; change decIalu w = _; rw [decIalu, h23]
  simp [h8, h13, h18, h28]

theorem RoundTrip.rem (d : Dst) (a : Src) (b : Src) : RoundTrip.Statement (.rem d a b) := by
  obtain ⟨w, hw, h0, hm, h8, h13, h18, h23, h28⟩ := fields1 0#4 7#5 b.bits a.bits d.bits 1#6 2#2
  refine wordRT h0 ?_ (hw ▸ rfl)
  rw [decodeFields, hm]; change decIalu w = _; rw [decIalu, h23]
  simp [h8, h13, h18, h28]

theorem RoundTrip.remu (d : Dst) (a : Src) (b : Src) : RoundTrip.Statement (.remu d a b) := by
  obtain ⟨w, hw, h0, hm, h8, h13, h18, h23, h28⟩ := fields1 0#4 8#5 b.bits a.bits d.bits 1#6 2#2
  refine wordRT h0 ?_ (hw ▸ rfl)
  rw [decodeFields, hm]; change decIalu w = _; rw [decIalu, h23]
  simp [h8, h13, h18, h28]

theorem RoundTrip.and (d : Dst) (a : Src) (b : Src) : RoundTrip.Statement (.and d a b) := by
  obtain ⟨w, hw, h0, hm, h8, h13, h18, h23, h28⟩ := fields1 0#4 9#5 b.bits a.bits d.bits 1#6 2#2
  refine wordRT h0 ?_ (hw ▸ rfl)
  rw [decodeFields, hm]; change decIalu w = _; rw [decIalu, h23]
  simp [h8, h13, h18, h28]

theorem RoundTrip.or (d : Dst) (a : Src) (b : Src) : RoundTrip.Statement (.or d a b) := by
  obtain ⟨w, hw, h0, hm, h8, h13, h18, h23, h28⟩ := fields1 0#4 10#5 b.bits a.bits d.bits 1#6 2#2
  refine wordRT h0 ?_ (hw ▸ rfl)
  rw [decodeFields, hm]; change decIalu w = _; rw [decIalu, h23]
  simp [h8, h13, h18, h28]

theorem RoundTrip.xor (d : Dst) (a : Src) (b : Src) : RoundTrip.Statement (.xor d a b) := by
  obtain ⟨w, hw, h0, hm, h8, h13, h18, h23, h28⟩ := fields1 0#4 11#5 b.bits a.bits d.bits 1#6 2#2
  refine wordRT h0 ?_ (hw ▸ rfl)
  rw [decodeFields, hm]; change decIalu w = _; rw [decIalu, h23]
  simp [h8, h13, h18, h28]

theorem RoundTrip.andn (d : Dst) (a : Src) (b : Src) : RoundTrip.Statement (.andn d a b) := by
  obtain ⟨w, hw, h0, hm, h8, h13, h18, h23, h28⟩ := fields1 0#4 12#5 b.bits a.bits d.bits 1#6 2#2
  refine wordRT h0 ?_ (hw ▸ rfl)
  rw [decodeFields, hm]; change decIalu w = _; rw [decIalu, h23]
  simp [h8, h13, h18, h28]

theorem RoundTrip.shl (d : Dst) (a : Src) (b : Src) : RoundTrip.Statement (.shl d a b) := by
  obtain ⟨w, hw, h0, hm, h8, h13, h18, h23, h28⟩ := fields1 0#4 13#5 b.bits a.bits d.bits 1#6 2#2
  refine wordRT h0 ?_ (hw ▸ rfl)
  rw [decodeFields, hm]; change decIalu w = _; rw [decIalu, h23]
  simp [h8, h13, h18, h28]

theorem RoundTrip.shr (d : Dst) (a : Src) (b : Src) : RoundTrip.Statement (.shr d a b) := by
  obtain ⟨w, hw, h0, hm, h8, h13, h18, h23, h28⟩ := fields1 0#4 14#5 b.bits a.bits d.bits 1#6 2#2
  refine wordRT h0 ?_ (hw ▸ rfl)
  rw [decodeFields, hm]; change decIalu w = _; rw [decIalu, h23]
  simp [h8, h13, h18, h28]

theorem RoundTrip.sra (d : Dst) (a : Src) (b : Src) : RoundTrip.Statement (.sra d a b) := by
  obtain ⟨w, hw, h0, hm, h8, h13, h18, h23, h28⟩ := fields1 0#4 15#5 b.bits a.bits d.bits 1#6 2#2
  refine wordRT h0 ?_ (hw ▸ rfl)
  rw [decodeFields, hm]; change decIalu w = _; rw [decIalu, h23]
  simp [h8, h13, h18, h28]

theorem RoundTrip.rol (d : Dst) (a : Src) (b : Src) : RoundTrip.Statement (.rol d a b) := by
  obtain ⟨w, hw, h0, hm, h8, h13, h18, h23, h28⟩ := fields1 0#4 16#5 b.bits a.bits d.bits 1#6 2#2
  refine wordRT h0 ?_ (hw ▸ rfl)
  rw [decodeFields, hm]; change decIalu w = _; rw [decIalu, h23]
  simp [h8, h13, h18, h28]

theorem RoundTrip.min (d : Dst) (a : Src) (b : Src) : RoundTrip.Statement (.min d a b) := by
  obtain ⟨w, hw, h0, hm, h8, h13, h18, h23, h28⟩ := fields1 0#4 17#5 b.bits a.bits d.bits 1#6 2#2
  refine wordRT h0 ?_ (hw ▸ rfl)
  rw [decodeFields, hm]; change decIalu w = _; rw [decIalu, h23]
  simp [h8, h13, h18, h28]

theorem RoundTrip.max (d : Dst) (a : Src) (b : Src) : RoundTrip.Statement (.max d a b) := by
  obtain ⟨w, hw, h0, hm, h8, h13, h18, h23, h28⟩ := fields1 0#4 18#5 b.bits a.bits d.bits 1#6 2#2
  refine wordRT h0 ?_ (hw ▸ rfl)
  rw [decodeFields, hm]; change decIalu w = _; rw [decIalu, h23]
  simp [h8, h13, h18, h28]

theorem RoundTrip.minu (d : Dst) (a : Src) (b : Src) : RoundTrip.Statement (.minu d a b) := by
  obtain ⟨w, hw, h0, hm, h8, h13, h18, h23, h28⟩ := fields1 0#4 19#5 b.bits a.bits d.bits 1#6 2#2
  refine wordRT h0 ?_ (hw ▸ rfl)
  rw [decodeFields, hm]; change decIalu w = _; rw [decIalu, h23]
  simp [h8, h13, h18, h28]

theorem RoundTrip.maxu (d : Dst) (a : Src) (b : Src) : RoundTrip.Statement (.maxu d a b) := by
  obtain ⟨w, hw, h0, hm, h8, h13, h18, h23, h28⟩ := fields1 0#4 20#5 b.bits a.bits d.bits 1#6 2#2
  refine wordRT h0 ?_ (hw ▸ rfl)
  rw [decodeFields, hm]; change decIalu w = _; rw [decIalu, h23]
  simp [h8, h13, h18, h28]

theorem RoundTrip.slt (d : Dst) (a : Src) (b : Src) : RoundTrip.Statement (.slt d a b) := by
  obtain ⟨w, hw, h0, hm, h8, h13, h18, h23, h28⟩ := fields1 0#4 21#5 b.bits a.bits d.bits 1#6 2#2
  refine wordRT h0 ?_ (hw ▸ rfl)
  rw [decodeFields, hm]; change decIalu w = _; rw [decIalu, h23]
  simp [h8, h13, h18, h28]

theorem RoundTrip.sltu (d : Dst) (a : Src) (b : Src) : RoundTrip.Statement (.sltu d a b) := by
  obtain ⟨w, hw, h0, hm, h8, h13, h18, h23, h28⟩ := fields1 0#4 22#5 b.bits a.bits d.bits 1#6 2#2
  refine wordRT h0 ?_ (hw ▸ rfl)
  rw [decodeFields, hm]; change decIalu w = _; rw [decIalu, h23]
  simp [h8, h13, h18, h28]

theorem RoundTrip.seq (d : Dst) (a : Src) (b : Src) : RoundTrip.Statement (.seq d a b) := by
  obtain ⟨w, hw, h0, hm, h8, h13, h18, h23, h28⟩ := fields1 0#4 23#5 b.bits a.bits d.bits 1#6 2#2
  refine wordRT h0 ?_ (hw ▸ rfl)
  rw [decodeFields, hm]; change decIalu w = _; rw [decIalu, h23]
  simp [h8, h13, h18, h28]

theorem RoundTrip.sne (d : Dst) (a : Src) (b : Src) : RoundTrip.Statement (.sne d a b) := by
  obtain ⟨w, hw, h0, hm, h8, h13, h18, h23, h28⟩ := fields1 0#4 24#5 b.bits a.bits d.bits 1#6 2#2
  refine wordRT h0 ?_ (hw ▸ rfl)
  rw [decodeFields, hm]; change decIalu w = _; rw [decIalu, h23]
  simp [h8, h13, h18, h28]

theorem RoundTrip.clz (d : Dst) (a : Src) : RoundTrip.Statement (.clz d a) := by
  obtain ⟨w, hw, h0, hm, h8, h13, h18, h23, h28⟩ := fields1 0#4 25#5 0#5 a.bits d.bits 1#6 2#2
  refine wordRT h0 ?_ (hw ▸ rfl)
  rw [decodeFields, hm]; change decIalu w = _; rw [decIalu, h23]
  simp [h8, h13, h18, h28]

theorem RoundTrip.ctz (d : Dst) (a : Src) : RoundTrip.Statement (.ctz d a) := by
  obtain ⟨w, hw, h0, hm, h8, h13, h18, h23, h28⟩ := fields1 0#4 26#5 0#5 a.bits d.bits 1#6 2#2
  refine wordRT h0 ?_ (hw ▸ rfl)
  rw [decodeFields, hm]; change decIalu w = _; rw [decIalu, h23]
  simp [h8, h13, h18, h28]

theorem RoundTrip.popc (d : Dst) (a : Src) : RoundTrip.Statement (.popc d a) := by
  obtain ⟨w, hw, h0, hm, h8, h13, h18, h23, h28⟩ := fields1 0#4 27#5 0#5 a.bits d.bits 1#6 2#2
  refine wordRT h0 ?_ (hw ▸ rfl)
  rw [decodeFields, hm]; change decIalu w = _; rw [decIalu, h23]
  simp [h8, h13, h18, h28]

theorem RoundTrip.brev (d : Dst) (a : Src) : RoundTrip.Statement (.brev d a) := by
  obtain ⟨w, hw, h0, hm, h8, h13, h18, h23, h28⟩ := fields1 0#4 28#5 0#5 a.bits d.bits 1#6 2#2
  refine wordRT h0 ?_ (hw ▸ rfl)
  rw [decodeFields, hm]; change decIalu w = _; rw [decIalu, h23]
  simp [h8, h13, h18, h28]

theorem RoundTrip.sext (d : Dst) (a : Src) (b : Src) : RoundTrip.Statement (.sext d a b) := by
  obtain ⟨w, hw, h0, hm, h8, h13, h18, h23, h28⟩ := fields1 0#4 29#5 b.bits a.bits d.bits 1#6 2#2
  refine wordRT h0 ?_ (hw ▸ rfl)
  rw [decodeFields, hm]; change decIalu w = _; rw [decIalu, h23]
  simp [h8, h13, h18, h28]

theorem RoundTrip.zext (d : Dst) (a : Src) (b : Src) : RoundTrip.Statement (.zext d a b) := by
  obtain ⟨w, hw, h0, hm, h8, h13, h18, h23, h28⟩ := fields1 0#4 30#5 b.bits a.bits d.bits 1#6 2#2
  refine wordRT h0 ?_ (hw ▸ rfl)
  rw [decodeFields, hm]; change decIalu w = _; rw [decIalu, h23]
  simp [h8, h13, h18, h28]

theorem RoundTrip.sel (d : Dst) (a : Src) (b : Src) (c : BitVec 4) : RoundTrip.Statement (.sel d a b c) := by
  obtain ⟨w, hw, h0, hm, h8, h13, h18, h23, h28⟩ := fields1 c 31#5 b.bits a.bits d.bits 1#6 2#2
  refine wordRT h0 ?_ (hw ▸ rfl)
  rw [decodeFields, hm]; change decIalu w = _; rw [decIalu, h23]
  simp [h8, h13, h18, h28]

theorem RoundTrip.addi (d : Dst) (a : Src) (imm : BitVec 11) : RoundTrip.Statement (.addi d a imm) := by
  obtain ⟨w, hw, h0, hm, h8, h13, h18, h21⟩ := fields2 imm 0#3 a.bits d.bits 2#6 2#2
  refine wordRT h0 ?_ (hw ▸ rfl)
  rw [decodeFields, hm]; change decIimm w = _; rw [decIimm, h18]
  simp [h8, h13, h21]

theorem RoundTrip.andi (d : Dst) (a : Src) (imm : BitVec 11) : RoundTrip.Statement (.andi d a imm) := by
  obtain ⟨w, hw, h0, hm, h8, h13, h18, h21⟩ := fields2 imm 1#3 a.bits d.bits 2#6 2#2
  refine wordRT h0 ?_ (hw ▸ rfl)
  rw [decodeFields, hm]; change decIimm w = _; rw [decIimm, h18]
  simp [h8, h13, h21]

theorem RoundTrip.ori (d : Dst) (a : Src) (imm : BitVec 11) : RoundTrip.Statement (.ori d a imm) := by
  obtain ⟨w, hw, h0, hm, h8, h13, h18, h21⟩ := fields2 imm 2#3 a.bits d.bits 2#6 2#2
  refine wordRT h0 ?_ (hw ▸ rfl)
  rw [decodeFields, hm]; change decIimm w = _; rw [decIimm, h18]
  simp [h8, h13, h21]

theorem RoundTrip.xori (d : Dst) (a : Src) (imm : BitVec 11) : RoundTrip.Statement (.xori d a imm) := by
  obtain ⟨w, hw, h0, hm, h8, h13, h18, h21⟩ := fields2 imm 3#3 a.bits d.bits 2#6 2#2
  refine wordRT h0 ?_ (hw ▸ rfl)
  rw [decodeFields, hm]; change decIimm w = _; rw [decIimm, h18]
  simp [h8, h13, h21]

theorem RoundTrip.shli (d : Dst) (a : Src) (imm : BitVec 11) : RoundTrip.Statement (.shli d a imm) := by
  obtain ⟨w, hw, h0, hm, h8, h13, h18, h21⟩ := fields2 imm 4#3 a.bits d.bits 2#6 2#2
  refine wordRT h0 ?_ (hw ▸ rfl)
  rw [decodeFields, hm]; change decIimm w = _; rw [decIimm, h18]
  simp [h8, h13, h21]

theorem RoundTrip.shri (d : Dst) (a : Src) (imm : BitVec 11) : RoundTrip.Statement (.shri d a imm) := by
  obtain ⟨w, hw, h0, hm, h8, h13, h18, h21⟩ := fields2 imm 5#3 a.bits d.bits 2#6 2#2
  refine wordRT h0 ?_ (hw ▸ rfl)
  rw [decodeFields, hm]; change decIimm w = _; rw [decIimm, h18]
  simp [h8, h13, h21]

theorem RoundTrip.srai (d : Dst) (a : Src) (imm : BitVec 11) : RoundTrip.Statement (.srai d a imm) := by
  obtain ⟨w, hw, h0, hm, h8, h13, h18, h21⟩ := fields2 imm 6#3 a.bits d.bits 2#6 2#2
  refine wordRT h0 ?_ (hw ▸ rfl)
  rw [decodeFields, hm]; change decIimm w = _; rw [decIimm, h18]
  simp [h8, h13, h21]

theorem RoundTrip.slti (d : Dst) (a : Src) (imm : BitVec 11) : RoundTrip.Statement (.slti d a imm) := by
  obtain ⟨w, hw, h0, hm, h8, h13, h18, h21⟩ := fields2 imm 7#3 a.bits d.bits 2#6 2#2
  refine wordRT h0 ?_ (hw ▸ rfl)
  rw [decodeFields, hm]; change decIimm w = _; rw [decIimm, h18]
  simp [h8, h13, h21]

theorem RoundTrip.li (d : Dst) (imm : BitVec 19) : RoundTrip.Statement (.li d imm) := by
  obtain ⟨w, hw, h0, hm, h8, h13⟩ := fields3 imm d.bits 3#6 2#2
  refine wordRT h0 ?_ (hw ▸ rfl)
  rw [decodeFields, hm]; change decLi w = _; rw [decLi]
  simp [h8, h13]

theorem RoundTrip.xset (x : BitVec 3) (imm : BitVec 16) (part : BitVec 2) :
    RoundTrip.Statement (.xset x imm part) := by
  obtain ⟨w, hw, h0, hm, h8, h11, h13, h16⟩ := fields4 imm 0#3 part x 4#6 2#2
  refine wordRT h0 ?_ (hw ▸ rfl)
  rw [decodeFields, hm]; change decXset w = _; rw [decXset]
  simp [h8, h11, h13, h16]

theorem RoundTrip.mov (d : Dst) (a : Src) : RoundTrip.Statement (.mov d a) := by
  obtain ⟨w, hw, h0, hm, h8, h13, h18, h23, h28⟩ := fields1 0#4 0#5 0#5 a.bits d.bits 5#6 2#2
  refine wordRT h0 ?_ (hw ▸ rfl)
  rw [decodeFields, hm]; change decMove w = _; rw [decMove, h23]
  simp [h8, h13, h18, h28]

theorem RoundTrip.xget (d : Dst) (x : BitVec 3) : RoundTrip.Statement (.xget d x) := by
  obtain ⟨w, hw, h0, hm, h8, h13, h16, h18, h23, h28⟩ := fields5 0#4 1#5 0#5 0#2 x d.bits 5#6 2#2
  refine wordRT h0 ?_ (hw ▸ rfl)
  rw [decodeFields, hm]; change decMove w = _; rw [decMove, h23]
  simp [h8, h13, h16, h18, h28]

theorem RoundTrip.xsetr (x : BitVec 3) (a : Src) : RoundTrip.Statement (.xsetr x a) := by
  obtain ⟨w, hw, h0, hm, h8, h11, h13, h18, h23, h28⟩ := fields6 0#4 2#5 0#5 a.bits 0#2 x 5#6 2#2
  refine wordRT h0 ?_ (hw ▸ rfl)
  rw [decodeFields, hm]; change decMove w = _; rw [decMove, h23]
  simp [h8, h11, h13, h18, h28]

theorem RoundTrip.nclr (n : BitVec 4) : RoundTrip.Statement (.nclr n) := by
  obtain ⟨w, hw, h0, hm, h8, h12, h13, h18, h23, h28⟩ := fields7 0#4 3#5 0#5 0#5 1#1 n 5#6 2#2
  refine wordRT h0 ?_ (hw ▸ rfl)
  rw [decodeFields, hm]; change decMove w = _; rw [decMove, h23]
  simp [h8, h12, h13, h18, h28]

theorem RoundTrip.nwr (dir : BitVec 2) (n : BitVec 4) (a : Src) (slot : BitVec 5) :
    RoundTrip.Statement (.nwr dir n a slot) := by
  obtain ⟨w, hw, h0, hm, h8, h12, h13, h18, h23, h28, h30⟩ := fields8 0#2 dir 4#5 slot a.bits 1#1 n 5#6 2#2
  refine wordRT h0 ?_ (hw ▸ rfl)
  rw [decodeFields, hm]; change decMove w = _; rw [decMove, h23]
  simp [h8, h12, h13, h18, h28, h30]

theorem RoundTrip.ntest (d : Dst) (n : BitVec 4) : RoundTrip.Statement (.ntest d n) := by
  obtain ⟨w, hw, h0, hm, h8, h13, h17, h18, h23, h28⟩ := fields9 0#4 5#5 0#5 1#1 n d.bits 5#6 2#2
  refine wordRT h0 ?_ (hw ▸ rfl)
  rw [decodeFields, hm]; change decMove w = _; rw [decMove, h23]
  simp [h8, h13, h17, h18, h28]

theorem RoundTrip.borrow (d : Dst) (a : Src) : RoundTrip.Statement (.borrow d a) := by
  obtain ⟨w, hw, h0, hm, h8, h13, h18, h23, h28⟩ := fields1 0#4 6#5 0#5 a.bits d.bits 5#6 2#2
  refine wordRT h0 ?_ (hw ▸ rfl)
  rw [decodeFields, hm]; change decMove w = _; rw [decMove, h23]
  simp [h8, h13, h18, h28]

theorem RoundTrip.brd (d : Dst) (n : BitVec 4) : RoundTrip.Statement (.brd d n) := by
  obtain ⟨w, hw, h0, hm, h8, h13, h17, h18, h23, h28⟩ := fields9 0#4 7#5 0#5 1#1 n d.bits 5#6 2#2
  refine wordRT h0 ?_ (hw ▸ rfl)
  rw [decodeFields, hm]; change decMove w = _; rw [decMove, h23]
  simp [h8, h13, h17, h18, h28]

theorem RoundTrip.bwr (n : BitVec 4) (a : Src) : RoundTrip.Statement (.bwr n a) := by
  obtain ⟨w, hw, h0, hm, h8, h12, h13, h18, h23, h28⟩ := fields7 0#4 8#5 0#5 a.bits 1#1 n 5#6 2#2
  refine wordRT h0 ?_ (hw ▸ rfl)
  rw [decodeFields, hm]; change decMove w = _; rw [decMove, h23]
  simp [h8, h12, h13, h18, h28]

theorem RoundTrip.bret : RoundTrip.Statement .bret := by
  obtain ⟨w, hw, h0, hm, h8, h13, h18, h23, h28⟩ := fields1 0#4 9#5 0#5 0#5 0#5 5#6 2#2
  refine wordRT h0 ?_ (hw ▸ rfl)
  rw [decodeFields, hm]; change decMove w = _; rw [decMove, h23]
  simp [h8, h13, h18, h28]

theorem RoundTrip.qsend (q : BitVec 3) (a : Src) : RoundTrip.Statement (.qsend q a) := by
  obtain ⟨w, hw, h0, hm, h8, h11, h13, h18, h23, h28⟩ := fields6 0#4 10#5 0#5 a.bits 0#2 q 5#6 2#2
  refine wordRT h0 ?_ (hw ▸ rfl)
  rw [decodeFields, hm]; change decMove w = _; rw [decMove, h23]
  simp [h8, h11, h13, h18, h28]

theorem RoundTrip.qrecv (d : Dst) (q : BitVec 3) : RoundTrip.Statement (.qrecv d q) := by
  obtain ⟨w, hw, h0, hm, h8, h13, h16, h18, h23, h28⟩ := fields5 0#4 11#5 0#5 0#2 q d.bits 5#6 2#2
  refine wordRT h0 ?_ (hw ▸ rfl)
  rw [decodeFields, hm]; change decMove w = _; rw [decMove, h23]
  simp [h8, h13, h16, h18, h28]

theorem RoundTrip.qstat (d : Dst) (q : BitVec 3) : RoundTrip.Statement (.qstat d q) := by
  obtain ⟨w, hw, h0, hm, h8, h13, h16, h18, h23, h28⟩ := fields5 0#4 12#5 0#5 0#2 q d.bits 5#6 2#2
  refine wordRT h0 ?_ (hw ▸ rfl)
  rw [decodeFields, hm]; change decMove w = _; rw [decMove, h23]
  simp [h8, h13, h16, h18, h28]

theorem RoundTrip.rng (d : Dst) : RoundTrip.Statement (.rng d) := by
  obtain ⟨w, hw, h0, hm, h8, h13, h18, h23, h28⟩ := fields1 0#4 13#5 0#5 0#5 d.bits 5#6 2#2
  refine wordRT h0 ?_ (hw ▸ rfl)
  rw [decodeFields, hm]; change decMove w = _; rw [decMove, h23]
  simp [h8, h13, h18, h28]

theorem RoundTrip.rngseed (a : Src) : RoundTrip.Statement (.rngseed a) := by
  obtain ⟨w, hw, h0, hm, h8, h13, h18, h23, h28⟩ := fields1 0#4 14#5 0#5 a.bits 0#5 5#6 2#2
  refine wordRT h0 ?_ (hw ▸ rfl)
  rw [decodeFields, hm]; change decMove w = _; rw [decMove, h23]
  simp [h8, h13, h18, h28]

theorem RoundTrip.cycle (d : Dst) : RoundTrip.Statement (.cycle d) := by
  obtain ⟨w, hw, h0, hm, h8, h13, h18, h23, h28⟩ := fields1 0#4 15#5 0#5 0#5 d.bits 5#6 2#2
  refine wordRT h0 ?_ (hw ▸ rfl)
  rw [decodeFields, hm]; change decMove w = _; rw [decMove, h23]
  simp [h8, h13, h18, h28]

theorem RoundTrip.mfs (d : Dst) (sys : BitVec 12) : RoundTrip.Statement (.mfs d sys) := by
  obtain ⟨w, hw, h0, hm, h8, h13, h15, h18, h30⟩ := fields10 0#2 sys 0#3 0#2 d.bits 6#6 2#2
  refine wordRT h0 ?_ (hw ▸ rfl)
  rw [decodeFields, hm]; change decSysreg w = _; rw [decSysreg, h13]
  simp [h8, h15, h18, h30]

theorem RoundTrip.mts (sys : BitVec 12) (a : Src) : RoundTrip.Statement (.mts sys a) := by
  obtain ⟨w, hw, h0, hm, h8, h13, h15, h18, h30⟩ := fields10 0#2 sys 0#3 1#2 a.bits 6#6 2#2
  refine wordRT h0 ?_ (hw ▸ rfl)
  rw [decodeFields, hm]; change decSysreg w = _; rw [decSysreg, h13]
  simp [h8, h15, h18, h30]

theorem RoundTrip.mtsi (sys : BitVec 12) (ihi : BitVec 3) (ilo : BitVec 5) :
    RoundTrip.Statement (.mtsi sys ihi ilo) := by
  obtain ⟨w, hw, h0, hm, h8, h13, h15, h18, h30⟩ := fields10 0#2 sys ihi 2#2 ilo 6#6 2#2
  refine wordRT h0 ?_ (hw ▸ rfl)
  rw [decodeFields, hm]; change decSysreg w = _; rw [decSysreg, h13]
  simp [h8, h15, h18, h30]

theorem RoundTrip.cgeta (d : Dst) (ka : BitVec 3) : RoundTrip.Statement (.cgeta d ka) := by
  obtain ⟨w, hw, h0, hm, h8, h13, h16, h18, h23, h28⟩ := fields5 0#4 0#5 0#5 0#2 ka d.bits 7#6 2#2
  refine wordRT h0 ?_ (hw ▸ rfl)
  rw [decodeFields, hm]; change decCap w = _; rw [decCap, h23]
  simp [h8, h13, h16, h18, h28]

theorem RoundTrip.cgetb (d : Dst) (ka : BitVec 3) : RoundTrip.Statement (.cgetb d ka) := by
  obtain ⟨w, hw, h0, hm, h8, h13, h16, h18, h23, h28⟩ := fields5 0#4 1#5 0#5 0#2 ka d.bits 7#6 2#2
  refine wordRT h0 ?_ (hw ▸ rfl)
  rw [decodeFields, hm]; change decCap w = _; rw [decCap, h23]
  simp [h8, h13, h16, h18, h28]

theorem RoundTrip.cgetl (d : Dst) (ka : BitVec 3) : RoundTrip.Statement (.cgetl d ka) := by
  obtain ⟨w, hw, h0, hm, h8, h13, h16, h18, h23, h28⟩ := fields5 0#4 2#5 0#5 0#2 ka d.bits 7#6 2#2
  refine wordRT h0 ?_ (hw ▸ rfl)
  rw [decodeFields, hm]; change decCap w = _; rw [decCap, h23]
  simp [h8, h13, h16, h18, h28]

theorem RoundTrip.cgetp (d : Dst) (ka : BitVec 3) : RoundTrip.Statement (.cgetp d ka) := by
  obtain ⟨w, hw, h0, hm, h8, h13, h16, h18, h23, h28⟩ := fields5 0#4 3#5 0#5 0#2 ka d.bits 7#6 2#2
  refine wordRT h0 ?_ (hw ▸ rfl)
  rw [decodeFields, hm]; change decCap w = _; rw [decCap, h23]
  simp [h8, h13, h16, h18, h28]

theorem RoundTrip.ctag (d : Dst) (ka : BitVec 3) : RoundTrip.Statement (.ctag d ka) := by
  obtain ⟨w, hw, h0, hm, h8, h13, h16, h18, h23, h28⟩ := fields5 0#4 4#5 0#5 0#2 ka d.bits 7#6 2#2
  refine wordRT h0 ?_ (hw ▸ rfl)
  rw [decodeFields, hm]; change decCap w = _; rw [decCap, h23]
  simp [h8, h13, h16, h18, h28]

theorem RoundTrip.cmov (kd : BitVec 3) (ka : BitVec 3) : RoundTrip.Statement (.cmov kd ka) := by
  obtain ⟨w, hw, h0, hm, h8, h11, h13, h16, h18, h23, h28⟩ := fields11 0#4 5#5 0#5 0#2 ka 0#2 kd 7#6 2#2
  refine wordRT h0 ?_ (hw ▸ rfl)
  rw [decodeFields, hm]; change decCap w = _; rw [decCap, h23]
  simp [h8, h11, h13, h16, h18, h28]

theorem RoundTrip.cseta (kd : BitVec 3) (ka : BitVec 3) (b : Src) : RoundTrip.Statement (.cseta kd ka b) := by
  obtain ⟨w, hw, h0, hm, h8, h11, h13, h16, h18, h23, h28⟩ := fields11 0#4 6#5 b.bits 0#2 ka 0#2 kd 7#6 2#2
  refine wordRT h0 ?_ (hw ▸ rfl)
  rw [decodeFields, hm]; change decCap w = _; rw [decCap, h23]
  simp [h8, h11, h13, h16, h18, h28]

theorem RoundTrip.cinc (kd : BitVec 3) (ka : BitVec 3) (b : Src) : RoundTrip.Statement (.cinc kd ka b) := by
  obtain ⟨w, hw, h0, hm, h8, h11, h13, h16, h18, h23, h28⟩ := fields11 0#4 7#5 b.bits 0#2 ka 0#2 kd 7#6 2#2
  refine wordRT h0 ?_ (hw ▸ rfl)
  rw [decodeFields, hm]; change decCap w = _; rw [decCap, h23]
  simp [h8, h11, h13, h16, h18, h28]

theorem RoundTrip.cbound (exact : Bool) (kd : BitVec 3) (ka : BitVec 3) (b : Src) :
    RoundTrip.Statement (.cbound exact kd ka b) := by
  obtain ⟨w, hw, h0, hm, h8, h11, h13, h16, h18, h23, b28, h29⟩ := fields12 0#3 exact 8#5 b.bits 0#2 ka 0#2 kd 7#6 2#2
  refine wordRT h0 ?_ (hw ▸ rfl)
  rw [decodeFields, hm]; change decCap w = _; rw [decCap, h23]
  simp [h8, h11, h13, h16, h18, b28, h29]

theorem RoundTrip.cperm (kd : BitVec 3) (ka : BitVec 3) (b : Src) : RoundTrip.Statement (.cperm kd ka b) := by
  obtain ⟨w, hw, h0, hm, h8, h11, h13, h16, h18, h23, h28⟩ := fields11 0#4 9#5 b.bits 0#2 ka 0#2 kd 7#6 2#2
  refine wordRT h0 ?_ (hw ▸ rfl)
  rw [decodeFields, hm]; change decCap w = _; rw [decCap, h23]
  simp [h8, h11, h13, h16, h18, h28]

theorem RoundTrip.cgen (kd : BitVec 3) (ka : BitVec 3) : RoundTrip.Statement (.cgen kd ka) := by
  obtain ⟨w, hw, h0, hm, h8, h11, h13, h16, h18, h23, h28⟩ := fields11 0#4 10#5 0#5 0#2 ka 0#2 kd 7#6 2#2
  refine wordRT h0 ?_ (hw ▸ rfl)
  rw [decodeFields, hm]; change decCap w = _; rw [decCap, h23]
  simp [h8, h11, h13, h16, h18, h28]

theorem RoundTrip.cclr (kd : BitVec 3) : RoundTrip.Statement (.cclr kd) := by
  obtain ⟨w, hw, h0, hm, h8, h11, h13, h18, h23, h28⟩ := fields6 0#4 11#5 0#5 0#5 0#2 kd 7#6 2#2
  refine wordRT h0 ?_ (hw ▸ rfl)
  rw [decodeFields, hm]; change decCap w = _; rw [decCap, h23]
  simp [h8, h11, h13, h18, h28]

theorem RoundTrip.ceq (d : Dst) (ka : BitVec 3) (kb : BitVec 3) : RoundTrip.Statement (.ceq d ka kb) := by
  obtain ⟨w, hw, h0, hm, h8, h13, h16, h18, h21, h23, h28⟩ := fields13 0#4 12#5 0#2 kb 0#2 ka d.bits 7#6 2#2
  refine wordRT h0 ?_ (hw ▸ rfl)
  rw [decodeFields, hm]; change decCap w = _; rw [decCap, h23]
  simp [h8, h13, h16, h18, h21, h28]

theorem RoundTrip.csub (d : Dst) (ka : BitVec 3) (kb : BitVec 3) : RoundTrip.Statement (.csub d ka kb) := by
  obtain ⟨w, hw, h0, hm, h8, h13, h16, h18, h21, h23, h28⟩ := fields13 0#4 13#5 0#2 kb 0#2 ka d.bits 7#6 2#2
  refine wordRT h0 ?_ (hw ▸ rfl)
  rw [decodeFields, hm]; change decCap w = _; rw [decCap, h23]
  simp [h8, h13, h16, h18, h21, h28]

theorem RoundTrip.ldk (kd : BitVec 3) (idx : BitVec 10) : RoundTrip.Statement (.ldk kd idx) := by
  obtain ⟨w, hw, h0, hm, h8, h11, h13, h23, h28⟩ := fields14 0#4 14#5 idx 0#2 kd 7#6 2#2
  refine wordRT h0 ?_ (hw ▸ rfl)
  rw [decodeFields, hm]; change decCap w = _; rw [decCap, h23]
  simp [h8, h11, h13, h28]

theorem RoundTrip.beq (a : Src) (b : Src) (off : BitVec 11) : RoundTrip.Statement (.beq a b off) := by
  obtain ⟨w, hw, h0, hm, h8, h13, h18, h21⟩ := fields2 off 0#3 b.bits a.bits 8#6 2#2
  refine wordRT h0 ?_ (hw ▸ rfl)
  rw [decodeFields, hm]; change decBrc w = _; rw [decBrc, h18]
  simp [h8, h13, h21]

theorem RoundTrip.bne (a : Src) (b : Src) (off : BitVec 11) : RoundTrip.Statement (.bne a b off) := by
  obtain ⟨w, hw, h0, hm, h8, h13, h18, h21⟩ := fields2 off 1#3 b.bits a.bits 8#6 2#2
  refine wordRT h0 ?_ (hw ▸ rfl)
  rw [decodeFields, hm]; change decBrc w = _; rw [decBrc, h18]
  simp [h8, h13, h21]

theorem RoundTrip.blt (a : Src) (b : Src) (off : BitVec 11) : RoundTrip.Statement (.blt a b off) := by
  obtain ⟨w, hw, h0, hm, h8, h13, h18, h21⟩ := fields2 off 2#3 b.bits a.bits 8#6 2#2
  refine wordRT h0 ?_ (hw ▸ rfl)
  rw [decodeFields, hm]; change decBrc w = _; rw [decBrc, h18]
  simp [h8, h13, h21]

theorem RoundTrip.bge (a : Src) (b : Src) (off : BitVec 11) : RoundTrip.Statement (.bge a b off) := by
  obtain ⟨w, hw, h0, hm, h8, h13, h18, h21⟩ := fields2 off 3#3 b.bits a.bits 8#6 2#2
  refine wordRT h0 ?_ (hw ▸ rfl)
  rw [decodeFields, hm]; change decBrc w = _; rw [decBrc, h18]
  simp [h8, h13, h21]

theorem RoundTrip.bltu (a : Src) (b : Src) (off : BitVec 11) : RoundTrip.Statement (.bltu a b off) := by
  obtain ⟨w, hw, h0, hm, h8, h13, h18, h21⟩ := fields2 off 4#3 b.bits a.bits 8#6 2#2
  refine wordRT h0 ?_ (hw ▸ rfl)
  rw [decodeFields, hm]; change decBrc w = _; rw [decBrc, h18]
  simp [h8, h13, h21]

theorem RoundTrip.bgeu (a : Src) (b : Src) (off : BitVec 11) : RoundTrip.Statement (.bgeu a b off) := by
  obtain ⟨w, hw, h0, hm, h8, h13, h18, h21⟩ := fields2 off 5#3 b.bits a.bits 8#6 2#2
  refine wordRT h0 ?_ (hw ▸ rfl)
  rw [decodeFields, hm]; change decBrc w = _; rw [decBrc, h18]
  simp [h8, h13, h21]

theorem RoundTrip.bbs (a : Src) (b : Src) (off : BitVec 11) : RoundTrip.Statement (.bbs a b off) := by
  obtain ⟨w, hw, h0, hm, h8, h13, h18, h21⟩ := fields2 off 6#3 b.bits a.bits 8#6 2#2
  refine wordRT h0 ?_ (hw ▸ rfl)
  rw [decodeFields, hm]; change decBrc w = _; rw [decBrc, h18]
  simp [h8, h13, h21]

theorem RoundTrip.bbc (a : Src) (b : Src) (off : BitVec 11) : RoundTrip.Statement (.bbc a b off) := by
  obtain ⟨w, hw, h0, hm, h8, h13, h18, h21⟩ := fields2 off 7#3 b.bits a.bits 8#6 2#2
  refine wordRT h0 ?_ (hw ▸ rfl)
  rw [decodeFields, hm]; change decBrc w = _; rw [decBrc, h18]
  simp [h8, h13, h21]

theorem RoundTrip.bez (a : Src) (off : BitVec 18) : RoundTrip.Statement (.bez a off) := by
  obtain ⟨w, hw, h0, hm, h8, h13, h14⟩ := fields15 off 0#1 a.bits 9#6 2#2
  refine wordRT h0 ?_ (hw ▸ rfl)
  rw [decodeFields, hm]; change decBrz w = _; rw [decBrz, h13]
  simp [h8, h14]

theorem RoundTrip.bnz (a : Src) (off : BitVec 18) : RoundTrip.Statement (.bnz a off) := by
  obtain ⟨w, hw, h0, hm, h8, h13, h14⟩ := fields15 off 1#1 a.bits 9#6 2#2
  refine wordRT h0 ?_ (hw ▸ rfl)
  rw [decodeFields, hm]; change decBrz w = _; rw [decBrz, h13]
  simp [h8, h14]

theorem RoundTrip.bgs (g : BitVec 4) (off : BitVec 18) : RoundTrip.Statement (.bgs g off) := by
  obtain ⟨w, hw, h0, hm, h8, h12, h13, h14⟩ := fields16 off 0#1 0#1 g 10#6 2#2
  refine wordRT h0 ?_ (hw ▸ rfl)
  rw [decodeFields, hm]; change decBrg w = _; rw [decBrg, h12]
  simp [h8, h13, h14]

theorem RoundTrip.bgc (g : BitVec 4) (off : BitVec 18) : RoundTrip.Statement (.bgc g off) := by
  obtain ⟨w, hw, h0, hm, h8, h12, h13, h14⟩ := fields16 off 0#1 1#1 g 10#6 2#2
  refine wordRT h0 ?_ (hw ▸ rfl)
  rw [decodeFields, hm]; change decBrg w = _; rw [decBrg, h12]
  simp [h8, h13, h14]

theorem RoundTrip.j (off : BitVec 23) : RoundTrip.Statement (.j off) := by
  obtain ⟨w, hw, h0, hm, h8, h9⟩ := fields17 off 0#1 11#6 2#2
  refine wordRT h0 ?_ (hw ▸ rfl)
  rw [decodeFields, hm]; change decJump w = _; rw [decJump, h8]
  simp [h9]

theorem RoundTrip.call (off : BitVec 23) : RoundTrip.Statement (.call off) := by
  obtain ⟨w, hw, h0, hm, h8, h9⟩ := fields17 off 1#1 11#6 2#2
  refine wordRT h0 ?_ (hw ▸ rfl)
  rw [decodeFields, hm]; change decJump w = _; rw [decJump, h8]
  simp [h9]

theorem RoundTrip.jk (k : BitVec 3) : RoundTrip.Statement (.jk k) := by
  obtain ⟨w, hw, h0, hm, h8, h11, h12⟩ := fields18 0#20 0#1 k 12#6 2#2
  refine wordRT h0 ?_ (hw ▸ rfl)
  rw [decodeFields, hm]; change decJk w = _; rw [decJk, h11]
  simp [h8, h12]

theorem RoundTrip.callk (k : BitVec 3) : RoundTrip.Statement (.callk k) := by
  obtain ⟨w, hw, h0, hm, h8, h11, h12⟩ := fields18 0#20 1#1 k 12#6 2#2
  refine wordRT h0 ?_ (hw ▸ rfl)
  rw [decodeFields, hm]; change decJk w = _; rw [decJk, h11]
  simp [h8, h12]

theorem RoundTrip.loop (a : Src) (off : BitVec 18) : RoundTrip.Statement (.loop a off) := by
  obtain ⟨w, hw, h0, hm, h8, h13, h14⟩ := fields15 off 0#1 a.bits 13#6 2#2
  refine wordRT h0 ?_ (hw ▸ rfl)
  rw [decodeFields, hm]; change decLoop w = _; rw [decLoop, h13]
  simp [h8, h14]

theorem RoundTrip.loopm (i : BitVec 3) (off : BitVec 18) : RoundTrip.Statement (.loopm i off) := by
  obtain ⟨w, hw, h0, hm, h8, h11, h13, h14⟩ := fields19 off 1#1 0#2 i 13#6 2#2
  refine wordRT h0 ?_ (hw ▸ rfl)
  rw [decodeFields, hm]; change decLoop w = _; rw [decLoop, h13]
  simp [h8, h11, h14]

theorem RoundTrip.loopi (cnt : BitVec 10) (off : BitVec 14) : RoundTrip.Statement (.loopi cnt off) := by
  obtain ⟨w, hw, h0, hm, h8, h18⟩ := fields20 off cnt 14#6 2#2
  refine wordRT h0 ?_ (hw ▸ rfl)
  rw [decodeFields, hm]; change decLoopi w = _; rw [decLoopi]
  simp [h8, h18]

theorem RoundTrip.gset (cc : BitVec 3) (g : BitVec 4) (a : Src) (b : Src) : RoundTrip.Statement (.gset cc g a b) := by
  obtain ⟨w, hw, h0, hm, h8, h12, h13, h18, h23, h26, h28⟩ := fields21 0#4 0#2 cc b.bits a.bits 0#1 g 15#6 2#2
  refine wordRT h0 ?_ (hw ▸ rfl)
  rw [decodeFields, hm]; change decGuard w = _; rw [decGuard, h26]
  simp [h8, h12, h13, h18, h23, h28]

theorem RoundTrip.gsetn (cc : BitVec 3) (g : BitVec 4) (a : Src) (b : Src) :
    RoundTrip.Statement (.gsetn cc g a b) := by
  obtain ⟨w, hw, h0, hm, h8, h12, h13, h18, h23, h26, h28⟩ := fields21 0#4 1#2 cc b.bits a.bits 0#1 g 15#6 2#2
  refine wordRT h0 ?_ (hw ▸ rfl)
  rw [decodeFields, hm]; change decGuard w = _; rw [decGuard, h26]
  simp [h8, h12, h13, h18, h23, h28]

theorem RoundTrip.gclr (g : BitVec 4) : RoundTrip.Statement (.gclr g) := by
  obtain ⟨w, hw, h0, hm, h8, h12, h13, h18, h23, h26, h28⟩ := fields21 0#4 2#2 0#3 0#5 0#5 0#1 g 15#6 2#2
  refine wordRT h0 ?_ (hw ▸ rfl)
  rw [decodeFields, hm]; change decGuard w = _; rw [decGuard, h26]
  simp [h8, h12, h13, h18, h23, h28]

theorem RoundTrip.gwait (g : BitVec 4) : RoundTrip.Statement (.gwait g) := by
  obtain ⟨w, hw, h0, hm, h8, h12, h13, h18, h23, h26, h28⟩ := fields21 0#4 3#2 0#3 0#5 0#5 0#1 g 15#6 2#2
  refine wordRT h0 ?_ (hw ▸ rfl)
  rw [decodeFields, hm]; change decGuard w = _; rw [decGuard, h26]
  simp [h8, h12, h13, h18, h23, h28]

theorem RoundTrip.ld (type : BitVec 3) (d : Dst) (k : BitVec 3) (off : BitVec 13) :
    RoundTrip.Statement (.ld type d k off) := by
  obtain ⟨w, hw, h0, hm, h8, h13, h16, h19⟩ := fields22 off type k d.bits 16#6 2#2
  refine wordRT h0 ?_ (hw ▸ rfl)
  rw [decodeFields, hm]; change decLd w = _; rw [decLd]
  simp [h8, h13, h16, h19]

theorem RoundTrip.st (size : BitVec 2) (rel : Bool) (k : BitVec 3) (off : BitVec 13) (a : Src) :
    RoundTrip.Statement (.st size rel k off a) := by
  obtain ⟨w, hw, h0, hm, h8, h13, h16, b18, h19⟩ := fields23 off rel size k a.bits 17#6 2#2
  refine wordRT h0 ?_ (hw ▸ rfl)
  rw [decodeFields, hm]; change decSt w = _; rw [decSt]
  simp [h8, h13, h16, b18, h19]

theorem RoundTrip.ldx (type : BitVec 3) (acq : Bool) (d : Dst) (k : BitVec 3) (i : Src) (scale : BitVec 2) :
    RoundTrip.Statement (.ldx type acq d k i scale) := by
  obtain ⟨w, hw, h0, hm, h8, h13, h16, h21, h23, b26, h27, h28⟩ := fields24 0#4 0#1 acq type scale i.bits k d.bits 18#6 2#2
  refine wordRT h0 ?_ (hw ▸ rfl)
  rw [decodeFields, hm]; change decLdstx w = _; rw [decLdstx, h27]
  simp [h8, h13, h16, h21, h23, b26, h28]

theorem RoundTrip.stx (size : BitVec 2) (rel : Bool) (k : BitVec 3) (i : Src) (scale : BitVec 2) (a : Src) :
    RoundTrip.Statement (.stx size rel k i scale a) := by
  obtain ⟨w, hw, h0, hm, h8, h13, h16, h21, h23, h25, b26, h27, h28⟩ := fields25 0#4 1#1 rel 0#1 size scale i.bits k a.bits 18#6 2#2
  refine wordRT h0 ?_ (hw ▸ rfl)
  rw [decodeFields, hm]; change decLdstx w = _; rw [decLdstx, h27]
  simp [h8, h13, h16, h21, h23, h25, b26, h28]

theorem RoundTrip.ldc (kd : BitVec 3) (k : BitVec 3) (off : BitVec 15) : RoundTrip.Statement (.ldc kd k off) := by
  obtain ⟨w, hw, h0, hm, h8, h11, h12, h13, h16, h17⟩ := fields26 off 0#1 k 0#1 0#1 kd 19#6 2#2
  refine wordRT h0 ?_ (hw ▸ rfl)
  rw [decodeFields, hm]; change decLdcst w = _; rw [decLdcst, h11]
  simp [h8, h12, h13, h16, h17]

theorem RoundTrip.stc (k : BitVec 3) (off : BitVec 15) (kd : BitVec 3) : RoundTrip.Statement (.stc k off kd) := by
  obtain ⟨w, hw, h0, hm, h8, h11, h12, h13, h16, h17⟩ := fields26 off 0#1 k 0#1 1#1 kd 19#6 2#2
  refine wordRT h0 ?_ (hw ▸ rfl)
  rw [decodeFields, hm]; change decLdcst w = _; rw [decLdcst, h11]
  simp [h8, h12, h13, h16, h17]

theorem RoundTrip.aadd (wide : Bool) (order : BitVec 2) (d : Dst) (k : BitVec 3) (off : BitVec 8) :
    RoundTrip.Statement (.aadd wide order d k off) := by
  obtain ⟨w, hw, h0, hm, h8, h13, h16, b20, h21, h23, h24⟩ := fields27 off 0#1 order wide 0#4 k d.bits 20#6 2#2
  refine wordRT h0 ?_ (hw ▸ rfl)
  rw [decodeFields, hm]; change decAtom w = _; rw [decAtom, h16]
  simp [h8, h13, b20, h21, h23, h24]

theorem RoundTrip.aand (wide : Bool) (order : BitVec 2) (d : Dst) (k : BitVec 3) (off : BitVec 8) :
    RoundTrip.Statement (.aand wide order d k off) := by
  obtain ⟨w, hw, h0, hm, h8, h13, h16, b20, h21, h23, h24⟩ := fields27 off 0#1 order wide 1#4 k d.bits 20#6 2#2
  refine wordRT h0 ?_ (hw ▸ rfl)
  rw [decodeFields, hm]; change decAtom w = _; rw [decAtom, h16]
  simp [h8, h13, b20, h21, h23, h24]

theorem RoundTrip.aor (wide : Bool) (order : BitVec 2) (d : Dst) (k : BitVec 3) (off : BitVec 8) :
    RoundTrip.Statement (.aor wide order d k off) := by
  obtain ⟨w, hw, h0, hm, h8, h13, h16, b20, h21, h23, h24⟩ := fields27 off 0#1 order wide 2#4 k d.bits 20#6 2#2
  refine wordRT h0 ?_ (hw ▸ rfl)
  rw [decodeFields, hm]; change decAtom w = _; rw [decAtom, h16]
  simp [h8, h13, b20, h21, h23, h24]

theorem RoundTrip.axor (wide : Bool) (order : BitVec 2) (d : Dst) (k : BitVec 3) (off : BitVec 8) :
    RoundTrip.Statement (.axor wide order d k off) := by
  obtain ⟨w, hw, h0, hm, h8, h13, h16, b20, h21, h23, h24⟩ := fields27 off 0#1 order wide 3#4 k d.bits 20#6 2#2
  refine wordRT h0 ?_ (hw ▸ rfl)
  rw [decodeFields, hm]; change decAtom w = _; rw [decAtom, h16]
  simp [h8, h13, b20, h21, h23, h24]

theorem RoundTrip.amin (wide : Bool) (order : BitVec 2) (d : Dst) (k : BitVec 3) (off : BitVec 8) :
    RoundTrip.Statement (.amin wide order d k off) := by
  obtain ⟨w, hw, h0, hm, h8, h13, h16, b20, h21, h23, h24⟩ := fields27 off 0#1 order wide 4#4 k d.bits 20#6 2#2
  refine wordRT h0 ?_ (hw ▸ rfl)
  rw [decodeFields, hm]; change decAtom w = _; rw [decAtom, h16]
  simp [h8, h13, b20, h21, h23, h24]

theorem RoundTrip.amax (wide : Bool) (order : BitVec 2) (d : Dst) (k : BitVec 3) (off : BitVec 8) :
    RoundTrip.Statement (.amax wide order d k off) := by
  obtain ⟨w, hw, h0, hm, h8, h13, h16, b20, h21, h23, h24⟩ := fields27 off 0#1 order wide 5#4 k d.bits 20#6 2#2
  refine wordRT h0 ?_ (hw ▸ rfl)
  rw [decodeFields, hm]; change decAtom w = _; rw [decAtom, h16]
  simp [h8, h13, b20, h21, h23, h24]

theorem RoundTrip.aminu (wide : Bool) (order : BitVec 2) (d : Dst) (k : BitVec 3) (off : BitVec 8) :
    RoundTrip.Statement (.aminu wide order d k off) := by
  obtain ⟨w, hw, h0, hm, h8, h13, h16, b20, h21, h23, h24⟩ := fields27 off 0#1 order wide 6#4 k d.bits 20#6 2#2
  refine wordRT h0 ?_ (hw ▸ rfl)
  rw [decodeFields, hm]; change decAtom w = _; rw [decAtom, h16]
  simp [h8, h13, b20, h21, h23, h24]

theorem RoundTrip.amaxu (wide : Bool) (order : BitVec 2) (d : Dst) (k : BitVec 3) (off : BitVec 8) :
    RoundTrip.Statement (.amaxu wide order d k off) := by
  obtain ⟨w, hw, h0, hm, h8, h13, h16, b20, h21, h23, h24⟩ := fields27 off 0#1 order wide 7#4 k d.bits 20#6 2#2
  refine wordRT h0 ?_ (hw ▸ rfl)
  rw [decodeFields, hm]; change decAtom w = _; rw [decAtom, h16]
  simp [h8, h13, b20, h21, h23, h24]

theorem RoundTrip.aswp (wide : Bool) (order : BitVec 2) (d : Dst) (k : BitVec 3) (off : BitVec 8) :
    RoundTrip.Statement (.aswp wide order d k off) := by
  obtain ⟨w, hw, h0, hm, h8, h13, h16, b20, h21, h23, h24⟩ := fields27 off 0#1 order wide 8#4 k d.bits 20#6 2#2
  refine wordRT h0 ?_ (hw ▸ rfl)
  rw [decodeFields, hm]; change decAtom w = _; rw [decAtom, h16]
  simp [h8, h13, b20, h21, h23, h24]

theorem RoundTrip.acas (wide : Bool) (order : BitVec 2) (d : Dst) (k : BitVec 3) (off : BitVec 8) :
    RoundTrip.Statement (.acas wide order d k off) := by
  obtain ⟨w, hw, h0, hm, h8, h13, h16, b20, h21, h23, h24⟩ := fields27 off 0#1 order wide 9#4 k d.bits 20#6 2#2
  refine wordRT h0 ?_ (hw ▸ rfl)
  rw [decodeFields, hm]; change decAtom w = _; rw [decAtom, h16]
  simp [h8, h13, b20, h21, h23, h24]

theorem RoundTrip.afadd (wide : Bool) (order : BitVec 2) (d : Dst) (k : BitVec 3) (off : BitVec 8) :
    RoundTrip.Statement (.afadd wide order d k off) := by
  obtain ⟨w, hw, h0, hm, h8, h13, h16, b20, h21, h23, h24⟩ := fields27 off 0#1 order wide 10#4 k d.bits 20#6 2#2
  refine wordRT h0 ?_ (hw ▸ rfl)
  rw [decodeFields, hm]; change decAtom w = _; rw [decAtom, h16]
  simp [h8, h13, b20, h21, h23, h24]

theorem RoundTrip.fence (kind : BitVec 3) (scope : BitVec 3) : RoundTrip.Statement (.fence kind scope) := by
  obtain ⟨w, hw, h0, hm, h8, h11, h14, h23, h28⟩ := fields28 0#4 0#5 0#9 kind scope 21#6 2#2
  refine wordRT h0 ?_ (hw ▸ rfl)
  rw [decodeFields, hm]; change decFence w = _; rw [decFence, h23]
  simp [h8, h11, h14, h28]

theorem RoundTrip.efence : RoundTrip.Statement .efence := by
  obtain ⟨w, hw, h0, hm, h8, h14, h23, h28⟩ := fields29 0#4 1#5 0#9 0#6 21#6 2#2
  refine wordRT h0 ?_ (hw ▸ rfl)
  rw [decodeFields, hm]; change decFence w = _; rw [decFence, h23]
  simp [h8, h14, h28]

theorem RoundTrip.ifence : RoundTrip.Statement .ifence := by
  obtain ⟨w, hw, h0, hm, h8, h14, h23, h28⟩ := fields29 0#4 2#5 0#9 0#6 21#6 2#2
  refine wordRT h0 ?_ (hw ▸ rfl)
  rw [decodeFields, hm]; change decFence w = _; rw [decFence, h23]
  simp [h8, h14, h28]

theorem RoundTrip.rst (size : BitVec 2) (ka : BitVec 3) (b : Src) : RoundTrip.Statement (.rst size ka b) := by
  obtain ⟨w, hw, h0, hm, h8, h13, h16, h18, h23, h28, h30⟩ := fields30 0#2 size 0#5 b.bits 0#2 ka 0#5 22#6 2#2
  refine wordRT h0 ?_ (hw ▸ rfl)
  rw [decodeFields, hm]; change decRemote w = _; rw [decRemote, h23]
  simp [h8, h13, h16, h18, h28, h30]

theorem RoundTrip.amsg (ka : BitVec 3) (kb : BitVec 3) : RoundTrip.Statement (.amsg ka kb) := by
  obtain ⟨w, hw, h0, hm, h8, h13, h16, h18, h21, h23, h28⟩ := fields13 0#4 1#5 0#2 kb 0#2 ka 0#5 22#6 2#2
  refine wordRT h0 ?_ (hw ▸ rfl)
  rw [decodeFields, hm]; change decRemote w = _; rw [decRemote, h23]
  simp [h8, h13, h16, h18, h21, h28]

theorem RoundTrip.rdrain : RoundTrip.Statement .rdrain := by
  obtain ⟨w, hw, h0, hm, h8, h13, h18, h23, h28⟩ := fields1 0#4 2#5 0#5 0#5 0#5 22#6 2#2
  refine wordRT h0 ?_ (hw ▸ rfl)
  rw [decodeFields, hm]; change decRemote w = _; rw [decRemote, h23]
  simp [h8, h13, h18, h28]

theorem RoundTrip.spawn (d : Dst) (ka : BitVec 3) : RoundTrip.Statement (.spawn d ka) := by
  obtain ⟨w, hw, h0, hm, h8, h13, h16, h18, h23, h28⟩ := fields5 0#4 0#5 0#5 0#2 ka d.bits 23#6 2#2
  refine wordRT h0 ?_ (hw ▸ rfl)
  rw [decodeFields, hm]; change decTask w = _; rw [decTask, h23]
  simp [h8, h13, h16, h18, h28]

theorem RoundTrip.start (d : Dst) (ka : BitVec 3) : RoundTrip.Statement (.start d ka) := by
  obtain ⟨w, hw, h0, hm, h8, h13, h16, h18, h23, h28⟩ := fields5 0#4 1#5 0#5 0#2 ka d.bits 23#6 2#2
  refine wordRT h0 ?_ (hw ▸ rfl)
  rw [decodeFields, hm]; change decTask w = _; rw [decTask, h23]
  simp [h8, h13, h16, h18, h28]

theorem RoundTrip.done : RoundTrip.Statement .done := by
  obtain ⟨w, hw, h0, hm, h8, h13, h18, h23, h28⟩ := fields1 0#4 2#5 0#5 0#5 0#5 23#6 2#2
  refine wordRT h0 ?_ (hw ▸ rfl)
  rw [decodeFields, hm]; change decTask w = _; rw [decTask, h23]
  simp [h8, h13, h18, h28]

theorem RoundTrip.yield (a : Src) (b : Src) : RoundTrip.Statement (.yield a b) := by
  obtain ⟨w, hw, h0, hm, h8, h13, h18, h23, h28⟩ := fields1 0#4 3#5 b.bits a.bits 0#5 23#6 2#2
  refine wordRT h0 ?_ (hw ▸ rfl)
  rw [decodeFields, hm]; change decTask w = _; rw [decTask, h23]
  simp [h8, h13, h18, h28]

theorem RoundTrip.join (d : Dst) (ka : BitVec 3) : RoundTrip.Statement (.join d ka) := by
  obtain ⟨w, hw, h0, hm, h8, h13, h16, h18, h23, h28⟩ := fields5 0#4 4#5 0#5 0#2 ka d.bits 23#6 2#2
  refine wordRT h0 ?_ (hw ▸ rfl)
  rw [decodeFields, hm]; change decTask w = _; rw [decTask, h23]
  simp [h8, h13, h16, h18, h28]

theorem RoundTrip.walk (d : Dst) (ka : BitVec 3) (b : Src) : RoundTrip.Statement (.walk d ka b) := by
  obtain ⟨w, hw, h0, hm, h8, h13, h16, h18, h23, h28⟩ := fields5 0#4 5#5 b.bits 0#2 ka d.bits 23#6 2#2
  refine wordRT h0 ?_ (hw ▸ rfl)
  rw [decodeFields, hm]; change decTask w = _; rw [decTask, h23]
  simp [h8, h13, h16, h18, h28]

theorem RoundTrip.launch (d : Dst) (ka : BitVec 3) (b : Src) : RoundTrip.Statement (.launch d ka b) := by
  obtain ⟨w, hw, h0, hm, h8, h13, h16, h18, h23, h28⟩ := fields5 0#4 6#5 b.bits 0#2 ka d.bits 23#6 2#2
  refine wordRT h0 ?_ (hw ▸ rfl)
  rw [decodeFields, hm]; change decTask w = _; rw [decTask, h23]
  simp [h8, h13, h16, h18, h28]

theorem RoundTrip.launchi (d : Dst) (ka : BitVec 3) (kb : BitVec 3) : RoundTrip.Statement (.launchi d ka kb) := by
  obtain ⟨w, hw, h0, hm, h8, h13, h16, h18, h21, h23, h28⟩ := fields13 0#4 7#5 0#2 kb 0#2 ka d.bits 23#6 2#2
  refine wordRT h0 ?_ (hw ▸ rfl)
  rw [decodeFields, hm]; change decTask w = _; rw [decTask, h23]
  simp [h8, h13, h16, h18, h21, h28]

theorem RoundTrip.gang (d : Dst) (ka : BitVec 3) : RoundTrip.Statement (.gang d ka) := by
  obtain ⟨w, hw, h0, hm, h8, h13, h16, h18, h23, h28⟩ := fields5 0#4 8#5 0#5 0#2 ka d.bits 23#6 2#2
  refine wordRT h0 ?_ (hw ▸ rfl)
  rw [decodeFields, hm]; change decTask w = _; rw [decTask, h23]
  simp [h8, h13, h16, h18, h28]

theorem RoundTrip.submit (d : Dst) (ka : BitVec 3) : RoundTrip.Statement (.submit d ka) := by
  obtain ⟨w, hw, h0, hm, h8, h13, h16, h18, h23, h28⟩ := fields5 0#4 9#5 0#5 0#2 ka d.bits 23#6 2#2
  refine wordRT h0 ?_ (hw ▸ rfl)
  rw [decodeFields, hm]; change decTask w = _; rw [decTask, h23]
  simp [h8, h13, h16, h18, h28]

theorem RoundTrip.dline (d : Dst) (a : Src) : RoundTrip.Statement (.dline d a) := by
  obtain ⟨w, hw, h0, hm, h8, h13, h18, h23, h28⟩ := fields1 0#4 10#5 0#5 a.bits d.bits 23#6 2#2
  refine wordRT h0 ?_ (hw ▸ rfl)
  rw [decodeFields, hm]; change decTask w = _; rw [decTask, h23]
  simp [h8, h13, h18, h28]

theorem RoundTrip.self (kd : BitVec 3) : RoundTrip.Statement (.self kd) := by
  obtain ⟨w, hw, h0, hm, h8, h11, h13, h18, h23, h28⟩ := fields6 0#4 11#5 0#5 0#5 0#2 kd 23#6 2#2
  refine wordRT h0 ?_ (hw ▸ rfl)
  rw [decodeFields, hm]; change decTask w = _; rw [decTask, h23]
  simp [h8, h11, h13, h18, h28]

theorem RoundTrip.finit (ka : BitVec 3) : RoundTrip.Statement (.finit ka) := by
  obtain ⟨w, hw, h0, hm, h8, h13, h16, h18, h23, h28⟩ := fields5 0#4 0#5 0#5 0#2 ka 0#5 24#6 2#2
  refine wordRT h0 ?_ (hw ▸ rfl)
  rw [decodeFields, hm]; change decFut w = _; rw [decFut, h23]
  simp [h8, h13, h16, h18, h28]

theorem RoundTrip.fres (d : Dst) (ka : BitVec 3) (b : Src) : RoundTrip.Statement (.fres d ka b) := by
  obtain ⟨w, hw, h0, hm, h8, h13, h16, h18, h23, h28⟩ := fields5 0#4 1#5 b.bits 0#2 ka d.bits 24#6 2#2
  refine wordRT h0 ?_ (hw ▸ rfl)
  rw [decodeFields, hm]; change decFut w = _; rw [decFut, h23]
  simp [h8, h13, h16, h18, h28]

theorem RoundTrip.freg (d : Dst) (ka : BitVec 3) (kb : BitVec 3) : RoundTrip.Statement (.freg d ka kb) := by
  obtain ⟨w, hw, h0, hm, h8, h13, h16, h18, h21, h23, h28⟩ := fields13 0#4 2#5 0#2 kb 0#2 ka d.bits 24#6 2#2
  refine wordRT h0 ?_ (hw ▸ rfl)
  rw [decodeFields, hm]; change decFut w = _; rw [decFut, h23]
  simp [h8, h13, h16, h18, h21, h28]

theorem RoundTrip.fget (d : Dst) (ka : BitVec 3) : RoundTrip.Statement (.fget d ka) := by
  obtain ⟨w, hw, h0, hm, h8, h13, h16, h18, h23, h28⟩ := fields5 0#4 3#5 0#5 0#2 ka d.bits 24#6 2#2
  refine wordRT h0 ?_ (hw ▸ rfl)
  rw [decodeFields, hm]; change decFut w = _; rw [decFut, h23]
  simp [h8, h13, h16, h18, h28]

theorem RoundTrip.fstat (d : Dst) (ka : BitVec 3) : RoundTrip.Statement (.fstat d ka) := by
  obtain ⟨w, hw, h0, hm, h8, h13, h16, h18, h23, h28⟩ := fields5 0#4 4#5 0#5 0#2 ka d.bits 24#6 2#2
  refine wordRT h0 ?_ (hw ▸ rfl)
  rw [decodeFields, hm]; change decFut w = _; rw [decFut, h23]
  simp [h8, h13, h16, h18, h28]

theorem RoundTrip.rinit (ka : BitVec 3) (kb : BitVec 3) (s : BitVec 5) : RoundTrip.Statement (.rinit ka kb s) := by
  obtain ⟨w, hw, h0, hm, h8, h13, h16, h18, h21, h23, h28⟩ := fields13 0#4 0#5 0#2 kb 0#2 ka s 25#6 2#2
  refine wordRT h0 ?_ (hw ▸ rfl)
  rw [decodeFields, hm]; change decRing w = _; rw [decRing, h23]
  simp [h8, h13, h16, h18, h21, h28]

theorem RoundTrip.rclaim (scope : BitVec 3) (d : Dst) (ka : BitVec 3) (b : Src) :
    RoundTrip.Statement (.rclaim scope d ka b) := by
  obtain ⟨w, hw, h0, hm, h8, h13, h16, h18, h23, h28, h31⟩ := fields31 0#1 scope 1#5 b.bits 0#2 ka d.bits 25#6 2#2
  refine wordRT h0 ?_ (hw ▸ rfl)
  rw [decodeFields, hm]; change decRing w = _; rw [decRing, h23]
  simp [h8, h13, h16, h18, h28, h31]

theorem RoundTrip.rtryclaim (scope : BitVec 3) (d : Dst) (ka : BitVec 3) (b : Src) :
    RoundTrip.Statement (.rtryclaim scope d ka b) := by
  obtain ⟨w, hw, h0, hm, h8, h13, h16, h18, h23, h28, h31⟩ := fields31 0#1 scope 2#5 b.bits 0#2 ka d.bits 25#6 2#2
  refine wordRT h0 ?_ (hw ▸ rfl)
  rw [decodeFields, hm]; change decRing w = _; rw [decRing, h23]
  simp [h8, h13, h16, h18, h28, h31]

theorem RoundTrip.rcommit (scope : BitVec 3) (ka : BitVec 3) (i : Src) (b : Src) :
    RoundTrip.Statement (.rcommit scope ka i b) := by
  obtain ⟨w, hw, h0, hm, h8, h13, h16, h18, h23, h28, h31⟩ := fields31 0#1 scope 3#5 b.bits 0#2 ka i.bits 25#6 2#2
  refine wordRT h0 ?_ (hw ▸ rfl)
  rw [decodeFields, hm]; change decRing w = _; rw [decRing, h23]
  simp [h8, h13, h16, h18, h28, h31]

theorem RoundTrip.rawait (scope : BitVec 3) (d : Dst) (ka : BitVec 3) (b : Src) :
    RoundTrip.Statement (.rawait scope d ka b) := by
  obtain ⟨w, hw, h0, hm, h8, h13, h16, h18, h23, h28, h31⟩ := fields31 0#1 scope 4#5 b.bits 0#2 ka d.bits 25#6 2#2
  refine wordRT h0 ?_ (hw ▸ rfl)
  rw [decodeFields, hm]; change decRing w = _; rw [decRing, h23]
  simp [h8, h13, h16, h18, h28, h31]

theorem RoundTrip.rretire (scope : BitVec 3) (ka : BitVec 3) (i : Src) (b : Src) :
    RoundTrip.Statement (.rretire scope ka i b) := by
  obtain ⟨w, hw, h0, hm, h8, h13, h16, h18, h23, h28, h31⟩ := fields31 0#1 scope 5#5 b.bits 0#2 ka i.bits 25#6 2#2
  refine wordRT h0 ?_ (hw ▸ rfl)
  rw [decodeFields, hm]; change decRing w = _; rw [decRing, h23]
  simp [h8, h13, h16, h18, h28, h31]

theorem RoundTrip.binit (ka : BitVec 3) (b : Src) : RoundTrip.Statement (.binit ka b) := by
  obtain ⟨w, hw, h0, hm, h8, h13, h16, h18, h23, h28⟩ := fields5 0#4 0#5 b.bits 0#2 ka 0#5 26#6 2#2
  refine wordRT h0 ?_ (hw ▸ rfl)
  rw [decodeFields, hm]; change decBar w = _; rw [decBar, h23]
  simp [h8, h13, h16, h18, h28]

theorem RoundTrip.barrive (scope : BitVec 3) (d : Dst) (ka : BitVec 3) (b : Src) :
    RoundTrip.Statement (.barrive scope d ka b) := by
  obtain ⟨w, hw, h0, hm, h8, h13, h16, h18, h23, h28, h31⟩ := fields31 0#1 scope 1#5 b.bits 0#2 ka d.bits 26#6 2#2
  refine wordRT h0 ?_ (hw ▸ rfl)
  rw [decodeFields, hm]; change decBar w = _; rw [decBar, h23]
  simp [h8, h13, h16, h18, h28, h31]

theorem RoundTrip.bexpect (ka : BitVec 3) (b : Src) : RoundTrip.Statement (.bexpect ka b) := by
  obtain ⟨w, hw, h0, hm, h8, h13, h16, h18, h23, h28⟩ := fields5 0#4 2#5 b.bits 0#2 ka 0#5 26#6 2#2
  refine wordRT h0 ?_ (hw ▸ rfl)
  rw [decodeFields, hm]; change decBar w = _; rw [decBar, h23]
  simp [h8, h13, h16, h18, h28]

theorem RoundTrip.bwait (scope : BitVec 3) (ka : BitVec 3) (b : Src) : RoundTrip.Statement (.bwait scope ka b) := by
  obtain ⟨w, hw, h0, hm, h8, h13, h16, h18, h23, h28, h31⟩ := fields31 0#1 scope 3#5 b.bits 0#2 ka 0#5 26#6 2#2
  refine wordRT h0 ?_ (hw ▸ rfl)
  rw [decodeFields, hm]; change decBar w = _; rw [decBar, h23]
  simp [h8, h13, h16, h18, h28, h31]

theorem RoundTrip.btest (scope : BitVec 3) (d : Dst) (ka : BitVec 3) (b : Src) :
    RoundTrip.Statement (.btest scope d ka b) := by
  obtain ⟨w, hw, h0, hm, h8, h13, h16, h18, h23, h28, h31⟩ := fields31 0#1 scope 4#5 b.bits 0#2 ka d.bits 26#6 2#2
  refine wordRT h0 ?_ (hw ▸ rfl)
  rw [decodeFields, hm]; change decBar w = _; rw [decBar, h23]
  simp [h8, h13, h16, h18, h28, h31]

theorem RoundTrip.trap (a : Src) : RoundTrip.Statement (.trap a) := by
  obtain ⟨w, hw, h0, hm, h8, h13, h18, h23, h28⟩ := fields1 0#4 0#5 0#5 a.bits 0#5 27#6 2#2
  refine wordRT h0 ?_ (hw ▸ rfl)
  rw [decodeFields, hm]; change decSys w = _; rw [decSys, h23]
  simp [h8, h13, h18, h28]

theorem RoundTrip.rte : RoundTrip.Statement .rte := by
  obtain ⟨w, hw, h0, hm, h8, h13, h18, h23, h28⟩ := fields1 0#4 1#5 0#5 0#5 0#5 27#6 2#2
  refine wordRT h0 ?_ (hw ▸ rfl)
  rw [decodeFields, hm]; change decSys w = _; rw [decSys, h23]
  simp [h8, h13, h18, h28]

theorem RoundTrip.svc (d : Dst) (a : Src) (b : Src) : RoundTrip.Statement (.svc d a b) := by
  obtain ⟨w, hw, h0, hm, h8, h13, h18, h23, h28⟩ := fields1 0#4 2#5 b.bits a.bits d.bits 27#6 2#2
  refine wordRT h0 ?_ (hw ▸ rfl)
  rw [decodeFields, hm]; change decSys w = _; rw [decSys, h23]
  simp [h8, h13, h18, h28]

theorem RoundTrip.brk : RoundTrip.Statement .brk := by
  obtain ⟨w, hw, h0, hm, h8, h13, h18, h23, h28⟩ := fields1 0#4 3#5 0#5 0#5 0#5 27#6 2#2
  refine wordRT h0 ?_ (hw ▸ rfl)
  rw [decodeFields, hm]; change decSys w = _; rw [decSys, h23]
  simp [h8, h13, h18, h28]

theorem RoundTrip.chkpt (idx : BitVec 10) : RoundTrip.Statement (.chkpt idx) := by
  obtain ⟨w, hw, h0, hm, h8, h13, h23, h28⟩ := fields32 0#4 4#5 idx 0#5 27#6 2#2
  refine wordRT h0 ?_ (hw ▸ rfl)
  rw [decodeFields, hm]; change decSys w = _; rw [decSys, h23]
  simp [h8, h13, h28]

theorem RoundTrip.realign (tag : BitVec 10) : RoundTrip.Statement (.realign tag) := by
  obtain ⟨w, hw, h0, hm, h8, h13, h23, h28⟩ := fields32 0#4 5#5 tag 0#5 27#6 2#2
  refine wordRT h0 ?_ (hw ▸ rfl)
  rw [decodeFields, hm]; change decSys w = _; rw [decSys, h23]
  simp [h8, h13, h28]

theorem RoundTrip.wfi (d : Dst) (a : Src) : RoundTrip.Statement (.wfi d a) := by
  obtain ⟨w, hw, h0, hm, h8, h13, h18, h23, h28⟩ := fields1 0#4 6#5 0#5 a.bits d.bits 27#6 2#2
  refine wordRT h0 ?_ (hw ▸ rfl)
  rw [decodeFields, hm]; change decSys w = _; rw [decSys, h23]
  simp [h8, h13, h18, h28]

theorem RoundTrip.halt : RoundTrip.Statement .halt := by
  obtain ⟨w, hw, h0, hm, h8, h13, h18, h23, h28⟩ := fields1 0#4 7#5 0#5 0#5 0#5 27#6 2#2
  refine wordRT h0 ?_ (hw ▸ rfl)
  rw [decodeFields, hm]; change decSys w = _; rw [decSys, h23]
  simp [h8, h13, h18, h28]

theorem RoundTrip.tinv (all : Bool) (a : Src) (b : Src) : RoundTrip.Statement (.tinv all a b) := by
  obtain ⟨w, hw, h0, hm, h8, h13, h18, h23, b28, h29⟩ := fields33 0#3 all 8#5 b.bits a.bits 0#5 27#6 2#2
  refine wordRT h0 ?_ (hw ▸ rfl)
  rw [decodeFields, hm]; change decSys w = _; rw [decSys, h23]
  simp [h8, h13, h18, b28, h29]

theorem RoundTrip.vclaim (d : Dst) (a : Src) (b : Src) : RoundTrip.Statement (.vclaim d a b) := by
  obtain ⟨w, hw, h0, hm, h8, h13, h18, h23, h28⟩ := fields1 0#4 0#5 b.bits a.bits d.bits 28#6 2#2
  refine wordRT h0 ?_ (hw ▸ rfl)
  rw [decodeFields, hm]; change decVclaim w = _; rw [decVclaim, h23]
  simp [h8, h13, h18, h28]

theorem RoundTrip.vreneg (d : Dst) (a : Src) (b : Src) : RoundTrip.Statement (.vreneg d a b) := by
  obtain ⟨w, hw, h0, hm, h8, h13, h18, h23, h28⟩ := fields1 0#4 1#5 b.bits a.bits d.bits 28#6 2#2
  refine wordRT h0 ?_ (hw ▸ rfl)
  rw [decodeFields, hm]; change decVclaim w = _; rw [decVclaim, h23]
  simp [h8, h13, h18, h28]

theorem RoundTrip.vrel : RoundTrip.Statement .vrel := by
  obtain ⟨w, hw, h0, hm, h8, h13, h18, h23, h28⟩ := fields1 0#4 2#5 0#5 0#5 0#5 28#6 2#2
  refine wordRT h0 ?_ (hw ▸ rfl)
  rw [decodeFields, hm]; change decVclaim w = _; rw [decVclaim, h23]
  simp [h8, h13, h18, h28]

theorem RoundTrip.vadd (p : Option Pfx) (et : BitVec 3) (d : BitVec 5) (a : BitVec 5) (b : BitVec 5) :
    RoundTrip.Statement (.vadd p et d a b) := by
  obtain ⟨w, hw, h0, hm, h8, h13, h18, h23, h26, h31⟩ := fields34 0#1 0#5 et b a d 29#6 2#2
  refine pairRT p h0 (prefixMajor hm (by decide)) ?_ (hw ▸ rfl)
  rw [decodeFields, hm]; change decVint p w = _; rw [decVint, h26]
  simp [h8, h13, h18, h23, h31]

theorem RoundTrip.vsub (p : Option Pfx) (et : BitVec 3) (d : BitVec 5) (a : BitVec 5) (b : BitVec 5) :
    RoundTrip.Statement (.vsub p et d a b) := by
  obtain ⟨w, hw, h0, hm, h8, h13, h18, h23, h26, h31⟩ := fields34 0#1 1#5 et b a d 29#6 2#2
  refine pairRT p h0 (prefixMajor hm (by decide)) ?_ (hw ▸ rfl)
  rw [decodeFields, hm]; change decVint p w = _; rw [decVint, h26]
  simp [h8, h13, h18, h23, h31]

theorem RoundTrip.vmul (p : Option Pfx) (et : BitVec 3) (d : BitVec 5) (a : BitVec 5) (b : BitVec 5) :
    RoundTrip.Statement (.vmul p et d a b) := by
  obtain ⟨w, hw, h0, hm, h8, h13, h18, h23, h26, h31⟩ := fields34 0#1 2#5 et b a d 29#6 2#2
  refine pairRT p h0 (prefixMajor hm (by decide)) ?_ (hw ▸ rfl)
  rw [decodeFields, hm]; change decVint p w = _; rw [decVint, h26]
  simp [h8, h13, h18, h23, h31]

theorem RoundTrip.vmulh (p : Option Pfx) (et : BitVec 3) (d : BitVec 5) (a : BitVec 5) (b : BitVec 5) :
    RoundTrip.Statement (.vmulh p et d a b) := by
  obtain ⟨w, hw, h0, hm, h8, h13, h18, h23, h26, h31⟩ := fields34 0#1 3#5 et b a d 29#6 2#2
  refine pairRT p h0 (prefixMajor hm (by decide)) ?_ (hw ▸ rfl)
  rw [decodeFields, hm]; change decVint p w = _; rw [decVint, h26]
  simp [h8, h13, h18, h23, h31]

theorem RoundTrip.vmin (p : Option Pfx) (et : BitVec 3) (d : BitVec 5) (a : BitVec 5) (b : BitVec 5) :
    RoundTrip.Statement (.vmin p et d a b) := by
  obtain ⟨w, hw, h0, hm, h8, h13, h18, h23, h26, h31⟩ := fields34 0#1 4#5 et b a d 29#6 2#2
  refine pairRT p h0 (prefixMajor hm (by decide)) ?_ (hw ▸ rfl)
  rw [decodeFields, hm]; change decVint p w = _; rw [decVint, h26]
  simp [h8, h13, h18, h23, h31]

theorem RoundTrip.vmax (p : Option Pfx) (et : BitVec 3) (d : BitVec 5) (a : BitVec 5) (b : BitVec 5) :
    RoundTrip.Statement (.vmax p et d a b) := by
  obtain ⟨w, hw, h0, hm, h8, h13, h18, h23, h26, h31⟩ := fields34 0#1 5#5 et b a d 29#6 2#2
  refine pairRT p h0 (prefixMajor hm (by decide)) ?_ (hw ▸ rfl)
  rw [decodeFields, hm]; change decVint p w = _; rw [decVint, h26]
  simp [h8, h13, h18, h23, h31]

theorem RoundTrip.vminu (p : Option Pfx) (et : BitVec 3) (d : BitVec 5) (a : BitVec 5) (b : BitVec 5) :
    RoundTrip.Statement (.vminu p et d a b) := by
  obtain ⟨w, hw, h0, hm, h8, h13, h18, h23, h26, h31⟩ := fields34 0#1 6#5 et b a d 29#6 2#2
  refine pairRT p h0 (prefixMajor hm (by decide)) ?_ (hw ▸ rfl)
  rw [decodeFields, hm]; change decVint p w = _; rw [decVint, h26]
  simp [h8, h13, h18, h23, h31]

theorem RoundTrip.vmaxu (p : Option Pfx) (et : BitVec 3) (d : BitVec 5) (a : BitVec 5) (b : BitVec 5) :
    RoundTrip.Statement (.vmaxu p et d a b) := by
  obtain ⟨w, hw, h0, hm, h8, h13, h18, h23, h26, h31⟩ := fields34 0#1 7#5 et b a d 29#6 2#2
  refine pairRT p h0 (prefixMajor hm (by decide)) ?_ (hw ▸ rfl)
  rw [decodeFields, hm]; change decVint p w = _; rw [decVint, h26]
  simp [h8, h13, h18, h23, h31]

theorem RoundTrip.vand (p : Option Pfx) (et : BitVec 3) (d : BitVec 5) (a : BitVec 5) (b : BitVec 5) :
    RoundTrip.Statement (.vand p et d a b) := by
  obtain ⟨w, hw, h0, hm, h8, h13, h18, h23, h26, h31⟩ := fields34 0#1 8#5 et b a d 29#6 2#2
  refine pairRT p h0 (prefixMajor hm (by decide)) ?_ (hw ▸ rfl)
  rw [decodeFields, hm]; change decVint p w = _; rw [decVint, h26]
  simp [h8, h13, h18, h23, h31]

theorem RoundTrip.vor (p : Option Pfx) (et : BitVec 3) (d : BitVec 5) (a : BitVec 5) (b : BitVec 5) :
    RoundTrip.Statement (.vor p et d a b) := by
  obtain ⟨w, hw, h0, hm, h8, h13, h18, h23, h26, h31⟩ := fields34 0#1 9#5 et b a d 29#6 2#2
  refine pairRT p h0 (prefixMajor hm (by decide)) ?_ (hw ▸ rfl)
  rw [decodeFields, hm]; change decVint p w = _; rw [decVint, h26]
  simp [h8, h13, h18, h23, h31]

theorem RoundTrip.vxor (p : Option Pfx) (et : BitVec 3) (d : BitVec 5) (a : BitVec 5) (b : BitVec 5) :
    RoundTrip.Statement (.vxor p et d a b) := by
  obtain ⟨w, hw, h0, hm, h8, h13, h18, h23, h26, h31⟩ := fields34 0#1 10#5 et b a d 29#6 2#2
  refine pairRT p h0 (prefixMajor hm (by decide)) ?_ (hw ▸ rfl)
  rw [decodeFields, hm]; change decVint p w = _; rw [decVint, h26]
  simp [h8, h13, h18, h23, h31]

theorem RoundTrip.vshl (p : Option Pfx) (et : BitVec 3) (d : BitVec 5) (a : BitVec 5) (b : BitVec 5) :
    RoundTrip.Statement (.vshl p et d a b) := by
  obtain ⟨w, hw, h0, hm, h8, h13, h18, h23, h26, h31⟩ := fields34 0#1 11#5 et b a d 29#6 2#2
  refine pairRT p h0 (prefixMajor hm (by decide)) ?_ (hw ▸ rfl)
  rw [decodeFields, hm]; change decVint p w = _; rw [decVint, h26]
  simp [h8, h13, h18, h23, h31]

theorem RoundTrip.vshr (p : Option Pfx) (et : BitVec 3) (d : BitVec 5) (a : BitVec 5) (b : BitVec 5) :
    RoundTrip.Statement (.vshr p et d a b) := by
  obtain ⟨w, hw, h0, hm, h8, h13, h18, h23, h26, h31⟩ := fields34 0#1 12#5 et b a d 29#6 2#2
  refine pairRT p h0 (prefixMajor hm (by decide)) ?_ (hw ▸ rfl)
  rw [decodeFields, hm]; change decVint p w = _; rw [decVint, h26]
  simp [h8, h13, h18, h23, h31]

theorem RoundTrip.vsra (p : Option Pfx) (et : BitVec 3) (d : BitVec 5) (a : BitVec 5) (b : BitVec 5) :
    RoundTrip.Statement (.vsra p et d a b) := by
  obtain ⟨w, hw, h0, hm, h8, h13, h18, h23, h26, h31⟩ := fields34 0#1 13#5 et b a d 29#6 2#2
  refine pairRT p h0 (prefixMajor hm (by decide)) ?_ (hw ▸ rfl)
  rw [decodeFields, hm]; change decVint p w = _; rw [decVint, h26]
  simp [h8, h13, h18, h23, h31]

theorem RoundTrip.vabs (p : Option Pfx) (et : BitVec 3) (d : BitVec 5) (a : BitVec 5) :
    RoundTrip.Statement (.vabs p et d a) := by
  obtain ⟨w, hw, h0, hm, h8, h13, h18, h23, h26, h31⟩ := fields34 0#1 14#5 et 0#5 a d 29#6 2#2
  refine pairRT p h0 (prefixMajor hm (by decide)) ?_ (hw ▸ rfl)
  rw [decodeFields, hm]; change decVint p w = _; rw [decVint, h26]
  simp [h8, h13, h18, h23, h31]

theorem RoundTrip.vsadd (p : Option Pfx) (et : BitVec 3) (d : BitVec 5) (a : BitVec 5) (b : BitVec 5) :
    RoundTrip.Statement (.vsadd p et d a b) := by
  obtain ⟨w, hw, h0, hm, h8, h13, h18, h23, h26, h31⟩ := fields34 0#1 15#5 et b a d 29#6 2#2
  refine pairRT p h0 (prefixMajor hm (by decide)) ?_ (hw ▸ rfl)
  rw [decodeFields, hm]; change decVint p w = _; rw [decVint, h26]
  simp [h8, h13, h18, h23, h31]

theorem RoundTrip.vssub (p : Option Pfx) (et : BitVec 3) (d : BitVec 5) (a : BitVec 5) (b : BitVec 5) :
    RoundTrip.Statement (.vssub p et d a b) := by
  obtain ⟨w, hw, h0, hm, h8, h13, h18, h23, h26, h31⟩ := fields34 0#1 16#5 et b a d 29#6 2#2
  refine pairRT p h0 (prefixMajor hm (by decide)) ?_ (hw ▸ rfl)
  rw [decodeFields, hm]; change decVint p w = _; rw [decVint, h26]
  simp [h8, h13, h18, h23, h31]

theorem RoundTrip.vfadd (p : Option Pfx) (et : BitVec 3) (d : BitVec 5) (a : BitVec 5) (b : BitVec 5) :
    RoundTrip.Statement (.vfadd p et d a b) := by
  obtain ⟨w, hw, h0, hm, h8, h13, h18, h23, h26, h31⟩ := fields34 0#1 0#5 et b a d 30#6 2#2
  refine pairRT p h0 (prefixMajor hm (by decide)) ?_ (hw ▸ rfl)
  rw [decodeFields, hm]; change decVfp p w = _; rw [decVfp, h26]
  simp [h8, h13, h18, h23, h31]

theorem RoundTrip.vfsub (p : Option Pfx) (et : BitVec 3) (d : BitVec 5) (a : BitVec 5) (b : BitVec 5) :
    RoundTrip.Statement (.vfsub p et d a b) := by
  obtain ⟨w, hw, h0, hm, h8, h13, h18, h23, h26, h31⟩ := fields34 0#1 1#5 et b a d 30#6 2#2
  refine pairRT p h0 (prefixMajor hm (by decide)) ?_ (hw ▸ rfl)
  rw [decodeFields, hm]; change decVfp p w = _; rw [decVfp, h26]
  simp [h8, h13, h18, h23, h31]

theorem RoundTrip.vfmul (p : Option Pfx) (et : BitVec 3) (d : BitVec 5) (a : BitVec 5) (b : BitVec 5) :
    RoundTrip.Statement (.vfmul p et d a b) := by
  obtain ⟨w, hw, h0, hm, h8, h13, h18, h23, h26, h31⟩ := fields34 0#1 2#5 et b a d 30#6 2#2
  refine pairRT p h0 (prefixMajor hm (by decide)) ?_ (hw ▸ rfl)
  rw [decodeFields, hm]; change decVfp p w = _; rw [decVfp, h26]
  simp [h8, h13, h18, h23, h31]

theorem RoundTrip.vfma (p : Option Pfx) (et : BitVec 3) (d : BitVec 5) (a : BitVec 5) (b : BitVec 5) :
    RoundTrip.Statement (.vfma p et d a b) := by
  obtain ⟨w, hw, h0, hm, h8, h13, h18, h23, h26, h31⟩ := fields34 0#1 3#5 et b a d 30#6 2#2
  refine pairRT p h0 (prefixMajor hm (by decide)) ?_ (hw ▸ rfl)
  rw [decodeFields, hm]; change decVfp p w = _; rw [decVfp, h26]
  simp [h8, h13, h18, h23, h31]

theorem RoundTrip.vfdiv (p : Option Pfx) (et : BitVec 3) (d : BitVec 5) (a : BitVec 5) (b : BitVec 5) :
    RoundTrip.Statement (.vfdiv p et d a b) := by
  obtain ⟨w, hw, h0, hm, h8, h13, h18, h23, h26, h31⟩ := fields34 0#1 4#5 et b a d 30#6 2#2
  refine pairRT p h0 (prefixMajor hm (by decide)) ?_ (hw ▸ rfl)
  rw [decodeFields, hm]; change decVfp p w = _; rw [decVfp, h26]
  simp [h8, h13, h18, h23, h31]

theorem RoundTrip.vfsqrt (p : Option Pfx) (et : BitVec 3) (d : BitVec 5) (a : BitVec 5) :
    RoundTrip.Statement (.vfsqrt p et d a) := by
  obtain ⟨w, hw, h0, hm, h8, h13, h18, h23, h26, h31⟩ := fields34 0#1 5#5 et 0#5 a d 30#6 2#2
  refine pairRT p h0 (prefixMajor hm (by decide)) ?_ (hw ▸ rfl)
  rw [decodeFields, hm]; change decVfp p w = _; rw [decVfp, h26]
  simp [h8, h13, h18, h23, h31]

theorem RoundTrip.vfmin (p : Option Pfx) (et : BitVec 3) (d : BitVec 5) (a : BitVec 5) (b : BitVec 5) :
    RoundTrip.Statement (.vfmin p et d a b) := by
  obtain ⟨w, hw, h0, hm, h8, h13, h18, h23, h26, h31⟩ := fields34 0#1 6#5 et b a d 30#6 2#2
  refine pairRT p h0 (prefixMajor hm (by decide)) ?_ (hw ▸ rfl)
  rw [decodeFields, hm]; change decVfp p w = _; rw [decVfp, h26]
  simp [h8, h13, h18, h23, h31]

theorem RoundTrip.vfmax (p : Option Pfx) (et : BitVec 3) (d : BitVec 5) (a : BitVec 5) (b : BitVec 5) :
    RoundTrip.Statement (.vfmax p et d a b) := by
  obtain ⟨w, hw, h0, hm, h8, h13, h18, h23, h26, h31⟩ := fields34 0#1 7#5 et b a d 30#6 2#2
  refine pairRT p h0 (prefixMajor hm (by decide)) ?_ (hw ▸ rfl)
  rw [decodeFields, hm]; change decVfp p w = _; rw [decVfp, h26]
  simp [h8, h13, h18, h23, h31]

theorem RoundTrip.vfabs (p : Option Pfx) (et : BitVec 3) (d : BitVec 5) (a : BitVec 5) :
    RoundTrip.Statement (.vfabs p et d a) := by
  obtain ⟨w, hw, h0, hm, h8, h13, h18, h23, h26, h31⟩ := fields34 0#1 8#5 et 0#5 a d 30#6 2#2
  refine pairRT p h0 (prefixMajor hm (by decide)) ?_ (hw ▸ rfl)
  rw [decodeFields, hm]; change decVfp p w = _; rw [decVfp, h26]
  simp [h8, h13, h18, h23, h31]

theorem RoundTrip.vfneg (p : Option Pfx) (et : BitVec 3) (d : BitVec 5) (a : BitVec 5) :
    RoundTrip.Statement (.vfneg p et d a) := by
  obtain ⟨w, hw, h0, hm, h8, h13, h18, h23, h26, h31⟩ := fields34 0#1 9#5 et 0#5 a d 30#6 2#2
  refine pairRT p h0 (prefixMajor hm (by decide)) ?_ (hw ▸ rfl)
  rw [decodeFields, hm]; change decVfp p w = _; rw [decVfp, h26]
  simp [h8, h13, h18, h23, h31]

theorem RoundTrip.vfrcp (p : Option Pfx) (et : BitVec 3) (d : BitVec 5) (a : BitVec 5) :
    RoundTrip.Statement (.vfrcp p et d a) := by
  obtain ⟨w, hw, h0, hm, h8, h13, h18, h23, h26, h31⟩ := fields34 0#1 10#5 et 0#5 a d 30#6 2#2
  refine pairRT p h0 (prefixMajor hm (by decide)) ?_ (hw ▸ rfl)
  rw [decodeFields, hm]; change decVfp p w = _; rw [decVfp, h26]
  simp [h8, h13, h18, h23, h31]

theorem RoundTrip.vfrsq (p : Option Pfx) (et : BitVec 3) (d : BitVec 5) (a : BitVec 5) :
    RoundTrip.Statement (.vfrsq p et d a) := by
  obtain ⟨w, hw, h0, hm, h8, h13, h18, h23, h26, h31⟩ := fields34 0#1 11#5 et 0#5 a d 30#6 2#2
  refine pairRT p h0 (prefixMajor hm (by decide)) ?_ (hw ▸ rfl)
  rw [decodeFields, hm]; change decVfp p w = _; rw [decVfp, h26]
  simp [h8, h13, h18, h23, h31]

theorem RoundTrip.vfexp2 (p : Option Pfx) (et : BitVec 3) (d : BitVec 5) (a : BitVec 5) :
    RoundTrip.Statement (.vfexp2 p et d a) := by
  obtain ⟨w, hw, h0, hm, h8, h13, h18, h23, h26, h31⟩ := fields34 0#1 12#5 et 0#5 a d 30#6 2#2
  refine pairRT p h0 (prefixMajor hm (by decide)) ?_ (hw ▸ rfl)
  rw [decodeFields, hm]; change decVfp p w = _; rw [decVfp, h26]
  simp [h8, h13, h18, h23, h31]

theorem RoundTrip.vflog2 (p : Option Pfx) (et : BitVec 3) (d : BitVec 5) (a : BitVec 5) :
    RoundTrip.Statement (.vflog2 p et d a) := by
  obtain ⟨w, hw, h0, hm, h8, h13, h18, h23, h26, h31⟩ := fields34 0#1 13#5 et 0#5 a d 30#6 2#2
  refine pairRT p h0 (prefixMajor hm (by decide)) ?_ (hw ▸ rfl)
  rw [decodeFields, hm]; change decVfp p w = _; rw [decVfp, h26]
  simp [h8, h13, h18, h23, h31]

theorem RoundTrip.vfclass (p : Option Pfx) (et : BitVec 3) (d : BitVec 5) (a : BitVec 5) :
    RoundTrip.Statement (.vfclass p et d a) := by
  obtain ⟨w, hw, h0, hm, h8, h13, h18, h23, h26, h31⟩ := fields34 0#1 14#5 et 0#5 a d 30#6 2#2
  refine pairRT p h0 (prefixMajor hm (by decide)) ?_ (hw ▸ rfl)
  rw [decodeFields, hm]; change decVfp p w = _; rw [decVfp, h26]
  simp [h8, h13, h18, h23, h31]

theorem RoundTrip.vcmp (p : Option Pfx) (et : BitVec 3) (cc : BitVec 2) (vmd : BitVec 3) (a : BitVec 5) (b : BitVec 5) :
    RoundTrip.Statement (.vcmp p et cc vmd a b) := by
  obtain ⟨w, hw, h0, hm, h8, h11, h13, h18, h23, h26, h31⟩ := fields35 0#1 0#5 et b a cc vmd 31#6 2#2
  refine pairRT p h0 (prefixMajor hm (by decide)) ?_ (hw ▸ rfl)
  rw [decodeFields, hm]; change decVcmp p w = _; rw [decVcmp, h26]
  simp [h8, h11, h13, h18, h23, h31]

theorem RoundTrip.vfcmp (p : Option Pfx) (et : BitVec 3) (cc : BitVec 2) (vmd : BitVec 3) (a : BitVec 5) (b : BitVec 5) :
    RoundTrip.Statement (.vfcmp p et cc vmd a b) := by
  obtain ⟨w, hw, h0, hm, h8, h11, h13, h18, h23, h26, h31⟩ := fields35 0#1 1#5 et b a cc vmd 31#6 2#2
  refine pairRT p h0 (prefixMajor hm (by decide)) ?_ (hw ▸ rfl)
  rw [decodeFields, hm]; change decVcmp p w = _; rw [decVcmp, h26]
  simp [h8, h11, h13, h18, h23, h31]

theorem RoundTrip.vmand (p : Option Pfx) (vmd : BitVec 3) (vma : BitVec 3) (vmb : BitVec 3) :
    RoundTrip.Statement (.vmand p vmd vma vmb) := by
  obtain ⟨w, hw, h0, hm, h8, h11, h13, h16, h18, h21, h23, h26, h31⟩ := fields36 0#1 2#5 0#3 0#2 vmb 0#2 vma 0#2 vmd 31#6 2#2
  refine pairRT p h0 (prefixMajor hm (by decide)) ?_ (hw ▸ rfl)
  rw [decodeFields, hm]; change decVcmp p w = _; rw [decVcmp, h26]
  simp [h8, h11, h13, h16, h18, h21, h23, h31]

theorem RoundTrip.vmor (p : Option Pfx) (vmd : BitVec 3) (vma : BitVec 3) (vmb : BitVec 3) :
    RoundTrip.Statement (.vmor p vmd vma vmb) := by
  obtain ⟨w, hw, h0, hm, h8, h11, h13, h16, h18, h21, h23, h26, h31⟩ := fields36 0#1 3#5 0#3 0#2 vmb 0#2 vma 0#2 vmd 31#6 2#2
  refine pairRT p h0 (prefixMajor hm (by decide)) ?_ (hw ▸ rfl)
  rw [decodeFields, hm]; change decVcmp p w = _; rw [decVcmp, h26]
  simp [h8, h11, h13, h16, h18, h21, h23, h31]

theorem RoundTrip.vmxor (p : Option Pfx) (vmd : BitVec 3) (vma : BitVec 3) (vmb : BitVec 3) :
    RoundTrip.Statement (.vmxor p vmd vma vmb) := by
  obtain ⟨w, hw, h0, hm, h8, h11, h13, h16, h18, h21, h23, h26, h31⟩ := fields36 0#1 4#5 0#3 0#2 vmb 0#2 vma 0#2 vmd 31#6 2#2
  refine pairRT p h0 (prefixMajor hm (by decide)) ?_ (hw ▸ rfl)
  rw [decodeFields, hm]; change decVcmp p w = _; rw [decVcmp, h26]
  simp [h8, h11, h13, h16, h18, h21, h23, h31]

theorem RoundTrip.vmnot (p : Option Pfx) (vmd : BitVec 3) (vma : BitVec 3) :
    RoundTrip.Statement (.vmnot p vmd vma) := by
  obtain ⟨w, hw, h0, hm, h8, h11, h13, h16, h18, h23, h26, h31⟩ := fields37 0#1 5#5 0#3 0#5 0#2 vma 0#2 vmd 31#6 2#2
  refine pairRT p h0 (prefixMajor hm (by decide)) ?_ (hw ▸ rfl)
  rw [decodeFields, hm]; change decVcmp p w = _; rw [decVcmp, h26]
  simp [h8, h11, h13, h16, h18, h23, h31]

theorem RoundTrip.vmpop (p : Option Pfx) (d : Dst) (vma : BitVec 3) : RoundTrip.Statement (.vmpop p d vma) := by
  obtain ⟨w, hw, h0, hm, h8, h13, h16, h18, h23, h26, h31⟩ := fields38 0#1 6#5 0#3 0#5 0#2 vma d.bits 31#6 2#2
  refine pairRT p h0 (prefixMajor hm (by decide)) ?_ (hw ▸ rfl)
  rw [decodeFields, hm]; change decVcmp p w = _; rw [decVcmp, h26]
  simp [h8, h13, h16, h18, h23, h31]

theorem RoundTrip.vmfirst (p : Option Pfx) (d : Dst) (vma : BitVec 3) : RoundTrip.Statement (.vmfirst p d vma) := by
  obtain ⟨w, hw, h0, hm, h8, h13, h16, h18, h23, h26, h31⟩ := fields38 0#1 7#5 0#3 0#5 0#2 vma d.bits 31#6 2#2
  refine pairRT p h0 (prefixMajor hm (by decide)) ?_ (hw ▸ rfl)
  rw [decodeFields, hm]; change decVcmp p w = _; rw [decVcmp, h26]
  simp [h8, h13, h16, h18, h23, h31]

theorem RoundTrip.vcvt (p : Option Pfx) (et : BitVec 3) (d : BitVec 5) (a : BitVec 5) (src : BitVec 3) (part : BitVec 2) :
    RoundTrip.Statement (.vcvt p et d a src part) := by
  obtain ⟨w, hw, h0, hm, h8, h13, h18, h21, h23, h26, h31⟩ := fields39 0#1 0#5 et part src a d 32#6 2#2
  refine pairRT p h0 (prefixMajor hm (by decide)) ?_ (hw ▸ rfl)
  rw [decodeFields, hm]; change decVcvt p w = _; rw [decVcvt, h26]
  simp [h8, h13, h18, h21, h23, h31]

theorem RoundTrip.vqbfp (p : Option Pfx) (et : BitVec 3) (d : BitVec 5) (a : BitVec 5) (m1 : BitVec 3) :
    RoundTrip.Statement (.vqbfp p et d a m1) := by
  obtain ⟨w, hw, h0, hm, h8, h13, h18, h21, h23, h26, h31⟩ := fields39 0#1 1#5 et 0#2 m1 a d 32#6 2#2
  refine pairRT p h0 (prefixMajor hm (by decide)) ?_ (hw ▸ rfl)
  rw [decodeFields, hm]; change decVcvt p w = _; rw [decVcvt, h26]
  simp [h8, h13, h18, h21, h23, h31]

theorem RoundTrip.vdqbfp (p : Option Pfx) (et : BitVec 3) (d : BitVec 5) (a : BitVec 5) (m1 : BitVec 3) :
    RoundTrip.Statement (.vdqbfp p et d a m1) := by
  obtain ⟨w, hw, h0, hm, h8, h13, h18, h21, h23, h26, h31⟩ := fields39 0#1 2#5 et 0#2 m1 a d 32#6 2#2
  refine pairRT p h0 (prefixMajor hm (by decide)) ?_ (hw ▸ rfl)
  rw [decodeFields, hm]; change decVcvt p w = _; rw [decVcvt, h26]
  simp [h8, h13, h18, h21, h23, h31]

theorem RoundTrip.vld (p : Option Pfx) (et : BitVec 3) (d : BitVec 5) (k : BitVec 3) (off : BitVec 5) :
    RoundTrip.Statement (.vld p et d k off) := by
  obtain ⟨w, hw, h0, hm, h8, h13, h16, h18, h23, h26, h31⟩ := fields38 0#1 0#5 et off 0#2 k d 33#6 2#2
  refine pairRT p h0 (prefixMajor hm (by decide)) ?_ (hw ▸ rfl)
  rw [decodeFields, hm]; change decVmem p w = _; rw [decVmem, h26]
  simp [h8, h13, h16, h18, h23, h31]

theorem RoundTrip.vst (p : Option Pfx) (et : BitVec 3) (d : BitVec 5) (k : BitVec 3) (off : BitVec 5) :
    RoundTrip.Statement (.vst p et d k off) := by
  obtain ⟨w, hw, h0, hm, h8, h13, h16, h18, h23, h26, h31⟩ := fields38 0#1 1#5 et off 0#2 k d 33#6 2#2
  refine pairRT p h0 (prefixMajor hm (by decide)) ?_ (hw ▸ rfl)
  rw [decodeFields, hm]; change decVmem p w = _; rw [decVmem, h26]
  simp [h8, h13, h16, h18, h23, h31]

theorem RoundTrip.vlds (p : Option Pfx) (et : BitVec 3) (d : BitVec 5) (k : BitVec 3) (b : Src) :
    RoundTrip.Statement (.vlds p et d k b) := by
  obtain ⟨w, hw, h0, hm, h8, h13, h16, h18, h23, h26, h31⟩ := fields38 0#1 2#5 et b.bits 0#2 k d 33#6 2#2
  refine pairRT p h0 (prefixMajor hm (by decide)) ?_ (hw ▸ rfl)
  rw [decodeFields, hm]; change decVmem p w = _; rw [decVmem, h26]
  simp [h8, h13, h16, h18, h23, h31]

theorem RoundTrip.vsts (p : Option Pfx) (et : BitVec 3) (d : BitVec 5) (k : BitVec 3) (b : Src) :
    RoundTrip.Statement (.vsts p et d k b) := by
  obtain ⟨w, hw, h0, hm, h8, h13, h16, h18, h23, h26, h31⟩ := fields38 0#1 3#5 et b.bits 0#2 k d 33#6 2#2
  refine pairRT p h0 (prefixMajor hm (by decide)) ?_ (hw ▸ rfl)
  rw [decodeFields, hm]; change decVmem p w = _; rw [decVmem, h26]
  simp [h8, h13, h16, h18, h23, h31]

theorem RoundTrip.vgth (p : Option Pfx) (et : BitVec 3) (d : BitVec 5) (k : BitVec 3) (b : BitVec 5) :
    RoundTrip.Statement (.vgth p et d k b) := by
  obtain ⟨w, hw, h0, hm, h8, h13, h16, h18, h23, h26, h31⟩ := fields38 0#1 4#5 et b 0#2 k d 33#6 2#2
  refine pairRT p h0 (prefixMajor hm (by decide)) ?_ (hw ▸ rfl)
  rw [decodeFields, hm]; change decVmem p w = _; rw [decVmem, h26]
  simp [h8, h13, h16, h18, h23, h31]

theorem RoundTrip.vsct (p : Option Pfx) (et : BitVec 3) (d : BitVec 5) (k : BitVec 3) (b : BitVec 5) :
    RoundTrip.Statement (.vsct p et d k b) := by
  obtain ⟨w, hw, h0, hm, h8, h13, h16, h18, h23, h26, h31⟩ := fields38 0#1 5#5 et b 0#2 k d 33#6 2#2
  refine pairRT p h0 (prefixMajor hm (by decide)) ?_ (hw ▸ rfl)
  rw [decodeFields, hm]; change decVmem p w = _; rw [decVmem, h26]
  simp [h8, h13, h16, h18, h23, h31]

theorem RoundTrip.vbcast (p : Option Pfx) (et : BitVec 3) (d : BitVec 5) (a : Src) :
    RoundTrip.Statement (.vbcast p et d a) := by
  obtain ⟨w, hw, h0, hm, h8, h13, h18, h23, h26, h31⟩ := fields34 0#1 0#5 et 0#5 a.bits d 34#6 2#2
  refine pairRT p h0 (prefixMajor hm (by decide)) ?_ (hw ▸ rfl)
  rw [decodeFields, hm]; change decVperm p w = _; rw [decVperm, h26]
  simp [h8, h13, h18, h23, h31]

theorem RoundTrip.vext (p : Option Pfx) (et : BitVec 3) (d : Dst) (a : BitVec 5) (b : Src) :
    RoundTrip.Statement (.vext p et d a b) := by
  obtain ⟨w, hw, h0, hm, h8, h13, h18, h23, h26, h31⟩ := fields34 0#1 1#5 et b.bits a d.bits 34#6 2#2
  refine pairRT p h0 (prefixMajor hm (by decide)) ?_ (hw ▸ rfl)
  rw [decodeFields, hm]; change decVperm p w = _; rw [decVperm, h26]
  simp [h8, h13, h18, h23, h31]

theorem RoundTrip.vins (p : Option Pfx) (et : BitVec 3) (d : BitVec 5) (a : Src) (b : Src) :
    RoundTrip.Statement (.vins p et d a b) := by
  obtain ⟨w, hw, h0, hm, h8, h13, h18, h23, h26, h31⟩ := fields34 0#1 2#5 et b.bits a.bits d 34#6 2#2
  refine pairRT p h0 (prefixMajor hm (by decide)) ?_ (hw ▸ rfl)
  rw [decodeFields, hm]; change decVperm p w = _; rw [decVperm, h26]
  simp [h8, h13, h18, h23, h31]

theorem RoundTrip.viota (p : Option Pfx) (et : BitVec 3) (d : BitVec 5) : RoundTrip.Statement (.viota p et d) := by
  obtain ⟨w, hw, h0, hm, h8, h13, h18, h23, h26, h31⟩ := fields34 0#1 3#5 et 0#5 0#5 d 34#6 2#2
  refine pairRT p h0 (prefixMajor hm (by decide)) ?_ (hw ▸ rfl)
  rw [decodeFields, hm]; change decVperm p w = _; rw [decVperm, h26]
  simp [h8, h13, h18, h23, h31]

theorem RoundTrip.vshuf (p : Option Pfx) (et : BitVec 3) (d : BitVec 5) (a : BitVec 5) (b : BitVec 5) :
    RoundTrip.Statement (.vshuf p et d a b) := by
  obtain ⟨w, hw, h0, hm, h8, h13, h18, h23, h26, h31⟩ := fields34 0#1 4#5 et b a d 34#6 2#2
  refine pairRT p h0 (prefixMajor hm (by decide)) ?_ (hw ▸ rfl)
  rw [decodeFields, hm]; change decVperm p w = _; rw [decVperm, h26]
  simp [h8, h13, h18, h23, h31]

theorem RoundTrip.vredsum (p : Option Pfx) (et : BitVec 3) (d : Dst) (a : BitVec 5) :
    RoundTrip.Statement (.vredsum p et d a) := by
  obtain ⟨w, hw, h0, hm, h8, h13, h18, h23, h26, h31⟩ := fields34 0#1 5#5 et 0#5 a d.bits 34#6 2#2
  refine pairRT p h0 (prefixMajor hm (by decide)) ?_ (hw ▸ rfl)
  rw [decodeFields, hm]; change decVperm p w = _; rw [decVperm, h26]
  simp [h8, h13, h18, h23, h31]

theorem RoundTrip.vredmax (p : Option Pfx) (et : BitVec 3) (d : Dst) (a : BitVec 5) :
    RoundTrip.Statement (.vredmax p et d a) := by
  obtain ⟨w, hw, h0, hm, h8, h13, h18, h23, h26, h31⟩ := fields34 0#1 6#5 et 0#5 a d.bits 34#6 2#2
  refine pairRT p h0 (prefixMajor hm (by decide)) ?_ (hw ▸ rfl)
  rw [decodeFields, hm]; change decVperm p w = _; rw [decVperm, h26]
  simp [h8, h13, h18, h23, h31]

theorem RoundTrip.vredmin (p : Option Pfx) (et : BitVec 3) (d : Dst) (a : BitVec 5) :
    RoundTrip.Statement (.vredmin p et d a) := by
  obtain ⟨w, hw, h0, hm, h8, h13, h18, h23, h26, h31⟩ := fields34 0#1 7#5 et 0#5 a d.bits 34#6 2#2
  refine pairRT p h0 (prefixMajor hm (by decide)) ?_ (hw ▸ rfl)
  rw [decodeFields, hm]; change decVperm p w = _; rw [decVperm, h26]
  simp [h8, h13, h18, h23, h31]

theorem RoundTrip.vtbl (p : Option Pfx) (et : BitVec 3) (d : BitVec 5) (a : BitVec 5) (kb : BitVec 3) :
    RoundTrip.Statement (.vtbl p et d a kb) := by
  obtain ⟨w, hw, h0, hm, h8, h13, h18, h21, h23, h26, h31⟩ := fields39 0#1 0#5 et 0#2 kb a d 35#6 2#2
  refine pairRT p h0 (prefixMajor hm (by decide)) ?_ (hw ▸ rfl)
  rw [decodeFields, hm]; change decVspec p w = _; rw [decVspec, h26]
  simp [h8, h13, h18, h21, h23, h31]

theorem RoundTrip.vrng (p : Option Pfx) (et : BitVec 3) (d : BitVec 5) : RoundTrip.Statement (.vrng p et d) := by
  obtain ⟨w, hw, h0, hm, h8, h13, h18, h23, h26, h31⟩ := fields34 0#1 1#5 et 0#5 0#5 d 35#6 2#2
  refine pairRT p h0 (prefixMajor hm (by decide)) ?_ (hw ▸ rfl)
  rw [decodeFields, hm]; change decVspec p w = _; rw [decVspec, h26]
  simp [h8, h13, h18, h23, h31]

theorem RoundTrip.vrngn (p : Option Pfx) (et : BitVec 3) (d : BitVec 5) : RoundTrip.Statement (.vrngn p et d) := by
  obtain ⟨w, hw, h0, hm, h8, h13, h18, h23, h26, h31⟩ := fields34 0#1 2#5 et 0#5 0#5 d 35#6 2#2
  refine pairRT p h0 (prefixMajor hm (by decide)) ?_ (hw ▸ rfl)
  rw [decodeFields, hm]; change decVspec p w = _; rw [decVspec, h26]
  simp [h8, h13, h18, h23, h31]

theorem RoundTrip.madd (p : Option Pfx) (cov : BitVec 3) (d : BitVec 4) (a : BitVec 4) (b : BitVec 4) :
    RoundTrip.Statement (.madd p cov d a b) := by
  obtain ⟨w, hw, h0, hm, h8, h12, h13, h17, h18, h22, h23, h26, h31⟩ := fields40 0#1 0#5 cov 0#1 b 0#1 a 0#1 d 36#6 2#2
  refine pairRT p h0 (prefixMajor hm (by decide)) ?_ (hw ▸ rfl)
  rw [decodeFields, hm]; change decMarith p w = _; rw [decMarith, h26]
  simp [h8, h12, h13, h17, h18, h22, h23, h31]

theorem RoundTrip.msub (p : Option Pfx) (cov : BitVec 3) (d : BitVec 4) (a : BitVec 4) (b : BitVec 4) :
    RoundTrip.Statement (.msub p cov d a b) := by
  obtain ⟨w, hw, h0, hm, h8, h12, h13, h17, h18, h22, h23, h26, h31⟩ := fields40 0#1 1#5 cov 0#1 b 0#1 a 0#1 d 36#6 2#2
  refine pairRT p h0 (prefixMajor hm (by decide)) ?_ (hw ▸ rfl)
  rw [decodeFields, hm]; change decMarith p w = _; rw [decMarith, h26]
  simp [h8, h12, h13, h17, h18, h22, h23, h31]

theorem RoundTrip.mmul (p : Option Pfx) (cov : BitVec 3) (d : BitVec 4) (a : BitVec 4) (b : BitVec 4) :
    RoundTrip.Statement (.mmul p cov d a b) := by
  obtain ⟨w, hw, h0, hm, h8, h12, h13, h17, h18, h22, h23, h26, h31⟩ := fields40 0#1 2#5 cov 0#1 b 0#1 a 0#1 d 36#6 2#2
  refine pairRT p h0 (prefixMajor hm (by decide)) ?_ (hw ▸ rfl)
  rw [decodeFields, hm]; change decMarith p w = _; rw [decMarith, h26]
  simp [h8, h12, h13, h17, h18, h22, h23, h31]

theorem RoundTrip.mscale (p : Option Pfx) (d : BitVec 4) (a : BitVec 4) (b : BitVec 5) :
    RoundTrip.Statement (.mscale p d a b) := by
  obtain ⟨w, hw, h0, hm, h8, h12, h13, h17, h18, h23, h26, h31⟩ := fields41 0#1 3#5 0#3 b 0#1 a 0#1 d 36#6 2#2
  refine pairRT p h0 (prefixMajor hm (by decide)) ?_ (hw ▸ rfl)
  rw [decodeFields, hm]; change decMarith p w = _; rw [decMarith, h26]
  simp [h8, h12, h13, h17, h18, h23, h31]

theorem RoundTrip.mfma (p : Option Pfx) (cov : BitVec 3) (d : BitVec 4) (a : BitVec 4) (b : BitVec 5) :
    RoundTrip.Statement (.mfma p cov d a b) := by
  obtain ⟨w, hw, h0, hm, h8, h12, h13, h17, h18, h23, h26, h31⟩ := fields41 0#1 4#5 cov b 0#1 a 0#1 d 36#6 2#2
  refine pairRT p h0 (prefixMajor hm (by decide)) ?_ (hw ▸ rfl)
  rw [decodeFields, hm]; change decMarith p w = _; rw [decMarith, h26]
  simp [h8, h12, h13, h17, h18, h23, h31]

theorem RoundTrip.mneg (p : Option Pfx) (d : BitVec 4) (a : BitVec 4) : RoundTrip.Statement (.mneg p d a) := by
  obtain ⟨w, hw, h0, hm, h8, h12, h13, h17, h18, h23, h26, h31⟩ := fields41 0#1 5#5 0#3 0#5 0#1 a 0#1 d 36#6 2#2
  refine pairRT p h0 (prefixMajor hm (by decide)) ?_ (hw ▸ rfl)
  rw [decodeFields, hm]; change decMarith p w = _; rw [decMarith, h26]
  simp [h8, h12, h13, h17, h18, h23, h31]

theorem RoundTrip.mrelu (p : Option Pfx) (d : BitVec 4) (a : BitVec 4) : RoundTrip.Statement (.mrelu p d a) := by
  obtain ⟨w, hw, h0, hm, h8, h12, h13, h17, h18, h23, h26, h31⟩ := fields41 0#1 0#5 0#3 0#5 0#1 a 0#1 d 37#6 2#2
  refine pairRT p h0 (prefixMajor hm (by decide)) ?_ (hw ▸ rfl)
  rw [decodeFields, hm]; change decMnonl p w = _; rw [decMnonl, h26]
  simp [h8, h12, h13, h17, h18, h23, h31]

theorem RoundTrip.msig (p : Option Pfx) (d : BitVec 4) (a : BitVec 4) : RoundTrip.Statement (.msig p d a) := by
  obtain ⟨w, hw, h0, hm, h8, h12, h13, h17, h18, h23, h26, h31⟩ := fields41 0#1 1#5 0#3 0#5 0#1 a 0#1 d 37#6 2#2
  refine pairRT p h0 (prefixMajor hm (by decide)) ?_ (hw ▸ rfl)
  rw [decodeFields, hm]; change decMnonl p w = _; rw [decMnonl, h26]
  simp [h8, h12, h13, h17, h18, h23, h31]

theorem RoundTrip.mexp (p : Option Pfx) (d : BitVec 4) (a : BitVec 4) : RoundTrip.Statement (.mexp p d a) := by
  obtain ⟨w, hw, h0, hm, h8, h12, h13, h17, h18, h23, h26, h31⟩ := fields41 0#1 2#5 0#3 0#5 0#1 a 0#1 d 37#6 2#2
  refine pairRT p h0 (prefixMajor hm (by decide)) ?_ (hw ▸ rfl)
  rw [decodeFields, hm]; change decMnonl p w = _; rw [decMnonl, h26]
  simp [h8, h12, h13, h17, h18, h23, h31]

theorem RoundTrip.msqr (p : Option Pfx) (d : BitVec 4) (a : BitVec 4) : RoundTrip.Statement (.msqr p d a) := by
  obtain ⟨w, hw, h0, hm, h8, h12, h13, h17, h18, h23, h26, h31⟩ := fields41 0#1 3#5 0#3 0#5 0#1 a 0#1 d 37#6 2#2
  refine pairRT p h0 (prefixMajor hm (by decide)) ?_ (hw ▸ rfl)
  rw [decodeFields, hm]; change decMnonl p w = _; rw [decMnonl, h26]
  simp [h8, h12, h13, h17, h18, h23, h31]

theorem RoundTrip.mset (p : Option Pfx) (d : BitVec 4) (a : BitVec 5) (b : BitVec 5) :
    RoundTrip.Statement (.mset p d a b) := by
  obtain ⟨w, hw, h0, hm, h8, h12, h13, h18, h23, h26, h31⟩ := fields42 0#1 0#5 0#3 b a 0#1 d 38#6 2#2
  refine pairRT p h0 (prefixMajor hm (by decide)) ?_ (hw ▸ rfl)
  rw [decodeFields, hm]; change decMmove p w = _; rw [decMmove, h26]
  simp [h8, h12, h13, h18, h23, h31]

theorem RoundTrip.mmean (p : Option Pfx) (d : BitVec 5) (a : BitVec 4) : RoundTrip.Statement (.mmean p d a) := by
  obtain ⟨w, hw, h0, hm, h8, h13, h17, h18, h23, h26, h31⟩ := fields43 0#1 1#5 0#3 0#5 0#1 a d 38#6 2#2
  refine pairRT p h0 (prefixMajor hm (by decide)) ?_ (hw ▸ rfl)
  rw [decodeFields, hm]; change decMmove p w = _; rw [decMmove, h26]
  simp [h8, h13, h17, h18, h23, h31]

theorem RoundTrip.mvar (p : Option Pfx) (d : BitVec 5) (a : BitVec 4) : RoundTrip.Statement (.mvar p d a) := by
  obtain ⟨w, hw, h0, hm, h8, h13, h17, h18, h23, h26, h31⟩ := fields43 0#1 2#5 0#3 0#5 0#1 a d 38#6 2#2
  refine pairRT p h0 (prefixMajor hm (by decide)) ?_ (hw ▸ rfl)
  rw [decodeFields, hm]; change decMmove p w = _; rw [decMmove, h26]
  simp [h8, h13, h17, h18, h23, h31]

theorem RoundTrip.mcoll (p : Option Pfx) (mode : BitVec 3) (d : BitVec 5) (a : BitVec 4) :
    RoundTrip.Statement (.mcoll p mode d a) := by
  obtain ⟨w, hw, h0, hm, h8, h13, h17, h18, h21, h23, h26, h31⟩ := fields44 0#1 3#5 0#3 0#2 mode 0#1 a d 38#6 2#2
  refine pairRT p h0 (prefixMajor hm (by decide)) ?_ (hw ▸ rfl)
  rw [decodeFields, hm]; change decMmove p w = _; rw [decMmove, h26]
  simp [h8, h13, h17, h18, h21, h23, h31]

theorem RoundTrip.mld (p : Option Pfx) (d : BitVec 4) (k : BitVec 3) (off : BitVec 5) :
    RoundTrip.Statement (.mld p d k off) := by
  obtain ⟨w, hw, h0, hm, h8, h12, h13, h16, h18, h23, h26, h31⟩ := fields45 0#1 4#5 0#3 off 0#2 k 0#1 d 38#6 2#2
  refine pairRT p h0 (prefixMajor hm (by decide)) ?_ (hw ▸ rfl)
  rw [decodeFields, hm]; change decMmove p w = _; rw [decMmove, h26]
  simp [h8, h12, h13, h16, h18, h23, h31]

theorem RoundTrip.mst (p : Option Pfx) (d : BitVec 4) (k : BitVec 3) (off : BitVec 5) :
    RoundTrip.Statement (.mst p d k off) := by
  obtain ⟨w, hw, h0, hm, h8, h12, h13, h16, h18, h23, h26, h31⟩ := fields45 0#1 5#5 0#3 off 0#2 k 0#1 d 38#6 2#2
  refine pairRT p h0 (prefixMajor hm (by decide)) ?_ (hw ▸ rfl)
  rw [decodeFields, hm]; change decMmove p w = _; rw [decMmove, h26]
  simp [h8, h12, h13, h16, h18, h23, h31]

theorem RoundTrip.mchk (p : Option Pfx) (d : Dst) (a : BitVec 4) : RoundTrip.Statement (.mchk p d a) := by
  obtain ⟨w, hw, h0, hm, h8, h13, h17, h18, h23, h26, h31⟩ := fields43 0#1 6#5 0#3 0#5 0#1 a d.bits 38#6 2#2
  refine pairRT p h0 (prefixMajor hm (by decide)) ?_ (hw ▸ rfl)
  rw [decodeFields, hm]; change decMmove p w = _; rw [decMmove, h26]
  simp [h8, h13, h17, h18, h23, h31]

theorem RoundTrip.zld (expand : Bool) (zd : BitVec 4) (ka : BitVec 3) (b : Src) :
    RoundTrip.Statement (.zld expand zd ka b) := by
  obtain ⟨w, hw, h0, hm, h8, h12, h13, h16, h18, h23, b28, h29⟩ := fields46 0#3 expand 0#5 b.bits 0#2 ka 0#1 zd 39#6 2#2
  refine wordRT h0 ?_ (hw ▸ rfl)
  rw [decodeFields, hm]; change decTile w = _; rw [decTile, h23]
  simp [h8, h12, h13, h16, h18, b28, h29]

theorem RoundTrip.zst (zd : BitVec 4) (ka : BitVec 3) (b : Src) : RoundTrip.Statement (.zst zd ka b) := by
  obtain ⟨w, hw, h0, hm, h8, h12, h13, h16, h18, h23, h28⟩ := fields47 0#4 1#5 b.bits 0#2 ka 0#1 zd 39#6 2#2
  refine wordRT h0 ?_ (hw ▸ rfl)
  rw [decodeFields, hm]; change decTile w = _; rw [decTile, h23]
  simp [h8, h12, h13, h16, h18, h28]

theorem RoundTrip.zzero (zd : BitVec 4) : RoundTrip.Statement (.zzero zd) := by
  obtain ⟨w, hw, h0, hm, h8, h12, h13, h18, h23, h28⟩ := fields7 0#4 2#5 0#5 0#5 0#1 zd 39#6 2#2
  refine wordRT h0 ?_ (hw ▸ rfl)
  rw [decodeFields, hm]; change decTile w = _; rw [decTile, h23]
  simp [h8, h12, h13, h18, h28]

theorem RoundTrip.zrel (zd : BitVec 4) : RoundTrip.Statement (.zrel zd) := by
  obtain ⟨w, hw, h0, hm, h8, h12, h13, h18, h23, h28⟩ := fields7 0#4 3#5 0#5 0#5 0#1 zd 39#6 2#2
  refine wordRT h0 ?_ (hw ▸ rfl)
  rw [decodeFields, hm]; change decTile w = _; rw [decTile, h23]
  simp [h8, h12, h13, h18, h28]

theorem RoundTrip.zstate (d : Dst) (za : BitVec 4) : RoundTrip.Statement (.zstate d za) := by
  obtain ⟨w, hw, h0, hm, h8, h13, h17, h18, h23, h28⟩ := fields9 0#4 4#5 0#5 0#1 za d.bits 39#6 2#2
  refine wordRT h0 ?_ (hw ▸ rfl)
  rw [decodeFields, hm]; change decTile w = _; rw [decTile, h23]
  simp [h8, h13, h17, h18, h28]

theorem RoundTrip.zmov (zd : BitVec 4) (za : BitVec 4) : RoundTrip.Statement (.zmov zd za) := by
  obtain ⟨w, hw, h0, hm, h8, h12, h13, h17, h18, h23, h28⟩ := fields48 0#4 5#5 0#5 0#1 za 0#1 zd 39#6 2#2
  refine wordRT h0 ?_ (hw ▸ rfl)
  rw [decodeFields, hm]; change decTile w = _; rw [decTile, h23]
  simp [h8, h12, h13, h17, h18, h28]

theorem RoundTrip.wload (za : BitVec 4) : RoundTrip.Statement (.wload za) := by
  obtain ⟨w, hw, h0, hm, h8, h13, h17, h18, h23, h28⟩ := fields9 0#4 0#5 0#5 0#1 za 0#5 40#6 2#2
  refine wordRT h0 ?_ (hw ▸ rfl)
  rw [decodeFields, hm]; change decMatrix none w = _; rw [decMatrix, h23]
  simp [h8, h13, h17, h18, h28]

theorem RoundTrip.wswap : RoundTrip.Statement .wswap := by
  obtain ⟨w, hw, h0, hm, h8, h13, h18, h23, h28⟩ := fields1 0#4 1#5 0#5 0#5 0#5 40#6 2#2
  refine wordRT h0 ?_ (hw ▸ rfl)
  rw [decodeFields, hm]; change decMatrix none w = _; rw [decMatrix, h23]
  simp [h8, h13, h18, h28]

theorem RoundTrip.mma (yd : BitVec 3) (za : BitVec 4) : RoundTrip.Statement (.mma yd za) := by
  obtain ⟨w, hw, h0, hm, h8, h11, h13, h17, h18, h23, h28⟩ := fields49 0#4 2#5 0#5 0#1 za 0#2 yd 40#6 2#2
  refine wordRT h0 ?_ (hw ▸ rfl)
  rw [decodeFields, hm]; change decMatrix none w = _; rw [decMatrix, h23]
  simp [h8, h11, h13, h17, h18, h28]

theorem RoundTrip.mmam (yd : BitVec 3) (za : BitVec 4) : RoundTrip.Statement (.mmam yd za) := by
  obtain ⟨w, hw, h0, hm, h8, h11, h13, h17, h18, h23, h28⟩ := fields49 0#4 3#5 0#5 0#1 za 0#2 yd 40#6 2#2
  refine wordRT h0 ?_ (hw ▸ rfl)
  rw [decodeFields, hm]; change decMatrix none w = _; rw [decMatrix, h23]
  simp [h8, h11, h13, h17, h18, h28]

theorem RoundTrip.yzero (mom : Bool) (yd : BitVec 3) : RoundTrip.Statement (.yzero mom yd) := by
  obtain ⟨w, hw, h0, hm, h8, h11, h13, h18, h23, b28, h29⟩ := fields50 0#3 mom 4#5 0#5 0#5 0#2 yd 40#6 2#2
  refine wordRT h0 ?_ (hw ▸ rfl)
  rw [decodeFields, hm]; change decMatrix none w = _; rw [decMatrix, h23]
  simp [h8, h11, h13, h18, b28, h29]

theorem RoundTrip.ydrain (p : Option Pfx) (zero : Bool) (zd : BitVec 4) (ya : BitVec 3) (b : Src) :
    RoundTrip.Statement (.ydrain p zero zd ya b) := by
  obtain ⟨w, hw, h0, hm, h8, h12, h13, h16, h18, h23, b28, h29⟩ := fields46 0#3 zero 5#5 b.bits 0#2 ya 0#1 zd 40#6 2#2
  refine pairRT p h0 (prefixMatrix hm h23) ?_ (hw ▸ rfl)
  rw [decodeFields, hm]; change decMatrix p w = _; rw [decMatrix, h23]
  simp [h8, h12, h13, h16, h18, b28, h29]

theorem RoundTrip.ymov (yd : BitVec 3) (ya : BitVec 3) : RoundTrip.Statement (.ymov yd ya) := by
  obtain ⟨w, hw, h0, hm, h8, h11, h13, h16, h18, h23, h28⟩ := fields11 0#4 6#5 0#5 0#2 ya 0#2 yd 40#6 2#2
  refine wordRT h0 ?_ (hw ▸ rfl)
  rw [decodeFields, hm]; change decMatrix none w = _; rw [decMatrix, h23]
  simp [h8, h11, h13, h16, h18, h28]

theorem RoundTrip.qfuse (a : Src) : RoundTrip.Statement (.qfuse a) := by
  obtain ⟨w, hw, h0, hm, h8, h13, h18, h23, h28⟩ := fields1 0#4 7#5 0#5 a.bits 0#5 40#6 2#2
  refine wordRT h0 ?_ (hw ▸ rfl)
  rw [decodeFields, hm]; change decMatrix none w = _; rw [decMatrix, h23]
  simp [h8, h13, h18, h28]

theorem RoundTrip.qsplit (a : Src) : RoundTrip.Statement (.qsplit a) := by
  obtain ⟨w, hw, h0, hm, h8, h13, h18, h23, h28⟩ := fields1 0#4 8#5 0#5 a.bits 0#5 40#6 2#2
  refine wordRT h0 ?_ (hw ▸ rfl)
  rw [decodeFields, hm]; change decMatrix none w = _; rw [decMatrix, h23]
  simp [h8, h13, h18, h28]

theorem RoundTrip.copy (k : BitVec 3) (ge : Bool) (sense : Bool) (g : BitVec 4) :
    RoundTrip.Statement (.copy k ge sense g) := by
  obtain ⟨w, hw, h0, hm, h8, h11, b15, b16, h17, h23, h28⟩ := fields51 0#4 0#5 0#6 ge sense g k 41#6 2#2
  refine wordRT h0 ?_ (hw ▸ rfl)
  rw [decodeFields, hm]; change decEngine w = _; rw [decEngine, h23]
  simp [h8, h11, b15, b16, h17, h28]

theorem RoundTrip.xform (k : BitVec 3) (ge : Bool) (sense : Bool) (g : BitVec 4) :
    RoundTrip.Statement (.xform k ge sense g) := by
  obtain ⟨w, hw, h0, hm, h8, h11, b15, b16, h17, h23, h28⟩ := fields51 0#4 1#5 0#6 ge sense g k 41#6 2#2
  refine wordRT h0 ?_ (hw ▸ rfl)
  rw [decodeFields, hm]; change decEngine w = _; rw [decEngine, h23]
  simp [h8, h11, b15, b16, h17, h28]

theorem RoundTrip.coll (k : BitVec 3) (ge : Bool) (sense : Bool) (g : BitVec 4) :
    RoundTrip.Statement (.coll k ge sense g) := by
  obtain ⟨w, hw, h0, hm, h8, h11, b15, b16, h17, h23, h28⟩ := fields51 0#4 2#5 0#6 ge sense g k 41#6 2#2
  refine wordRT h0 ?_ (hw ▸ rfl)
  rw [decodeFields, hm]; change decEngine w = _; rw [decEngine, h23]
  simp [h8, h11, b15, b16, h17, h28]

theorem RoundTrip.trace (k : BitVec 3) (ge : Bool) (sense : Bool) (g : BitVec 4) :
    RoundTrip.Statement (.trace k ge sense g) := by
  obtain ⟨w, hw, h0, hm, h8, h11, b15, b16, h17, h23, h28⟩ := fields51 0#4 3#5 0#6 ge sense g k 41#6 2#2
  refine wordRT h0 ?_ (hw ▸ rfl)
  rw [decodeFields, hm]; change decEngine w = _; rw [decEngine, h23]
  simp [h8, h11, b15, b16, h17, h28]

theorem RoundTrip.ewait (d : Dst) (ka : BitVec 3) : RoundTrip.Statement (.ewait d ka) := by
  obtain ⟨w, hw, h0, hm, h8, h13, h16, h18, h23, h28⟩ := fields5 0#4 4#5 0#5 0#2 ka d.bits 41#6 2#2
  refine wordRT h0 ?_ (hw ▸ rfl)
  rw [decodeFields, hm]; change decEngine w = _; rw [decEngine, h23]
  simp [h8, h13, h16, h18, h28]

theorem RoundTrip.estat (d : Dst) (ka : BitVec 3) : RoundTrip.Statement (.estat d ka) := by
  obtain ⟨w, hw, h0, hm, h8, h13, h16, h18, h23, h28⟩ := fields5 0#4 5#5 0#5 0#2 ka d.bits 41#6 2#2
  refine wordRT h0 ?_ (hw ▸ rfl)
  rw [decodeFields, hm]; change decEngine w = _; rw [decEngine, h23]
  simp [h8, h13, h16, h18, h28]

theorem RoundTrip.lnew (d : Dst) (a : Src) : RoundTrip.Statement (.lnew d a) := by
  obtain ⟨w, hw, h0, hm, h8, h13, h18, h23, h28⟩ := fields1 0#4 0#5 0#5 a.bits d.bits 42#6 2#2
  refine wordRT h0 ?_ (hw ▸ rfl)
  rw [decodeFields, hm]; change decLayer w = _; rw [decLayer, h23]
  simp [h8, h13, h18, h28]

theorem RoundTrip.lfree (a : Src) : RoundTrip.Statement (.lfree a) := by
  obtain ⟨w, hw, h0, hm, h8, h13, h18, h23, h28⟩ := fields1 0#4 1#5 0#5 a.bits 0#5 42#6 2#2
  refine wordRT h0 ?_ (hw ▸ rfl)
  rw [decodeFields, hm]; change decLayer w = _; rw [decLayer, h23]
  simp [h8, h13, h18, h28]

theorem RoundTrip.lset (f : BitVec 5) (a : Src) (b : BitVec 5) : RoundTrip.Statement (.lset f a b) := by
  obtain ⟨w, hw, h0, hm, h8, h13, h18, h23, h28⟩ := fields1 0#4 2#5 b a.bits f 42#6 2#2
  refine wordRT h0 ?_ (hw ▸ rfl)
  rw [decodeFields, hm]; change decLayer w = _; rw [decLayer, h23]
  simp [h8, h13, h18, h28]

theorem RoundTrip.lget (f : BitVec 5) (d : Dst) (a : Src) : RoundTrip.Statement (.lget f d a) := by
  obtain ⟨w, hw, h0, hm, h8, h13, h18, h23, h28⟩ := fields1 0#4 3#5 f a.bits d.bits 42#6 2#2
  refine wordRT h0 ?_ (hw ▸ rfl)
  rw [decodeFields, hm]; change decLayer w = _; rw [decLayer, h23]
  simp [h8, h13, h18, h28]

theorem RoundTrip.lest (d : Dst) (a : Src) : RoundTrip.Statement (.lest d a) := by
  obtain ⟨w, hw, h0, hm, h8, h13, h18, h23, h28⟩ := fields1 0#4 4#5 0#5 a.bits d.bits 42#6 2#2
  refine wordRT h0 ?_ (hw ▸ rfl)
  rw [decodeFields, hm]; change decLayer w = _; rw [decLayer, h23]
  simp [h8, h13, h18, h28]

theorem RoundTrip.lprice (a : Src) (b : Src) : RoundTrip.Statement (.lprice a b) := by
  obtain ⟨w, hw, h0, hm, h8, h13, h18, h23, h28⟩ := fields1 0#4 5#5 b.bits a.bits 0#5 42#6 2#2
  refine wordRT h0 ?_ (hw ▸ rfl)
  rw [decodeFields, hm]; change decLayer w = _; rw [decLayer, h23]
  simp [h8, h13, h18, h28]

theorem RoundTrip.lreq (d : Dst) : RoundTrip.Statement (.lreq d) := by
  obtain ⟨w, hw, h0, hm, h8, h13, h18, h23, h28⟩ := fields1 0#4 6#5 0#5 0#5 d.bits 42#6 2#2
  refine wordRT h0 ?_ (hw ▸ rfl)
  rw [decodeFields, hm]; change decLayer w = _; rw [decLayer, h23]
  simp [h8, h13, h18, h28]

theorem RoundTrip.lreqS (d : Dst) : RoundTrip.Statement (.lreqS d) := by
  obtain ⟨w, hw, h0, hm, h8, h13, h18, h23, h28⟩ := fields1 1#4 6#5 0#5 0#5 d.bits 42#6 2#2
  refine wordRT h0 ?_ (hw ▸ rfl)
  rw [decodeFields, hm]; change decLayer w = _; rw [decLayer, h23]
  simp [h8, h13, h18, h28]

theorem RoundTrip.lbegin (a : Src) : RoundTrip.Statement (.lbegin a) := by
  obtain ⟨w, hw, h0, hm, h8, h13, h18, h23, h28⟩ := fields1 0#4 7#5 0#5 a.bits 0#5 42#6 2#2
  refine wordRT h0 ?_ (hw ▸ rfl)
  rw [decodeFields, hm]; change decLayer w = _; rw [decLayer, h23]
  simp [h8, h13, h18, h28]

theorem RoundTrip.ldone (a : Src) : RoundTrip.Statement (.ldone a) := by
  obtain ⟨w, hw, h0, hm, h8, h13, h18, h23, h28⟩ := fields1 0#4 8#5 0#5 a.bits 0#5 42#6 2#2
  refine wordRT h0 ?_ (hw ▸ rfl)
  rw [decodeFields, hm]; change decLayer w = _; rw [decLayer, h23]
  simp [h8, h13, h18, h28]

theorem RoundTrip.lsplit (a : Src) (b : Src) : RoundTrip.Statement (.lsplit a b) := by
  obtain ⟨w, hw, h0, hm, h8, h13, h18, h23, h28⟩ := fields1 0#4 9#5 b.bits a.bits 0#5 42#6 2#2
  refine wordRT h0 ?_ (hw ▸ rfl)
  rw [decodeFields, hm]; change decLayer w = _; rw [decLayer, h23]
  simp [h8, h13, h18, h28]

theorem RoundTrip.lmerge (a : Src) (b : Src) : RoundTrip.Statement (.lmerge a b) := by
  obtain ⟨w, hw, h0, hm, h8, h13, h18, h23, h28⟩ := fields1 0#4 10#5 b.bits a.bits 0#5 42#6 2#2
  refine wordRT h0 ?_ (hw ▸ rfl)
  rw [decodeFields, hm]; change decLayer w = _; rw [decLayer, h23]
  simp [h8, h13, h18, h28]

theorem RoundTrip.llight (a : Src) (b : Src) : RoundTrip.Statement (.llight a b) := by
  obtain ⟨w, hw, h0, hm, h8, h13, h18, h23, h28⟩ := fields1 0#4 11#5 b.bits a.bits 0#5 42#6 2#2
  refine wordRT h0 ?_ (hw ▸ rfl)
  rw [decodeFields, hm]; change decLayer w = _; rw [decLayer, h23]
  simp [h8, h13, h18, h28]

theorem RoundTrip.compose (d : Dst) : RoundTrip.Statement (.compose d) := by
  obtain ⟨w, hw, h0, hm, h8, h13, h18, h23, h28⟩ := fields1 0#4 12#5 0#5 0#5 d.bits 42#6 2#2
  refine wordRT h0 ?_ (hw ▸ rfl)
  rw [decodeFields, hm]; change decLayer w = _; rw [decLayer, h23]
  simp [h8, h13, h18, h28]

theorem RoundTrip.slaunch (d : Dst) (ka : BitVec 3) : RoundTrip.Statement (.slaunch d ka) := by
  obtain ⟨w, hw, h0, hm, h8, h13, h16, h18, h23, h28⟩ := fields5 0#4 0#5 0#5 0#2 ka d.bits 43#6 2#2
  refine wordRT h0 ?_ (hw ▸ rfl)
  rw [decodeFields, hm]; change decSurr w = _; rw [decSurr, h23]
  simp [h8, h13, h16, h18, h28]

theorem RoundTrip.sresid (a : Src) : RoundTrip.Statement (.sresid a) := by
  obtain ⟨w, hw, h0, hm, h8, h13, h18, h23, h28⟩ := fields1 0#4 1#5 0#5 a.bits 0#5 43#6 2#2
  refine wordRT h0 ?_ (hw ▸ rfl)
  rw [decodeFields, hm]; change decSurr w = _; rw [decSurr, h23]
  simp [h8, h13, h18, h28]

theorem RoundTrip.sresidm (a : Src) (b : Src) : RoundTrip.Statement (.sresidm a b) := by
  obtain ⟨w, hw, h0, hm, h8, h13, h18, h23, h28⟩ := fields1 0#4 2#5 b.bits a.bits 0#5 43#6 2#2
  refine wordRT h0 ?_ (hw ▸ rfl)
  rw [decodeFields, hm]; change decSurr w = _; rw [decSurr, h23]
  simp [h8, h13, h18, h28]

theorem RoundTrip.sabort : RoundTrip.Statement .sabort := by
  obtain ⟨w, hw, h0, hm, h8, h13, h18, h23, h28⟩ := fields1 0#4 3#5 0#5 0#5 0#5 43#6 2#2
  refine wordRT h0 ?_ (hw ▸ rfl)
  rw [decodeFields, hm]; change decSurr w = _; rw [decSurr, h23]
  simp [h8, h13, h18, h28]

theorem RoundTrip.sstat (d : Dst) (ka : BitVec 3) : RoundTrip.Statement (.sstat d ka) := by
  obtain ⟨w, hw, h0, hm, h8, h13, h16, h18, h23, h28⟩ := fields5 0#4 4#5 0#5 0#2 ka d.bits 43#6 2#2
  refine wordRT h0 ?_ (hw ▸ rfl)
  rw [decodeFields, hm]; change decSurr w = _; rw [decSurr, h23]
  simp [h8, h13, h16, h18, h28]

theorem RoundTrip.addC (a : BitVec 4) (b : BitVec 4) : RoundTrip.Statement (.addC a b) := by
  obtain ⟨w, hw, h0, h2, h6, h10, h14⟩ := fields52 0#2 b a 1#4 0#2
  refine halfART h0 ?_ (hw ▸ rfl)
  rw [decodeGroupA, h2]
  simp [h6, h10, h14]

theorem RoundTrip.subC (a : BitVec 4) (b : BitVec 4) : RoundTrip.Statement (.subC a b) := by
  obtain ⟨w, hw, h0, h2, h6, h10, h14⟩ := fields52 0#2 b a 2#4 0#2
  refine halfART h0 ?_ (hw ▸ rfl)
  rw [decodeGroupA, h2]
  simp [h6, h10, h14]

theorem RoundTrip.andC (a : BitVec 4) (b : BitVec 4) : RoundTrip.Statement (.andC a b) := by
  obtain ⟨w, hw, h0, h2, h6, h10, h14⟩ := fields52 0#2 b a 3#4 0#2
  refine halfART h0 ?_ (hw ▸ rfl)
  rw [decodeGroupA, h2]
  simp [h6, h10, h14]

theorem RoundTrip.orC (a : BitVec 4) (b : BitVec 4) : RoundTrip.Statement (.orC a b) := by
  obtain ⟨w, hw, h0, h2, h6, h10, h14⟩ := fields52 0#2 b a 4#4 0#2
  refine halfART h0 ?_ (hw ▸ rfl)
  rw [decodeGroupA, h2]
  simp [h6, h10, h14]

theorem RoundTrip.xorC (a : BitVec 4) (b : BitVec 4) : RoundTrip.Statement (.xorC a b) := by
  obtain ⟨w, hw, h0, h2, h6, h10, h14⟩ := fields52 0#2 b a 5#4 0#2
  refine halfART h0 ?_ (hw ▸ rfl)
  rw [decodeGroupA, h2]
  simp [h6, h10, h14]

theorem RoundTrip.mulC (a : BitVec 4) (b : BitVec 4) : RoundTrip.Statement (.mulC a b) := by
  obtain ⟨w, hw, h0, h2, h6, h10, h14⟩ := fields52 0#2 b a 9#4 0#2
  refine halfART h0 ?_ (hw ▸ rfl)
  rw [decodeGroupA, h2]
  simp [h6, h10, h14]

theorem RoundTrip.sltC (a : BitVec 4) (b : BitVec 4) : RoundTrip.Statement (.sltC a b) := by
  obtain ⟨w, hw, h0, h2, h6, h10, h14⟩ := fields52 0#2 b a 10#4 0#2
  refine halfART h0 ?_ (hw ▸ rfl)
  rw [decodeGroupA, h2]
  simp [h6, h10, h14]

theorem RoundTrip.seqC (a : BitVec 4) (b : BitVec 4) : RoundTrip.Statement (.seqC a b) := by
  obtain ⟨w, hw, h0, h2, h6, h10, h14⟩ := fields52 0#2 b a 11#4 0#2
  refine halfART h0 ?_ (hw ▸ rfl)
  rw [decodeGroupA, h2]
  simp [h6, h10, h14]

theorem RoundTrip.shliC (a : BitVec 4) (b : BitVec 4) (x : BitVec 2) : RoundTrip.Statement (.shliC a b x) := by
  obtain ⟨w, hw, h0, h2, h6, h10, h14⟩ := fields52 x b a 6#4 0#2
  refine halfART h0 ?_ (hw ▸ rfl)
  rw [decodeGroupA, h2]
  simp [h6, h10, h14]

theorem RoundTrip.shriC (a : BitVec 4) (b : BitVec 4) (x : BitVec 2) : RoundTrip.Statement (.shriC a b x) := by
  obtain ⟨w, hw, h0, h2, h6, h10, h14⟩ := fields52 x b a 7#4 0#2
  refine halfART h0 ?_ (hw ▸ rfl)
  rw [decodeGroupA, h2]
  simp [h6, h10, h14]

theorem RoundTrip.addiC (a : BitVec 4) (b : BitVec 4) (x : BitVec 2) : RoundTrip.Statement (.addiC a b x) := by
  obtain ⟨w, hw, h0, h2, h6, h10, h14⟩ := fields52 x b a 8#4 0#2
  refine halfART h0 ?_ (hw ▸ rfl)
  rw [decodeGroupA, h2]
  simp [h6, h10, h14]

theorem RoundTrip.movCToNamed (b : BitVec 4) (a : BitVec 4) : RoundTrip.Statement (.movCToNamed b a) := by
  obtain ⟨w, hw, h0, h2, h6, h10, h14⟩ := fields52 0#2 b a 12#4 0#2
  refine halfART h0 ?_ (hw ▸ rfl)
  rw [decodeGroupA, h2]
  simp [h6, h10, h14]

theorem RoundTrip.movCFromNamed (b : BitVec 4) : RoundTrip.Statement (.movCFromNamed b) := by
  obtain ⟨w, hw, h0, h2, h6, h10, h14⟩ := fields52 0#2 b 0#4 13#4 0#2
  refine halfART h0 ?_ (hw ▸ rfl)
  rw [decodeGroupA, h2]
  simp [h6, h10, h14]

theorem RoundTrip.liC (a : BitVec 4) (b : BitVec 4) (x : BitVec 2) : RoundTrip.Statement (.liC a b x) := by
  obtain ⟨w, hw, h0, h2, h6, h10, h14⟩ := fields52 x b a 14#4 0#2
  refine halfART h0 ?_ (hw ▸ rfl)
  rw [decodeGroupA, h2]
  simp [h6, h10, h14]

theorem RoundTrip.movCAge (a : BitVec 4) : RoundTrip.Statement (.movCAge a) := by
  obtain ⟨w, hw, h0, h2, h6, h10, h14⟩ := fields52 0#2 0#4 a 15#4 0#2
  refine halfART h0 ?_ (hw ▸ rfl)
  rw [decodeGroupA, h2]
  simp [h6, h10, h14]

theorem RoundTrip.nop : RoundTrip.Statement .nop := by
  obtain ⟨w, hw, h0, h2, h6⟩ := fields53 0#10 0#4 1#2
  refine halfBRT h0 ?_ (hw ▸ rfl)
  rw [decodeGroupB, h2]
  simp [h6]

theorem RoundTrip.jC (off : BitVec 10) : RoundTrip.Statement (.jC off) := by
  obtain ⟨w, hw, h0, h2, h6⟩ := fields53 off 1#4 1#2
  refine halfBRT h0 ?_ (hw ▸ rfl)
  rw [decodeGroupB, h2]
  simp [h6]

theorem RoundTrip.bezC (off : BitVec 10) : RoundTrip.Statement (.bezC off) := by
  obtain ⟨w, hw, h0, h2, h6⟩ := fields53 off 2#4 1#2
  refine halfBRT h0 ?_ (hw ▸ rfl)
  rw [decodeGroupB, h2]
  simp [h6]

theorem RoundTrip.bnzC (off : BitVec 10) : RoundTrip.Statement (.bnzC off) := by
  obtain ⟨w, hw, h0, h2, h6⟩ := fields53 off 3#4 1#2
  refine halfBRT h0 ?_ (hw ▸ rfl)
  rw [decodeGroupB, h2]
  simp [h6]

theorem RoundTrip.lexit : RoundTrip.Statement .lexit := by
  obtain ⟨w, hw, h0, h2, h6⟩ := fields53 0#10 4#4 1#2
  refine halfBRT h0 ?_ (hw ▸ rfl)
  rw [decodeGroupB, h2]
  simp [h6]

theorem RoundTrip.doneC : RoundTrip.Statement .doneC := by
  obtain ⟨w, hw, h0, h2, h6⟩ := fields53 0#10 5#4 1#2
  refine halfBRT h0 ?_ (hw ▸ rfl)
  rw [decodeGroupB, h2]
  simp [h6]

theorem RoundTrip.chkptC (idx : BitVec 10) : RoundTrip.Statement (.chkptC idx) := by
  obtain ⟨w, hw, h0, h2, h6⟩ := fields53 idx 6#4 1#2
  refine halfBRT h0 ?_ (hw ▸ rfl)
  rw [decodeGroupB, h2]
  simp [h6]

theorem RoundTrip.realignC (tag : BitVec 10) : RoundTrip.Statement (.realignC tag) := by
  obtain ⟨w, hw, h0, h2, h6⟩ := fields53 tag 7#4 1#2
  refine halfBRT h0 ?_ (hw ▸ rfl)
  rw [decodeGroupB, h2]
  simp [h6]

theorem RoundTrip.retC : RoundTrip.Statement .retC := by
  obtain ⟨w, hw, h0, h2, h6⟩ := fields53 0#10 8#4 1#2
  refine halfBRT h0 ?_ (hw ▸ rfl)
  rw [decodeGroupB, h2]
  simp [h6]

theorem RoundTrip.nclrC (n : BitVec 4) : RoundTrip.Statement (.nclrC n) := by
  obtain ⟨w, hw, h0, h2, h6, h10⟩ := fields54 0#6 n 9#4 1#2
  refine halfBRT h0 ?_ (hw ▸ rfl)
  rw [decodeGroupB, h2]
  simp [h6, h10]

theorem RoundTrip.fenceCoreC : RoundTrip.Statement .fenceCoreC := by
  obtain ⟨w, hw, h0, h2, h6⟩ := fields53 0#10 10#4 1#2
  refine halfBRT h0 ?_ (hw ▸ rfl)
  rw [decodeGroupB, h2]
  simp [h6]

theorem RoundTrip.mailboxWrite (core : Nat) (i : Nat) (v : U64) : RoundTrip.Statement (.mailboxWrite core i v) := fun h => nomatch h

theorem RoundTrip.mbxpClear (core : Nat) (m : BitVec 8) : RoundTrip.Statement (.mbxpClear core m) := fun h => nomatch h

theorem RoundTrip.heldMailboxWrite (core : Nat) (i : Nat) : RoundTrip.Statement (.heldMailboxWrite core i) := fun h => nomatch h

theorem RoundTrip.guardResolve (slot : Nat) (g : Nat) : RoundTrip.Statement (.guardResolve slot g) := fun h => nomatch h

theorem RoundTrip.homeAccess (id : Nat) : RoundTrip.Statement (.homeAccess id) := fun h => nomatch h

theorem RoundTrip.pageWalk (core : Nat) (tenant : Nat) (va : Nat) :
    RoundTrip.Statement (.pageWalk core tenant va) := fun h => nomatch h

theorem RoundTrip.nwrHeldWrite (slot : Nat) (n : Nat) : RoundTrip.Statement (.nwrHeldWrite slot n) := fun h => nomatch h

theorem RoundTrip.nwrWithdrawal (src : Nat) : RoundTrip.Statement (.nwrWithdrawal src) := fun h => nomatch h

theorem RoundTrip.rstReturn (i : Nat) : RoundTrip.Statement (.rstReturn i) := fun h => nomatch h

theorem RoundTrip.amsgRun (core : Nat) : RoundTrip.Statement (.amsgRun core) := fun h => nomatch h

theorem RoundTrip.amsgTimeout (core : Nat) : RoundTrip.Statement (.amsgTimeout core) := fun h => nomatch h

theorem RoundTrip.holdClear (cluster : Nat) : RoundTrip.Statement (.holdClear cluster) := fun h => nomatch h

theorem RoundTrip.holdTimeout (cluster : Nat) : RoundTrip.Statement (.holdTimeout cluster) := fun h => nomatch h

theorem RoundTrip.dispatch (cluster : Nat) : RoundTrip.Statement (.dispatch cluster) := fun h => nomatch h

theorem RoundTrip.recordWalkHop (i : Nat) : RoundTrip.Statement (.recordWalkHop i) := fun h => nomatch h

theorem RoundTrip.gangStart (cluster : Nat) : RoundTrip.Statement (.gangStart cluster) := fun h => nomatch h

theorem RoundTrip.launchiCountRead (cluster : Nat) : RoundTrip.Statement (.launchiCountRead cluster) := fun h => nomatch h

theorem RoundTrip.recordRelease (i : Nat) : RoundTrip.Statement (.recordRelease i) := fun h => nomatch h

theorem RoundTrip.groupCountStep (i : Nat) : RoundTrip.Statement (.groupCountStep i) := fun h => nomatch h

theorem RoundTrip.chargeExhausted (slot : Nat) : RoundTrip.Statement (.chargeExhausted slot) := fun h => nomatch h

theorem RoundTrip.budgetExhausted (slot : Nat) : RoundTrip.Statement (.budgetExhausted slot) := fun h => nomatch h

theorem RoundTrip.graceExhausted (slot : Nat) : RoundTrip.Statement (.graceExhausted slot) := fun h => nomatch h

theorem RoundTrip.parkedWithdrawal (slot : Nat) : RoundTrip.Statement (.parkedWithdrawal slot) := fun h => nomatch h

theorem RoundTrip.realignTimeout (slot : Nat) : RoundTrip.Statement (.realignTimeout slot) := fun h => nomatch h

theorem RoundTrip.svcAnswer (slot : Nat) (v : U64) : RoundTrip.Statement (.svcAnswer slot v) := fun h => nomatch h

theorem RoundTrip.preemptRequest (slot : Nat) : RoundTrip.Statement (.preemptRequest slot) := fun h => nomatch h

theorem RoundTrip.preemptTimeout (slot : Nat) : RoundTrip.Statement (.preemptTimeout slot) := fun h => nomatch h

theorem RoundTrip.spillSave (slot : Nat) : RoundTrip.Statement (.spillSave slot) := fun h => nomatch h

theorem RoundTrip.granuleFill (i : Nat) : RoundTrip.Statement (.granuleFill i) := fun h => nomatch h

theorem RoundTrip.zldComplete (quad : Nat) (z : Nat) : RoundTrip.Statement (.zldComplete quad z) := fun h => nomatch h

theorem RoundTrip.tileDrainDone (quad : Nat) (z : Nat) : RoundTrip.Statement (.tileDrainDone quad z) := fun h => nomatch h

theorem RoundTrip.wloadExecute (quad : Nat) : RoundTrip.Statement (.wloadExecute quad) := fun h => nomatch h

theorem RoundTrip.wswapExecute (quad : Nat) : RoundTrip.Statement (.wswapExecute quad) := fun h => nomatch h

theorem RoundTrip.mmaExecute (quad : Nat) : RoundTrip.Statement (.mmaExecute quad) := fun h => nomatch h

theorem RoundTrip.mmamExecute (quad : Nat) : RoundTrip.Statement (.mmamExecute quad) := fun h => nomatch h

theorem RoundTrip.yzeroExecute (quad : Nat) : RoundTrip.Statement (.yzeroExecute quad) := fun h => nomatch h

theorem RoundTrip.ydrainExecute (quad : Nat) : RoundTrip.Statement (.ydrainExecute quad) := fun h => nomatch h

theorem RoundTrip.ymovExecute (quad : Nat) : RoundTrip.Statement (.ymovExecute quad) := fun h => nomatch h

theorem RoundTrip.tileStateDrain (quad : Nat) : RoundTrip.Statement (.tileStateDrain quad) := fun h => nomatch h

theorem RoundTrip.cardStart (engine : Nat) (cls : Nat) : RoundTrip.Statement (.cardStart engine cls) := fun h => nomatch h

theorem RoundTrip.cardFinish (engine : Nat) (i : Nat) : RoundTrip.Statement (.cardFinish engine i) := fun h => nomatch h

theorem RoundTrip.collTimeout (engine : Nat) (i : Nat) : RoundTrip.Statement (.collTimeout engine i) := fun h => nomatch h

theorem RoundTrip.codebookBankWrite (engine : Nat) (i : Nat) : RoundTrip.Statement (.codebookBankWrite engine i) := fun h => nomatch h

theorem RoundTrip.checkChargeExhausted (slot : Nat) : RoundTrip.Statement (.checkChargeExhausted slot) := fun h => nomatch h

theorem RoundTrip.enqueueWindowSpawn (cluster : Nat) (tenant : Nat) (addr : U64) :
    RoundTrip.Statement (.enqueueWindowSpawn cluster tenant addr) := fun h => nomatch h

theorem RoundTrip.enqueueWindowSubmit (cluster : Nat) (tenant : Nat) (addr : U64) :
    RoundTrip.Statement (.enqueueWindowSubmit cluster tenant addr) := fun h => nomatch h

theorem RoundTrip.enqueueWindowSpawnResult (cluster : Nat) (tenant : Nat) :
    RoundTrip.Statement (.enqueueWindowSpawnResult cluster tenant) := fun h => nomatch h

theorem RoundTrip.enqueueWindowSubmitResult (cluster : Nat) (tenant : Nat) :
    RoundTrip.Statement (.enqueueWindowSubmitResult cluster tenant) := fun h => nomatch h

theorem RoundTrip.partitionStart (part : Nat) (tenant : Nat) (code : BitVec 128) (frame : BitVec 128) (deadline : U64) (budget : BitVec 32) (recAddr : BitVec 52) (group : U64) :
    RoundTrip.Statement (.partitionStart part tenant code frame deadline budget recAddr group) := fun h => nomatch h

theorem RoundTrip.boot (ecdsaOk : Bool) (lmsOk : Bool) (version : U64) :
    RoundTrip.Statement (.boot ecdsaOk lmsOk version) := fun h => nomatch h

theorem RoundTrip.linkTrain (link : Nat) (err : BitVec 4) : RoundTrip.Statement (.linkTrain link err) := fun h => nomatch h

theorem RoundTrip.tenantSwitch (core : Nat) (toTenant : Nat) : RoundTrip.Statement (.tenantSwitch core toTenant) := fun h => nomatch h

theorem RoundTrip.flitArbitration (link : Nat) : RoundTrip.Statement (.flitArbitration link) := fun h => nomatch h

theorem RoundTrip.creditReturn (link : Nat) (cls : Nat) (resp : Bool) :
    RoundTrip.Statement (.creditReturn link cls resp) := fun h => nomatch h

theorem RoundTrip.hostModuleFailure (module : Nat) : RoundTrip.Statement (.hostModuleFailure module) := fun h => nomatch h

theorem RoundTrip.fabricPortFailure (port : Nat) : RoundTrip.Statement (.fabricPortFailure port) := fun h => nomatch h

theorem RoundTrip.serviceCoreRestart (die : Nat) : RoundTrip.Statement (.serviceCoreRestart die) := fun h => nomatch h

theorem RoundTrip.attestationRequest (nonce : BitVec 256) : RoundTrip.Statement (.attestationRequest nonce) := fun h => nomatch h

theorem RoundTrip.patrolScrub (line : Nat) : RoundTrip.Statement (.patrolScrub line) := fun h => nomatch h

theorem RoundTrip.correctedError (die : Nat) (addr : U64) : RoundTrip.Statement (.correctedError die addr) := fun h => nomatch h

theorem RoundTrip.uncorrectableError (line : Nat) : RoundTrip.Statement (.uncorrectableError line) := fun h => nomatch h

theorem RoundTrip.partitionReset (part : Nat) (words : List (Nat × BitVec 64)) :
    RoundTrip.Statement (.partitionReset part words) := fun h => nomatch h

theorem RoundTrip.flitRetry (link : Nat) : RoundTrip.Statement (.flitRetry link) := fun h => nomatch h

end Sys2Proof.Laws
end

