-- ==== Sys2Proof/Safety.lean ====
section
/-!
DEFINITION. The terms that claims use: what counts as a safe run (memory, tags and poison canonical, and every step
answers a next state), how an instruction ends in the current slot, and when nothing stands in the way of an access.
-/

namespace Sys2Proof.Machine

/-! ## Safe runs -/

/-- Bytes, tags (R111) and poison (R428) stand in their canonical forms. -/
def State.canonical (s : State) : Prop :=
  Memory.wf s.mem = true ∧ SMap.wf false s.tags = true ∧ SMap.wf false s.poison = true

/-- A run of `n` steps from `s` ends in a state, not in a fault or a refusal. -/
def State.goesOn (n : Nat) (s : State) : Prop := ∃ t, Sys2Proof.core.run n s = .next t

/-- A safe state: canonical, and no run from it stops. -/
def State.safe (s : State) : Prop := s.canonical ∧ ∀ n, s.goesOn n

/-! ## What a step does -/

/-- The step from `s` is an issue, by the slot that `u` has as its current one: nothing is forced, no choice comes first
(log 5), and nothing stops that slot before its fetch (R13, R27). -/
def State.issuesAs (s u : State) : Prop :=
  let t := { s with tick := s.tick + 1 }
  s.forced = none ∧
  ∃ v g, (t.enabled = [] ∧ v = s ∨ t.enabled ≠ [] ∧ t.enabled[Config.pick s.tick % (t.enabled.length + 1)]? = none ∧ v = t) ∧
    v.nextSlot = some g ∧ u = v.giveTurn g ∧ u.loadDone u.cur = false ∧ u.commitDone u.cur = false ∧
      u.beforeFetch = none ∧ (u.slot u.cur).mcheck = none

/-- The byte that the instruction buffer of the current slot's core gives at GLOBAL address `a` (R248). -/
def State.buffered (s : State) (a : Nat) : Option Byte :=
  ((s.core (coreOf s.cur)).ibuf.find? fun b => b.part == s.partOfSlot s.cur && b.tenant == (s.slot s.cur).tenant && b.block == a / 32).map fun b =>
    b.bytes.getD (a % 32) 0#8

/-- The destination of an integer instruction of IALU and IALUI, or of a compact form of one (R89 to R92, R44). -/
def intDst : Instr → Option Dst
  | .add d _ _ | .sub d _ _ | .mul d _ _ | .mulh d _ _ | .mulhu d _ _ | .div d _ _ | .divu d _ _ | .rem d _ _ | .remu d _ _
  | .and d _ _ | .or d _ _ | .xor d _ _ | .andn d _ _ | .shl d _ _ | .shr d _ _ | .sra d _ _ | .rol d _ _ | .min d _ _
  | .max d _ _ | .minu d _ _ | .maxu d _ _ | .slt d _ _ | .sltu d _ _ | .seq d _ _ | .sne d _ _ | .sext d _ _ | .zext d _ _
  | .addi d _ _ | .andi d _ _ | .ori d _ _ | .xori d _ _ | .shli d _ _ | .shri d _ _ | .srai d _ _ | .slti d _ _ => some d
  | .clz d _ | .ctz d _ | .popc d _ | .brev d _ | .li d _ => some d
  | .sel d _ _ _ => some d
  | .addC .. | .subC .. | .andC .. | .orC .. | .xorC .. | .mulC .. | .sltC .. | .seqC .. | .shliC .. | .shriC .. | .addiC ..
  | .liC .. => some .queue
  | _ => none

/-- The scalar sources that an instruction reads before it does anything else, ages apart (R31, R87). The operands of GSET and
GSETN are none of them: a clear one is captured later (R136). -/
def sources : Instr → List Src
  | .add _ a b | .sub _ a b | .mul _ a b | .mulh _ a b | .mulhu _ a b | .div _ a b | .divu _ a b | .rem _ a b
  | .remu _ a b | .and _ a b | .or _ a b | .xor _ a b | .andn _ a b | .shl _ a b | .shr _ a b | .sra _ a b
  | .rol _ a b | .min _ a b | .max _ a b | .minu _ a b | .maxu _ a b | .slt _ a b | .sltu _ a b | .seq _ a b
  | .sne _ a b | .sext _ a b | .zext _ a b | .svc _ a b | .tinv _ a b | .vclaim _ a b | .vreneg _ a b => [a, b]
  | .clz _ a | .ctz _ a | .popc _ a | .brev _ a | .mov _ a | .xsetr _ a | .borrow _ a | .bwr _ a | .qsend _ a
  | .mts _ a | .dline _ a | .binit _ a | .bexpect _ a | .wfi _ a | .lnew _ a | .lest _ a => [a]
  | .sel _ a b _ => [a, b]
  | .addi _ a _ | .andi _ a _ | .ori _ a _ | .xori _ a _ | .shli _ a _ | .shri _ a _ | .srai _ a _ | .slti _ a _ => [a]
  | .nwr _ _ a _ => [a]
  | .rngseed a | .trap a | .qfuse a | .qsplit a | .lfree a | .lbegin a | .ldone a | .sresid a => [a]
  | .cseta _ _ a | .cinc _ _ a | .cperm _ _ a | .rst _ _ a | .walk _ _ a | .launch _ _ a | .fres _ _ a | .bwait _ _ a
  | .zst _ _ a | .lget _ _ a => [a]
  | .cbound _ _ _ a | .rclaim _ _ _ a | .rtryclaim _ _ _ a | .rawait _ _ _ a | .barrive _ _ _ a | .btest _ _ _ a
  | .vbcast _ _ _ a | .zld _ _ _ a => [a]
  | .beq a b _ | .bne a b _ | .blt a b _ | .bge a b _ | .bltu a b _ | .bgeu a b _ | .bbs a b _ | .bbc a b _ => [a, b]
  | .bez a _ | .bnz a _ | .loop a _ => [a]
  | .st _ _ _ _ a | .vlds _ _ _ _ a | .vsts _ _ _ _ a | .vext _ _ _ _ a | .ydrain _ _ _ _ a => [a]
  | .ldx _ _ _ _ a _ => [a]
  | .stx _ _ _ a _ b => [a, b]
  | .yield a b | .lprice a b | .lsplit a b | .lmerge a b | .llight a b | .sresidm a b => [a, b]
  | .rcommit _ _ a b | .rretire _ _ a b => [a, b]
  | .vins _ _ _ a b => [a, b]
  | .lset f a b => if f.toNat ∈ [0, 1, 2, 3, 16, 17] then [a] else [a, Src.ofBits b]
  | .movCFromNamed n => [.nam n]
  | _ => []

/-- Whether an instruction asks for another mode than user mode before it reads a source (R38, R106, R222, R314). -/
def asksMode : Instr → Bool
  | .mts sys _ => decide (0x800 ≤ sys.toNat)
  | .tinv .. | .qfuse .. | .qsplit .. => true
  | _ => false

/-! ## How an instruction ends -/

/-- What the current slot reads as scalar source `a` (R31, R87); none for a clear named register. -/
def State.reads (s : State) (a : Src) : Option U64 := (s.slot s.cur).read a

/-- Capability register `i` of the current slot. -/
def State.cap (s : State) (i : BitVec 3) : Cap := (s.slot s.cur).kreg i.toNat

/-- The current slot of `t`, having issued an instruction of `len` bytes, moves past it (R27, R130). -/
def State.past (t : State) (len : Nat) : State := t.modSlot t.cur fun x => x.advance len

/-- The current slot issues, its registers change by `f`, and it moves past the instruction's `len` bytes (R27, R130). -/
def State.done (s : State) (len : Nat) (f : Slot → Slot) : State := (s.noteIssue.modSlot s.cur f).past len

/-- As `done`, with a scalar result as the only change (R32, R86). -/
def State.gives (s : State) (len : Nat) (d : Dst) (v : U64) : Host.Outcome State Fault Refusal :=
  .next (s.done len fun x => x.result d v)

/-- The current slot issues, its registers change by `f`, and it goes to address `t` (R124). -/
def State.goes (s : State) (f : Slot → Slot) (t : Nat) : Host.Outcome State Fault Refusal :=
  .next ((s.noteIssue.modSlot s.cur f).modSlot s.cur fun x => x.goto t)

/-- A taken relative transfer of the current slot from an instruction of `len` bytes (R124, R131): to the program counter
plus twice `off`, closing the bodies it leaves, when the target lies in the bounds of PCC, else CAPBND. -/
def State.transfers (s : State) (len : Nat) (off : Int) : Host.Outcome State Fault Refusal :=
  let x := s.slot s.cur
  let t : Int := x.pc + 2 * off
  if (x.pcc.base : Int) ≤ t ∧ t + 2 ≤ x.pcc.top then s.goes (fun y => y.leave t.toNat) t.toNat
  else .next ((s.noteIssue.takeTrap s.cur .capBnd (BitVec.ofInt 64 t) len).getD s.passOver)

/-- The current slot raises a trap at an instruction of `len` bytes; it is blocked while the trap must wait (R204, R205). -/
def State.traps (s : State) (len : Nat) (c : Cause) (v : U64) : Host.Outcome State Fault Refusal :=
  .next ((s.noteIssue.takeTrap s.cur c v len).getD s.passOver)

/-- An object of `n` bytes at a place, as a step that reads it sees it: its bytes, and the tags that its page keeps (R111, R240). -/
def State.object (s : State) (key : Nat) (keep : Bool) (va : Option Nat) (addr n : Nat) : Seen :=
  { loc := { key := key, keep := keep, va := va, addr := addr }, bytes := s.bytes key n,
    tags := (List.range (n / 16)).map fun i => keep && s.tagAt (key + 16 * i) }

/-- The current slot has made step `i` of its instruction, which read `o` and left `t` (R240): it keeps what it read, and goes on with
the next step in its next turn. -/
def State.keeps (s t : State) (i : Nat) (o : Seen) : Host.Outcome State Fault Refusal :=
  .next (s.stepped (t.modSlot t.cur fun y => { y with seen := y.seen ++ [(i, o)] }))

/-- The current slot is blocked and does not issue (R87). -/
def State.waits (s : State) : Host.Outcome State Fault Refusal := .next s.passOver

/-! ## Accesses -/

/-- Nothing stands in the way of an access of the current slot: it has no access in flight, holds nothing back for a
release (R245), has no card outstanding (R249), no message out (R250) and runs no surrogate tile (R368); no granule is absent
(R220) and no line poisoned (R428); no home is held (R180), and every message thread that an access may need is free (R12). -/
def State.calm (s : State) : Prop :=
  (∀ a ∈ s.flight, a.slot ≠ s.cur) ∧ (s.slot s.cur).relHold = [] ∧ s.cardsOf s.cur = [] ∧ (s.slot s.cur).tile? = none ∧
    s.absent = [] ∧ s.poison = [] ∧
    ∀ h, s.homeHeld h = false ∧ s.threadFree (coreOf s.cur) h false = true ∧ ∀ id, s.messageTo s.cur h id = false

/-- `t` with an access of its current slot on its way to `home`, on the channel of its class (R147, R407): it takes the next two
fresh numbers. -/
def State.sent (t : State) (kind : AccessKind) (home : Nat) (ws : List (Nat × Byte)) (tagKey : Option Nat) (va : Option Nat)
    (rst : Bool) : State :=
  { t with fresh := t.fresh + 2 }.launchAccess (mkAccess t (t.fresh + 1) t.fresh kind home ws tagKey [] va rst)

/-- Slot 11 reaches only homes of its own die (R151). -/
def State.near (s : State) (home : Nat) : Prop := slotNo s.cur ≠ 11 ∨ dieOfHome home = dieOf (coreOf s.cur)

/-! ## Vector results (R269, R271) -/

/-- `n` outputs of a generator from its state, and the state after them (R101). -/
def rngOuts : Nat → U64 → U64 → List U64 × U64 × U64
  | 0, lo, hi => ([], lo, hi)
  | n + 1, lo, hi =>
    let (o, lo', hi') := rngStep lo hi
    let (os, r) := rngOuts n lo' hi'
    (o :: os, r)

/-- Slot `x` with results `rs` of elements of `w` bits in vector register `d`, their flags set. -/
def Slot.withElems (x : Slot) (d : BitVec 5) (w : Nat) (rs : List FRes) : Slot :=
  { x with v := x.v.set 0#8192 d.toNat (BitVec.ofNat 8192 (packElems w (rs.map FRes.bits))),
           fflags := x.fflags ||| rs.foldl (fun a r => a ||| r.fl) 0#6 }

/-- As `withElems`, with result `f i` for each enabled element `i`; the others keep their value, or are zeroed (R271). -/
def Slot.eachElem (x : Slot) (q : Pfx) (d : BitVec 5) (w : Nat) (f : Nat → FRes) : Slot :=
  x.withElems d w ((List.range (x.count w)).map fun i =>
    if x.enabled q w i then f i else { bits := if q.zero then 0 else x.elem d w i, fl := 0#6 })

/-- Slot `x` with bit `f i` in mask register `d` for each enabled lane `i`; the others by R271. -/
def Slot.eachLane (x : Slot) (q : Pfx) (d : BitVec 3) (enabled f : Nat → Bool) : Slot :=
  { x with vm := x.vm.set 0#256 d.toNat (BitVec.ofNat 256 (packElems 1 ((List.range x.lanes).map fun i =>
      if (if enabled i then f i else !q.zero && (x.vmask d.toNat).getLsbD i) then 1 else 0))) }

/-- A floating vector operation (R274): result `op` of each enabled element's bits in registers `a`, `b` and `c`, in the
mode of the prefix, each with its STO field (R64, R65). -/
def Slot.floatElems (x : Slot) (q : Pfx) (d a b c : BitVec 5) (w : Nat) (op : Rnd → Nat → Nat → Nat → FRes) : Slot :=
  let g := rngOuts (if x.mode q = 5 then ceilDiv (x.count w) 4 else 0) x.rngLo x.rngHi
  let draws := g.1.flatMap fields4
  { x.eachElem q d w fun i =>
      op { mode := x.mode q, draw := draws.getD i 0, sat := q.sat } (x.elem a w i) (x.elem b w i) (x.elem c w i) with
    rngLo := g.2.1, rngHi := g.2.2 }

end Sys2Proof.Machine
end

