-- ==== Sys2Proof/Certificates/Slice0/Obligations.lean ====
section
/-!
DEFINITION. The statements for the provers. Each says of every state and every operand what a rule of the manual says;
`State.gives`, `State.done`, `State.goes`, `State.traps` and `State.waits` of `Safety` say how an instruction ends.
-/

open Sys2Proof Sys2Proof.Machine

/-! ## Integer instructions (R89 to R92, R44) -/

/-- R89: each two-source member of IALU, but DIV, DIVU, REM and REMU (DivisionNeverTraps states them), completes with the value of
its row, for every readable pair of sources.

R89: the counts, the reversal, the two extensions and SEL, each by what characterises its result. -/
def Obligations.IntegerResults : Prop :=
  (∀ (s : State) (d : Dst) (a b : Src) (x y : U64), s.reads a = some x → s.reads b = some y →
    exec (.add d a b) s = s.gives 4 d (x + y) ∧
    exec (.sub d a b) s = s.gives 4 d (x - y) ∧
    exec (.mul d a b) s = s.gives 4 d (x * y) ∧
    exec (.mulh d a b) s = s.gives 4 d ((x.signExtend 128 * y.signExtend 128).extractLsb' 64 64) ∧
    exec (.mulhu d a b) s = s.gives 4 d ((x.zeroExtend 128 * y.zeroExtend 128).extractLsb' 64 64) ∧
    exec (.and d a b) s = s.gives 4 d (x &&& y) ∧
    exec (.or d a b) s = s.gives 4 d (x ||| y) ∧
    exec (.xor d a b) s = s.gives 4 d (x ^^^ y) ∧
    exec (.andn d a b) s = s.gives 4 d (x &&& ~~~y) ∧
    exec (.shl d a b) s = s.gives 4 d (x <<< (y.toNat % 64)) ∧
    exec (.shr d a b) s = s.gives 4 d (x >>> (y.toNat % 64)) ∧
    exec (.sra d a b) s = s.gives 4 d (x.sshiftRight (y.toNat % 64)) ∧
    exec (.rol d a b) s = s.gives 4 d (x <<< (y.toNat % 64) ||| x >>> (64 - y.toNat % 64)) ∧
    exec (.min d a b) s = s.gives 4 d (if x.toInt ≤ y.toInt then x else y) ∧
    exec (.max d a b) s = s.gives 4 d (if x.toInt ≤ y.toInt then y else x) ∧
    exec (.minu d a b) s = s.gives 4 d (if x.toNat ≤ y.toNat then x else y) ∧
    exec (.maxu d a b) s = s.gives 4 d (if x.toNat ≤ y.toNat then y else x) ∧
    exec (.slt d a b) s = s.gives 4 d (if x.toInt < y.toInt then 1#64 else 0#64) ∧
    exec (.sltu d a b) s = s.gives 4 d (if x.toNat < y.toNat then 1#64 else 0#64) ∧
    exec (.seq d a b) s = s.gives 4 d (if x = y then 1#64 else 0#64) ∧
    exec (.sne d a b) s = s.gives 4 d (if x ≠ y then 1#64 else 0#64)) ∧
  (∀ (s : State) (d : Dst) (a b : Src) (c : BitVec 4) (x y z : U64),
    s.reads a = some x → s.reads b = some y → s.reads (.age c) = some z →
    (∃ v, exec (.clz d a) s = s.gives 4 d (BitVec.ofNat 64 v) ∧
      (x = 0#64 ∧ v = 64 ∨ v < 64 ∧ 2 ^ (63 - v) ≤ x.toNat ∧ x.toNat < 2 ^ (64 - v))) ∧
    (∃ v, exec (.ctz d a) s = s.gives 4 d (BitVec.ofNat 64 v) ∧
      (x = 0#64 ∧ v = 64 ∨ v < 64 ∧ x.getLsbD v = true ∧ ∀ j, j < v → x.getLsbD j = false)) ∧
    exec (.popc d a) s = s.gives 4 d (BitVec.ofNat 64 ((List.range 64).filter fun i => x.getLsbD i).length) ∧
    (∃ v : U64, exec (.brev d a) s = s.gives 4 d v ∧ ∀ i, i < 64 → v.getLsbD i = x.getLsbD (63 - i)) ∧
    (∀ n, 1 ≤ n → n ≤ 64 → y.toNat % 64 = n % 64 →
      exec (.sext d a b) s = s.gives 4 d ((x.setWidth n).signExtend 64) ∧
      exec (.zext d a b) s = s.gives 4 d ((x.setWidth n).setWidth 64)) ∧
    exec (.sel d a b c) s = s.gives 4 d (if z ≠ 0#64 then x else y))

/-- R89, R90: division by any divisor completes: all ones or the dividend for 0, wrapping for the one overflow. -/
def Obligations.DivisionNeverTraps : Prop :=  ∀ (s : State) (d : Dst) (a b : Src) (x y : U64), s.reads a = some x → s.reads b = some y →
    exec (.div d a b) s = s.gives 4 d (if y = 0#64 then BitVec.allOnes 64 else BitVec.ofInt 64 (x.toInt.tdiv y.toInt)) ∧
    exec (.divu d a b) s = s.gives 4 d (if y = 0#64 then BitVec.allOnes 64 else BitVec.ofNat 64 (x.toNat / y.toNat)) ∧
    exec (.rem d a b) s = s.gives 4 d (if y = 0#64 then x else BitVec.ofInt 64 (x.toInt.tmod y.toInt)) ∧
    exec (.remu d a b) s = s.gives 4 d (if y = 0#64 then x else BitVec.ofNat 64 (x.toNat % y.toNat))

/-- R91, R92: the immediate members, with imm11 and imm19 sign-extended; a shift whose imm11 is above 63 is refused as ILLOP
with the word in TVAL. -/
def Obligations.ImmediateResults : Prop :=  ∀ (s : State) (d : Dst) (a : Src) (imm : BitVec 11) (w : BitVec 19) (x : U64), s.reads a = some x →
    exec (.addi d a imm) s = s.gives 4 d (BitVec.ofInt 64 (x.toInt + imm.toInt)) ∧
    exec (.andi d a imm) s = s.gives 4 d (x &&& imm.signExtend 64) ∧
    exec (.ori d a imm) s = s.gives 4 d (x ||| imm.signExtend 64) ∧
    exec (.xori d a imm) s = s.gives 4 d (x ^^^ imm.signExtend 64) ∧
    (imm.toNat ≤ 63 →
      exec (.shli d a imm) s = s.gives 4 d (BitVec.ofNat 64 (x.toNat * 2 ^ imm.toNat)) ∧
      exec (.shri d a imm) s = s.gives 4 d (BitVec.ofNat 64 (x.toNat / 2 ^ imm.toNat)) ∧
      exec (.srai d a imm) s = s.gives 4 d (BitVec.ofInt 64 (x.toInt / 2 ^ imm.toNat))) ∧
    (63 < imm.toNat → ∀ i, (i = .shli d a imm ∨ i = .shri d a imm ∨ i = .srai d a imm) →
      decodeBytes (encodeBytes i) = .error (.illop 4 (BitVec.ofNat 64 (encode i).bits))) ∧
    exec (.slti d a imm) s = s.gives 4 d (if x.toInt < imm.toInt then 1#64 else 0#64) ∧
    exec (.li d w) s = s.gives 4 d (BitVec.ofInt 64 w.toInt)

/-- R44: the compact arithmetic members read ages, push, and move on by two bytes. -/
def Obligations.CompactResults : Prop :=  ∀ (s : State) (a b : BitVec 4) (e : BitVec 2) (x y : U64), s.reads (.age a) = some x → s.reads (.age b) = some y →
    exec (.addC a b) s = s.gives 2 .queue (x + y) ∧
    exec (.subC a b) s = s.gives 2 .queue (x - y) ∧
    exec (.andC a b) s = s.gives 2 .queue (x &&& y) ∧
    exec (.orC a b) s = s.gives 2 .queue (x ||| y) ∧
    exec (.xorC a b) s = s.gives 2 .queue (x ^^^ y) ∧
    exec (.mulC a b) s = s.gives 2 .queue (x * y) ∧
    exec (.sltC a b) s = s.gives 2 .queue (if x.toInt < y.toInt then 1#64 else 0#64) ∧
    exec (.seqC a b) s = s.gives 2 .queue (if x = y then 1#64 else 0#64) ∧
    exec (.shliC a b e) s = s.gives 2 .queue (x <<< (4 * b.toNat + e.toNat)) ∧
    exec (.shriC a b e) s = s.gives 2 .queue (x >>> (4 * b.toNat + e.toNat)) ∧
    exec (.addiC a b e) s = s.gives 2 .queue (x + (b ++ e).signExtend 64) ∧
    exec (.liC a b e) s = s.gives 2 .queue ((a ++ (b ++ e)).signExtend 64)

/-! ## Moves, named registers and the generator (R48, R87, R92 to R105) -/

/-- R48, R92, R94, R44: MOV in its four spellings, XGET, XSETR and XSET complete with these effects and no other.

R87, R93, R94: NCLR clears the presence bit of its register and no other, and leaves the value; NTEST pushes the bit
and never blocks.

R87, R38: an instruction with a scalar source that is a clear named register does not issue: the slot is blocked. It holds for
every scalar source of every instruction that `sources` lists: all but the operands of GSET and GSETN, which never block (R136), and
for the four that ask for a mode first, outside user mode. -/
def Obligations.MovesAndPresence : Prop :=
  (∀ (s : State) (d : Dst) (a : Src) (m n : BitVec 4) (i : BitVec 3) (imm : BitVec 16) (part : BitVec 2) (v u w : U64),
    s.reads a = some v → s.reads (.age m) = some u → s.reads (.nam n) = some w →
    exec (.mov d a) s = s.gives 4 d v ∧
    exec (.movCToNamed n m) s = s.gives 2 (.nam n) u ∧
    exec (.movCFromNamed n) s = s.gives 2 .queue w ∧
    exec (.movCAge m) s = s.gives 2 .queue u ∧
    exec (.xget d i) s = s.gives 4 d ((s.slot s.cur).xreg i.toNat) ∧
    exec (.xsetr i a) s = .next (s.done 4 fun y => { y with x := y.x.set 0#64 i.toNat v }) ∧
    ∃ r : U64, exec (.xset i imm part) s = .next (s.done 4 fun y => { y with x := y.x.set 0#64 i.toNat r }) ∧
      ∀ j, j < 64 → r.getLsbD j =
        if j / 16 = part.toNat then imm.getLsbD (j % 16) else ((s.slot s.cur).xreg i.toNat).getLsbD j) ∧
  (∀ (s : State) (d : Dst) (n : BitVec 4),
    (∃ p : BitVec 16, exec (.nclr n) s = .next (s.done 4 fun x => { x with pres := p }) ∧
      exec (.nclrC n) s = .next (s.done 2 fun x => { x with pres := p }) ∧
      ∀ j, j < 16 → p.getLsbD j = (decide (j ≠ n.toNat) && (s.slot s.cur).pres.getLsbD j)) ∧
    exec (.ntest d n) s = s.gives 4 d (if (s.slot s.cur).pres.getLsbD n.toNat then 1#64 else 0#64)) ∧
  (∀ (s : State) (i : Instr) (a : Src), a ∈ sources i → s.reads a = none →
    (asksMode i = true → (s.slot s.cur).user = false) → exec i s = s.waits)

/-- R101: one RNG draw pushes the wrapped sum and replaces the state as the rule's step does.

R104, R105: RNGSEED sets the slot's state to the partition's seed advanced; CYCLE has the effect of MFS of 0x011, and
pushes the counter of its die. -/
def Obligations.GeneratorAndCycle : Prop :=
  (∀ (s : State) (d : Dst) (lo hi : U64), (s.slot s.cur).rngLo = lo → (s.slot s.cur).rngHi = hi →
    exec (.rng d) s = .next (s.done 4 fun x =>
      Slot.result { x with rngLo := hi, rngHi := (lo ^^^ lo <<< 23) ^^^ hi ^^^ ((lo ^^^ lo <<< 23) >>> 17) ^^^ (hi >>> 26) } d (lo + hi))) ∧
  (∀ (s : State) (d : Dst) (a : Src) (v : U64), s.reads a = some v →
    exec (.rngseed a) s = .next (s.done 4 fun x =>
      { x with rngLo := (s.seeded (s.partOfSlot s.cur) v.toNat).1, rngHi := (s.seeded (s.partOfSlot s.cur) v.toNat).2 }) ∧
    exec (.cycle d) s = s.gives 4 d (s.cycle (dieOf (coreOf s.cur))) ∧
    exec (.cycle d) s = exec (.mfs d 0x011#12) s)

/-- R97, R98: BORROW takes the lowest idle helper for 0 and the one it names for 1 to 10, else pushes -1; BRD, BWR and
BRET act on the borrowed slot, and raise ILLOP without one.

R99, R405: QSEND appends its entry while its queue holds fewer than 4 of its tenant and blocks otherwise; QRECV takes
the oldest entry, and blocks on an empty queue or a held entry; QSTAT counts, or answers -1 for another tenant's. -/
def Obligations.QueuesAndBorrows : Prop :=
  (∀ (s : State) (d : Dst) (a : Src) (n : BitVec 4) (v : U64), s.reads a = some v →
    (∀ b, (s.slot s.cur).borrow = none → b < 11 → s.freeHelper (12 * coreOf s.cur + b) = true →
      (v.toNat = b ∨ v = 0#64 ∧ ∀ j, j < b → s.freeHelper (12 * coreOf s.cur + j) = false) →
      exec (.borrow d a) s = .next
        (((s.noteIssue.modSlot (12 * coreOf s.cur + b) fun y => { y.idle with borrowed := true }).modSlot s.cur
          fun y => Slot.result { y with borrow := some b } d (BitVec.ofNat 64 b)).past 4)) ∧
    ((s.slot s.cur).borrow ≠ none ∨ v.toNat > 10 ∨ v ≠ 0#64 ∧ s.freeHelper (12 * coreOf s.cur + v.toNat) = false ∨
        v = 0#64 ∧ (∀ j, j < 11 → s.freeHelper (12 * coreOf s.cur + j) = false) →
      exec (.borrow d a) s = s.gives 4 d (BitVec.allOnes 64)) ∧
    (∀ b, (s.slot s.cur).borrow = some b →
      exec (.brd d n) s = s.gives 4 d ((s.slot (12 * coreOf s.cur + b)).named n.toNat) ∧
      exec (.bwr n a) s = .next ((s.noteIssue.modSlot (12 * coreOf s.cur + b) fun x => x.setNamed n.toNat v).past 4) ∧
      exec .bret s = .next ((s.noteIssue.returnBorrow s.cur).past 4)) ∧
    ((s.slot s.cur).borrow = none →
      exec (.brd d n) s = s.traps 4 .illop (wordVal (encode (.brd d n))) ∧
      exec (.bwr n a) s = s.traps 4 .illop (wordVal (encode (.bwr n a))) ∧
      exec .bret s = s.traps 4 .illop (wordVal (encode .bret)))) ∧
  (∀ (s : State) (d : Dst) (a : Src) (q : BitVec 3) (v : U64) (es : List QEntry),
    s.reads a = some v → (s.slot s.cur).tile? = none → (s.core (coreOf s.cur)).queues.get [] q.toNat = es →
    let mine := ∀ e ∈ es, e.tenant = (s.slot s.cur).tenant
    let queue := fun (t : State) (l : List QEntry) =>
      t.modCore (coreOf s.cur) fun c => { c with queues := c.queues.set [] q.toNat l }
    (mine → es.length < 4 → (s.slot s.cur).relHold = [] →
      exec (.qsend q a) s = .next
        ((queue s.noteIssue (es ++ [{ v := v, tenant := (s.slot s.cur).tenant, holds := [] }])).past 4)) ∧
    (¬ mine ∨ 4 ≤ es.length → exec (.qsend q a) s = s.waits) ∧
    (∀ e rest, mine → es = e :: rest → e.holds = [] →
      exec (.qrecv d q) s = .next (((queue s.noteIssue rest).modSlot s.cur fun x => x.result d e.v).past 4)) ∧
    (¬ mine ∨ es = [] ∨ (∃ e rest h, es = e :: rest ∧ h ∈ e.holds ∧ s.pending h = true) →
      exec (.qrecv d q) s = s.waits) ∧
    (mine → exec (.qstat d q) s = s.gives 4 d (BitVec.ofNat 64 es.length)) ∧
    (¬ mine → exec (.qstat d q) s = s.gives 4 d (BitVec.allOnes 64)))

/-- R95, R151, R407: an NWR to a slot of a neighbouring core of the partition sends its write along the mesh, on the channel of its
tenant's class, and holds its slot; outside the mesh or the partition, or across a die from slot 11, it raises XPERM.

R95, R96, R12: an NWR that has crossed its last link stands at its target, behind those that came before it, with the task that
runs there or resumes there; it is performed once the register is clear, by the message thread when it comes from another die, and its
acknowledgement goes back on the response subchannel of its class (R407), with which its slot completes; or it returns with XPERM when
that task no longer runs, or is withdrawn for a pre-emption. -/
def Obligations.NeighbourRegisters : Prop :=
  (∀ (s : State) (dir : BitVec 2) (n : BitVec 4) (a : Src) (slot : BitVec 5) (v : U64) (x y : Int),
    s.reads a = some v → (s.slot s.cur).tile? = none → (s.slot s.cur).relHold = [] →
    neighbour (coreOf s.cur) dir = (x, y) →
    let c := coreAt x.toNat y.toNat
    let inside := 0 ≤ x ∧ x < 32 ∧ 0 ≤ y ∧ y < 20 ∧ s.ownsCore (s.partOfSlot s.cur) c = true
    let near := slotNo s.cur ≠ 11 ∨ dieOf c = dieOf (coreOf s.cur)
    (inside → near →
      exec (.nwr dir n a slot) s = .next (State.modSlot
        (State.post { s.noteIssue with
            fresh := s.fresh + 1
            nwrs := s.nwrs ++ [{ id := s.fresh, src := s.cur, dst := 12 * c + slot.toNat, tid := none, n := n.toNat, v := v }] }
          s.fresh (s.classOf s.cur) false s.cur c (meshPath (coreOf s.cur) c))
        s.cur fun z => { z with wait := Wait.nwr })) ∧
    (¬ (inside ∧ near) → exec (.nwr dir n a slot) s =
      s.traps 4 .xperm (BitVec.ofNat 64 (slot.toNat * 2 ^ 16 + (y % 256).toNat * 2 ^ 8 + (x % 256).toNat)))) ∧
  (∀ (s : State) (r : NwrReq),
    (∀ l cls f, (s.link l).unacked = [f] → f.sub = 2 * cls → f.path = [] → s.nwrs.find? (fun q => q.id == f.id) = some r →
      (∀ k ∈ s.acks, k.id ≠ f.id) →
      ∃ t, exec (.creditReturn l cls false) s = .next t ∧ t.mem = s.mem ∧ t.slots = s.slots ∧
        t.nwrs = s.nwrs.erase r ++ [{ r with tid := some ((s.runs r.dst).getD 0) }]) ∧
    (∀ l cls f k tid, (s.link l).unacked = [f] → f.sub = 2 * cls + 1 → f.path = [] →
      (∀ q ∈ s.nwrs, q.id ≠ f.id) → (∀ m ∈ s.amsgs, m.id ≠ f.id) → s.acks = [{ id := f.id, owner := k, kind := .nwr r.src tid }] →
      (s.slot r.src).tid = tid → (s.slot r.src).wait = Wait.nwr →
      ∃ t, exec (.creditReturn l cls true) s = .next t ∧ t.mem = s.mem ∧ t.acks = [] ∧
        t.slots = (s.modSlot r.src fun x => { x.advance 4 with wait := Wait.none }).slots) ∧
    ∀ rest, s.nwrs = r :: rest → r.tid.isSome = true →
      (s.nwrAlive r = true → (s.slot r.dst).live = true → (s.slot r.dst).present r.n = false →
        slotNo r.dst = 11 ∨ s.threadFree (coreOf r.src) (coreOf r.dst) false = true →
        ∀ path, path = meshPath (coreOf r.dst) (coreOf r.src) → path ≠ [] →
        exec (.nwrHeldWrite r.dst r.n) s = .next
          ((State.modSlot { s with nwrs := rest } r.dst fun x => x.setNamed r.n r.v).respond (coreOf r.dst) (coreOf r.src)
            (s.classOf r.src) path (some (r.src, .nwr r.src (s.slot r.src).tid)))) ∧
      (s.nwrAlive r = false → (s.slot r.src).handles .xperm = true →
        exec (.nwrWithdrawal r.src) s = .next (State.modSlot { s with nwrs := rest } r.src fun x =>
          x.enter .xperm (nwrTval (slotNo r.dst) (coreX (coreOf r.dst)) (coreY (coreOf r.dst))) 4)) ∧
      (s.nwrAlive r = true → s.mayStop r.src = true →
        exec (.nwrWithdrawal r.src) s = .next (State.modSlot { s with nwrs := rest } r.src fun x =>
          { x with wait := Wait.none, stopped := some none })))

/-! ## System registers (R38, R106 to R110, R134) -/

/-- R38: MFS, MTS and MTSI of a register at 0x800 or above, and TINV, raise PRIV in user mode with the word in TVAL. -/
def Obligations.PrivilegedInUserMode : Prop :=  ∀ (s : State) (d : Dst) (a b : Src) (sys : BitVec 12) (h : BitVec 3) (l : BitVec 5) (all : Bool),
    (s.slot s.cur).user = true →
    (0x800 ≤ sys.toNat →
      exec (.mfs d sys) s = s.traps 4 .priv (BitVec.ofNat 64 (encode (.mfs d sys)).bits) ∧
      exec (.mts sys a) s = s.traps 4 .priv (BitVec.ofNat 64 (encode (.mts sys a)).bits) ∧
      exec (.mtsi sys h l) s = s.traps 4 .priv (BitVec.ofNat 64 (encode (.mtsi sys h l)).bits)) ∧
    exec (.tinv all a b) s = s.traps 4 .priv (BitVec.ofNat 64 (encode (.tinv all a b)).bits)

/-- R106: MFS below 0x800, and above it outside user mode, pushes what its register reads at its own issue.

R17, R18, R67, R68, R101, R107 to R110, R132, R134, R196, R203, R291, R370, R379: what each register below 0x800 reads. BUDGET
reads after its own issue is counted (DEDUCED, log 67), so what it shows of ISSUES and of the charge is one less; CYCLE is
GeneratorAndCycle's. -/
def Obligations.SystemRegisterReads : Prop :=
  (∀ (s : State) (d : Dst) (sys : BitVec 12), (sys.toNat < 0x800 ∨ (s.slot s.cur).user = false) →
    exec (.mfs d sys) s = s.gives 4 d (BitVec.ofNat 64 (s.noteIssue.readSys s.cur sys.toNat))) ∧
  (∀ (s : State) (d : Dst) (x : Slot) (c : Nat), s.slot s.cur = x → coreOf s.cur = c →
    let n := fun (v : Nat) => s.gives 4 d (BitVec.ofNat 64 v)
    exec (.mfs d 0x000#12) s = n (s.cur % 12) ∧
    exec (.mfs d 0x001#12) s = n (coreX c + 2 ^ 5 * coreY c + 2 ^ 10 * (c / 160) + 2 ^ 12 * (c % 8) + 2 ^ 15 * (c / 8)) ∧
    exec (.mfs d 0x002#12) s = n (s.partOfSlot s.cur + 4 * s.classOf s.cur + 16 * x.tenant) ∧
    exec (.mfs d 0x003#12) s = n s.cur ∧
    exec (.mfs d 0x010#12) s = n ((if x.user then 1 else 0) +
      (if x.borrow.isSome then 2 else 0) + (if x.inTrap then 4 else 0) + 16 * x.borrow.getD 0) ∧
    exec (.mfs d 0x100#12) s = s.gives 4 d (x.rmode.setWidth 64) ∧
    exec (.mfs d 0x101#12) s = s.gives 4 d (x.fflags.setWidth 64) ∧
    exec (.mfs d 0x102#12) s = s.gives 4 d (x.covmode.setWidth 64) ∧
    exec (.mfs d 0x108#12) s = s.gives 4 d x.rngLo ∧
    exec (.mfs d 0x109#12) s = s.gives 4 d x.rngHi ∧
    exec (.mfs d 0x110#12) s = n (16 * x.groups + 2 ^ 16 * x.minGrp) ∧
    (∀ i, i < 3 → exec (.mfs d (BitVec.ofNat 12 (0x120 + i))) s = s.gives 4 d ((x.loops[i]?).elim 0#64 LoopLevel.count)) ∧
    exec (.mfs d 0x123#12) s = n (x.loops.length + 4 * x.hidden) ∧
    (∀ i, i < 8 → exec (.mfs d (BitVec.ofNat 12 (0x200 + i))) s = s.gives 4 d ((s.core c).mbx.get 0#64 i)) ∧
    exec (.mfs d 0x208#12) s = s.gives 4 d ((s.core c).mbxp.setWidth 64) ∧
    (∀ i, i < 16 → exec (.mfs d (BitVec.ofNat 12 (0x300 + i))) s = s.gives 4 d ((s.quad (c / 2)).zdesc.get 0#64 i)) ∧
    (∀ m : BitVec 4, (s.quad (c / 2)).fused = m →
      exec (.mfs d 0x310#12) s = n (if m = 0#4 then c / 2 % 4 + 16 * 2 ^ (c / 2 % 4) else c / 2 % 4 + 16 * m.toNat +
        4 * (if m = 15#4 then 3 else if m = 3#4 ∨ m = 12#4 then 1 else if m = 5#4 ∨ m = 10#4 then 2 else 0))) ∧
    exec (.mfs d 0x400#12) s = s.gives 4 d x.dline ∧
    exec (.mfs d 0x401#12) s = n ((if x.limited then x.issues.toNat - 1 else 0) + 2 ^ 32 * (if x.admitted then x.charge - 1 else 0)) ∧
    exec (.mfs d 0x402#12) s = s.gives 4 d (x.taskRec.setWidth 64) ∧
    exec (.mfs d 0x403#12) s = s.gives 4 d x.group ∧
    exec (.mfs d 0x500#12) s = s.gives 4 d (x.tol.setWidth 64) ∧
    exec (.mfs d 0x501#12) s = s.gives 4 d (x.tolMode.setWidth 64) ∧
    exec (.mfs d 0x502#12) s = s.gives 4 d (x.sfails.setWidth 64) ∧
    exec (.mfs d 0x600#12) s = s.gives 4 d (x.view.setWidth 64) ∧
    exec (.mfs d 0x601#12) s = s.gives 4 d (x.camStep.setWidth 64) ∧
    exec (.mfs d 0x602#12) s = s.gives 4 d (x.flipPen.setWidth 64) ∧
    exec (.mfs d 0x700#12) s = s.gives 4 d (x.tcause.setWidth 64) ∧
    exec (.mfs d 0x701#12) s = s.gives 4 d (x.tpc.setWidth 64) ∧
    exec (.mfs d 0x702#12) s = s.gives 4 d x.tval ∧
    exec (.mfs d 0x703#12) s = n (x.ilen.toNat + 16 * x.thidden.toNat + (if x.grace then 64 else 0) + (if x.elost then 128 else 0)) ∧
    exec (.mfs d 0x704#12) s = n ((if x.ten then 1 else 0) + 2 ^ 13 * x.tbase.toNat))

/-- R5, R106: MTS of each register of the slot that a program may write changes its field and nothing else; a write to a
register that is read-only is discarded. MTSI does the same with its immediate, zero-extended, whatever the named registers hold.

R106, R134, R162, R291: MTS and MTSI of a mailbox store into an empty one and are held at a full one; MBXP is write-one-to-clear,
from a surrogate tile too (log 57's reading: MBXP is none of R368's mailboxes); ZDESC takes 27 bits.

R134, R369: the events of mailboxes: a write of the host arrives, MBXP bits are cleared, and the oldest held write is performed
once PRESENT is clear, completing the MTS that waits for it, or the access of a store, which may be the last of a tile's commit. -/
def Obligations.SystemRegisterWrites : Prop :=
  (∀ (s : State) (a : Src) (v : U64) (h : BitVec 3) (l : BitVec 5) (w : BitVec 12 → Instr),
    (s.reads a = some v ∧ w = (fun sys => .mts sys a) ∨ v = (h ++ l).setWidth 64 ∧ w = fun sys => .mtsi sys h l) →
    exec (w 0x100#12) s = .next (s.done 4 fun x => { x with rmode := if (v.extractLsb' 0 3).toNat ≤ 5 then v.extractLsb' 0 3 else x.rmode }) ∧
    exec (w 0x101#12) s = .next (s.done 4 fun x => { x with fflags := v.extractLsb' 0 6 }) ∧
    exec (w 0x102#12) s = .next (s.done 4 fun x => { x with covmode := v.extractLsb' 0 2 }) ∧
    exec (w 0x108#12) s = .next (s.done 4 fun x => { x with rngLo := v }) ∧
    exec (w 0x109#12) s = .next (s.done 4 fun x => { x with rngHi := v }) ∧
    exec (w 0x600#12) s = .next (s.done 4 fun x => { x with view := v.extractLsb' 0 6 }) ∧
    exec (w 0x601#12) s = .next (s.done 4 fun x => { x with camStep := v.extractLsb' 0 24 }) ∧
    exec (w 0x602#12) s = .next (s.done 4 fun x => { x with flipPen := v.extractLsb' 0 24 }) ∧
    exec (w 0x701#12) s = .next (s.done 4 fun x => { x with tpc := if x.inTrap then v.extractLsb' 0 52 else x.tpc }) ∧
    exec (w 0x703#12) s = .next (s.done 4 fun x => { x with elost := x.elost && !v.getLsbD 7 }) ∧
    exec (w 0x704#12) s = .next (s.done 4 fun x => { x with tbase := v.extractLsb' 13 39, ten := v.getLsbD 0 }) ∧
    ((s.slot s.cur).tile? = none →
      exec (w 0x500#12) s = .next (s.done 4 fun x => { x with tol := v.extractLsb' 0 32 }) ∧
      exec (w 0x501#12) s = .next (s.done 4 fun x =>
        { x with tolMode := if (v.extractLsb' 0 2).toNat < 2 then v.extractLsb' 0 2 else x.tolMode })) ∧
    ((s.slot s.cur).tile?.isSome = true →
      exec (w 0x500#12) s = .next (s.done 4 fun x => x) ∧ exec (w 0x501#12) s = .next (s.done 4 fun x => x)) ∧
    (∀ sys : BitVec 12, sys.toNat ∈ [0x000, 0x001, 0x002, 0x003, 0x010, 0x011, 0x110, 0x120, 0x121, 0x122, 0x123, 0x310, 0x400,
        0x401, 0x402, 0x403, 0x502, 0x700, 0x702] → exec (w sys) s = .next (s.done 4 fun x => x)) ∧
    (∀ sys : BitVec 12, 0x800 ≤ sys.toNat → (s.slot s.cur).user = false → exec (w sys) s = .next (s.done 4 fun x => x))) ∧
  (∀ (s : State) (a : Src) (v : U64) (h : BitVec 3) (l : BitVec 5) (w : BitVec 12 → Instr) (i : Nat) (sys : BitVec 12),
    (s.reads a = some v ∧ w = (fun sys => .mts sys a) ∨ v = (h ++ l).setWidth 64 ∧ w = fun sys => .mtsi sys h l) →
    (sys.toNat = 0x200 + i → i < 8 → (s.slot s.cur).tile? = none → s.mailboxFree (coreOf s.cur) i = true →
      exec (w sys) s = .next ((s.noteIssue.modCore (coreOf s.cur) fun c =>
        { c with mbx := c.mbx.set 0#64 i v, mbxp := c.mbxp ||| BitVec.ofNat 8 (2 ^ i) }).past 4)) ∧
    (sys.toNat = 0x200 + i → i < 8 → (s.slot s.cur).tile? = none → s.mailboxFree (coreOf s.cur) i = false →
      exec (w sys) s = .next ((s.noteIssue.modCore (coreOf s.cur) fun c =>
        { c with mbxHeld := c.mbxHeld.set [] i (c.mbxHeld.get [] i ++ [{ v := v, slot := some s.cur }]) }).modSlot s.cur
          fun x => { x with wait := Wait.mailbox })) ∧
    exec (w 0x208#12) s = .next ((s.noteIssue.modCore (coreOf s.cur) fun c =>
      { c with mbxp := c.mbxp &&& ~~~(v.extractLsb' 0 8) }).past 4) ∧
    (sys.toNat = 0x300 + i → i < 16 →
      exec (w sys) s = .next ((s.noteIssue.modQuad (quadOf (coreOf s.cur)) fun q =>
        { q with zdesc := q.zdesc.set 0#64 i ((v.extractLsb' 0 27).setWidth 64) }).past 4))) ∧
  (∀ (s : State) (core i : Nat) (v : U64) (m : BitVec 8), core < 640 → i < 8 →
    (s.mailboxFree core i = true →
      exec (.mailboxWrite core i v) s = .next (s.modCore core fun c =>
        { c with mbx := c.mbx.set 0#64 i v, mbxp := c.mbxp ||| BitVec.ofNat 8 (2 ^ i) })) ∧
    (s.mailboxFree core i = false →
      exec (.mailboxWrite core i v) s = .next (s.modCore core fun c =>
        { c with mbxHeld := c.mbxHeld.set [] i (c.mbxHeld.get [] i ++ [{ v := v, slot := none }]) })) ∧
    exec (.mbxpClear core m) s = .next (s.modCore core fun c => { c with mbxp := c.mbxp &&& ~~~m }) ∧
    (∀ w rest, (s.core core).mbxHeld.get [] i = w :: rest → (s.core core).mbxp.getLsbD i = false →
      let u := s.modCore core fun c =>
        { c with mbx := c.mbx.set 0#64 i w.v, mbxp := c.mbxp ||| BitVec.ofNat 8 (2 ^ i), mbxHeld := c.mbxHeld.set [] i rest }
      (∀ g, w.slot = some g → exec (.heldMailboxWrite core i) s = .next (u.modSlot g fun x => { x.advance 4 with wait := Wait.none })) ∧
      (w.slot = none → w.store = none → exec (.heldMailboxWrite core i) s = .next u) ∧
      (∀ a, w.slot = none → w.store = some a.id → s.flight.find? (fun x => x.id == a.id) = some a →
        exec (.heldMailboxWrite core i) s = .next
          ((State.sendReturn { u with flight := s.flight.filter fun x => x.id ≠ a.id } a false).settleCommit a.slot))))

/-! ## Capabilities (R111 to R122) -/

/-- R118: the members that read a capability, by its fields and its decoded bounds; they need no tag. That the TVAL of CSUB's CAPSPACE
is the cursor of ka is the model's choice (log 74).

R118: CMOV copies tag and bits, CCLR writes the null capability; neither faults.

R119: CSETA and CINC move the cursor within the capability's block and keep its bounds, permissions, space and tag;
they trap on an untagged capability and on a cursor outside the block or the space. -/
def Obligations.CapabilityReadsAndMoves : Prop :=
  (∀ (s : State) (d : Dst) (ka kb : BitVec 3) (k j : Cap), s.cap ka = k → s.cap kb = j →
    exec (.cgeta d ka) s = s.gives 4 d ((k.bits.extractLsb' 0 52).setWidth 64) ∧
    exec (.cgetb d ka) s = s.gives 4 d (BitVec.ofNat 64 k.base) ∧
    exec (.cgetl d ka) s = s.gives 4 d (BitVec.ofNat 64 k.top - BitVec.ofNat 64 k.base) ∧
    exec (.cgetp d ka) s = s.gives 4 d (BitVec.ofNat 64 ((if k.tag then 1 else 0) + 2 ^ 4 * k.space + 2 ^ 8 * k.perm + 2 ^ 16 * k.ex)) ∧
    exec (.ctag d ka) s = s.gives 4 d (if k.tag then 1#64 else 0#64) ∧
    (k.space = j.space → exec (.csub d ka kb) s = s.gives 4 d (BitVec.ofInt 64 ((k.cursor : Int) - j.cursor))) ∧
    (k.space ≠ j.space → exec (.csub d ka kb) s = s.traps 4 .capSpace (BitVec.ofNat 64 k.cursor)) ∧
    exec (.ceq d ka kb) s = s.gives 4 d
      (if k.tag = j.tag ∧ (k.tag = true → k.space = j.space ∧ k.perm = j.perm ∧ k.cursor = j.cursor ∧ k.base = j.base ∧ k.top = j.top) ∧
          (k.tag = false → k.bits = j.bits) then 1#64 else 0#64)) ∧
  (∀ (s : State) (kd ka : BitVec 3),
    exec (.cmov kd ka) s = .next (s.done 4 fun x => { x with k := x.k.set Cap.null kd.toNat (s.cap ka) }) ∧
    exec (.cclr kd) s = .next (s.done 4 fun x => { x with k := x.k.set Cap.null kd.toNat { tag := false, bits := 0#128 } })) ∧
  (∀ (s : State) (kd ka : BitVec 3) (b : Src) (y : U64) (k : Cap) (v : Int), s.reads b = some y → s.cap ka = k →
    let inBlock := 0 ≤ v ∧ v < 2 ^ 52 ∧ v / 2 ^ (k.ex + 26) = k.cursor / 2 ^ (k.ex + 26)
    let moved := fun (r : Cap) => r.tag = true ∧ (r.cursor : Int) = v ∧ r.base = k.base ∧ r.top = k.top ∧ r.ex = k.ex ∧
      r.space = k.space ∧ r.perm = k.perm
    (v = y.toNat →
      (k.tag = true → inBlock → ∃ r, moved r ∧
        exec (.cseta kd ka b) s = .next (s.done 4 fun x => { x with k := x.k.set Cap.null kd.toNat r })) ∧
      (k.tag = false → exec (.cseta kd ka b) s = s.traps 4 .capTag (BitVec.ofNat 64 k.cursor)) ∧
      (k.tag = true → ¬ inBlock → exec (.cseta kd ka b) s = s.traps 4 .capBnd (BitVec.ofInt 64 v))) ∧
    (v = k.cursor + y.toInt →
      (k.tag = true → inBlock → ∃ r, moved r ∧
        exec (.cinc kd ka b) s = .next (s.done 4 fun x => { x with k := x.k.set Cap.null kd.toNat r })) ∧
      (k.tag = false → exec (.cinc kd ka b) s = s.traps 4 .capTag (BitVec.ofNat 64 k.cursor)) ∧
      (k.tag = true → ¬ inBlock → exec (.cinc kd ka b) s = s.traps 4 .capBnd (BitVec.ofInt 64 v))))

/-- R120, R121: CBOUND's new bounds at the smallest exponent that holds them lie inside the old ones, and contain what was
asked for; it raises CAPBND when no exponent holds them or they leave the old ones. CPERM removes exactly the permissions named.
Neither widens what a capability allows, and both raise CAPTAG on an untagged one.

R117: CGEN leaves a GLOBAL capability as it is, and gives a SCRATCH or VAULT capability whose shifted bounds its
fields still encode the alias with those fields; an untagged one traps with CAPTAG, another space with CAPSPACE.

R122, R240: LDK reads the count of the pool at the base of the code capability, then the record, each in a step of its own; makes a
SCRATCH, VAULT or PRIVATE record the core's own, and installs it. An index out of range, or bounds that break R113, trap with CAPBND at
the record's address; a space above 6 or a reserved bit traps with CAPSPACE at its cursor. -/
def Obligations.CapabilityDerivation : Prop :=
  (∀ (s : State) (kd ka : BitVec 3) (b : Src) (y : U64) (k : Cap), s.reads b = some y → s.cap ka = k →
    (k.tag = false → ∀ exact, exec (.cbound exact kd ka b) s = s.traps 4 .capTag (BitVec.ofNat 64 k.cursor) ∧
      exec (.cperm kd ka b) s = s.traps 4 .capTag (BitVec.ofNat 64 k.cursor)) ∧
    (k.tag = true → k.legal = true →
      let low := fun e => k.cursor / 2 ^ e * 2 ^ e
      let high := fun e => (k.cursor + y.toNat + 2 ^ e - 1) / 2 ^ e * 2 ^ e
      let bad := BitVec.ofNat 64 (k.cursor + y.toNat)
      ((∀ e ≤ 27, low e / 2 ^ (e + 26) ≠ high e / 2 ^ (e + 26)) → ∀ exact, exec (.cbound exact kd ka b) s = s.traps 4 .capBnd bad) ∧
      (∀ e nb nt, e ≤ 27 → nb = low e → nt = high e → nb / 2 ^ (e + 26) = nt / 2 ^ (e + 26) →
        (∀ j, j < e → low j / 2 ^ (j + 26) ≠ high j / 2 ^ (j + 26)) →
        (k.base ≤ nb → nt ≤ k.top → ∃ r : Cap, r.tag = true ∧ r.legal = true ∧ r.ex = e ∧ r.base = nb ∧ r.top = nt ∧
          r.cursor = k.cursor ∧ r.space = k.space ∧ r.perm = k.perm ∧
          exec (.cbound false kd ka b) s = .next (s.done 4 fun x => { x with k := x.k.set Cap.null kd.toNat r }) ∧
          (nb = k.cursor → nt = k.cursor + y.toNat → exec (.cbound true kd ka b) s = exec (.cbound false kd ka b) s) ∧
          (nb ≠ k.cursor ∨ nt ≠ k.cursor + y.toNat → exec (.cbound true kd ka b) s = s.traps 4 .capBnd bad)) ∧
        (¬ (k.base ≤ nb ∧ nt ≤ k.top) → ∀ exact, exec (.cbound exact kd ka b) s = s.traps 4 .capBnd bad))) ∧
    (k.tag = true → ∃ r : Cap, r.tag = true ∧ r.base = k.base ∧ r.top = k.top ∧ r.cursor = k.cursor ∧ r.space = k.space ∧
      (∀ i, i < 8 → r.has i = (k.has i && !y.getLsbD i)) ∧
      exec (.cperm kd ka b) s = .next (s.done 4 fun x => { x with k := x.k.set Cap.null kd.toNat r }))) ∧
  (∀ (s : State) (kd ka : BitVec 3) (k : Cap), s.cap ka = k →
    (k.tag = false → exec (.cgen kd ka) s = s.traps 4 .capTag (BitVec.ofNat 64 k.cursor)) ∧
    (k.tag = true → 3 ≤ k.space → exec (.cgen kd ka) s = s.traps 4 .capSpace (BitVec.ofNat 64 k.cursor)) ∧
    (k.tag = true → k.space = 0 →
      exec (.cgen kd ka) s = .next (s.done 4 fun x => { x with k := x.k.set Cap.null kd.toNat k })) ∧
    (∀ sh, k.tag = true → (k.space = 2 ∧ sh = (s.partReg (s.partOfSlot s.cur) 0x808).toNat ∨
        k.space = 1 ∧ sh = (s.partReg (s.partOfSlot s.cur) 0x809).toNat) →
      let r : Cap := { tag := true, bits := packCap k.tOff k.bOff k.ex k.perm 0 (k.cursor + sh) }
      k.cursor + sh < 2 ^ 52 → k.top + sh ≤ 2 ^ 52 → r.base = k.base + sh → r.top = k.top + sh →
      exec (.cgen kd ka) s = .next (s.done 4 fun x => { x with k := x.k.set Cap.null kd.toNat r }))) ∧
  (∀ (s t : State) (kd : BitVec 3) (idx : BitVec 10) (n c : Nat) (pcc k : Cap) (x : Slot), s.slot s.cur = x → x.pcc = pcc →
    let at' := pcc.base + 16 * idx.toNat
    (x.saw 0 = none → loadAny pcc pcc.base 2 { spaces := [0], perm := [], align := 2 } [] s.noteIssue = .ok (n, t) →
      exec (.ldk kd idx) s = s.keeps t 0 { bytes := toBytes 2 n }) ∧
    (∀ o, x.saw 0 = some o → n = leAt o.bytes 0 2 →
      (idx.toNat = 0 ∨ n ≤ idx.toNat → exec (.ldk kd idx) s = s.traps 4 .capBnd (BitVec.ofNat 64 at')) ∧
      (0 < idx.toNat → idx.toNat < n →
        (x.saw 1 = none → loadAny pcc at' 16 { spaces := [0], perm := [], align := 16 } [] s.noteIssue = .ok (c, t) →
          exec (.ldk kd idx) s = s.keeps t 1 { bytes := toBytes 16 c }) ∧
        (∀ p, x.saw 1 = some p → c = leAt p.bytes 0 16 → k = { tag := true, bits := BitVec.ofNat 128 c } →
          let sound := k.space ≤ 6 ∧ k.bits.getLsbD 63 = false ∧ k.bits.extractLsb' 122 6 = 0#6
          (¬ sound → exec (.ldk kd idx) s = s.traps 4 .capSpace (BitVec.ofNat 64 k.cursor)) ∧
          (sound → ∃ r : Cap, r.tag = true ∧
            (∀ j, j < 128 → r.bits.getLsbD j =
              if k.space = 2 ∧ 18 ≤ j ∧ j < 28 then (coreOf s.cur).testBit (j - 18)
              else if k.space = 1 ∧ 25 ≤ j ∧ j < 32 then (clusterOf (coreOf s.cur)).testBit (j - 25)
              else if k.space = 3 ∧ j = 62 then false else k.bits.getLsbD j) ∧
            (r.legal = true →
              exec (.ldk kd idx) s = .next (s.done 4 fun y => { y with seen := [], k := y.k.set Cap.null kd.toNat r })) ∧
            (r.legal = false → exec (.ldk kd idx) s = s.traps 4 .capBnd (BitVec.ofNat 64 at')))))))

/-! ## Control flow (R124 to R140) -/

/-- R125, R35: each branch, taken on its condition and otherwise at the next instruction.

R45, R126, R127: J and its compact form transfer; CALL writes k7 with PCC at the next instruction and closes no body;
JK, RET.c and CALLK go to a code capability that passes the checks.

R127: the order of the checks of JK and CALLK on a capability. -/
def Obligations.Transfers : Prop :=
  (∀ (s : State) (a b : Src) (off : BitVec 11) (far : BitVec 18) (near : BitVec 10) (x y z : U64),
    s.reads a = some x → s.reads b = some y → s.reads (.age 0#4) = some z →
    exec (.beq a b off) s = (if x = y then s.transfers 4 off.toInt else .next (s.noteIssue.past 4)) ∧
    exec (.bne a b off) s = (if x ≠ y then s.transfers 4 off.toInt else .next (s.noteIssue.past 4)) ∧
    exec (.blt a b off) s = (if x.toInt < y.toInt then s.transfers 4 off.toInt else .next (s.noteIssue.past 4)) ∧
    exec (.bge a b off) s = (if y.toInt ≤ x.toInt then s.transfers 4 off.toInt else .next (s.noteIssue.past 4)) ∧
    exec (.bltu a b off) s = (if x.toNat < y.toNat then s.transfers 4 off.toInt else .next (s.noteIssue.past 4)) ∧
    exec (.bgeu a b off) s = (if y.toNat ≤ x.toNat then s.transfers 4 off.toInt else .next (s.noteIssue.past 4)) ∧
    exec (.bbs a b off) s = (if x.getLsbD (y.toNat % 64) then s.transfers 4 off.toInt else .next (s.noteIssue.past 4)) ∧
    exec (.bbc a b off) s = (if x.getLsbD (y.toNat % 64) then .next (s.noteIssue.past 4) else s.transfers 4 off.toInt) ∧
    exec (.bez a far) s = (if x = 0#64 then s.transfers 4 far.toInt else .next (s.noteIssue.past 4)) ∧
    exec (.bnz a far) s = (if x = 0#64 then .next (s.noteIssue.past 4) else s.transfers 4 far.toInt) ∧
    exec (.bezC near) s = (if z = 0#64 then s.transfers 2 near.toInt else .next (s.noteIssue.past 2)) ∧
    exec (.bnzC near) s = (if z = 0#64 then .next (s.noteIssue.past 2) else s.transfers 2 near.toInt)) ∧
  (∀ (s : State) (off : BitVec 23) (near : BitVec 10) (i : BitVec 3) (k : Cap) (x : Slot), s.slot s.cur = x →
    let link := fun (y : Slot) => { y with k := y.k.set Cap.null 7 (y.pcc.withCursor (y.pc + 4)) }
    let code := fun (k : Cap) => k.tag = true ∧ k.space = 0 ∧ k.has 2 = true ∧ k.cursor % 2 = 0 ∧ k.base ≤ k.cursor ∧ k.cursor + 2 ≤ k.top
    exec (.j off) s = s.transfers 4 off.toInt ∧
    exec (.jC near) s = s.transfers 2 near.toInt ∧
    ((x.pcc.base : Int) ≤ x.pc + 2 * off.toInt → x.pc + 2 * off.toInt + 2 ≤ x.pcc.top →
      exec (.call off) s = s.goes link (x.pc + 2 * off.toInt).toNat) ∧
    (x.kreg i.toNat = k → code k →
      exec (.jk i) s = s.goes (fun y => { y.leave k.cursor with pcc := k }) k.cursor ∧
      exec (.callk i) s = .next (((s.noteIssue.modSlot s.cur link).modSlot s.cur fun y => { y with pcc := k }).modSlot s.cur
        fun y => y.goto k.cursor)) ∧
    (x.kreg 7 = k → code k → exec .retC s = s.goes (fun y => { y.leave k.cursor with pcc := k }) k.cursor) ∧
    exec .nop s = .next (s.noteIssue.past 2)) ∧
  (∀ (s : State) (i : BitVec 3) (k : Cap) (c : Cause), (s.slot s.cur).kreg i.toNat = k →
    (c = .capTag ∧ k.tag = false ∨
      c = .capSpace ∧ k.tag = true ∧ k.space ≠ 0 ∨
      c = .capPerm ∧ k.tag = true ∧ k.space = 0 ∧ k.has 2 = false ∨
      c = .align ∧ k.tag = true ∧ k.space = 0 ∧ k.has 2 = true ∧ k.cursor % 2 = 1 ∨
      c = .capBnd ∧ k.tag = true ∧ k.space = 0 ∧ k.has 2 = true ∧ k.cursor % 2 = 0 ∧ ¬ (k.base ≤ k.cursor ∧ k.cursor + 2 ≤ k.top)) →
    exec (.jk i) s = s.traps 4 c (BitVec.ofNat 64 k.cursor) ∧ exec (.callk i) s = s.traps 4 c (BitVec.ofNat 64 k.cursor))

/-- R125, R136, R137: guard branches and GWAIT go on a resolved guard's value, block on a pending guard, and raise ILLOP
on a clear one.

R136, R138: GSET and GSETN resolve a guard whose operands are present, and bind the commands that wait for it; with an operand that
is a clear named register they leave it pending, and never block. GCLR clears it.

R87, R136: an instruction that writes a named register captures the value into every operand of a pending guard that needs it,
MOV among them; so does an NWR where it is performed. GUARD_RESOLVE then resolves a guard that has both operands, and comes before
any issue. -/
def Obligations.Guards : Prop :=
  (∀ (s : State) (g : BitVec 4) (off : BitVec 18),
    (∀ v, (s.slot s.cur).guards.get Guard.clear g.toNat = .resolved v →
      exec (.bgs g off) s = (if v then s.transfers 4 off.toInt else .next (s.noteIssue.past 4)) ∧
      exec (.bgc g off) s = (if v then .next (s.noteIssue.past 4) else s.transfers 4 off.toInt) ∧
      exec (.gwait g) s = .next (s.noteIssue.past 4)) ∧
    (∀ n c p q, (s.slot s.cur).guards.get Guard.clear g.toNat = .pending n c p q →
      exec (.bgs g off) s = s.waits ∧ exec (.bgc g off) s = s.waits ∧ exec (.gwait g) s = s.waits) ∧
    ((s.slot s.cur).guards.get Guard.clear g.toNat = .clear →
      exec (.bgs g off) s = s.traps 4 .illop (wordVal (encode (.bgs g off))) ∧
      exec (.bgc g off) s = s.traps 4 .illop (wordVal (encode (.bgc g off))) ∧
      exec (.gwait g) s = s.traps 4 .illop (wordVal (encode (.gwait g))))) ∧
  (∀ (s : State) (cc : BitVec 3) (g : BitVec 4) (a b : Src),
    let sets := fun (v : Guard) => Host.Outcome.next (s.done 4 fun z => { z with guards := z.guards.set Guard.clear g.toNat v })
    let waiting := fun (c : Card) => c.awaits (s.slot s.cur).tid g.toNat
    (∀ x y, s.reads a = some x → s.reads b = some y → (∀ c ∈ s.cards, waiting c = false) →
      exec (.gset cc g a b) s = sets (.resolved (condHolds cc x y)) ∧
      exec (.gsetn cc g a b) s = sets (.resolved (!condHolds cc x y))) ∧
    (∀ x y neg v i, s.reads a = some x → s.reads b = some y →
      (neg = false ∧ i = .gset cc g a b ∨ neg = true ∧ i = .gsetn cc g a b) → v = (condHolds cc x y != neg) →
      ∃ t, exec i s = .next t ∧ (t.slot s.cur).guards.get Guard.clear g.toNat = .resolved v ∧
        ∀ e ∈ s.engines, ∀ q ∈ e.2.queues, ∀ c ∈ q.2, waiting c = true →
          ∃ e' ∈ t.engines, ∃ q' ∈ e'.2.queues, { c with bound := some v } ∈ q'.2) ∧
    (∀ neg i p q, (neg = false ∧ i = .gset cc g a b ∨ neg = true ∧ i = .gsetn cc g a b) →
      ((∃ n, a = .nam n ∧ s.reads a = none ∧ p = .need n.toNat) ∨ (∃ x, s.reads a = some x ∧ p = .have x)) →
      ((∃ n, b = .nam n ∧ s.reads b = none ∧ q = .need n.toNat) ∨ (∃ y, s.reads b = some y ∧ q = .have y)) →
      (s.reads a = none ∨ s.reads b = none) → exec i s = sets (.pending neg cc p q)) ∧
    exec (.gclr g) s = sets .clear) ∧
  (∀ (s : State) (g i : Nat) (neg : Bool) (cc : BitVec 3) (n : BitVec 4) (p q : GuardOp) (v y : U64),
    let taken := fun (o : GuardOp) => if o = .need n.toNat then GuardOp.have v else o
    ((s.slot s.cur).guards.get Guard.clear i = .pending neg cc p q → ∀ j len, exec j s = s.gives len (.nam n) v →
      ∃ t, exec j s = .next t ∧ (t.slot s.cur).guards.get Guard.clear i = .pending neg cc (taken p) (taken q)) ∧
    ((s.slot s.cur).guards.get Guard.clear i = .pending neg cc p q → ∀ a, s.reads a = some v →
      ∃ t, exec (.mov (.nam n) a) s = .next t ∧ (t.slot s.cur).guards.get Guard.clear i = .pending neg cc (taken p) (taken q)) ∧
    ((s.slot g).guards.get Guard.clear i = .pending neg cc p q → ∀ r rest, s.nwrs = r :: rest → r.dst = g → r.n = n.toNat → r.v = v →
      r.src ≠ g → r.tid.isSome = true → s.nwrAlive r = true → (s.slot g).live = true → (s.slot g).present r.n = false →
      slotNo g = 11 ∨ s.threadFree (coreOf r.src) (coreOf g) false = true →
      ∃ t, exec (.nwrHeldWrite g r.n) s = .next t ∧ (t.slot g).guards.get Guard.clear i = .pending neg cc (taken p) (taken q)) ∧
    ((s.slot g).guards.get Guard.clear i = .pending neg cc (.have v) (.have y) → i < 16 →
      (∃ t, exec (.guardResolve g i) s = .next t ∧ (t.slot g).guards.get Guard.clear i = .resolved (condHolds cc v y != neg) ∧
        ((∀ e ∈ s.engines, e.2.queues = [] ∧ e.2.running = []) → t.mem = s.mem ∧ t.engines = s.engines)) ∧
      ∀ u, ¬ s.issuesAs u))

/-- R129: a loop instruction opens a level with its body and count, or continues past the body for a count of 0; at three open
levels it raises LOOPDEEP; LOOPM consumes its mailbox, and waits while it is empty. That a count of 0 makes no end test is log
50's reading.

R130: the end of an instruction at the innermost visible level's end: an iteration is counted, and the body starts
again, or the level closes and the test repeats outwards.

R45, R131: LEXIT closes the innermost visible level and continues past its body; without one it raises ILLOP.

R140: REALIGN holds its slot for 64 cycles when no slot of the cluster is held at the same tag and address; otherwise
it completes, and so does every slot that it meets. A hold ends after its time, and nothing issues before it has ended. -/
def Obligations.LoopsAndRealign : Prop :=
  (∀ (s t : State) (a : Src) (i : BitVec 3) (cnt : BitVec 10) (off : BitVec 18) (o : BitVec 14) (n : U64) (h : Nat) (x : Slot),
    s.slot s.cur = x → s.reads a = some n → t.cur = s.cur →
    let past := fun (off : Nat) => x.pc + 2 * off + lengthOf h
    let opens := fun (t : State) (off : Nat) (n : U64) =>
      if n = 0#64 then t.modSlot s.cur fun y => y.goto (past off)
      else (t.modSlot s.cur fun y =>
        { y with loops := y.loops ++ [{ start := x.pc + 4, last := x.pc + 2 * off, past := past off, count := n }] }).modSlot s.cur
          fun y => y.goto (x.pc + 4)
    (x.loops.length < 3 → fetch (x.pc + 2 * off.toNat) 2 s.noteIssue = .ok (h, t) → t.slot s.cur = s.noteIssue.slot s.cur →
      exec (.loop a off) s = .next (opens t off.toNat n) ∧
      ((t.core (coreOf s.cur)).mbxp.getLsbD i.toNat = true →
        exec (.loopm i off) s = .next (opens (t.modCore (coreOf s.cur) fun c =>
          { c with mbxp := c.mbxp &&& ~~~BitVec.ofNat 8 (2 ^ i.toNat) }) off.toNat ((t.core (coreOf s.cur)).mbx.get 0#64 i.toNat))) ∧
      ((t.core (coreOf s.cur)).mbxp.getLsbD i.toNat = false → exec (.loopm i off) s = s.waits)) ∧
    (x.loops.length < 3 → fetch (x.pc + 2 * o.toNat) 2 s.noteIssue = .ok (h, t) → t.slot s.cur = s.noteIssue.slot s.cur →
      exec (.loopi cnt o) s = .next (opens t o.toNat (cnt.setWidth 64))) ∧
    (3 ≤ x.loops.length →
      exec (.loop a off) s = s.traps 4 .loopDeep (wordVal (encode (.loop a off))) ∧
      exec (.loopm i off) s = s.traps 4 .loopDeep (wordVal (encode (.loopm i off))) ∧
      exec (.loopi cnt o) s = s.traps 4 .loopDeep (wordVal (encode (.loopi cnt o))))) ∧
  (∀ (x : Slot) (len : Nat) (ls : List LoopLevel) (l : LoopLevel), x.loops = ls ++ [l] → x.hidden ≤ ls.length → 0 < len →
    (¬ (x.pc ≤ l.last ∧ l.last < x.pc + len) → x.advance len = { x with pcc := x.pcc.withCursor (x.pc + len) }) ∧
    (x.pc ≤ l.last → l.last < x.pc + len → l.count - 1#64 ≠ 0#64 → x.advance len =
      { x with loops := ls ++ [{ l with count := l.count - 1#64 }], pcc := x.pcc.withCursor l.start }) ∧
    (x.pc ≤ l.last → l.last < x.pc + len → l.count - 1#64 = 0#64 → x.advance len = { x with loops := ls }.advance len)) ∧
  (∀ (s : State) (x : Slot), s.slot s.cur = x →
    (∀ ls l, x.loops = ls ++ [l] → x.hidden ≤ ls.length → exec .lexit s = s.goes (fun y => { y with loops := ls }) l.past) ∧
    (x.loops.length ≤ x.hidden → exec .lexit s = s.traps 2 .illop (wordVal (encode .lexit)))) ∧
  (∀ (s : State) (tag : BitVec 10) (x : Slot), s.slot s.cur = x →
    let cl := clusterOf (coreOf s.cur)
    let met := fun (g : Nat) => g / 96 = cl ∧ (s.slot g).live = true ∧ (s.slot g).tenant = x.tenant ∧
      s.partOfSlot g = s.partOfSlot s.cur ∧ ∃ len till, s.now < till ∧ (s.slot g).wait = .realign tag.toNat x.pc len till
    ((∀ g, ¬ met g) →
      exec (.realign tag) s = .next (s.noteIssue.modSlot s.cur fun y => { y with wait := .realign tag.toNat x.pc 4 (s.now + 64) }) ∧
      exec (.realignC tag) s = .next (s.noteIssue.modSlot s.cur fun y => { y with wait := .realign tag.toNat x.pc 2 (s.now + 64) })) ∧
    (x.wait = Wait.none → (∃ g, met g) →
      (∃ t, exec (.realign tag) s = .next t ∧ t.slot s.cur = (s.noteIssue.slot s.cur).advance 4 ∧
        ∀ g, met g → t.slot g = { (s.slot g).advance (match (s.slot g).wait with | .realign _ _ len _ => len | _ => 0) with wait := Wait.none }) ∧
      ∃ t, exec (.realignC tag) s = .next t ∧ t.slot s.cur = (s.noteIssue.slot s.cur).advance 2 ∧
        ∀ g, met g → (t.slot g).wait = Wait.none) ∧
    ∀ g t va len till, (s.slot g).wait = .realign t va len till → till ≤ s.now →
      exec (.realignTimeout g) s = .next (s.modSlot g fun y => { y.advance len with wait := Wait.none }) ∧ ∀ u, ¬ s.issuesAs u)

/-! ## Loads, stores and atomics (R114, R145 to R161) -/

/-- R114: the checks of an access in their order, each with its trap and TVAL, before the place of the access is looked
for. -/
def Obligations.CheckOrder : Prop :=  ∀ (k : Cap) (v : Int) (n : Nat) (nd : Need) (bits : List Nat) (s : State),
    let fails := fun (c : Cause) (tv : U64) => place k v n nd bits s = .error (.trap c tv)
    let space := k.space ≤ 6 ∧ k.space ∈ nd.spaces
    let perm := ∀ i ∈ nd.perm, k.has i = true
    let bounds := (k.base : Int) ≤ v ∧ v + n ≤ k.top
    (k.tag = false → fails .capTag (BitVec.ofNat 64 k.cursor)) ∧
    (k.tag = true → ¬ space → (nd.xperm = false ∨ 6 < k.space) → fails .capSpace (BitVec.ofNat 64 k.cursor)) ∧
    (k.tag = true → ¬ space → nd.xperm = true → k.space ≤ 6 → fails .xperm (BitVec.ofInt 64 v)) ∧
    (k.tag = true → space → ¬ perm → fails .capPerm (BitVec.ofInt 64 v)) ∧
    (k.tag = true → space → perm → ¬ bounds → fails .capBnd (BitVec.ofInt 64 v)) ∧
    (k.tag = true → space → perm → bounds → v.toNat % nd.align ≠ 0 → fails .align (BitVec.ofInt 64 v)) ∧
    (k.tag = true → space → perm → bounds → v.toNat % nd.align = 0 →
      place k v n nd bits s = locate (s.who s.cur) k.space v.toNat n bits s)

/-- R115, R116, R145, R162, R168: where an access of each space but translated GLOBAL space stands, and XPERM, XLATE or MCHECK where it
cannot. The partition of a cluster's core 0 owns its enqueue windows (DEDUCED, log 12).

R153 to R155: a calm slot's load of memory or of a device register pushes the bytes there, extended as its type says;
type 7 outside GLOBAL space is a whole load; `.acq` empties the core's read cache afterwards.

R156: LD.rc of GLOBAL memory reads a cached line of its tenant and partition, and otherwise reads the line at its home and caches it. -/
def Obligations.PlacesAndLoads : Prop :=
  (∀ (s : State) (w : Who) (v n : Nat) (bits : List Nat),
    let at' := fun (space : Nat) (p : Place) => locate w space v n bits s = .ok (p, s)
    let fails := fun (space : Nat) (c : Cause) => locate w space v n bits s = .error (.trap c (BitVec.ofNat 64 v))
    let sw := (s.partReg w.part 0x808).toNat
    let vw := (s.partReg w.part 0x809).toNat
    let scratch := sw ≤ v ∧ v < sw + 640 * 2 ^ 18
    let vault := ¬ scratch ∧ vw ≤ v ∧ v < vw + 80 * 2 ^ 25
    (∀ a, s.vaultOk w.part a = true ↔ a < 80 * 2 ^ 25 ∧ s.ownsQuad w.part (a / 2 ^ 23) = true ∧ a % 2 ^ 23 + s.sliceSize w.part +
      (if a % 2 ^ 25 / 2 ^ 23 = s.topShare w.part (a / 2 ^ 25) then s.latentSize w.part else 0) < 2 ^ 23) ∧
    (s.vaultOk w.part v = true → at' 1 (.mem (2 ^ 60 + v) true none)) ∧
    (s.vaultOk w.part v = false → fails 1 .xperm) ∧
    (s.ownsCore w.part (v / 2 ^ 18) = true → at' 2 (.mem (2 ^ 61 + v) true none)) ∧
    (s.ownsCore w.part (v / 2 ^ 18) = false → fails 2 .xperm) ∧
    (v < 2 ^ s.partFld w.part 0x800 8 8 → at' 3 (.mem (2 ^ 62 + w.slot * 2 ^ 20 + v) true none)) ∧
    (2 ^ s.partFld w.part 0x800 8 8 ≤ v → fails 3 .xperm) ∧
    (s.hostDown ≠ 15#4 → at' 4 (.mem (2 ^ 63 + v) false none)) ∧
    (s.hostDown = 15#4 → fails 4 .mcheck) ∧
    (s.routeTo (dieOf w.core) (v / 2 ^ 43) ≠ 0#24 → at' 5 (.remote v)) ∧
    (s.routeTo (dieOf w.core) (v / 2 ^ 43) = 0#24 → fails 5 .xperm) ∧
    (scratch → s.ownsCore w.part ((v - sw) / 2 ^ 18) = true → at' 0 (.mem (2 ^ 61 + (v - sw)) true none)) ∧
    (scratch → s.ownsCore w.part ((v - sw) / 2 ^ 18) = false → fails 0 .xperm) ∧
    (vault → s.vaultOk w.part (v - vw) = true → at' 0 (.mem (2 ^ 60 + (v - vw)) true none)) ∧
    (vault → s.vaultOk w.part (v - vw) = false → fails 0 .xperm) ∧
    (∀ own fits : Bool,
      (v < 0x280000 ∧ v % 0x1000 < 0x48 ∧ own = s.ownsCore w.part (v / 0x1000) ∧ fits = decide (n = 8)) ∨
      (0x1000000 ≤ v ∧ v < 0x1050000 ∧ own = s.ownsCore w.part (8 * ((v - 0x1000000) / 0x1000)) ∧ fits = decide (n = 8 ∧ v % 0x100 < 0x20)) ∨
      (0x2000000 ≤ v ∧ v < 0x2080000 ∧ own = s.ownsLayer w.part ((v - 0x2000000) / 128) ∧ fits = decide (n = 8 ∨ n = 16)) ∨
      (0x2800000 ≤ v ∧ v < 0x2840000 ∧ own = s.ownsView w.part ((v - 0x2800000) / 0x1000) ∧ fits = decide (n = 8 ∨ n = 16)) →
      (own = true → fits = true → at' 6 (.device v)) ∧ (own = false ∨ fits = false → fails 6 .xperm)) ∧
    (v < 0x280000 ∧ 0x48 ≤ v % 0x1000 ∨ 0x280000 ≤ v ∧ v < 0x1000000 ∨ 0x1050000 ≤ v ∧ v < 0x2000000 ∨ 0x2080000 ≤ v ∧ v < 0x2800000 ∨
      0x2840000 ≤ v → fails 6 .xlate)) ∧
  (∀ (s t : State) (type k : BitVec 3) (d : Dst) (off : BitVec 13) (i : Src) (scale : BitVec 2) (y : U64) (p : Place) (m : Nat),
    s.calm → s.reads i = some y → s.near p.home →
    let n : Nat := if type.toNat < 2 then 1 else if type.toNat < 4 then 2 else if type.toNat < 6 then 4 else 8
    (∃ key c va, p = .mem key c va ∧ (type = 7#3 → va = none) ∧ m = ofBytes (s.bytes key n)) ∨
      (∃ o, p = .device o ∧ m = t.deviceRead o n) →
    let v := if type.toNat < 6 ∧ type.toNat % 2 = 0 then (BitVec.ofNat (8 * n) m).signExtend 64 else BitVec.ofNat 64 m
    (place (s.cap k) ((s.cap k).cursor + off.toInt * n) n { perm := [0], align := n } [1] s.noteIssue = .ok (p, t) →
      exec (.ld type d k off) s = .next ((t.modSlot s.cur fun x => x.result d v).past 4)) ∧
    (place (s.cap k) ((s.cap k).cursor + y.toInt * 2 ^ scale.toNat) n { perm := [0], align := n } [1] s.noteIssue = .ok (p, t) →
      exec (.ldx type false d k i scale) s = .next ((t.modSlot s.cur fun x => x.result d v).past 4) ∧
      exec (.ldx type true d k i scale) s = .next
        (((t.modSlot s.cur fun x => x.result d v).modCore (coreOf s.cur) fun c => { c with rcache := [] }).past 4))) ∧
  (∀ (s t : State) (k : BitVec 3) (d : Dst) (off : BitVec 13) (key va : Nat) (c : Bool), s.calm → s.near (homeOf key) →
    place (s.cap k) ((s.cap k).cursor + off.toInt * 8) 8 { perm := [0], align := 8 } [1] s.noteIssue = .ok (.mem key c (some va), t) →
    let mine := fun (l : RcLine) => l.part == s.partOfSlot s.cur && l.tenant == (s.slot s.cur).tenant && l.line == va / 64
    (∀ l, (s.core (coreOf s.cur)).rcache.find? mine = some l →
      exec (.ld 7#3 d k off) s = .next ((t.modSlot s.cur fun x => x.result d (BitVec.ofNat 64 (leAt l.bytes (va % 64) 8))).past 4)) ∧
    ((s.core (coreOf s.cur)).rcache.find? mine = none → (s.core (coreOf s.cur)).rcache.length < 512 →
      exec (.ld 7#3 d k off) s = .next (((t.modCore (coreOf s.cur) fun x =>
          { x with rcache := x.rcache ++
              [{ part := s.partOfSlot s.cur, tenant := (s.slot s.cur).tenant, line := va / 64, bytes := s.bytes (key / 64 * 64) 64 }] }).modSlot s.cur
        fun x => x.result d (BitVec.ofNat 64 (leAt (s.bytes (key / 64 * 64) 64) (va % 64) 8))).past 4)))

/-- R147, R149, R154, R155: a calm slot's store to memory leaves for its home with exactly its bytes at the place found;
memory does not change at its issue. `.rel` first gathers the holds of FENCE.rel, of which a calm slot has none.

R134, R162, R190: a store of 8 bytes to a mailbox or an enqueue window leaves for it with its value; a layer or a view, which
takes no store, raises XPERM.

R147: while 16 stores of the slot are outstanding, a store does not issue.

R148, R152: a fault of an access's checks or of its translation is the instruction's own trap. -/
def Obligations.Stores : Prop :=
  (∀ (s t : State) (size : BitVec 2) (rel : Bool) (k : BitVec 3) (off : BitVec 13) (i a : Src) (scale : BitVec 2) (x y : U64)
    (key : Nat) (c : Bool) (va : Option Nat), s.calm → s.reads a = some x → s.reads i = some y →
    let n := 2 ^ size.toNat
    let u := if rel then s.noteIssue.modSlot s.cur fun z => { z with relHold := [] } else s.noteIssue
    let stored := Host.Outcome.next ((t.sent .store (homeOf key) (writesAt key (toBytes n x.toNat)) none va false).past 4)
    (place (s.cap k) ((s.cap k).cursor + off.toInt * n) n { perm := [1], align := n } [2] u = .ok (.mem key c va, t) →
      exec (.st size rel k off a) s = stored ∧ t.mem = s.mem) ∧
    (place (s.cap k) ((s.cap k).cursor + y.toInt * 2 ^ scale.toNat) n { perm := [1], align := n } [2] u = .ok (.mem key c va, t) →
      exec (.stx size rel k i scale a) s = stored ∧ t.mem = s.mem)) ∧
  (∀ (s t : State) (k : BitVec 3) (off : BitVec 13) (a : Src) (x : U64) (o : Nat), s.calm → s.reads a = some x →
    place (s.cap k) ((s.cap k).cursor + off.toInt * 8) 8 { perm := [1], align := 8 } [2] s.noteIssue = .ok (.device o, t) →
    (∀ core i, devRegion o = some (.mbx core i) →
      exec (.st 3#2 false k off a) s = .next ((t.sent (.mailbox core i x) (4000 + core) [] none none false).past 4)) ∧
    (∀ cl ten f, devRegion o = some (.window cl ten f) →
      exec (.st 3#2 false k off a) s = .next ((t.sent (.window cl ten f x) (5000 + cl) [] none none false).past 4)) ∧
    ((∃ i f, devRegion o = some (.layer i f) ∨ devRegion o = some (.view i f)) →
      exec (.st 3#2 false k off a) s = s.traps 4 .xperm (BitVec.ofInt 64 ((s.cap k).cursor + off.toInt * 8)))) ∧
  (∀ (s t : State) (size : BitVec 2) (k : BitVec 3) (off : BitVec 13) (a : Src) (x : U64) (p : Place), s.reads a = some x →
    (s.slot s.cur).tile? = none → 16 ≤ s.outstanding s.cur →
    place (s.cap k) ((s.cap k).cursor + off.toInt * 2 ^ size.toNat) (2 ^ size.toNat) { perm := [1], align := 2 ^ size.toNat } [2]
      s.noteIssue = .ok (p, t) →
    exec (.st size false k off a) s = s.waits) ∧
  (∀ (s : State) (size : BitVec 2) (k kd : BitVec 3) (d : Dst) (off : BitVec 13) (o : BitVec 15) (a : Src) (x : U64)
    (c : Cause) (tv : U64), s.reads a = some x → (s.slot s.cur).tile? = none →
    (place (s.cap k) ((s.cap k).cursor + off.toInt * 8) 8 { perm := [0], align := 8 } [1] s.noteIssue = .error (.trap c tv) →
      exec (.ld 6#3 d k off) s = s.traps 4 c tv) ∧
    (place (s.cap k) ((s.cap k).cursor + off.toInt * 2 ^ size.toNat) (2 ^ size.toNat) { perm := [1], align := 2 ^ size.toNat } [2]
        s.noteIssue = .error (.trap c tv) →
      exec (.st size false k off a) s = s.traps 4 c tv) ∧
    (place (s.cap k) ((s.cap k).cursor + o.toInt * 16) 16 { perm := [0], align := 16 } [1] s.noteIssue = .error (.trap c tv) →
      exec (.ldc kd k o) s = s.traps 4 c tv) ∧
    (place (s.cap k) ((s.cap k).cursor + o.toInt * 16) 16 { perm := [1], align := 16 } [2] s.noteIssue = .error (.trap c tv) →
      exec (.stc k o kd) s = s.traps 4 c tv))

/-- R157: LDC of memory loads 16 bytes with the tag that the capability's LC and the page let survive; STC stores them with
the tag of its source, after the checks of a tagged source.

R158: each atomic of a calm slot on memory reads the old value M, performs its new value at once with the tag of its
granule cleared, and pushes M; ACAS writes only when the comparison holds. -/
def Obligations.CapabilityAccessesAndAtomics : Prop :=
  (∀ (s t : State) (k kd : BitVec 3) (o : BitVec 15) (key : Nat) (pc : Bool) (va : Option Nat) (c x : Cap) (v : Int), s.calm →
    s.near (homeOf key) → s.cap k = c → s.cap kd = x → v = c.cursor + o.toInt * 16 →
    (place c v 16 { perm := [0], align := 16 } [1] s.noteIssue = .ok (.mem key pc va, t) → key < 2 ^ 63 →
      exec (.ldc kd k o) s = .next ((t.modSlot s.cur fun y =>
        { y with k := y.k.set Cap.null kd.toNat
                   { tag := s.tags.get false (key / 16) && c.has 3 && pc, bits := BitVec.ofNat 128 (ofBytes (s.bytes key 16)) } }).past 4)) ∧
    (place c v 16 { perm := [1], align := 16 } [2] s.noteIssue = .ok (.mem key pc va, t) →
      (x.tag = false ∨ c.has 4 = true ∧ c.space ≤ 3 ∧ (x.has 6 = true ∨ c.space = 3) ∧ pc = true →
        exec (.stc k o kd) s = .next ((t.sent .store (homeOf key) (writesAt key (toBytes 16 x.bits.toNat))
          (if x.tag then some key else none) va false).past 4)) ∧
      (x.tag = true → (c.has 4 = false ∨ 3 < c.space ∨ x.has 6 = false ∧ c.space ≠ 3) →
        exec (.stc k o kd) s = s.traps 4 .capPerm (BitVec.ofInt 64 v)) ∧
      (x.tag = true → c.has 4 = true → c.space ≤ 3 → (x.has 6 = true ∨ c.space = 3) → pc = false →
        exec (.stc k o kd) s = s.traps 4 .xperm (BitVec.ofInt 64 v)))) ∧
  (∀ (s t : State) (wide : Bool) (order : BitVec 2) (d : Dst) (k : BitVec 3) (off : BitVec 8) (key : Nat) (pc : Bool)
    (va : Option Nat), s.calm → s.near (homeOf key) →
    let n : Nat := if wide then 8 else 4
    place (s.cap k) ((s.cap k).cursor + off.toInt * n) n { spaces := [0, 1, 2, 3, 5], xperm := true, perm := [0, 1, 5], align := n }
      [1, 2, 4] s.noteIssue = .ok (.mem key pc va, t) →
    let v := ((s.slot s.cur).rq.getD 0 0#64).toNat % 2 ^ (8 * n)
    let c := ((s.slot s.cur).rq.getD 1 0#64).toNat % 2 ^ (8 * n)
    let m := ofBytes (s.bytes key n)
    let int := fun (a : Nat) => (BitVec.ofNat (8 * n) a).toInt
    let u := if order.getLsbD 1 then t.modSlot s.cur fun x => { x with relHold := [] } else t
    let ends := fun (w : State) (fl : Flags) =>
      let r := (w.modSlot s.cur fun x => { x with fflags := x.fflags ||| fl }).modSlot s.cur fun x =>
        x.result d (if wide then BitVec.ofNat 64 m else (BitVec.ofNat 32 m).signExtend 64)
      Host.Outcome.next ((if order.getLsbD 0 then r.modCore (coreOf s.cur) fun y => { y with rcache := [] } else r).past 4)
    let put := fun (x : Nat) =>
      u.performWrites (s.partOfSlot s.cur) (s.slot s.cur).tenant va (writesAt key (toBytes n x)) none
    exec (.aadd wide order d k off) s = ends (put ((m + v) % 2 ^ (8 * n))) 0#6 ∧
    exec (.aand wide order d k off) s = ends (put (m &&& v)) 0#6 ∧
    exec (.aor wide order d k off) s = ends (put (m ||| v)) 0#6 ∧
    exec (.axor wide order d k off) s = ends (put (m ^^^ v)) 0#6 ∧
    exec (.amin wide order d k off) s = ends (put (if int m ≤ int v then m else v)) 0#6 ∧
    exec (.amax wide order d k off) s = ends (put (if int v ≤ int m then m else v)) 0#6 ∧
    exec (.aminu wide order d k off) s = ends (put (min m v)) 0#6 ∧
    exec (.amaxu wide order d k off) s = ends (put (max m v)) 0#6 ∧
    exec (.aswp wide order d k off) s = ends (put v) 0#6 ∧
    (m = c → exec (.acas wide order d k off) s = ends (put v) 0#6) ∧
    (m ≠ c → exec (.acas wide order d k off) s = ends (u.setTag key false) 0#6) ∧
    ∀ f r, f = (if wide then fp64 else fp32) → r = fpAdd f rneMode (Fp.ofBits f m) (Fp.ofBits f v) →
      exec (.afadd wide order d k off) s = ends (put r.bits) r.fl)

/-- R21, R113, R146, R149, R407: the home performs the oldest store of a slot to it, once it has crossed its links, no message of the
slot to that home comes first, the home is not held and the message thread that it may need is free: its bytes are written, the tags
of their granules cleared, every other byte and tag of memory is as before, the access is in flight no longer, and its response, or
the count of an RST, is on its way back.

R12, R134, R149, R180, R245, R250, R407: the home performs no access of a slot before an earlier one of the same slot to the same home
(but a store to a full mailbox takes its place there behind one that is held), none whose holds are still to be performed, none that is still on a link, none while it is held or before a message of the slot to it, and
none across a die boundary while the message thread of its core runs.

R245 to R248: FENCE.acq and EFENCE empty the read cache, FENCE.rel gathers the slot's accesses in scope as holds, RST and
messages to other packages apart, a full
FENCE of a calm slot acts as FENCE.acq, and IFENCE also empties the instruction buffer. -/
def Obligations.HomesAndFences : Prop :=
  (∀ (s : State) (a : Access) (rest : List Access), s.flight = a :: rest → a.kind = .store → a.holds = [] → a.va = none →
    s.absent = [] → (∀ b ∈ rest, b.id ≠ a.id ∧ ¬ (b.slot = a.slot ∧ b.home = a.home ∧ b.id < a.id)) →
    s.crossing a.id = false → s.messageTo a.slot a.home a.id = false → s.homeHeld a.home = false →
    s.threadFree a.origin a.home a.rst = true → (∀ w ∈ a.writes, s.hostGone w.1 = false) → (s.slot a.slot).wait = Wait.none →
    ∃ t, exec (.homeAccess a.id) s = .next t ∧ t.flight = rest ∧
      (∀ key, (∀ w ∈ a.writes, w.1 ≠ key) → t.byte key = s.byte key) ∧
      (∀ i, i < a.writes.length → (∀ j, i < j → j < a.writes.length → (a.writes.getD j (0, 0#8)).1 ≠ (a.writes.getD i (0, 0#8)).1) →
        t.byte (a.writes.getD i (0, 0#8)).1 = (a.writes.getD i (0, 0#8)).2) ∧
      (∀ g, (∀ w ∈ a.writes, w.1 / 16 ≠ g) → (∀ key, a.tagKey = some key → key / 16 ≠ g) → t.tags.get false g = s.tags.get false g) ∧
      (∀ w ∈ a.writes, (∀ key, a.tagKey = some key → key / 16 ≠ w.1 / 16) → t.tags.get false (w.1 / 16) = false) ∧
      (∀ key, a.tagKey = some key → t.tags.get false (key / 16) = true) ∧
      (a.slot < 7680 → s.pathFrom a.home a.origin ≠ [] → t.crossing s.fresh = true) ∧
      t.slots = s.slots ∧ t.quads = s.quads ∧ t.parts = s.parts) ∧
  (∀ (s : State) (b : Access), b ∈ s.flight → (∀ x ∈ s.flight, x.id = b.id → x = b) → s.cardOp? b.id = none →
    ((∃ a ∈ s.flight, a.slot = b.slot ∧ a.home = b.home ∧ a.id < b.id ∧ s.queuesBehind b a = false ∨ a.id ∈ b.holds) ∨ s.crossing b.id = true ∨
      s.messageTo b.slot b.home b.id = true ∨ s.homeHeld b.home = true ∨
      b.slot ≠ hardwareSlot ∧ b.home < 640 ∧ (dieOf b.home ≠ dieOf b.origin ∨ b.rst = true) ∧ (s.slot (12 * b.home + 11)).live = true) →
    exec (.homeAccess b.id) s = .fault (.notEnabled "HOME_ACCESS")) ∧
  (∀ (s : State) (sc : BitVec 3), 
    let acq := s.noteIssue.modCore (coreOf s.cur) fun c => { c with rcache := [] }
    exec (.fence 1#3 sc) s = .next (acq.past 4) ∧
    exec (.fence 2#3 sc) s = .next (s.done 4 fun x =>
      { x with relHold := x.relHold.filter s.pending ++
                 (((s.flight.filter fun a => a.slot == s.cur && !a.rst && inScope sc.toNat s.cur a.home).map Access.id).filter
                   fun i => !x.relHold.contains i) }) ∧
    (s.cardsOf s.cur = [] → exec .efence s = .next (acq.past 4)) ∧
    ((∃ c ∈ s.cardsOf s.cur, c.guard = none ∨ c.bound ≠ none) → exec .efence s = s.waits) ∧
    (s.calm → (∀ a ∈ s.flight, a.part = s.partOfSlot s.cur → a.old = false) →
      (∀ c ∈ s.cards, c.part = s.partOfSlot s.cur → ∀ o ∈ c.ops, o.old = false) →
      exec (.fence 0#3 sc) s = .next (acq.past 4) ∧
      exec .fenceCoreC s = .next (acq.past 2) ∧
      exec .ifence s = .next ((acq.modCore (coreOf s.cur) fun c => { c with ibuf := [] }).past 4)))

/-- R160, R161, R250: RST leaves for its home, of any space that it may name, and AMSG for the message thread of its target's
core or for the far package, both counted; RDRAIN completes once no count is out, and waits before. What AMSG checks of its
target and code is log 18's reading, what lies beyond the package log 6's.

R160, R161, R165, R166: the events of counts, messages and walks: a count whose response has arrived returns to its slot; a
message that its slot sent to that core before any other starts in an idle slot 11 with the state that R161 lists; one that has spent 65,536 issues raises AMSGTIME; a walk is in
flight from its start to its end, which fills the translation cache, and a miss of its page takes that end, a fault too. That the
start of a message empties the read cache is log 56's reading, that AMSGTIME comes once log 19's. -/
def Obligations.RemoteOperations : Prop :=
  (∀ (s t t1 : State) (size : BitVec 2) (ka kb : BitVec 3) (b : Src) (x : U64) (p : Place) (c k : Cap),
    s.calm → s.reads b = some x → s.cap ka = c → s.cap kb = k →
    t1 = ((t.liveNow (s.partOfSlot s.cur) (s.slot s.cur).tenant
      (if slotNo s.cur = 0 ∨ slotNo s.cur = 11 then 0#64 else (s.slot s.cur).group) 1 (coreOf s.cur)).modSlot s.cur
        fun y => { y with rsts := y.rsts + 1 }) → t1.calm →
    (place c c.cursor (2 ^ size.toNat) { spaces := [0, 1, 2, 3, 5, 6], perm := [1], align := 2 ^ size.toNat } [2] s.noteIssue = .ok (p, t) →
      (∀ key pc va, p = .mem key pc va →
        exec (.rst size ka b) s = .next ((t1.sent .store (homeOf key) (writesAt key (toBytes (2 ^ size.toNat) x.toNat)) none va true).past 4)) ∧
      (∀ cur, p = .remote cur → exec (.rst size ka b) s = .next ((t1.sent .remote (10000 + cur / 2 ^ 43) [] none none true).past 4)) ∧
      (∀ o core i, p = .device o → devRegion o = some (.mbx core i) → size = 3#2 →
        exec (.rst size ka b) s = .next ((t1.sent (.mailbox core i x) (4000 + core) [] none none true).past 4))) ∧
    (place c c.cursor 1 { spaces := [0, 1, 2, 5], perm := [1] } [] s.noteIssue = .ok (p, t) →
      k.tag = true → k.space = 0 → k.has 2 = true → k.cursor % 2 = 0 → k.base ≤ k.cursor → k.cursor + 2 ≤ k.top →
      (∀ key pc va, p = .mem key pc va →
        ∃ m : Amsg, exec (.amsg ka kb) s = .next ((State.sendMessage { t1 with fresh := t1.fresh + 1 } m).past 4) ∧
          m.id = t1.fresh ∧ m.core = messageCore (homeOf key) ∧ m.home = homeOf key ∧
          m.code = k ∧ m.target = c ∧ m.v0 = (s.slot s.cur).rq.getD 0 0#64 ∧ m.v1 = (s.slot s.cur).rq.getD 1 0#64 ∧
          m.slot = s.cur ∧ m.tenant = (s.slot s.cur).tenant ∧ m.part = s.partOfSlot s.cur ∧ m.holds = []) ∧
      (∀ cur, p = .remote cur → exec (.amsg ka kb) s = .next ((t1.sent .amsg (10000 + cur / 2 ^ 43) [] none none true).past 4))) ∧
    ((s.slot s.cur).rsts = 0 → (s.slot s.cur).tile? = none → exec .rdrain s = .next (s.noteIssue.past 4)) ∧
    ((s.slot s.cur).rsts ≠ 0 → (s.slot s.cur).tile? = none → exec .rdrain s = s.waits)) ∧
  (∀ (s : State) (core : Nat) (r : Return) (rest : List Return) (m : Amsg) (ms : List Amsg) (x : Slot), core < 640 →
    (s.returns = r :: rest → r.ref = none → s.crossing r.id = false → (∀ y ∈ s.slots, y.2.tid = r.tid → y.2.live = true → y = (r.slot, x)) →
      (r.slot, x) ∈ s.slots → x.tid = r.tid → x.live = true →
      exec (.rstReturn 0) s = .next (State.modSlot { s with returns := rest } r.slot fun y => { y with rsts := y.rsts - 1 })) ∧
    ((s.slot (12 * core + 11)).live = false → (s.core core).amsgs = m :: ms → m.holds = [] →
      (∀ k ∈ s.amsgs ++ m :: ms, k.slot = m.slot → k.core = core → m.id ≤ k.id) →
      ∃ t y, exec (.amsgRun core) s = .next t ∧ t.slot (12 * core + 11) = y ∧ y.live = true ∧ y.pcc = m.code ∧
        y.kreg 0 = m.target ∧ y.named 0 = m.v0 ∧ y.named 1 = m.v1 ∧ y.pres = 3#16 ∧ y.rq = List.replicate 16 0#64 ∧
        y.tenant = m.tenant ∧ y.msgPart = some m.part ∧ (t.core core).amsgs = ms) ∧
    (s.slot (12 * core + 11) = x → x.live = true → x.msgIssues = 65536 → x.handles .amsgTime = true →
      ∃ t, exec (.amsgTimeout core) s = .next t ∧ (t.slot (12 * core + 11)).tcause = 0x58#8 ∧
        (t.slot (12 * core + 11)).pc = x.tbase.toNat * 2 ^ 13 + 64 * 0x58) ∧
    ∀ tenant va p, tenant < 16 → va < 2 ^ 52 → s.partOf core = p →
      (s.inFlight (dieOf core) p tenant va = none → (∀ e ∈ (s.core core).tlb, e.hit p tenant va = false) →
        (s.pageWalks.filter fun w => w.die == dieOf core).length < 64 →
        exec (.pageWalk core tenant va) s = .next { s with pageWalks := s.pageWalks ++
          [{ die := dieOf core, part := p, tenant := tenant, page := va / 2 ^ 16, core := core, found := (s.walk p tenant va).found }] }) ∧
      (∀ w, s.inFlight (dieOf core) p tenant va = some w →
        (∀ pte lvl, w.found = .leaf pte lvl → (s.core core).tlb.length < 256 →
          exec (.pageWalk core tenant va) s = .next (State.modCore { s with pageWalks := s.pageWalks.erase w } core fun c =>
            { c with tlb := c.tlb ++ [{ part := p, tenant := tenant, lvl := lvl, page := va / leafSize lvl, pte := pte }] })) ∧
        (w.found = .fault →
          exec (.pageWalk core tenant va) s = .next { s with pageWalks := s.pageWalks.erase w } ∧
          ((∀ e ∈ (s.core core).tlb, e.hit p tenant va = false) → s.translate (some core) p tenant va = (.fault, s)))))

/-! ## Traps, pre-emption and system instructions (R200 to R223) -/

/-- R203, R204: a trap that the slot handles saves cause, pc, value, length and hidden levels, hides the open levels, and
goes to the handler of its cause; a BUDGET entry leaves 256 issues.

R205, R424: an unhandled trap of slot 0 writes the trap registers, halts the slot and files an error record, in the 32 bytes
of R424, with the trap's cause and value. That ADDR of the record is the trap's value is log 58's reading. -/
def Obligations.TrapEntry : Prop :=
  (∀ (s : State) (g len : Nat) (c : Cause) (v : U64) (x : Slot), s.slot g = x →
    let h := x.tbase.toNat * 2 ^ 13 + 64 * c.code
    c ≠ .mcheck → x.ten = true → x.inTrap = false → (c = .budget → x.grace = false) → x.pcc.base ≤ h → h + 2 ≤ x.pcc.top →
    ∃ y, s.takeTrap g c v len = some (s.setSlot g y) ∧
      y.tcause.toNat = c.code ∧ y.tpc.toNat = x.pc ∧ y.tval = v ∧ y.ilen = BitVec.ofNat 4 len ∧ y.thidden = BitVec.ofNat 2 x.hidden ∧
      y.pc = h ∧ y.inTrap = true ∧ y.hidden = x.loops.length ∧ y.loops = x.loops ∧
      y.issues = (if c = .budget then 256#32 else x.issues) ∧ y.grace = (x.grace || decide (c = .budget)) ∧
      y.rq = x.rq ∧ y.n = x.n ∧ y.pres = x.pres ∧ y.k = x.k ∧ y.x = x.x ∧ y.fflags = x.fflags ∧ y.user = x.user) ∧
  (∀ (s : State) (c : Cause) (v : U64) (len : Nat) (d : Nat), s.calm → slotNo s.cur = 0 → (s.slot s.cur).handles c = false →
    dieOf (coreOf s.cur) = d →
    ∃ t, s.takeTrap s.cur c v len = some t ∧ (t.slot s.cur).halted = true ∧ (t.slot s.cur).live = false ∧
      (t.slot s.cur).tcause.toNat = c.code ∧ (t.slot s.cur).tval = v ∧ (t.slot s.cur).tpc.toNat = (s.slot s.cur).pc ∧
      (t.slot s.cur).inTrap = (s.slot s.cur).inTrap ∧ (∀ h, h ≠ s.cur → t.slot h = s.slot h) ∧ t.mem = s.mem ∧
      ((s.errRing.get [] d).length < s.errCap →
        t.errRing.get [] d = s.errRing.get [] d ++
          [toBytes 8 v.toNat ++ toBytes 8 (s.cycle d).toNat ++ toBytes 2 (s.cur % 2 ^ 13) ++ toBytes 1 c.code ++ toBytes 1 0 ++
            toBytes 1 (s.partOfSlot s.cur % 4 + (s.slot s.cur).tenant % 16 * 16) ++ toBytes 1 0 ++ List.replicate 10 0#8]) ∧
      (s.errCap ≤ (s.errRing.get [] d).length → t.errRing = s.errRing ∧ t.errLost.get 0 d = s.errLost.get 0 d + 1))

/-- R208: TRAP takes the trap TRAPI with its operand as TVAL, and BRK the trap BRK. -/
def Obligations.TrapInstructions : Prop :=  ∀ (s : State) (a : Src) (v : U64), s.reads a = some v →
    exec (.trap a) s = s.traps 4 .trapi v ∧ exec .brk s = s.traps 4 .brk 0#64 ∧
    ((s.slot s.cur).handles .trapi = true →
      exec (.trap a) s = .next (s.noteIssue.modSlot s.cur fun x => x.enter .trapi v 4)) ∧
    ((s.slot s.cur).handles .brk = true →
      exec .brk s = .next (s.noteIssue.modSlot s.cur fun x => x.enter .brk 0#64 4))

/-- R206: RTE in a handler returns to TPC with the hidden levels of the entry, and drops the handler's own levels; a bad
TPC raises ALIGN or CAPBND, and RTE outside a handler ILLOP.

R209, R210, R211, R215: SVC holds its slot with its request, which carries PARTID and TASKREC; WFI pushes the mailboxes present, and waits for one;
HALT stops slot 0, or raises an MCHECK that its last accesses have brought (R148); CHKPT stops a slot with a pending pre-emption and otherwise does nothing. -/
def Obligations.ReturnAndSystemInstructions : Prop :=
  (∀ (s : State) (x : Slot), s.slot s.cur = x →
    (x.inTrap = false → exec .rte s = s.traps 4 .illop (wordVal (encode .rte))) ∧
    (x.inTrap = true → x.tpc.toNat % 2 = 1 → exec .rte s = s.traps 4 .align (x.tpc.setWidth 64)) ∧
    (x.inTrap = true → x.tpc.toNat % 2 = 0 → ¬ (x.pcc.base ≤ x.tpc.toNat ∧ x.tpc.toNat + 2 ≤ x.pcc.top) →
      exec .rte s = s.traps 4 .capBnd (x.tpc.setWidth 64)) ∧
    (x.inTrap = true → x.tpc.toNat % 2 = 0 → x.pcc.base ≤ x.tpc.toNat → x.tpc.toNat + 2 ≤ x.pcc.top →
      exec .rte s = s.goes (fun y => { y with loops := y.loops.take y.hidden, hidden := y.thidden.toNat, inTrap := false }) x.tpc.toNat)) ∧
  (∀ (s : State) (d : Dst) (a b : Src) (idx : BitVec 10) (x y : U64), s.reads a = some x → s.reads b = some y →
    (slotNo s.cur ≠ 11 → exec (.svc d a b) s = .next (State.modSlot { s.noteIssue with fresh := s.fresh + 1 } s.cur fun z =>
      { z with wait := Wait.svc, svc := some { no := s.fresh, gslot := s.cur, taskRec := (s.slot s.cur).taskRec, a := x, b := y, d := d
                                               partid := BitVec.ofNat 64 (s.partOfSlot s.cur + 4 * s.classOf s.cur + 16 * (s.slot s.cur).tenant)
                                               answer := none } })) ∧
    (slotNo s.cur ≠ 11 → (x.extractLsb' 0 8 = 0#8 ∨ (s.core (coreOf s.cur)).mbxp &&& x.extractLsb' 0 8 ≠ 0#8) →
      exec (.wfi d a) s = s.gives 4 d (((s.core (coreOf s.cur)).mbxp &&& x.extractLsb' 0 8).setWidth 64)) ∧
    (slotNo s.cur ≠ 11 → x.extractLsb' 0 8 ≠ 0#8 → (s.core (coreOf s.cur)).mbxp &&& x.extractLsb' 0 8 = 0#8 →
      exec (.wfi d a) s = s.waits) ∧
    (slotNo s.cur = 11 → exec (.svc d a b) s = s.traps 4 .illop (wordVal (encode (.svc d a b))) ∧
      exec (.wfi d a) s = s.traps 4 .illop (wordVal (encode (.wfi d a)))) ∧
    (slotNo s.cur = 0 → s.calm → (s.slot s.cur).mcheck = none → (s.quad (quadOf (coreOf s.cur))).parting = none →
      exec .halt s = .next (s.noteIssue.modSlot s.cur fun z => { z with live := false, halted := true })) ∧
    (∀ v, slotNo s.cur = 0 → s.calm → (s.slot s.cur).mcheck = some v → exec .halt s = s.traps 4 .mcheck v) ∧
    (slotNo s.cur ≠ 0 → exec .halt s = s.traps 4 .illop (wordVal (encode .halt))) ∧
    (s.mayStop s.cur = false → exec (.chkpt idx) s = .next (s.noteIssue.past 4) ∧ exec (.chkptC idx) s = .next (s.noteIssue.past 2)) ∧
    (s.mayStop s.cur = true →
      exec (.chkpt idx) s = .next (s.done 4 fun z => { z with stopped := some (some idx.toNat) }) ∧
      exec (.chkptC idx) s = .next (s.done 2 fun z => { z with stopped := some (some idx.toNat) })))

/-- R209, R217, R220: the events of firmware and the spill engine: an answer goes to the oldest unanswered request of its GSLOT (the
order among several is the model's choice, log 76): it completes the SVC of a slot that waits, and stays with a saved slot until that
resumes. A request for a running slot is noted and stops it after 65,536 cycles, before any other issue; an absent granule comes back
with its bytes.

R214, R217, R218: SPILL_SAVE of a stopped helper with nothing in flight saves every register of the slot in a continuation in
its core's local queue, and leaves the slot idle. That the save and the requeue are one step is log 35's.

R222, R223, R248: TINV outside user mode drops the tenant's translations of the page, or all of them, on every core of the
partition, with its read caches and the tenant's blocks in instruction buffers, begins its walks again that read the page or found a
leaf that holds it, and marks the accesses in flight, of engine cards too, that used a dropped translation. -/
def Obligations.FirmwareAndSaves : Prop :=
  (∀ (s : State) (g : Nat) (x : Slot) (r : SvcReq) (v : U64) (gr : Granule) (c : Nat), s.slot g = x →
    (∀ h, (r, some h) ∈ s.requests g → (∀ y ∈ s.requests g, y ≠ (r, some h) → r.no < y.1.no) →
      exec (.svcAnswer g v) s = .next ((s.modSlot h fun y => { (y.result r.d v).advance 4 with wait := Wait.none }).modSlot h
        fun y => { y with svc := none })) ∧
    ((r, none) ∈ s.requests g → (∀ y ∈ s.requests g, y ≠ (r, none) → r.no < y.1.no) →
      ∃ t, exec (.svcAnswer g v) s = .next t ∧ t.mem = s.mem ∧ t.slots = s.slots ∧
        ∀ sv ∈ s.savedSlots, sv.slot.svc = some r →
          { sv with slot := { sv.slot with svc := some { r with answer := some v } } } ∈ t.savedSlots) ∧
    (x.live = true → slotNo g ≠ 11 → x.preempt = none →
      exec (.preemptRequest g) s = .next (s.modSlot g fun y => { y with preempt := some s.now })) ∧
    (x.preempt = some c → c + 65536 ≤ s.now → slotNo g ≠ 11 → x.admitted = false → x.wait = Wait.none → x.stopped = none →
      x.firm = false → exec (.preemptTimeout g) s = .next (s.modSlot g fun y => { y with stopped := some none }) ∧
      ∀ u, ¬ s.issuesAs u) ∧
    (s.absent = [gr] → gr.bytes.length = 64 → s.fillHeld gr = false →
      ∃ t, exec (.granuleFill 0) s = .next t ∧ t.absent = [] ∧ (∀ i, i < 64 → t.byte (gr.key + i) = gr.bytes.getD i 0#8) ∧
        (∀ key, (key < gr.key ∨ gr.key + 64 ≤ key) → t.byte key = s.byte key)) ∧
    (s.absent = [gr] → s.fillHeld gr = true → exec (.granuleFill 0) s = .fault (.notEnabled "GRANULE_FILL"))) ∧
  (∀ (s : State) (g : Nat) (x : Slot), s.slot g = x → slotNo g ≠ 0 → x.live = true → x.wait = Wait.none → x.stopped = some none →
    x.borrow = none → s.flight = [] → s.engines = [] → s.absent = [] → (s.core (coreOf g)).localQ = [] →
    ∃ t e sv, exec (.spillSave g) s = .next t ∧ (t.core (coreOf g)).localQ = [e] ∧ e.cont = some sv ∧ sv.full = true ∧
      sv.core = some (coreOf g) ∧ sv.slot = { x with preempt := none, stopped := none, blocked := false, seen := [] } ∧
      t.slot g = { rngLo := x.rngLo, rngHi := x.rngHi, tenant := x.tenant, lastIssue := x.lastIssue } ∧
      (∀ h, h ≠ g → t.slot h = s.slot h) ∧ t.mem = s.mem) ∧
  (∀ (s : State) (all : Bool) (a b : Src) (va t : U64) (p : Nat), s.calm → s.reads a = some va → s.reads b = some t →
    (s.slot s.cur).user = false → t.toNat < 16 → s.partOfSlot s.cur = p →
    ∃ u, exec (.tinv all a b) s = .next u ∧ u.mem = s.mem ∧ u.slot s.cur =
        { s.noteIssue.slot s.cur with relHold := [] }.advance 4 ∧
      (∀ c, s.ownsCore p c = true → (u.core c).rcache = [] ∧
        (∀ e ∈ (u.core c).tlb, ¬ (e.part = p ∧ e.tenant = t.toNat ∧ (all = true ∨ e.page = va.toNat / leafSize e.lvl))) ∧
        ∀ e ∈ (u.core c).ibuf, ¬ (e.part = p ∧ e.tenant = t.toNat)) ∧
      (∀ w ∈ s.pageWalks, w.part = p → w.tenant = t.toNat →
        (all = true ∨ w.page = va.toNat / 2 ^ 16 ∨ w.found.covers (w.page * 2 ^ 16) va.toNat = true) →
        { w with found := (s.walk p t.toNat (w.page * 2 ^ 16)).found } ∈ u.pageWalks) ∧
      (∀ x ∈ s.flight, x.part = p → x.tenant = t.toNat → (∃ v, x.va = some v ∧ (all = true ∨ v / 2 ^ 16 = va.toNat / 2 ^ 16)) →
        { x with old := true } ∈ u.flight) ∧
      ∀ e ∈ s.engines, ∀ y ∈ e.2.running, y.part = p → y.tenant = t.toNat → ∀ o ∈ y.ops,
        (∃ key pc v, o.place = some (.mem key pc (some v)) ∧ (all = true ∨ v / leafSize o.lvl = va.toNat / leafSize o.lvl)) →
        ∃ e' ∈ u.engines, ∃ z ∈ e'.2.running, z.id = y.id ∧ { o with old := true } ∈ z.ops)

/-! ## Tasks (R169 to R193) -/

/-- R176: a queued entry stands in deadline order, behind those that have its deadline and before every later one.

R176, R179, R180: queueing in a cluster whose queue has room keeps everything else as it is; while its hold register is
occupied the enqueuer waits.

R152, R170, R183, R240: SPAWN and WALK read their record in a step of their own. SPAWN of a record at a place it may use then pushes -1
for an ill-formed record, 0 for one whose join counter is not 0, and 1 for one that it queues; WALK first writes its hint into a
well-formed record, in a step of its own too; the group's LIVE rises by 1 for a well-formed record. -/
def Obligations.QueueingOfRecords : Prop :=
  (∀ (e : Entry) (q : List Entry), (q.Pairwise fun a b => a.job.deadline ≤ b.job.deadline) →
    ((insertEntry e q).Pairwise fun a b => a.job.deadline ≤ b.job.deadline) ∧
    ∃ l r, q = l ++ r ∧ insertEntry e q = l ++ e :: r ∧ (∀ a ∈ l, a.job.deadline ≤ e.job.deadline) ∧
      (∀ a ∈ r, e.job.deadline < a.job.deadline)) ∧
  (∀ (s : State) (cl : Nat) (e : Entry),
    ((s.cluster cl).hold ≠ none → s.enqueue cl e = none) ∧
    ((s.cluster cl).hold = none → (s.cluster cl).ring = [] → (s.cluster cl).ready.length < 256 →
      s.enqueue cl e = some (State.modCluster { s with fresh := s.fresh + 1 } cl fun c =>
        { c with ready := insertEntry { e with seq := s.fresh } c.ready }))) ∧
  (∀ (s t : State) (d : Dst) (ka : BitVec 3) (b : Src) (h : U64) (key : Nat) (keep : Bool) (va : Option Nat) (c : Cap) (o o1 : Seen) (r w : Rec),
    s.calm → s.cap ka = c → s.reads b = some h →
    let p := s.partOfSlot s.cur
    let ten := (s.slot s.cur).tenant
    let cl := clusterOf (coreOf s.cur)
    let hint := h.toNat % 2 ^ 32 ||| 2 ^ 16
    let n := s.noteIssue
    let pushes := fun (u : State) (v : U64) => Host.Outcome.next ((u.modSlot s.cur fun x => { x.result d v with seen := [] }).past 4)
    let live := fun (j : Rec) => n.liveNow p ten j.group 1 (coreOf s.cur)
    ((s.slot s.cur).saw 0 = none →
      place c c.cursor 64 { spaces := [0, 1, 2], perm := [0, 1, 5, 3], align := 64 } [1, 2, 4] n = .ok (.mem key keep va, t) →
      let read := s.keeps t 0 (s.object key keep va (s.globalAddr p c.space c.cursor) 64)
      exec (.spawn d ka) s = read ∧ exec (.walk d ka b) s = read) ∧
    ((s.slot s.cur).saw 0 = some o →
      r = recOf o.bytes (o.tags.getD 0 false) (o.tags.getD 1 false) o.loc.addr ten p →
      w = recOf (putLe o.bytes 52 4 hint) (o.tags.getD 0 false) (o.tags.getD 1 false) o.loc.addr ten p →
      let step := (s.slot s.cur).saw 1
      (s.recOk r [0, 1] = false → exec (.spawn d ka) s = pushes n (BitVec.allOnes 64)) ∧
      (s.recOk r [0, 1] = true → r.join ≠ 0#32 → exec (.spawn d ka) s = pushes (live r) 0#64) ∧
      (s.recOk r [0, 1] = true → r.join = 0#32 → r.hen = false → ∀ q, (live r).enqueue cl { job := r } = some q →
        exec (.spawn d ka) s = pushes q 1#64) ∧
      (s.recOk r [0, 1] = true → r.join = 0#32 → r.hen = true →
        exec (.spawn d ka) s = pushes { live r with walks := (live r).walks ++ [{ job := r, core := coreOf s.cur }] } 1#64) ∧
      (s.recOk w [0, 1] = false → exec (.walk d ka b) s = pushes n (BitVec.allOnes 64)) ∧
      (s.recOk w [0, 1] = true → step = none → exec (.walk d ka b) s = s.keeps
        (n.performWrites p ten o.loc.va (writesAt (o.loc.key + 52) (toBytes 4 hint)) none) 1 o) ∧
      (s.recOk w [0, 1] = true → step = some o1 → w.join ≠ 0#32 → exec (.walk d ka b) s = pushes (live w) 0#64) ∧
      (s.recOk w [0, 1] = true → step = some o1 → w.join = 0#32 → w.hen = true →
        exec (.walk d ka b) s = pushes { live w with walks := (live w).walks ++ [{ job := w, core := coreOf s.cur }] } 1#64)))

/-- R178, R183, R186, R240, R404: START, LAUNCH and LAUNCHI read their record in a step of their own. START in slot 0 then starts it on the
lowest free helper that takes its tenant's records, slot 10 left to waiting background work, or pushes -1; while the cluster's hold
register is occupied it waits (R180). LAUNCH queues a template for its count, and LAUNCHI for a count to be read later.

R183: JOIN pushes -1 at a counter of 0; otherwise it writes the counter lower by 1, pushes it, and releases the record
when it reaches 0. -/
def Obligations.StartLaunchJoin : Prop :=
  (∀ (s t : State) (d : Dst) (ka kb : BitVec 3) (b : Src) (m : U64) (key : Nat) (keep : Bool) (va : Option Nat) (c cc : Cap) (o : Seen) (r : Rec),
    s.calm → s.cap ka = c → s.cap kb = cc → s.reads b = some m →
    let p := s.partOfSlot s.cur
    let ten := (s.slot s.cur).tenant
    let core := coreOf s.cur
    let cl := clusterOf core
    let n := s.noteIssue
    let pushes := fun (u : State) (v : U64) => Host.Outcome.next ((u.modSlot s.cur fun x => { x.result d v with seen := [] }).past 4)
    let template := s.recOk r [0] = true ∧ r.join = 0#32 ∧ r.hen = false
    let mine := fun (i : Nat) => (s.slot (12 * core + i)).tenant = ten ∧
      ((s.core core).switchTo = none ∨ (s.core core).switchTo = some ten)
    let free := fun (i : Nat) => s.freeHelper (12 * core + i) = true ∧ mine i ∧
      ¬ (i = 10 ∧ r.deadline ≠ BitVec.allOnes 64 ∧ s.backgroundWaits cl = true)
    (slotNo s.cur ≠ 0 → exec (.start d ka) s = s.traps 4 .illop (wordVal (encode (.start d ka)))) ∧
    ((s.slot s.cur).saw 0 = none →
      place c c.cursor 64 { spaces := [0, 1, 2], perm := [0, 1, 5, 3], align := 64 } [1, 2, 4] n = .ok (.mem key keep va, t) →
      let ob := s.object key keep va (s.globalAddr p c.space c.cursor) 64
      (slotNo s.cur = 0 → exec (.start d ka) s = s.keeps t 0 ob) ∧ exec (.launch d ka b) s = s.keeps t 0 ob ∧
      ∀ pl u, place cc cc.cursor 8 { perm := [0], align := 8 } [1] t = .ok (pl, u) → exec (.launchi d ka kb) s = s.keeps u 0 ob) ∧
    ((s.slot s.cur).saw 0 = some o →
      r = recOf o.bytes (o.tags.getD 0 false) (o.tags.getD 1 false) o.loc.addr ten p →
      (slotNo s.cur = 0 → ∀ i, i < 11 → free i → (∀ j, j < i → ¬ free j) →
        (template → (s.cluster cl).hold ≠ none → exec (.start d ka) s = s.waits) ∧
        (template → (s.cluster cl).hold = none → exec (.start d ka) s =
          pushes ((n.liveNow p ten r.group 1 core).startRec (12 * core + i) r 0 1 id) (BitVec.ofNat 64 i)) ∧
        (¬ template → exec (.start d ka) s = pushes n (BitVec.allOnes 64))) ∧
      (slotNo s.cur = 0 → (∀ j, j < 11 → ¬ free j) → exec (.start d ka) s = pushes n (BitVec.allOnes 64)) ∧
      (¬ template ∨ 2 ^ 32 ≤ m.toNat → exec (.launch d ka b) s = pushes n (BitVec.allOnes 64)) ∧
      (template → m = 0#64 → exec (.launch d ka b) s = pushes n 0#64) ∧
      (template → m ≠ 0#64 → m.toNat < 2 ^ 32 → ∀ q,
        (n.liveNow p ten r.group m.toNat core).enqueue cl { job := r, count := m.toNat, gcount := m.toNat } = some q →
        exec (.launch d ka b) s = pushes q m) ∧
      (¬ template → exec (.launchi d ka kb) s = pushes n (BitVec.allOnes 64)) ∧
      (template → ∀ q, (n.liveNow p ten r.group 1 core).enqueue cl
          { job := r, count := 0, gcount := 0, unread := some (cc.space, cc.cursor, s.cur) } = some q →
        exec (.launchi d ka kb) s = pushes q 0#64))) ∧
  (∀ (s t : State) (d : Dst) (ka : BitVec 3) (key j : Nat) (keep : Bool) (va : Option Nat) (c : Cap), s.calm → s.cap ka = c →
    place c c.cursor 64 { spaces := [0, 1, 2], perm := [0, 1, 5, 3], align := 64 } [1, 2, 4]
      (s.noteIssue.modSlot s.cur fun x => { x with relHold := [] }) = .ok (.mem key keep va, t) →
    j = leAt (s.bytes key 64) 32 4 →
    let p := s.partOfSlot s.cur
    let ten := (s.slot s.cur).tenant
    let u := (t.performWrites p ten va (writesAt (key + 32) (toBytes 4 (j - 1))) none).modSlot s.cur fun x =>
      x.result d (BitVec.ofNat 64 (j - 1))
    (j = 0 → exec (.join d ka) s = .next ((t.modSlot s.cur fun x => x.result d (BitVec.allOnes 64)).past 4)) ∧
    (2 ≤ j → exec (.join d ka) s = .next (u.past 4)) ∧
    (j = 1 → ∀ w r q, readRecord { key := key, keep := keep, va := va, addr := s.globalAddr p c.space c.cursor } u = .ok (r, w) →
      w.cur = s.cur → w.released r (coreOf s.cur) = some q → q.cur = s.cur → exec (.join d ka) s = .next (q.past 4)))

/-- R161, R184: DONE ends a task whose stores are performed and frees its slot, its group's LIVE one lower (R174), and ends a message and
returns its count; in slot 0 it raises ILLOP; an MCHECK that the last stores have brought is raised first (R148); the tile state of
its core pair need not be kept for its tenant (R219). R185: YIELD saves the slot with its new deadline and budget, of which it takes
the low 32 bits (the model's choice, log 90), and queues it again.

R189: DLINE pushes the clock plus its operand, held below the background deadline; SELF gives the task's own record
with R, W, A and LC, and the null capability in slots 0 and 11.

R188, R193, R240: GANG reads its descriptor's header, its records and its pipes each in a step of its own; it then queues its members
together and pushes their number, or pushes -1 for an ill-formed descriptor. A member's hint is not looked at, and a pipe's record of
another space than GLOBAL makes it push -1 (the model's choices, log 89). SUBMIT reads its header so too; it tests its records and
pushes what admission answers in one step (R193; WindowsAndBudgets says when admission accepts), and waits while the cluster's hold register is occupied (R180). -/
def Obligations.EndOfTaskAndGangs : Prop :=
  (∀ (s : State) (x : Slot) (a b : Src) (dl bu : U64), s.slot s.cur = x → s.flight = [] → x.borrow = none → x.phase = Phase.task →
    s.reads a = some dl → s.reads b = some bu →
    let left := (s.noteIssue.modQuad (quadOf (coreOf s.cur)) fun q => { q with keep := q.keep.set false x.tenant false }).modSlot s.cur
      Slot.idle
    (slotNo s.cur = 0 → exec .done s = s.traps 4 .illop (wordVal (encode .done)) ∧ exec .doneC s = s.traps 2 .illop (wordVal (encode .doneC))) ∧
    (∀ v, slotNo s.cur ≠ 0 → s.calm → x.mcheck = some v → exec .done s = s.traps 4 .mcheck v ∧ exec .doneC s = s.traps 2 .mcheck v) ∧
    (slotNo s.cur ≠ 0 → slotNo s.cur ≠ 11 → x.mcheck = none → s.engines = [] → s.calm →
      (x.group = 0#64 → exec .done s = .next left ∧ exec .doneC s = .next left) ∧
      (∀ r, groupRef (s.partOfSlot s.cur) x.tenant x.group = some r →
        let t := left.groupNow { ref := r, delta := -1, failed := x.inTrap, trapped := x.inTrap, core := coreOf s.cur }
        exec .done s = .next t ∧ exec .doneC s = .next t)) ∧
    (slotNo s.cur = 11 → ∀ m, x.msg = some m → x.mcheck = none → (s.quad (quadOf (coreOf s.cur))).parting = none →
      let t := left.sendBack { m with failed := false } (left.partOfSlot m.slot) x.tenant m.home
      exec .done s = .next t ∧ exec .doneC s = .next t) ∧
    (1 ≤ slotNo s.cur → slotNo s.cur ≤ 10 → x.wait = Wait.none → s.engines = [] → s.absent = [] →
      (s.cluster (clusterOf (coreOf s.cur))).hold = none →
      (s.cluster (clusterOf (coreOf s.cur))).ring = [] → (s.cluster (clusterOf (coreOf s.cur))).ready = [] →
      ∃ t e sv, exec (.yield a b) s = .next t ∧ (t.cluster (clusterOf (coreOf s.cur))).ready = [e] ∧ e.cont = some sv ∧
        sv.core = none ∧ sv.slot.dline = dl ∧ sv.slot.issues = bu.setWidth 32 ∧ sv.slot.pcc = ((s.noteIssue.slot s.cur).advance 4).pcc ∧
        sv.slot.rq = x.rq ∧ sv.slot.n = x.n ∧ sv.slot.k = x.k ∧ (t.slot s.cur).live = false)) ∧
  (∀ (s : State) (d : Dst) (a : Src) (x : U64) (kd : BitVec 3), s.reads a = some x →
    exec (.dline d a) s = s.gives 4 d (BitVec.ofNat 64 (min ((s.cycle (dieOf (coreOf s.cur))).toNat + x.toNat) (2 ^ 64 - 2))) ∧
    (slotNo s.cur = 0 ∨ slotNo s.cur = 11 →
      exec (.self kd) s = .next (s.done 4 fun y => { y with k := y.k.set Cap.null kd.toNat Cap.null })) ∧
    (slotNo s.cur ≠ 0 → slotNo s.cur ≠ 11 → (s.slot s.cur).phase = Phase.task →
      ∀ r, capFor 0 43 (s.slot s.cur).taskRec.toNat (s.slot s.cur).taskRec.toNat ((s.slot s.cur).taskRec.toNat + 64) = some r →
        exec (.self kd) s = .next (s.done 4 fun y => { y with k := y.k.set Cap.null kd.toNat r }))) ∧
  (∀ (s t u : State) (d : Dst) (ka : BitVec 3) (key : Nat) (keep : Bool) (va : Option Nat) (hdr : List Byte) (recs : List Rec)
    (pipes : List Cap) (m : Rec) (rest : List Rec), s.calm →
    let n := s.noteIssue
    let c := s.cap ka
    let pushes := fun (w : State) (v : U64) => Host.Outcome.next ((w.modSlot s.cur fun x => { x.result d v with seen := [] }).past 4)
    let nd : Need := { spaces := [0, 1, 2], perm := [0, 3], align := 64 }
    ((s.slot s.cur).saw 0 = none → place c c.cursor 64 nd [1] n = .ok (.mem key keep va, t) →
      let read := s.keeps t 0 (s.object key keep va c.cursor 64)
      exec (.gang d ka) s = read ∧ exec (.submit d ka) s = read) ∧
    (∀ (h o : Seen) (i v : Nat), (s.slot s.cur).saw 0 = some h →
      checkCap c c.cursor (64 * (descriptorCount 2 4 h.bytes + 1)) nd n = .ok (v, n) →
      1 ≤ i → i ≤ descriptorCount 2 4 h.bytes → (∀ j, 1 ≤ j → j < i → ∃ e, (s.slot s.cur).saw j = some e) →
      (s.slot s.cur).saw i = none → locate (s.who s.cur) c.space (v + 64 * i) 64 [1] n = .ok (.mem key keep va, t) →
      o = s.object key keep va (s.globalAddr (s.partOfSlot s.cur) c.space (v + 64 * i)) 64 → exec (.gang d ka) s = s.keeps t i o) ∧
    (descriptorAt inStep c 2 4 n = .ok ((hdr, recs), n) →
      (s.gangOk hdr recs = false → exec (.gang d ka) s = pushes n (BitVec.allOnes 64)) ∧
      (s.gangOk hdr recs = true → recs = m :: rest →
        eachM (fun j => if leAt hdr (2 + 2 * j) 2 = 0 then pure Cap.null
          else loadPool (1 + recs.length + 2 * j) m.code (leAt hdr (2 + 2 * j) 2)) (List.range rest.length) n = .ok (pipes, n) →
        ((∃ k ∈ pipes, k.tag = true ∧ k.space ≠ 0) → exec (.gang d ka) s = pushes n (BitVec.allOnes 64)) ∧
        ((∀ k ∈ pipes, k.tag = true → k.space = 0) → ∀ q, q.cur = s.cur →
          (n.liveNow (s.partOfSlot s.cur) (s.slot s.cur).tenant m.group recs.length (coreOf s.cur)).enqueue (clusterOf (coreOf s.cur))
            { job := m, gcount := recs.length, gang := recs, pipes := pipes } = some q →
          exec (.gang d ka) s = pushes q (BitVec.ofNat 64 recs.length)))) ∧
    (descriptorAt (fun _ e => e) c 1 64 n = .ok ((hdr, recs), u) → u.calm → u.cur = s.cur →
      let cl := clusterOf (coreOf s.cur)
      (u.submitOk hdr recs = true → (u.cluster cl).hold ≠ none → exec (.submit d ka) s = s.waits) ∧
      ((u.submitOk hdr recs = true → (u.cluster cl).hold = none) → ∀ v q, q.cur = s.cur →
        u.submitStep (u.partOfSlot s.cur) (u.slot s.cur).tenant cl s.cur hdr recs = (v, q) →
        exec (.submit d ka) s = pushes q (BitVec.ofInt 64 v))))

/-! ## Futures, rings and barriers (R197 to R239) -/

/-- R197, R198: the operations on a future by its STATE: 0 empty, 1 waiting, 2 resolved; FRES and FREG release the record
that waits, or wait while that record could not be queued (R180); each error state raises its trap with the future's address. -/
def Obligations.Futures : Prop :=  ∀ (s t u w : State) (d : Dst) (ka kb : BitVec 3) (b : Src) (v : U64) (key lo : Nat) (keep : Bool) (va : Option Nat) (c : Cap)
    (rk : Nat) (rp : Bool) (rv : Option Nat),
    s.calm → s.cap ka = c → s.reads b = some v → lo = leAt (s.bytes key 16) 0 8 →
    let nd : Need := { spaces := [0, 1, 2], perm := [0, 1, 5], align := 16 }
    let rel := s.noteIssue.modSlot s.cur fun x => { x with relHold := [] }
    let p := s.partOfSlot s.cur
    let ten := (s.slot s.cur).tenant
    let at' := BitVec.ofNat 64 (s.globalAddr p c.space c.cursor)
    let fine := lo % 4 ≠ 3 ∧ lo / 4 % 4 = 0 ∧ lo < 2 ^ 52
    let pushes := fun (u : State) (v : U64) => Host.Outcome.next ((u.modSlot s.cur fun x => x.result d v).past 4)
    let sends := fun (u : State) (a : Nat) =>
      { u with releases := u.releases ++ [{ addr := a, tenant := ten, part := p, core := coreOf s.cur }] }
    (place c c.cursor 16 nd [1, 2, 4] s.noteIssue = .ok (.mem key keep va, t) →
      (lo % 4 ≠ 1 → exec (.finit ka) s = .next ((t.performWrites p ten va (writesAt key (toBytes 16 0)) none).past 4)) ∧
      (lo % 4 = 1 → exec (.finit ka) s = s.traps 4 .futReg at') ∧
      (fine → lo % 4 = 2 → exec (.fget d ka) s = pushes t (BitVec.ofNat 64 (leAt (s.bytes key 16) 8 8))) ∧
      (fine → lo % 4 ≠ 2 → exec (.fget d ka) s = s.traps 4 .futEmpty at') ∧
      (¬ fine → exec (.fget d ka) s = s.traps 4 .futReg at') ∧
      exec (.fstat d ka) s = pushes t (BitVec.ofNat 64 (lo % 4))) ∧
    (place c c.cursor 16 nd [1, 2, 4] rel = .ok (.mem key keep va, u) →
      let done := u.performWrites p ten va (writesAt key (toBytes 8 (lo / 4 * 4 + 2) ++ toBytes 8 v.toNat)) none
      (fine → lo % 4 = 0 → exec (.fres d ka b) s = pushes done 0#64) ∧
      (fine → lo % 4 = 1 → u.releaseBlocked (lo / 16 * 16) ten p (coreOf s.cur) = false →
        exec (.fres d ka b) s = pushes (sends done (lo / 16 * 16)) 1#64) ∧
      (fine → lo % 4 = 1 → u.releaseBlocked (lo / 16 * 16) ten p (coreOf s.cur) = true → exec (.fres d ka b) s = s.waits) ∧
      (fine → lo % 4 = 2 → exec (.fres d ka b) s = s.traps 4 .futDbl at') ∧
      (¬ fine → exec (.fres d ka b) s = s.traps 4 .futReg at') ∧
      (place (s.cap kb) (s.cap kb).cursor 64 { spaces := [0, 1, 2], perm := [0, 1, 5, 3], align := 64 } [1, 2, 4] u =
          .ok (.mem rk rp rv, w) →
        let rec' := s.globalAddr p (s.cap kb).space (s.cap kb).cursor
        (fine → lo % 4 = 0 → exec (.freg d ka kb) s =
          pushes (w.performWrites p ten va (writesAt key (toBytes 8 (rec' + 1))) none) 0#64) ∧
        (fine → lo % 4 = 2 → w.releaseBlocked rec' ten p (coreOf s.cur) = false → exec (.freg d ka kb) s = pushes (sends w rec') 2#64) ∧
        (fine → lo % 4 = 2 → w.releaseBlocked rec' ten p (coreOf s.cur) = true → exec (.freg d ka kb) s = s.waits) ∧
        (¬ fine ∨ lo % 4 = 1 → exec (.freg d ka kb) s = s.traps 4 .futReg at')))

/-- R224 to R232: the steps on a ring whose header nothing is parked at: claiming and awaiting push the old counter and
acquire, committing and retiring move theirs on, an order not yet reached parks the slot, and a broken header or operand
raises RINGOVR.

R228, R229: RINIT writes a new header of its size over a place at which nothing is parked, with the base capability's
tag; a parked request makes it raise RINGOVR. The checks come in R228's order: SC of ka, then kb, then C of the header's page. -/
def Obligations.Rings : Prop :=
  (∀ (s t u : State) (d : Dst) (ka : BitVec 3) (i b : Src) (sc : BitVec 3) (x n : U64) (key : Nat) (keep : Bool) (va : Option Nat)
    (c : Cap) (h : Ring), s.calm → slotNo s.cur ≠ 11 → s.cap ka = c → s.reads i = some x → s.reads b = some n → s.parked = [] →
    h = ringOf (s.bytes key 64) →
    let nd : Need := { spaces := [0, 1, 2], perm := [0, 1, 5], align := 64 }
    let p := s.partOfSlot s.cur
    let ten := (s.slot s.cur).tenant
    let addr := s.globalAddr p c.space c.cursor
    let ovr := s.traps 4 .ringOvr (BitVec.ofNat 64 addr)
    let puts := fun (w : State) (g : Ring) => w.performWrites p ten va
      (writesAt (key + 24) (toBytes 8 g.claim ++ toBytes 8 g.commit ++ toBytes 8 g.awaited ++ toBytes 8 g.retire)) none
    let takes := fun (w : State) (v : Nat) => Host.Outcome.next
      (((w.modSlot s.cur fun y => y.result d (BitVec.ofNat 64 v)).modCore (coreOf s.cur) fun y => { y with rcache := [] }).past 4)
    let parks := fun (w : State) (op : ParkOp) => Host.Outcome.next
      (State.modSlot { w with parked := [{ slot := s.cur, key := key, addr := addr, op := op }] } s.cur fun y => { y with wait := Wait.parked })
    (place c c.cursor 64 nd [1, 2, 4] s.noteIssue = .ok (.mem key keep va, t) →
      let bad := h.ok = false ∨ n = 0#64 ∨ h.size < n.toNat
      (bad ∨ 2 ^ 64 ≤ h.claim + n.toNat → exec (.rclaim sc d ka b) s = ovr ∧ exec (.rtryclaim sc d ka b) s = ovr) ∧
      (¬ bad → h.claim + n.toNat < 2 ^ 64 → h.claim + n.toNat ≤ h.retire + h.size →
        exec (.rclaim sc d ka b) s = takes (puts t { h with claim := h.claim + n.toNat }) h.claim ∧
        exec (.rtryclaim sc d ka b) s = takes (puts t { h with claim := h.claim + n.toNat }) h.claim) ∧
      (¬ bad → h.claim + n.toNat < 2 ^ 64 → h.retire + h.size < h.claim + n.toNat →
        exec (.rclaim sc d ka b) s = parks t (.rclaim n.toNat d sc.toNat) ∧
        exec (.rtryclaim sc d ka b) s = .next ((t.modSlot s.cur fun y => y.result d (BitVec.allOnes 64)).past 4)) ∧
      (bad → exec (.rawait sc d ka b) s = ovr) ∧
      (¬ bad → n.toNat ≤ h.commit - h.awaited →
        exec (.rawait sc d ka b) s = takes (puts t { h with awaited := h.awaited + n.toNat }) h.awaited) ∧
      (¬ bad → h.commit - h.awaited < n.toNat → exec (.rawait sc d ka b) s = parks t (.rawait n.toNat d sc.toNat))) ∧
    (place c c.cursor 64 nd [1, 2, 4] (s.noteIssue.modSlot s.cur fun x => { x with relHold := [] }) = .ok (.mem key keep va, u) →
      (h.ok = false ∨ n = 0#64 ∨ x.toNat < h.commit ∨ h.claim < x.toNat + n.toNat → exec (.rcommit sc ka i b) s = ovr) ∧
      (h.ok = true → n ≠ 0#64 → x.toNat = h.commit → x.toNat + n.toNat ≤ h.claim →
        exec (.rcommit sc ka i b) s = .next ((puts u { h with commit := h.commit + n.toNat }).past 4)) ∧
      (h.ok = true → n ≠ 0#64 → h.commit < x.toNat → x.toNat + n.toNat ≤ h.claim →
        exec (.rcommit sc ka i b) s = parks u (.rcommit x.toNat n.toNat)) ∧
      (h.ok = false ∨ n = 0#64 ∨ x.toNat < h.retire ∨ h.awaited < x.toNat + n.toNat → exec (.rretire sc ka i b) s = ovr) ∧
      (h.ok = true → n ≠ 0#64 → x.toNat = h.retire → x.toNat + n.toNat ≤ h.awaited →
        exec (.rretire sc ka i b) s = .next ((puts u { h with retire := h.retire + n.toNat }).past 4)) ∧
      (h.ok = true → n ≠ 0#64 → h.retire < x.toNat → x.toNat + n.toNat ≤ h.awaited →
        exec (.rretire sc ka i b) s = parks u (.rretire x.toNat n.toNat)))) ∧
  (∀ (s t : State) (ka kb : BitVec 3) (e : BitVec 5) (key : Nat) (keep : Bool) (va : Option Nat) (c b : Cap), s.calm →
    s.near (homeOf key) → s.cap ka = c → s.cap kb = b →
    place c c.cursor 64 { spaces := [0, 1, 2], perm := [0, 1, 5], align := 64 } [1, 2, 4] s.noteIssue = .ok (.mem key keep va, t) →
    let traps := fun (w : Cause) (v : Nat) => exec (.rinit ka kb e) s = s.traps 4 w (BitVec.ofNat 64 v)
    let rights := b.has 0 = true ∧ b.has 1 = true ∧ b.has 6 = true
    let inside := b.base ≤ b.cursor ∧ b.cursor + 64 * 2 ^ e.toNat ≤ b.top
    (c.has 4 = false → traps .capPerm c.cursor) ∧
    (c.has 4 = true →
      (b.tag = false → traps .capTag b.cursor) ∧
      (b.tag = true → 2 < b.space → traps .capSpace b.cursor) ∧
      (b.tag = true → b.space ≤ 2 → ¬ rights → traps .capPerm b.cursor) ∧
      (b.tag = true → b.space ≤ 2 → rights → b.cursor % 64 ≠ 0 → traps .align b.cursor) ∧
      (b.tag = true → b.space ≤ 2 → rights → b.cursor % 64 = 0 → ¬ inside → traps .capBnd b.cursor) ∧
      (b.tag = true → b.space ≤ 2 → rights → b.cursor % 64 = 0 → inside →
        (keep = false → traps .xperm c.cursor) ∧
        (keep = true → s.parkedAt key ≠ [] → traps .ringOvr (s.globalAddr (s.partOfSlot s.cur) c.space c.cursor)) ∧
        (keep = true → s.parkedAt key = [] →
          exec (.rinit ka kb e) s = .next ((t.performWrites (s.partOfSlot s.cur) (s.slot s.cur).tenant va
            (writesAt key (toBytes 16 b.bits.toNat ++ toBytes 8 (2 ^ e.toNat) ++ toBytes 40 0)) (some key)).past 4)))))

/-- R235 to R239: the steps on a barrier object at which nothing is parked: an arrival is counted and may end the phase,
BEXPECT adds bytes to wait for, BWAIT of an ended phase acquires and of the current one parks, BTEST answers at once; where they
do not park, an object whose count and bytes are complete ends its phase in their step too (R237).

R230, R428: an object's step lets the parked requests at it proceed: a BWAIT parked on a phase that has ended completes and
acquires, and the object's end test follows (R237); one whose object stands in a poisoned line traps with MCHECK. A parked request is
withdrawn for a pre-emption. -/
def Obligations.Barriers : Prop :=
  (∀ (s t u : State) (d : Dst) (ka : BitVec 3) (b : Src) (sc : BitVec 3) (v : U64) (key : Nat) (keep : Bool) (va : Option Nat)
    (c : Cap) (o : Bar), s.calm → s.cap ka = c → s.reads b = some v → s.parked = [] → o = barOf (s.bytes key 16) →
    let nd : Need := { spaces := [0, 1, 2], perm := [0, 1, 5], align := 16 }
    let p := s.partOfSlot s.cur
    let ten := (s.slot s.cur).tenant
    let addr := s.globalAddr p c.space c.cursor
    let ovr := s.traps 4 .barOvr (BitVec.ofNat 64 addr)
    let fine := o.aexp ≠ 0 ∧ o.acnt ≤ o.aexp
    let puts := fun (w : State) (g : Bar) => w.performWrites p ten va (writesAt key g.bytes) none
    let ends := fun (g : Bar) =>
      if g.acnt = g.aexp ∧ g.bcnt = g.bexp then { g with phase := (g.phase + 1) % 2 ^ 16, acnt := 0, bexp := 0, bcnt := 0 } else g
    let tested := fun (w : State) => if ends o = o then w else puts w (ends o)
    let acq := fun (w : State) => w.modCore (coreOf s.cur) fun y => { y with rcache := [] }
    (place c c.cursor 16 nd [1, 2, 4] s.noteIssue = .ok (.mem key keep va, t) →
      (v ≠ 0#64 → v.toNat ≤ 65535 →
        exec (.binit ka b) s = .next ((puts t { phase := 0, aexp := v.toNat, acnt := 0, bexp := 0, bcnt := 0 }).past 4)) ∧
      (v = 0#64 ∨ 65535 < v.toNat → exec (.binit ka b) s = ovr) ∧
      (fine → o.acnt ≠ o.aexp → o.bexp + v.toNat < 2 ^ 40 →
        exec (.bexpect ka b) s = .next ((puts t (ends { o with bexp := o.bexp + v.toNat })).past 4)) ∧
      (¬ fine ∨ o.acnt = o.aexp ∨ 2 ^ 40 ≤ o.bexp + v.toNat → exec (.bexpect ka b) s = ovr) ∧
      (slotNo s.cur ≠ 11 → fine → o.phase ≠ v.toNat % 2 ^ 16 → exec (.bwait sc ka b) s = .next ((acq (tested t)).past 4)) ∧
      (slotNo s.cur ≠ 11 → fine → o.phase = v.toNat % 2 ^ 16 → exec (.bwait sc ka b) s = .next
        (State.modSlot { t with parked := [{ slot := s.cur, key := key, addr := addr, op := .bwait (v.toNat % 2 ^ 16) sc.toNat }] }
          s.cur fun y => { y with wait := Wait.parked })) ∧
      (fine → o.phase = v.toNat % 2 ^ 16 →
        exec (.btest sc d ka b) s = .next ((tested (t.modSlot s.cur fun y => y.result d 0#64)).past 4)) ∧
      (fine → o.phase ≠ v.toNat % 2 ^ 16 →
        exec (.btest sc d ka b) s = .next ((acq (tested (t.modSlot s.cur fun y => y.result d 1#64))).past 4)) ∧
      (¬ fine → exec (.btest sc d ka b) s = ovr ∧ (slotNo s.cur ≠ 11 → exec (.bwait sc ka b) s = ovr))) ∧
    (place c c.cursor 16 nd [1, 2, 4] (s.noteIssue.modSlot s.cur fun x => { x with relHold := [] }) = .ok (.mem key keep va, u) →
      (fine → o.acnt ≠ o.aexp → o.bexp + v.toNat < 2 ^ 40 → (o.acnt + 1 = o.aexp → o.bcnt ≤ o.bexp + v.toNat) →
        exec (.barrive sc d ka b) s = .next (((puts u (ends { o with acnt := o.acnt + 1, bexp := o.bexp + v.toNat })).modSlot s.cur
          fun y => y.result d (BitVec.ofNat 64 o.phase)).past 4)) ∧
      (¬ fine ∨ o.acnt = o.aexp ∨ 2 ^ 40 ≤ o.bexp + v.toNat ∨ o.acnt + 1 = o.aexp ∧ o.bexp + v.toNat < o.bcnt →
        exec (.barrive sc d ka b) s = ovr))) ∧
  (∀ (s : State) (r : Parked) (b sc : Nat) (o : Bar), s.parked = [r] → r.op = .bwait b sc → o = barOf (s.bytes r.key 16) →
    (s.parkedPoison r = none →
      (o.aexp ≠ 0 → o.acnt ≤ o.aexp → o.phase ≠ b % 2 ^ 16 →
        ∃ t, s.afterStep r.key = t ∧ t.parked = [] ∧ (t.slot r.slot).wait = Wait.none ∧ (t.core (coreOf r.slot)).rcache = [] ∧
          (t.slot r.slot).pc = ((s.slot r.slot).advance 4).pc ∧ (o.endTest ≠ o → t.bytes r.key 16 = o.endTest.bytes)) ∧
      (o.phase = b % 2 ^ 16 → o.aexp ≠ 0 → o.acnt ≤ o.aexp → s.afterStep r.key = s)) ∧
    (∀ k u, s.poisonIn r.key 16 = some k →
      (State.modSlot { s with parked := [] } r.slot fun x => { x with wait := Wait.none }).takeTrap r.slot .mcheck
        (BitVec.ofNat 64 (physOf k)) 4 = some u → s.afterStep r.key = u) ∧
    (s.mayStop r.slot = true → exec (.parkedWithdrawal r.slot) s = .next
      (State.modSlot { s with parked := [] } r.slot fun x => { x with wait := Wait.none, stopped := some none })))

/-! ## Vector instructions (R263 to R285) -/

/-- R264: VCLAIM grants lane groups up to the wanted number and clears the registers that lanes reach, or pushes 0 when fewer
than the minimum are free, or -1 out of range or when groups are held; VRENEG changes a held number; VREL gives all back.

R270: every vector and moment instruction of a slot without lanes raises ILLOP with its word; those with a general
operand read it first. -/
def Obligations.VectorClaims : Prop :=
  (∀ (s : State) (d : Dst) (a b : Src) (x y : U64) (held free : Nat), s.reads a = some x → s.reads b = some y →
    held = (s.slot s.cur).groups → free = s.freeGroups (s.partOf (coreOf s.cur)) (clusterOf (coreOf s.cur)) →
    let fine := 1 ≤ x.toNat ∧ x.toNat ≤ 16 ∧ 1 ≤ y.toNat ∧ y.toNat ≤ x.toNat
    (¬ fine ∨ held ≠ 0 → exec (.vclaim d a b) s = s.gives 4 d (BitVec.allOnes 64)) ∧
    (fine → held = 0 → free < y.toNat → exec (.vclaim d a b) s = s.gives 4 d 0#64) ∧
    (fine → held = 0 → y.toNat ≤ free → exec (.vclaim d a b) s = .next (s.done 4 fun z =>
      Slot.result { z with groups := min x.toNat free, minGrp := y.toNat, v := [], vm := [], m := [] } d
        (BitVec.ofNat 64 (16 * min x.toNat free)))) ∧
    (¬ fine ∨ held = 0 → exec (.vreneg d a b) s = s.gives 4 d (BitVec.allOnes 64)) ∧
    (fine → held ≠ 0 → free + held < y.toNat → exec (.vreneg d a b) s = s.gives 4 d 0#64) ∧
    (fine → held ≠ 0 → y.toNat ≤ free + held → ∃ z : Slot,
      exec (.vreneg d a b) s = .next (s.done 4 fun w => Slot.result { w with groups := z.groups, minGrp := y.toNat, v := z.v, vm := z.vm, m := z.m } d
        (BitVec.ofNat 64 (16 * min x.toNat (free + held)))) ∧
      z.groups = min x.toNat (free + held) ∧
      ∀ r j, (z.vreg r).getLsbD j = (decide (j < 512 * z.groups) && ((s.slot s.cur).vreg r).getLsbD j) ∧
        (z.vmask r).getLsbD j = (decide (j < 16 * z.groups) && ((s.slot s.cur).vmask r).getLsbD j) ∧
        (z.mreg r).getLsbD j = (decide (j < 1024 * z.groups) && ((s.slot s.cur).mreg r).getLsbD j)) ∧
    exec .vrel s = .next (s.done 4 fun z => { z with groups := 0, minGrp := 0, v := [], vm := [], m := [] })) ∧
  (∀ (s : State) (p : Option Pfx) (et st m1 : BitVec 3) (cc part : BitVec 2) (cov mode k vd va vb : BitVec 3) (d a b : BitVec 5)
    (md ma mb : BitVec 4) (r : Dst) (i j : Src) (u v : U64), (s.slot s.cur).groups = 0 → s.reads i = some u → s.reads j = some v →
    ∀ x ∈ [Instr.vadd p et d a b, .vsub p et d a b, .vmul p et d a b, .vmulh p et d a b, .vmin p et d a b, .vmax p et d a b,
        .vminu p et d a b, .vmaxu p et d a b, .vand p et d a b, .vor p et d a b, .vxor p et d a b, .vshl p et d a b,
        .vshr p et d a b, .vsra p et d a b, .vabs p et d a, .vsadd p et d a b, .vssub p et d a b, .vfadd p et d a b,
        .vfsub p et d a b, .vfmul p et d a b, .vfma p et d a b, .vfdiv p et d a b, .vfsqrt p et d a, .vfmin p et d a b,
        .vfmax p et d a b, .vfabs p et d a, .vfneg p et d a, .vfrcp p et d a, .vfrsq p et d a, .vfexp2 p et d a,
        .vflog2 p et d a, .vfclass p et d a] ++
      [.vcmp p et cc vd a b, .vfcmp p et cc vd a b, .vmand p vd va vb, .vmor p vd va vb, .vmxor p vd va vb, .vmnot p vd va,
        .vmpop p r va, .vmfirst p r va, .vcvt p et d a st part, .vqbfp p et d a m1, .vdqbfp p et d a m1, .vld p et d k a,
        .vst p et d k a, .vlds p et d k i, .vsts p et d k i, .vgth p et d k b, .vsct p et d k b, .vbcast p et d i,
        .vext p et r a i, .vins p et d i j, .viota p et d, .vshuf p et d a b, .vredsum p et r a, .vredmax p et r a,
        .vredmin p et r a, .vtbl p et d a k, .vrng p et d, .vrngn p et d] ++
      [.madd p cov md ma mb, .msub p cov md ma mb, .mmul p cov md ma mb, .mscale p md ma b, .mfma p cov md ma b, .mneg p md ma,
        .mrelu p md ma, .msig p md ma, .mexp p md ma, .msqr p md ma, .mset p md a b, .mmean p d ma, .mvar p d ma,
        .mcoll p mode d ma, .mld p md k a, .mst p md k a, .mchk p r ma],
      exec x s = s.traps (if p.isSome then 8 else 4) .illop (wordVal (encode x)))

/-- R273: every member of VINT writes, for each enabled element, the exact result of its row wrapped to the element's width,
or clamped with SATURATED where it saturates. -/
def Obligations.VectorIntegerResults : Prop :=  ∀ (s : State) (p : Option Pfx) (et : BitVec 3) (d a b : BitVec 5) (n : Nat) (q : Pfx),
    (s.slot s.cur).groups ≠ 0 → n = etBits et → q = p.getD zeroPfx →
    let each := fun (f : Nat → Nat → FRes) =>
      Host.Outcome.next (s.done (if p.isSome then 8 else 4) fun x => x.eachElem q d n fun i => f (x.elem a n i) (x.elem b n i))
    let int := fun (u : Nat) => (BitVec.ofNat n u).toInt
    let bits := fun (v : Int) => (BitVec.ofInt n v).toNat
    let fit := fun (sat : Bool) (v : Int) =>
      if sat ∧ v < -(2 ^ (n - 1)) then FRes.mk (2 ^ (n - 1)) flSaturated
      else if sat ∧ 2 ^ (n - 1) ≤ v then FRes.mk (2 ^ (n - 1) - 1) flSaturated
      else FRes.mk (bits v) 0#6
    exec (.vadd p et d a b) s = each (fun u v => fit q.sat (int u + int v)) ∧
    exec (.vsub p et d a b) s = each (fun u v => fit q.sat (int u - int v)) ∧
    exec (.vmul p et d a b) s = each (fun u v => fit q.sat (int u * int v)) ∧
    exec (.vmulh p et d a b) s = each (fun u v => FRes.mk (bits (int u * int v / 2 ^ n)) 0#6) ∧
    exec (.vmin p et d a b) s = each (fun u v => FRes.mk (if int u ≤ int v then u else v) 0#6) ∧
    exec (.vmax p et d a b) s = each (fun u v => FRes.mk (if int u ≤ int v then v else u) 0#6) ∧
    exec (.vminu p et d a b) s = each (fun u v => FRes.mk (if u ≤ v then u else v) 0#6) ∧
    exec (.vmaxu p et d a b) s = each (fun u v => FRes.mk (if u ≤ v then v else u) 0#6) ∧
    exec (.vand p et d a b) s = each (fun u v => FRes.mk (u &&& v) 0#6) ∧
    exec (.vor p et d a b) s = each (fun u v => FRes.mk (u ||| v) 0#6) ∧
    exec (.vxor p et d a b) s = each (fun u v => FRes.mk (u ^^^ v) 0#6) ∧
    exec (.vshl p et d a b) s = each (fun u v => FRes.mk ((BitVec.ofNat n u <<< (v % n)).toNat) 0#6) ∧
    exec (.vshr p et d a b) s = each (fun u v => FRes.mk ((BitVec.ofNat n u >>> (v % n)).toNat) 0#6) ∧
    exec (.vsra p et d a b) s = each (fun u v => FRes.mk (((BitVec.ofNat n u).sshiftRight (v % n)).toNat) 0#6) ∧
    exec (.vabs p et d a) s = each (fun u _ => fit q.sat ((int u).natAbs : Int)) ∧
    exec (.vsadd p et d a b) s = each (fun u v => fit true (int u + int v)) ∧
    exec (.vssub p et d a b) s = each (fun u v => fit true (int u - int v))

/-- R65, R274: every member of VFP writes, for each enabled element, the operation of its row on the element's values in the
prefix's rounding mode, once for each: STO draws the slot's generator for one field an element, whatever the member (R274 says
that each element is rounded; that the exact members count is log 22's reading).

R58, R64: rounding a finite value to a multiple of a power of two leaves an error below one unit, of at most half a unit
to nearest; it never passes the value towards zero, up or down in those modes; and it is inexact exactly when it moves. -/
def Obligations.VectorFloatResults : Prop :=
  (∀ (s : State) (p : Option Pfx) (et : BitVec 3) (d a b : BitVec 5) (n : Nat) (q : Pfx) (f : Fmt),
    (s.slot s.cur).groups ≠ 0 → n = etBits et → q = p.getD zeroPfx → f = etFmt et →
    let each := fun (op : Rnd → Nat → Nat → Nat → FRes) =>
      Host.Outcome.next (s.done (if p.isSome then 8 else 4) fun x => x.floatElems q d a b (if q.f4e then q.f4 else d) n op)
    let v := Fp.ofBits f
    exec (.vfadd p et d a b) s = each (fun r x y _ => fpAdd f r (v x) (v y)) ∧
    exec (.vfsub p et d a b) s = each (fun r x y _ => fpAdd f r (v x) (v y).neg) ∧
    exec (.vfmul p et d a b) s = each (fun r x y _ => fpMul f r (v x) (v y)) ∧
    exec (.vfma p et d a b) s = each (fun r x y z => fpFma f r (v x) (v y) (v z)) ∧
    exec (.vfdiv p et d a b) s = each (fun r x y _ => fpDiv f r (v x) (v y)) ∧
    exec (.vfsqrt p et d a) s = each (fun r x _ _ => fpSqrt f r (v x)) ∧
    exec (.vfrcp p et d a) s = each (fun r x _ _ => fpDiv f r (.fin false 1 0) (v x)) ∧
    exec (.vfrsq p et d a) s = each (fun r x _ _ => fpRsq f r (v x)) ∧
    exec (.vfexp2 p et d a) s = each (fun r x _ _ => exp2Core f r (v x)) ∧
    exec (.vflog2 p et d a) s = each (fun r x _ _ => fpLog2 f r (v x)) ∧
    exec (.vfmin p et d a b) s = each (fun r x y _ => fpMin f r (v x) (v y)) ∧
    exec (.vfmax p et d a b) s = each (fun r x y _ => fpMax f r (v x) (v y)) ∧
    exec (.vfabs p et d a) s = each (fun _ x _ _ => FRes.mk (x % 2 ^ (f.width - 1)) 0#6) ∧
    exec (.vfneg p et d a) s = each (fun _ x _ _ => FRes.mk (x ^^^ 2 ^ (f.width - 1)) 0#6) ∧
    exec (.vfclass p et d a) s = each (fun _ x _ _ => FRes.mk (fpClass f x) 0#6)) ∧
  (∀ (r : Rnd) (neg : Bool) (m : Nat) (e qe : Int) (q : Nat) (inexact : Bool), r.mode ≤ 4 → e ≤ qe →
    roundAt r neg m e qe false = (q, inexact) →
    let u := 2 ^ (qe - e).toNat
    (inexact = decide (q * u ≠ m)) ∧ q * u < m + u ∧ m < q * u + u ∧
    (r.mode = 0 ∨ r.mode = 4 → 2 * (q * u) ≤ 2 * m + u ∧ 2 * m ≤ 2 * (q * u) + u) ∧
    (r.mode = 0 → 2 * (q * u) = 2 * m + u ∨ 2 * m = 2 * (q * u) + u → q % 2 = 0) ∧
    (r.mode = 4 → 2 * m ≠ 2 * (q * u) + u) ∧
    (r.mode = 1 ∨ r.mode = 2 ∧ neg = true ∨ r.mode = 3 ∧ neg = false → q * u ≤ m) ∧
    (r.mode = 2 ∧ neg = false ∨ r.mode = 3 ∧ neg = true → m ≤ q * u))

/-- R275: VCMP and VFCMP write the bits of every lane of an enabled element by its condition; the mask operations work lane
by lane; VMPOP counts and VMFIRST finds the enabled lanes that are set. -/
def Obligations.VectorMasks : Prop :=  ∀ (s : State) (p : Option Pfx) (et : BitVec 3) (cc : BitVec 2) (vd va vb : BitVec 3) (a b : BitVec 5) (r : Dst) (n : Nat) (q : Pfx),
    (s.slot s.cur).groups ≠ 0 → n = etBits et → q = p.getD zeroPfx →
    let len := if p.isSome then 8 else 4
    let int := fun (u : Nat) => (BitVec.ofNat n u).toInt
    let holds := fun (u v : Nat) =>
      if cc = 0#2 then decide (u = v) else if cc = 1#2 then decide (u ≠ v) else if cc = 2#2 then decide (int u < int v) else decide (u < v)
    let f := fun (u : Nat) => Fp.ofBits (etFmt et) u
    let fholds := fun (u v : Nat) =>
      let nan := (f u).isNan || (f v).isNan
      if cc = 0#2 then !nan && fpEq (f u) (f v) else if cc = 1#2 then !nan && fpLt (f u) (f v)
      else if cc = 2#2 then !nan && (fpLt (f u) (f v) || fpEq (f u) (f v)) else nan
    let fflag := fun (u v : Nat) =>
      if (f u).isSnan || (f v).isSnan || (cc = 1#2 || cc = 2#2) && ((f u).isNan || (f v).isNan) then flInvalid else 0#6
    let lane := fun (g : Bool → Bool → Bool) => Host.Outcome.next (s.done len fun x =>
      x.eachLane q vd (x.enabled q 32) fun i => g ((x.vmask va.toNat).getLsbD i) ((x.vmask vb.toNat).getLsbD i))
    let set := (List.range (s.slot s.cur).lanes).filter fun i =>
      (s.slot s.cur).enabled q 32 i && ((s.slot s.cur).vmask va.toNat).getLsbD i
    exec (.vcmp p et cc vd a b) s = .next (s.done len fun x =>
      x.eachLane q vd (fun i => x.enabled q n (32 * i / n)) fun i => holds (x.elem a n (32 * i / n)) (x.elem b n (32 * i / n))) ∧
    exec (.vfcmp p et cc vd a b) s = .next (s.done len fun x =>
      { x.eachLane q vd (fun i => x.enabled q n (32 * i / n)) (fun i => fholds (x.elem a n (32 * i / n)) (x.elem b n (32 * i / n))) with
        fflags := x.fflags ||| (List.range (x.count n)).foldl (fun w i =>
          w ||| if x.enabled q n i then fflag (x.elem a n i) (x.elem b n i) else 0#6) 0#6 }) ∧
    exec (.vmand p vd va vb) s = lane (fun u v => u && v) ∧
    exec (.vmor p vd va vb) s = lane (fun u v => u || v) ∧
    exec (.vmxor p vd va vb) s = lane (fun u v => u != v) ∧
    exec (.vmnot p vd va) s = .next (s.done len fun x =>
      x.eachLane q vd (x.enabled q 32) fun i => !(x.vmask va.toNat).getLsbD i) ∧
    exec (.vmpop p r va) s = s.gives len r (BitVec.ofNat 64 set.length) ∧
    exec (.vmfirst p r va) s = s.gives len r (match set with | [] => BitVec.allOnes 64 | i :: _ => BitVec.ofNat 64 i)

/-- R276, R277: VCVT converts the elements of its part; VQBFP quantises blocks of 32 elements, and VDQBFP gives the values of
a register's blocks in the destination type, where one beyond FP32's range is log 80's choice. -/
def Obligations.VectorConversions : Prop :=  ∀ (s : State) (p : Option Pfx) (et st m1 : BitVec 3) (part : BitVec 2) (d a : BitVec 5) (q : Pfx) (x : Slot), s.slot s.cur = x →
    x.groups ≠ 0 → q = p.getD zeroPfx →
    let len := if p.isSome then 8 else 4
    let sto := fun (n : Nat) => rngOuts (if x.mode q = 5 then ceilDiv n 4 else 0) x.rngLo x.rngHi
    (∀ ws wd el g, ws = etBits st → wd = etBits et → el = x.count (max ws wd) →
      g = (if etInt st ∧ etInt et then ([], x.rngLo, x.rngHi) else sto el) →
      let r := fun i => ({ mode := if etInt st ∧ etInt et then 0 else x.mode q, draw := (g.1.flatMap fields4).getD i 0, sat := q.sat } : Rnd)
      let first := if wd < ws then part.toNat * el else 0
      exec (.vcvt p et d a st part) s = .next (s.done len fun y =>
        { y.withElems d wd ((List.range (x.count wd)).map fun j =>
            if first ≤ j ∧ j < first + el then
              if x.enabled q wd j then
                let u := x.elem a ws ((if ws < wd then part.toNat * el else 0) + (j - first))
                if etInt st then
                  if etInt et then intToInt ws wd q.sat u else intToFp (etFmt et) (r (j - first)) ((BitVec.ofNat ws u).toInt)
                else if etInt et then fpToInt (etFmt st) wd (r (j - first)) u
                else fpConvert (etFmt st) (etFmt et) (r (j - first)) u
              else FRes.mk (if q.zero then 0 else x.elem d wd j) 0#6
            else FRes.mk (x.elem d wd j) 0#6) with rngLo := g.2.1, rngHi := g.2.2 })) ∧
    (∀ n m nb g, n = etBits et → m = m1.toNat + 1 → nb = (x.count n + 31) / 32 → g = sto (32 * nb) →
      let blocks := (List.range nb).map fun k =>
        bfpQuantise m (x.mode q) (((g.1.flatMap fields4).drop (32 * k)).take 32)
          ((List.range 32).map fun i => if 32 * k + i < x.count n then Fp.ofBits (etFmt et) (x.elem a n (32 * k + i)) else .fin false 0 0)
      exec (.vqbfp p et d a m1) s = .next (s.done len fun y =>
        { y with v := y.v.set 0#8192 d.toNat
                   (BitVec.ofNat 8192 (ofBytes ((blocks.flatMap fun b => bfpBytes m b.1 b.2.1).take (64 * x.groups)))),
                 fflags := y.fflags ||| blocks.foldl (fun w b => w ||| b.2.2) 0#6, rngLo := g.2.1, rngHi := g.2.2 })) ∧
    (∀ n m, n = etBits et → m = m1.toNat + 1 →
      exec (.vdqbfp p et d a m1) s = .next (s.done len fun y => y.withElems d n ((List.range (x.count n)).map fun i =>
        let b := bfpUnpack m ((toBytes (64 * x.groups) (x.vreg a.toNat).toNat).drop ((1 + 4 * m) * (i / 32)))
        (bfpValue b.1 m (b.2.getD (i % 32) 0)).toBits (etFmt et) rneMode)))

/-- R281, R282: the permutes write their result to each enabled element; VEXT reads one element and VINS writes one; the
reductions fold the enabled elements, a floating sum by the fixed tree. That VINS of a disabled element changes nothing is log
53's reading.

R242, R283 to R285: VTBL checks its header and sends two loads of 16 bytes for it (the model's cut, log 92); VRNG and VRNGN fill a
register from the slot's generator, and no flag is set. -/
def Obligations.VectorPermutesAndTables : Prop :=
  (∀ (s : State) (p : Option Pfx) (et : BitVec 3) (d a b : BitVec 5) (r : Dst) (i j : Src) (u v : U64) (n : Nat) (q : Pfx) (x : Slot),
    s.slot s.cur = x → s.reads i = some u → s.reads j = some v → x.groups ≠ 0 → n = etBits et → q = p.getD zeroPfx →
    let len := if p.isSome then 8 else 4
    let el := x.count n
    let scalar := fun (w : Nat) => if et.toNat < 4 then (BitVec.ofNat n w).signExtend 64 else BitVec.ofNat 64 w
    let ints := ((List.range el).filter (x.enabled q n)).map fun k => (BitVec.ofNat n (x.elem a n k)).toInt
    let opt := (List.range el).map fun k => if x.enabled q n k then some (x.elem a n k) else none
    let float := fun (y : FRes) => Host.Outcome.next (s.done len fun z =>
      Slot.result { z with fflags := z.fflags ||| y.fl } r (BitVec.ofNat 64 y.bits))
    exec (.vbcast p et d i) s = .next (s.done len fun y => y.eachElem q d n fun _ => FRes.mk (u.toNat % 2 ^ n) 0#6) ∧
    exec (.viota p et d) s = .next (s.done len fun y => y.eachElem q d n fun k => FRes.mk (k % 2 ^ n) 0#6) ∧
    exec (.vshuf p et d a b) s = .next (s.done len fun y => y.eachElem q d n fun k =>
      let t := y.elem b n k
      FRes.mk (if t < el then y.elem a n t else if q.f4e = true ∧ t < 2 * el then y.elem q.f4 n (t - el) else 0) 0#6) ∧
    exec (.vext p et r a j) s = s.gives len r (if v.toNat < el ∧ x.enabled q n v.toNat = true then scalar (x.elem a n v.toNat) else 0#64) ∧
    (v.toNat < el ∧ x.enabled q n v.toNat = true → exec (.vins p et d i j) s = .next (s.done len fun y =>
      { y with v := y.v.set 0#8192 d.toNat (putBits (y.vreg d.toNat) (n * v.toNat) n u.toNat) })) ∧
    (¬ (v.toNat < el ∧ x.enabled q n v.toNat = true) → exec (.vins p et d i j) s = .next (s.noteIssue.past len)) ∧
    (et.toNat < 4 →
      exec (.vredsum p et r a) s = s.gives len r (BitVec.ofInt 64 ints.sum) ∧
      exec (.vredmax p et r a) s = s.gives len r (BitVec.ofInt 64 (ints.foldl max (-(2 ^ (n - 1))))) ∧
      exec (.vredmin p et r a) s = s.gives len r (BitVec.ofInt 64 (ints.foldl min (2 ^ (n - 1) - 1)))) ∧
    (4 ≤ et.toNat →
      exec (.vredsum p et r a) s = float (reduceFp .sum (etFmt et) opt) ∧
      exec (.vredmax p et r a) s = float (reduceFp .max (etFmt et) opt) ∧
      exec (.vredmin p et r a) s = float (reduceFp .min (etFmt et) opt))) ∧
  (∀ (s t u : State) (p : Option Pfx) (et k : BitVec 3) (d a : BitVec 5) (n v k0 k1 : Nat) (q : Pfx) (x : Slot) (c0 c1 : Bool)
    (va0 va1 : Option Nat), s.slot s.cur = x → x.groups ≠ 0 → n = etBits et → q = p.getD zeroPfx →
    let len := if p.isSome then 8 else 4
    let c := s.cap k
    (checkCap c c.cursor 32 { perm := [0], align := 16 } s.noteIssue = .ok (v, s.noteIssue) →
      locate (s.who s.cur) c.space v 16 [1] s.noteIssue = .ok (.mem k0 c0 va0, t) →
      locate (s.who s.cur) c.space (v + 16) 16 [1] t = .ok (.mem k1 c1 va1, u) → u.slot s.cur = s.noteIssue.slot s.cur →
      ∃ w l, exec (.vtbl p et d a k) s = .next w ∧ w.mem = u.mem ∧ w.flight = u.flight ++ l ∧
        l.map (fun r => r.kind) = [.elem 0 k0 16, .elem 1 k1 16] ∧
        w.slot s.cur = { s.noteIssue.slot s.cur with wait := Wait.elems, elems := some { instr := .vtbl p et d a k, no := u.fresh } }) ∧
    (∀ g, g = rngOuts (8 * x.groups) x.rngLo x.rngHi →
      exec (.vrng p et d) s = .next (s.done len fun y => { y.eachElem q d n fun i =>
        FRes.mk (packElems 64 (g.1.map BitVec.toNat) / 2 ^ (n * i) % 2 ^ n) 0#6 with rngLo := g.2.1, rngHi := g.2.2 })) ∧
    ∀ g, g = rngOuts (x.count n) x.rngLo x.rngHi →
      exec (.vrngn p et d) s = .next (s.done len fun y => { y.eachElem q d n fun i =>
        FRes.mk (normalOf et (g.1.getD i 0#64)) 0#6 with rngLo := g.2.1, rngHi := g.2.2 }))

/-- R278 to R280: a calm slot's vector load whose enabled elements all have a place in memory sends each to its home and waits
for them, or completes at once without any; a vector store sends each enabled element to its home as one of the slot's accesses.

R279, R358: a calm slot's MLD of elements that all have a place in memory sends each to its home and waits for them, or
completes at once without any; MST sends each enabled element to its home.

R242, R279, R280, R284, R358, R407: an element of a vector load performed at its home is read there and kept for its slot, and its
response returns, at once where it crosses no link. With the last one the load ends: it writes its register, widened to its type, and
the slot goes on, or it raises the trap of the first element that failed. MLD writes moments, or raises MVNEG for the lowest element
with a negative variance. VTBL with its header in place gives NaN with INVALID where that is broken, raises CAPBND for the first entry
outside its bounds, or sends the loads of the entries that it needs; with those it interpolates. Its header's checks are log 52's
reading. -/
def Obligations.VectorAndMomentMemory : Prop :=
  (∀ (s t : State) (p : Option Pfx) (et k : BitVec 3) (d b off : BitVec 5) (i : Src) (v : U64) (n w : Nat) (q : Pfx) (mt : BitVec 3)
    (x : Slot) (ps : List (Option (Place × Nat))), s.calm → s.slot s.cur = x → s.reads i = some v → x.groups ≠ 0 →
    q = p.getD zeroPfx → mt = (if q.ove then q.ovt else et) → n = etBits mt / 8 → w = etBits et →
    (∀ e ∈ ps, ∀ pl a, e = some (pl, a) → ∃ key c va, pl = .mem key c va) →
    let len := if p.isSome then 8 else 4
    let c := s.cap k
    let whole := fun (j : Nat) => (c.cursor : Int) + 64 * off.toInt + n * j
    let stride := fun (j : Nat) => (c.cursor : Int) + v.toInt * j
    let index := fun (j : Nat) => (c.cursor : Int) + (BitVec.ofNat 32 (x.elem b 32 j)).toInt
    let places := fun (load : Bool) (f : Nat → Int) =>
      elemPlaces c n load ((List.range (x.count w)).map fun j => if x.enabled q w j then some (f j) else none) s.noteIssue = .ok (ps, t)
    let loads := fun (i : Instr) (f : Nat → Int) =>
      (places true f → (∀ e ∈ ps, e = none) → exec i s = .next
        ((t.modSlot s.cur fun y => y.eachElem q d w fun _ => FRes.mk 0 0#6).past len)) ∧
      (places true f → (∃ e ∈ ps, e ≠ none) → ∃ u, exec i s = .next u ∧ u.mem = s.mem ∧
        u.slot s.cur = { s.noteIssue.slot s.cur with wait := Wait.elems, elems := some { instr := i, no := t.fresh } } ∧
        (u.flight.filter fun a => a.slot == s.cur).map (fun a => a.kind) =
          ((List.range ps.length).filterMap fun j => match ps.getD j none with
            | some (.mem key _ _, _) => some (.elem j key n)
            | _ => none))
    let stored := fun (u : State) => u.mem = s.mem ∧ (u.slot s.cur).v = x.v ∧
      (u.flight.filter fun a => a.slot == s.cur).map (fun a => a.writes) =
        ((List.range ps.length).filterMap fun j => match ps.getD j none with
          | some (.mem key _ _, _) =>
            some (writesAt key (toBytes n (if q.ove then (convertElem et mt rneMode (x.elem d w j)).bits else x.elem d w j)))
          | _ => none)
    loads (.vld p et d k off) whole ∧ loads (.vlds p et d k i) stride ∧ loads (.vgth p et d k b) index ∧
    (places false whole → ∃ u, exec (.vst p et d k off) s = .next u ∧ stored u) ∧
    (places false stride → ∃ u, exec (.vsts p et d k i) s = .next u ∧ stored u) ∧
    (places false index → ∃ u, exec (.vsct p et d k b) s = .next u ∧ stored u)) ∧
  (∀ (s t : State) (p : Option Pfx) (d : BitVec 4) (k : BitVec 3) (off : BitVec 5) (q : Pfx) (x : Slot)
    (ps : List (Option (Place × Nat))), s.calm → s.slot s.cur = x → x.groups ≠ 0 → q = p.getD zeroPfx →
    (∀ e ∈ ps, ∀ pl a, e = some (pl, a) → ∃ key c va, pl = .mem key c va) →
    let len := if p.isSome then 8 else 4
    let c := s.cap k
    let places := fun (load : Bool) => elemPlaces c 8 load ((List.range (16 * x.groups)).map fun i =>
      if x.enabled q 32 i then some ((c.cursor : Int) + 64 * off.toInt + 8 * i) else none) s.noteIssue = .ok (ps, t)
    (places true → (∀ e ∈ ps, e = none) → exec (.mld p d k off) s = .next
      ((t.modSlot s.cur fun y =>
        { y with m := y.m.set 0#16384 d.toNat (BitVec.ofNat 16384 (packElems 64 ((List.range (16 * x.groups)).map fun i =>
            if q.zero then 0 else (x.moment d.toNat i).1 + 2 ^ 32 * (x.moment d.toNat i).2))) }).past len)) ∧
    (places true → (∃ e ∈ ps, e ≠ none) → ∃ u, exec (.mld p d k off) s = .next u ∧ u.mem = s.mem ∧
      u.slot s.cur = { s.noteIssue.slot s.cur with wait := Wait.elems, elems := some { instr := .mld p d k off, no := t.fresh } } ∧
      (u.flight.filter fun a => a.slot == s.cur).map (fun a => a.kind) =
        ((List.range ps.length).filterMap fun j => match ps.getD j none with
          | some (.mem key _ _, _) => some (.elem j key 8)
          | _ => none)) ∧
    (places false → ∃ u, exec (.mst p d k off) s = .next u ∧ u.mem = s.mem ∧ (u.slot s.cur).m = x.m ∧
      (u.flight.filter fun a => a.slot == s.cur).map (fun a => a.writes) =
        ((List.range ps.length).filterMap fun j => match ps.getD j none with
          | some (.mem key _ _, _) =>
            some (writesAt key (toBytes 8 ((x.moment d.toNat j).1 + 2 ^ 32 * (x.moment d.toNat j).2)))
          | _ => none))) ∧
  (∀ (s z : State) (a : Access) (rest : List Access) (i key n v : Nat) (e : Cause × U64) (job : ElemJob) (x : Slot) (p : Option Pfx)
    (et k : BitVec 3) (d b off : BitVec 5) (md : BitVec 4) (j : Src) (q : Pfx) (w : Nat), s.flight = a :: rest → a.kind = .elem i key n →
    s.mayPerform a = true → (∀ r ∈ rest, r.id ≠ a.id) → a.slot < 7680 → s.slot a.slot = x → x.tid = a.tid → x.wait = Wait.elems →
    x.elems = some job → job.no = a.instr → s.owed a.instr = false → q = p.getD zeroPfx → w = etBits et →
    let len := if p.isSome then 8 else 4
    let g := a.slot
    let s0 : State := { s with flight := rest }
    let read := s0.elemRead a key n
    let near := s.pathFrom a.home (coreOf g) = []
    let more := ∃ r ∈ rest, r.instr = a.instr
    let got := job.got.put i v
    let back := fun (y : ElemJob) => State.modSlot { z with fresh := z.fresh + 1 } g fun x => { x with elems := some y }
    let has := back { job with got := got }
    let runs := fun (t : State) => exec (.homeAccess a.id) s = .next t
    let ends := fun (f : Slot → Slot) => runs (has.modSlot g fun y => { (f y).advance len with wait := Wait.none, elems := none })
    let raises := fun (c : Cause) (t : U64) => ∀ u, has.takeTrap g c t len = some u → runs (u.modSlot g fun y => { y with elems := none })
    let value := fun (l : Nat) => got.get 0 l
    let lanes := (List.range (16 * x.groups)).filter (x.enabled q 32)
    let below := fun (v : Nat) => fpLt (Fp.ofBits fp32 v) (.fin false 0 0)
    let vector := job.instr = .vld p et d k off ∨ job.instr = .vlds p et d k j ∨ job.instr = .vgth p et d k b
    (a.tile = none →
      (key < 2 ^ 64 → s.absent = [] → s.poison = [] → s.hostGone key = false → read = (.ok (ofBytes (s.bytes key n)), s0)) ∧
      (2 ^ 65 ≤ key → read = (.ok (s0.deviceRead (key - deviceKey 0) n), s0))) ∧
    (read = (.error e, z) → near → more → runs (back { job with bad := some (job.bad.getD e) })) ∧
    (read = (.ok v, z) → ¬ near → ∃ u, exec (.homeAccess a.id) s = .next u ∧ u.mem = z.mem ∧
      u.slot g = { x with elems := some { job with got := got } } ∧ u.acks = z.acks ++ [{ id := z.fresh, owner := a.instr, kind := .data }]) ∧
    (read = (.ok v, z) → near → more → runs has) ∧
    (read = (.ok v, z) → near → ¬ more → job.bad = some e → vector ∨ job.instr = .mld p md k off ∨ job.instr = .vtbl p et d b k → raises e.1 e.2) ∧
    (read = (.ok v, z) → near → ¬ more → job.bad = none →
      (vector → ends fun y => y.eachElem q d w fun l =>
        if q.ove then convertElem q.ovt et rneMode (value l) else FRes.mk (value l) 0#6) ∧
      (job.instr = .mld p md k off → (∀ l ∈ lanes, below (value l / 2 ^ 32) = false) → ends fun y =>
        { y with m := y.m.set 0#16384 md.toNat (BitVec.ofNat 16384 (packElems 64 ((List.range (16 * x.groups)).map fun l =>
            if x.enabled q 32 l then
              value l % 2 ^ 32 + 2 ^ 32 * (if value l / 2 ^ 32 = 2 ^ 31 then 0 else value l / 2 ^ 32)
            else if q.zero then 0 else (x.moment md.toNat l).1 + 2 ^ 32 * (x.moment md.toNat l).2))) }) ∧
      (job.instr = .mld p md k off → ∀ l ∈ lanes, below (value l / 2 ^ 32) = true →
        (∀ m ∈ lanes, m < l → below (value m / 2 ^ 32) = false) →
        raises .mvneg (BitVec.ofNat 64 (1 * 2 ^ 48 + l * 2 ^ 32 + value l / 2 ^ 32))) ∧
      (job.instr = .vtbl p et d b k →
        let hdr := tableOf (toBytes 16 (got.get 0 0) ++ toBytes 16 (got.get 0 1))
        let c := x.kreg k.toNat
        let entry := fun (m : Nat) => c.cursor + 32 + 4 * m
        (hdr = none → ends fun y =>
          let z := y.eachElem q d w fun _ => FRes.mk (etFmt et).nan flInvalid
          { z with fflags := z.fflags ||| flInvalid }) ∧
        ∀ h, hdr = some h →
          let step := fun (l : Nat) => h.step et (x.elem b w l)
          let elems := (List.range (x.count w)).filter (x.enabled q w)
          let interpolated := fun (y : Slot) => y.eachElem q d w fun l => (step l).1.result et (step l).2 l got
          (job.entries = true → ends interpolated) ∧
          (job.entries = false →
            (∀ m, m ≤ h.n → c.top < entry m + 4 → (∀ l < m, entry l + 4 ≤ c.top) → raises .capBnd (BitVec.ofNat 64 (entry m))) ∧
            ((∀ m, m ≤ h.n → entry m + 4 ≤ c.top) → ∀ ps t,
              entryPlaces c (elems.flatMap fun l => (step l).1.entries l) { has with cur := g } = .ok (ps, t) →
              (ps = [] → t = { has with cur := g } → ends interpolated) ∧
              (ps ≠ [] → ∃ u l, exec (.homeAccess a.id) s = .next u ∧ u.flight = t.flight ++ l ∧
                l.map (fun r => r.kind) = ps.map (fun r => .elem r.1 r.2.key 4) ∧
                u.slot g = { t.slot g with elems := some { instr := job.instr, no := t.fresh, entries := true, got := got } }))))))

/-! ## Moments (R344 to R359) -/

/-- R346: a member that takes a covariance reads its correlation from the prefix, its own field, COVMODE or X7; an explicit
one that is no number of [-1, 1] raises MVRHO with X7's low word. R347 to R355: a rule writes the mean and variance of each
enabled element, a negative variance of a magnitude of at most 2^-20 of the sum of the reference's two magnitudes, exactly (R355), as 0
and -0 as +0, an infinite reference bounding everything (log 23), and sets the rule's flags; the lowest
element with another negative variance raises MVNEG, and nothing is written.

R347 to R354: the sequences of FP32 operations that the rules are, each operation rounded once to nearest even; a rule's
flags are those of all its operations. EXP2 and the normal density and distribution function are those of R83 to R85.

R350, R356, R357, R359: MNEG inverts the signs of means, MSET makes moments of two vectors or raises MVNEG, MMEAN, MVAR
and MCOLL give vectors, and MCHK summarises the enabled elements. -/
def Obligations.MomentRegisters : Prop :=
  (∀ (s : State) (p : Option Pfx) (cov : BitVec 3) (d a b : BitVec 4) (c : BitVec 5) (q : Pfx) (x : Slot) (rho : Option Nat) (code r7 : Nat),
    s.slot s.cur = x → x.groups ≠ 0 → q = p.getD zeroPfx → r7 = (x.xreg 7).toNat % 2 ^ 32 →
    code = (let own := if p.isSome ∧ cov = 0#3 then q.cov.toNat else cov.toNat
      if own = 4 then x.covmode.toNat else own) →
    rho = (if code = 0 then none else if code = 1 then some 0x3F800000 else if code = 2 then some 0xBF800000
      else if r7 % 2 ^ 31 = 0 then none else some r7) →
    let len := if p.isSome then 8 else 4
    let below := fun (v : Nat) => fpLt (Fp.ofBits fp32 v) (.fin false 0 0)
    let small := fun (r : MRes) => match r.ref with | some (u, w) => residue r.var u w | none => false
    let lanes := (List.range (16 * x.groups)).filter (x.enabled q 32)
    let writes := fun (f : Nat → MRes) (y : Slot) =>
      { y with m := y.m.set 0#16384 d.toNat (BitVec.ofNat 16384 (packElems 64 ((List.range (16 * x.groups)).map fun i =>
                 if x.enabled q 32 i then
                   (f i).mean + 2 ^ 32 * (if below (f i).var = true ∨ (f i).var = 2 ^ 31 then 0 else (f i).var)
                 else if q.zero then 0 else (x.moment d.toNat i).1 + 2 ^ 32 * (x.moment d.toNat i).2))),
               fflags := y.fflags ||| lanes.foldl (fun w i => w ||| (f i).fl) 0#6 }
    let rule := fun (i : Instr) (f : Nat → MRes) =>
      ((∀ j ∈ lanes, below (f j).var = true → small (f j) = true) → exec i s = .next (s.done len (writes f))) ∧
      (∀ j ∈ lanes, below (f j).var = true → small (f j) = false →
        (∀ l ∈ lanes, l < j → below (f l).var = true → small (f l) = true) →
        exec i s = s.traps len .mvneg (BitVec.ofNat 64 (j * 2 ^ 32 + (f j).var)))
    let e := fun (r : BitVec 4) (i : Nat) => x.moment r.toNat i
    (code < 3 ∨ isRho r7 = true →
      rule (.madd p cov d a b) (fun i => maddRule rho (e a i) (e b i) 0#6) ∧
      rule (.msub p cov d a b) (fun i => msubRule rho (e a i) (e b i) 0#6) ∧
      rule (.mmul p cov d a b) (fun i => mmulRule rho (e a i) (e b i) 0#6) ∧
      rule (.mfma p cov d a c) (fun i => mfmaRule rho (x.elem c 32 i) (e a i) (x.moment (if q.f4e then q.f4.toNat else d.toNat) i) 0#6)) ∧
    (3 ≤ code → isRho r7 = false → ∀ i ∈ [Instr.madd p cov d a b, .msub p cov d a b, .mmul p cov d a b, .mfma p cov d a c],
      exec i s = s.traps len .mvrho (BitVec.ofNat 64 r7)) ∧
    rule (.mscale p d a c) (fun i => mscaleRule (x.elem c 32 i) (e a i) 0#6) ∧
    rule (.mrelu p d a) (fun i => mreluRule (e a i) 0#6) ∧
    rule (.msig p d a) (fun i => msigRule (e a i) 0#6) ∧
    rule (.mexp p d a) (fun i => mexpRule (e a i) 0#6) ∧
    rule (.msqr p d a) (fun i => msqrRule (e a i) 0#6) ∧
    (∀ (v t u : Nat) (nv nt nu : Bool) (mv mt mu : Nat) (ev et eu : Int), Fp.ofBits fp32 v = .fin nv mv ev →
      Fp.ofBits fp32 t = .fin nt mt et → Fp.ofBits fp32 u = .fin nu mu eu → ∀ e0 : Int, e0 ≤ ev → e0 ≤ et → e0 ≤ eu →
      (residue v t u = true ↔
        2 ^ 20 * (mv * 2 ^ (ev - e0).toNat) ≤ mt * 2 ^ (et - e0).toNat + mu * 2 ^ (eu - e0).toNat)) ∧
    (∀ (v t u : Nat) (nt : Bool), Fp.ofBits fp32 t = .inf nt ∨ Fp.ofBits fp32 u = .inf nt → residue v t u = true)) ∧
  (∀ (mx vx my vy c : Nat) (rho : Option Nat),
    let f32 := fun (b : Nat) => FRes.mk b 0#6
    let op := fun (f : Fmt → Rnd → Fp → Fp → FRes) (x y : FRes) =>
      let u := f fp32 rneMode (Fp.ofBits fp32 x.bits) (Fp.ofBits fp32 y.bits)
      FRes.mk u.bits (x.fl ||| y.fl ||| u.fl)
    let of := fun (f : Nat → Flags → Seq32) (x : FRes) => FRes.mk (f x.bits 0#6).1 (x.fl ||| (f x.bits 0#6).2)
    let root := fun (x : FRes) =>
      let u := fpSqrt fp32 rneMode (Fp.ofBits fp32 x.bits)
      FRes.mk u.bits (x.fl ||| u.fl)
    let minus := fun (x : FRes) => FRes.mk (x.bits ^^^ 0x80000000) x.fl
    let add := op fpAdd
    let sub := op fpSub
    let mul := op fpMul
    let div := op fpDiv
    let one := f32 0x3F800000
    let two := f32 0x40000000
    let half := f32 0x3F000000
    let four := f32 0x40800000
    let log2e := f32 0x3FB8AA3B
    let pi8 := f32 0x3EC90FDB
    let is := fun (r : MRes) (m v : FRes) (ref : Option (FRes × FRes)) =>
      r = { mean := m.bits, var := v.bits, ref := ref.map fun e => (e.1.bits, e.2.bits), fl := m.fl ||| v.fl }
    let x := f32 mx
    let p := f32 vx
    let y := f32 my
    let q := f32 vy
    let sum := fun (r : MRes) (m v w : FRes) (rho : Option Nat) =>
      let t := add v w
      match rho with
      | none => is r m t none
      | some k =>
        let e := mul (mul (mul two (f32 k)) (root v)) (root w)
        is r m (add t e) (some (t, e))
    mx < 2 ^ 32 → vx < 2 ^ 32 → my < 2 ^ 32 → vy < 2 ^ 32 → c < 2 ^ 32 → (∀ k, rho = some k → k < 2 ^ 32) →
    sum (maddRule rho (mx, vx) (my, vy) 0#6) (add x y) p q rho ∧
    sum (msubRule rho (mx, vx) (my, vy) 0#6) (sub x y) p q (rho.map fun k => k ^^^ 0x80000000) ∧
    sum (mfmaRule rho c (mx, vx) (my, vy) 0#6) (add (mul (f32 c) x) y) (mul (mul (f32 c) (f32 c)) p) q rho ∧
    is (mscaleRule c (mx, vx) 0#6) (mul (f32 c) x) (mul (mul (f32 c) (f32 c)) p) none ∧
    (let m := mul x y
      let v := add (mul (mul x x) q) (mul (mul y y) p)
      let w := mul p q
      let r := mmulRule rho (mx, vx) (my, vy) 0#6
      match rho with
      | none => is r m (add v w) none
      | some k =>
        let e := mul (f32 k) (mul (root p) (root q))
        let u := add v (mul (add one (mul (f32 k) (f32 k))) w)
        let z := mul (mul two m) e
        is r (add m e) (add u z) (some (u, z))) ∧
    (vx % 2 ^ 31 = 0 → is (mreluRule (mx, vx) 0#6) (op fpMax x (f32 0)) (f32 0) none) ∧
    (vx % 2 ^ 31 ≠ 0 →
      let s := root p
      let a := div x s
      let u := of phiCdf a
      let d := of phiDensity a
      let m := add (mul x u) (mul s d)
      let t := add (mul (add (mul x x) p) u) (mul (mul x s) d)
      is (mreluRule (mx, vx) 0#6) m (sub t (mul m m)) (some (t, mul m m))) ∧
    (let k := root (add one (mul pi8 p))
      let m := div one (add one (of exp2 (minus (mul (div x k) log2e))))
      is (msigRule (mx, vx) 0#6) m (mul (mul m (sub one m)) (sub one (div one k))) none) ∧
    (let m := of exp2 (mul (add x (mul half p)) log2e);
      is (mexpRule (mx, vx) 0#6) m (mul (sub (of exp2 (mul p log2e)) one) (mul m m)) none) ∧
    (let s := mul x x;
      is (msqrRule (mx, vx) 0#6) (add s p) (add (mul (mul four s) p) (mul (mul two p) p)) none)) ∧
  (∀ (s : State) (p : Option Pfx) (d a : BitVec 4) (v w : BitVec 5) (r : Dst) (mode : BitVec 3) (q : Pfx) (x : Slot), s.slot s.cur = x →
    x.groups ≠ 0 → q = p.getD zeroPfx →
    let len := if p.isSome then 8 else 4
    let lanes := (List.range (16 * x.groups)).filter (x.enabled q 32)
    let below := fun (v : Nat) => fpLt (Fp.ofBits fp32 v) (.fin false 0 0)
    let e := fun (i : Nat) => x.moment a.toNat i
    let num := fun (b : Nat) => Fp.ofBits fp32 b
    let writes := fun (f : Nat → Nat × Nat) (y : Slot) =>
      { y with m := y.m.set 0#16384 d.toNat (BitVec.ofNat 16384 (packElems 64 ((List.range (16 * x.groups)).map fun i =>
          if x.enabled q 32 i then (f i).1 + 2 ^ 32 * (f i).2
          else if q.zero then 0 else (x.moment d.toNat i).1 + 2 ^ 32 * (x.moment d.toNat i).2))) }
    exec (.mneg p d a) s = .next (s.done len (writes fun i => ((BitVec.ofNat 32 (e i).1 ^^^ 0x80000000#32).toNat, (e i).2))) ∧
    ((∀ i ∈ lanes, below (x.elem w 32 i) = false) → exec (.mset p d v w) s = .next (s.done len (writes fun i =>
      (x.elem v 32 i, if x.elem w 32 i = 2 ^ 31 then 0 else x.elem w 32 i)))) ∧
    (∀ i ∈ lanes, below (x.elem w 32 i) = true → (∀ l ∈ lanes, l < i → below (x.elem w 32 l) = false) →
      exec (.mset p d v w) s = s.traps len .mvneg (BitVec.ofNat 64 (2 * 2 ^ 48 + i * 2 ^ 32 + x.elem w 32 i))) ∧
    exec (.mmean p v a) s = .next (s.done len fun y => y.eachElem q v 32 fun i => FRes.mk (e i).1 0#6) ∧
    exec (.mvar p v a) s = .next (s.done len fun y => y.eachElem q v 32 fun i => FRes.mk (e i).2 0#6) ∧
    (let k := (x.xreg 6).toNat % 2 ^ 32
      let g := rngOuts (if mode = 2#3 then 16 * x.groups else 0) x.rngLo x.rngHi
      let sd := fun (i : Nat) => fpSqrt fp32 rneMode (num (e i).2)
      let plus := fun (i : Nat) (t : FRes) =>
        let u := fpAdd fp32 rneMode (num (e i).1) (num t.bits)
        FRes.mk u.bits ((sd i).fl ||| t.fl ||| u.fl)
      exec (.mcoll p mode v a) s = .next (s.done len fun y => { y.eachElem q v 32 fun i =>
        if mode = 0#3 then FRes.mk (e i).1 0#6
        else if mode = 1#3 then plus i (fpMul fp32 rneMode (num k) (num (sd i).bits))
        else if mode = 2#3 then plus i (fpMul fp32 rneMode (num (sd i).bits) (num (normalOf 6#3 (g.1.getD i 0#64))))
        else if mode = 3#3 then FRes.mk (e i).2 0#6 else sd i with rngLo := g.2.1, rngHi := g.2.2 })) ∧
    (let nan := fun (b : Nat) => (num b).isNan
      let inf := fun (b : Nat) => match num b with | .inf _ => true | _ => false
      let odd := lanes.filter fun i => nan (e i).1 || inf (e i).1 || nan (e i).2 || inf (e i).2
      let bit := fun (i : Nat) (f : Nat → Bool) => if lanes.any f then 2 ^ i else 0
      exec (.mchk p r a) s = s.gives len r (BitVec.ofNat 64 (odd.headD (2 ^ 32 - 1) * 2 ^ 32 + odd.length * 2 ^ 16 +
        bit 4 (fun i => (e i).2 == 0) + bit 3 (fun i => inf (e i).2) + bit 2 (fun i => inf (e i).1) +
        bit 1 (fun i => nan (e i).2) + bit 0 (fun i => nan (e i).1)))))

/-! ## Tiles and the matrix array (R289 to R316) -/

/-- R293, R295 to R300, R306: what TILE instructions do by the state of their tiles: a reader of an EMPTY tile raises ZSHAPE, a
tile that is FILLING or DRAINING, or has changed in this cycle (R297), blocks; then an illegal ZDESC of a tile that the instruction names raises ZSHAPE; ZZERO and ZMOV
make their tile FILLING with its bytes until ZLD_COMPLETE, ZMOV's source DRAINING, ZREL's tile EMPTY; ZLD makes its tile FILLING with
its pieces on their way, ZST DRAINING with its bytes on their way. That the state comes before the descriptor is R299's order for
ZLD and ZST, and log 40's for the others; which of ZMOV's descriptors comes first is log 77's.

R295, R297, R299, R316, R407: a plain ZLD whose last piece has landed and been answered, a ZZERO or a ZMOV leaves its tile READY, or EMPTY when a piece
was poisoned; a DRAINING tile that no queued command reads becomes READY; no tile changes twice in a cycle; a departed tenant's
quadrant that is not saved is cleared, its ZDESC and its set kept (log 44's reading, unsafe). -/
def Obligations.TileRegisters : Prop :=
  (∀ (s t : State) (d : Dst) (zd za : BitVec 4) (ka : BitVec 3) (b : Src) (y : U64) (Q : Nat), s.calm → s.reads b = some y →
    Q = quadOf (coreOf s.cur) →
    let T := fun (u : State) (z : BitVec 4) => (u.quad Q).tile z.toNat
    let legal := fun (z : BitVec 4) => descLegal ((s.quad Q).desc z.toNat) z.toNat = true
    let fresh := fun (z : BitVec 4) => (T s z).since ≠ some s.now
    let free := fun (z : BitVec 4) => ((T s z).state = .empty ∨ (T s z).state = .ready) ∧ fresh z
    let busy := fun (z : BitVec 4) => (T s z).state = .filling ∨ (T s z).state = .draining ∨ ¬ fresh z
    let shape := fun (i : Instr) (n : Nat) (z : BitVec 4) => exec i s = s.traps 4 .zshape (BitVec.ofNat 64 (n * 2 ^ 8 + z.toNat))
    let makes := fun (i : Instr) (r : BitVec 4 → TileReg) (fills : Bool) => ∃ u, exec i s = .next u ∧ (∀ z, T u z = r z) ∧
      u.mem = s.mem ∧ u.slot s.cur = (s.noteIssue.slot s.cur).advance 4 ∧
      (u.quad Q).zlds.map (fun j => (j.z, j.bad)) = (s.quad Q).zlds.map (fun j => (j.z, j.bad)) ++ (if fills then [(zd.toNat, none)] else [])
    let only := fun (r : TileReg) (z : BitVec 4) => if z = zd then r else T s z
    exec (.zstate d za) s = s.gives 4 d (match (T s za).state with | .empty => 0#64 | .filling => 1#64 | .ready => 2#64 | .draining => 3#64) ∧
    (free zd → legal zd →
      makes (.zzero zd) (only { state := .filling, bytes := [], since := some s.now }) true ∧
      makes (.zrel zd) (only { state := .empty, bytes := [], since := some s.now }) false) ∧
    (free zd → ¬ legal zd → shape (.zzero zd) 1 zd ∧ shape (.zrel zd) 1 zd ∧ shape (.zld false zd ka b) 1 zd ∧ shape (.zld true zd ka b) 1 zd) ∧
    (busy zd → ∀ i ∈ [Instr.zzero zd, .zrel zd, .zld false zd ka b, .zld true zd ka b, .zst zd ka b], exec i s = s.waits) ∧
    (fresh zd → ((T s zd).state = .empty → shape (.zst zd ka b) 2 zd) ∧ ((T s zd).state = .ready → ¬ legal zd → shape (.zst zd ka b) 1 zd)) ∧
    (busy za → exec (.zmov zd za) s = s.waits) ∧
    (fresh za → (T s za).state = .empty → shape (.zmov zd za) 2 za) ∧
    (let ready := fresh za ∧ (T s za).state = .ready
     (ready → zd ≠ za → busy zd → exec (.zmov zd za) s = s.waits) ∧
     (ready → zd = za ∨ free zd → ¬ legal za → shape (.zmov zd za) 1 za) ∧
     (ready → zd = za ∨ free zd → legal za → ¬ legal zd → shape (.zmov zd za) 1 zd) ∧
     (ready → zd = za → legal za → exec (.zmov zd za) s = .next (s.noteIssue.past 4)) ∧
     (ready → zd ≠ za → free zd → legal za → legal zd → makes (.zmov zd za) (fun z =>
      if z = zd then { state := .filling, bytes := (T s za).bytes, since := some s.now }
      else if z = za then { T s za with state := .draining, since := some s.now } else T s z) true)) ∧
    (∀ x h st ps qs w, tileRows true Q zd.toNat ka y s.noteIssue = .ok ((h, st, ps), t) →
      (if x = true ∧ y = 0#64 then streamPlaces h st (s.cap ka) t = .ok (qs, w) else qs = ps ∧ w = t) →
      ∃ u, exec (.zld x zd ka b) s = .next u ∧ T u zd = { state := .filling, bytes := [], since := some s.now } ∧ u.mem = s.mem ∧
        (u.flight.drop s.flight.length).map (fun a => a.kind) = qs.filterMap fun e =>
          match e.1 with | .mem key _ _ => some (.zpiece Q zd.toNat e.2.2.1 key e.2.1) | _ => none) ∧
    (∀ h st ps, tileRows false Q zd.toNat ka y s.noteIssue = .ok ((h, st, ps), t) →
      ∃ u, exec (.zst zd ka b) s = .next u ∧ T u zd = { T s zd with state := .draining, since := some s.now } ∧ u.mem = s.mem ∧
        (u.flight.drop s.flight.length).map (fun a => a.writes) = ps.filterMap fun e =>
          match e.1 with | .mem key _ _ => some (writesAt key (toBytes e.2.1 (tileNum (T s zd).bytes e.2.2.1 e.2.1))) | _ => none)) ∧
  (∀ (s : State) (Q z : Nat) (j : ZldJob),
    ((s.quad Q).zlds = [j] → j.z = z → j.expand = none → s.flight = [] → s.owed j.instr = false → ((s.quad Q).tile z).since ≠ some s.now →
      ∃ u, exec (.zldComplete Q z) s = .next u ∧ (u.quad Q).zlds = [] ∧ u.mem = s.mem ∧
        (j.bad = none → (u.quad Q).tile z = { (s.quad Q).tile z with state := .ready, since := some s.now } ∧ u.slots = s.slots) ∧
        (∀ pa, j.bad = some pa → (u.quad Q).tile z = { state := .empty, bytes := [], since := some s.now })) ∧
    (((s.quad Q).tile z).state = .draining → ((s.quad Q).tile z).since ≠ some s.now →
      (∀ c ∈ (s.quad (s.lead Q)).queue, (Q, z) ∉ s.sources c) → exec (.tileDrainDone Q z) s = .next (s.tileTo Q z .ready)) ∧
    (∀ a b, (s.quad Q).leaving = some (a, b) → s.commandsOn Q = false → (s.quad Q).tiles = [] → s.poison = [] →
      s.tenantClass (s.partOf (2 * Q)) a ≠ 2 → (s.quad Q).keep.get false a = false → s.savedTiles = [] →
      ∃ u, exec (.tileStateDrain Q) s = .next u ∧ u.mem = s.mem ∧ u.savedTiles = [] ∧ (∀ r, r ≠ Q → u.quad r = s.quad r) ∧
        u.quad Q = { zdesc := (s.quad Q).zdesc, fused := (s.quad Q).fused, keep := (s.quad Q).keep.set false a false,
                     tiles := (List.range 16).map fun z => (z, { since := some s.now }),
                     accs := (List.range 8).map fun y => (y, { valid := false, validI := false }) }))

/-- R301 to R303, R306, R309, R310, R315: a command of the array that may issue enters the queue of its set with what it
captures, its tiles DRAINING or FILLING and its issued view moved on; MMA and MMAM hold their slot; the checks of MMA hold for
every part of a fused set, and a broken one raises its trap. The number in a WFMT with reason 2 is log 41's reading, parts of
different N are log 42's.

R314: QFUSE of quadrants that the partition owns, that stand single and whose queues are empty joins them and empties their
planes; QSPLIT of a set undoes it; both raise PRIV in user mode. TVAL of a quadrant of another partition is free (log 25). -/
def Obligations.MatrixIssueAndFusion : Prop :=
  (∀ (s : State) (p : Option Pfx) (moment zero : Bool) (y ya : BitVec 3) (z : BitVec 4) (b : Src) (v : U64) (Q : Nat) (d : U64) (h : Shape),
    s.reads b = some v → Q = quadOf (coreOf s.cur) → d = (s.quad Q).desc z.toNat → h = shapeOf d →
    let quad := s.quad Q
    let state := fun (q z : Nat) => ((s.quad q).tile z).state
    let fresh := fun (q z : Nat) => ((s.quad q).tile z).since ≠ some s.now
    let room := (s.quad (s.lead Q)).queue.length < 16
    let enters := fun (i : Instr) (c : Cmd) (more : State → Prop) => ∃ u e, exec i s = .next u ∧ u.mem = s.mem ∧
      (u.quad (s.lead Q)).queue = (s.quad (s.lead Q)).queue ++ [e] ∧ e.cmd = c ∧ e.quad = Q ∧ e.who.slot = s.cur ∧ more u
    let ends := fun (n : Nat) (u : State) => u.slot s.cur = (s.noteIssue.slot s.cur).advance n
    let float := fun (f : Nat) => f ∈ [0, 1, 3, 4]
    let kk := if descSparse d then 2 * h.cols else h.cols
    (room → enters .wswap .wswap fun u => ends 4 u ∧ (u.quad Q).activeI = quad.shadowI ∧ (u.quad Q).shadowI = quad.activeI) ∧
    (¬ room → exec .wswap s = s.waits ∧ exec (.yzero moment y) s = s.waits) ∧
    (room → enters (.yzero moment y) (.yzero y.toNat moment) fun u => ends 4 u ∧
      ((u.quad Q).acc y.toNat).validI = true ∧ ((u.quad Q).acc y.toNat).momentI = moment) ∧
    (room → (quad.acc ya.toNat).validI = true → enters (.ymov y ya) (.ymov y.toNat ya.toNat) fun u => ends 4 u ∧
      ((u.quad Q).acc y.toNat).validI = true ∧ ((u.quad Q).acc y.toNat).momentI = (quad.acc ya.toNat).momentI) ∧
    ((quad.acc ya.toNat).validI = false → exec (.ymov y ya) s =
      s.traps 4 .engErr (BitVec.ofNat 64 (ya.toNat * 2 ^ 16 + 4 * 2 ^ 8 + (quad.acc ya.toNat).code))) ∧
    (room → descLegal d z.toNat = true → state Q z.toNat = .ready → fresh Q z.toNat →
      (descSparse d = true → state Q (descMeta d) = .ready ∧ fresh Q (descMeta d) ∧ descMeta d ≠ z.toNat ∧ h.fmt ≠ 5) →
      (float h.fmt ∨ h.fmt = 5) → kk ≤ 64 →
      enters (.wload z) (.wload z.toNat d) fun u => ends 4 u ∧ ((u.quad Q).tile z.toNat).state = .draining ∧
        (descSparse d = true → ((u.quad Q).tile (descMeta d)).state = .draining) ∧
        (u.quad Q).shadowI = some { fmt := h.fmt, k := kk, n := h.rows, sparse := descSparse d, mant := h.m }) ∧
    (state Q z.toNat = .empty → fresh Q z.toNat → descLegal d z.toNat = true →
      exec (.wload z) s = s.traps 4 .zshape (BitVec.ofNat 64 (2 * 2 ^ 8 + z.toNat))) ∧
    (room → descLegal d z.toNat = true → descPair d = (quad.acc ya.toNat).momentI → (quad.acc ya.toNat).validI = true →
      (float h.fmt ∨ h.fmt = 5 ∨ h.fmt = 2) → h.cols ≤ 64 →
      (∀ i ∈ (if (quad.acc ya.toNat).momentI then [z.toNat, z.toNat + 8] else [z.toNat]),
        (state Q i = .empty ∨ state Q i = .ready) ∧ fresh Q i) → (s.slot s.cur).mode (p.getD zeroPfx) ≠ 5 →
      enters (.ydrain p zero z ya b) (.ydrain z.toNat ya.toNat d (v.extractLsb' 0 32) (quad.acc ya.toNat).momentI zero
          ((s.slot s.cur).mode (p.getD zeroPfx)) (p.getD zeroPfx).sat []) fun u => ends (if p.isSome then 8 else 4) u ∧
        ∀ i ∈ (if (quad.acc ya.toNat).momentI then [z.toNat, z.toNat + 8] else [z.toNat]), ((u.quad Q).tile i).state = .filling) ∧
    (let zs := if moment then [z.toNat, z.toNat + 8] else [z.toNat]
      let mma := if moment then Instr.mmam y z else Instr.mma y z
      let shape := fun (l : Nat) => shapeOf ((s.quad l).desc z.toNat)
      let legal := ∀ l ∈ s.kParts Q, descLegal ((s.quad l).desc z.toNat) z.toNat = true ∧
        (moment = true → descPair ((s.quad l).desc z.toNat) = true)
      let tiles := ∀ l ∈ s.kParts Q, ∀ i ∈ zs, state l i = .ready ∧ fresh l i
      let accs := ∀ t ∈ s.nParts Q, ((s.quad t).acc y.toNat).momentI = moment
      let planes := ∀ r ∈ s.planesOf Q, ∃ i, (s.quad r.2).activeI = some i ∧ (shape r.1).cols = i.k ∧
        (if moment then ((shape r.1).fmt = 0 ∨ (shape r.1).fmt = 1) ∧ i.fmt ≠ 5
         else float (shape r.1).fmt ∧ i.fmt ≠ 5 ∨ (shape r.1).fmt = 5 ∧ i.fmt = 5)
      let parts := ∀ u l, s.kParts Q = [u, l] → (shape u).cols = 64 ∧ (shape u).rows = (shape l).rows
      (legal → tiles → accs → (∀ t ∈ s.nParts Q, ((s.quad t).acc y.toNat).validI = true) → planes → parts → room →
        enters mma (.mma y.toNat z.toNat ((s.kParts Q).map fun l => (s.quad l).desc z.toNat) moment) fun u =>
          (u.slot s.cur).wait = .array ∧ (u.slot s.cur).pc = (s.slot s.cur).pc ∧
          ∀ l ∈ s.kParts Q, ∀ i ∈ zs, ((u.quad l).tile i).state = .draining) ∧
      (legal → tiles → (∃ t ∈ s.nParts Q, ((s.quad t).acc y.toNat).momentI ≠ moment) →
        exec mma s = s.traps 4 .wfmt (BitVec.ofNat 64 (4 * 2 ^ 8 + y.toNat))) ∧
      (legal → tiles → accs → (∀ t ∈ s.nParts Q, ((s.quad t).acc y.toNat).validI = true) →
        (∃ r ∈ s.planesOf Q, (s.quad r.2).activeI = none) → exec mma s = s.traps 4 .wfmt (BitVec.ofNat 64 (2 * 2 ^ 8 + y.toNat))))) ∧
  (∀ (s : State) (a : Src) (v : U64), s.reads a = some v →
    let cl := clusterOf (coreOf s.cur)
    let named := (List.range 4).filter fun i => v.getLsbD i
    let fine := v ∈ [3#64, 12#64, 5#64, 10#64, 15#64]
    let makes := fun (i : Instr) (m : BitVec 4) => ∃ u, exec i s = .next u ∧ u.mem = s.mem ∧ ∀ j < 4, u.quad (4 * cl + j) =
      if v.getLsbD j then { s.quad (4 * cl + j) with active := {}, shadow := {}, activeI := none, shadowI := none, fused := m }
      else s.quad (4 * cl + j)
    ((s.slot s.cur).user = true → exec (.qfuse a) s = s.traps 4 .priv (wordVal (encode (.qfuse a))) ∧
      exec (.qsplit a) s = s.traps 4 .priv (wordVal (encode (.qsplit a)))) ∧
    ((s.slot s.cur).user = false → ¬ fine → exec (.qfuse a) s = s.traps 4 .illop (wordVal (encode (.qfuse a))) ∧
      exec (.qsplit a) s = s.traps 4 .illop (wordVal (encode (.qsplit a)))) ∧
    ((s.slot s.cur).user = false → fine → (∀ i ∈ named, s.ownsQuad (s.partOfSlot s.cur) (4 * cl + i) = true ∧
        (s.quad (4 * cl + i)).queue = []) →
      ((∀ i ∈ named, (s.quad (4 * cl + i)).fused = 0#4) → makes (.qfuse a) (v.extractLsb' 0 4)) ∧
      ((∀ i ∈ named, (s.quad (4 * cl + i)).fused = v.extractLsb' 0 4) → makes (.qsplit a) 0#4)))

/-- R79, R81, R303, R304, R306, R309, R310: the oldest command of a queue executes: WSWAP exchanges the planes, YZERO and
YMOV write an accumulator, WLOAD fills the shadow plane, MMA adds to each element the groups of products of its row and column,
MMAM does so for both planes, its slot going on if it still waits (R308), and YDRAIN writes the scaled plane in the tile's format.
Nothing is asked of a cycle in which a tile has changed its state already (R297), nor of an array with an error (R313).

R79, R81: what a group of products adds to an accumulator element: exactly their sum, rounded once with the element; a NaN
factor makes it a NaN, and so do a zero times an infinity and infinities of both signs, which owe INVALID to the drain; infinities
of one sign make it that infinity. In moment mode the weight enters squared. The products of a part are those of the row's and
the column's elements, 32 to a group. A sum that is exactly 0 is +0 by log 78; that a NaN factor owes nothing, a signalling one
neither, is log 79; that the addition's own INVALID is owed is log 26.

R306, R307, R313: an MMAM that meets a negative variance halts its queue: every queued command is discarded, the accumulator's VALID
is cleared with code 3, unless an earlier record has cleared it, and the slot that waited goes on. A command that meets an error of the
array's halts it with code 5 (that an error of an accumulator does is log 25). -/
def Obligations.MatrixExecution : Prop :=
  (∀ (s : State) (Q : Nat) (c : CmdEntry) (rest : List CmdEntry), (s.quad Q).queue = c :: rest → s.poison = [] → c.quad = Q →
    s.lead Q = Q → s.quiet [c] = true → (∀ q ∈ s.setQuads Q, (s.quad q).residue = false) →
    let quad := s.quad Q
    let ends := fun (e : Instr) (more : State → Prop) =>
      ∃ u, exec e s = .next u ∧ (u.quad Q).queue = rest ∧ u.mem = s.mem ∧ more u
    (c.cmd = .wswap → ends (.wswapExecute Q) fun u => (u.quad Q).active = quad.shadow ∧ (u.quad Q).shadow = quad.active ∧ u.slots = s.slots) ∧
    (∀ y m, c.cmd = .yzero y m → ends (.yzeroExecute Q) fun u => u.slots = s.slots ∧ (u.quad Q).acc y =
      { quad.acc y with mean := [], var := [], invMean := [], invVar := [], valid := true, moment := m, code := 0 }) ∧
    (∀ y ya, c.cmd = .ymov y ya → ends (.ymovExecute Q) fun u => u.slots = s.slots ∧ (u.quad Q).acc y =
      { quad.acc ya with valid := true, code := 0, validI := (quad.acc y).validI, momentI := (quad.acc y).momentI }) ∧
    (∀ z d, c.cmd = .wload z d → descSparse d = false → ends (.wloadExecute Q) fun u => u.slots = s.slots ∧
      ((u.quad Q).tile z).state = .ready ∧ (u.quad Q).shadow = { cols := (shapeOf d).cols, bytes := (quad.tile z).bytes, metaBytes := [], info := some { fmt := (shapeOf d).fmt, k := (shapeOf d).cols, n := (shapeOf d).rows, sparse := false, mant := (shapeOf d).m } }) ∧
    (∀ y z ds m, c.cmd = .mma y z ds m → (m = true → ∀ l ∈ (s.kParts Q).zip ds,
        negativeIn (shapeOf l.2) ((s.quad l.1).tile (z + 8)).bytes = false) →
      let terms := fun (t i r n : Nat) => ((s.kParts Q).zip ds).flatMap fun l =>
        partTerms (shapeOf l.2) ((s.quad l.1).tile i).bytes (s.quad (cross l.1 t)).active r n
      ends (if m then .mmamExecute Q else .mmaExecute Q) fun u =>
        (∀ t ∈ s.nParts Q, ∀ r n, r < (shapeOf (ds.headD 0#64)).rows → ds ≠ [] → n < 64 →
          ((u.quad t).acc y).mean.get 0#32 (64 * r + n) = BitVec.ofNat 32 ((terms t z r n).foldl (addGroup false)
            ((((s.quad t).acc y).mean.get 0#32 (64 * r + n)).toNat, ((s.quad t).acc y).invMean.get false (64 * r + n))).1 ∧
          ((u.quad t).acc y).var.get 0#32 (64 * r + n) = if m then BitVec.ofNat 32 ((terms t (z + 8) r n).foldl (addGroup true)
            ((((s.quad t).acc y).var.get 0#32 (64 * r + n)).toNat, ((s.quad t).acc y).invVar.get false (64 * r + n))).1
            else ((s.quad t).acc y).var.get 0#32 (64 * r + n)) ∧
        ((s.slot c.who.slot).tid = c.who.tid → (s.slot c.who.slot).wait = .array →
          u.slot c.who.slot = { (s.slot c.who.slot).advance 4 with wait := .none }) ∧
        ((s.slot c.who.slot).tid ≠ c.who.tid → u.slots = s.slots) ∧
        ∀ l ∈ s.kParts Q, ((u.quad l).tile z).state = .ready) ∧
    (∀ z y d sc mode sat ds, c.cmd = .ydrain z y d sc false false mode sat ds → (shapeOf d).fmt ≠ 5 →
      let h := shapeOf d
      ends (.ydrainExecute Q) fun u => ((u.quad Q).tile z).state = .ready ∧ (u.quad Q).acc y = quad.acc y ∧
        (∀ r k, r < h.rows → k < h.cols → ds = [] → fmtBits h.fmt ≠ 0 →
          tileNum ((u.quad Q).tile z).bytes ((h.cols * r + k) * (fmtBits h.fmt / 8)) (fmtBits h.fmt / 8) =
            (fpConvert fp32 (fmtOf h.fmt) { mode := mode, sat := sat } (fpMul fp32 rneMode
              (Fp.ofBits fp32 ((quad.acc y).mean.get 0#32 (64 * r + k)).toNat) (Fp.ofBits fp32 sc.toNat)).bits).bits % 2 ^ fmtBits h.fmt))) ∧
  (∀ (sq : Bool) (c : Nat) (owed : Bool) (terms : List (Fp × Fp)),
    let add := fun (g : Fp) => fpAdd fp32 rneMode (Fp.ofBits fp32 c) g
    let gives := fun (g : Fp) (due : Bool) => addGroup sq (c, owed) terms = ((add g).bits, owed || due || (add g).fl.getLsbD 0)
    let nan := fun (p : Fp × Fp) => p.1.isNan = true ∨ p.2.isNan = true
    let zero := fun (x : Fp) => ∃ n e, x = .fin n 0 e
    let inf := fun (x : Fp) => ∃ n, x = .inf n
    let lost := fun (p : Fp × Fp) => inf p.1 ∧ zero p.2 ∨ zero p.1 ∧ inf p.2
    let sign := fun (x : Fp) => match x with | .fin n _ _ => n | .inf n => n | .nan _ => false
    let neg := fun (p : Fp × Fp) => sign p.1 != (sign p.2 && !sq)
    let infinite := fun (p : Fp × Fp) => ¬ nan p ∧ ¬ lost p ∧ (inf p.1 ∨ inf p.2)
    let mag := fun (p : Fp × Fp) => match p.1, p.2 with | .fin _ m _, .fin _ w _ => if sq then m * w * w else m * w | _, _ => 0
    let ex := fun (p : Fp × Fp) => match p.1, p.2 with | .fin _ _ e, .fin _ _ f => (if sq then e + 2 * f else e + f : Int) | _, _ => 0
    let low := (terms.map ex).foldl min 0
    let total : Int := (terms.map fun p => (if neg p then -1 else 1) * ((mag p * 2 ^ (ex p - low).toNat : Nat) : Int)).sum
    let plus := ∃ p ∈ terms, infinite p ∧ neg p = false
    let minus := ∃ p ∈ terms, infinite p ∧ neg p = true
    ((∃ p ∈ terms, lost p) ∨ plus ∧ minus → gives (.nan false) true) ∧
    ((∃ p ∈ terms, nan p) → (∀ p ∈ terms, ¬ lost p) → ¬ (plus ∧ minus) → gives (.nan false) false) ∧
    ((∀ p ∈ terms, ¬ nan p ∧ ¬ lost p) → plus → ¬ minus → gives (.inf false) false) ∧
    ((∀ p ∈ terms, ¬ nan p ∧ ¬ lost p) → minus → ¬ plus → gives (.inf true) false) ∧
    ((∀ p ∈ terms, ¬ nan p ∧ ¬ lost p) → ¬ plus → ¬ minus → gives (.fin (decide (total < 0)) total.natAbs low) false) ∧
    ∀ (h : Shape) (t : SMap Byte) (p : Plane) (i : PlaneRec) (r n g : Nat), p.info = some i →
      (i.n ≤ n → partTerms h t p r n = []) ∧ (n < i.n → (partTerms h t p r n).length = (i.k + 31) / 32) ∧
      (n < i.n → 32 * g < i.k → (partTerms h t p r n).getD g [] =
        ((List.range i.k).filter fun k => k / 32 = g).filterMap fun k =>
          (p.weight i n k).map fun w => (tileElem h.fmt h.rb h.m t r k, w))) ∧
  (∀ (s : State) (Q y z : Nat) (d : U64) (c : CmdEntry) (rest : List CmdEntry), (s.quad Q).queue = c :: rest → s.poison = [] → c.quad = Q →
    (s.quad Q).fused = 0#4 → c.cmd = .mma y z [d] true → s.quiet (c :: rest) = true → (s.slot c.who.slot).tid = c.who.tid →
    (s.slot c.who.slot).wait = .array →
    let old := (s.quad Q).acc y
    let halts := fun (code : Nat) (more : State → Prop) => ∃ u, exec (.mmamExecute Q) s = .next u ∧ (u.quad Q).queue = [] ∧
      ((u.quad Q).acc y).valid = false ∧ ((u.quad Q).acc y).validI = false ∧ ((u.quad Q).acc y).code = (if old.valid then code else old.code) ∧
      ((u.quad Q).acc y).mean = old.mean ∧ (u.slot c.who.slot).wait = .none ∧ u.mem = s.mem ∧ more u
    ((s.quad Q).residue = false → negativeIn (shapeOf d) ((s.quad Q).tile (z + 8)).bytes = true →
      halts 3 fun u => rest = [] → ((u.quad Q).tile z).state = .ready) ∧
    ((s.quad Q).residue = true → halts 5 fun u => (u.quad Q).residue = false ∧ (u.slot c.who.slot).mcheck ≠ none))

/-! ## Engine commands (R317 to R339) -/

/-- R138, R240, R319, R320: a calm slot's engine instruction reads the card in a step of its own, and again while the queue that it goes to
is full; it then counts it in its group, writes STATE 2, or 1 while its guard is open, and puts it at the end of its class's queue of
the engine for its kind; in slot 11 it raises ILLOP.

R325: EWAIT and ESTAT push the card's STATE and ERR, EWAIT acquiring; an error record of the slot is removed and raised as
ENGERR instead; EWAIT waits while the card is outstanding; in slot 11 both raise ILLOP. -/
def Obligations.CardIssue : Prop :=
  (∀ (s t : State) (ka : BitVec 3) (ge sense : Bool) (g : BitVec 4) (key addr : Nat) (keep : Bool) (va : Option Nat) (x : Slot)
    (kind e : Nat) (i : Instr) (o : Seen) (k0 k1 : Cap), s.slot s.cur = x →
    (kind, i) ∈ [(0, Instr.copy ka ge sense g), (1, .xform ka ge sense g), (2, .coll ka ge sense g), (3, .trace ka ge sense g)] →
    k0 = { tag := o.tags.getD 2 false, bits := BitVec.ofNat 128 (leAt o.bytes 32 16) } →
    k1 = { tag := o.tags.getD 3 false, bits := BitVec.ofNat 128 (leAt o.bytes 48 16) } →
    (let c := coreOf s.cur; e = if kind = 0 ∧ (k0.space ∈ [4, 5] ∨ k1.space ∈ [4, 5]) then 400 + 4 * dieOf c + c % 4
        else if kind = 0 then clusterOf c else if kind = 1 then 100 + clusterOf c else if kind = 2 then 300 + dieOf c else 200 + clusterOf c) →
    (slotNo s.cur = 11 → exec i s = s.traps 4 .illop (wordVal (encode i))) ∧
    (slotNo s.cur ≠ 11 → s.calm → x.saw 0 = none →
      cardAt (s.cap ka) [0, 1, 3] [1, 2] s.noteIssue = .ok ((key, keep, .mem key keep va, addr), t) →
      exec i s = s.keeps t 0 (s.object key keep va addr 64)) ∧
    (slotNo s.cur ≠ 11 → s.calm → x.saw 0 = some o →
      let q := fun (u : State) => (u.engine e).queues.get [] (s.classOf s.cur)
      let bound := if ge then x.guardNow g else none
      let again := s.noteIssue.modSlot s.cur fun y => { y with seen := [] }
      let counted := s.noteIssue.liveNow (s.partOfSlot s.cur) x.tenant x.group 1 (coreOf s.cur)
      (32 ≤ (q s).length → exec i s = .next (s.stepped again)) ∧
      ((q s).length < 32 → counted.homeHeld (homeOf o.loc.key) = false → ∃ u c, exec i s = .next u ∧ q u = q s ++ [c] ∧ c.bytes = o.bytes ∧
        c.cap0 = k0 ∧ c.cap1 = k1 ∧ c.addr = o.loc.addr ∧
        c.issuer = some (s.cur, x.tid) ∧ c.tenant = x.tenant ∧ c.part = s.partOfSlot s.cur ∧ c.group = x.group ∧
        c.guard = (if ge then some (g.toNat, sense) else none) ∧ c.bound = bound ∧ u.slot s.cur = (again.slot s.cur).advance 4 ∧
        (o.loc.va = none → ∀ a, u.byte a = if a = o.loc.key + 2 then (if ge ∧ bound = none then 1#8 else 2#8) else counted.byte a)))) ∧
  (∀ (s t : State) (d : Dst) (ka : BitVec 3) (key addr : Nat) (keep : Bool) (va : Option Nat) (x : Slot), s.slot s.cur = x →
    (slotNo s.cur = 11 → exec (.estat d ka) s = s.traps 4 .illop (wordVal (encode (.estat d ka))) ∧
      exec (.ewait d ka) s = s.traps 4 .illop (wordVal (encode (.ewait d ka)))) ∧
    (slotNo s.cur ≠ 11 → cardAt (s.cap ka) [0] [1] s.noteIssue = .ok ((key, keep, .mem key keep va, addr), t) →
    let st := (t.modSlot s.cur fun y => y.result d (BitVec.ofNat 64 (ofBytes (s.bytes (key + 2) 2))))
    (s.calm → x.errs = [] → exec (.estat d ka) s = .next (st.past 4) ∧
      exec (.ewait d ka) s = .next ((st.modCore (coreOf s.cur) fun c => { c with rcache := [] }).past 4)) ∧
    (∀ w rest, x.errs = w :: rest → x.handles .engErr = true →
      let u := Host.Outcome.next ((s.noteIssue.modSlot s.cur fun y => { y with errs := rest }).modSlot s.cur fun y => y.enter .engErr w 4)
      exec (.estat d ka) s = u ∧ exec (.ewait d ka) s = u) ∧
    (x.errs = [] → (∃ c ∈ s.cardsOf s.cur, c.addr = addr) → exec (.ewait d ka) s = s.waits)))

/-- R321, R322: the class that an engine takes next is 0 while its head is ready and its rate allows (that the rate is that of
the head's partition is log 29); the head of the class taken starts: a discarded card ends in STATE 6, one that a check refuses
in STATE 5 with its code and memory as it was but for its STATE, another runs. R327, R328: a contiguous COPY moves its bytes in
increasing order in pieces aligned at both ends, each read and then written (the model's cut, log 91). When a card writes STATE 2
and 3 is log 47's reading, when a discarded one ends log 49's.

R322, R328, R407, R428: an access of a card is first sent to its home, once those before it of its direction are and what it
writes is there, or fails the card where its place does; at its home a read puts its bytes into the card's buffer, a write puts
the card's bytes into memory, every other byte staying as it is, and a poisoned line fails the card with 0x05. The card goes on once
the response has come, at once where it crosses no link. What another package answers is log 6's.

R240, R323, R332, R336: a card with every access performed and answered, a discarded and a failed one end in three steps, each once its
home performs it: the error record of a failure and the step on the completion object, a step that fails giving its own record and
code; then STATE 4, 6 or 5 with ERR; then its group's LIVE one lower, and the card leaves. A collective that has waited 2^31 cycles
fails with 0x39 and cannot go on; a codebook load writes the bank that does not hold its slot's newest generation. What a card adds to a
barrier is log 46's reading. -/
def Obligations.CardExecution : Prop :=
  (∀ (s : State) (e cls used : Nat) (c : Card), s.readyHead e cls = some c →
    let popped := s.modEngine e fun x =>
      { x with queues := x.queues.set [] cls (x.queues.get [] cls).tail, rrClass := if cls = 0 then x.rrClass else cls, rrUsed := used,
               tokens := if cls = 0 then x.tokens - 1 else x.tokens }
    let runs := fun (u : State) (d : Card) => u.modEngine e fun x => { x with running := x.running ++ [d] }
    let d := { c with started := s.now }
    let v := popped.cardState d [3#8]
    (cls = 0 → 1 ≤ (s.engine e).tokens → s.nextClass e = some (0, (s.engine e).rrUsed) ∧
      ∀ k, k ≠ 0 → exec (.cardStart e k) s = .fault (.notEnabled "CARD_START")) ∧
    (s.nextClass e = some (cls, used) →
      (c.discarded = true → exec (.cardStart e cls) s = .next (runs popped { d with outcome := 6 })) ∧
      (c.discarded = false → ∀ code, c.refused s.pkgIndex = some code → exec (.cardStart e cls) s = .next (runs v { d with err := code })) ∧
      (c.discarded = false → c.refused s.pkgIndex = none → exec (.cardStart e cls) s = .next ((runs v d).keepCard d))) ∧
    (c.formed = false → c.refused s.pkgIndex = some 0x01) ∧
    (c.formed = true → c.kind = engineKind c.engine → c.bodyOk s.pkgIndex = true →
      (c.role0 ≠ 0 → c.cap0.tag = false → c.refused s.pkgIndex = some 0x10) ∧
      (c.role0 ≠ 0 → c.cap0.tag = true → c.cap0.space ∉ c.spacesOf 0 → c.refused s.pkgIndex = some 0x11) ∧
      (c.role0 = 1 → c.cap0.tag = true → c.cap0.space ∈ c.spacesOf 0 → c.cap0.has 0 = false → c.refused s.pkgIndex = some 0x12)) ∧
    ∀ n, c.kind = 0 → c.mode = 0 → c.body 0 = n → n ≠ 0 → c.err = 0 → c.last = false → c.waits = false → c.ops = [] → c.stage = 0 →
      let from' := c.cap0.cursor
      let to' := c.cap1.cursor
      let r := cardAdvance 4 (c, s)
      ∃ ps : List (Nat × Nat), (ps.map Prod.snd).sum = n ∧
        (∀ i < ps.length, (ps.getD i (0, 0)).1 = ((ps.take i).map Prod.snd).sum) ∧
        (∀ p ∈ ps, 1 ≤ p.2 ∧ p.2 ≤ 64 ∧ (from' + p.1) % p.2 = 0 ∧ (to' + p.1) % p.2 = 0) ∧
        let accs : List CardAcc := ps.flatMap fun p =>
          [{ cap := 0, v := from' + p.1, n := p.2, write := false }, { cap := 1, v := to' + p.1, n := p.2, write := true }]
        (∀ code, s.checkAccs c accs = some code → r = ({ c with err := code }, s)) ∧
        (s.checkAccs c accs = none → r.2 = { s with fresh := s.fresh + r.1.ops.length } ∧ r.1.err = 0 ∧ r.1.last = true ∧
          r.1.result = n ∧ r.1.delivered = n ∧ r.1.ops.map (fun o => (o.cap, o.v, o.n, o.write)) =
            accs.map fun a => (a.cap, a.v, a.n, a.write))) ∧
  (∀ (s : State) (c : Card) (o : CardOp), (∀ a ∈ s.flight, a.id ≠ o.id) → s.cardOp? o.id = some (c, o) → s.absent = [] →
    let gone := c.ops.filter fun x => x.id ≠ o.id
    let first := ∃ x ∈ c.before o, x.write = o.write ∧ x.place = none
    let empty := o.write = true ∧ (c.holdsAll o.pos o.n = false ∨ s.owed c.id = true)
    let next := fun (u : State) => exec (.homeAccess o.id) s = .next u
    let answered : State := { s with fresh := s.fresh + 1 }
    (o.place = none → ¬ first → ¬ empty →
      (∀ code, s.cardPlace c (c.cap o.cap) o.v o.n o.write = .error code → next (s.putCard { c with err := code, ops := gone })) ∧
      (∀ p, s.cardPlace c (c.cap o.cap) o.v o.n o.write = .ok p → ∃ u, next u ∧ u.mem = s.mem ∧ u.flight = s.flight ∧
        u.engines = (s.putCard { c with
          ops := c.ops.map fun x => if x.id = o.id then { x with place := some p, lvl := s.leafOf c o p } else x }).engines)) ∧
    (o.place = none → first ∨ empty → exec (.homeAccess o.id) s = .fault (.notEnabled "HOME_ACCESS")) ∧
    (∀ p, o.place = some p → s.cardOpDue c o p = false → exec (.homeAccess o.id) s = .fault (.notEnabled "HOME_ACCESS")) ∧
    ∀ key keep va, o.place = some (.mem key keep va) → s.cardOpDue c o (.mem key keep va) = true → s.hostGone key = false →
      let near := s.pathFrom (homeOf key) c.core = []
      let has := { c with ops := gone }.put o.pos (s.bytes key o.n)
      (o.write = false → s.poisonIn key o.n = none →
        (near → s.owed c.id = false → next (answered.keepCard has)) ∧
        (¬ near → ∃ u, next u ∧ u.mem = s.mem ∧ u.engines = (s.putCard has).engines ∧
          u.acks = s.acks ++ [{ id := s.fresh, owner := c.id, kind := .data }])) ∧
      (o.write = false → s.poisonIn key o.n ≠ none → near → next (answered.putCard { c with err := 0x05, ops := gone })) ∧
      (o.write = true → va = none → ∃ u, next u ∧ ∀ k, u.byte k =
        if key ≤ k ∧ k < key + o.n then c.buf.get 0#8 (o.pos + (k - key)) else s.byte k)) ∧
  (∀ (s : State) (e : Nat) (c : Card), (s.engine e).running = [c] → c.engine = e → s.absent = [] →
    let finish := exec (.cardFinish e 0) s
    let goes := fun (u : State) (d : Card) => Host.Outcome.next (u.modEngine e fun x => { x with running := [d] })
    let ready := c.err = 0 ∧ c.waits = false ∧ c.last = true ∧ c.ops = [] ∧ s.owed c.id = false
    let told := fun (n : Nat) => { c with outcome := n, ops := [] }
    let ends := fun (u : State) (n code : Nat) => finish = goes u { told n with ending := 1, badEnd := code }
    let at' := fun (va n : Nat) => s.stepReady c.core c.part c.tenant va n = true
    let mayEnd := c.err ≠ 0 ∨ c.waits = false ∧ (c.outcome = 6 ∨ c.last = true ∧ c.ops = [] ∧ s.owed c.id = false)
    (c.ending = 0 →
      (c.cmpl = 0 → c.outcome = 6 → c.err = 0 → c.waits = false → ends s 6 0) ∧
      (c.cmpl = 0 → c.outcome ≠ 6 → c.err ≠ 0 → ends (s.cardError (told 5) c.err) 5 0) ∧
      (c.cmpl = 0 → c.outcome ≠ 6 → ready → ends s 4 0) ∧
      (c.cmpl = 1 → c.outcome ≠ 6 → ready → at' c.caddr 16 →
        (∀ u, s.barrierAdd c.part c.tenant c.caddr c.delivered = .ok u → ends u 4 0) ∧
        (∀ code, s.barrierAdd c.part c.tenant c.caddr c.delivered = .error code → ends (s.cardError (told 4) code) 4 code)) ∧
      (c.cmpl = 2 → c.outcome ≠ 6 → ready → at' c.caddr 16 →
        ∀ r u, s.resolveFuture c.part c.tenant c.caddr c.result c.core none = (r, u) →
        (r = .done → ends u 4 0) ∧ (r = .already → ends (u.cardError (told 4) 0x21) 4 0x21) ∧
        (r = .bad → ends (u.cardError (told 4) 0x22) 4 0x22) ∧ (r = .poisoned → ends (u.cardError (told 4) 0x05) 4 0x05))) ∧
    (c.ending = 1 → mayEnd → c.issuer = none ∨ at' (c.addr + 2) 2 → finish = goes (s.cardState c
      [BitVec.ofNat 8 (if c.badEnd ≠ 0 then 5 else c.outcome), BitVec.ofNat 8 (if c.err ≠ 0 then c.err else c.badEnd)])
        { c with ending := 2 }) ∧
    (c.ending = 2 → mayEnd → (∀ r, groupRef c.part c.tenant c.group = some r → at' (s.groupAddr r) 32) →
      finish = .next ((s.liveNow c.part c.tenant c.group (-1) c.core).modEngine e fun x => { x with running := [] })) ∧
    (c.waits = true → c.err = 0 → c.kind = 2 → engineKind e = 2 → c.started + 2 ^ 31 ≤ s.now →
      exec (.collTimeout e 0) s = .next (s.modEngine e fun x => { x with running := [{ c with err := 0x39 }] }) ∧
      finish = .fault (.notEnabled "CARD_FINISH")) ∧
    (c.waits = true → engineKind e = 1 → ∃ u, exec (.codebookBankWrite e 0) s = .next u ∧ u.mem = s.mem ∧
      (u.engine e).running = [{ c with waits := false, last := true }] ∧
      (let b := if (s.codebooks.get {} (bankKey c.part (dieOf c.core) (c.body 0 % 16) 0)).newest then 1 else 0;
        u.codebooks.get {} (bankKey c.part (dieOf c.core) (c.body 0 % 16) b) = { gen := c.body 1, bytes := c.take 0 15, newest := true })))

/-! ## Layers and views (R375 to R394) -/

/-- R376, R381 to R385, R387: the layer instructions on a layer or view that the partition owns: LNEW makes the lowest free
layer, LFREE frees one, LSET and LGET write and push fields, LEST and LPRICE the estimate and the price, LLIGHT a light group,
LBEGIN marks a layer busy once nothing in flight still reads its back images, and LDONE exchanges its images; a number out of range, a dead, busy or reserved one raises LAYERBAD
with its reason. The numbers and reasons of LAYERBAD that R382 to R387 do not give are log 59's.

R386: LREQ pushes the layer of the oldest request and pops it, or pushes -1 when there is none. LREQ.s does the same after it
has queued the layer's render record as SPAWN does, with the request's deadline carried from the view's die to the slot's (R24);
without a record that is well-formed it pops the request, queues nothing and pushes -2. That the deadline is rebased for LREQ.s
is log 59's reading. -/
def Obligations.LayerObjects : Prop :=
  (∀ (s : State) (d : Dst) (a b : Src) (f : BitVec 5) (n v : U64) (i vn : Nat) (l : Layer) (w : View), s.calm → slotNo s.cur ≠ 11 →
    s.reads a = some n → s.reads b = some v → i = n.toNat → l = s.layer i → vn = (s.slot s.cur).view.toNat → w = s.view' vn →
    let p := s.partOfSlot s.cur
    let own := i < 4096 ∧ s.ownsLayer p i = true
    let bad := fun (e : Instr) (num : Nat) (view : Bool) (reason : Nat) =>
      exec e s = s.traps 4 .layerBad (BitVec.ofNat 64 (num % 2 ^ 16 * 2 ^ 32 + (if view then 2 ^ 24 else 0) + reason))
    let sets := fun (e : Instr) (x : Layer) => exec e s = .next ((s.noteIssue.setLayer i x).past 4)
    (∀ e ∈ [Instr.lfree a, .lest d a, .lprice a b, .lbegin a, .ldone a, .lget 4#5 d a],
      (¬ own → bad e i false 1) ∧ (own → l.live = false → bad e i false 2)) ∧
    (own → l.live = true →
      exec (.lest d a) s = s.gives 4 d (BitVec.ofNat 64 (l.e.toNat + 2 ^ 32 * l.age.toNat + (if l.req then 2 ^ 48 else 0) +
        (if l.busy then 2 ^ 49 else 0) + (if l.flip then 2 ^ 50 else 0))) ∧
      (v.toNat < 2 ^ 24 → sets (.lprice a b) { l with price := BitVec.ofNat 24 v.toNat }) ∧
      (2 ^ 24 ≤ v.toNat → bad (.lprice a b) i false 4) ∧
      (l.busy = false → s.backInUse i = false → sets (.lbegin a) { l with busy := true }) ∧
      (l.busy = false → s.backInUse i = true → exec (.lbegin a) s = s.waits) ∧
      (l.busy = true → bad (.lbegin a) i false 5 ∧ bad (.lfree a) i false 5) ∧
      (l.busy = false → bad (.ldone a) i false 5) ∧
      (l.busy = true → ∃ u, exec (.ldone a) s = .next u ∧ u.mem = s.mem ∧ u.layer i =
        { l with fcol := l.bcol, fdep := l.bdep, bcol := l.fcol, bdep := l.fdep, age := 0#16, e := 0#24, req := false, busy := false } ∧
        ∀ j, j ≠ i → u.layer j = s.layer j) ∧
      (l.busy = false → ∃ u, exec (.lfree a) s = .next u ∧ u.mem = s.mem ∧ u.layer i = {} ∧
        (u.view' l.view.toNat).slotAt l.slot.toNat = 0xFFFF ∧ (u.view' l.view.toNat).newSlots.getLsbD l.slot.toNat = true ∧
        ∀ j, j ≠ i → u.layer j = s.layer j) ∧
      (∀ x, (f, x) ∈ [(4#5, l.w.toNat + 2 ^ 16 * l.h.toNat), (5, l.ox.toNat + 2 ^ 16 * l.oy.toNat), (6, l.vx.toNat + 2 ^ 16 * l.vy.toNat),
          (7, l.kpar.toNat), (8, l.q.toNat), (9, l.lights.toNat), (10, l.render.toNat), (11, l.age.toNat), (12, l.e.toNat),
          (13, l.price.toNat)] → exec (.lget f d a) s = s.gives 4 d (BitVec.ofNat 64 x)) ∧
      (f.toNat < 4 → bad (.lget f d a) i false 3) ∧
      (f.toNat = 15 ∨ 23 ≤ f.toNat → bad (.lget f d a) i false 3)) ∧
    (own → l.live = true → ∀ r, s.reads (Src.ofBits r) = some v →
      (∀ x bits, (f, bits, x) ∈ [(5#5, 32, { l with ox := v.setWidth 16, oy := v.extractLsb' 16 16 }),
          (6, 32, { l with vx := v.setWidth 16, vy := v.extractLsb' 16 16 }), (7, 16, { l with kpar := v.setWidth 16 }),
          (8, 16, { l with q := v.setWidth 16 }), (9, 64, { l with lights := v }), (11, 16, { l with age := v.setWidth 16 }),
          (12, 24, { l with e := v.setWidth 24 }), (13, 24, { l with price := v.setWidth 24 })] →
        (v.toNat < 2 ^ bits → sets (.lset f a r) x) ∧ (2 ^ bits ≤ v.toNat → bad (.lset f a r) i false 4)) ∧
      (v.toNat % 64 = 0 → v.toNat < 2 ^ 52 → sets (.lset 10#5 a r) { l with render := v }) ∧
      (l.busy = false → layerValueOk 4 v.toNat = true → l.imagesFit (v.toNat % 2 ^ 16) (v.toNat / 2 ^ 16) = true →
        sets (.lset 4#5 a r) { l with w := v.setWidth 16, h := v.extractLsb' 16 16 })) ∧
    (own → l.live = true → l.busy = false → ∀ r : BitVec 5, ∀ k, s.cap (r.setWidth 3) = k →
      (colourFit k l.w.toNat l.h.toNat = true → sets (.lset 0#5 a r) { l with fcol := k } ∧ sets (.lset 2#5 a r) { l with bcol := k }) ∧
      (depthFit k l.w.toNat l.h.toNat = true → sets (.lset 1#5 a r) { l with fdep := k } ∧ sets (.lset 3#5 a r) { l with bdep := k }) ∧
      (colourFit k l.w.toNat l.h.toNat = false → bad (.lset 0#5 a r) i false 7)) ∧
    (s.ownsView p vn = false → bad (.lnew d a) vn true 1 ∧ bad (.llight a b) vn true 1) ∧
    (s.ownsView p vn = true →
      (i < 64 → v.toNat < 2 ^ 24 → exec (.llight a b) s = .next ((s.noteIssue.modView vn fun y =>
        { y with lights := y.lights.set 0#24 i (BitVec.ofNat 24 v.toNat) }).past 4)) ∧
      (w.configured = false → bad (.lnew d a) vn true 2) ∧
      (w.configured = true → i < 64 → w.slotAt i ≠ 0xFFFF → bad (.lnew d a) vn true 6) ∧
      (w.configured = true → i < 64 → w.slotAt i = 0xFFFF → (∀ j < 4096, s.ownsLayer p j = true → (s.layer j).live = true) →
        exec (.lnew d a) s = s.gives 4 d (BitVec.allOnes 64)) ∧
      (w.configured = true → i < 64 → w.slotAt i = 0xFFFF → ∀ j < 4096, s.ownsLayer p j = true → (s.layer j).live = false →
        (∀ m < j, s.ownsLayer p m = true → (s.layer m).live = true) → ∃ u, exec (.lnew d a) s = .next u ∧ u.mem = s.mem ∧
          u.slot s.cur = ((s.noteIssue.slot s.cur).result d (BitVec.ofNat 64 j)).advance 4 ∧
          u.layer j = { live := true, view := BitVec.ofNat 6 vn, slot := BitVec.ofNat 6 i } ∧ (u.view' vn).slotAt i = j ∧
          (u.view' vn).newSlots.getLsbD i = true ∧ ∀ m, m ≠ j → u.layer m = s.layer m))) ∧
  (∀ (s t : State) (d : Dst) (vn : Nat) (w : View) (key : Nat) (keep : Bool) (va : Option Nat), s.calm → slotNo s.cur ≠ 11 →
    vn = (s.slot s.cur).view.toNat → w = s.view' vn → s.ownsView (s.partOfSlot s.cur) vn = true →
    (w.qtail = w.qhead → exec (.lreq d) s = s.gives 4 d (BitVec.allOnes 64) ∧ exec (.lreqS d) s = s.gives 4 d (BitVec.allOnes 64)) ∧
    (w.qtail ≠ w.qhead → ∀ e, w.queue.get (0#64, 0) (w.qhead.toNat % 64) = e →
      let pop := fun (u : State) => u.modView vn fun y => { y with qhead := y.qhead + 1#64 }
      let pushes := fun (u : State) (v : U64) => Host.Outcome.next ((u.modSlot s.cur fun x => x.result d v).past 4)
      let addr := (s.layer e.2).render.toNat
      let p := s.partOfSlot s.cur
      let ten := (s.slot s.cur).tenant
      let cl := clusterOf (coreOf s.cur)
      exec (.lreq d) s = pushes (pop s.noteIssue) (BitVec.ofNat 64 e.2) ∧
      (addr = 0 → exec (.lreqS d) s = pushes (pop s.noteIssue) (BitVec.ofInt 64 (-2))) ∧
      (addr ≠ 0 → locate (s.who s.cur) 0 addr 64 [1] s.noteIssue = .ok (.mem key keep va, t) → ∀ r,
        r = { s.readRec key keep addr ten p with deadline := s.rebaseDeadline (vn / 16) (dieOf (coreOf s.cur)) e.1 } →
        let live := (pop t).liveNow p ten r.group 1 (coreOf s.cur)
        (s.recOk r [0, 1] = false → exec (.lreqS d) s = pushes (pop t) (BitVec.ofInt 64 (-2))) ∧
        (s.recOk r [0, 1] = true → r.join ≠ 0#32 → exec (.lreqS d) s = pushes live (BitVec.ofNat 64 e.2)) ∧
        (s.recOk r [0, 1] = true → r.join = 0#32 → r.hen = true →
          exec (.lreqS d) s = pushes { live with walks := live.walks ++ [{ job := r, core := coreOf s.cur }] } (BitVec.ofNat 64 e.2)) ∧
        (s.recOk r [0, 1] = true → r.join = 0#32 → r.hen = false →
          (∀ q, live.enqueue cl { job := r } = some q → exec (.lreqS d) s = pushes q (BitVec.ofNat 64 e.2)) ∧
          (live.enqueue cl { job := r } = none → exec (.lreqS d) s = s.waits)))))

/-- R381, R388, R393, R394: the issues of COMPOSE, LSPLIT and LMERGE. A COMPOSE whose layers' images are fit and translate captures the
view, clears its light counts and new slots, and its slot waits for its steps. LSPLIT and LMERGE of two idle layers of one view, neither
captured by anything in flight, capture their front images; LSPLIT looks at its source's images only where the new layer lies over it,
LMERGE asks to write only where B is nearer somewhere (log 59). That the steps come apart, and what is then captured, is log 93's.

R389 to R392: the steps of a COMPOSE, once nothing holds one back. A layer's step ages it, raises its estimate, asks for a render
once that has passed its price, and captures its images and its place after the warp; its request is appended in a step of its own. A
pixel takes a fragment of each captured layer whose depth there is not 0xFFFF, and writes their composite; each tile's order matrix is
read and then written; both layers of a pair that differs, neither slot new, flip; last FRAME rises by 1 and is pushed. A composite of
no fragment is the background, one fragment is laid over it, of two the second is laid under the first, an opaque front one hides the
rest; fragments stay in order of depth, then layer; the bit of slots p < q is set where q's fragment sorts before p's. A poisoned
line that is read raises MCHECK.

R392 to R394: the steps of an LSPLIT and of an LMERGE. LSPLIT moves each pixel of its source under the new layer into
that and empties it, and empties the new layer's other pixels; it then gives the new layer estimate, price, motion and lights of its
source, no request, and drops its queue entry (log 59). LMERGE reads both depths at each pixel of A over B, and takes B's pixel where
that is nearer, once A's images have been found writable; it then merges the fields, moves or removes B's request, empties its slot and
frees it. A poisoned line that is read raises MCHECK. -/
def Obligations.LayerImages : Prop :=
  (∀ (s : State) (d : Dst) (a b : Src) (x y : U64) (i j : Nat) (l n : Layer), s.calm → slotNo s.cur ≠ 11 →
    s.reads a = some x → s.reads b = some y → i = x.toNat → j = y.toNat → l = s.layer i → n = s.layer j →
    let p := s.partOfSlot s.cur
    let idle := i < 4096 ∧ s.ownsLayer p i = true ∧ j < 4096 ∧ s.ownsLayer p j = true ∧ l.live = true ∧ n.live = true ∧
      l.busy = false ∧ n.busy = false ∧ i ≠ j ∧ l.view = n.view ∧ n.fcol.tag = true ∧ n.fdep.tag = true ∧
      ∀ q ∈ s.layerJobs, ∀ f ∈ q.captured, f.no ≠ i ∧ f.no ≠ j
    let writable := fun (z : Layer) => z.fcol.tag = true ∧ z.fdep.tag = true ∧ z.fcol.has 1 = true ∧ z.fdep.has 1 = true
    let under := fun (z w : Layer) (q : Nat) =>
      let u : Int := (q % z.w.toNat : Nat) + z.ox.toInt - w.ox.toInt
      let v : Int := (q / z.w.toNat : Nat) + z.oy.toInt - w.oy.toInt
      if 0 ≤ u ∧ u < w.w.toNat ∧ 0 ≤ v ∧ v < w.h.toNat then some (v.toNat * w.w.toNat + u.toNat) else none
    let meets := fun (z w : Layer) => ∃ q, q < z.w.toNat * z.h.toNat ∧ under z w q ≠ none
    let images := fun (k : Nat) (z : Layer) (bits : List Nat) (used : Prop) (u w : State) (f : Front) =>
      (used → frontImages k bits u = .ok (f, w)) ∧ (¬ used → f = frontUnused k z ∧ w = u)
    let holds := fun (u : State) (q : LayerJob) => Host.Outcome.next (u.modSlot s.cur fun x => { x with job := some q, wait := Wait.layer })
    let pair := fun (merge write : Bool) (f g : Front) => LayerJob.pair
      { merge := merge, a := f, b := g, ax := l.ox.toInt, ay := l.oy.toInt, bx := n.ox.toInt, by' := n.oy.toInt, writable := write }
    (∀ f g t u, idle → (meets n l → writable l) → (0 < n.w.toNat * n.h.toNat → writable n) →
      images i l [1, 2] (meets n l) s.noteIssue t f → images j n [2] (0 < n.w.toNat * n.h.toNat) t u g →
      exec (.lsplit a b) s = holds u (pair false true f g)) ∧
    (∀ f g t u, idle → l.fcol.tag = true → l.fdep.tag = true →
      images i l [1] (meets l n) s.noteIssue t f → images j n [1] (meets l n) t u g →
      let nearer := ∃ q, q < l.w.toNat * l.h.toNat ∧ ∃ r, under l n q = some r ∧
        u.num (g.dep.place (2 * r)).1 2 < u.num (f.dep.place (2 * q)).1 2
      (¬ nearer → exec (.lmerge a b) s = holds u (pair true false f g)) ∧
      (nearer → writable l → ∀ h w, frontImages i [1, 2] u = .ok (h, w) → exec (.lmerge a b) s = holds w (pair true true h g))) ∧
    ∀ vn w out ord fronts t u o, vn = (s.slot s.cur).view.toNat → w = s.view' vn → vn < 64 → s.ownsView p vn = true → w.configured = true →
      s.composing vn = false →
      (∀ e ∈ w.occupied, (s.layer e.2).fcol.tag = true ∧ (s.layer e.2).fdep.tag = true ∧
        colourFit (s.layer e.2).fcol (s.layer e.2).w.toNat (s.layer e.2).h.toNat = true ∧
        depthFit (s.layer e.2).fdep (s.layer e.2).w.toNat (s.layer e.2).h.toNat = true) →
      eachM (fun (e : Nat × Nat) => frontImages e.2 [1]) w.occupied s.noteIssue = .ok (fronts, t) →
      imageAt w.ocol (4 * w.vw.toNat * w.vh.toNat) [2] t = .ok (out, u) →
      imageAt w.ord (256 * tilesOf w.vw.toNat * tilesOf w.vh.toNat) [1, 2] u = .ok (ord, o) →
      exec (.compose d) s = holds (o.modView vn fun v => { v with lights := [], newSlots := 0#64 }) (.compose
        { d := d, view := vn, camStep := (s.slot s.cur).camStep.toNat, flipPen := (s.slot s.cur).flipPen.toNat, vw := w.vw.toNat,
          vh := w.vh.toNat, bg := w.bg.toNat, dline := w.dline, newSlots := w.newSlots, lights := w.lights, occupied := w.occupied,
          fronts := fronts, out := out, ord := ord, layers := w.occupied.foldl (fun l o => insertNat o.2 l) [] })) ∧
  (∀ (s : State) (g : Nat) (x : Slot) (j : ComposeJob), s.slot g = x → x.job = some (.compose j) → s.absent = [] →
    (∀ k n, s.stepAt (coreOf g) k n = true) →
    let goes := fun (u : State) (k : ComposeJob) => s.layerStep g = some (u.modSlot g fun y => { y with job := some (.compose k) })
    let key := fun (m : Image) (off : Nat) => (m.place off).1
    let put := fun (m : Image) (off n v : Nat) => s.performWrites (s.partOfSlot g) x.tenant (m.place off).2
      (writesAt (key m off) (toBytes n v)) none
    let reads := fun (m : Image) (off n : Nat) (k : Nat → ComposeJob) =>
      (s.poisonIn (key m off) n = none → goes s (k (s.num (key m off) n))) ∧
      ∀ q u, s.poisonIn (key m off) n = some q → s.takeTrap g .mcheck (BitVec.ofNat 64 (physOf q)) 4 = some u →
        s.layerStep g = some (u.modSlot g fun y => { y with job := none })
    let px := j.pixel % j.vw
    let py := j.pixel / j.vw
    let at' := fun (c : Shot) (x y : Nat) =>
      let u : Int := x - c.x
      let v : Int := y - c.y
      if 0 ≤ u ∧ u < c.front.w ∧ 0 ≤ v ∧ v < c.front.h then some (v.toNat * c.front.w + u.toNat) else none
    let come := fun (k : ComposeJob) (i : Nat) =>
      { k with pixel := i, look := k.shots.filter fun c => (at' c (i % k.vw) (i / k.vw)).isSome, depth := none, frags := [] }
    (∀ i, j.append = some i → goes (s.modView j.view fun v => v.setRequests (v.requests ++ [(j.dline, i)])) { j with append := none }) ∧
    (j.append = none →
      (∀ i rest f, j.layers = i :: rest → s.pairOn i = false → (s.layer i).live = true →
        (j.fronts.find? fun f => f.no == i && f.of (s.layer i)) = some f → ∀ z, z = (s.layer i).aged j.camStep j.flipPen j.lights →
        let asks := decide (z.price.toNat < z.e.toNat) && !z.req
        let shot : Shot := { front := f, slot := z.slot.toNat, x := z.ox.toInt + rna16 (z.age.toNat * z.vx.toInt),
                             y := z.oy.toInt + rna16 (z.age.toNat * z.vy.toInt) }
        let k := { j with layers := rest, append := if asks then some i else none, shots := j.shots ++ [shot] }
        goes (s.setLayer i { z with req := z.req || asks }) (if rest = [] then come k 0 else k)) ∧
      (j.layers = [] → j.flips = none →
        (j.pixel < j.vw * j.vh →
          (j.look = [] → goes (put j.out (4 * j.pixel) 4 (composite j.frags j.bg)) (come { j with
            bits := let t := py / 4 * tilesOf j.vw + px / 4; j.bits.set 0 t (j.bits.get 0 t ||| orderBits j.frags) } (j.pixel + 1))) ∧
          ∀ c cs i, j.look = c :: cs → at' c px py = some i →
            (j.depth = none → reads c.front.dep (2 * i) 2 fun v =>
              if v = 0xFFFF then { j with look := cs } else { j with depth := some v }) ∧
            ∀ v, j.depth = some v → reads c.front.col (4 * i) 4 fun w => { j with
              look := cs, depth := none,
              frags := insertFrag { depth := v, no := c.front.no, slot := c.slot, colour := w } j.frags }) ∧
        (j.vw * j.vh ≤ j.pixel →
          let lines := 8 * (tilesOf j.vw * tilesOf j.vh)
          let t := j.line / 8
          let i := j.line % 4
          let new := j.bits.get 0 t
          (j.line < lines → j.line % 8 < 4 → reads j.ord (256 * t + 64 * i) 64 fun v =>
            { j with line := j.line + 1, held := (if i = 0 then 0 else j.held) + v * 2 ^ (512 * i) }) ∧
          (j.line < lines → 4 ≤ j.line % 8 → goes (put j.ord (256 * t + 64 * i) 64 (new / 2 ^ (512 * i) % 2 ^ 512))
            { j with line := j.line + 1, diff := if i = 3 then j.diff ||| (j.held % 2 ^ 2016 ^^^ new) else j.diff }) ∧
          (lines ≤ j.line → goes s { j with flips := some (flipped j.occupied j.newSlots j.diff) }))) ∧
      (j.layers = [] → ∀ i rest, j.flips = some (i :: rest) →
        goes (if (s.layer i).live then s.setLayer i { s.layer i with flip := true } else s) { j with flips := some rest }) ∧
      (j.layers = [] → j.flips = some [] →
        let frame := (s.view' j.view).frame + 1#64
        s.layerStep g = some ((s.modView j.view fun v => { v with frame := frame }).modSlot g fun y =>
          { (y.result j.d frame).advance 4 with wait := Wait.none, job := none }))) ∧
    (∀ bg, bg < 2 ^ 32 → composite [] bg = bg) ∧
    (let mix := fun (a c : Nat) => ((List.range 4).map fun k =>
       min 255 (a / 2 ^ (8 * k) % 256 + (c / 2 ^ (8 * k) % 256 * (255 - a / 2 ^ 24 % 256) + 127) / 255) * 2 ^ (8 * k)).sum
     (∀ (f : Frag) bg, f.colour < 2 ^ 32 → composite [f] bg = mix f.colour bg) ∧
     (∀ (e f : Frag) bg, e.colour < 2 ^ 32 → composite [e, f] bg = mix (mix e.colour f.colour) bg) ∧
     ∀ fs (f : Frag) bg, 8 ≤ fs.length → composite (fs ++ [f]) bg = composite fs bg) ∧
    (∀ (f : Frag) fs bg, f.colour < 2 ^ 32 → 255 * 2 ^ 24 ≤ f.colour → composite (f :: fs) bg = f.colour) ∧
    (let first := fun (f g : Frag) => f.depth < g.depth ∨ f.depth = g.depth ∧ f.no ≤ g.no
      ∀ (f : Frag) fs, fs.Pairwise first → (insertFrag f fs).Pairwise first ∧ ∃ l r, fs = l ++ r ∧ insertFrag f fs = l ++ f :: r) ∧
    (∀ (fs : List Frag) p q, p < q → ((orderBits fs).testBit (q * (q - 1) / 2 + p) = true ↔
      ∃ m n : Nat, m < n ∧ fs[m]?.map (fun f => f.slot) = some q ∧ fs[n]?.map (fun f => f.slot) = some p)) ∧
    (∀ (occ : List (Nat × Nat)) (new : U64) (diff k : Nat), k ∈ flipped occ new diff ↔ ∃ a ∈ occ, a.2 = k ∧ new.getLsbD a.1 = false ∧
      ∃ b ∈ occ, new.getLsbD b.1 = false ∧ a.1 ≠ b.1 ∧
        (let p := min a.1 b.1; let q := max a.1 b.1; diff.testBit (q * (q - 1) / 2 + p) = true)) ∧
    (∀ t : Int, 16 * rna16 t - t ≤ 8 ∧ t - 16 * rna16 t ≤ 8 ∧ ((16 * rna16 t - t).natAbs = 8 → t.natAbs ≤ (16 * rna16 t).natAbs)) ∧
    (∀ (l : Layer) step pen lights, ∃ z : Layer, l.aged step pen lights = z ∧ z.age.toNat = min (l.age.toNat + 1) 65535 ∧ z.flip = false ∧
      z.price = l.price ∧ z.e.toNat = min (l.e.toNat + step * l.kpar.toNat / 256 + min (l.age.toNat + 1) 65535 * l.q.toNat +
        (((List.range 64).filter fun g => l.lights.getLsbD g).map fun g => (lights.get 0#24 g).toNat).sum +
        (if l.flip then pen else 0)) (2 ^ 24 - 1))) ∧
  (∀ (s : State) (g : Nat) (x : Slot) (j : PairJob), s.slot g = x → x.job = some (.pair j) → s.absent = [] →
    (∀ k n, s.stepAt (coreOf g) k n = true) →
    let goes := fun (u : State) (k : PairJob) => s.layerStep g = some (u.modSlot g fun y => { y with job := some (.pair k) })
    let ends := fun (u : State) => s.layerStep g = some (u.modSlot g fun y => { y.advance 4 with wait := Wait.none, job := none })
    let key := fun (m : Image) (off : Nat) => (m.place off).1
    let also := fun (v : Nat) => { j with part := j.part + 1, got := j.got ++ [v] }
    let nextPixel := { j with pixel := j.pixel + 1, part := 0, got := [] }
    let writes := fun (m : Image) (off n v : Nat) (k : PairJob) => goes (s.performWrites (s.partOfSlot g) x.tenant (m.place off).2
      (writesAt (key m off) (toBytes n v)) none) k
    let reads := fun (m : Image) (off n : Nat) (k : Nat → PairJob) =>
      (s.poisonIn (key m off) n = none → goes s (k (s.num (key m off) n))) ∧
      ∀ q u, s.poisonIn (key m off) n = some q → s.takeTrap g .mcheck (BitVec.ofNat 64 (physOf q)) 4 = some u →
        s.layerStep g = some (u.modSlot g fun y => { y with job := none })
    let under := fun (f h : Front) (dx dy : Int) =>
      let u : Int := (j.pixel % f.w : Nat) + dx
      let v : Int := (j.pixel / f.w : Nat) + dy
      if 0 ≤ u ∧ u < h.w ∧ 0 ≤ v ∧ v < h.h then some (v.toNat * h.w + u.toNat) else none
    let i := j.pixel
    let A := j.a
    let B := j.b
    let change := fun (k : Nat) (f : Layer → Layer) => if (s.layer k).live then s.setLayer k (f (s.layer k)) else s
    (j.merge = false → i < B.w * B.h →
      let p? := under B A (j.bx - j.ax) (j.by' - j.ay)
      (p? = none → (j.part = 0 → writes B.col (4 * i) 4 0 (also 0)) ∧ (j.part = 1 → writes B.dep (2 * i) 2 0xFFFF nextPixel)) ∧
      ∀ p, p? = some p →
        (j.part = 0 → reads A.col (4 * p) 4 also) ∧ (j.part = 1 → reads A.dep (2 * p) 2 also) ∧
        (∀ c d, j.part = 2 → j.got = [c, d] → writes B.col (4 * i) 4 c (also 0)) ∧
        (∀ c d e, j.part = 3 → j.got = [c, d, e] → writes B.dep (2 * i) 2 d (also 0)) ∧
        (j.part = 4 → writes A.col (4 * p) 4 0 (also 0)) ∧ (j.part = 5 → writes A.dep (2 * p) 2 0xFFFF nextPixel)) ∧
    (j.merge = false → B.w * B.h ≤ i →
      (j.part = 0 → goes s { j with part := 1, held := s.layer A.no }) ∧
      (j.part = 1 → let l := j.held; goes (change B.no fun n => { n with
        age := l.age, e := l.e, price := l.price, vx := l.vx, vy := l.vy, kpar := l.kpar, q := l.q, lights := l.lights, flip := l.flip, req := false })
          { j with part := 2 }) ∧
      (j.part = 2 → ends (s.modView (s.layer B.no).view.toNat fun v => v.dropRequest B.no))) ∧
    (j.merge = true → i < A.w * A.h →
      let p? := under A B (j.ax - j.bx) (j.ay - j.by')
      (p? = none → j.part = 0 → goes s nextPixel) ∧
      ∀ p, p? = some p →
        (j.part = 0 → reads B.dep (2 * p) 2 also) ∧
        (∀ d, j.part = 1 → j.got = [d] → reads A.dep (2 * i) 2 fun v => if d < v then also v else nextPixel) ∧
        (j.part = 2 → j.writable = false → ∀ f u, let l := s.layer A.no
          l.fcol.tag = true → l.fdep.tag = true → l.fcol.has 1 = true → l.fdep.has 1 = true →
          frontImages A.no [1, 2] { s with cur := g } = .ok (f, u) → s.layerStep g = some (State.modSlot { u with cur := s.cur } g fun y =>
            { y with job := some (.pair { j with a := f, writable := true }) })) ∧
        (j.part = 2 → j.writable = true → reads B.col (4 * p) 4 also) ∧
        (∀ d e c, j.part = 3 → j.got = [d, e, c] → writes A.col (4 * i) 4 c (also 0)) ∧
        (∀ d e c f, j.part = 4 → j.got = [d, e, c, f] → writes A.dep (2 * i) 2 d nextPixel)) ∧
    (j.merge = true → A.w * A.h ≤ i →
      let m := j.held
      (j.part = 0 → goes s { j with part := 1, held := s.layer B.no }) ∧
      (j.part = 1 →
        let moves := m.req && !(s.layer A.no).req
        goes (change A.no fun a => { a with
          age := BitVec.ofNat 16 (max a.age.toNat m.age.toNat), e := BitVec.ofNat 24 (max a.e.toNat m.e.toNat),
          price := BitVec.ofNat 24 (min a.price.toNat m.price.toNat), q := BitVec.ofNat 16 (max a.q.toNat m.q.toNat),
          lights := a.lights ||| m.lights, flip := a.flip || m.flip, req := a.req || moves }) { j with part := 2, moves := moves }) ∧
      (j.part = 2 → goes (s.modView m.view.toNat fun v =>
        let t := { v with newSlots := v.newSlots ||| BitVec.ofNat 64 (2 ^ m.slot.toNat) }
        { (if j.moves then t.setRequests (t.requests.map fun e => if e.2 = B.no then (e.1, A.no) else e) else t.dropRequest B.no) with
          slots := v.slots.set 0xFFFF m.slot.toNat 0xFFFF }) { j with part := 3 }) ∧
      (j.part = 3 → ends (s.setLayer B.no {}))))

/-! ## Guarded surrogates (R361 to R371) -/

/-- R240, R361, R364, R368 to R371: SRESID and SRESIDM in a check phase post a residual within the tolerance, and fail their tile
with reason 1 for a NaN, 2 above the tolerance and 8 for a deviation that is not positive, SRESID always in z-score mode; SABORT fails a
tile, and so does an instruction of TASK, with reason 6; outside their phase they raise ILLOP; SSTAT pushes STATUS, acquiring when DONE
is set; SLAUNCH reads the two halves of its descriptor each in a step of its own, and then pushes -1 for a bad one, 1 for a background
launch that it queues, and what admission answers for one with a deadline; in a tile it raises SURRNEST; an admitted slice of a tile that
has spent its charge fails its tile with reason 9. The page permissions that SLAUNCH asks of its descriptor are log 60's. -/
def Obligations.Surrogates : Prop :=  ∀ (s t : State) (d : Dst) (a b : Src) (ka : BitVec 3) (v w : U64) (x : Slot) (g : Nat), s.slot s.cur = x → s.reads a = some v →
    s.reads b = some w →
    let fails := fun (i : Instr) (reason : Nat) => exec i s = .next ((s.noteIssue.failPhase s.cur reason).getD s.passOver)
    let num := fun (n : U64) => Fp.ofBits fp32 (n.toNat % 2 ^ 32)
    let dev := match num w with | .fin false m _ => decide (m ≠ 0) | _ => false
    let q := fun (scaled : Bool) => if scaled then Fp.ofBits fp32 (fpDiv fp32 rneMode (num v).abs (num w)).bits else (num v).abs
    let tol := Fp.ofBits fp32 x.tol.toNat
    (∀ tile posted, x.phase = .check tile posted → ∀ scaled, (scaled = true → dev = true) →
      let passes := fun (i : Instr) => exec i s = .next (s.done 4 fun y => { y with phase := .check tile true })
      ((q scaled).isNan = false → fpLt tol (q scaled) = false →
        (scaled = true ∧ x.tolMode ≠ 0#2 ∨ scaled = false ∧ x.tolMode = 0#2 → passes (.sresidm a b)) ∧
        (scaled = false → x.tolMode = 0#2 → passes (.sresid a))) ∧
      ((q scaled).isNan = true → scaled = decide (x.tolMode ≠ 0#2) → fails (.sresidm a b) 1) ∧
      ((q scaled).isNan = false → fpLt tol (q scaled) = true → scaled = decide (x.tolMode ≠ 0#2) → fails (.sresidm a b) 2)) ∧
    (∀ tile posted, x.phase = .check tile posted →
      (x.tolMode = 0#2 → (q false).isNan = true → fails (.sresid a) 1) ∧
      (x.tolMode = 0#2 → (q false).isNan = false → fpLt tol (q false) = true → fails (.sresid a) 2) ∧
      (x.tolMode ≠ 0#2 → fails (.sresid a) 8)) ∧
    (x.tile? ≠ none → ∀ i ∈ [Instr.start d ka, .spawn d ka, .walk d ka a, .launch d ka a, .launchi d ka ka, .join d ka, .gang d ka, .submit d ka],
      fails i 6) ∧
    (∀ tile posted, x.phase = .check tile posted → x.tolMode ≠ 0#2 → dev = false → fails (.sresidm a b) 8) ∧
    ((∀ tile posted, x.phase ≠ .check tile posted) →
      exec (.sresid a) s = s.traps 4 .illop (wordVal (encode (.sresid a))) ∧
      exec (.sresidm a b) s = s.traps 4 .illop (wordVal (encode (.sresidm a b)))) ∧
    (x.tile? = none → exec .sabort s = s.traps 4 .illop (wordVal (encode .sabort))) ∧
    (x.tile? ≠ none → fails .sabort 4 ∧ (slotNo s.cur ≠ 11 → exec (.slaunch d ka) s = s.traps 4 .surrNest 0#64)) ∧
    (∀ p r, s.calm → slotNo s.cur ≠ 11 → launchAt (s.cap ka) [0] [1] s.noteIssue = .ok ((p, r), t) →
      ∀ m, m = ofBytes (s.bytes (r.key + 112) 8) →
        let u := t.modSlot s.cur fun y => y.result d (BitVec.ofNat 64 m)
        exec (.sstat d ka) s = .next ((if m / 2 ^ 41 % 2 = 1 then u.modCore (coreOf s.cur) fun c => { c with rcache := [] } else u).past 4)) ∧
    (s.calm → slotNo s.cur ≠ 11 →
      (∀ p r, x.saw 0 = none → launchAt (s.cap ka) [0, 1, 5, 3] [1, 2, 4] s.noteIssue = .ok ((p, r), t) →
        exec (.slaunch d ka) s = s.keeps t 0 (s.object r.key r.keep r.va r.addr 64)) ∧
      ∀ o, x.saw 0 = some o →
        let r := o.loc
        (x.saw 1 = none → exec (.slaunch d ka) s = s.keeps s.noteIssue 1 (s.object (r.key + 64) r.keep r.va r.addr 64)) ∧
        ∀ e, x.saw 1 = some e →
          let bs := o.bytes ++ e.bytes
          let n := s.noteIssue
          let l : Launch := { launchOf bs o.tags with
            id := n.fresh, addr := r.addr, key := r.key, tenant := x.tenant, part := s.partOfSlot s.cur, cluster := clusterOf (coreOf s.cur),
            launcher := s.cur, ltid := x.tid }
          let u := { n with fresh := n.fresh + 1 }
          let ok := s.launchOk (s.partOfSlot s.cur) x.tenant bs l = true
          let pushes := fun (u : State) (v : U64) => exec (.slaunch d ka) s =
            .next ((u.modSlot s.cur fun y => { y.result d v with seen := [] }).past 4)
          (¬ ok → pushes u (BitVec.allOnes 64)) ∧
          (ok → l.admitted = false → ∀ z q, u.launchBackground l r.va = some (z, q) → q.cur = s.cur → pushes q 1#64) ∧
          (ok → l.admitted = true → ∀ z q, u.launchAdmit l r.va = (z, q) → q.cur = s.cur → pushes q (BitVec.ofInt 64 z))) ∧
    ((s.slot g).live = true → (s.slot g).admitted = true → (s.slot g).charge = 0 → (s.slot g).tile? ≠ none → ∀ u, s.failPhase g 9 = some u →
      exec (.checkChargeExhausted g) s = .next u)

/-! ## The die scheduler and partitions (R24, R88, R174 to R195, R399 to R428) -/

/-- R171, R177, R178, R181, R188: a plain record that waits alone in its cluster starts on the helper it is offered, with the
state of R171; a gang whose window holds a helper of every core, those held for earlier gangs apart, starts whole; a walking
record outside its radius moves on one core, along X first. Which entry a free helper takes is log 62's reading, which tenant a
helper belongs to log 36's.

R174, R175, R179, R180, R183, R186, R187: the scheduler's steps on what is on its way: a release decrements its record's join
counter; a step on a completion record changes LIVE, its flags and its count of traps, and where LIVE reaches 0 sets COMPLETE, resolves
FUTURE with the flags' word and clears it, and sends the journal entry's state, failed where FAILED or LATE is set (the step asks R
and W of the page and not A, log 72; reserved flag bits stay, log 71); LAUNCHI's count is read, or is a value that the word held
before; a held entry enters its queue once the ring has room, or halts the partition after 2^24 cycles. The moments at which the count
is taken are log 82's; how a ring holds its entries is log 15's. -/
def Obligations.Scheduler : Prop :=
  (∀ (s : State) (cl g : Nat) (rest : List Nat) (e : Entry),
    (s.slices = [] → s.savedZero = [] → (∀ c, clusterOf c = cl → (s.core c).localQ = []) → (s.cluster cl).ready = [e] →
      (s.cluster cl).ring = [] → e.gang = [] → e.unread = none → e.job.kind ≠ 1 → e.cont = none → e.launch = none → e.exactOf = none →
      e.count ≤ e.next + 1 → s.offered cl e = g :: rest →
      ∃ t x, exec (.dispatch cl) s = .next t ∧ (t.cluster cl).ready = [] ∧ (t.cluster cl).ring = [] ∧ t.mem = s.mem ∧ t.slot g = x ∧
        x.live = true ∧ x.pcc = e.job.code ∧ x.kreg 0 = e.job.frame ∧ x.named 0 = BitVec.ofNat 64 e.next ∧
        x.named 1 = BitVec.ofNat 64 e.gcount ∧ x.pres = 3#16 ∧ x.rq = List.replicate 16 0#64 ∧ x.dline = e.job.deadline ∧
        x.issues = e.job.budget ∧ x.tenant = e.job.tenant ∧ x.group = e.job.group ∧ (t.core (coreOf g)).rcache = [] ∧
        ∀ h, h ≠ g → t.slot h = s.slot h) ∧
    ((s.cluster cl).ready = [e] → (s.cluster cl).ring = [] → e.gang ≠ [] → ∀ w : List Nat, (s.cluster cl).windows.get [] e.seq = w →
      w.length = e.gang.length → w.Nodup → ∀ gs : List Nat, gs.length = e.gang.length →
      (∀ j < gs.length, (s.gangHelpers e.job.part e.job.tenant e.job.deadline e.seq (w.getD j 0)).head? = some (gs.getD j 0)) →
      ∃ t, exec (.gangStart cl) s = .next t ∧ (t.cluster cl).ready = [] ∧ (t.cluster cl).windows = (s.cluster cl).windows.erase e.seq ∧
        ∀ j < gs.length, ∃ x, t.slot (gs.getD j 0) = x ∧ x.live = true ∧ x.pcc = (e.gang.getD j {}).code ∧
          x.named 0 = BitVec.ofNat 64 j ∧ x.named 1 = BitVec.ofNat 64 e.gang.length ∧
          x.kreg 2 = (if j = 0 then Cap.null else e.pipes.getD (j - 1) Cap.null) ∧ x.kreg 3 = e.pipes.getD j Cap.null) ∧
    (∀ w, s.walks = [w] → w.job.radius < chebyshev w.core w.job.hx w.job.hy →
      let x := coreX w.core
      let y := coreY w.core
      let c := if x < w.job.hx then coreAt (x + 1) y else if w.job.hx < x then coreAt (x - 1) y
        else if y < w.job.hy then coreAt x (y + 1) else coreAt x (y - 1)
      let dl := if dieOf c = dieOf w.core then w.job.deadline else s.rebaseDeadline (dieOf w.core) (dieOf c) w.job.deadline
      exec (.recordWalkHop 0) s = .next { s with walks := [{ job := { w.job with deadline := dl }, core := c }] }) ∧
    (∀ w, s.walks = [w] → chebyshev w.core w.job.hx w.job.hy ≤ w.job.radius →
      s.freeHelpers w.job.part w.job.tenant w.job.deadline w.core = g :: rest →
      exec (.recordWalkHop 0) s = .next (State.startRec { s with walks := [] } g w.job 0 1 id))) ∧
  (∀ (s : State) (cl key : Nat) (keep : Bool) (log : Option Nat) (e : Entry), s.absent = [] →
    (∀ x, s.releases = [x] → x.addr % 64 = 0 → s.hwPlace x.part x.tenant x.addr [1, 2, 4] = some (key, keep, log) →
      log = none ∨ s.partFld x.part (tenantReg x.tenant 2) 0 1 = 0 → s.stepReady x.core x.part x.tenant x.addr 64 = true →
      2 ≤ s.num (key + 32) 4 → ∃ t, exec (.recordRelease 0) s = .next t ∧ t.releases = [] ∧ t.num (key + 32) 4 = s.num (key + 32) 4 - 1 ∧
        ∀ k, (k < key + 32 ∨ key + 36 ≤ k) → t.byte k = s.byte k) ∧
    (∀ x : GroupStep, s.groupSteps = [x] → x.seq = none →
      let p := x.ref.part
      let ten := x.ref.tenant
      s.stepReady x.core p ten (s.groupAddr x.ref) 32 = true → s.hwPlace p ten (s.groupAddr x.ref) [1, 2] = some (key, keep, log) →
      let live := (((s.num key 8 : Int) + x.delta) % 2 ^ 64).toNat
      let done := live = 0 ∧ x.delta ≠ 0
      let y := s.num (key + 8) 4 ||| (if x.failed then 2 else 0) ||| (if x.submitted then 4 else 0) ||| (if x.late then 8 else 0)
      let fl := y / 2 * 2 + (if done then 1 else if 0 < x.delta then 0 else y % 2)
      let put := fun (u : State) (off n v : Nat) => u.performWrites p ten log (writesAt (key + off) (toBytes n v)) none
      let w := put (put (put { s with groupSteps := [] } 0 8 live) 8 4 fl) 12 4
        (min (s.num (key + 12) 4 + if x.trapped then 1 else 0) (2 ^ 32 - 1))
      let fut := w.num (key + 16) 8
      let ends := fun (u : State) =>
        let f := u.num (key + 8) 4
        let seq := u.num (key + 24) 8
        exec (.groupCountStep 0) s = .next
          (if seq = 0 then u else u.sendJournal p seq (if f / 2 % 2 = 1 ∨ f / 8 % 2 = 1 then 3 else 2) x.core)
      let failed := put w 8 4 (fl ||| 2)
      (¬ done → exec (.groupCountStep 0) s = .next w) ∧
      (done → fut = 0 → ends w) ∧
      (done → fut % 16 ≠ 0 → ends (put (failed.schedError (dieOf x.core) 4 (BitVec.ofNat 64 fut) ten p) 16 8 0)) ∧
      (done → fut ≠ 0 → fut % 16 = 0 → ∀ fk fkeep flog, w.hwPlace p ten fut [1, 2, 4] = some (fk, fkeep, flog) →
        let lo := w.num fk 8
        let u := w.performWrites p ten flog (writesAt fk (toBytes 8 (lo / 4 * 4 + 2) ++ toBytes 8 fl)) none
        let fine := lo / 4 % 4 = 0 ∧ lo < 2 ^ 52
        (fine → lo % 4 = 0 → ends (put u 16 8 0)) ∧
        (fine → lo % 4 = 1 → ends (put { u with releases := u.releases ++
          [{ addr := lo / 16 * 16, tenant := ten, part := p, core := x.core, home := some (homeOf key) }] } 16 8 0)) ∧
        (fine → lo % 4 = 2 → ends (put failed 16 8 0)))) ∧
    (∀ u n t, (s.cluster cl).ready = [e] → (s.cluster cl).ring = [] → e.unread = some u → e.job.group = 0#64 →
      let w : Who := { part := e.job.part, tenant := e.job.tenant, core := coreOf u.2.2, slot := u.2.2, cached := false }
      s.countReady w u.1 u.2.1 = true →
      let loads := e.seen = none ∧ s.hwLoad w u.1 u.2.1 8 = some (n, t) ∧ t.clusters = s.clusters
      (loads → ∃ v, s.choose (.count cl e.seq) = some v ∧ (v.cluster cl).ready = [{ e with seen := some n }]) ∧
      (e.seen = some n ∨ loads →
        (n = 0 ∨ 2 ^ 32 ≤ n → ∃ v, exec (.launchiCountRead cl) s = .next v ∧ (v.cluster cl).ready = []) ∧
        (1 ≤ n → n < 2 ^ 32 → ∃ v, exec (.launchiCountRead cl) s = .next v ∧
          (v.cluster cl).ready = [{ e with count := n, gcount := n, unread := none }]))) ∧
    (∀ h : Entry × Nat, (s.cluster cl).hold = some h →
      let all := insertEntry h.1 ((s.cluster cl).ready ++ (s.cluster cl).ring)
      (s.ringRoom h.1.job.part cl ((all.drop 256).filter fun x => x.job.part == h.1.job.part).length = true →
        ∃ t, exec (.holdClear cl) s = .next t ∧ (t.cluster cl).hold = none ∧
          (t.cluster cl).ready = all.take 256 ∧ (t.cluster cl).ring = all.drop 256) ∧
      (h.2 + 2 ^ 24 ≤ s.now → s.partFld h.1.job.part 0x800 3 1 = 0 →
        ∃ t, exec (.holdTimeout cl) s = .next t ∧ t.partFld h.1.job.part 0x800 3 1 = 1)))

/-- R191, R193, R366: admission. The slots reserved for a class in a cluster stand in the order of their numbers; slices are bound
together to the first of them that has room: with them it holds at most 32 admitted slices, and for each of their deadlines and every
later one on that slot, what runs there and what is due by then needs no more than a twelfth of the cycles up to it. With no such slot
nothing is bound. SUBMIT admits its records one after the other, each with a charge of BUDGET + 16; where one finds no slot every
binding is undone, the rejection is journalled and the value is 0; else the group's LIVE rises by their number and the value is the
sequence number of its journal entry.

R190, R193: a host's store that stands before an enqueue window spawns the record, or submits the descriptor, that its
address names, and the result word says how it went; an address that is misaligned or out of range leaves -1; loads of the result
words change nothing. How the store comes to its window is log 30's. Whose window it is in a shared cluster is log 12's reading.

R192, R195: an admitted slice that has spent its charge stops as background work; a slot without issues left takes BUDGET
before its next fetch, and once in its grace the trap is unhandled. Where a spent slice goes on is log 54's reading. -/
def Obligations.WindowsAndBudgets : Prop :=
  (∀ (s w z : State) (p ten cls cl g gslot : Nat) (new : List Slice) (more : List (List Slice)) (pre post : List Nat) (hdr : List Byte) (recs : List Rec),
    let on := fun h => (s.slices.filter fun x => x.slot = h) ++ new
    let run := fun h => if (s.slot h).admitted = true then (s.slot h).charge else 0
    let held := fun h => (s.slices.filter fun x => x.slot = h).length + (if (s.slot h).admitted = true then 1 else 0)
    let dem := fun h D => run h + (((on h).filter fun x => decide (x.job.deadline.toNat ≤ D)).map fun x => x.charge).sum
    let room := fun (h : Nat) => held h + new.length ≤ 32 ∧ ∀ x ∈ new, ∀ D : Nat,
      (D = x.job.deadline.toNat ∨ x.job.deadline.toNat < D ∧ ∃ y ∈ on h, y.job.deadline.toNat = D) →
      (dem h D : Int) ≤ ((D : Int) - (s.cycle (dieOf (coreOf h))).toNat) / 12
    (g ∈ s.reservedIn p cls cl ↔ clusterOf (coreOf g) = cl ∧ s.ownsCore p (coreOf g) = true ∧ 1 ≤ slotNo g ∧ slotNo g ≤ 9 ∧
      s.partFld p 0x80F (16 * cls) 16 / 2 ^ slotNo g % 2 = 1) ∧
    (s.reservedIn p cls cl).Pairwise (fun a b => a < b) ∧
    (room g → (∀ h ∈ pre, ¬ room h) → s.bindSlices new (pre ++ g :: post) =
      some { s with slices := s.slices ++ new.map fun x => { x with slot := g } }) ∧
    ((∀ h ∈ pre, ¬ room h) → s.bindSlices new pre = none) ∧
    (s.bindSlices new (s.reservedIn p cls cl) = none → s.admitGroups p cls cl (new :: more) = none) ∧
    (s.bindSlices new (s.reservedIn p cls cl) = some w → s.admitGroups p cls cl (new :: more) = w.admitGroups p cls cl more) ∧
    s.admitGroups p cls cl [] = some s ∧
    (let due := firstDeadline recs
     let asks := recs.map fun r => [{ slot := 0, job := r, charge := r.budget.toNat + 16 }]
     let admitted := s.admitGroups p (s.tenantClass p ten) cl asks
     let group := leAt hdr 8 8
     (s.submitOk hdr recs = false → s.submitStep p ten cl gslot hdr recs = (-1, s)) ∧
     (s.submitOk hdr recs = true → admitted = none →
       ∃ t, s.submitStep p ten cl gslot hdr recs = (0, t) ∧ t.slices = s.slices ∧ t = (s.journalNew p group due 0 ten gslot 4).2) ∧
     ∀ seq, s.submitOk hdr recs = true → admitted = some w → w.journalNew p group due 0 ten gslot 0 = (some seq, z) →
       let ref : GroupRef := { part := p, tenant := ten, offset := group }
       let step : GroupStep := { ref := ref, delta := recs.length, submitted := true, seq := some (BitVec.ofNat 64 seq), core := 8 * cl }
       s.submitStep p ten cl gslot hdr recs = ((seq : Int), z.groupNow step))) ∧
  (∀ (s : State) (cl t key : Nat) (keep : Bool) (log : Option Nat) (addr : U64) (a b : Access), cl < 80 → t < 16 → s.fw.booted = true →
    a.slot = 0x1FFF → a.kind = .window cl t 0 addr → a.rst = false → b.slot = 0x1FFF → b.kind = .window cl t 8 addr → b.rst = false →
    let p := s.partOf (8 * cl)
    let spawns := s.flight = [a] ∧ s.mayPerform a = true
    let submits := s.flight = [b] ∧ s.mayPerform b = true
    exec (.enqueueWindowSpawnResult cl t) s = .next s ∧ exec (.enqueueWindowSubmitResult cl t) s = .next s ∧
    (addr.toNat % 64 ≠ 0 ∨ 2 ^ 52 ≤ addr.toNat →
      (spawns → ∃ u, exec (.enqueueWindowSpawn cl t addr) s = .next u ∧ u.flight = [] ∧
        (u.cluster cl).winSpawn.get 0#64 t = BitVec.allOnes 64 ∧ (u.cluster cl).ready = (s.cluster cl).ready) ∧
      (submits → (s.cluster cl).hold = none → ∃ u, exec (.enqueueWindowSubmit cl t addr) s = .next u ∧ u.flight = [] ∧
        (u.cluster cl).winSubmit.get 0#64 t = BitVec.allOnes 64 ∧ u.slices = s.slices)) ∧
    (spawns → addr.toNat % 64 = 0 → addr.toNat < 2 ^ 52 → s.absent = [] →
      s.hwPlace p t addr.toNat [1, 2, 4] = some (key, keep, log) → ∀ r, r = s.readRec key keep addr.toNat t p →
      (s.recOk r [0, 1] = false → ∃ u, exec (.enqueueWindowSpawn cl t addr) s = .next u ∧
        (u.cluster cl).winSpawn.get 0#64 t = BitVec.allOnes 64) ∧
      (s.recOk r [0, 1] = true → r.join = 0#32 → r.hen = false → r.group = 0#64 → (s.cluster cl).hold = none →
        (s.cluster cl).ready = [] → (s.cluster cl).ring = [] → ∃ u, exec (.enqueueWindowSpawn cl t addr) s = .next u ∧
          (u.cluster cl).winSpawn.get 0#64 t = 1#64 ∧ (u.cluster cl).ready.map (fun e => e.job) = [r])) ∧
    (submits → addr.toNat % 64 = 0 → addr.toNat < 2 ^ 52 → s.absent = [] → (s.cluster cl).hold = none →
      s.hwPlace p t addr.toNat [1] = some (key, keep, log) →
      let hdr := s.bytes key 64
      ∀ recs v, State.hwRecs { s with flight := [] } p t addr.toNat (descriptorCount 1 64 hdr) 1 = some (recs, v) →
      (s.submitOk hdr recs = false →
        ∃ u, exec (.enqueueWindowSubmit cl t addr) s = .next u ∧ (u.cluster cl).winSubmit.get 0#64 t = BitVec.allOnes 64 ∧ u.slices = s.slices) ∧
      (s.submitOk hdr recs = true →
        let slices := recs.map fun r => [{ slot := 0, job := r, charge := r.budget.toNat + 16 }]
        (State.admitGroups v p (s.tenantClass p t) cl slices = none → ∃ u, exec (.enqueueWindowSubmit cl t addr) s = .next u ∧
          (u.cluster cl).winSubmit.get 0#64 t = 0#64 ∧ u.slices = s.slices) ∧
        (∀ w seq z, State.admitGroups v p (s.tenantClass p t) cl slices = some w →
          w.journalNew p (leAt hdr 8 8) (firstDeadline recs) 0 t noSlot 0 = (some seq, z) → ∃ u, exec (.enqueueWindowSubmit cl t addr) s = .next u ∧
            (u.cluster cl).winSubmit.get 0#64 t = BitVec.ofNat 64 seq ∧ u.slices = w.slices)))) ∧
  (∀ (s : State) (g : Nat) (x : Slot), s.slot g = x → x.live = true →
    (x.admitted = true → x.charge = 0 → x.tile? = none → x.wait = Wait.none → x.group = 0#64 →
      exec (.chargeExhausted g) s = .next (s.modSlot g fun y =>
        { y with admitted := false, charge := 0, chargeFrac := 0, dline := BitVec.allOnes 64, stopped := some none })) ∧
    (x.limited = true → x.issues = 0#32 → x.wait = Wait.none → x.stopped = none →
      (x.grace = false → x.handles .budget = true → ∃ t y, exec (.budgetExhausted g) s = .next t ∧ t.slot g = y ∧ y.tcause = 0x18#8 ∧
        y.issues = 256#32 ∧ y.grace = true ∧ y.pc = x.tbase.toNat * 2 ^ 13 + 64 * 0x18 ∧ y.tpc.toNat = x.pc) ∧
      (x.grace = true → x.tile? = none → s.flight = [] → x.borrow = none → x.phase = Phase.task → slotNo g = 0 →
        ∃ t, exec (.graceExhausted g) s = .next t ∧ (t.slot g).halted = true ∧ (t.slot g).tcause = 0x18#8)))

/-- R23, R88, R103, R113, R171, R402, R404, R405, R422: a partition that may start, on dies that have left reset, has its cores' slot 0 live at the record's code,
privileged as its control block says; one whose block or capabilities do not keep their rules, or one of whose dies is still in reset, does not start; a reset leaves
nothing of it running, a message of another partition in slot 11 apart; a tenant's idle helpers pass to another tenant once slot
11 runs no message (log 83), and those that run are asked to stop. Both happen only once root firmware runs (log 32). The record
and the checks of a start are log 63's, what a reset keeps in flight log 64's, the first tenant of a helper log 36's.

R212, R423 to R428: BOOT starts firmware only with both signatures and a version not below the fused one; attestation
reports the measurements, the control blocks of the partitions that run and the nonce; a fault of service firmware gives root
firmware a record; a corrected error changes nothing but the error ring, whose record of 32 bytes has CORR set, or the count of
lost records; an uncorrectable one poisons its line; a patrol scrub changes nothing. Measurements and signatures are log 8's, the
times at which the dies start log 70's, what the records leave open log 25's. -/
def Obligations.PartitionsAndFirmware : Prop :=
  (∀ (s : State) (p ten : Nat) (code frame : BitVec 128) (dl group : U64) (bud : BitVec 32) (addr : BitVec 52), p < 4 →
    let start := Instr.partitionStart p ten code frame dl bud addr group
    let pcc : Cap := { tag := true, bits := code }
    let legal := pcc.legal = true ∧ (frame ≠ 0#128 → ({ tag := true, bits := frame } : Cap).legal = true)
    let plain := ∀ cl, (s.cluster cl).ring = []
    let runs : State := { s with parts := s.parts.set {} p { s.part p with running := true } }
    let up := ∀ c < 640, runs.ownsCore p c = true → s.dieStart.get 0 (dieOf c) ≤ s.now
    ((s.part p).running = false → s.fw.booted = true → s.blockOk p = true → legal → up →
      ∃ t, exec start s = .next t ∧ (t.part p).running = true ∧ (plain → t.mem = s.mem) ∧
        ∀ c, { s with parts := t.parts }.ownsCore p c = true → ∃ x, t.slot (12 * c) = x ∧ x.live = true ∧ x.pcc = pcc ∧
          x.tenant = ten ∧ x.dline = dl ∧ x.issues = bud ∧ x.group = group ∧
          x.user = decide (s.partFld p 0x800 2 1 = 0) ∧ x.rq = List.replicate 16 0#64 ∧
          ∀ i, 1 ≤ i → i < 11 → (t.slot (12 * c + i)).live = false) ∧
    ((s.part p).running = true ∨ s.fw.booted = false ∨ s.blockOk p = false ∨ ¬ legal ∨ ¬ up →
      exec start s = .fault (.notEnabled "PARTITION_START")) ∧
    (s.fw.booted = true → ∀ ws, ∃ t, exec (.partitionReset p ws) s = .next t ∧ (t.part p).running = false ∧ (plain → t.mem = s.mem) ∧
      ∀ c, s.ownsCore p c = true → ∀ i < 11, t.slot (12 * c + i) = {}) ∧
    (s.fw.booted = true → ∀ core nt, core < 640 → nt < 16 → nt ≠ ten →
      ((∀ g ∈ helpersOf core, (s.slot g).tenant = ten ∧ (s.slot g).live = false ∧ (s.slot g).borrowed = false) →
        (s.slot (12 * core + 11)).live = false → s.commandsOn (quadOf core) = false → (s.quad (quadOf core)).leaving = none →
        ∃ t, exec (.tenantSwitch core nt) s = .next t ∧ (t.core core).switchTo = none ∧ ∀ g ∈ helpersOf core, (t.slot g).tenant = nt) ∧
      (∀ g ∈ helpersOf core, (s.slot g).tenant ≠ nt → (s.slot g).live = true → (s.slot g).admitted = false → (s.slot g).preempt = none →
        ∃ t, exec (.tenantSwitch core nt) s = .next t ∧ (t.slot g).preempt = some s.now ∧ (t.core core).switchTo = some nt))) ∧
  (∀ (s : State) (ecdsa lms : Bool) (version addr : U64) (nonce : BitVec 256) (line die : Nat),
    (s.fw.booted = false → s.fw.bootFailed = false →
      ∃ t, exec (.boot ecdsa lms version) s = .next t ∧ t.mem = s.mem ∧
        t.fw.booted = (ecdsa && lms && decide (s.fw.fusedVersion.toNat ≤ version.toNat)) ∧
        t.fw.bootFailed = !(ecdsa && lms && decide (s.fw.fusedVersion.toNat ≤ version.toNat))) ∧
    (s.fw.booted = true → ∃ t r, exec (.attestationRequest nonce) s = .next t ∧ t.fw.report = some r ∧
      r.measRoot = s.fw.measRoot ∧ r.measService = s.fw.measService ∧ r.version = s.fw.fusedVersion ∧ r.nonce = nonce ∧
      r.blocks = ((List.range 4).filter fun p => (s.part p).running).map fun p =>
        (p, (List.range 21).map fun n => (0x800 + n, s.partReg p (0x800 + n)))) ∧
    (s.fw.booted = true → die < 4 → ∃ t r, exec (.serviceCoreRestart die) s = .next t ∧ t.slots = s.slots ∧ t.mem = s.mem ∧
      t.fw.restarts.get 0 die = s.fw.restarts.get 0 die + 1 ∧ t.fw.rootErrors = s.fw.rootErrors ++ [r] ∧ r.source = 5 ∧
      r.time = s.cycle die) ∧
    exec (.patrolScrub line) s = .next s ∧
    (die < 4 → ∃ t, exec (.correctedError die addr) s = .next t ∧ t.mem = s.mem ∧ t.slots = s.slots ∧ t.poison = s.poison ∧
      ((s.errRing.get [] die).length < s.errCap → ∃ r, t.errRing.get [] die = s.errRing.get [] die ++ [r] ∧ r.length = 32 ∧
        leAt r 0 8 = addr.toNat ∧ leAt r 8 8 = (s.cycle die).toNat ∧ leAt r 19 1 = 4 ∧ leAt r 21 1 = 1) ∧
      (s.errCap ≤ (s.errRing.get [] die).length → t.errRing = s.errRing ∧ t.errLost.get 0 die = s.errLost.get 0 die + 1)) ∧
    (line < 2 ^ 60 → ∃ t, exec (.uncorrectableError line) s = .next t ∧ t.mem = s.mem ∧ t.slots = s.slots ∧
      t.poisoned (64 * line) = true ∧ ∀ k, k / 64 ≠ line → t.poisoned k = s.poisoned k))

/-- R11, R23, R24, R406, R407, R408, R416, R418, R419: once both of its dies count, link training stores an offset for each
direction whose sum is -8; an arbiter that has not chosen in this cycle sends the first flit of a class that is ready and takes one
of its free slots; a returned credit frees one and takes the oldest flit on, unless that is for the host and no module is left, and at
its end the message or the response that it carries has arrived; a failed module or port goes down as a whole, what it had not had
acknowledged goes first again, and no flit keeps to a failed port; a retried flit stays unacknowledged. The links' numbers and what they carry are log 30's. -/
def Obligations.Links : Prop :=  ∀ (s : State) (l i : Nat) (err : BitVec 4),
    ((s.dieUp (l / 4) = false ∨ s.dieUp (l % 4) = false) → exec (.linkTrain l err) s = .fault (.notEnabled "LINK_TRAIN")) ∧
    (l < 16 → (dieRoute (l / 4) (l % 4)).length = 1 → err.toNat ≤ 8 → s.dieUp (l / 4) = true → s.dieUp (l % 4) = true →
      ∃ t, exec (.linkTrain l err) s = .next t ∧ t.mem = s.mem ∧
      t.linkOff.get 0#64 (linkDir (l / 4) (l % 4)) + t.linkOff.get 0#64 (linkDir (l % 4) (l / 4)) = 0#64 - 8#64 ∧
      t.linkOff.get 0#64 (linkDir (l / 4) (l % 4)) =
        s.cycle (l % 4) - s.cycle (l / 4) + BitVec.ofNat 64 err.toNat - 8#64) ∧
    (∀ k f fs cls, s.link l = k → cls < 4 → k.waiting = [(2 * cls, f :: fs)] → 0 < k.free l (2 * cls) → s.linkDown l = false →
      k.chosenAt ≠ some s.now → (cls = 0 → 1 ≤ k.tokens) →
      ∃ t, exec (.flitArbitration l) s = .next t ∧ (t.link l).waiting.get [] (2 * cls) = fs ∧ (t.link l).chosenAt = some s.now ∧
        (t.link l).free l (2 * cls) = k.free l (2 * cls) - 1 ∧ (t.link l).unacked = k.unacked ++ [f]) ∧
    (s.linkDown l = true → exec (.flitArbitration l) s = .fault (.notEnabled "FLIT_ARBITRATION")) ∧
    (∀ cls resp f rest, let n := 2 * cls + (if resp then 1 else 0)
      (s.link l).unacked.filter (fun f => f.sub == n) = f :: rest →
      let freed := s.modLink l fun k =>
        { k with credits := k.credits.set (linkDepth l) n (min (linkDepth l) (k.free l n + 1)), unacked := k.unacked.erase f }
      (f.path = [] → exec (.creditReturn l cls resp) s = .next ((freed.landed f.id).ackLands f.id)) ∧
      ∀ m ms, f.path = m :: ms → exec (.creditReturn l cls resp) s = .next (if (m = 2600 ∨ m = 2601) ∧ s.hostDown = 15#4 then freed
        else freed.modLink m fun k => { k with waiting := k.waiting.set [] n (k.waiting.get [] n ++ [{ f with path := ms }]) })) ∧
    (∀ k : Link, k.recall.unacked = [] ∧ ∀ n, k.recall.waiting.get [] n = k.unacked.filter (fun f => f.sub == n) ++ k.waiting.get [] n) ∧
    (i < 4 → s.hostDown.getLsbD i = false → ∃ t, exec (.hostModuleFailure i) s = .next t ∧
      (∀ j, t.hostDown.getLsbD j = (s.hostDown.getLsbD j || decide (j = i))) ∧
      (t.hostDown ≠ 15#4 → t.link 2600 = (s.link 2600).recall ∧ t.link 2601 = (s.link 2601).recall)) ∧
    (i < 24 → s.portDown.getLsbD i = false → ∃ t, exec (.fabricPortFailure i) s = .next t ∧
      (∀ j, t.portDown.getLsbD j = (s.portDown.getLsbD j || decide (j = i))) ∧ t.flitsOf (2576 + i) = []) ∧
    ((s.link l).unacked ≠ [] → exec (.flitRetry l) s = .next s)

/-! ## Encodings and the machine as a whole (R13, R26, R27, R30, R50 to R52) -/

/-- R26 to R49: decoding the bytes of any well-formed instruction, whatever follows them, gives that instruction back with
every operand, and its length. -/
def Obligations.DecodeEncodeRoundTrip : Prop := ∀ i : Instr, Sys2Proof.Laws.RoundTrip.Statement i

/-- R50, R51: what decoding accepts is a well-formed instruction, and it has looked at every bit: the bytes it read are the
encoding of what it answers. -/
def Obligations.DecodedBytesAreTheEncoding : Prop :=  ∀ (bs : List Byte) (i : Instr) (len : Nat), decodeBytes bs = .ok (i, len) →
    i.wf = true ∧ len = (encode i).len ∧ bs.take len = encodeBytes i

/-- R28, R30, R31, R41 to R49: words of a few families, written out field by field, decode to the instructions they stand for. -/
def Obligations.WordsOfTheEncoding : Prop :=  decodeTableWord 32 (0x06 + 2 ^ 8 * 16 + 2 ^ 13 * 17 + 2 ^ 18 * 3) = some (.add (.nam 0#4) (.nam 1#4) (.age 3#4)) ∧
  decodeTableWord 16 0b00_0101_0011_0001_00 = some (.addC 3#4 5#4) ∧
  decodeTableWord 16 0b0000000101_0001_01 = some (.jC 5#10) ∧
  decodeTableWord 32 (2 + 2 ^ 2 * 39 + 2 ^ 8 * 9 + 2 ^ 23 * 2) = some (.zzero 9#4) ∧
  decodeTableWord 16 0b0000000000_0000_10 = none

/-- R27, R50 to R52, R136, R140, R217: when the current slot issues and its fetch gives bytes that decode, the step is that
instruction's execution; bytes that do not decode raise ILLOP or ILLPFX, and a failed fetch raises its trap. An event that nothing
may come before is that step's; else it is the event, input or step of a layer instruction that the free choice names, where that
can take place. After it the slots of the core whose turn it is are looked at again. Which choice comes before an issue is free (log
5).

R27, R114, R124, R248: a slot whose code capability covers the bytes at its program counter, and whose core has them
buffered, executes the well-formed instruction that they encode. Which choice comes before an issue is free (log 5); that a
buffered block is not translated again is log 17's reading. -/
def Obligations.StepRunsDecoded : Prop :=
  (∀ (s : State),
    (∀ u, s.issuesAs u →
      (∀ bs v, fetchBytes (u.slot u.cur).pc u = .ok (bs, v) →
        (∀ i len, decodeBytes bs = .ok (i, len) → step s = exec i v) ∧
        (∀ len tval, decodeBytes bs = .error (.illop len tval) → step s = .next (v.issueTrap .illop tval len)) ∧
        (∀ tval, decodeBytes bs = .error (.illpfx tval) → step s = .next (v.issueTrap .illpfx tval 4))) ∧
      (∀ c tval, fetchBytes (u.slot u.cur).pc u = .error (.trap c tval) → step s = .next (u.issueTrap c tval u.fetchLen))) ∧
    (∀ i t, s.forced = some i → exec i s = .next t → step s = .next { t with scan := 0 }) ∧
    (s.forced = none → ∀ t, t = { s with tick := s.tick + 1 } → ∀ c u, t.enabled[Config.pick s.tick % (t.enabled.length + 1)]? = some c →
      t.choose c = some u → step s = .next { u with scan := 0 })) ∧
  (∀ (s u : State) (i : Instr), s.issuesAs u → i.wf = true →
    let x := u.slot u.cur
    x.pcc.tag = true → x.pcc.space = 0 → x.pcc.has 2 = true → x.pcc.base ≤ x.pc → x.pc + (encode i).len ≤ x.pcc.top →
    x.pc % 2 = 0 → (∀ j < (encode i).len, u.buffered (x.pc + j) = some ((encodeBytes i).getD j 0#8)) → step s = exec i u)

/-- R13, R204, R205: no step of the machine stops: whatever the state, an instruction completes, traps or is blocked, an event
takes place, or the cycle ends. Which of them comes next is free (log 5). -/
def Obligations.EveryStepGoesOn : Prop := ∀ s : State, (∃ t, step s = .next t) ∧ ∀ n, s.goesOn n

/-- R113, R114, R428: every step keeps memory, tags and poison in their canonical forms: equal memories stay equal data. -/
def Obligations.EveryStepKeepsMemoryCanonical : Prop :=  ∀ s t : State, s.canonical → step s = .next t → t.canonical

/-- R13, R23, R86, R88, R135, R169, R203, R425: what reset leaves: canonical memory, no live slot, counters at 0, rotation pointers at 0,
guards CLEAR, every trap register at its reset value, no deadline, nothing in flight, no partition running, nothing booted. That
the result queue, the capability registers and the presence bits read as 0 before anything has started is the model's choice
(log 3: the manual gives them values only at a start). -/
def Obligations.ResetState : Prop :=  State.reset.canonical ∧ State.reset.flight = [] ∧ State.reset.inbox = [] ∧ State.reset.fw.booted = false ∧
  (∀ d, State.reset.cycle d = 0#64) ∧ (∀ c, (State.reset.core c).rot = 0 ∧ (State.reset.core c).rcache = []) ∧
  (∀ p, (State.reset.part p).running = false) ∧
  ∀ g, ∃ x, State.reset.slot g = x ∧ x.live = false ∧ (∀ i, x.guards.get Guard.clear i = Guard.clear) ∧ x.loops = [] ∧
    x.tcause = 0#8 ∧ x.tpc = 0#52 ∧ x.tval = 0#64 ∧ x.elost = false ∧ x.grace = false ∧ x.thidden = 0#2 ∧ x.ilen = 0#4 ∧
    x.tbase = 0#39 ∧ x.ten = false ∧ x.inTrap = false ∧ x.hidden = 0 ∧ x.rmode = 0#3 ∧ x.fflags = 0#6 ∧ x.pres = 0#16 ∧
    x.dline = BitVec.allOnes 64 ∧ x.group = 0#64 ∧ x.rq.length = 16 ∧ (∀ i < 16, x.rq[i]? = some 0#64) ∧ (∀ i, x.kreg i = Cap.null)

/-- R32, R86, R89 to R92: an integer instruction does one of two things: it is blocked, or it completes with one result at its
destination. Either way memory, tags, poison, every other slot, the quadrants and the accesses in flight stay as they were, and
so do its slot's named registers but the destination, its extension, capability, vector, mask and moment registers, its floating
state and its trap registers. -/
def Obligations.IntegerFrame : Prop :=  ∀ (s : State) (i : Instr) (d : Dst), intDst i = some d →
    (exec i s = s.waits ∨ ∃ v, exec i s = s.gives (encode i).len d v) ∧
    ∃ t, exec i s = .next t ∧ t.mem = s.mem ∧ t.tags = s.tags ∧ t.poison = s.poison ∧ t.quads = s.quads ∧ t.flight = s.flight ∧
      (∀ h, h ≠ s.cur → t.slot h = s.slot h) ∧
      ∃ x y, s.slot s.cur = x ∧ t.slot s.cur = y ∧
        (∀ j : BitVec 4, d ≠ .nam j → y.n.get 0#64 j.toNat = x.n.get 0#64 j.toNat ∧ y.pres.getLsbD j.toNat = x.pres.getLsbD j.toNat) ∧
        (d = .queue → y.guards = x.guards) ∧
        y.x = x.x ∧ y.k = x.k ∧ y.v = x.v ∧ y.vm = x.vm ∧ y.m = x.m ∧ y.rmode = x.rmode ∧ y.fflags = x.fflags ∧
        y.covmode = x.covmode ∧ y.tcause = x.tcause ∧ y.tpc = x.tpc ∧ y.tval = x.tval ∧ y.inTrap = x.inTrap ∧ y.user = x.user
end

