-- ==== Sys2Proof/Laws/SMap.lean ====
section
/-!
SUPPORT. Laws of sparse maps: reading after writing, and the canonical form.
-/

namespace Sys2Proof.Machine

variable {α : Type}

@[simp] theorem SMap.get_nil (d : α) (k : Nat) : SMap.get d ([] : SMap α) k = d := rfl

theorem SMap.get_erase (d : α) (m : SMap α) (k j : Nat) : (m.erase k).get d j = if j = k then d else m.get d j := by
  induction m with
  | nil => simp [SMap.erase]
  | cons e m ih =>
    obtain ⟨i, v⟩ := e
    by_cases h : i = k <;> by_cases h' : i = j <;> simp_all [SMap.erase, SMap.get]

theorem SMap.get_insert (d : α) (m : SMap α) (k j : Nat) (v : α) (h : ∀ e ∈ m, e.1 ≠ k) :
    (m.insert k v).get d j = if j = k then v else m.get d j := by
  induction m with
  | nil => simp [SMap.insert, SMap.get, eq_comm]
  | cons e m ih =>
    obtain ⟨i, w⟩ := e
    have hi : i ≠ k := h (i, w) (by simp)
    have ih := ih fun e he => h e (by simp [he])
    by_cases hk : k < i
    · simp [SMap.insert, hk, SMap.get, eq_comm]
    · by_cases h' : i = j
      · subst h'; simp [SMap.insert, hk, SMap.get, hi]
      · simp [SMap.insert, hk, SMap.get, h', ih]

theorem SMap.mem_erase {m : SMap α} {k : Nat} {e : Nat × α} (h : e ∈ m.erase k) : e ∈ m ∧ e.1 ≠ k := by
  induction m with
  | nil => simp [SMap.erase] at h
  | cons a m ih =>
    obtain ⟨i, v⟩ := a
    by_cases hi : i = k
    · rw [SMap.erase, if_pos hi] at h; exact ⟨List.mem_cons_of_mem _ (ih h).1, (ih h).2⟩
    · rw [SMap.erase, if_neg hi] at h
      rcases List.mem_cons.1 h with h | h
      · subst h; exact ⟨by simp, hi⟩
      · exact ⟨List.mem_cons_of_mem _ (ih h).1, (ih h).2⟩

/-- Reading after `put`. -/
theorem SMap.get_put (d : α) (m : SMap α) (k j : Nat) (v : α) : (m.put k v).get d j = if j = k then v else m.get d j := by
  rw [SMap.put, SMap.get_insert _ _ _ _ _ fun e he => (SMap.mem_erase he).2, SMap.get_erase]
  split <;> rfl

/-- Reading after `set`. -/
theorem SMap.get_set [DecidableEq α] (d : α) (m : SMap α) (k j : Nat) (v : α) :
    (m.set d k v).get d j = if j = k then v else m.get d j := by
  rw [SMap.set]
  split
  next h => subst h; rw [SMap.get_erase]
  next => rw [SMap.get_insert _ _ _ _ _ fun e he => (SMap.mem_erase he).2, SMap.get_erase]; split <;> rfl

@[simp] theorem SMap.get_set_self [DecidableEq α] (d : α) (m : SMap α) (k : Nat) (v : α) : (m.set d k v).get d k = v := by
  simp [SMap.get_set]

theorem SMap.get_set_ne [DecidableEq α] {d : α} {m : SMap α} {k j : Nat} {v : α} (h : j ≠ k) :
    (m.set d k v).get d j = m.get d j := by
  simp [SMap.get_set, h]

/-! ## The canonical form -/

/-- Keys strictly rising from above `lo`, no entry equal to the default. -/
def SMap.from [DecidableEq α] (d : α) : Option Nat → SMap α → Prop
  | _, [] => True
  | lo, (k, v) :: t => (∀ l, lo = some l → l < k) ∧ v ≠ d ∧ SMap.from d (some k) t

theorem SMap.from_weaken [DecidableEq α] {d : α} {m : SMap α} {a b : Option Nat} (h : SMap.from d a m)
    (hab : ∀ l, b = some l → ∃ k, a = some k ∧ l ≤ k) : SMap.from d b m := by
  cases m with
  | nil => trivial
  | cons e m =>
    refine ⟨fun l hl => ?_, h.2⟩
    obtain ⟨k, hk, hlk⟩ := hab l hl
    exact Nat.lt_of_le_of_lt hlk (h.1 k hk)

theorem SMap.wf_iff [DecidableEq α] (d : α) (m : SMap α) : SMap.wf d m = true ↔ SMap.from d none m := by
  induction m with
  | nil => simp [SMap.wf, SMap.from]
  | cons e m ih =>
    obtain ⟨j, v⟩ := e
    cases m with
    | nil => simp [SMap.wf, SMap.from]
    | cons e' m =>
      obtain ⟨k, w⟩ := e'
      simp only [SMap.wf, Bool.and_eq_true, ih, decide_eq_true_eq, Bool.not_eq_true', decide_eq_false_iff_not]
      constructor
      · rintro ⟨⟨h1, h2⟩, h3⟩
        exact ⟨by simp, h2, ⟨by simpa using h1, h3.2⟩⟩
      · rintro ⟨_, h2, h3⟩
        exact ⟨⟨h3.1 j rfl, h2⟩, ⟨by simp, h3.2⟩⟩

theorem SMap.from_erase [DecidableEq α] {d : α} {m : SMap α} {lo : Option Nat} (k : Nat) (h : SMap.from d lo m) :
    SMap.from d lo (m.erase k) := by
  induction m generalizing lo with
  | nil => trivial
  | cons e m ih =>
    obtain ⟨i, v⟩ := e
    by_cases hi : i = k
    · rw [SMap.erase, if_pos hi]
      refine ih (SMap.from_weaken h.2.2 fun l hl => ⟨i, rfl, Nat.le_of_lt (h.1 l hl)⟩)
    · rw [SMap.erase, if_neg hi]; exact ⟨h.1, h.2.1, ih h.2.2⟩

theorem SMap.from_insert [DecidableEq α] {d v : α} {m : SMap α} {lo : Option Nat} {k : Nat} (h : SMap.from d lo m)
    (hk : ∀ e ∈ m, e.1 ≠ k) (hl : ∀ l, lo = some l → l < k) (hv : v ≠ d) : SMap.from d lo (m.insert k v) := by
  induction m generalizing lo with
  | nil => exact ⟨hl, hv, trivial⟩
  | cons e m ih =>
    obtain ⟨i, w⟩ := e
    have hik : i ≠ k := hk (i, w) (by simp)
    by_cases hlt : k < i
    · rw [SMap.insert, if_pos hlt]
      exact ⟨hl, hv, ⟨by simpa using hlt, h.2⟩⟩
    · rw [SMap.insert, if_neg hlt]
      exact ⟨h.1, h.2.1, ih h.2.2 (fun e he => hk e (by simp [he])) (by intro l hl; cases hl; omega)⟩

theorem SMap.wf_erase [DecidableEq α] {d : α} {m : SMap α} (k : Nat) (h : SMap.wf d m = true) :
    SMap.wf d (m.erase k) = true :=
  (SMap.wf_iff d _).2 (SMap.from_erase k ((SMap.wf_iff d m).1 h))

/-- `set` keeps the canonical form. -/
theorem SMap.wf_set [DecidableEq α] {d : α} {m : SMap α} (k : Nat) (v : α) (h : SMap.wf d m = true) :
    SMap.wf d (m.set d k v) = true := by
  rw [SMap.set]
  split
  · exact SMap.wf_erase k h
  next hv =>
    exact (SMap.wf_iff d _).2 (SMap.from_insert (SMap.from_erase k ((SMap.wf_iff d m).1 h))
      (fun e he => (SMap.mem_erase he).2) (by simp) hv)

/-- Canonical maps that read alike are equal. -/
theorem SMap.wf_ext [DecidableEq α] {d : α} {m m' : SMap α} (h : SMap.wf d m = true) (h' : SMap.wf d m' = true)
    (he : ∀ k, m.get d k = m'.get d k) : m = m' := by
  have low : ∀ {lo : Option Nat} {m : SMap α} {l : Nat}, SMap.from d lo m → lo = some l → ∀ k, k ≤ l → m.get d k = d := by
    intro lo m
    induction m generalizing lo with
    | nil => intros; rfl
    | cons e m ih =>
      intro l hf hl k hk
      have h1 := hf.1 l hl
      rw [SMap.get, if_neg (by omega)]
      exact ih hf.2.2 rfl k (by omega)
  have key : ∀ {lo lo' : Option Nat} {m m' : SMap α}, SMap.from d lo m → SMap.from d lo' m' →
      (∀ k, m.get d k = m'.get d k) → m = m' := by
    intro lo lo' m
    induction m generalizing lo lo' with
    | nil =>
      intro m' _ hf' hg
      cases m' with
      | nil => rfl
      | cons e m' => exact absurd (by simpa [SMap.get] using (hg e.1).symm) hf'.2.1
    | cons e m ih =>
      obtain ⟨i, v⟩ := e
      intro m' hf hf' hg
      cases m' with
      | nil => exact absurd (by simpa [SMap.get] using hg i) hf.2.1
      | cons e' m' =>
        obtain ⟨j, w⟩ := e'
        have hij : i = j := by
          rcases Nat.lt_trichotomy i j with hlt | heq | hgt
          · have := hg i
            rw [SMap.get, if_pos rfl, SMap.get, if_neg (by omega)] at this
            exact absurd (this.trans (low hf'.2.2 rfl i (by omega))) hf.2.1
          · exact heq
          · have := hg j
            rw [SMap.get, if_neg (by omega), SMap.get, if_pos rfl] at this
            exact absurd (this.symm.trans (low hf.2.2 rfl j (by omega))) hf'.2.1
        subst hij
        have hv : v = w := by simpa [SMap.get] using hg i
        subst hv
        congr 1
        refine ih hf.2.2 hf'.2.2 fun k => ?_
        have := hg k
        by_cases hk : i = k
        · subst hk; rw [low hf.2.2 rfl i (by omega), low hf'.2.2 rfl i (by omega)]
        · simpa [SMap.get, hk] using this
  exact key ((SMap.wf_iff d m).1 h) ((SMap.wf_iff d m').1 h') he

end Sys2Proof.Machine
end

