-- ==== Sys2Proof/Laws/Canonical.lean ====
section
/-!
SUPPORT. Laws of the memory operations: a byte reads as it was written last and every other one as before, and every
operation keeps bytes, tags and poison in their canonical forms.
-/

namespace Sys2Proof.Machine

/-! ## Reading after writing -/

theorem State.byte_setByte (s : State) (key k : Nat) (b : Byte) : (s.setByte key b).byte k = if k = key then b else s.byte k :=
  SMap.get_set _ _ _ _ _

theorem State.tagAt_setByte (s : State) (key k : Nat) (b : Byte) :
    (s.setByte key b).tagAt k = if k / 16 = key / 16 then false else s.tagAt k := SMap.get_erase _ _ _ _

theorem State.tagAt_setTag (s : State) (key k : Nat) (t : Bool) :
    (s.setTag key t).tagAt k = if k / 16 = key / 16 then t else s.tagAt k := SMap.get_set _ _ _ _ _

@[simp] theorem State.byte_setTag (s : State) (key k : Nat) (t : Bool) : (s.setTag key t).byte k = s.byte k := rfl

theorem State.poisoned_setPoison (s : State) (key k : Nat) (p : Bool) :
    (s.setPoison key p).poisoned k = if k / 64 = key / 64 then p else s.poisoned k := SMap.get_set _ _ _ _ _

@[simp] theorem State.byte_setPoison (s : State) (key k : Nat) (p : Bool) : (s.setPoison key p).byte k = s.byte k := rfl

/-- A byte that no write names reads as before. -/
theorem State.byte_writeAll_ne (ws : List (Nat × Byte)) (s : State) (k : Nat) (h : ∀ w ∈ ws, w.1 ≠ k) :
    (s.writeAll ws).byte k = s.byte k := by
  induction ws generalizing s with
  | nil => rfl
  | cons w ws ih =>
    rw [State.writeAll, List.foldl_cons, ← State.writeAll, ih _ fun x hx => h x (List.mem_cons_of_mem _ hx), byte_setByte,
      if_neg fun e => h w List.mem_cons_self e.symm]

/-- A byte that the writes name, no two of them the same, reads as written. -/
theorem State.byte_writeAll_mem {ws : List (Nat × Byte)} {w : Nat × Byte} (hn : (ws.map Prod.fst).Nodup) (h : w ∈ ws) (s : State) :
    (s.writeAll ws).byte w.1 = w.2 := by
  induction ws generalizing s with
  | nil => cases h
  | cons x ws ih =>
    rw [List.map_cons, List.nodup_cons] at hn
    rw [State.writeAll, List.foldl_cons, ← State.writeAll]
    rcases List.mem_cons.mp h with rfl | h
    · rw [byte_writeAll_ne _ _ _ fun y hy e => hn.1 (List.mem_map.mpr ⟨y, hy, e⟩), byte_setByte, if_pos rfl]
    · exact ih hn.2 h _

/-! ## The canonical forms -/

theorem State.reset_canonical : State.reset.canonical := ⟨rfl, rfl, rfl⟩

/-- Canonical forms depend on bytes, tags and poison alone. -/
theorem State.canonical_congr {s t : State} (hm : t.mem = s.mem) (ht : t.tags = s.tags) (hp : t.poison = s.poison)
    (h : s.canonical) : t.canonical := by
  unfold State.canonical; rw [hm, ht, hp]; exact h

theorem State.setByte_canonical {s : State} (key : Nat) (b : Byte) (h : s.canonical) : (s.setByte key b).canonical :=
  ⟨SMap.wf_set _ _ h.1, SMap.wf_erase _ h.2.1, h.2.2⟩

theorem State.setTag_canonical {s : State} (key : Nat) (t : Bool) (h : s.canonical) : (s.setTag key t).canonical :=
  ⟨h.1, SMap.wf_set _ _ h.2.1, h.2.2⟩

theorem State.setPoison_canonical {s : State} (key : Nat) (p : Bool) (h : s.canonical) : (s.setPoison key p).canonical :=
  ⟨h.1, h.2.1, SMap.wf_set _ _ h.2.2⟩

/-- A fold of steps that each keep the canonical forms keeps them. -/
theorem State.foldl_canonical {β : Type} {f : State → β → State} (hf : ∀ s b, s.canonical → (f s b).canonical) (l : List β)
    {s : State} (h : s.canonical) : (l.foldl f s).canonical := by
  induction l generalizing s with
  | nil => exact h
  | cons b l ih => exact ih (hf s b h)

theorem State.writeAll_canonical {s : State} (ws : List (Nat × Byte)) (h : s.canonical) : (s.writeAll ws).canonical :=
  foldl_canonical (fun _ w h => setByte_canonical w.1 w.2 h) ws h

theorem State.clearTag_canonical {s : State} (key : Nat) (h : s.canonical) : (s.clearTag key).canonical :=
  setTag_canonical key false h

theorem State.fill_canonical {s : State} (g : Granule) (h : s.canonical) : (s.fill g).canonical := by
  unfold State.fill
  exact foldl_canonical (fun _ t h => setTag_canonical t true h) _
    (setPoison_canonical _ _ (writeAll_canonical _ (canonical_congr rfl rfl rfl h)))

theorem State.fillFor_canonical {s : State} (key n : Nat) (h : s.canonical) : (s.fillFor key n).canonical :=
  foldl_canonical (fun _ g h => fill_canonical g h) _ h

theorem State.setPartReg_canonical {s : State} (p n : Nat) (v : U64) (h : s.canonical) : (s.setPartReg p n v).canonical :=
  canonical_congr rfl rfl rfl h

theorem State.logWrite_canonical {s : State} (p t va : Nat) (h : s.canonical) : (s.logWrite p t va).canonical := by
  have put : ∀ (u : State) (a : Nat) (f : Byte → Byte), u.canonical →
      (match u.walk p t a with | .leaf pa _ _ => if u.poisoned pa then u else u.setByte pa (f (u.byte pa)) | _ => u).canonical := by
    intro u a f hu
    split
    · split
      · exact hu
      · exact setByte_canonical _ _ hu
    · exact hu
  have ent : ∀ (u : State) (a : Nat) (bs : List Byte), u.canonical →
      (match u.walk p t a with | .leaf pa _ _ => u.writeAll (writesAt pa bs) | _ => u).canonical := by
    intro u a bs hu
    split
    · exact writeAll_canonical _ hu
    · exact hu
  unfold State.logWrite
  dsimp only
  split
  · exact h
  · generalize hu : (if va ≥ 2 ^ s.partFld p (tenantReg t 2) 16 6 then _ else _ : State) = u
    have hc : u.canonical := by
      rw [← hu]
      split
      · exact setPartReg_canonical _ _ _ h
      · exact put s _ (fun b => b ||| BitVec.ofNat 8 (2 ^ (va / 2 ^ 21 % 8))) h
    clear hu
    have he := ent u ((u.partReg p (tenantReg t 1)).toNat + 8 * ((u.partReg p (tenantReg t 3)).toNat %
      2 ^ u.partFld p (tenantReg t 2) 8 5)) (toBytes 8 (va / 2 ^ 16 * 2 ^ 16)) hc
    split <;> (split; · exact hc) <;> (split; · exact setPartReg_canonical _ _ _ hc) <;> exact ⟨he.1, he.2.1, he.2.2⟩

/-- What a home does with a list of writes keeps the canonical forms. -/
theorem State.performWrites_canonical {s : State} (p t : Nat) (va : Option Nat) (ws : List (Nat × Byte)) (tagKey : Option Nat)
    (h : s.canonical) : (s.performWrites p t va ws tagKey).canonical := by
  have h1 : (match ws with | [] => s | w :: _ => s.fillFor w.1 ws.length).canonical := by
    split
    · exact h
    · exact fillFor_canonical _ _ h
  have h2 : ∀ u : State, u.canonical → (match va, ws with | some a, _ :: _ => u.logWrite p t a | _, _ => u).canonical := by
    intro u hu
    split
    · exact logWrite_canonical _ _ _ hu
    · exact hu
  have h3 := foldl_canonical (f := fun s l => s.setPoison (l * 64) false) (fun _ l h => setPoison_canonical _ _ h) (wholeLines ws)
    (writeAll_canonical ws (h2 _ h1))
  unfold State.performWrites
  dsimp only
  split
  · exact setTag_canonical _ _ h3
  · exact h3

end Sys2Proof.Machine
end

