-- ==== Sys2Proof/Laws/State.lean ====
section
/-!
SUPPORT. Laws of the state: what each update of the state leaves as it was, field by field, and what reading a slot,
core, cluster, quadrant, engine or register gives after writing one.
-/

namespace Sys2Proof.Machine

/-! ## setSlot -/

@[simp] theorem State.setSlot_mem (s : State) (g : Nat) (x : Slot) : (s.setSlot g x).mem = s.mem := rfl
@[simp] theorem State.setSlot_tags (s : State) (g : Nat) (x : Slot) : (s.setSlot g x).tags = s.tags := rfl
@[simp] theorem State.setSlot_poison (s : State) (g : Nat) (x : Slot) : (s.setSlot g x).poison = s.poison := rfl
@[simp] theorem State.setSlot_cores (s : State) (g : Nat) (x : Slot) : (s.setSlot g x).cores = s.cores := rfl
@[simp] theorem State.setSlot_clusters (s : State) (g : Nat) (x : Slot) : (s.setSlot g x).clusters = s.clusters := rfl
@[simp] theorem State.setSlot_quads (s : State) (g : Nat) (x : Slot) : (s.setSlot g x).quads = s.quads := rfl
@[simp] theorem State.setSlot_engines (s : State) (g : Nat) (x : Slot) : (s.setSlot g x).engines = s.engines := rfl
@[simp] theorem State.setSlot_parts (s : State) (g : Nat) (x : Slot) : (s.setSlot g x).parts = s.parts := rfl
@[simp] theorem State.setSlot_layers (s : State) (g : Nat) (x : Slot) : (s.setSlot g x).layers = s.layers := rfl
@[simp] theorem State.setSlot_views (s : State) (g : Nat) (x : Slot) : (s.setSlot g x).views = s.views := rfl
@[simp] theorem State.setSlot_links (s : State) (g : Nat) (x : Slot) : (s.setSlot g x).links = s.links := rfl
@[simp] theorem State.setSlot_flight (s : State) (g : Nat) (x : Slot) : (s.setSlot g x).flight = s.flight := rfl
@[simp] theorem State.setSlot_nwrs (s : State) (g : Nat) (x : Slot) : (s.setSlot g x).nwrs = s.nwrs := rfl
@[simp] theorem State.setSlot_parked (s : State) (g : Nat) (x : Slot) : (s.setSlot g x).parked = s.parked := rfl
@[simp] theorem State.setSlot_returns (s : State) (g : Nat) (x : Slot) : (s.setSlot g x).returns = s.returns := rfl
@[simp] theorem State.setSlot_acks (s : State) (g : Nat) (x : Slot) : (s.setSlot g x).acks = s.acks := rfl
@[simp] theorem State.setSlot_releases (s : State) (g : Nat) (x : Slot) : (s.setSlot g x).releases = s.releases := rfl
@[simp] theorem State.setSlot_groupSteps (s : State) (g : Nat) (x : Slot) : (s.setSlot g x).groupSteps = s.groupSteps := rfl
@[simp] theorem State.setSlot_walks (s : State) (g : Nat) (x : Slot) : (s.setSlot g x).walks = s.walks := rfl
@[simp] theorem State.setSlot_pageWalks (s : State) (g : Nat) (x : Slot) : (s.setSlot g x).pageWalks = s.pageWalks := rfl
@[simp] theorem State.setSlot_amsgs (s : State) (g : Nat) (x : Slot) : (s.setSlot g x).amsgs = s.amsgs := rfl
@[simp] theorem State.setSlot_slices (s : State) (g : Nat) (x : Slot) : (s.setSlot g x).slices = s.slices := rfl
@[simp] theorem State.setSlot_launches (s : State) (g : Nat) (x : Slot) : (s.setSlot g x).launches = s.launches := rfl
@[simp] theorem State.setSlot_tiles (s : State) (g : Nat) (x : Slot) : (s.setSlot g x).tiles = s.tiles := rfl
@[simp] theorem State.setSlot_savedZero (s : State) (g : Nat) (x : Slot) : (s.setSlot g x).savedZero = s.savedZero := rfl
@[simp] theorem State.setSlot_savedTiles (s : State) (g : Nat) (x : Slot) : (s.setSlot g x).savedTiles = s.savedTiles := rfl
@[simp] theorem State.setSlot_absent (s : State) (g : Nat) (x : Slot) : (s.setSlot g x).absent = s.absent := rfl
@[simp] theorem State.setSlot_codebooks (s : State) (g : Nat) (x : Slot) : (s.setSlot g x).codebooks = s.codebooks := rfl
@[simp] theorem State.setSlot_dirtyFilter (s : State) (g : Nat) (x : Slot) : (s.setSlot g x).dirtyFilter = s.dirtyFilter := rfl
@[simp] theorem State.setSlot_errRing (s : State) (g : Nat) (x : Slot) : (s.setSlot g x).errRing = s.errRing := rfl
@[simp] theorem State.setSlot_errCap (s : State) (g : Nat) (x : Slot) : (s.setSlot g x).errCap = s.errCap := rfl
@[simp] theorem State.setSlot_errLost (s : State) (g : Nat) (x : Slot) : (s.setSlot g x).errLost = s.errLost := rfl
@[simp] theorem State.setSlot_fw (s : State) (g : Nat) (x : Slot) : (s.setSlot g x).fw = s.fw := rfl
@[simp] theorem State.setSlot_hostDown (s : State) (g : Nat) (x : Slot) : (s.setSlot g x).hostDown = s.hostDown := rfl
@[simp] theorem State.setSlot_portDown (s : State) (g : Nat) (x : Slot) : (s.setSlot g x).portDown = s.portDown := rfl
@[simp] theorem State.setSlot_routes (s : State) (g : Nat) (x : Slot) : (s.setSlot g x).routes = s.routes := rfl
@[simp] theorem State.setSlot_pkgIndex (s : State) (g : Nat) (x : Slot) : (s.setSlot g x).pkgIndex = s.pkgIndex := rfl
@[simp] theorem State.setSlot_dieStart (s : State) (g : Nat) (x : Slot) : (s.setSlot g x).dieStart = s.dieStart := rfl
@[simp] theorem State.setSlot_linkOff (s : State) (g : Nat) (x : Slot) : (s.setSlot g x).linkOff = s.linkOff := rfl
@[simp] theorem State.setSlot_now (s : State) (g : Nat) (x : Slot) : (s.setSlot g x).now = s.now := rfl
@[simp] theorem State.setSlot_inbox (s : State) (g : Nat) (x : Slot) : (s.setSlot g x).inbox = s.inbox := rfl
@[simp] theorem State.setSlot_tick (s : State) (g : Nat) (x : Slot) : (s.setSlot g x).tick = s.tick := rfl
@[simp] theorem State.setSlot_turn (s : State) (g : Nat) (x : Slot) : (s.setSlot g x).turn = s.turn := rfl
@[simp] theorem State.setSlot_scan (s : State) (g : Nat) (x : Slot) : (s.setSlot g x).scan = s.scan := rfl
@[simp] theorem State.setSlot_cur (s : State) (g : Nat) (x : Slot) : (s.setSlot g x).cur = s.cur := rfl
@[simp] theorem State.setSlot_fresh (s : State) (g : Nat) (x : Slot) : (s.setSlot g x).fresh = s.fresh := rfl

/-! ## modSlot -/

@[simp] theorem State.modSlot_mem (s : State) (g : Nat) (f : Slot → Slot) : (s.modSlot g f).mem = s.mem := rfl
@[simp] theorem State.modSlot_tags (s : State) (g : Nat) (f : Slot → Slot) : (s.modSlot g f).tags = s.tags := rfl
@[simp] theorem State.modSlot_poison (s : State) (g : Nat) (f : Slot → Slot) : (s.modSlot g f).poison = s.poison := rfl
@[simp] theorem State.modSlot_cores (s : State) (g : Nat) (f : Slot → Slot) : (s.modSlot g f).cores = s.cores := rfl
@[simp] theorem State.modSlot_clusters (s : State) (g : Nat) (f : Slot → Slot) : (s.modSlot g f).clusters = s.clusters := rfl
@[simp] theorem State.modSlot_quads (s : State) (g : Nat) (f : Slot → Slot) : (s.modSlot g f).quads = s.quads := rfl
@[simp] theorem State.modSlot_engines (s : State) (g : Nat) (f : Slot → Slot) : (s.modSlot g f).engines = s.engines := rfl
@[simp] theorem State.modSlot_parts (s : State) (g : Nat) (f : Slot → Slot) : (s.modSlot g f).parts = s.parts := rfl
@[simp] theorem State.modSlot_layers (s : State) (g : Nat) (f : Slot → Slot) : (s.modSlot g f).layers = s.layers := rfl
@[simp] theorem State.modSlot_views (s : State) (g : Nat) (f : Slot → Slot) : (s.modSlot g f).views = s.views := rfl
@[simp] theorem State.modSlot_links (s : State) (g : Nat) (f : Slot → Slot) : (s.modSlot g f).links = s.links := rfl
@[simp] theorem State.modSlot_flight (s : State) (g : Nat) (f : Slot → Slot) : (s.modSlot g f).flight = s.flight := rfl
@[simp] theorem State.modSlot_nwrs (s : State) (g : Nat) (f : Slot → Slot) : (s.modSlot g f).nwrs = s.nwrs := rfl
@[simp] theorem State.modSlot_parked (s : State) (g : Nat) (f : Slot → Slot) : (s.modSlot g f).parked = s.parked := rfl
@[simp] theorem State.modSlot_returns (s : State) (g : Nat) (f : Slot → Slot) : (s.modSlot g f).returns = s.returns := rfl
@[simp] theorem State.modSlot_acks (s : State) (g : Nat) (f : Slot → Slot) : (s.modSlot g f).acks = s.acks := rfl
@[simp] theorem State.modSlot_releases (s : State) (g : Nat) (f : Slot → Slot) : (s.modSlot g f).releases = s.releases := rfl
@[simp] theorem State.modSlot_groupSteps (s : State) (g : Nat) (f : Slot → Slot) : (s.modSlot g f).groupSteps = s.groupSteps := rfl
@[simp] theorem State.modSlot_walks (s : State) (g : Nat) (f : Slot → Slot) : (s.modSlot g f).walks = s.walks := rfl
@[simp] theorem State.modSlot_pageWalks (s : State) (g : Nat) (f : Slot → Slot) : (s.modSlot g f).pageWalks = s.pageWalks := rfl
@[simp] theorem State.modSlot_amsgs (s : State) (g : Nat) (f : Slot → Slot) : (s.modSlot g f).amsgs = s.amsgs := rfl
@[simp] theorem State.modSlot_slices (s : State) (g : Nat) (f : Slot → Slot) : (s.modSlot g f).slices = s.slices := rfl
@[simp] theorem State.modSlot_launches (s : State) (g : Nat) (f : Slot → Slot) : (s.modSlot g f).launches = s.launches := rfl
@[simp] theorem State.modSlot_tiles (s : State) (g : Nat) (f : Slot → Slot) : (s.modSlot g f).tiles = s.tiles := rfl
@[simp] theorem State.modSlot_savedZero (s : State) (g : Nat) (f : Slot → Slot) : (s.modSlot g f).savedZero = s.savedZero := rfl
@[simp] theorem State.modSlot_savedTiles (s : State) (g : Nat) (f : Slot → Slot) : (s.modSlot g f).savedTiles = s.savedTiles := rfl
@[simp] theorem State.modSlot_absent (s : State) (g : Nat) (f : Slot → Slot) : (s.modSlot g f).absent = s.absent := rfl
@[simp] theorem State.modSlot_codebooks (s : State) (g : Nat) (f : Slot → Slot) : (s.modSlot g f).codebooks = s.codebooks := rfl
@[simp] theorem State.modSlot_dirtyFilter (s : State) (g : Nat) (f : Slot → Slot) : (s.modSlot g f).dirtyFilter = s.dirtyFilter := rfl
@[simp] theorem State.modSlot_errRing (s : State) (g : Nat) (f : Slot → Slot) : (s.modSlot g f).errRing = s.errRing := rfl
@[simp] theorem State.modSlot_errCap (s : State) (g : Nat) (f : Slot → Slot) : (s.modSlot g f).errCap = s.errCap := rfl
@[simp] theorem State.modSlot_errLost (s : State) (g : Nat) (f : Slot → Slot) : (s.modSlot g f).errLost = s.errLost := rfl
@[simp] theorem State.modSlot_fw (s : State) (g : Nat) (f : Slot → Slot) : (s.modSlot g f).fw = s.fw := rfl
@[simp] theorem State.modSlot_hostDown (s : State) (g : Nat) (f : Slot → Slot) : (s.modSlot g f).hostDown = s.hostDown := rfl
@[simp] theorem State.modSlot_portDown (s : State) (g : Nat) (f : Slot → Slot) : (s.modSlot g f).portDown = s.portDown := rfl
@[simp] theorem State.modSlot_routes (s : State) (g : Nat) (f : Slot → Slot) : (s.modSlot g f).routes = s.routes := rfl
@[simp] theorem State.modSlot_pkgIndex (s : State) (g : Nat) (f : Slot → Slot) : (s.modSlot g f).pkgIndex = s.pkgIndex := rfl
@[simp] theorem State.modSlot_dieStart (s : State) (g : Nat) (f : Slot → Slot) : (s.modSlot g f).dieStart = s.dieStart := rfl
@[simp] theorem State.modSlot_linkOff (s : State) (g : Nat) (f : Slot → Slot) : (s.modSlot g f).linkOff = s.linkOff := rfl
@[simp] theorem State.modSlot_now (s : State) (g : Nat) (f : Slot → Slot) : (s.modSlot g f).now = s.now := rfl
@[simp] theorem State.modSlot_inbox (s : State) (g : Nat) (f : Slot → Slot) : (s.modSlot g f).inbox = s.inbox := rfl
@[simp] theorem State.modSlot_tick (s : State) (g : Nat) (f : Slot → Slot) : (s.modSlot g f).tick = s.tick := rfl
@[simp] theorem State.modSlot_turn (s : State) (g : Nat) (f : Slot → Slot) : (s.modSlot g f).turn = s.turn := rfl
@[simp] theorem State.modSlot_scan (s : State) (g : Nat) (f : Slot → Slot) : (s.modSlot g f).scan = s.scan := rfl
@[simp] theorem State.modSlot_cur (s : State) (g : Nat) (f : Slot → Slot) : (s.modSlot g f).cur = s.cur := rfl
@[simp] theorem State.modSlot_fresh (s : State) (g : Nat) (f : Slot → Slot) : (s.modSlot g f).fresh = s.fresh := rfl

/-! ## modCore -/

@[simp] theorem State.modCore_mem (s : State) (c : Nat) (f : Core → Core) : (s.modCore c f).mem = s.mem := rfl
@[simp] theorem State.modCore_tags (s : State) (c : Nat) (f : Core → Core) : (s.modCore c f).tags = s.tags := rfl
@[simp] theorem State.modCore_poison (s : State) (c : Nat) (f : Core → Core) : (s.modCore c f).poison = s.poison := rfl
@[simp] theorem State.modCore_slots (s : State) (c : Nat) (f : Core → Core) : (s.modCore c f).slots = s.slots := rfl
@[simp] theorem State.modCore_clusters (s : State) (c : Nat) (f : Core → Core) : (s.modCore c f).clusters = s.clusters := rfl
@[simp] theorem State.modCore_quads (s : State) (c : Nat) (f : Core → Core) : (s.modCore c f).quads = s.quads := rfl
@[simp] theorem State.modCore_engines (s : State) (c : Nat) (f : Core → Core) : (s.modCore c f).engines = s.engines := rfl
@[simp] theorem State.modCore_parts (s : State) (c : Nat) (f : Core → Core) : (s.modCore c f).parts = s.parts := rfl
@[simp] theorem State.modCore_layers (s : State) (c : Nat) (f : Core → Core) : (s.modCore c f).layers = s.layers := rfl
@[simp] theorem State.modCore_views (s : State) (c : Nat) (f : Core → Core) : (s.modCore c f).views = s.views := rfl
@[simp] theorem State.modCore_links (s : State) (c : Nat) (f : Core → Core) : (s.modCore c f).links = s.links := rfl
@[simp] theorem State.modCore_flight (s : State) (c : Nat) (f : Core → Core) : (s.modCore c f).flight = s.flight := rfl
@[simp] theorem State.modCore_nwrs (s : State) (c : Nat) (f : Core → Core) : (s.modCore c f).nwrs = s.nwrs := rfl
@[simp] theorem State.modCore_parked (s : State) (c : Nat) (f : Core → Core) : (s.modCore c f).parked = s.parked := rfl
@[simp] theorem State.modCore_returns (s : State) (c : Nat) (f : Core → Core) : (s.modCore c f).returns = s.returns := rfl
@[simp] theorem State.modCore_acks (s : State) (c : Nat) (f : Core → Core) : (s.modCore c f).acks = s.acks := rfl
@[simp] theorem State.modCore_releases (s : State) (c : Nat) (f : Core → Core) : (s.modCore c f).releases = s.releases := rfl
@[simp] theorem State.modCore_groupSteps (s : State) (c : Nat) (f : Core → Core) : (s.modCore c f).groupSteps = s.groupSteps := rfl
@[simp] theorem State.modCore_walks (s : State) (c : Nat) (f : Core → Core) : (s.modCore c f).walks = s.walks := rfl
@[simp] theorem State.modCore_pageWalks (s : State) (c : Nat) (f : Core → Core) : (s.modCore c f).pageWalks = s.pageWalks := rfl
@[simp] theorem State.modCore_amsgs (s : State) (c : Nat) (f : Core → Core) : (s.modCore c f).amsgs = s.amsgs := rfl
@[simp] theorem State.modCore_slices (s : State) (c : Nat) (f : Core → Core) : (s.modCore c f).slices = s.slices := rfl
@[simp] theorem State.modCore_launches (s : State) (c : Nat) (f : Core → Core) : (s.modCore c f).launches = s.launches := rfl
@[simp] theorem State.modCore_tiles (s : State) (c : Nat) (f : Core → Core) : (s.modCore c f).tiles = s.tiles := rfl
@[simp] theorem State.modCore_savedZero (s : State) (c : Nat) (f : Core → Core) : (s.modCore c f).savedZero = s.savedZero := rfl
@[simp] theorem State.modCore_savedTiles (s : State) (c : Nat) (f : Core → Core) : (s.modCore c f).savedTiles = s.savedTiles := rfl
@[simp] theorem State.modCore_absent (s : State) (c : Nat) (f : Core → Core) : (s.modCore c f).absent = s.absent := rfl
@[simp] theorem State.modCore_codebooks (s : State) (c : Nat) (f : Core → Core) : (s.modCore c f).codebooks = s.codebooks := rfl
@[simp] theorem State.modCore_dirtyFilter (s : State) (c : Nat) (f : Core → Core) : (s.modCore c f).dirtyFilter = s.dirtyFilter := rfl
@[simp] theorem State.modCore_errRing (s : State) (c : Nat) (f : Core → Core) : (s.modCore c f).errRing = s.errRing := rfl
@[simp] theorem State.modCore_errCap (s : State) (c : Nat) (f : Core → Core) : (s.modCore c f).errCap = s.errCap := rfl
@[simp] theorem State.modCore_errLost (s : State) (c : Nat) (f : Core → Core) : (s.modCore c f).errLost = s.errLost := rfl
@[simp] theorem State.modCore_fw (s : State) (c : Nat) (f : Core → Core) : (s.modCore c f).fw = s.fw := rfl
@[simp] theorem State.modCore_hostDown (s : State) (c : Nat) (f : Core → Core) : (s.modCore c f).hostDown = s.hostDown := rfl
@[simp] theorem State.modCore_portDown (s : State) (c : Nat) (f : Core → Core) : (s.modCore c f).portDown = s.portDown := rfl
@[simp] theorem State.modCore_routes (s : State) (c : Nat) (f : Core → Core) : (s.modCore c f).routes = s.routes := rfl
@[simp] theorem State.modCore_pkgIndex (s : State) (c : Nat) (f : Core → Core) : (s.modCore c f).pkgIndex = s.pkgIndex := rfl
@[simp] theorem State.modCore_dieStart (s : State) (c : Nat) (f : Core → Core) : (s.modCore c f).dieStart = s.dieStart := rfl
@[simp] theorem State.modCore_linkOff (s : State) (c : Nat) (f : Core → Core) : (s.modCore c f).linkOff = s.linkOff := rfl
@[simp] theorem State.modCore_now (s : State) (c : Nat) (f : Core → Core) : (s.modCore c f).now = s.now := rfl
@[simp] theorem State.modCore_inbox (s : State) (c : Nat) (f : Core → Core) : (s.modCore c f).inbox = s.inbox := rfl
@[simp] theorem State.modCore_tick (s : State) (c : Nat) (f : Core → Core) : (s.modCore c f).tick = s.tick := rfl
@[simp] theorem State.modCore_turn (s : State) (c : Nat) (f : Core → Core) : (s.modCore c f).turn = s.turn := rfl
@[simp] theorem State.modCore_scan (s : State) (c : Nat) (f : Core → Core) : (s.modCore c f).scan = s.scan := rfl
@[simp] theorem State.modCore_cur (s : State) (c : Nat) (f : Core → Core) : (s.modCore c f).cur = s.cur := rfl
@[simp] theorem State.modCore_fresh (s : State) (c : Nat) (f : Core → Core) : (s.modCore c f).fresh = s.fresh := rfl

/-! ## modCluster -/

@[simp] theorem State.modCluster_mem (s : State) (c : Nat) (f : Cluster → Cluster) : (s.modCluster c f).mem = s.mem := rfl
@[simp] theorem State.modCluster_tags (s : State) (c : Nat) (f : Cluster → Cluster) : (s.modCluster c f).tags = s.tags := rfl
@[simp] theorem State.modCluster_poison (s : State) (c : Nat) (f : Cluster → Cluster) : (s.modCluster c f).poison = s.poison := rfl
@[simp] theorem State.modCluster_slots (s : State) (c : Nat) (f : Cluster → Cluster) : (s.modCluster c f).slots = s.slots := rfl
@[simp] theorem State.modCluster_cores (s : State) (c : Nat) (f : Cluster → Cluster) : (s.modCluster c f).cores = s.cores := rfl
@[simp] theorem State.modCluster_quads (s : State) (c : Nat) (f : Cluster → Cluster) : (s.modCluster c f).quads = s.quads := rfl
@[simp] theorem State.modCluster_engines (s : State) (c : Nat) (f : Cluster → Cluster) : (s.modCluster c f).engines = s.engines := rfl
@[simp] theorem State.modCluster_parts (s : State) (c : Nat) (f : Cluster → Cluster) : (s.modCluster c f).parts = s.parts := rfl
@[simp] theorem State.modCluster_layers (s : State) (c : Nat) (f : Cluster → Cluster) : (s.modCluster c f).layers = s.layers := rfl
@[simp] theorem State.modCluster_views (s : State) (c : Nat) (f : Cluster → Cluster) : (s.modCluster c f).views = s.views := rfl
@[simp] theorem State.modCluster_links (s : State) (c : Nat) (f : Cluster → Cluster) : (s.modCluster c f).links = s.links := rfl
@[simp] theorem State.modCluster_flight (s : State) (c : Nat) (f : Cluster → Cluster) : (s.modCluster c f).flight = s.flight := rfl
@[simp] theorem State.modCluster_nwrs (s : State) (c : Nat) (f : Cluster → Cluster) : (s.modCluster c f).nwrs = s.nwrs := rfl
@[simp] theorem State.modCluster_parked (s : State) (c : Nat) (f : Cluster → Cluster) : (s.modCluster c f).parked = s.parked := rfl
@[simp] theorem State.modCluster_returns (s : State) (c : Nat) (f : Cluster → Cluster) : (s.modCluster c f).returns = s.returns := rfl
@[simp] theorem State.modCluster_acks (s : State) (c : Nat) (f : Cluster → Cluster) : (s.modCluster c f).acks = s.acks := rfl
@[simp] theorem State.modCluster_releases (s : State) (c : Nat) (f : Cluster → Cluster) : (s.modCluster c f).releases = s.releases := rfl
@[simp] theorem State.modCluster_groupSteps (s : State) (c : Nat) (f : Cluster → Cluster) : (s.modCluster c f).groupSteps = s.groupSteps := rfl
@[simp] theorem State.modCluster_walks (s : State) (c : Nat) (f : Cluster → Cluster) : (s.modCluster c f).walks = s.walks := rfl
@[simp] theorem State.modCluster_pageWalks (s : State) (c : Nat) (f : Cluster → Cluster) : (s.modCluster c f).pageWalks = s.pageWalks := rfl
@[simp] theorem State.modCluster_amsgs (s : State) (c : Nat) (f : Cluster → Cluster) : (s.modCluster c f).amsgs = s.amsgs := rfl
@[simp] theorem State.modCluster_slices (s : State) (c : Nat) (f : Cluster → Cluster) : (s.modCluster c f).slices = s.slices := rfl
@[simp] theorem State.modCluster_launches (s : State) (c : Nat) (f : Cluster → Cluster) : (s.modCluster c f).launches = s.launches := rfl
@[simp] theorem State.modCluster_tiles (s : State) (c : Nat) (f : Cluster → Cluster) : (s.modCluster c f).tiles = s.tiles := rfl
@[simp] theorem State.modCluster_savedZero (s : State) (c : Nat) (f : Cluster → Cluster) : (s.modCluster c f).savedZero = s.savedZero := rfl
@[simp] theorem State.modCluster_savedTiles (s : State) (c : Nat) (f : Cluster → Cluster) : (s.modCluster c f).savedTiles = s.savedTiles := rfl
@[simp] theorem State.modCluster_absent (s : State) (c : Nat) (f : Cluster → Cluster) : (s.modCluster c f).absent = s.absent := rfl
@[simp] theorem State.modCluster_codebooks (s : State) (c : Nat) (f : Cluster → Cluster) : (s.modCluster c f).codebooks = s.codebooks := rfl
@[simp] theorem State.modCluster_dirtyFilter (s : State) (c : Nat) (f : Cluster → Cluster) : (s.modCluster c f).dirtyFilter = s.dirtyFilter := rfl
@[simp] theorem State.modCluster_errRing (s : State) (c : Nat) (f : Cluster → Cluster) : (s.modCluster c f).errRing = s.errRing := rfl
@[simp] theorem State.modCluster_errCap (s : State) (c : Nat) (f : Cluster → Cluster) : (s.modCluster c f).errCap = s.errCap := rfl
@[simp] theorem State.modCluster_errLost (s : State) (c : Nat) (f : Cluster → Cluster) : (s.modCluster c f).errLost = s.errLost := rfl
@[simp] theorem State.modCluster_fw (s : State) (c : Nat) (f : Cluster → Cluster) : (s.modCluster c f).fw = s.fw := rfl
@[simp] theorem State.modCluster_hostDown (s : State) (c : Nat) (f : Cluster → Cluster) : (s.modCluster c f).hostDown = s.hostDown := rfl
@[simp] theorem State.modCluster_portDown (s : State) (c : Nat) (f : Cluster → Cluster) : (s.modCluster c f).portDown = s.portDown := rfl
@[simp] theorem State.modCluster_routes (s : State) (c : Nat) (f : Cluster → Cluster) : (s.modCluster c f).routes = s.routes := rfl
@[simp] theorem State.modCluster_pkgIndex (s : State) (c : Nat) (f : Cluster → Cluster) : (s.modCluster c f).pkgIndex = s.pkgIndex := rfl
@[simp] theorem State.modCluster_dieStart (s : State) (c : Nat) (f : Cluster → Cluster) : (s.modCluster c f).dieStart = s.dieStart := rfl
@[simp] theorem State.modCluster_linkOff (s : State) (c : Nat) (f : Cluster → Cluster) : (s.modCluster c f).linkOff = s.linkOff := rfl
@[simp] theorem State.modCluster_now (s : State) (c : Nat) (f : Cluster → Cluster) : (s.modCluster c f).now = s.now := rfl
@[simp] theorem State.modCluster_inbox (s : State) (c : Nat) (f : Cluster → Cluster) : (s.modCluster c f).inbox = s.inbox := rfl
@[simp] theorem State.modCluster_tick (s : State) (c : Nat) (f : Cluster → Cluster) : (s.modCluster c f).tick = s.tick := rfl
@[simp] theorem State.modCluster_turn (s : State) (c : Nat) (f : Cluster → Cluster) : (s.modCluster c f).turn = s.turn := rfl
@[simp] theorem State.modCluster_scan (s : State) (c : Nat) (f : Cluster → Cluster) : (s.modCluster c f).scan = s.scan := rfl
@[simp] theorem State.modCluster_cur (s : State) (c : Nat) (f : Cluster → Cluster) : (s.modCluster c f).cur = s.cur := rfl
@[simp] theorem State.modCluster_fresh (s : State) (c : Nat) (f : Cluster → Cluster) : (s.modCluster c f).fresh = s.fresh := rfl

/-! ## modQuad -/

@[simp] theorem State.modQuad_mem (s : State) (q : Nat) (f : Quad → Quad) : (s.modQuad q f).mem = s.mem := rfl
@[simp] theorem State.modQuad_tags (s : State) (q : Nat) (f : Quad → Quad) : (s.modQuad q f).tags = s.tags := rfl
@[simp] theorem State.modQuad_poison (s : State) (q : Nat) (f : Quad → Quad) : (s.modQuad q f).poison = s.poison := rfl
@[simp] theorem State.modQuad_slots (s : State) (q : Nat) (f : Quad → Quad) : (s.modQuad q f).slots = s.slots := rfl
@[simp] theorem State.modQuad_cores (s : State) (q : Nat) (f : Quad → Quad) : (s.modQuad q f).cores = s.cores := rfl
@[simp] theorem State.modQuad_clusters (s : State) (q : Nat) (f : Quad → Quad) : (s.modQuad q f).clusters = s.clusters := rfl
@[simp] theorem State.modQuad_engines (s : State) (q : Nat) (f : Quad → Quad) : (s.modQuad q f).engines = s.engines := rfl
@[simp] theorem State.modQuad_parts (s : State) (q : Nat) (f : Quad → Quad) : (s.modQuad q f).parts = s.parts := rfl
@[simp] theorem State.modQuad_layers (s : State) (q : Nat) (f : Quad → Quad) : (s.modQuad q f).layers = s.layers := rfl
@[simp] theorem State.modQuad_views (s : State) (q : Nat) (f : Quad → Quad) : (s.modQuad q f).views = s.views := rfl
@[simp] theorem State.modQuad_links (s : State) (q : Nat) (f : Quad → Quad) : (s.modQuad q f).links = s.links := rfl
@[simp] theorem State.modQuad_flight (s : State) (q : Nat) (f : Quad → Quad) : (s.modQuad q f).flight = s.flight := rfl
@[simp] theorem State.modQuad_nwrs (s : State) (q : Nat) (f : Quad → Quad) : (s.modQuad q f).nwrs = s.nwrs := rfl
@[simp] theorem State.modQuad_parked (s : State) (q : Nat) (f : Quad → Quad) : (s.modQuad q f).parked = s.parked := rfl
@[simp] theorem State.modQuad_returns (s : State) (q : Nat) (f : Quad → Quad) : (s.modQuad q f).returns = s.returns := rfl
@[simp] theorem State.modQuad_acks (s : State) (q : Nat) (f : Quad → Quad) : (s.modQuad q f).acks = s.acks := rfl
@[simp] theorem State.modQuad_releases (s : State) (q : Nat) (f : Quad → Quad) : (s.modQuad q f).releases = s.releases := rfl
@[simp] theorem State.modQuad_groupSteps (s : State) (q : Nat) (f : Quad → Quad) : (s.modQuad q f).groupSteps = s.groupSteps := rfl
@[simp] theorem State.modQuad_walks (s : State) (q : Nat) (f : Quad → Quad) : (s.modQuad q f).walks = s.walks := rfl
@[simp] theorem State.modQuad_pageWalks (s : State) (q : Nat) (f : Quad → Quad) : (s.modQuad q f).pageWalks = s.pageWalks := rfl
@[simp] theorem State.modQuad_amsgs (s : State) (q : Nat) (f : Quad → Quad) : (s.modQuad q f).amsgs = s.amsgs := rfl
@[simp] theorem State.modQuad_slices (s : State) (q : Nat) (f : Quad → Quad) : (s.modQuad q f).slices = s.slices := rfl
@[simp] theorem State.modQuad_launches (s : State) (q : Nat) (f : Quad → Quad) : (s.modQuad q f).launches = s.launches := rfl
@[simp] theorem State.modQuad_tiles (s : State) (q : Nat) (f : Quad → Quad) : (s.modQuad q f).tiles = s.tiles := rfl
@[simp] theorem State.modQuad_savedZero (s : State) (q : Nat) (f : Quad → Quad) : (s.modQuad q f).savedZero = s.savedZero := rfl
@[simp] theorem State.modQuad_savedTiles (s : State) (q : Nat) (f : Quad → Quad) : (s.modQuad q f).savedTiles = s.savedTiles := rfl
@[simp] theorem State.modQuad_absent (s : State) (q : Nat) (f : Quad → Quad) : (s.modQuad q f).absent = s.absent := rfl
@[simp] theorem State.modQuad_codebooks (s : State) (q : Nat) (f : Quad → Quad) : (s.modQuad q f).codebooks = s.codebooks := rfl
@[simp] theorem State.modQuad_dirtyFilter (s : State) (q : Nat) (f : Quad → Quad) : (s.modQuad q f).dirtyFilter = s.dirtyFilter := rfl
@[simp] theorem State.modQuad_errRing (s : State) (q : Nat) (f : Quad → Quad) : (s.modQuad q f).errRing = s.errRing := rfl
@[simp] theorem State.modQuad_errCap (s : State) (q : Nat) (f : Quad → Quad) : (s.modQuad q f).errCap = s.errCap := rfl
@[simp] theorem State.modQuad_errLost (s : State) (q : Nat) (f : Quad → Quad) : (s.modQuad q f).errLost = s.errLost := rfl
@[simp] theorem State.modQuad_fw (s : State) (q : Nat) (f : Quad → Quad) : (s.modQuad q f).fw = s.fw := rfl
@[simp] theorem State.modQuad_hostDown (s : State) (q : Nat) (f : Quad → Quad) : (s.modQuad q f).hostDown = s.hostDown := rfl
@[simp] theorem State.modQuad_portDown (s : State) (q : Nat) (f : Quad → Quad) : (s.modQuad q f).portDown = s.portDown := rfl
@[simp] theorem State.modQuad_routes (s : State) (q : Nat) (f : Quad → Quad) : (s.modQuad q f).routes = s.routes := rfl
@[simp] theorem State.modQuad_pkgIndex (s : State) (q : Nat) (f : Quad → Quad) : (s.modQuad q f).pkgIndex = s.pkgIndex := rfl
@[simp] theorem State.modQuad_dieStart (s : State) (q : Nat) (f : Quad → Quad) : (s.modQuad q f).dieStart = s.dieStart := rfl
@[simp] theorem State.modQuad_linkOff (s : State) (q : Nat) (f : Quad → Quad) : (s.modQuad q f).linkOff = s.linkOff := rfl
@[simp] theorem State.modQuad_now (s : State) (q : Nat) (f : Quad → Quad) : (s.modQuad q f).now = s.now := rfl
@[simp] theorem State.modQuad_inbox (s : State) (q : Nat) (f : Quad → Quad) : (s.modQuad q f).inbox = s.inbox := rfl
@[simp] theorem State.modQuad_tick (s : State) (q : Nat) (f : Quad → Quad) : (s.modQuad q f).tick = s.tick := rfl
@[simp] theorem State.modQuad_turn (s : State) (q : Nat) (f : Quad → Quad) : (s.modQuad q f).turn = s.turn := rfl
@[simp] theorem State.modQuad_scan (s : State) (q : Nat) (f : Quad → Quad) : (s.modQuad q f).scan = s.scan := rfl
@[simp] theorem State.modQuad_cur (s : State) (q : Nat) (f : Quad → Quad) : (s.modQuad q f).cur = s.cur := rfl
@[simp] theorem State.modQuad_fresh (s : State) (q : Nat) (f : Quad → Quad) : (s.modQuad q f).fresh = s.fresh := rfl

/-! ## modEngine -/

@[simp] theorem State.modEngine_mem (s : State) (e : Nat) (f : Engine → Engine) : (s.modEngine e f).mem = s.mem := rfl
@[simp] theorem State.modEngine_tags (s : State) (e : Nat) (f : Engine → Engine) : (s.modEngine e f).tags = s.tags := rfl
@[simp] theorem State.modEngine_poison (s : State) (e : Nat) (f : Engine → Engine) : (s.modEngine e f).poison = s.poison := rfl
@[simp] theorem State.modEngine_slots (s : State) (e : Nat) (f : Engine → Engine) : (s.modEngine e f).slots = s.slots := rfl
@[simp] theorem State.modEngine_cores (s : State) (e : Nat) (f : Engine → Engine) : (s.modEngine e f).cores = s.cores := rfl
@[simp] theorem State.modEngine_clusters (s : State) (e : Nat) (f : Engine → Engine) : (s.modEngine e f).clusters = s.clusters := rfl
@[simp] theorem State.modEngine_quads (s : State) (e : Nat) (f : Engine → Engine) : (s.modEngine e f).quads = s.quads := rfl
@[simp] theorem State.modEngine_parts (s : State) (e : Nat) (f : Engine → Engine) : (s.modEngine e f).parts = s.parts := rfl
@[simp] theorem State.modEngine_layers (s : State) (e : Nat) (f : Engine → Engine) : (s.modEngine e f).layers = s.layers := rfl
@[simp] theorem State.modEngine_views (s : State) (e : Nat) (f : Engine → Engine) : (s.modEngine e f).views = s.views := rfl
@[simp] theorem State.modEngine_links (s : State) (e : Nat) (f : Engine → Engine) : (s.modEngine e f).links = s.links := rfl
@[simp] theorem State.modEngine_flight (s : State) (e : Nat) (f : Engine → Engine) : (s.modEngine e f).flight = s.flight := rfl
@[simp] theorem State.modEngine_nwrs (s : State) (e : Nat) (f : Engine → Engine) : (s.modEngine e f).nwrs = s.nwrs := rfl
@[simp] theorem State.modEngine_parked (s : State) (e : Nat) (f : Engine → Engine) : (s.modEngine e f).parked = s.parked := rfl
@[simp] theorem State.modEngine_returns (s : State) (e : Nat) (f : Engine → Engine) : (s.modEngine e f).returns = s.returns := rfl
@[simp] theorem State.modEngine_acks (s : State) (e : Nat) (f : Engine → Engine) : (s.modEngine e f).acks = s.acks := rfl
@[simp] theorem State.modEngine_releases (s : State) (e : Nat) (f : Engine → Engine) : (s.modEngine e f).releases = s.releases := rfl
@[simp] theorem State.modEngine_groupSteps (s : State) (e : Nat) (f : Engine → Engine) : (s.modEngine e f).groupSteps = s.groupSteps := rfl
@[simp] theorem State.modEngine_walks (s : State) (e : Nat) (f : Engine → Engine) : (s.modEngine e f).walks = s.walks := rfl
@[simp] theorem State.modEngine_pageWalks (s : State) (e : Nat) (f : Engine → Engine) : (s.modEngine e f).pageWalks = s.pageWalks := rfl
@[simp] theorem State.modEngine_amsgs (s : State) (e : Nat) (f : Engine → Engine) : (s.modEngine e f).amsgs = s.amsgs := rfl
@[simp] theorem State.modEngine_slices (s : State) (e : Nat) (f : Engine → Engine) : (s.modEngine e f).slices = s.slices := rfl
@[simp] theorem State.modEngine_launches (s : State) (e : Nat) (f : Engine → Engine) : (s.modEngine e f).launches = s.launches := rfl
@[simp] theorem State.modEngine_tiles (s : State) (e : Nat) (f : Engine → Engine) : (s.modEngine e f).tiles = s.tiles := rfl
@[simp] theorem State.modEngine_savedZero (s : State) (e : Nat) (f : Engine → Engine) : (s.modEngine e f).savedZero = s.savedZero := rfl
@[simp] theorem State.modEngine_savedTiles (s : State) (e : Nat) (f : Engine → Engine) : (s.modEngine e f).savedTiles = s.savedTiles := rfl
@[simp] theorem State.modEngine_absent (s : State) (e : Nat) (f : Engine → Engine) : (s.modEngine e f).absent = s.absent := rfl
@[simp] theorem State.modEngine_codebooks (s : State) (e : Nat) (f : Engine → Engine) : (s.modEngine e f).codebooks = s.codebooks := rfl
@[simp] theorem State.modEngine_dirtyFilter (s : State) (e : Nat) (f : Engine → Engine) : (s.modEngine e f).dirtyFilter = s.dirtyFilter := rfl
@[simp] theorem State.modEngine_errRing (s : State) (e : Nat) (f : Engine → Engine) : (s.modEngine e f).errRing = s.errRing := rfl
@[simp] theorem State.modEngine_errCap (s : State) (e : Nat) (f : Engine → Engine) : (s.modEngine e f).errCap = s.errCap := rfl
@[simp] theorem State.modEngine_errLost (s : State) (e : Nat) (f : Engine → Engine) : (s.modEngine e f).errLost = s.errLost := rfl
@[simp] theorem State.modEngine_fw (s : State) (e : Nat) (f : Engine → Engine) : (s.modEngine e f).fw = s.fw := rfl
@[simp] theorem State.modEngine_hostDown (s : State) (e : Nat) (f : Engine → Engine) : (s.modEngine e f).hostDown = s.hostDown := rfl
@[simp] theorem State.modEngine_portDown (s : State) (e : Nat) (f : Engine → Engine) : (s.modEngine e f).portDown = s.portDown := rfl
@[simp] theorem State.modEngine_routes (s : State) (e : Nat) (f : Engine → Engine) : (s.modEngine e f).routes = s.routes := rfl
@[simp] theorem State.modEngine_pkgIndex (s : State) (e : Nat) (f : Engine → Engine) : (s.modEngine e f).pkgIndex = s.pkgIndex := rfl
@[simp] theorem State.modEngine_dieStart (s : State) (e : Nat) (f : Engine → Engine) : (s.modEngine e f).dieStart = s.dieStart := rfl
@[simp] theorem State.modEngine_linkOff (s : State) (e : Nat) (f : Engine → Engine) : (s.modEngine e f).linkOff = s.linkOff := rfl
@[simp] theorem State.modEngine_now (s : State) (e : Nat) (f : Engine → Engine) : (s.modEngine e f).now = s.now := rfl
@[simp] theorem State.modEngine_inbox (s : State) (e : Nat) (f : Engine → Engine) : (s.modEngine e f).inbox = s.inbox := rfl
@[simp] theorem State.modEngine_tick (s : State) (e : Nat) (f : Engine → Engine) : (s.modEngine e f).tick = s.tick := rfl
@[simp] theorem State.modEngine_turn (s : State) (e : Nat) (f : Engine → Engine) : (s.modEngine e f).turn = s.turn := rfl
@[simp] theorem State.modEngine_scan (s : State) (e : Nat) (f : Engine → Engine) : (s.modEngine e f).scan = s.scan := rfl
@[simp] theorem State.modEngine_cur (s : State) (e : Nat) (f : Engine → Engine) : (s.modEngine e f).cur = s.cur := rfl
@[simp] theorem State.modEngine_fresh (s : State) (e : Nat) (f : Engine → Engine) : (s.modEngine e f).fresh = s.fresh := rfl

/-! ## modLink -/

@[simp] theorem State.modLink_mem (s : State) (l : Nat) (f : Link → Link) : (s.modLink l f).mem = s.mem := rfl
@[simp] theorem State.modLink_tags (s : State) (l : Nat) (f : Link → Link) : (s.modLink l f).tags = s.tags := rfl
@[simp] theorem State.modLink_poison (s : State) (l : Nat) (f : Link → Link) : (s.modLink l f).poison = s.poison := rfl
@[simp] theorem State.modLink_slots (s : State) (l : Nat) (f : Link → Link) : (s.modLink l f).slots = s.slots := rfl
@[simp] theorem State.modLink_cores (s : State) (l : Nat) (f : Link → Link) : (s.modLink l f).cores = s.cores := rfl
@[simp] theorem State.modLink_clusters (s : State) (l : Nat) (f : Link → Link) : (s.modLink l f).clusters = s.clusters := rfl
@[simp] theorem State.modLink_quads (s : State) (l : Nat) (f : Link → Link) : (s.modLink l f).quads = s.quads := rfl
@[simp] theorem State.modLink_parts (s : State) (l : Nat) (f : Link → Link) : (s.modLink l f).parts = s.parts := rfl
@[simp] theorem State.modLink_layers (s : State) (l : Nat) (f : Link → Link) : (s.modLink l f).layers = s.layers := rfl
@[simp] theorem State.modLink_views (s : State) (l : Nat) (f : Link → Link) : (s.modLink l f).views = s.views := rfl
@[simp] theorem State.modLink_flight (s : State) (l : Nat) (f : Link → Link) : (s.modLink l f).flight = s.flight := rfl
@[simp] theorem State.modLink_nwrs (s : State) (l : Nat) (f : Link → Link) : (s.modLink l f).nwrs = s.nwrs := rfl
@[simp] theorem State.modLink_parked (s : State) (l : Nat) (f : Link → Link) : (s.modLink l f).parked = s.parked := rfl
@[simp] theorem State.modLink_returns (s : State) (l : Nat) (f : Link → Link) : (s.modLink l f).returns = s.returns := rfl
@[simp] theorem State.modLink_acks (s : State) (l : Nat) (f : Link → Link) : (s.modLink l f).acks = s.acks := rfl
@[simp] theorem State.modLink_releases (s : State) (l : Nat) (f : Link → Link) : (s.modLink l f).releases = s.releases := rfl
@[simp] theorem State.modLink_groupSteps (s : State) (l : Nat) (f : Link → Link) : (s.modLink l f).groupSteps = s.groupSteps := rfl
@[simp] theorem State.modLink_walks (s : State) (l : Nat) (f : Link → Link) : (s.modLink l f).walks = s.walks := rfl
@[simp] theorem State.modLink_pageWalks (s : State) (l : Nat) (f : Link → Link) : (s.modLink l f).pageWalks = s.pageWalks := rfl
@[simp] theorem State.modLink_amsgs (s : State) (l : Nat) (f : Link → Link) : (s.modLink l f).amsgs = s.amsgs := rfl
@[simp] theorem State.modLink_slices (s : State) (l : Nat) (f : Link → Link) : (s.modLink l f).slices = s.slices := rfl
@[simp] theorem State.modLink_launches (s : State) (l : Nat) (f : Link → Link) : (s.modLink l f).launches = s.launches := rfl
@[simp] theorem State.modLink_tiles (s : State) (l : Nat) (f : Link → Link) : (s.modLink l f).tiles = s.tiles := rfl
@[simp] theorem State.modLink_savedZero (s : State) (l : Nat) (f : Link → Link) : (s.modLink l f).savedZero = s.savedZero := rfl
@[simp] theorem State.modLink_savedTiles (s : State) (l : Nat) (f : Link → Link) : (s.modLink l f).savedTiles = s.savedTiles := rfl
@[simp] theorem State.modLink_absent (s : State) (l : Nat) (f : Link → Link) : (s.modLink l f).absent = s.absent := rfl
@[simp] theorem State.modLink_codebooks (s : State) (l : Nat) (f : Link → Link) : (s.modLink l f).codebooks = s.codebooks := rfl
@[simp] theorem State.modLink_dirtyFilter (s : State) (l : Nat) (f : Link → Link) : (s.modLink l f).dirtyFilter = s.dirtyFilter := rfl
@[simp] theorem State.modLink_errRing (s : State) (l : Nat) (f : Link → Link) : (s.modLink l f).errRing = s.errRing := rfl
@[simp] theorem State.modLink_errCap (s : State) (l : Nat) (f : Link → Link) : (s.modLink l f).errCap = s.errCap := rfl
@[simp] theorem State.modLink_errLost (s : State) (l : Nat) (f : Link → Link) : (s.modLink l f).errLost = s.errLost := rfl
@[simp] theorem State.modLink_fw (s : State) (l : Nat) (f : Link → Link) : (s.modLink l f).fw = s.fw := rfl
@[simp] theorem State.modLink_hostDown (s : State) (l : Nat) (f : Link → Link) : (s.modLink l f).hostDown = s.hostDown := rfl
@[simp] theorem State.modLink_portDown (s : State) (l : Nat) (f : Link → Link) : (s.modLink l f).portDown = s.portDown := rfl
@[simp] theorem State.modLink_routes (s : State) (l : Nat) (f : Link → Link) : (s.modLink l f).routes = s.routes := rfl
@[simp] theorem State.modLink_pkgIndex (s : State) (l : Nat) (f : Link → Link) : (s.modLink l f).pkgIndex = s.pkgIndex := rfl
@[simp] theorem State.modLink_dieStart (s : State) (l : Nat) (f : Link → Link) : (s.modLink l f).dieStart = s.dieStart := rfl
@[simp] theorem State.modLink_linkOff (s : State) (l : Nat) (f : Link → Link) : (s.modLink l f).linkOff = s.linkOff := rfl
@[simp] theorem State.modLink_now (s : State) (l : Nat) (f : Link → Link) : (s.modLink l f).now = s.now := rfl
@[simp] theorem State.modLink_inbox (s : State) (l : Nat) (f : Link → Link) : (s.modLink l f).inbox = s.inbox := rfl
@[simp] theorem State.modLink_tick (s : State) (l : Nat) (f : Link → Link) : (s.modLink l f).tick = s.tick := rfl
@[simp] theorem State.modLink_turn (s : State) (l : Nat) (f : Link → Link) : (s.modLink l f).turn = s.turn := rfl
@[simp] theorem State.modLink_scan (s : State) (l : Nat) (f : Link → Link) : (s.modLink l f).scan = s.scan := rfl
@[simp] theorem State.modLink_cur (s : State) (l : Nat) (f : Link → Link) : (s.modLink l f).cur = s.cur := rfl
@[simp] theorem State.modLink_fresh (s : State) (l : Nat) (f : Link → Link) : (s.modLink l f).fresh = s.fresh := rfl
@[simp] theorem State.modLink_engines (s : State) (l : Nat) (f : Link → Link) : (s.modLink l f).engines = s.engines := rfl

/-! ## setPartReg -/

@[simp] theorem State.setPartReg_mem (s : State) (p n : Nat) (v : U64) : (s.setPartReg p n v).mem = s.mem := rfl
@[simp] theorem State.setPartReg_tags (s : State) (p n : Nat) (v : U64) : (s.setPartReg p n v).tags = s.tags := rfl
@[simp] theorem State.setPartReg_poison (s : State) (p n : Nat) (v : U64) : (s.setPartReg p n v).poison = s.poison := rfl
@[simp] theorem State.setPartReg_slots (s : State) (p n : Nat) (v : U64) : (s.setPartReg p n v).slots = s.slots := rfl
@[simp] theorem State.setPartReg_cores (s : State) (p n : Nat) (v : U64) : (s.setPartReg p n v).cores = s.cores := rfl
@[simp] theorem State.setPartReg_clusters (s : State) (p n : Nat) (v : U64) : (s.setPartReg p n v).clusters = s.clusters := rfl
@[simp] theorem State.setPartReg_quads (s : State) (p n : Nat) (v : U64) : (s.setPartReg p n v).quads = s.quads := rfl
@[simp] theorem State.setPartReg_engines (s : State) (p n : Nat) (v : U64) : (s.setPartReg p n v).engines = s.engines := rfl
@[simp] theorem State.setPartReg_layers (s : State) (p n : Nat) (v : U64) : (s.setPartReg p n v).layers = s.layers := rfl
@[simp] theorem State.setPartReg_views (s : State) (p n : Nat) (v : U64) : (s.setPartReg p n v).views = s.views := rfl
@[simp] theorem State.setPartReg_links (s : State) (p n : Nat) (v : U64) : (s.setPartReg p n v).links = s.links := rfl
@[simp] theorem State.setPartReg_flight (s : State) (p n : Nat) (v : U64) : (s.setPartReg p n v).flight = s.flight := rfl
@[simp] theorem State.setPartReg_nwrs (s : State) (p n : Nat) (v : U64) : (s.setPartReg p n v).nwrs = s.nwrs := rfl
@[simp] theorem State.setPartReg_parked (s : State) (p n : Nat) (v : U64) : (s.setPartReg p n v).parked = s.parked := rfl
@[simp] theorem State.setPartReg_returns (s : State) (p n : Nat) (v : U64) : (s.setPartReg p n v).returns = s.returns := rfl
@[simp] theorem State.setPartReg_acks (s : State) (p n : Nat) (v : U64) : (s.setPartReg p n v).acks = s.acks := rfl
@[simp] theorem State.setPartReg_releases (s : State) (p n : Nat) (v : U64) : (s.setPartReg p n v).releases = s.releases := rfl
@[simp] theorem State.setPartReg_groupSteps (s : State) (p n : Nat) (v : U64) : (s.setPartReg p n v).groupSteps = s.groupSteps := rfl
@[simp] theorem State.setPartReg_walks (s : State) (p n : Nat) (v : U64) : (s.setPartReg p n v).walks = s.walks := rfl
@[simp] theorem State.setPartReg_pageWalks (s : State) (p n : Nat) (v : U64) : (s.setPartReg p n v).pageWalks = s.pageWalks := rfl
@[simp] theorem State.setPartReg_amsgs (s : State) (p n : Nat) (v : U64) : (s.setPartReg p n v).amsgs = s.amsgs := rfl
@[simp] theorem State.setPartReg_slices (s : State) (p n : Nat) (v : U64) : (s.setPartReg p n v).slices = s.slices := rfl
@[simp] theorem State.setPartReg_launches (s : State) (p n : Nat) (v : U64) : (s.setPartReg p n v).launches = s.launches := rfl
@[simp] theorem State.setPartReg_tiles (s : State) (p n : Nat) (v : U64) : (s.setPartReg p n v).tiles = s.tiles := rfl
@[simp] theorem State.setPartReg_savedZero (s : State) (p n : Nat) (v : U64) : (s.setPartReg p n v).savedZero = s.savedZero := rfl
@[simp] theorem State.setPartReg_savedTiles (s : State) (p n : Nat) (v : U64) : (s.setPartReg p n v).savedTiles = s.savedTiles := rfl
@[simp] theorem State.setPartReg_absent (s : State) (p n : Nat) (v : U64) : (s.setPartReg p n v).absent = s.absent := rfl
@[simp] theorem State.setPartReg_codebooks (s : State) (p n : Nat) (v : U64) : (s.setPartReg p n v).codebooks = s.codebooks := rfl
@[simp] theorem State.setPartReg_dirtyFilter (s : State) (p n : Nat) (v : U64) : (s.setPartReg p n v).dirtyFilter = s.dirtyFilter := rfl
@[simp] theorem State.setPartReg_errRing (s : State) (p n : Nat) (v : U64) : (s.setPartReg p n v).errRing = s.errRing := rfl
@[simp] theorem State.setPartReg_errCap (s : State) (p n : Nat) (v : U64) : (s.setPartReg p n v).errCap = s.errCap := rfl
@[simp] theorem State.setPartReg_errLost (s : State) (p n : Nat) (v : U64) : (s.setPartReg p n v).errLost = s.errLost := rfl
@[simp] theorem State.setPartReg_fw (s : State) (p n : Nat) (v : U64) : (s.setPartReg p n v).fw = s.fw := rfl
@[simp] theorem State.setPartReg_hostDown (s : State) (p n : Nat) (v : U64) : (s.setPartReg p n v).hostDown = s.hostDown := rfl
@[simp] theorem State.setPartReg_portDown (s : State) (p n : Nat) (v : U64) : (s.setPartReg p n v).portDown = s.portDown := rfl
@[simp] theorem State.setPartReg_routes (s : State) (p n : Nat) (v : U64) : (s.setPartReg p n v).routes = s.routes := rfl
@[simp] theorem State.setPartReg_pkgIndex (s : State) (p n : Nat) (v : U64) : (s.setPartReg p n v).pkgIndex = s.pkgIndex := rfl
@[simp] theorem State.setPartReg_dieStart (s : State) (p n : Nat) (v : U64) : (s.setPartReg p n v).dieStart = s.dieStart := rfl
@[simp] theorem State.setPartReg_linkOff (s : State) (p n : Nat) (v : U64) : (s.setPartReg p n v).linkOff = s.linkOff := rfl
@[simp] theorem State.setPartReg_now (s : State) (p n : Nat) (v : U64) : (s.setPartReg p n v).now = s.now := rfl
@[simp] theorem State.setPartReg_inbox (s : State) (p n : Nat) (v : U64) : (s.setPartReg p n v).inbox = s.inbox := rfl
@[simp] theorem State.setPartReg_tick (s : State) (p n : Nat) (v : U64) : (s.setPartReg p n v).tick = s.tick := rfl
@[simp] theorem State.setPartReg_turn (s : State) (p n : Nat) (v : U64) : (s.setPartReg p n v).turn = s.turn := rfl
@[simp] theorem State.setPartReg_scan (s : State) (p n : Nat) (v : U64) : (s.setPartReg p n v).scan = s.scan := rfl
@[simp] theorem State.setPartReg_cur (s : State) (p n : Nat) (v : U64) : (s.setPartReg p n v).cur = s.cur := rfl
@[simp] theorem State.setPartReg_fresh (s : State) (p n : Nat) (v : U64) : (s.setPartReg p n v).fresh = s.fresh := rfl

/-! ## setByte -/

@[simp] theorem State.setByte_poison (s : State) (k : Nat) (b : Byte) : (s.setByte k b).poison = s.poison := rfl
@[simp] theorem State.setByte_slots (s : State) (k : Nat) (b : Byte) : (s.setByte k b).slots = s.slots := rfl
@[simp] theorem State.setByte_cores (s : State) (k : Nat) (b : Byte) : (s.setByte k b).cores = s.cores := rfl
@[simp] theorem State.setByte_clusters (s : State) (k : Nat) (b : Byte) : (s.setByte k b).clusters = s.clusters := rfl
@[simp] theorem State.setByte_quads (s : State) (k : Nat) (b : Byte) : (s.setByte k b).quads = s.quads := rfl
@[simp] theorem State.setByte_engines (s : State) (k : Nat) (b : Byte) : (s.setByte k b).engines = s.engines := rfl
@[simp] theorem State.setByte_parts (s : State) (k : Nat) (b : Byte) : (s.setByte k b).parts = s.parts := rfl
@[simp] theorem State.setByte_layers (s : State) (k : Nat) (b : Byte) : (s.setByte k b).layers = s.layers := rfl
@[simp] theorem State.setByte_views (s : State) (k : Nat) (b : Byte) : (s.setByte k b).views = s.views := rfl
@[simp] theorem State.setByte_links (s : State) (k : Nat) (b : Byte) : (s.setByte k b).links = s.links := rfl
@[simp] theorem State.setByte_flight (s : State) (k : Nat) (b : Byte) : (s.setByte k b).flight = s.flight := rfl
@[simp] theorem State.setByte_nwrs (s : State) (k : Nat) (b : Byte) : (s.setByte k b).nwrs = s.nwrs := rfl
@[simp] theorem State.setByte_parked (s : State) (k : Nat) (b : Byte) : (s.setByte k b).parked = s.parked := rfl
@[simp] theorem State.setByte_returns (s : State) (k : Nat) (b : Byte) : (s.setByte k b).returns = s.returns := rfl
@[simp] theorem State.setByte_acks (s : State) (k : Nat) (b : Byte) : (s.setByte k b).acks = s.acks := rfl
@[simp] theorem State.setByte_releases (s : State) (k : Nat) (b : Byte) : (s.setByte k b).releases = s.releases := rfl
@[simp] theorem State.setByte_groupSteps (s : State) (k : Nat) (b : Byte) : (s.setByte k b).groupSteps = s.groupSteps := rfl
@[simp] theorem State.setByte_walks (s : State) (k : Nat) (b : Byte) : (s.setByte k b).walks = s.walks := rfl
@[simp] theorem State.setByte_pageWalks (s : State) (k : Nat) (b : Byte) : (s.setByte k b).pageWalks = s.pageWalks := rfl
@[simp] theorem State.setByte_amsgs (s : State) (k : Nat) (b : Byte) : (s.setByte k b).amsgs = s.amsgs := rfl
@[simp] theorem State.setByte_slices (s : State) (k : Nat) (b : Byte) : (s.setByte k b).slices = s.slices := rfl
@[simp] theorem State.setByte_launches (s : State) (k : Nat) (b : Byte) : (s.setByte k b).launches = s.launches := rfl
@[simp] theorem State.setByte_tiles (s : State) (k : Nat) (b : Byte) : (s.setByte k b).tiles = s.tiles := rfl
@[simp] theorem State.setByte_savedZero (s : State) (k : Nat) (b : Byte) : (s.setByte k b).savedZero = s.savedZero := rfl
@[simp] theorem State.setByte_savedTiles (s : State) (k : Nat) (b : Byte) : (s.setByte k b).savedTiles = s.savedTiles := rfl
@[simp] theorem State.setByte_absent (s : State) (k : Nat) (b : Byte) : (s.setByte k b).absent = s.absent := rfl
@[simp] theorem State.setByte_codebooks (s : State) (k : Nat) (b : Byte) : (s.setByte k b).codebooks = s.codebooks := rfl
@[simp] theorem State.setByte_dirtyFilter (s : State) (k : Nat) (b : Byte) : (s.setByte k b).dirtyFilter = s.dirtyFilter := rfl
@[simp] theorem State.setByte_errRing (s : State) (k : Nat) (b : Byte) : (s.setByte k b).errRing = s.errRing := rfl
@[simp] theorem State.setByte_errCap (s : State) (k : Nat) (b : Byte) : (s.setByte k b).errCap = s.errCap := rfl
@[simp] theorem State.setByte_errLost (s : State) (k : Nat) (b : Byte) : (s.setByte k b).errLost = s.errLost := rfl
@[simp] theorem State.setByte_fw (s : State) (k : Nat) (b : Byte) : (s.setByte k b).fw = s.fw := rfl
@[simp] theorem State.setByte_hostDown (s : State) (k : Nat) (b : Byte) : (s.setByte k b).hostDown = s.hostDown := rfl
@[simp] theorem State.setByte_portDown (s : State) (k : Nat) (b : Byte) : (s.setByte k b).portDown = s.portDown := rfl
@[simp] theorem State.setByte_routes (s : State) (k : Nat) (b : Byte) : (s.setByte k b).routes = s.routes := rfl
@[simp] theorem State.setByte_pkgIndex (s : State) (k : Nat) (b : Byte) : (s.setByte k b).pkgIndex = s.pkgIndex := rfl
@[simp] theorem State.setByte_dieStart (s : State) (k : Nat) (b : Byte) : (s.setByte k b).dieStart = s.dieStart := rfl
@[simp] theorem State.setByte_linkOff (s : State) (k : Nat) (b : Byte) : (s.setByte k b).linkOff = s.linkOff := rfl
@[simp] theorem State.setByte_now (s : State) (k : Nat) (b : Byte) : (s.setByte k b).now = s.now := rfl
@[simp] theorem State.setByte_inbox (s : State) (k : Nat) (b : Byte) : (s.setByte k b).inbox = s.inbox := rfl
@[simp] theorem State.setByte_tick (s : State) (k : Nat) (b : Byte) : (s.setByte k b).tick = s.tick := rfl
@[simp] theorem State.setByte_turn (s : State) (k : Nat) (b : Byte) : (s.setByte k b).turn = s.turn := rfl
@[simp] theorem State.setByte_scan (s : State) (k : Nat) (b : Byte) : (s.setByte k b).scan = s.scan := rfl
@[simp] theorem State.setByte_cur (s : State) (k : Nat) (b : Byte) : (s.setByte k b).cur = s.cur := rfl
@[simp] theorem State.setByte_fresh (s : State) (k : Nat) (b : Byte) : (s.setByte k b).fresh = s.fresh := rfl

/-! ## setTag -/

@[simp] theorem State.setTag_mem (s : State) (k : Nat) (t : Bool) : (s.setTag k t).mem = s.mem := rfl
@[simp] theorem State.setTag_poison (s : State) (k : Nat) (t : Bool) : (s.setTag k t).poison = s.poison := rfl
@[simp] theorem State.setTag_slots (s : State) (k : Nat) (t : Bool) : (s.setTag k t).slots = s.slots := rfl
@[simp] theorem State.setTag_cores (s : State) (k : Nat) (t : Bool) : (s.setTag k t).cores = s.cores := rfl
@[simp] theorem State.setTag_clusters (s : State) (k : Nat) (t : Bool) : (s.setTag k t).clusters = s.clusters := rfl
@[simp] theorem State.setTag_quads (s : State) (k : Nat) (t : Bool) : (s.setTag k t).quads = s.quads := rfl
@[simp] theorem State.setTag_engines (s : State) (k : Nat) (t : Bool) : (s.setTag k t).engines = s.engines := rfl
@[simp] theorem State.setTag_parts (s : State) (k : Nat) (t : Bool) : (s.setTag k t).parts = s.parts := rfl
@[simp] theorem State.setTag_layers (s : State) (k : Nat) (t : Bool) : (s.setTag k t).layers = s.layers := rfl
@[simp] theorem State.setTag_views (s : State) (k : Nat) (t : Bool) : (s.setTag k t).views = s.views := rfl
@[simp] theorem State.setTag_links (s : State) (k : Nat) (t : Bool) : (s.setTag k t).links = s.links := rfl
@[simp] theorem State.setTag_flight (s : State) (k : Nat) (t : Bool) : (s.setTag k t).flight = s.flight := rfl
@[simp] theorem State.setTag_nwrs (s : State) (k : Nat) (t : Bool) : (s.setTag k t).nwrs = s.nwrs := rfl
@[simp] theorem State.setTag_parked (s : State) (k : Nat) (t : Bool) : (s.setTag k t).parked = s.parked := rfl
@[simp] theorem State.setTag_returns (s : State) (k : Nat) (t : Bool) : (s.setTag k t).returns = s.returns := rfl
@[simp] theorem State.setTag_acks (s : State) (k : Nat) (t : Bool) : (s.setTag k t).acks = s.acks := rfl
@[simp] theorem State.setTag_releases (s : State) (k : Nat) (t : Bool) : (s.setTag k t).releases = s.releases := rfl
@[simp] theorem State.setTag_groupSteps (s : State) (k : Nat) (t : Bool) : (s.setTag k t).groupSteps = s.groupSteps := rfl
@[simp] theorem State.setTag_walks (s : State) (k : Nat) (t : Bool) : (s.setTag k t).walks = s.walks := rfl
@[simp] theorem State.setTag_pageWalks (s : State) (k : Nat) (t : Bool) : (s.setTag k t).pageWalks = s.pageWalks := rfl
@[simp] theorem State.setTag_amsgs (s : State) (k : Nat) (t : Bool) : (s.setTag k t).amsgs = s.amsgs := rfl
@[simp] theorem State.setTag_slices (s : State) (k : Nat) (t : Bool) : (s.setTag k t).slices = s.slices := rfl
@[simp] theorem State.setTag_launches (s : State) (k : Nat) (t : Bool) : (s.setTag k t).launches = s.launches := rfl
@[simp] theorem State.setTag_tiles (s : State) (k : Nat) (t : Bool) : (s.setTag k t).tiles = s.tiles := rfl
@[simp] theorem State.setTag_savedZero (s : State) (k : Nat) (t : Bool) : (s.setTag k t).savedZero = s.savedZero := rfl
@[simp] theorem State.setTag_savedTiles (s : State) (k : Nat) (t : Bool) : (s.setTag k t).savedTiles = s.savedTiles := rfl
@[simp] theorem State.setTag_absent (s : State) (k : Nat) (t : Bool) : (s.setTag k t).absent = s.absent := rfl
@[simp] theorem State.setTag_codebooks (s : State) (k : Nat) (t : Bool) : (s.setTag k t).codebooks = s.codebooks := rfl
@[simp] theorem State.setTag_dirtyFilter (s : State) (k : Nat) (t : Bool) : (s.setTag k t).dirtyFilter = s.dirtyFilter := rfl
@[simp] theorem State.setTag_errRing (s : State) (k : Nat) (t : Bool) : (s.setTag k t).errRing = s.errRing := rfl
@[simp] theorem State.setTag_errCap (s : State) (k : Nat) (t : Bool) : (s.setTag k t).errCap = s.errCap := rfl
@[simp] theorem State.setTag_errLost (s : State) (k : Nat) (t : Bool) : (s.setTag k t).errLost = s.errLost := rfl
@[simp] theorem State.setTag_fw (s : State) (k : Nat) (t : Bool) : (s.setTag k t).fw = s.fw := rfl
@[simp] theorem State.setTag_hostDown (s : State) (k : Nat) (t : Bool) : (s.setTag k t).hostDown = s.hostDown := rfl
@[simp] theorem State.setTag_portDown (s : State) (k : Nat) (t : Bool) : (s.setTag k t).portDown = s.portDown := rfl
@[simp] theorem State.setTag_routes (s : State) (k : Nat) (t : Bool) : (s.setTag k t).routes = s.routes := rfl
@[simp] theorem State.setTag_pkgIndex (s : State) (k : Nat) (t : Bool) : (s.setTag k t).pkgIndex = s.pkgIndex := rfl
@[simp] theorem State.setTag_dieStart (s : State) (k : Nat) (t : Bool) : (s.setTag k t).dieStart = s.dieStart := rfl
@[simp] theorem State.setTag_linkOff (s : State) (k : Nat) (t : Bool) : (s.setTag k t).linkOff = s.linkOff := rfl
@[simp] theorem State.setTag_now (s : State) (k : Nat) (t : Bool) : (s.setTag k t).now = s.now := rfl
@[simp] theorem State.setTag_inbox (s : State) (k : Nat) (t : Bool) : (s.setTag k t).inbox = s.inbox := rfl
@[simp] theorem State.setTag_tick (s : State) (k : Nat) (t : Bool) : (s.setTag k t).tick = s.tick := rfl
@[simp] theorem State.setTag_turn (s : State) (k : Nat) (t : Bool) : (s.setTag k t).turn = s.turn := rfl
@[simp] theorem State.setTag_scan (s : State) (k : Nat) (t : Bool) : (s.setTag k t).scan = s.scan := rfl
@[simp] theorem State.setTag_cur (s : State) (k : Nat) (t : Bool) : (s.setTag k t).cur = s.cur := rfl
@[simp] theorem State.setTag_fresh (s : State) (k : Nat) (t : Bool) : (s.setTag k t).fresh = s.fresh := rfl

/-! ## setPoison -/

@[simp] theorem State.setPoison_mem (s : State) (k : Nat) (b : Bool) : (s.setPoison k b).mem = s.mem := rfl
@[simp] theorem State.setPoison_tags (s : State) (k : Nat) (b : Bool) : (s.setPoison k b).tags = s.tags := rfl
@[simp] theorem State.setPoison_slots (s : State) (k : Nat) (b : Bool) : (s.setPoison k b).slots = s.slots := rfl
@[simp] theorem State.setPoison_cores (s : State) (k : Nat) (b : Bool) : (s.setPoison k b).cores = s.cores := rfl
@[simp] theorem State.setPoison_clusters (s : State) (k : Nat) (b : Bool) : (s.setPoison k b).clusters = s.clusters := rfl
@[simp] theorem State.setPoison_quads (s : State) (k : Nat) (b : Bool) : (s.setPoison k b).quads = s.quads := rfl
@[simp] theorem State.setPoison_engines (s : State) (k : Nat) (b : Bool) : (s.setPoison k b).engines = s.engines := rfl
@[simp] theorem State.setPoison_parts (s : State) (k : Nat) (b : Bool) : (s.setPoison k b).parts = s.parts := rfl
@[simp] theorem State.setPoison_layers (s : State) (k : Nat) (b : Bool) : (s.setPoison k b).layers = s.layers := rfl
@[simp] theorem State.setPoison_views (s : State) (k : Nat) (b : Bool) : (s.setPoison k b).views = s.views := rfl
@[simp] theorem State.setPoison_links (s : State) (k : Nat) (b : Bool) : (s.setPoison k b).links = s.links := rfl
@[simp] theorem State.setPoison_flight (s : State) (k : Nat) (b : Bool) : (s.setPoison k b).flight = s.flight := rfl
@[simp] theorem State.setPoison_nwrs (s : State) (k : Nat) (b : Bool) : (s.setPoison k b).nwrs = s.nwrs := rfl
@[simp] theorem State.setPoison_parked (s : State) (k : Nat) (b : Bool) : (s.setPoison k b).parked = s.parked := rfl
@[simp] theorem State.setPoison_returns (s : State) (k : Nat) (b : Bool) : (s.setPoison k b).returns = s.returns := rfl
@[simp] theorem State.setPoison_acks (s : State) (k : Nat) (b : Bool) : (s.setPoison k b).acks = s.acks := rfl
@[simp] theorem State.setPoison_releases (s : State) (k : Nat) (b : Bool) : (s.setPoison k b).releases = s.releases := rfl
@[simp] theorem State.setPoison_groupSteps (s : State) (k : Nat) (b : Bool) : (s.setPoison k b).groupSteps = s.groupSteps := rfl
@[simp] theorem State.setPoison_walks (s : State) (k : Nat) (b : Bool) : (s.setPoison k b).walks = s.walks := rfl
@[simp] theorem State.setPoison_pageWalks (s : State) (k : Nat) (b : Bool) : (s.setPoison k b).pageWalks = s.pageWalks := rfl
@[simp] theorem State.setPoison_amsgs (s : State) (k : Nat) (b : Bool) : (s.setPoison k b).amsgs = s.amsgs := rfl
@[simp] theorem State.setPoison_slices (s : State) (k : Nat) (b : Bool) : (s.setPoison k b).slices = s.slices := rfl
@[simp] theorem State.setPoison_launches (s : State) (k : Nat) (b : Bool) : (s.setPoison k b).launches = s.launches := rfl
@[simp] theorem State.setPoison_tiles (s : State) (k : Nat) (b : Bool) : (s.setPoison k b).tiles = s.tiles := rfl
@[simp] theorem State.setPoison_savedZero (s : State) (k : Nat) (b : Bool) : (s.setPoison k b).savedZero = s.savedZero := rfl
@[simp] theorem State.setPoison_savedTiles (s : State) (k : Nat) (b : Bool) : (s.setPoison k b).savedTiles = s.savedTiles := rfl
@[simp] theorem State.setPoison_absent (s : State) (k : Nat) (b : Bool) : (s.setPoison k b).absent = s.absent := rfl
@[simp] theorem State.setPoison_codebooks (s : State) (k : Nat) (b : Bool) : (s.setPoison k b).codebooks = s.codebooks := rfl
@[simp] theorem State.setPoison_dirtyFilter (s : State) (k : Nat) (b : Bool) : (s.setPoison k b).dirtyFilter = s.dirtyFilter := rfl
@[simp] theorem State.setPoison_errRing (s : State) (k : Nat) (b : Bool) : (s.setPoison k b).errRing = s.errRing := rfl
@[simp] theorem State.setPoison_errCap (s : State) (k : Nat) (b : Bool) : (s.setPoison k b).errCap = s.errCap := rfl
@[simp] theorem State.setPoison_errLost (s : State) (k : Nat) (b : Bool) : (s.setPoison k b).errLost = s.errLost := rfl
@[simp] theorem State.setPoison_fw (s : State) (k : Nat) (b : Bool) : (s.setPoison k b).fw = s.fw := rfl
@[simp] theorem State.setPoison_hostDown (s : State) (k : Nat) (b : Bool) : (s.setPoison k b).hostDown = s.hostDown := rfl
@[simp] theorem State.setPoison_portDown (s : State) (k : Nat) (b : Bool) : (s.setPoison k b).portDown = s.portDown := rfl
@[simp] theorem State.setPoison_routes (s : State) (k : Nat) (b : Bool) : (s.setPoison k b).routes = s.routes := rfl
@[simp] theorem State.setPoison_pkgIndex (s : State) (k : Nat) (b : Bool) : (s.setPoison k b).pkgIndex = s.pkgIndex := rfl
@[simp] theorem State.setPoison_dieStart (s : State) (k : Nat) (b : Bool) : (s.setPoison k b).dieStart = s.dieStart := rfl
@[simp] theorem State.setPoison_linkOff (s : State) (k : Nat) (b : Bool) : (s.setPoison k b).linkOff = s.linkOff := rfl
@[simp] theorem State.setPoison_now (s : State) (k : Nat) (b : Bool) : (s.setPoison k b).now = s.now := rfl
@[simp] theorem State.setPoison_inbox (s : State) (k : Nat) (b : Bool) : (s.setPoison k b).inbox = s.inbox := rfl
@[simp] theorem State.setPoison_tick (s : State) (k : Nat) (b : Bool) : (s.setPoison k b).tick = s.tick := rfl
@[simp] theorem State.setPoison_turn (s : State) (k : Nat) (b : Bool) : (s.setPoison k b).turn = s.turn := rfl
@[simp] theorem State.setPoison_scan (s : State) (k : Nat) (b : Bool) : (s.setPoison k b).scan = s.scan := rfl
@[simp] theorem State.setPoison_cur (s : State) (k : Nat) (b : Bool) : (s.setPoison k b).cur = s.cur := rfl
@[simp] theorem State.setPoison_fresh (s : State) (k : Nat) (b : Bool) : (s.setPoison k b).fresh = s.fresh := rfl

/-! ## noteIssue -/

@[simp] theorem State.noteIssue_mem (s : State) : (s.noteIssue).mem = s.mem := rfl
@[simp] theorem State.noteIssue_tags (s : State) : (s.noteIssue).tags = s.tags := rfl
@[simp] theorem State.noteIssue_poison (s : State) : (s.noteIssue).poison = s.poison := rfl
@[simp] theorem State.noteIssue_clusters (s : State) : (s.noteIssue).clusters = s.clusters := rfl
@[simp] theorem State.noteIssue_quads (s : State) : (s.noteIssue).quads = s.quads := rfl
@[simp] theorem State.noteIssue_engines (s : State) : (s.noteIssue).engines = s.engines := rfl
@[simp] theorem State.noteIssue_parts (s : State) : (s.noteIssue).parts = s.parts := rfl
@[simp] theorem State.noteIssue_layers (s : State) : (s.noteIssue).layers = s.layers := rfl
@[simp] theorem State.noteIssue_views (s : State) : (s.noteIssue).views = s.views := rfl
@[simp] theorem State.noteIssue_links (s : State) : (s.noteIssue).links = s.links := rfl
@[simp] theorem State.noteIssue_flight (s : State) : (s.noteIssue).flight = s.flight := rfl
@[simp] theorem State.noteIssue_nwrs (s : State) : (s.noteIssue).nwrs = s.nwrs := rfl
@[simp] theorem State.noteIssue_parked (s : State) : (s.noteIssue).parked = s.parked := rfl
@[simp] theorem State.noteIssue_returns (s : State) : (s.noteIssue).returns = s.returns := rfl
@[simp] theorem State.noteIssue_acks (s : State) : (s.noteIssue).acks = s.acks := rfl
@[simp] theorem State.noteIssue_releases (s : State) : (s.noteIssue).releases = s.releases := rfl
@[simp] theorem State.noteIssue_groupSteps (s : State) : (s.noteIssue).groupSteps = s.groupSteps := rfl
@[simp] theorem State.noteIssue_walks (s : State) : (s.noteIssue).walks = s.walks := rfl
@[simp] theorem State.noteIssue_pageWalks (s : State) : (s.noteIssue).pageWalks = s.pageWalks := rfl
@[simp] theorem State.noteIssue_amsgs (s : State) : (s.noteIssue).amsgs = s.amsgs := rfl
@[simp] theorem State.noteIssue_slices (s : State) : (s.noteIssue).slices = s.slices := rfl
@[simp] theorem State.noteIssue_launches (s : State) : (s.noteIssue).launches = s.launches := rfl
@[simp] theorem State.noteIssue_tiles (s : State) : (s.noteIssue).tiles = s.tiles := rfl
@[simp] theorem State.noteIssue_savedZero (s : State) : (s.noteIssue).savedZero = s.savedZero := rfl
@[simp] theorem State.noteIssue_savedTiles (s : State) : (s.noteIssue).savedTiles = s.savedTiles := rfl
@[simp] theorem State.noteIssue_absent (s : State) : (s.noteIssue).absent = s.absent := rfl
@[simp] theorem State.noteIssue_codebooks (s : State) : (s.noteIssue).codebooks = s.codebooks := rfl
@[simp] theorem State.noteIssue_dirtyFilter (s : State) : (s.noteIssue).dirtyFilter = s.dirtyFilter := rfl
@[simp] theorem State.noteIssue_errRing (s : State) : (s.noteIssue).errRing = s.errRing := rfl
@[simp] theorem State.noteIssue_errCap (s : State) : (s.noteIssue).errCap = s.errCap := rfl
@[simp] theorem State.noteIssue_errLost (s : State) : (s.noteIssue).errLost = s.errLost := rfl
@[simp] theorem State.noteIssue_fw (s : State) : (s.noteIssue).fw = s.fw := rfl
@[simp] theorem State.noteIssue_hostDown (s : State) : (s.noteIssue).hostDown = s.hostDown := rfl
@[simp] theorem State.noteIssue_portDown (s : State) : (s.noteIssue).portDown = s.portDown := rfl
@[simp] theorem State.noteIssue_routes (s : State) : (s.noteIssue).routes = s.routes := rfl
@[simp] theorem State.noteIssue_pkgIndex (s : State) : (s.noteIssue).pkgIndex = s.pkgIndex := rfl
@[simp] theorem State.noteIssue_dieStart (s : State) : (s.noteIssue).dieStart = s.dieStart := rfl
@[simp] theorem State.noteIssue_linkOff (s : State) : (s.noteIssue).linkOff = s.linkOff := rfl
@[simp] theorem State.noteIssue_now (s : State) : (s.noteIssue).now = s.now := rfl
@[simp] theorem State.noteIssue_inbox (s : State) : (s.noteIssue).inbox = s.inbox := rfl
@[simp] theorem State.noteIssue_cur (s : State) : (s.noteIssue).cur = s.cur := rfl
@[simp] theorem State.noteIssue_fresh (s : State) : (s.noteIssue).fresh = s.fresh := rfl

/-! ## giveTurn -/

@[simp] theorem State.giveTurn_mem (s : State) (g : Nat) : (s.giveTurn g).mem = s.mem := rfl
@[simp] theorem State.giveTurn_tags (s : State) (g : Nat) : (s.giveTurn g).tags = s.tags := rfl
@[simp] theorem State.giveTurn_poison (s : State) (g : Nat) : (s.giveTurn g).poison = s.poison := rfl
@[simp] theorem State.giveTurn_slots (s : State) (g : Nat) : (s.giveTurn g).slots = s.slots := rfl
@[simp] theorem State.giveTurn_cores (s : State) (g : Nat) : (s.giveTurn g).cores = s.cores := rfl
@[simp] theorem State.giveTurn_clusters (s : State) (g : Nat) : (s.giveTurn g).clusters = s.clusters := rfl
@[simp] theorem State.giveTurn_quads (s : State) (g : Nat) : (s.giveTurn g).quads = s.quads := rfl
@[simp] theorem State.giveTurn_engines (s : State) (g : Nat) : (s.giveTurn g).engines = s.engines := rfl
@[simp] theorem State.giveTurn_parts (s : State) (g : Nat) : (s.giveTurn g).parts = s.parts := rfl
@[simp] theorem State.giveTurn_layers (s : State) (g : Nat) : (s.giveTurn g).layers = s.layers := rfl
@[simp] theorem State.giveTurn_views (s : State) (g : Nat) : (s.giveTurn g).views = s.views := rfl
@[simp] theorem State.giveTurn_links (s : State) (g : Nat) : (s.giveTurn g).links = s.links := rfl
@[simp] theorem State.giveTurn_flight (s : State) (g : Nat) : (s.giveTurn g).flight = s.flight := rfl
@[simp] theorem State.giveTurn_nwrs (s : State) (g : Nat) : (s.giveTurn g).nwrs = s.nwrs := rfl
@[simp] theorem State.giveTurn_parked (s : State) (g : Nat) : (s.giveTurn g).parked = s.parked := rfl
@[simp] theorem State.giveTurn_returns (s : State) (g : Nat) : (s.giveTurn g).returns = s.returns := rfl
@[simp] theorem State.giveTurn_acks (s : State) (g : Nat) : (s.giveTurn g).acks = s.acks := rfl
@[simp] theorem State.giveTurn_releases (s : State) (g : Nat) : (s.giveTurn g).releases = s.releases := rfl
@[simp] theorem State.giveTurn_groupSteps (s : State) (g : Nat) : (s.giveTurn g).groupSteps = s.groupSteps := rfl
@[simp] theorem State.giveTurn_walks (s : State) (g : Nat) : (s.giveTurn g).walks = s.walks := rfl
@[simp] theorem State.giveTurn_pageWalks (s : State) (g : Nat) : (s.giveTurn g).pageWalks = s.pageWalks := rfl
@[simp] theorem State.giveTurn_amsgs (s : State) (g : Nat) : (s.giveTurn g).amsgs = s.amsgs := rfl
@[simp] theorem State.giveTurn_slices (s : State) (g : Nat) : (s.giveTurn g).slices = s.slices := rfl
@[simp] theorem State.giveTurn_launches (s : State) (g : Nat) : (s.giveTurn g).launches = s.launches := rfl
@[simp] theorem State.giveTurn_tiles (s : State) (g : Nat) : (s.giveTurn g).tiles = s.tiles := rfl
@[simp] theorem State.giveTurn_savedZero (s : State) (g : Nat) : (s.giveTurn g).savedZero = s.savedZero := rfl
@[simp] theorem State.giveTurn_savedTiles (s : State) (g : Nat) : (s.giveTurn g).savedTiles = s.savedTiles := rfl
@[simp] theorem State.giveTurn_absent (s : State) (g : Nat) : (s.giveTurn g).absent = s.absent := rfl
@[simp] theorem State.giveTurn_codebooks (s : State) (g : Nat) : (s.giveTurn g).codebooks = s.codebooks := rfl
@[simp] theorem State.giveTurn_dirtyFilter (s : State) (g : Nat) : (s.giveTurn g).dirtyFilter = s.dirtyFilter := rfl
@[simp] theorem State.giveTurn_errRing (s : State) (g : Nat) : (s.giveTurn g).errRing = s.errRing := rfl
@[simp] theorem State.giveTurn_errCap (s : State) (g : Nat) : (s.giveTurn g).errCap = s.errCap := rfl
@[simp] theorem State.giveTurn_errLost (s : State) (g : Nat) : (s.giveTurn g).errLost = s.errLost := rfl
@[simp] theorem State.giveTurn_fw (s : State) (g : Nat) : (s.giveTurn g).fw = s.fw := rfl
@[simp] theorem State.giveTurn_hostDown (s : State) (g : Nat) : (s.giveTurn g).hostDown = s.hostDown := rfl
@[simp] theorem State.giveTurn_portDown (s : State) (g : Nat) : (s.giveTurn g).portDown = s.portDown := rfl
@[simp] theorem State.giveTurn_routes (s : State) (g : Nat) : (s.giveTurn g).routes = s.routes := rfl
@[simp] theorem State.giveTurn_pkgIndex (s : State) (g : Nat) : (s.giveTurn g).pkgIndex = s.pkgIndex := rfl
@[simp] theorem State.giveTurn_dieStart (s : State) (g : Nat) : (s.giveTurn g).dieStart = s.dieStart := rfl
@[simp] theorem State.giveTurn_linkOff (s : State) (g : Nat) : (s.giveTurn g).linkOff = s.linkOff := rfl
@[simp] theorem State.giveTurn_now (s : State) (g : Nat) : (s.giveTurn g).now = s.now := rfl
@[simp] theorem State.giveTurn_inbox (s : State) (g : Nat) : (s.giveTurn g).inbox = s.inbox := rfl
@[simp] theorem State.giveTurn_tick (s : State) (g : Nat) : (s.giveTurn g).tick = s.tick := rfl
@[simp] theorem State.giveTurn_fresh (s : State) (g : Nat) : (s.giveTurn g).fresh = s.fresh := rfl

/-! ## passOver -/

@[simp] theorem State.passOver_mem (s : State) : (s.passOver).mem = s.mem := rfl
@[simp] theorem State.passOver_tags (s : State) : (s.passOver).tags = s.tags := rfl
@[simp] theorem State.passOver_poison (s : State) : (s.passOver).poison = s.poison := rfl
@[simp] theorem State.passOver_cores (s : State) : (s.passOver).cores = s.cores := rfl
@[simp] theorem State.passOver_clusters (s : State) : (s.passOver).clusters = s.clusters := rfl
@[simp] theorem State.passOver_quads (s : State) : (s.passOver).quads = s.quads := rfl
@[simp] theorem State.passOver_engines (s : State) : (s.passOver).engines = s.engines := rfl
@[simp] theorem State.passOver_parts (s : State) : (s.passOver).parts = s.parts := rfl
@[simp] theorem State.passOver_layers (s : State) : (s.passOver).layers = s.layers := rfl
@[simp] theorem State.passOver_views (s : State) : (s.passOver).views = s.views := rfl
@[simp] theorem State.passOver_links (s : State) : (s.passOver).links = s.links := rfl
@[simp] theorem State.passOver_flight (s : State) : (s.passOver).flight = s.flight := rfl
@[simp] theorem State.passOver_nwrs (s : State) : (s.passOver).nwrs = s.nwrs := rfl
@[simp] theorem State.passOver_parked (s : State) : (s.passOver).parked = s.parked := rfl
@[simp] theorem State.passOver_returns (s : State) : (s.passOver).returns = s.returns := rfl
@[simp] theorem State.passOver_acks (s : State) : (s.passOver).acks = s.acks := rfl
@[simp] theorem State.passOver_releases (s : State) : (s.passOver).releases = s.releases := rfl
@[simp] theorem State.passOver_groupSteps (s : State) : (s.passOver).groupSteps = s.groupSteps := rfl
@[simp] theorem State.passOver_walks (s : State) : (s.passOver).walks = s.walks := rfl
@[simp] theorem State.passOver_pageWalks (s : State) : (s.passOver).pageWalks = s.pageWalks := rfl
@[simp] theorem State.passOver_amsgs (s : State) : (s.passOver).amsgs = s.amsgs := rfl
@[simp] theorem State.passOver_slices (s : State) : (s.passOver).slices = s.slices := rfl
@[simp] theorem State.passOver_launches (s : State) : (s.passOver).launches = s.launches := rfl
@[simp] theorem State.passOver_tiles (s : State) : (s.passOver).tiles = s.tiles := rfl
@[simp] theorem State.passOver_savedZero (s : State) : (s.passOver).savedZero = s.savedZero := rfl
@[simp] theorem State.passOver_savedTiles (s : State) : (s.passOver).savedTiles = s.savedTiles := rfl
@[simp] theorem State.passOver_absent (s : State) : (s.passOver).absent = s.absent := rfl
@[simp] theorem State.passOver_codebooks (s : State) : (s.passOver).codebooks = s.codebooks := rfl
@[simp] theorem State.passOver_dirtyFilter (s : State) : (s.passOver).dirtyFilter = s.dirtyFilter := rfl
@[simp] theorem State.passOver_errRing (s : State) : (s.passOver).errRing = s.errRing := rfl
@[simp] theorem State.passOver_errCap (s : State) : (s.passOver).errCap = s.errCap := rfl
@[simp] theorem State.passOver_errLost (s : State) : (s.passOver).errLost = s.errLost := rfl
@[simp] theorem State.passOver_fw (s : State) : (s.passOver).fw = s.fw := rfl
@[simp] theorem State.passOver_hostDown (s : State) : (s.passOver).hostDown = s.hostDown := rfl
@[simp] theorem State.passOver_portDown (s : State) : (s.passOver).portDown = s.portDown := rfl
@[simp] theorem State.passOver_routes (s : State) : (s.passOver).routes = s.routes := rfl
@[simp] theorem State.passOver_pkgIndex (s : State) : (s.passOver).pkgIndex = s.pkgIndex := rfl
@[simp] theorem State.passOver_dieStart (s : State) : (s.passOver).dieStart = s.dieStart := rfl
@[simp] theorem State.passOver_linkOff (s : State) : (s.passOver).linkOff = s.linkOff := rfl
@[simp] theorem State.passOver_now (s : State) : (s.passOver).now = s.now := rfl
@[simp] theorem State.passOver_inbox (s : State) : (s.passOver).inbox = s.inbox := rfl
@[simp] theorem State.passOver_tick (s : State) : (s.passOver).tick = s.tick := rfl
@[simp] theorem State.passOver_turn (s : State) : (s.passOver).turn = s.turn := rfl
@[simp] theorem State.passOver_cur (s : State) : (s.passOver).cur = s.cur := rfl
@[simp] theorem State.passOver_fresh (s : State) : (s.passOver).fresh = s.fresh := rfl

/-! ## passFirm -/

@[simp] theorem State.passFirm_mem (s : State) : (s.passFirm).mem = s.mem := rfl
@[simp] theorem State.passFirm_tags (s : State) : (s.passFirm).tags = s.tags := rfl
@[simp] theorem State.passFirm_poison (s : State) : (s.passFirm).poison = s.poison := rfl
@[simp] theorem State.passFirm_cores (s : State) : (s.passFirm).cores = s.cores := rfl
@[simp] theorem State.passFirm_clusters (s : State) : (s.passFirm).clusters = s.clusters := rfl
@[simp] theorem State.passFirm_quads (s : State) : (s.passFirm).quads = s.quads := rfl
@[simp] theorem State.passFirm_engines (s : State) : (s.passFirm).engines = s.engines := rfl
@[simp] theorem State.passFirm_parts (s : State) : (s.passFirm).parts = s.parts := rfl
@[simp] theorem State.passFirm_layers (s : State) : (s.passFirm).layers = s.layers := rfl
@[simp] theorem State.passFirm_views (s : State) : (s.passFirm).views = s.views := rfl
@[simp] theorem State.passFirm_links (s : State) : (s.passFirm).links = s.links := rfl
@[simp] theorem State.passFirm_flight (s : State) : (s.passFirm).flight = s.flight := rfl
@[simp] theorem State.passFirm_nwrs (s : State) : (s.passFirm).nwrs = s.nwrs := rfl
@[simp] theorem State.passFirm_parked (s : State) : (s.passFirm).parked = s.parked := rfl
@[simp] theorem State.passFirm_returns (s : State) : (s.passFirm).returns = s.returns := rfl
@[simp] theorem State.passFirm_acks (s : State) : (s.passFirm).acks = s.acks := rfl
@[simp] theorem State.passFirm_releases (s : State) : (s.passFirm).releases = s.releases := rfl
@[simp] theorem State.passFirm_groupSteps (s : State) : (s.passFirm).groupSteps = s.groupSteps := rfl
@[simp] theorem State.passFirm_walks (s : State) : (s.passFirm).walks = s.walks := rfl
@[simp] theorem State.passFirm_pageWalks (s : State) : (s.passFirm).pageWalks = s.pageWalks := rfl
@[simp] theorem State.passFirm_amsgs (s : State) : (s.passFirm).amsgs = s.amsgs := rfl
@[simp] theorem State.passFirm_slices (s : State) : (s.passFirm).slices = s.slices := rfl
@[simp] theorem State.passFirm_launches (s : State) : (s.passFirm).launches = s.launches := rfl
@[simp] theorem State.passFirm_tiles (s : State) : (s.passFirm).tiles = s.tiles := rfl
@[simp] theorem State.passFirm_savedZero (s : State) : (s.passFirm).savedZero = s.savedZero := rfl
@[simp] theorem State.passFirm_savedTiles (s : State) : (s.passFirm).savedTiles = s.savedTiles := rfl
@[simp] theorem State.passFirm_absent (s : State) : (s.passFirm).absent = s.absent := rfl
@[simp] theorem State.passFirm_codebooks (s : State) : (s.passFirm).codebooks = s.codebooks := rfl
@[simp] theorem State.passFirm_dirtyFilter (s : State) : (s.passFirm).dirtyFilter = s.dirtyFilter := rfl
@[simp] theorem State.passFirm_errRing (s : State) : (s.passFirm).errRing = s.errRing := rfl
@[simp] theorem State.passFirm_errCap (s : State) : (s.passFirm).errCap = s.errCap := rfl
@[simp] theorem State.passFirm_errLost (s : State) : (s.passFirm).errLost = s.errLost := rfl
@[simp] theorem State.passFirm_fw (s : State) : (s.passFirm).fw = s.fw := rfl
@[simp] theorem State.passFirm_hostDown (s : State) : (s.passFirm).hostDown = s.hostDown := rfl
@[simp] theorem State.passFirm_portDown (s : State) : (s.passFirm).portDown = s.portDown := rfl
@[simp] theorem State.passFirm_routes (s : State) : (s.passFirm).routes = s.routes := rfl
@[simp] theorem State.passFirm_pkgIndex (s : State) : (s.passFirm).pkgIndex = s.pkgIndex := rfl
@[simp] theorem State.passFirm_dieStart (s : State) : (s.passFirm).dieStart = s.dieStart := rfl
@[simp] theorem State.passFirm_linkOff (s : State) : (s.passFirm).linkOff = s.linkOff := rfl
@[simp] theorem State.passFirm_now (s : State) : (s.passFirm).now = s.now := rfl
@[simp] theorem State.passFirm_inbox (s : State) : (s.passFirm).inbox = s.inbox := rfl
@[simp] theorem State.passFirm_tick (s : State) : (s.passFirm).tick = s.tick := rfl
@[simp] theorem State.passFirm_turn (s : State) : (s.passFirm).turn = s.turn := rfl
@[simp] theorem State.passFirm_cur (s : State) : (s.passFirm).cur = s.cur := rfl
@[simp] theorem State.passFirm_fresh (s : State) : (s.passFirm).fresh = s.fresh := rfl

/-! ## Reading after writing -/

theorem State.slot_setSlot (s : State) (g h : Nat) (x : Slot) : (s.setSlot g x).slot h = if h = g then x else s.slot h :=
  SMap.get_set _ _ _ _ _

@[simp] theorem State.slot_setSlot_self (s : State) (g : Nat) (x : Slot) : (s.setSlot g x).slot g = x := by
  simp [State.slot_setSlot]

theorem State.slot_modSlot (s : State) (g h : Nat) (f : Slot → Slot) :
    (s.modSlot g f).slot h = if h = g then f (s.slot g) else s.slot h := State.slot_setSlot s g h _

@[simp] theorem State.slot_modSlot_self (s : State) (g : Nat) (f : Slot → Slot) : (s.modSlot g f).slot g = f (s.slot g) := by
  simp [State.slot_modSlot]

theorem State.slot_modSlot_ne {s : State} {g h : Nat} {f : Slot → Slot} (hne : h ≠ g) : (s.modSlot g f).slot h = s.slot h := by
  simp [State.slot_modSlot, hne]

theorem State.core_modCore (s : State) (c d : Nat) (f : Core → Core) :
    (s.modCore c f).core d = if d = c then f (s.core c) else s.core d := SMap.get_set _ _ _ _ _

@[simp] theorem State.core_modCore_self (s : State) (c : Nat) (f : Core → Core) : (s.modCore c f).core c = f (s.core c) := by
  simp [State.core_modCore]

theorem State.cluster_modCluster (s : State) (c d : Nat) (f : Cluster → Cluster) :
    (s.modCluster c f).cluster d = if d = c then f (s.cluster c) else s.cluster d := SMap.get_set _ _ _ _ _

theorem State.quad_modQuad (s : State) (q r : Nat) (f : Quad → Quad) :
    (s.modQuad q f).quad r = if r = q then f (s.quad q) else s.quad r := SMap.get_set _ _ _ _ _

theorem State.engine_modEngine (s : State) (e d : Nat) (f : Engine → Engine) :
    (s.modEngine e f).engine d = if d = e then f (s.engine e) else s.engine d := SMap.get_set _ _ _ _ _

/-- Reading a partition register after writing one. -/
theorem State.partReg_setPartReg (s : State) (p n q m : Nat) (v : U64) :
    (s.setPartReg p n v).partReg q m = if q = p ∧ m = n then v else s.partReg q m := by
  simp only [State.partReg, State.setPartReg, State.part, SMap.get_set]
  by_cases hq : q = p
  · subst hq; simp [SMap.get_put]
  · simp [hq]

@[simp] theorem State.slot_modCore (s : State) (c : Nat) (f : Core → Core) (j : Nat) : (s.modCore c f).slot j = s.slot j := rfl
@[simp] theorem State.slot_modCluster (s : State) (c : Nat) (f : Cluster → Cluster) (j : Nat) : (s.modCluster c f).slot j = s.slot j := rfl
@[simp] theorem State.slot_modQuad (s : State) (q : Nat) (f : Quad → Quad) (j : Nat) : (s.modQuad q f).slot j = s.slot j := rfl
@[simp] theorem State.slot_modEngine (s : State) (e : Nat) (f : Engine → Engine) (j : Nat) : (s.modEngine e f).slot j = s.slot j := rfl
@[simp] theorem State.slot_setPartReg (s : State) (p n : Nat) (v : U64) (j : Nat) : (s.setPartReg p n v).slot j = s.slot j := rfl
@[simp] theorem State.slot_setByte (s : State) (k : Nat) (b : Byte) (j : Nat) : (s.setByte k b).slot j = s.slot j := rfl
@[simp] theorem State.slot_setTag (s : State) (k : Nat) (t : Bool) (j : Nat) : (s.setTag k t).slot j = s.slot j := rfl
@[simp] theorem State.slot_setPoison (s : State) (k : Nat) (b : Bool) (j : Nat) : (s.setPoison k b).slot j = s.slot j := rfl
@[simp] theorem State.slot_giveTurn (s : State) (g : Nat) (j : Nat) : (s.giveTurn g).slot j = s.slot j := rfl
@[simp] theorem State.core_setSlot (s : State) (g : Nat) (x : Slot) (j : Nat) : (s.setSlot g x).core j = s.core j := rfl
@[simp] theorem State.core_modSlot (s : State) (g : Nat) (f : Slot → Slot) (j : Nat) : (s.modSlot g f).core j = s.core j := rfl
@[simp] theorem State.core_modCluster (s : State) (c : Nat) (f : Cluster → Cluster) (j : Nat) : (s.modCluster c f).core j = s.core j := rfl
@[simp] theorem State.core_modQuad (s : State) (q : Nat) (f : Quad → Quad) (j : Nat) : (s.modQuad q f).core j = s.core j := rfl
@[simp] theorem State.core_modEngine (s : State) (e : Nat) (f : Engine → Engine) (j : Nat) : (s.modEngine e f).core j = s.core j := rfl
@[simp] theorem State.core_setPartReg (s : State) (p n : Nat) (v : U64) (j : Nat) : (s.setPartReg p n v).core j = s.core j := rfl
@[simp] theorem State.core_setByte (s : State) (k : Nat) (b : Byte) (j : Nat) : (s.setByte k b).core j = s.core j := rfl
@[simp] theorem State.core_setTag (s : State) (k : Nat) (t : Bool) (j : Nat) : (s.setTag k t).core j = s.core j := rfl
@[simp] theorem State.core_setPoison (s : State) (k : Nat) (b : Bool) (j : Nat) : (s.setPoison k b).core j = s.core j := rfl
@[simp] theorem State.core_giveTurn (s : State) (g : Nat) (j : Nat) : (s.giveTurn g).core j = s.core j := rfl
@[simp] theorem State.core_passOver (s : State) (j : Nat) : (s.passOver).core j = s.core j := rfl
@[simp] theorem State.cluster_setSlot (s : State) (g : Nat) (x : Slot) (j : Nat) : (s.setSlot g x).cluster j = s.cluster j := rfl
@[simp] theorem State.cluster_modSlot (s : State) (g : Nat) (f : Slot → Slot) (j : Nat) : (s.modSlot g f).cluster j = s.cluster j := rfl
@[simp] theorem State.cluster_modCore (s : State) (c : Nat) (f : Core → Core) (j : Nat) : (s.modCore c f).cluster j = s.cluster j := rfl
@[simp] theorem State.cluster_modQuad (s : State) (q : Nat) (f : Quad → Quad) (j : Nat) : (s.modQuad q f).cluster j = s.cluster j := rfl
@[simp] theorem State.cluster_modEngine (s : State) (e : Nat) (f : Engine → Engine) (j : Nat) : (s.modEngine e f).cluster j = s.cluster j := rfl
@[simp] theorem State.cluster_setPartReg (s : State) (p n : Nat) (v : U64) (j : Nat) : (s.setPartReg p n v).cluster j = s.cluster j := rfl
@[simp] theorem State.cluster_setByte (s : State) (k : Nat) (b : Byte) (j : Nat) : (s.setByte k b).cluster j = s.cluster j := rfl
@[simp] theorem State.cluster_setTag (s : State) (k : Nat) (t : Bool) (j : Nat) : (s.setTag k t).cluster j = s.cluster j := rfl
@[simp] theorem State.cluster_setPoison (s : State) (k : Nat) (b : Bool) (j : Nat) : (s.setPoison k b).cluster j = s.cluster j := rfl
@[simp] theorem State.cluster_noteIssue (s : State) (j : Nat) : (s.noteIssue).cluster j = s.cluster j := rfl
@[simp] theorem State.cluster_giveTurn (s : State) (g : Nat) (j : Nat) : (s.giveTurn g).cluster j = s.cluster j := rfl
@[simp] theorem State.cluster_passOver (s : State) (j : Nat) : (s.passOver).cluster j = s.cluster j := rfl
@[simp] theorem State.quad_setSlot (s : State) (g : Nat) (x : Slot) (j : Nat) : (s.setSlot g x).quad j = s.quad j := rfl
@[simp] theorem State.quad_modSlot (s : State) (g : Nat) (f : Slot → Slot) (j : Nat) : (s.modSlot g f).quad j = s.quad j := rfl
@[simp] theorem State.quad_modCore (s : State) (c : Nat) (f : Core → Core) (j : Nat) : (s.modCore c f).quad j = s.quad j := rfl
@[simp] theorem State.quad_modCluster (s : State) (c : Nat) (f : Cluster → Cluster) (j : Nat) : (s.modCluster c f).quad j = s.quad j := rfl
@[simp] theorem State.quad_modEngine (s : State) (e : Nat) (f : Engine → Engine) (j : Nat) : (s.modEngine e f).quad j = s.quad j := rfl
@[simp] theorem State.quad_setPartReg (s : State) (p n : Nat) (v : U64) (j : Nat) : (s.setPartReg p n v).quad j = s.quad j := rfl
@[simp] theorem State.quad_setByte (s : State) (k : Nat) (b : Byte) (j : Nat) : (s.setByte k b).quad j = s.quad j := rfl
@[simp] theorem State.quad_setTag (s : State) (k : Nat) (t : Bool) (j : Nat) : (s.setTag k t).quad j = s.quad j := rfl
@[simp] theorem State.quad_setPoison (s : State) (k : Nat) (b : Bool) (j : Nat) : (s.setPoison k b).quad j = s.quad j := rfl
@[simp] theorem State.quad_noteIssue (s : State) (j : Nat) : (s.noteIssue).quad j = s.quad j := rfl
@[simp] theorem State.quad_giveTurn (s : State) (g : Nat) (j : Nat) : (s.giveTurn g).quad j = s.quad j := rfl
@[simp] theorem State.quad_passOver (s : State) (j : Nat) : (s.passOver).quad j = s.quad j := rfl
@[simp] theorem State.engine_setSlot (s : State) (g : Nat) (x : Slot) (j : Nat) : (s.setSlot g x).engine j = s.engine j := rfl
@[simp] theorem State.engine_modSlot (s : State) (g : Nat) (f : Slot → Slot) (j : Nat) : (s.modSlot g f).engine j = s.engine j := rfl
@[simp] theorem State.engine_modCore (s : State) (c : Nat) (f : Core → Core) (j : Nat) : (s.modCore c f).engine j = s.engine j := rfl
@[simp] theorem State.engine_modCluster (s : State) (c : Nat) (f : Cluster → Cluster) (j : Nat) : (s.modCluster c f).engine j = s.engine j := rfl
@[simp] theorem State.engine_modQuad (s : State) (q : Nat) (f : Quad → Quad) (j : Nat) : (s.modQuad q f).engine j = s.engine j := rfl
@[simp] theorem State.engine_setPartReg (s : State) (p n : Nat) (v : U64) (j : Nat) : (s.setPartReg p n v).engine j = s.engine j := rfl
@[simp] theorem State.engine_setByte (s : State) (k : Nat) (b : Byte) (j : Nat) : (s.setByte k b).engine j = s.engine j := rfl
@[simp] theorem State.engine_setTag (s : State) (k : Nat) (t : Bool) (j : Nat) : (s.setTag k t).engine j = s.engine j := rfl
@[simp] theorem State.engine_setPoison (s : State) (k : Nat) (b : Bool) (j : Nat) : (s.setPoison k b).engine j = s.engine j := rfl
@[simp] theorem State.engine_noteIssue (s : State) (j : Nat) : (s.noteIssue).engine j = s.engine j := rfl
@[simp] theorem State.engine_giveTurn (s : State) (g : Nat) (j : Nat) : (s.giveTurn g).engine j = s.engine j := rfl
@[simp] theorem State.engine_passOver (s : State) (j : Nat) : (s.passOver).engine j = s.engine j := rfl
@[simp] theorem State.part_setSlot (s : State) (g : Nat) (x : Slot) (j : Nat) : (s.setSlot g x).part j = s.part j := rfl
@[simp] theorem State.part_modSlot (s : State) (g : Nat) (f : Slot → Slot) (j : Nat) : (s.modSlot g f).part j = s.part j := rfl
@[simp] theorem State.part_modCore (s : State) (c : Nat) (f : Core → Core) (j : Nat) : (s.modCore c f).part j = s.part j := rfl
@[simp] theorem State.part_modCluster (s : State) (c : Nat) (f : Cluster → Cluster) (j : Nat) : (s.modCluster c f).part j = s.part j := rfl
@[simp] theorem State.part_modQuad (s : State) (q : Nat) (f : Quad → Quad) (j : Nat) : (s.modQuad q f).part j = s.part j := rfl
@[simp] theorem State.part_modEngine (s : State) (e : Nat) (f : Engine → Engine) (j : Nat) : (s.modEngine e f).part j = s.part j := rfl
@[simp] theorem State.part_setByte (s : State) (k : Nat) (b : Byte) (j : Nat) : (s.setByte k b).part j = s.part j := rfl
@[simp] theorem State.part_setTag (s : State) (k : Nat) (t : Bool) (j : Nat) : (s.setTag k t).part j = s.part j := rfl
@[simp] theorem State.part_setPoison (s : State) (k : Nat) (b : Bool) (j : Nat) : (s.setPoison k b).part j = s.part j := rfl
@[simp] theorem State.part_noteIssue (s : State) (j : Nat) : (s.noteIssue).part j = s.part j := rfl
@[simp] theorem State.part_giveTurn (s : State) (g : Nat) (j : Nat) : (s.giveTurn g).part j = s.part j := rfl
@[simp] theorem State.part_passOver (s : State) (j : Nat) : (s.passOver).part j = s.part j := rfl

end Sys2Proof.Machine
end

