-- ==== Sys2Proof/Laws/Exec.lean ====
section
/-!
SUPPORT. Laws of meanings: what each operation of `Exec` does to a state, what issuing leaves of a slot, and the outcome
of an instruction by what its body gives.
-/

namespace Sys2Proof.Machine

variable {α β : Type}

/-! ## The operations of a body -/

@[simp] theorem Exec.pure_apply (a : α) (s : State) : (pure a : Exec α) s = .ok (a, s) := rfl

@[simp] theorem Exec.bind_apply (m : Exec α) (f : α → Exec β) (s : State) :
    (m >>= f) s = match m s with
      | .ok (a, t) => f a t
      | .error e => .error e := by
  show (m s >>= fun p => f p.1 p.2) = _
  cases m s <;> rfl

@[simp] theorem Exec.map_apply (f : α → β) (m : Exec α) (s : State) :
    (f <$> m) s = match m s with
      | .ok (a, t) => .ok (f a, t)
      | .error e => .error e := by
  show (m s >>= fun p => pure (f p.1, p.2)) = _
  cases m s <;> rfl

@[simp] theorem Exec.get_apply (s : State) : (get : Exec State) s = .ok (s, s) := rfl

@[simp] theorem Exec.set_apply (t s : State) : (set t : Exec PUnit) s = .ok ((), t) := rfl

@[simp] theorem Exec.modify_apply (f : State → State) (s : State) : (modify f : Exec PUnit) s = .ok ((), f s) := rfl

@[simp] theorem Exec.throw_apply (e : Stop) (s : State) : (throw e : Exec α) s = .error e := rfl

@[simp] theorem trap_apply (c : Cause) (v : U64) (s : State) : (trap c v : Exec α) s = .error (.trap c v) := rfl

@[simp] theorem block_apply (s : State) : (block : Exec α) s = .error .wait := rfl

@[simp] theorem require_true (c : Cause) (v : U64) (s : State) : require true c v s = .ok ((), s) := rfl

@[simp] theorem require_false (c : Cause) (v : U64) (s : State) : require false c v s = .error (.trap c v) := rfl

theorem require_apply (ok : Bool) (c : Cause) (v : U64) (s : State) :
    require ok c v s = if ok then .ok ((), s) else .error (.trap c v) := by cases ok <;> rfl

@[simp] theorem await_true (s : State) : await true s = .ok ((), s) := rfl

@[simp] theorem await_false (s : State) : await false s = .error .wait := rfl

theorem await_apply (ok : Bool) (s : State) : await ok s = if ok then .ok ((), s) else .error .wait := by
  cases ok <;> rfl

@[simp] theorem getSlot_apply (s : State) : getSlot s = .ok (s.slot s.cur, s) := rfl

@[simp] theorem modSlot_apply (f : Slot → Slot) (s : State) : modSlot f s = .ok ((), s.modSlot s.cur f) := rfl

@[simp] theorem newNo_apply (s : State) : newNo s = .ok (s.fresh, { s with fresh := s.fresh + 1 }) := rfl

theorem src_apply (a : Src) (s : State) :
    src a s = match (s.slot s.cur).read a with
      | some v => .ok (v, s)
      | none => .error .wait := by
  simp only [src, Exec.bind_apply, getSlot_apply]
  cases (s.slot s.cur).read a <;> rfl

@[simp] theorem src_some {a : Src} {s : State} {v : U64} (h : (s.slot s.cur).read a = some v) : src a s = .ok (v, s) := by
  rw [src_apply, h]

@[simp] theorem dst_apply (d : Dst) (v : U64) (s : State) : dst d v s = .ok ((), s.modSlot s.cur fun x => x.result d v) := rfl

@[simp] theorem kreg_apply (i : BitVec 3) (s : State) : kreg i s = .ok ((s.slot s.cur).kreg i.toNat, s) := rfl

@[simp] theorem setK_apply (i : BitVec 3) (c : Cap) (s : State) :
    setK i c s = .ok ((), s.modSlot s.cur fun x => { x with k := x.k.set Cap.null i.toNat c }) := rfl

@[simp] theorem setFlags_apply (fl : Flags) (s : State) :
    setFlags fl s = .ok ((), s.modSlot s.cur fun x => { x with fflags := x.fflags ||| fl }) := rfl

@[simp] theorem slotNumber_apply (s : State) : slotNumber s = .ok (slotNo s.cur, s) := rfl

@[simp] theorem forget_apply (s : State) : forget s = .ok ((), s.modSlot s.cur fun x => { x with seen := [] }) := rfl

/-- A step that has been made gives what it has read. -/
theorem inStep_seen {s : State} {i : Nat} {o : Seen} {m : Exec Seen} (h : (s.slot s.cur).saw i = some o) :
    inStep i m s = .ok (o, s) := by
  simp [inStep, h]

/-- A step still to be made is made, and the instruction goes on in the slot's next turn. -/
theorem inStep_new {s t : State} {i : Nat} {o : Seen} {m : Exec Seen}
    (h : (s.slot s.cur).saw i = none) (hm : m s = .ok (o, t)) :
    inStep i m s = .error (.again (t.modSlot t.cur fun y => { y with seen := y.seen ++ [(i, o)] })) := by
  simp [inStep, h, hm]

theorem notLatent_apply (s : State) :
    notLatent s = match (s.slot s.cur).tile? with
      | some _ => .error (.fail 6)
      | none => .ok ((), s) := by
  simp only [notLatent, Exec.bind_apply, getSlot_apply]
  cases (s.slot s.cur).tile? <;> rfl

/-! ## Issuing -/

/-- What issuing leaves in the current slot (R13, R161, R192, R195). -/
def Slot.issued (x : Slot) (now g : Nat) : Slot :=
  { x with lastIssue := some now, blocked := false, firm := false
           issues := if x.limited && x.issues ≠ 0#32 then x.issues - 1#32 else x.issues
           charge := if x.admitted then x.charge - 1 else x.charge
           msgIssues := if slotNo g = 11 then x.msgIssues + 1 else x.msgIssues }

theorem State.slot_noteIssue (s : State) (g : Nat) :
    s.noteIssue.slot g = if g = s.cur then (s.slot g).issued s.now g else s.slot g := by
  show (s.modSlot s.cur fun x => x.issued s.now s.cur).slot g = _
  rw [State.slot_modSlot]
  split
  next h => subst h; rfl
  next => rfl

theorem State.slot_noteIssue_ne {s : State} {g : Nat} (h : g ≠ s.cur) : s.noteIssue.slot g = s.slot g := by
  rw [State.slot_noteIssue, if_neg h]

theorem State.core_noteIssue_ne {s : State} {c : Nat} (h : c ≠ coreOf s.cur) : s.noteIssue.core c = s.core c := by
  exact (SMap.get_set _ _ _ _ _).trans (if_neg h)

@[simp] theorem State.noteIssue_slot_live (s : State) (g : Nat) : (s.noteIssue.slot g).live = (s.slot g).live := by
  rw [State.slot_noteIssue]; split <;> rfl

@[simp] theorem State.noteIssue_slot_halted (s : State) (g : Nat) : (s.noteIssue.slot g).halted = (s.slot g).halted := by
  rw [State.slot_noteIssue]; split <;> rfl

@[simp] theorem State.noteIssue_slot_pcc (s : State) (g : Nat) : (s.noteIssue.slot g).pcc = (s.slot g).pcc := by
  rw [State.slot_noteIssue]; split <;> rfl

@[simp] theorem State.noteIssue_slot_rq (s : State) (g : Nat) : (s.noteIssue.slot g).rq = (s.slot g).rq := by
  rw [State.slot_noteIssue]; split <;> rfl

@[simp] theorem State.noteIssue_slot_n (s : State) (g : Nat) : (s.noteIssue.slot g).n = (s.slot g).n := by
  rw [State.slot_noteIssue]; split <;> rfl

@[simp] theorem State.noteIssue_slot_pres (s : State) (g : Nat) : (s.noteIssue.slot g).pres = (s.slot g).pres := by
  rw [State.slot_noteIssue]; split <;> rfl

@[simp] theorem State.noteIssue_slot_x (s : State) (g : Nat) : (s.noteIssue.slot g).x = (s.slot g).x := by
  rw [State.slot_noteIssue]; split <;> rfl

@[simp] theorem State.noteIssue_slot_k (s : State) (g : Nat) : (s.noteIssue.slot g).k = (s.slot g).k := by
  rw [State.slot_noteIssue]; split <;> rfl

@[simp] theorem State.noteIssue_slot_v (s : State) (g : Nat) : (s.noteIssue.slot g).v = (s.slot g).v := by
  rw [State.slot_noteIssue]; split <;> rfl

@[simp] theorem State.noteIssue_slot_vm (s : State) (g : Nat) : (s.noteIssue.slot g).vm = (s.slot g).vm := by
  rw [State.slot_noteIssue]; split <;> rfl

@[simp] theorem State.noteIssue_slot_m (s : State) (g : Nat) : (s.noteIssue.slot g).m = (s.slot g).m := by
  rw [State.slot_noteIssue]; split <;> rfl

@[simp] theorem State.noteIssue_slot_groups (s : State) (g : Nat) : (s.noteIssue.slot g).groups = (s.slot g).groups := by
  rw [State.slot_noteIssue]; split <;> rfl

@[simp] theorem State.noteIssue_slot_minGrp (s : State) (g : Nat) : (s.noteIssue.slot g).minGrp = (s.slot g).minGrp := by
  rw [State.slot_noteIssue]; split <;> rfl

@[simp] theorem State.noteIssue_slot_guards (s : State) (g : Nat) : (s.noteIssue.slot g).guards = (s.slot g).guards := by
  rw [State.slot_noteIssue]; split <;> rfl

@[simp] theorem State.noteIssue_slot_loops (s : State) (g : Nat) : (s.noteIssue.slot g).loops = (s.slot g).loops := by
  rw [State.slot_noteIssue]; split <;> rfl

@[simp] theorem State.noteIssue_slot_hidden (s : State) (g : Nat) : (s.noteIssue.slot g).hidden = (s.slot g).hidden := by
  rw [State.slot_noteIssue]; split <;> rfl

@[simp] theorem State.noteIssue_slot_rmode (s : State) (g : Nat) : (s.noteIssue.slot g).rmode = (s.slot g).rmode := by
  rw [State.slot_noteIssue]; split <;> rfl

@[simp] theorem State.noteIssue_slot_fflags (s : State) (g : Nat) : (s.noteIssue.slot g).fflags = (s.slot g).fflags := by
  rw [State.slot_noteIssue]; split <;> rfl

@[simp] theorem State.noteIssue_slot_covmode (s : State) (g : Nat) : (s.noteIssue.slot g).covmode = (s.slot g).covmode := by
  rw [State.slot_noteIssue]; split <;> rfl

@[simp] theorem State.noteIssue_slot_rngLo (s : State) (g : Nat) : (s.noteIssue.slot g).rngLo = (s.slot g).rngLo := by
  rw [State.slot_noteIssue]; split <;> rfl

@[simp] theorem State.noteIssue_slot_rngHi (s : State) (g : Nat) : (s.noteIssue.slot g).rngHi = (s.slot g).rngHi := by
  rw [State.slot_noteIssue]; split <;> rfl

@[simp] theorem State.noteIssue_slot_user (s : State) (g : Nat) : (s.noteIssue.slot g).user = (s.slot g).user := by
  rw [State.slot_noteIssue]; split <;> rfl

@[simp] theorem State.noteIssue_slot_inTrap (s : State) (g : Nat) : (s.noteIssue.slot g).inTrap = (s.slot g).inTrap := by
  rw [State.slot_noteIssue]; split <;> rfl

@[simp] theorem State.noteIssue_slot_borrow (s : State) (g : Nat) : (s.noteIssue.slot g).borrow = (s.slot g).borrow := by
  rw [State.slot_noteIssue]; split <;> rfl

@[simp] theorem State.noteIssue_slot_borrowed (s : State) (g : Nat) : (s.noteIssue.slot g).borrowed = (s.slot g).borrowed := by
  rw [State.slot_noteIssue]; split <;> rfl

@[simp] theorem State.noteIssue_slot_tenant (s : State) (g : Nat) : (s.noteIssue.slot g).tenant = (s.slot g).tenant := by
  rw [State.slot_noteIssue]; split <;> rfl

@[simp] theorem State.noteIssue_slot_msgPart (s : State) (g : Nat) : (s.noteIssue.slot g).msgPart = (s.slot g).msgPart := by
  rw [State.slot_noteIssue]; split <;> rfl

@[simp] theorem State.noteIssue_slot_tcause (s : State) (g : Nat) : (s.noteIssue.slot g).tcause = (s.slot g).tcause := by
  rw [State.slot_noteIssue]; split <;> rfl

@[simp] theorem State.noteIssue_slot_tpc (s : State) (g : Nat) : (s.noteIssue.slot g).tpc = (s.slot g).tpc := by
  rw [State.slot_noteIssue]; split <;> rfl

@[simp] theorem State.noteIssue_slot_tval (s : State) (g : Nat) : (s.noteIssue.slot g).tval = (s.slot g).tval := by
  rw [State.slot_noteIssue]; split <;> rfl

@[simp] theorem State.noteIssue_slot_elost (s : State) (g : Nat) : (s.noteIssue.slot g).elost = (s.slot g).elost := by
  rw [State.slot_noteIssue]; split <;> rfl

@[simp] theorem State.noteIssue_slot_grace (s : State) (g : Nat) : (s.noteIssue.slot g).grace = (s.slot g).grace := by
  rw [State.slot_noteIssue]; split <;> rfl

@[simp] theorem State.noteIssue_slot_thidden (s : State) (g : Nat) : (s.noteIssue.slot g).thidden = (s.slot g).thidden := by
  rw [State.slot_noteIssue]; split <;> rfl

@[simp] theorem State.noteIssue_slot_ilen (s : State) (g : Nat) : (s.noteIssue.slot g).ilen = (s.slot g).ilen := by
  rw [State.slot_noteIssue]; split <;> rfl

@[simp] theorem State.noteIssue_slot_tbase (s : State) (g : Nat) : (s.noteIssue.slot g).tbase = (s.slot g).tbase := by
  rw [State.slot_noteIssue]; split <;> rfl

@[simp] theorem State.noteIssue_slot_ten (s : State) (g : Nat) : (s.noteIssue.slot g).ten = (s.slot g).ten := by
  rw [State.slot_noteIssue]; split <;> rfl

@[simp] theorem State.noteIssue_slot_dline (s : State) (g : Nat) : (s.noteIssue.slot g).dline = (s.slot g).dline := by
  rw [State.slot_noteIssue]; split <;> rfl

@[simp] theorem State.noteIssue_slot_limited (s : State) (g : Nat) : (s.noteIssue.slot g).limited = (s.slot g).limited := by
  rw [State.slot_noteIssue]; split <;> rfl

@[simp] theorem State.noteIssue_slot_admitted (s : State) (g : Nat) : (s.noteIssue.slot g).admitted = (s.slot g).admitted := by
  rw [State.slot_noteIssue]; split <;> rfl

@[simp] theorem State.noteIssue_slot_chargeFrac (s : State) (g : Nat) : (s.noteIssue.slot g).chargeFrac = (s.slot g).chargeFrac := by
  rw [State.slot_noteIssue]; split <;> rfl

@[simp] theorem State.noteIssue_slot_taskRec (s : State) (g : Nat) : (s.noteIssue.slot g).taskRec = (s.slot g).taskRec := by
  rw [State.slot_noteIssue]; split <;> rfl

@[simp] theorem State.noteIssue_slot_group (s : State) (g : Nat) : (s.noteIssue.slot g).group = (s.slot g).group := by
  rw [State.slot_noteIssue]; split <;> rfl

@[simp] theorem State.noteIssue_slot_errs (s : State) (g : Nat) : (s.noteIssue.slot g).errs = (s.slot g).errs := by
  rw [State.slot_noteIssue]; split <;> rfl

@[simp] theorem State.noteIssue_slot_svc (s : State) (g : Nat) : (s.noteIssue.slot g).svc = (s.slot g).svc := by
  rw [State.slot_noteIssue]; split <;> rfl

@[simp] theorem State.noteIssue_slot_tol (s : State) (g : Nat) : (s.noteIssue.slot g).tol = (s.slot g).tol := by
  rw [State.slot_noteIssue]; split <;> rfl

@[simp] theorem State.noteIssue_slot_tolMode (s : State) (g : Nat) : (s.noteIssue.slot g).tolMode = (s.slot g).tolMode := by
  rw [State.slot_noteIssue]; split <;> rfl

@[simp] theorem State.noteIssue_slot_sfails (s : State) (g : Nat) : (s.noteIssue.slot g).sfails = (s.slot g).sfails := by
  rw [State.slot_noteIssue]; split <;> rfl

@[simp] theorem State.noteIssue_slot_view (s : State) (g : Nat) : (s.noteIssue.slot g).view = (s.slot g).view := by
  rw [State.slot_noteIssue]; split <;> rfl

@[simp] theorem State.noteIssue_slot_camStep (s : State) (g : Nat) : (s.noteIssue.slot g).camStep = (s.slot g).camStep := by
  rw [State.slot_noteIssue]; split <;> rfl

@[simp] theorem State.noteIssue_slot_flipPen (s : State) (g : Nat) : (s.noteIssue.slot g).flipPen = (s.slot g).flipPen := by
  rw [State.slot_noteIssue]; split <;> rfl

@[simp] theorem State.noteIssue_slot_rsts (s : State) (g : Nat) : (s.noteIssue.slot g).rsts = (s.slot g).rsts := by
  rw [State.slot_noteIssue]; split <;> rfl

@[simp] theorem State.noteIssue_slot_relHold (s : State) (g : Nat) : (s.noteIssue.slot g).relHold = (s.slot g).relHold := by
  rw [State.slot_noteIssue]; split <;> rfl

@[simp] theorem State.noteIssue_slot_wait (s : State) (g : Nat) : (s.noteIssue.slot g).wait = (s.slot g).wait := by
  rw [State.slot_noteIssue]; split <;> rfl

@[simp] theorem State.noteIssue_slot_preempt (s : State) (g : Nat) : (s.noteIssue.slot g).preempt = (s.slot g).preempt := by
  rw [State.slot_noteIssue]; split <;> rfl

@[simp] theorem State.noteIssue_slot_stopped (s : State) (g : Nat) : (s.noteIssue.slot g).stopped = (s.slot g).stopped := by
  rw [State.slot_noteIssue]; split <;> rfl

@[simp] theorem State.noteIssue_slot_phase (s : State) (g : Nat) : (s.noteIssue.slot g).phase = (s.slot g).phase := by
  rw [State.slot_noteIssue]; split <;> rfl

@[simp] theorem State.noteIssue_slot_tid (s : State) (g : Nat) : (s.noteIssue.slot g).tid = (s.slot g).tid := by
  rw [State.slot_noteIssue]; split <;> rfl

@[simp] theorem State.noteIssue_slot_msg (s : State) (g : Nat) : (s.noteIssue.slot g).msg = (s.slot g).msg := by
  rw [State.slot_noteIssue]; split <;> rfl

@[simp] theorem State.noteIssue_slot_elems (s : State) (g : Nat) : (s.noteIssue.slot g).elems = (s.slot g).elems := by
  rw [State.slot_noteIssue]; split <;> rfl

@[simp] theorem State.noteIssue_slot_job (s : State) (g : Nat) : (s.noteIssue.slot g).job = (s.slot g).job := by
  rw [State.slot_noteIssue]; split <;> rfl

@[simp] theorem State.noteIssue_slot_seen (s : State) (g : Nat) : (s.noteIssue.slot g).seen = (s.slot g).seen := by
  rw [State.slot_noteIssue]; split <;> rfl

@[simp] theorem State.noteIssue_slot_far (s : State) (g : Nat) : (s.noteIssue.slot g).far = (s.slot g).far := by
  rw [State.slot_noteIssue]; split <;> rfl

@[simp] theorem State.noteIssue_slot_mcheck (s : State) (g : Nat) : (s.noteIssue.slot g).mcheck = (s.slot g).mcheck := by
  rw [State.slot_noteIssue]; split <;> rfl

@[simp] theorem State.noteIssue_read (s : State) (g : Nat) (a : Src) : (s.noteIssue.slot g).read a = (s.slot g).read a := by
  rw [State.slot_noteIssue]; split
  · cases a <;> rfl
  · rfl

@[simp] theorem State.noteIssue_kreg (s : State) (g i : Nat) : (s.noteIssue.slot g).kreg i = (s.slot g).kreg i := by
  simp [Slot.kreg]

@[simp] theorem State.noteIssue_tile (s : State) (g : Nat) : (s.noteIssue.slot g).tile? = (s.slot g).tile? := by
  simp [Slot.tile?]

@[simp] theorem State.noteIssue_pc (s : State) (g : Nat) : (s.noteIssue.slot g).pc = (s.slot g).pc := by
  simp [Slot.pc]

/-! ## Outcomes -/

theorem runInstr_ok {len : Nat} {m : Exec Flow} {s t : State} {f : Flow} (h : m s.noteIssue = .ok (f, t)) :
    runInstr len m s = .next (t.settle len f) := by
  rw [runInstr, h]

theorem runInstr_wait {len : Nat} {m : Exec Flow} {s : State} (h : m s.noteIssue = .error .wait) :
    runInstr len m s = .next s.passOver := by
  rw [runInstr, h]

theorem runInstr_firm {len : Nat} {m : Exec Flow} {s : State} (h : m s.noteIssue = .error .firm) :
    runInstr len m s = .next s.passFirm := by
  rw [runInstr, h]

theorem runInstr_request {len h' : Nat} {m : Exec Flow} {s : State} (h : m s.noteIssue = .error (.request h')) :
    runInstr len m s = .next (s.passOver.ask h') := by
  rw [runInstr, h]

theorem runInstr_again {len : Nat} {m : Exec Flow} {s t : State} (h : m s.noteIssue = .error (.again t)) :
    runInstr len m s = .next (s.stepped t) := by
  rw [runInstr, h]

theorem runInstr_trap {len : Nat} {m : Exec Flow} {s : State} {c : Cause} {v : U64} (h : m s.noteIssue = .error (.trap c v)) :
    runInstr len m s = .next ((s.noteIssue.takeTrap s.cur c v len).getD s.passOver) := by
  rw [runInstr, h]
  show (match s.noteIssue.takeTrap s.cur c v len with | some t => _ | none => _) = _
  cases s.noteIssue.takeTrap s.cur c v len <;> rfl

theorem runInstr_fail {len r : Nat} {m : Exec Flow} {s : State} (h : m s.noteIssue = .error (.fail r)) :
    runInstr len m s = .next ((s.noteIssue.failPhase s.cur r).getD s.passOver) := by
  rw [runInstr, h]
  show (match s.noteIssue.failPhase s.cur r with | some t => _ | none => _) = _
  cases s.noteIssue.failPhase s.cur r <;> rfl

/-- An instruction always answers a next state. -/
theorem runInstr_next (len : Nat) (m : Exec Flow) (s : State) : ∃ t, runInstr len m s = .next t := by
  cases h : m s.noteIssue with
  | ok p => exact ⟨_, runInstr_ok (f := p.1) (t := p.2) h⟩
  | error e =>
    cases e with
    | wait => exact ⟨_, runInstr_wait h⟩
    | firm => exact ⟨_, runInstr_firm h⟩
    | request k => exact ⟨_, runInstr_request h⟩
    | again t => exact ⟨_, runInstr_again h⟩
    | trap c v => exact ⟨_, runInstr_trap h⟩
    | fail r => exact ⟨_, runInstr_fail h⟩

/-- What an event answers. -/
theorem runEvent_some {name : String} {r : Option State} {t : State} (h : r = some t) : runEvent name r = .next t := by
  subst h; rfl

end Sys2Proof.Machine
end

