-- ==== Sys2Proof/Laws/Ops.lean ====
section
/-!
SUPPORT. Laws of the shared shapes: how an instruction ends by what its body does, in the terms of `Safety`.
-/

namespace Sys2Proof.Machine

/-! ## Ends -/

theorem runInstr_done {len : Nat} {m : Exec Flow} {s : State} {f : Slot → Slot}
    (h : m s.noteIssue = .ok (.next, s.noteIssue.modSlot s.cur f)) : runInstr len m s = .next (s.done len f) := by
  rw [runInstr_ok h]; rfl

theorem runInstr_past {len : Nat} {m : Exec Flow} {s t : State}
    (h : m s.noteIssue = .ok (.next, t)) : runInstr len m s = .next (t.past len) := by
  rw [runInstr_ok h]; rfl

theorem runInstr_gives {len : Nat} {m : Exec Flow} {s : State} {d : Dst} {v : U64}
    (h : m s.noteIssue = .ok (.next, s.noteIssue.modSlot s.cur fun x => x.result d v)) : runInstr len m s = s.gives len d v :=
  runInstr_done h

theorem runInstr_goes {len : Nat} {m : Exec Flow} {s : State} {f : Slot → Slot} {t : Nat}
    (h : m s.noteIssue = .ok (.jump t, s.noteIssue.modSlot s.cur f)) : runInstr len m s = s.goes f t := by
  rw [runInstr_ok h]; rfl

theorem runInstr_traps {len : Nat} {m : Exec Flow} {s : State} {c : Cause} {v : U64}
    (h : m s.noteIssue = .error (.trap c v)) : runInstr len m s = s.traps len c v := runInstr_trap h

theorem runInstr_waits {len : Nat} {m : Exec Flow} {s : State} (h : m s.noteIssue = .error .wait) :
    runInstr len m s = s.waits := runInstr_wait h

/-! ## What issuing leaves -/

theorem State.core_noteIssue (s : State) (c : Nat) :
    s.noteIssue.core c =
      if c = coreOf s.cur then { s.core c with rot := (slotNo s.cur + 1) % 12, issuedAt := some s.now } else s.core c := by
  by_cases h : c = coreOf s.cur
  · subst h
    rw [if_pos rfl]
    exact (SMap.get_set _ _ _ _ _).trans (if_pos rfl)
  · rw [if_neg h]
    exact (SMap.get_set _ _ _ _ _).trans (if_neg h)

@[simp] theorem State.noteIssue_core_queues (s : State) (c : Nat) : (s.noteIssue.core c).queues = (s.core c).queues := by
  rw [State.core_noteIssue]; split <;> rfl

@[simp] theorem State.noteIssue_core_mbx (s : State) (c : Nat) : (s.noteIssue.core c).mbx = (s.core c).mbx := by
  rw [State.core_noteIssue]; split <;> rfl

@[simp] theorem State.noteIssue_core_mbxp (s : State) (c : Nat) : (s.noteIssue.core c).mbxp = (s.core c).mbxp := by
  rw [State.core_noteIssue]; split <;> rfl

@[simp] theorem State.noteIssue_core_mbxHeld (s : State) (c : Nat) : (s.noteIssue.core c).mbxHeld = (s.core c).mbxHeld := by
  rw [State.core_noteIssue]; split <;> rfl

@[simp] theorem State.noteIssue_core_rcache (s : State) (c : Nat) : (s.noteIssue.core c).rcache = (s.core c).rcache := by
  rw [State.core_noteIssue]; split <;> rfl

@[simp] theorem State.noteIssue_core_ibuf (s : State) (c : Nat) : (s.noteIssue.core c).ibuf = (s.core c).ibuf := by
  rw [State.core_noteIssue]; split <;> rfl

@[simp] theorem State.noteIssue_core_tlb (s : State) (c : Nat) : (s.noteIssue.core c).tlb = (s.core c).tlb := by
  rw [State.core_noteIssue]; split <;> rfl

@[simp] theorem State.noteIssue_core_localQ (s : State) (c : Nat) : (s.noteIssue.core c).localQ = (s.core c).localQ := by
  rw [State.core_noteIssue]; split <;> rfl

@[simp] theorem State.noteIssue_core_amsgs (s : State) (c : Nat) : (s.noteIssue.core c).amsgs = (s.core c).amsgs := by
  rw [State.core_noteIssue]; split <;> rfl

@[simp] theorem State.noteIssue_partReg (s : State) (p n : Nat) : s.noteIssue.partReg p n = s.partReg p n := rfl

@[simp] theorem State.noteIssue_ownsCore (s : State) (p c : Nat) : s.noteIssue.ownsCore p c = s.ownsCore p c := rfl

@[simp] theorem State.noteIssue_partOf (s : State) (c : Nat) : s.noteIssue.partOf c = s.partOf c := rfl

@[simp] theorem State.noteIssue_ownsQuad (s : State) (p q : Nat) : s.noteIssue.ownsQuad p q = s.ownsQuad p q := rfl

@[simp] theorem State.noteIssue_sliceSize (s : State) (p : Nat) : s.noteIssue.sliceSize p = s.sliceSize p := rfl

@[simp] theorem State.noteIssue_latentSize (s : State) (p : Nat) : s.noteIssue.latentSize p = s.latentSize p := rfl

@[simp] theorem State.noteIssue_windowSize (s : State) (p : Nat) : s.noteIssue.windowSize p = s.windowSize p := rfl

@[simp] theorem State.noteIssue_topShare (s : State) (p c : Nat) : s.noteIssue.topShare p c = s.topShare p c := rfl

@[simp] theorem State.noteIssue_vaultOk (s : State) (p v : Nat) : s.noteIssue.vaultOk p v = s.vaultOk p v := rfl

@[simp] theorem State.noteIssue_scratchOk (s : State) (p v : Nat) : s.noteIssue.scratchOk p v = s.scratchOk p v := rfl

@[simp] theorem State.noteIssue_tenantClass (s : State) (p t : Nat) : s.noteIssue.tenantClass p t = s.tenantClass p t := rfl

@[simp] theorem State.noteIssue_cycle (s : State) (d : Nat) : s.noteIssue.cycle d = s.cycle d := rfl

@[simp] theorem State.noteIssue_byte (s : State) (k : Nat) : s.noteIssue.byte k = s.byte k := rfl

@[simp] theorem State.noteIssue_bytes (s : State) (k n : Nat) : s.noteIssue.bytes k n = s.bytes k n := rfl

@[simp] theorem State.noteIssue_poisoned (s : State) (k : Nat) : s.noteIssue.poisoned k = s.poisoned k := rfl

@[simp] theorem State.noteIssue_tagAt (s : State) (k : Nat) : s.noteIssue.tagAt k = s.tagAt k := rfl

@[simp] theorem State.noteIssue_ownsLayer (s : State) (p i : Nat) : s.noteIssue.ownsLayer p i = s.ownsLayer p i := rfl

@[simp] theorem State.noteIssue_ownsView (s : State) (p v : Nat) : s.noteIssue.ownsView p v = s.ownsView p v := rfl

@[simp] theorem State.noteIssue_pending (s : State) (i : Nat) : s.noteIssue.pending i = s.pending i := rfl

@[simp] theorem State.noteIssue_partFld (s : State) (p n lo len : Nat) : s.noteIssue.partFld p n lo len = s.partFld p n lo len := rfl

@[simp] theorem State.noteIssue_alias (s : State) (p v : Nat) : s.noteIssue.alias? p v = s.alias? p v := rfl

@[simp] theorem State.noteIssue_partOfSlot (s : State) (g : Nat) : s.noteIssue.partOfSlot g = s.partOfSlot g := by
  simp [State.partOfSlot]

@[simp] theorem State.noteIssue_who (s : State) (g : Nat) : s.noteIssue.who g = s.who g := by
  simp [State.who]

@[simp] theorem State.noteIssue_cardsOf (s : State) (g : Nat) : s.noteIssue.cardsOf g = s.cardsOf g := by
  simp [State.cardsOf, State.cards]

@[simp] theorem State.noteIssue_reservedFor (s : State) (g : Nat) : s.noteIssue.reservedFor g = s.reservedFor g := by
  simp only [State.reservedFor, State.noteIssue_partOfSlot]; rfl

@[simp] theorem State.noteIssue_freeHelper (s : State) (g : Nat) : s.noteIssue.freeHelper g = s.freeHelper g := by
  simp [State.freeHelper]

@[simp] theorem State.noteIssue_xreg (s : State) (g i : Nat) : (s.noteIssue.slot g).xreg i = (s.slot g).xreg i := by
  simp [Slot.xreg]

@[simp] theorem State.noteIssue_named (s : State) (g i : Nat) : (s.noteIssue.slot g).named i = (s.slot g).named i := by
  simp [Slot.named]

@[simp] theorem State.noteIssue_present (s : State) (g i : Nat) : (s.noteIssue.slot g).present i = (s.slot g).present i := by
  simp [Slot.present]

@[simp] theorem State.noteIssue_cap (s : State) (i : BitVec 3) : s.noteIssue.cap i = s.cap i := by
  simp [State.cap]

/-- A source that is a clear named register blocks (R87). -/
theorem src_none {s : State} {a : Src} (h : s.reads a = none) : src a s = .error .wait := by
  rw [src_apply]; rw [State.reads] at h; rw [h]

theorem State.reads_noteIssue_eq (s : State) (a : Src) : s.noteIssue.reads a = s.reads a := noteIssue_read s s.cur a

/-! ## Sources and results -/

theorem State.reads_noteIssue {s : State} {a : Src} {v : U64} (h : s.reads a = some v) : s.noteIssue.reads a = some v :=
  (noteIssue_read s s.cur a).trans h

theorem src_reads {s : State} {a : Src} {v : U64} (h : s.reads a = some v) : src a s = .ok (v, s) := src_some h

theorem src_issued {s : State} {a : Src} {v : U64} (h : s.reads a = some v) : src a s.noteIssue = .ok (v, s.noteIssue) :=
  src_reads (State.reads_noteIssue h)

theorem alu2_apply {s : State} {d : Dst} {a b : Src} {x y : U64} (f : U64 → U64 → U64) (hx : s.reads a = some x)
    (hy : s.reads b = some y) : alu2 d a b f s = .ok (.next, s.modSlot s.cur fun r => r.result d (f x y)) := by
  simp [alu2, src_reads hx, src_reads hy]

theorem alu1_apply {s : State} {d : Dst} {a : Src} {x : U64} (f : U64 → U64) (hx : s.reads a = some x) :
    alu1 d a f s = .ok (.next, s.modSlot s.cur fun r => r.result d (f x)) := by
  simp [alu1, src_reads hx]

theorem alu2_gives {s : State} {len : Nat} {d : Dst} {a b : Src} {x y : U64} (f : U64 → U64 → U64) (hx : s.reads a = some x)
    (hy : s.reads b = some y) : runInstr len (alu2 d a b f) s = s.gives len d (f x y) :=
  runInstr_gives (alu2_apply f (State.reads_noteIssue hx) (State.reads_noteIssue hy))

theorem alu1_gives {s : State} {len : Nat} {d : Dst} {a : Src} {x : U64} (f : U64 → U64) (hx : s.reads a = some x) :
    runInstr len (alu1 d a f) s = s.gives len d (f x) :=
  runInstr_gives (alu1_apply f (State.reads_noteIssue hx))

end Sys2Proof.Machine
end

