-- ==== Sys2Proof/Laws/Dispatch.lean ====
section
/-!
SUPPORT. Laws of the dispatch: the meaning that `exec` calls for each instruction and event.
-/

namespace Sys2Proof.Machine

theorem exec_add (d : Dst) (a : Src) (b : Src) (s : State) : exec (.add d a b) s = execAdd d a b s := rfl

theorem exec_sub (d : Dst) (a : Src) (b : Src) (s : State) : exec (.sub d a b) s = execSub d a b s := rfl

theorem exec_mul (d : Dst) (a : Src) (b : Src) (s : State) : exec (.mul d a b) s = execMul d a b s := rfl

theorem exec_mulh (d : Dst) (a : Src) (b : Src) (s : State) : exec (.mulh d a b) s = execMulh d a b s := rfl

theorem exec_mulhu (d : Dst) (a : Src) (b : Src) (s : State) : exec (.mulhu d a b) s = execMulhu d a b s := rfl

theorem exec_div (d : Dst) (a : Src) (b : Src) (s : State) : exec (.div d a b) s = execDiv d a b s := rfl

theorem exec_divu (d : Dst) (a : Src) (b : Src) (s : State) : exec (.divu d a b) s = execDivu d a b s := rfl

theorem exec_rem (d : Dst) (a : Src) (b : Src) (s : State) : exec (.rem d a b) s = execRem d a b s := rfl

theorem exec_remu (d : Dst) (a : Src) (b : Src) (s : State) : exec (.remu d a b) s = execRemu d a b s := rfl

theorem exec_and (d : Dst) (a : Src) (b : Src) (s : State) : exec (.and d a b) s = execAnd d a b s := rfl

theorem exec_or (d : Dst) (a : Src) (b : Src) (s : State) : exec (.or d a b) s = execOr d a b s := rfl

theorem exec_xor (d : Dst) (a : Src) (b : Src) (s : State) : exec (.xor d a b) s = execXor d a b s := rfl

theorem exec_andn (d : Dst) (a : Src) (b : Src) (s : State) : exec (.andn d a b) s = execAndn d a b s := rfl

theorem exec_shl (d : Dst) (a : Src) (b : Src) (s : State) : exec (.shl d a b) s = execShl d a b s := rfl

theorem exec_shr (d : Dst) (a : Src) (b : Src) (s : State) : exec (.shr d a b) s = execShr d a b s := rfl

theorem exec_sra (d : Dst) (a : Src) (b : Src) (s : State) : exec (.sra d a b) s = execSra d a b s := rfl

theorem exec_rol (d : Dst) (a : Src) (b : Src) (s : State) : exec (.rol d a b) s = execRol d a b s := rfl

theorem exec_min (d : Dst) (a : Src) (b : Src) (s : State) : exec (.min d a b) s = execMin d a b s := rfl

theorem exec_max (d : Dst) (a : Src) (b : Src) (s : State) : exec (.max d a b) s = execMax d a b s := rfl

theorem exec_minu (d : Dst) (a : Src) (b : Src) (s : State) : exec (.minu d a b) s = execMinu d a b s := rfl

theorem exec_maxu (d : Dst) (a : Src) (b : Src) (s : State) : exec (.maxu d a b) s = execMaxu d a b s := rfl

theorem exec_slt (d : Dst) (a : Src) (b : Src) (s : State) : exec (.slt d a b) s = execSlt d a b s := rfl

theorem exec_sltu (d : Dst) (a : Src) (b : Src) (s : State) : exec (.sltu d a b) s = execSltu d a b s := rfl

theorem exec_seq (d : Dst) (a : Src) (b : Src) (s : State) : exec (.seq d a b) s = execSeq d a b s := rfl

theorem exec_sne (d : Dst) (a : Src) (b : Src) (s : State) : exec (.sne d a b) s = execSne d a b s := rfl

theorem exec_clz (d : Dst) (a : Src) (s : State) : exec (.clz d a) s = execClz d a s := rfl

theorem exec_ctz (d : Dst) (a : Src) (s : State) : exec (.ctz d a) s = execCtz d a s := rfl

theorem exec_popc (d : Dst) (a : Src) (s : State) : exec (.popc d a) s = execPopc d a s := rfl

theorem exec_brev (d : Dst) (a : Src) (s : State) : exec (.brev d a) s = execBrev d a s := rfl

theorem exec_sext (d : Dst) (a : Src) (b : Src) (s : State) : exec (.sext d a b) s = execSext d a b s := rfl

theorem exec_zext (d : Dst) (a : Src) (b : Src) (s : State) : exec (.zext d a b) s = execZext d a b s := rfl

theorem exec_sel (d : Dst) (a : Src) (b : Src) (c : BitVec 4) (s : State) : exec (.sel d a b c) s = execSel d a b c s := rfl

theorem exec_addi (d : Dst) (a : Src) (imm : BitVec 11) (s : State) : exec (.addi d a imm) s = execAddi d a imm s := rfl

theorem exec_andi (d : Dst) (a : Src) (imm : BitVec 11) (s : State) : exec (.andi d a imm) s = execAndi d a imm s := rfl

theorem exec_ori (d : Dst) (a : Src) (imm : BitVec 11) (s : State) : exec (.ori d a imm) s = execOri d a imm s := rfl

theorem exec_xori (d : Dst) (a : Src) (imm : BitVec 11) (s : State) : exec (.xori d a imm) s = execXori d a imm s := rfl

theorem exec_shli (d : Dst) (a : Src) (imm : BitVec 11) (s : State) : exec (.shli d a imm) s = execShli d a imm s := rfl

theorem exec_shri (d : Dst) (a : Src) (imm : BitVec 11) (s : State) : exec (.shri d a imm) s = execShri d a imm s := rfl

theorem exec_srai (d : Dst) (a : Src) (imm : BitVec 11) (s : State) : exec (.srai d a imm) s = execSrai d a imm s := rfl

theorem exec_slti (d : Dst) (a : Src) (imm : BitVec 11) (s : State) : exec (.slti d a imm) s = execSlti d a imm s := rfl

theorem exec_li (d : Dst) (imm : BitVec 19) (s : State) : exec (.li d imm) s = execLi d imm s := rfl

theorem exec_xset (x : BitVec 3) (imm : BitVec 16) (part : BitVec 2) (s : State) : exec (.xset x imm part) s = execXset x imm part s := rfl

theorem exec_mov (d : Dst) (a : Src) (s : State) : exec (.mov d a) s = execMov d a s := rfl

theorem exec_xget (d : Dst) (x : BitVec 3) (s : State) : exec (.xget d x) s = execXget d x s := rfl

theorem exec_xsetr (x : BitVec 3) (a : Src) (s : State) : exec (.xsetr x a) s = execXsetr x a s := rfl

theorem exec_nclr (n : BitVec 4) (s : State) : exec (.nclr n) s = execNclr n s := rfl

theorem exec_nwr (dir : BitVec 2) (n : BitVec 4) (a : Src) (slot : BitVec 5) (s : State) : exec (.nwr dir n a slot) s = execNwr dir n a slot s := rfl

theorem exec_ntest (d : Dst) (n : BitVec 4) (s : State) : exec (.ntest d n) s = execNtest d n s := rfl

theorem exec_borrow (d : Dst) (a : Src) (s : State) : exec (.borrow d a) s = execBorrow d a s := rfl

theorem exec_brd (d : Dst) (n : BitVec 4) (s : State) : exec (.brd d n) s = execBrd d n s := rfl

theorem exec_bwr (n : BitVec 4) (a : Src) (s : State) : exec (.bwr n a) s = execBwr n a s := rfl

theorem exec_bret (s : State) : exec .bret s = execBret s := rfl

theorem exec_qsend (q : BitVec 3) (a : Src) (s : State) : exec (.qsend q a) s = execQsend q a s := rfl

theorem exec_qrecv (d : Dst) (q : BitVec 3) (s : State) : exec (.qrecv d q) s = execQrecv d q s := rfl

theorem exec_qstat (d : Dst) (q : BitVec 3) (s : State) : exec (.qstat d q) s = execQstat d q s := rfl

theorem exec_rng (d : Dst) (s : State) : exec (.rng d) s = execRng d s := rfl

theorem exec_rngseed (a : Src) (s : State) : exec (.rngseed a) s = execRngseed a s := rfl

theorem exec_cycle (d : Dst) (s : State) : exec (.cycle d) s = execCycle d s := rfl

theorem exec_mfs (d : Dst) (sys : BitVec 12) (s : State) : exec (.mfs d sys) s = execMfs d sys s := rfl

theorem exec_mts (sys : BitVec 12) (a : Src) (s : State) : exec (.mts sys a) s = execMts sys a s := rfl

theorem exec_mtsi (sys : BitVec 12) (ihi : BitVec 3) (ilo : BitVec 5) (s : State) : exec (.mtsi sys ihi ilo) s = execMtsi sys ihi ilo s := rfl

theorem exec_cgeta (d : Dst) (ka : BitVec 3) (s : State) : exec (.cgeta d ka) s = execCgeta d ka s := rfl

theorem exec_cgetb (d : Dst) (ka : BitVec 3) (s : State) : exec (.cgetb d ka) s = execCgetb d ka s := rfl

theorem exec_cgetl (d : Dst) (ka : BitVec 3) (s : State) : exec (.cgetl d ka) s = execCgetl d ka s := rfl

theorem exec_cgetp (d : Dst) (ka : BitVec 3) (s : State) : exec (.cgetp d ka) s = execCgetp d ka s := rfl

theorem exec_ctag (d : Dst) (ka : BitVec 3) (s : State) : exec (.ctag d ka) s = execCtag d ka s := rfl

theorem exec_cmov (kd : BitVec 3) (ka : BitVec 3) (s : State) : exec (.cmov kd ka) s = execCmov kd ka s := rfl

theorem exec_cseta (kd : BitVec 3) (ka : BitVec 3) (b : Src) (s : State) : exec (.cseta kd ka b) s = execCseta kd ka b s := rfl

theorem exec_cinc (kd : BitVec 3) (ka : BitVec 3) (b : Src) (s : State) : exec (.cinc kd ka b) s = execCinc kd ka b s := rfl

theorem exec_cbound (exact : Bool) (kd : BitVec 3) (ka : BitVec 3) (b : Src) (s : State) : exec (.cbound exact kd ka b) s = execCbound exact kd ka b s := rfl

theorem exec_cperm (kd : BitVec 3) (ka : BitVec 3) (b : Src) (s : State) : exec (.cperm kd ka b) s = execCperm kd ka b s := rfl

theorem exec_cgen (kd : BitVec 3) (ka : BitVec 3) (s : State) : exec (.cgen kd ka) s = execCgen kd ka s := rfl

theorem exec_cclr (kd : BitVec 3) (s : State) : exec (.cclr kd) s = execCclr kd s := rfl

theorem exec_ceq (d : Dst) (ka : BitVec 3) (kb : BitVec 3) (s : State) : exec (.ceq d ka kb) s = execCeq d ka kb s := rfl

theorem exec_csub (d : Dst) (ka : BitVec 3) (kb : BitVec 3) (s : State) : exec (.csub d ka kb) s = execCsub d ka kb s := rfl

theorem exec_ldk (kd : BitVec 3) (idx : BitVec 10) (s : State) : exec (.ldk kd idx) s = execLdk kd idx s := rfl

theorem exec_beq (a : Src) (b : Src) (off : BitVec 11) (s : State) : exec (.beq a b off) s = execBeq a b off s := rfl

theorem exec_bne (a : Src) (b : Src) (off : BitVec 11) (s : State) : exec (.bne a b off) s = execBne a b off s := rfl

theorem exec_blt (a : Src) (b : Src) (off : BitVec 11) (s : State) : exec (.blt a b off) s = execBlt a b off s := rfl

theorem exec_bge (a : Src) (b : Src) (off : BitVec 11) (s : State) : exec (.bge a b off) s = execBge a b off s := rfl

theorem exec_bltu (a : Src) (b : Src) (off : BitVec 11) (s : State) : exec (.bltu a b off) s = execBltu a b off s := rfl

theorem exec_bgeu (a : Src) (b : Src) (off : BitVec 11) (s : State) : exec (.bgeu a b off) s = execBgeu a b off s := rfl

theorem exec_bbs (a : Src) (b : Src) (off : BitVec 11) (s : State) : exec (.bbs a b off) s = execBbs a b off s := rfl

theorem exec_bbc (a : Src) (b : Src) (off : BitVec 11) (s : State) : exec (.bbc a b off) s = execBbc a b off s := rfl

theorem exec_bez (a : Src) (off : BitVec 18) (s : State) : exec (.bez a off) s = execBez a off s := rfl

theorem exec_bnz (a : Src) (off : BitVec 18) (s : State) : exec (.bnz a off) s = execBnz a off s := rfl

theorem exec_bgs (g : BitVec 4) (off : BitVec 18) (s : State) : exec (.bgs g off) s = execBgs g off s := rfl

theorem exec_bgc (g : BitVec 4) (off : BitVec 18) (s : State) : exec (.bgc g off) s = execBgc g off s := rfl

theorem exec_j (off : BitVec 23) (s : State) : exec (.j off) s = execJ off s := rfl

theorem exec_call (off : BitVec 23) (s : State) : exec (.call off) s = execCall off s := rfl

theorem exec_jk (k : BitVec 3) (s : State) : exec (.jk k) s = execJk k s := rfl

theorem exec_callk (k : BitVec 3) (s : State) : exec (.callk k) s = execCallk k s := rfl

theorem exec_loop (a : Src) (off : BitVec 18) (s : State) : exec (.loop a off) s = execLoop a off s := rfl

theorem exec_loopm (i1 : BitVec 3) (off : BitVec 18) (s : State) : exec (.loopm i1 off) s = execLoopm i1 off s := rfl

theorem exec_loopi (cnt : BitVec 10) (off : BitVec 14) (s : State) : exec (.loopi cnt off) s = execLoopi cnt off s := rfl

theorem exec_gset (cc : BitVec 3) (g : BitVec 4) (a : Src) (b : Src) (s : State) : exec (.gset cc g a b) s = execGset cc g a b s := rfl

theorem exec_gsetn (cc : BitVec 3) (g : BitVec 4) (a : Src) (b : Src) (s : State) : exec (.gsetn cc g a b) s = execGsetn cc g a b s := rfl

theorem exec_gclr (g : BitVec 4) (s : State) : exec (.gclr g) s = execGclr g s := rfl

theorem exec_gwait (g : BitVec 4) (s : State) : exec (.gwait g) s = execGwait g s := rfl

theorem exec_ld (type : BitVec 3) (d : Dst) (k : BitVec 3) (off : BitVec 13) (s : State) : exec (.ld type d k off) s = execLd type d k off s := rfl

theorem exec_st (size : BitVec 2) (rel : Bool) (k : BitVec 3) (off : BitVec 13) (a : Src) (s : State) : exec (.st size rel k off a) s = execSt size rel k off a s := rfl

theorem exec_ldx (type : BitVec 3) (acq : Bool) (d : Dst) (k : BitVec 3) (i1 : Src) (scale : BitVec 2) (s : State) : exec (.ldx type acq d k i1 scale) s = execLdx type acq d k i1 scale s := rfl

theorem exec_stx (size : BitVec 2) (rel : Bool) (k : BitVec 3) (i1 : Src) (scale : BitVec 2) (a : Src) (s : State) : exec (.stx size rel k i1 scale a) s = execStx size rel k i1 scale a s := rfl

theorem exec_ldc (kd : BitVec 3) (k : BitVec 3) (off : BitVec 15) (s : State) : exec (.ldc kd k off) s = execLdc kd k off s := rfl

theorem exec_stc (k : BitVec 3) (off : BitVec 15) (kd : BitVec 3) (s : State) : exec (.stc k off kd) s = execStc k off kd s := rfl

theorem exec_aadd (wide : Bool) (order : BitVec 2) (d : Dst) (k : BitVec 3) (off : BitVec 8) (s : State) : exec (.aadd wide order d k off) s = execAadd wide order d k off s := rfl

theorem exec_aand (wide : Bool) (order : BitVec 2) (d : Dst) (k : BitVec 3) (off : BitVec 8) (s : State) : exec (.aand wide order d k off) s = execAand wide order d k off s := rfl

theorem exec_aor (wide : Bool) (order : BitVec 2) (d : Dst) (k : BitVec 3) (off : BitVec 8) (s : State) : exec (.aor wide order d k off) s = execAor wide order d k off s := rfl

theorem exec_axor (wide : Bool) (order : BitVec 2) (d : Dst) (k : BitVec 3) (off : BitVec 8) (s : State) : exec (.axor wide order d k off) s = execAxor wide order d k off s := rfl

theorem exec_amin (wide : Bool) (order : BitVec 2) (d : Dst) (k : BitVec 3) (off : BitVec 8) (s : State) : exec (.amin wide order d k off) s = execAmin wide order d k off s := rfl

theorem exec_amax (wide : Bool) (order : BitVec 2) (d : Dst) (k : BitVec 3) (off : BitVec 8) (s : State) : exec (.amax wide order d k off) s = execAmax wide order d k off s := rfl

theorem exec_aminu (wide : Bool) (order : BitVec 2) (d : Dst) (k : BitVec 3) (off : BitVec 8) (s : State) : exec (.aminu wide order d k off) s = execAminu wide order d k off s := rfl

theorem exec_amaxu (wide : Bool) (order : BitVec 2) (d : Dst) (k : BitVec 3) (off : BitVec 8) (s : State) : exec (.amaxu wide order d k off) s = execAmaxu wide order d k off s := rfl

theorem exec_aswp (wide : Bool) (order : BitVec 2) (d : Dst) (k : BitVec 3) (off : BitVec 8) (s : State) : exec (.aswp wide order d k off) s = execAswp wide order d k off s := rfl

theorem exec_acas (wide : Bool) (order : BitVec 2) (d : Dst) (k : BitVec 3) (off : BitVec 8) (s : State) : exec (.acas wide order d k off) s = execAcas wide order d k off s := rfl

theorem exec_afadd (wide : Bool) (order : BitVec 2) (d : Dst) (k : BitVec 3) (off : BitVec 8) (s : State) : exec (.afadd wide order d k off) s = execAfadd wide order d k off s := rfl

theorem exec_fence (kind : BitVec 3) (scope : BitVec 3) (s : State) : exec (.fence kind scope) s = execFence kind scope s := rfl

theorem exec_efence (s : State) : exec .efence s = execEfence s := rfl

theorem exec_ifence (s : State) : exec .ifence s = execIfence s := rfl

theorem exec_rst (size : BitVec 2) (ka : BitVec 3) (b : Src) (s : State) : exec (.rst size ka b) s = execRst size ka b s := rfl

theorem exec_amsg (ka : BitVec 3) (kb : BitVec 3) (s : State) : exec (.amsg ka kb) s = execAmsg ka kb s := rfl

theorem exec_rdrain (s : State) : exec .rdrain s = execRdrain s := rfl

theorem exec_spawn (d : Dst) (ka : BitVec 3) (s : State) : exec (.spawn d ka) s = execSpawn d ka s := rfl

theorem exec_start (d : Dst) (ka : BitVec 3) (s : State) : exec (.start d ka) s = execStart d ka s := rfl

theorem exec_done (s : State) : exec .done s = execDone s := rfl

theorem exec_yield (a : Src) (b : Src) (s : State) : exec (.yield a b) s = execYield a b s := rfl

theorem exec_join (d : Dst) (ka : BitVec 3) (s : State) : exec (.join d ka) s = execJoin d ka s := rfl

theorem exec_walk (d : Dst) (ka : BitVec 3) (b : Src) (s : State) : exec (.walk d ka b) s = execWalk d ka b s := rfl

theorem exec_launch (d : Dst) (ka : BitVec 3) (b : Src) (s : State) : exec (.launch d ka b) s = execLaunch d ka b s := rfl

theorem exec_launchi (d : Dst) (ka : BitVec 3) (kb : BitVec 3) (s : State) : exec (.launchi d ka kb) s = execLaunchi d ka kb s := rfl

theorem exec_gang (d : Dst) (ka : BitVec 3) (s : State) : exec (.gang d ka) s = execGang d ka s := rfl

theorem exec_submit (d : Dst) (ka : BitVec 3) (s : State) : exec (.submit d ka) s = execSubmit d ka s := rfl

theorem exec_dline (d : Dst) (a : Src) (s : State) : exec (.dline d a) s = execDline d a s := rfl

theorem exec_self (kd : BitVec 3) (s : State) : exec (.self kd) s = execSelf kd s := rfl

theorem exec_finit (ka : BitVec 3) (s : State) : exec (.finit ka) s = execFinit ka s := rfl

theorem exec_fres (d : Dst) (ka : BitVec 3) (b : Src) (s : State) : exec (.fres d ka b) s = execFres d ka b s := rfl

theorem exec_freg (d : Dst) (ka : BitVec 3) (kb : BitVec 3) (s : State) : exec (.freg d ka kb) s = execFreg d ka kb s := rfl

theorem exec_fget (d : Dst) (ka : BitVec 3) (s : State) : exec (.fget d ka) s = execFget d ka s := rfl

theorem exec_fstat (d : Dst) (ka : BitVec 3) (s : State) : exec (.fstat d ka) s = execFstat d ka s := rfl

theorem exec_rinit (ka : BitVec 3) (kb : BitVec 3) (s1 : BitVec 5) (s : State) : exec (.rinit ka kb s1) s = execRinit ka kb s1 s := rfl

theorem exec_rclaim (scope : BitVec 3) (d : Dst) (ka : BitVec 3) (b : Src) (s : State) : exec (.rclaim scope d ka b) s = execRclaim scope d ka b s := rfl

theorem exec_rtryclaim (scope : BitVec 3) (d : Dst) (ka : BitVec 3) (b : Src) (s : State) : exec (.rtryclaim scope d ka b) s = execRtryclaim scope d ka b s := rfl

theorem exec_rcommit (scope : BitVec 3) (ka : BitVec 3) (i1 : Src) (b : Src) (s : State) : exec (.rcommit scope ka i1 b) s = execRcommit scope ka i1 b s := rfl

theorem exec_rawait (scope : BitVec 3) (d : Dst) (ka : BitVec 3) (b : Src) (s : State) : exec (.rawait scope d ka b) s = execRawait scope d ka b s := rfl

theorem exec_rretire (scope : BitVec 3) (ka : BitVec 3) (i1 : Src) (b : Src) (s : State) : exec (.rretire scope ka i1 b) s = execRretire scope ka i1 b s := rfl

theorem exec_binit (ka : BitVec 3) (b : Src) (s : State) : exec (.binit ka b) s = execBinit ka b s := rfl

theorem exec_barrive (scope : BitVec 3) (d : Dst) (ka : BitVec 3) (b : Src) (s : State) : exec (.barrive scope d ka b) s = execBarrive scope d ka b s := rfl

theorem exec_bexpect (ka : BitVec 3) (b : Src) (s : State) : exec (.bexpect ka b) s = execBexpect ka b s := rfl

theorem exec_bwait (scope : BitVec 3) (ka : BitVec 3) (b : Src) (s : State) : exec (.bwait scope ka b) s = execBwait scope ka b s := rfl

theorem exec_btest (scope : BitVec 3) (d : Dst) (ka : BitVec 3) (b : Src) (s : State) : exec (.btest scope d ka b) s = execBtest scope d ka b s := rfl

theorem exec_trap (a : Src) (s : State) : exec (.trap a) s = execTrap a s := rfl

theorem exec_rte (s : State) : exec .rte s = execRte s := rfl

theorem exec_svc (d : Dst) (a : Src) (b : Src) (s : State) : exec (.svc d a b) s = execSvc d a b s := rfl

theorem exec_brk (s : State) : exec .brk s = execBrk s := rfl

theorem exec_chkpt (idx : BitVec 10) (s : State) : exec (.chkpt idx) s = execChkpt idx s := rfl

theorem exec_realign (tag : BitVec 10) (s : State) : exec (.realign tag) s = execRealign tag s := rfl

theorem exec_wfi (d : Dst) (a : Src) (s : State) : exec (.wfi d a) s = execWfi d a s := rfl

theorem exec_halt (s : State) : exec .halt s = execHalt s := rfl

theorem exec_tinv (all : Bool) (a : Src) (b : Src) (s : State) : exec (.tinv all a b) s = execTinv all a b s := rfl

theorem exec_vclaim (d : Dst) (a : Src) (b : Src) (s : State) : exec (.vclaim d a b) s = execVclaim d a b s := rfl

theorem exec_vreneg (d : Dst) (a : Src) (b : Src) (s : State) : exec (.vreneg d a b) s = execVreneg d a b s := rfl

theorem exec_vrel (s : State) : exec .vrel s = execVrel s := rfl

theorem exec_vadd (p : Option Pfx) (et : BitVec 3) (d : BitVec 5) (a : BitVec 5) (b : BitVec 5) (s : State) : exec (.vadd p et d a b) s = execVadd p et d a b s := rfl

theorem exec_vsub (p : Option Pfx) (et : BitVec 3) (d : BitVec 5) (a : BitVec 5) (b : BitVec 5) (s : State) : exec (.vsub p et d a b) s = execVsub p et d a b s := rfl

theorem exec_vmul (p : Option Pfx) (et : BitVec 3) (d : BitVec 5) (a : BitVec 5) (b : BitVec 5) (s : State) : exec (.vmul p et d a b) s = execVmul p et d a b s := rfl

theorem exec_vmulh (p : Option Pfx) (et : BitVec 3) (d : BitVec 5) (a : BitVec 5) (b : BitVec 5) (s : State) : exec (.vmulh p et d a b) s = execVmulh p et d a b s := rfl

theorem exec_vmin (p : Option Pfx) (et : BitVec 3) (d : BitVec 5) (a : BitVec 5) (b : BitVec 5) (s : State) : exec (.vmin p et d a b) s = execVmin p et d a b s := rfl

theorem exec_vmax (p : Option Pfx) (et : BitVec 3) (d : BitVec 5) (a : BitVec 5) (b : BitVec 5) (s : State) : exec (.vmax p et d a b) s = execVmax p et d a b s := rfl

theorem exec_vminu (p : Option Pfx) (et : BitVec 3) (d : BitVec 5) (a : BitVec 5) (b : BitVec 5) (s : State) : exec (.vminu p et d a b) s = execVminu p et d a b s := rfl

theorem exec_vmaxu (p : Option Pfx) (et : BitVec 3) (d : BitVec 5) (a : BitVec 5) (b : BitVec 5) (s : State) : exec (.vmaxu p et d a b) s = execVmaxu p et d a b s := rfl

theorem exec_vand (p : Option Pfx) (et : BitVec 3) (d : BitVec 5) (a : BitVec 5) (b : BitVec 5) (s : State) : exec (.vand p et d a b) s = execVand p et d a b s := rfl

theorem exec_vor (p : Option Pfx) (et : BitVec 3) (d : BitVec 5) (a : BitVec 5) (b : BitVec 5) (s : State) : exec (.vor p et d a b) s = execVor p et d a b s := rfl

theorem exec_vxor (p : Option Pfx) (et : BitVec 3) (d : BitVec 5) (a : BitVec 5) (b : BitVec 5) (s : State) : exec (.vxor p et d a b) s = execVxor p et d a b s := rfl

theorem exec_vshl (p : Option Pfx) (et : BitVec 3) (d : BitVec 5) (a : BitVec 5) (b : BitVec 5) (s : State) : exec (.vshl p et d a b) s = execVshl p et d a b s := rfl

theorem exec_vshr (p : Option Pfx) (et : BitVec 3) (d : BitVec 5) (a : BitVec 5) (b : BitVec 5) (s : State) : exec (.vshr p et d a b) s = execVshr p et d a b s := rfl

theorem exec_vsra (p : Option Pfx) (et : BitVec 3) (d : BitVec 5) (a : BitVec 5) (b : BitVec 5) (s : State) : exec (.vsra p et d a b) s = execVsra p et d a b s := rfl

theorem exec_vabs (p : Option Pfx) (et : BitVec 3) (d : BitVec 5) (a : BitVec 5) (s : State) : exec (.vabs p et d a) s = execVabs p et d a s := rfl

theorem exec_vsadd (p : Option Pfx) (et : BitVec 3) (d : BitVec 5) (a : BitVec 5) (b : BitVec 5) (s : State) : exec (.vsadd p et d a b) s = execVsadd p et d a b s := rfl

theorem exec_vssub (p : Option Pfx) (et : BitVec 3) (d : BitVec 5) (a : BitVec 5) (b : BitVec 5) (s : State) : exec (.vssub p et d a b) s = execVssub p et d a b s := rfl

theorem exec_vfadd (p : Option Pfx) (et : BitVec 3) (d : BitVec 5) (a : BitVec 5) (b : BitVec 5) (s : State) : exec (.vfadd p et d a b) s = execVfadd p et d a b s := rfl

theorem exec_vfsub (p : Option Pfx) (et : BitVec 3) (d : BitVec 5) (a : BitVec 5) (b : BitVec 5) (s : State) : exec (.vfsub p et d a b) s = execVfsub p et d a b s := rfl

theorem exec_vfmul (p : Option Pfx) (et : BitVec 3) (d : BitVec 5) (a : BitVec 5) (b : BitVec 5) (s : State) : exec (.vfmul p et d a b) s = execVfmul p et d a b s := rfl

theorem exec_vfma (p : Option Pfx) (et : BitVec 3) (d : BitVec 5) (a : BitVec 5) (b : BitVec 5) (s : State) : exec (.vfma p et d a b) s = execVfma p et d a b s := rfl

theorem exec_vfdiv (p : Option Pfx) (et : BitVec 3) (d : BitVec 5) (a : BitVec 5) (b : BitVec 5) (s : State) : exec (.vfdiv p et d a b) s = execVfdiv p et d a b s := rfl

theorem exec_vfsqrt (p : Option Pfx) (et : BitVec 3) (d : BitVec 5) (a : BitVec 5) (s : State) : exec (.vfsqrt p et d a) s = execVfsqrt p et d a s := rfl

theorem exec_vfmin (p : Option Pfx) (et : BitVec 3) (d : BitVec 5) (a : BitVec 5) (b : BitVec 5) (s : State) : exec (.vfmin p et d a b) s = execVfmin p et d a b s := rfl

theorem exec_vfmax (p : Option Pfx) (et : BitVec 3) (d : BitVec 5) (a : BitVec 5) (b : BitVec 5) (s : State) : exec (.vfmax p et d a b) s = execVfmax p et d a b s := rfl

theorem exec_vfabs (p : Option Pfx) (et : BitVec 3) (d : BitVec 5) (a : BitVec 5) (s : State) : exec (.vfabs p et d a) s = execVfabs p et d a s := rfl

theorem exec_vfneg (p : Option Pfx) (et : BitVec 3) (d : BitVec 5) (a : BitVec 5) (s : State) : exec (.vfneg p et d a) s = execVfneg p et d a s := rfl

theorem exec_vfrcp (p : Option Pfx) (et : BitVec 3) (d : BitVec 5) (a : BitVec 5) (s : State) : exec (.vfrcp p et d a) s = execVfrcp p et d a s := rfl

theorem exec_vfrsq (p : Option Pfx) (et : BitVec 3) (d : BitVec 5) (a : BitVec 5) (s : State) : exec (.vfrsq p et d a) s = execVfrsq p et d a s := rfl

theorem exec_vfexp2 (p : Option Pfx) (et : BitVec 3) (d : BitVec 5) (a : BitVec 5) (s : State) : exec (.vfexp2 p et d a) s = execVfexp2 p et d a s := rfl

theorem exec_vflog2 (p : Option Pfx) (et : BitVec 3) (d : BitVec 5) (a : BitVec 5) (s : State) : exec (.vflog2 p et d a) s = execVflog2 p et d a s := rfl

theorem exec_vfclass (p : Option Pfx) (et : BitVec 3) (d : BitVec 5) (a : BitVec 5) (s : State) : exec (.vfclass p et d a) s = execVfclass p et d a s := rfl

theorem exec_vcmp (p : Option Pfx) (et : BitVec 3) (cc : BitVec 2) (vmd : BitVec 3) (a : BitVec 5) (b : BitVec 5) (s : State) : exec (.vcmp p et cc vmd a b) s = execVcmp p et cc vmd a b s := rfl

theorem exec_vfcmp (p : Option Pfx) (et : BitVec 3) (cc : BitVec 2) (vmd : BitVec 3) (a : BitVec 5) (b : BitVec 5) (s : State) : exec (.vfcmp p et cc vmd a b) s = execVfcmp p et cc vmd a b s := rfl

theorem exec_vmand (p : Option Pfx) (vmd : BitVec 3) (vma : BitVec 3) (vmb : BitVec 3) (s : State) : exec (.vmand p vmd vma vmb) s = execVmand p vmd vma vmb s := rfl

theorem exec_vmor (p : Option Pfx) (vmd : BitVec 3) (vma : BitVec 3) (vmb : BitVec 3) (s : State) : exec (.vmor p vmd vma vmb) s = execVmor p vmd vma vmb s := rfl

theorem exec_vmxor (p : Option Pfx) (vmd : BitVec 3) (vma : BitVec 3) (vmb : BitVec 3) (s : State) : exec (.vmxor p vmd vma vmb) s = execVmxor p vmd vma vmb s := rfl

theorem exec_vmnot (p : Option Pfx) (vmd : BitVec 3) (vma : BitVec 3) (s : State) : exec (.vmnot p vmd vma) s = execVmnot p vmd vma s := rfl

theorem exec_vmpop (p : Option Pfx) (d : Dst) (vma : BitVec 3) (s : State) : exec (.vmpop p d vma) s = execVmpop p d vma s := rfl

theorem exec_vmfirst (p : Option Pfx) (d : Dst) (vma : BitVec 3) (s : State) : exec (.vmfirst p d vma) s = execVmfirst p d vma s := rfl

theorem exec_vcvt (p : Option Pfx) (et : BitVec 3) (d : BitVec 5) (a : BitVec 5) (src : BitVec 3) (part : BitVec 2) (s : State) : exec (.vcvt p et d a src part) s = execVcvt p et d a src part s := rfl

theorem exec_vqbfp (p : Option Pfx) (et : BitVec 3) (d : BitVec 5) (a : BitVec 5) (m1 : BitVec 3) (s : State) : exec (.vqbfp p et d a m1) s = execVqbfp p et d a m1 s := rfl

theorem exec_vdqbfp (p : Option Pfx) (et : BitVec 3) (d : BitVec 5) (a : BitVec 5) (m1 : BitVec 3) (s : State) : exec (.vdqbfp p et d a m1) s = execVdqbfp p et d a m1 s := rfl

theorem exec_vld (p : Option Pfx) (et : BitVec 3) (d : BitVec 5) (k : BitVec 3) (off : BitVec 5) (s : State) : exec (.vld p et d k off) s = execVld p et d k off s := rfl

theorem exec_vst (p : Option Pfx) (et : BitVec 3) (d : BitVec 5) (k : BitVec 3) (off : BitVec 5) (s : State) : exec (.vst p et d k off) s = execVst p et d k off s := rfl

theorem exec_vlds (p : Option Pfx) (et : BitVec 3) (d : BitVec 5) (k : BitVec 3) (b : Src) (s : State) : exec (.vlds p et d k b) s = execVlds p et d k b s := rfl

theorem exec_vsts (p : Option Pfx) (et : BitVec 3) (d : BitVec 5) (k : BitVec 3) (b : Src) (s : State) : exec (.vsts p et d k b) s = execVsts p et d k b s := rfl

theorem exec_vgth (p : Option Pfx) (et : BitVec 3) (d : BitVec 5) (k : BitVec 3) (b : BitVec 5) (s : State) : exec (.vgth p et d k b) s = execVgth p et d k b s := rfl

theorem exec_vsct (p : Option Pfx) (et : BitVec 3) (d : BitVec 5) (k : BitVec 3) (b : BitVec 5) (s : State) : exec (.vsct p et d k b) s = execVsct p et d k b s := rfl

theorem exec_vbcast (p : Option Pfx) (et : BitVec 3) (d : BitVec 5) (a : Src) (s : State) : exec (.vbcast p et d a) s = execVbcast p et d a s := rfl

theorem exec_vext (p : Option Pfx) (et : BitVec 3) (d : Dst) (a : BitVec 5) (b : Src) (s : State) : exec (.vext p et d a b) s = execVext p et d a b s := rfl

theorem exec_vins (p : Option Pfx) (et : BitVec 3) (d : BitVec 5) (a : Src) (b : Src) (s : State) : exec (.vins p et d a b) s = execVins p et d a b s := rfl

theorem exec_viota (p : Option Pfx) (et : BitVec 3) (d : BitVec 5) (s : State) : exec (.viota p et d) s = execViota p et d s := rfl

theorem exec_vshuf (p : Option Pfx) (et : BitVec 3) (d : BitVec 5) (a : BitVec 5) (b : BitVec 5) (s : State) : exec (.vshuf p et d a b) s = execVshuf p et d a b s := rfl

theorem exec_vredsum (p : Option Pfx) (et : BitVec 3) (d : Dst) (a : BitVec 5) (s : State) : exec (.vredsum p et d a) s = execVredsum p et d a s := rfl

theorem exec_vredmax (p : Option Pfx) (et : BitVec 3) (d : Dst) (a : BitVec 5) (s : State) : exec (.vredmax p et d a) s = execVredmax p et d a s := rfl

theorem exec_vredmin (p : Option Pfx) (et : BitVec 3) (d : Dst) (a : BitVec 5) (s : State) : exec (.vredmin p et d a) s = execVredmin p et d a s := rfl

theorem exec_vtbl (p : Option Pfx) (et : BitVec 3) (d : BitVec 5) (a : BitVec 5) (kb : BitVec 3) (s : State) : exec (.vtbl p et d a kb) s = execVtbl p et d a kb s := rfl

theorem exec_vrng (p : Option Pfx) (et : BitVec 3) (d : BitVec 5) (s : State) : exec (.vrng p et d) s = execVrng p et d s := rfl

theorem exec_vrngn (p : Option Pfx) (et : BitVec 3) (d : BitVec 5) (s : State) : exec (.vrngn p et d) s = execVrngn p et d s := rfl

theorem exec_madd (p : Option Pfx) (cov : BitVec 3) (d : BitVec 4) (a : BitVec 4) (b : BitVec 4) (s : State) : exec (.madd p cov d a b) s = execMadd p cov d a b s := rfl

theorem exec_msub (p : Option Pfx) (cov : BitVec 3) (d : BitVec 4) (a : BitVec 4) (b : BitVec 4) (s : State) : exec (.msub p cov d a b) s = execMsub p cov d a b s := rfl

theorem exec_mmul (p : Option Pfx) (cov : BitVec 3) (d : BitVec 4) (a : BitVec 4) (b : BitVec 4) (s : State) : exec (.mmul p cov d a b) s = execMmul p cov d a b s := rfl

theorem exec_mscale (p : Option Pfx) (d : BitVec 4) (a : BitVec 4) (b : BitVec 5) (s : State) : exec (.mscale p d a b) s = execMscale p d a b s := rfl

theorem exec_mfma (p : Option Pfx) (cov : BitVec 3) (d : BitVec 4) (a : BitVec 4) (b : BitVec 5) (s : State) : exec (.mfma p cov d a b) s = execMfma p cov d a b s := rfl

theorem exec_mneg (p : Option Pfx) (d : BitVec 4) (a : BitVec 4) (s : State) : exec (.mneg p d a) s = execMneg p d a s := rfl

theorem exec_mrelu (p : Option Pfx) (d : BitVec 4) (a : BitVec 4) (s : State) : exec (.mrelu p d a) s = execMrelu p d a s := rfl

theorem exec_msig (p : Option Pfx) (d : BitVec 4) (a : BitVec 4) (s : State) : exec (.msig p d a) s = execMsig p d a s := rfl

theorem exec_mexp (p : Option Pfx) (d : BitVec 4) (a : BitVec 4) (s : State) : exec (.mexp p d a) s = execMexp p d a s := rfl

theorem exec_msqr (p : Option Pfx) (d : BitVec 4) (a : BitVec 4) (s : State) : exec (.msqr p d a) s = execMsqr p d a s := rfl

theorem exec_mset (p : Option Pfx) (d : BitVec 4) (a : BitVec 5) (b : BitVec 5) (s : State) : exec (.mset p d a b) s = execMset p d a b s := rfl

theorem exec_mmean (p : Option Pfx) (d : BitVec 5) (a : BitVec 4) (s : State) : exec (.mmean p d a) s = execMmean p d a s := rfl

theorem exec_mvar (p : Option Pfx) (d : BitVec 5) (a : BitVec 4) (s : State) : exec (.mvar p d a) s = execMvar p d a s := rfl

theorem exec_mcoll (p : Option Pfx) (mode : BitVec 3) (d : BitVec 5) (a : BitVec 4) (s : State) : exec (.mcoll p mode d a) s = execMcoll p mode d a s := rfl

theorem exec_mld (p : Option Pfx) (d : BitVec 4) (k : BitVec 3) (off : BitVec 5) (s : State) : exec (.mld p d k off) s = execMld p d k off s := rfl

theorem exec_mst (p : Option Pfx) (d : BitVec 4) (k : BitVec 3) (off : BitVec 5) (s : State) : exec (.mst p d k off) s = execMst p d k off s := rfl

theorem exec_mchk (p : Option Pfx) (d : Dst) (a : BitVec 4) (s : State) : exec (.mchk p d a) s = execMchk p d a s := rfl

theorem exec_zld (expand : Bool) (zd : BitVec 4) (ka : BitVec 3) (b : Src) (s : State) : exec (.zld expand zd ka b) s = execZld expand zd ka b s := rfl

theorem exec_zst (zd : BitVec 4) (ka : BitVec 3) (b : Src) (s : State) : exec (.zst zd ka b) s = execZst zd ka b s := rfl

theorem exec_zzero (zd : BitVec 4) (s : State) : exec (.zzero zd) s = execZzero zd s := rfl

theorem exec_zrel (zd : BitVec 4) (s : State) : exec (.zrel zd) s = execZrel zd s := rfl

theorem exec_zstate (d : Dst) (za : BitVec 4) (s : State) : exec (.zstate d za) s = execZstate d za s := rfl

theorem exec_zmov (zd : BitVec 4) (za : BitVec 4) (s : State) : exec (.zmov zd za) s = execZmov zd za s := rfl

theorem exec_wload (za : BitVec 4) (s : State) : exec (.wload za) s = execWload za s := rfl

theorem exec_wswap (s : State) : exec .wswap s = execWswap s := rfl

theorem exec_mma (yd : BitVec 3) (za : BitVec 4) (s : State) : exec (.mma yd za) s = execMma yd za s := rfl

theorem exec_mmam (yd : BitVec 3) (za : BitVec 4) (s : State) : exec (.mmam yd za) s = execMmam yd za s := rfl

theorem exec_yzero (mom : Bool) (yd : BitVec 3) (s : State) : exec (.yzero mom yd) s = execYzero mom yd s := rfl

theorem exec_ydrain (p : Option Pfx) (zero : Bool) (zd : BitVec 4) (ya : BitVec 3) (b : Src) (s : State) : exec (.ydrain p zero zd ya b) s = execYdrain p zero zd ya b s := rfl

theorem exec_ymov (yd : BitVec 3) (ya : BitVec 3) (s : State) : exec (.ymov yd ya) s = execYmov yd ya s := rfl

theorem exec_qfuse (a : Src) (s : State) : exec (.qfuse a) s = execQfuse a s := rfl

theorem exec_qsplit (a : Src) (s : State) : exec (.qsplit a) s = execQsplit a s := rfl

theorem exec_copy (k : BitVec 3) (ge : Bool) (sense : Bool) (g : BitVec 4) (s : State) : exec (.copy k ge sense g) s = execCopy k ge sense g s := rfl

theorem exec_xform (k : BitVec 3) (ge : Bool) (sense : Bool) (g : BitVec 4) (s : State) : exec (.xform k ge sense g) s = execXform k ge sense g s := rfl

theorem exec_coll (k : BitVec 3) (ge : Bool) (sense : Bool) (g : BitVec 4) (s : State) : exec (.coll k ge sense g) s = execColl k ge sense g s := rfl

theorem exec_trace (k : BitVec 3) (ge : Bool) (sense : Bool) (g : BitVec 4) (s : State) : exec (.trace k ge sense g) s = execTrace k ge sense g s := rfl

theorem exec_ewait (d : Dst) (ka : BitVec 3) (s : State) : exec (.ewait d ka) s = execEwait d ka s := rfl

theorem exec_estat (d : Dst) (ka : BitVec 3) (s : State) : exec (.estat d ka) s = execEstat d ka s := rfl

theorem exec_lnew (d : Dst) (a : Src) (s : State) : exec (.lnew d a) s = execLnew d a s := rfl

theorem exec_lfree (a : Src) (s : State) : exec (.lfree a) s = execLfree a s := rfl

theorem exec_lset (f : BitVec 5) (a : Src) (b : BitVec 5) (s : State) : exec (.lset f a b) s = execLset f a b s := rfl

theorem exec_lget (f : BitVec 5) (d : Dst) (a : Src) (s : State) : exec (.lget f d a) s = execLget f d a s := rfl

theorem exec_lest (d : Dst) (a : Src) (s : State) : exec (.lest d a) s = execLest d a s := rfl

theorem exec_lprice (a : Src) (b : Src) (s : State) : exec (.lprice a b) s = execLprice a b s := rfl

theorem exec_lreq (d : Dst) (s : State) : exec (.lreq d) s = execLreq d s := rfl

theorem exec_lreqS (d : Dst) (s : State) : exec (.lreqS d) s = execLreqS d s := rfl

theorem exec_lbegin (a : Src) (s : State) : exec (.lbegin a) s = execLbegin a s := rfl

theorem exec_ldone (a : Src) (s : State) : exec (.ldone a) s = execLdone a s := rfl

theorem exec_lsplit (a : Src) (b : Src) (s : State) : exec (.lsplit a b) s = execLsplit a b s := rfl

theorem exec_lmerge (a : Src) (b : Src) (s : State) : exec (.lmerge a b) s = execLmerge a b s := rfl

theorem exec_llight (a : Src) (b : Src) (s : State) : exec (.llight a b) s = execLlight a b s := rfl

theorem exec_compose (d : Dst) (s : State) : exec (.compose d) s = execCompose d s := rfl

theorem exec_slaunch (d : Dst) (ka : BitVec 3) (s : State) : exec (.slaunch d ka) s = execSlaunch d ka s := rfl

theorem exec_sresid (a : Src) (s : State) : exec (.sresid a) s = execSresid a s := rfl

theorem exec_sresidm (a : Src) (b : Src) (s : State) : exec (.sresidm a b) s = execSresidm a b s := rfl

theorem exec_sabort (s : State) : exec .sabort s = execSabort s := rfl

theorem exec_sstat (d : Dst) (ka : BitVec 3) (s : State) : exec (.sstat d ka) s = execSstat d ka s := rfl

theorem exec_addC (a : BitVec 4) (b : BitVec 4) (s : State) : exec (.addC a b) s = execAddC a b s := rfl

theorem exec_subC (a : BitVec 4) (b : BitVec 4) (s : State) : exec (.subC a b) s = execSubC a b s := rfl

theorem exec_andC (a : BitVec 4) (b : BitVec 4) (s : State) : exec (.andC a b) s = execAndC a b s := rfl

theorem exec_orC (a : BitVec 4) (b : BitVec 4) (s : State) : exec (.orC a b) s = execOrC a b s := rfl

theorem exec_xorC (a : BitVec 4) (b : BitVec 4) (s : State) : exec (.xorC a b) s = execXorC a b s := rfl

theorem exec_mulC (a : BitVec 4) (b : BitVec 4) (s : State) : exec (.mulC a b) s = execMulC a b s := rfl

theorem exec_sltC (a : BitVec 4) (b : BitVec 4) (s : State) : exec (.sltC a b) s = execSltC a b s := rfl

theorem exec_seqC (a : BitVec 4) (b : BitVec 4) (s : State) : exec (.seqC a b) s = execSeqC a b s := rfl

theorem exec_shliC (a : BitVec 4) (b : BitVec 4) (x : BitVec 2) (s : State) : exec (.shliC a b x) s = execShliC a b x s := rfl

theorem exec_shriC (a : BitVec 4) (b : BitVec 4) (x : BitVec 2) (s : State) : exec (.shriC a b x) s = execShriC a b x s := rfl

theorem exec_addiC (a : BitVec 4) (b : BitVec 4) (x : BitVec 2) (s : State) : exec (.addiC a b x) s = execAddiC a b x s := rfl

theorem exec_movCToNamed (b : BitVec 4) (a : BitVec 4) (s : State) : exec (.movCToNamed b a) s = execMovCToNamed b a s := rfl

theorem exec_movCFromNamed (b : BitVec 4) (s : State) : exec (.movCFromNamed b) s = execMovCFromNamed b s := rfl

theorem exec_liC (a : BitVec 4) (b : BitVec 4) (x : BitVec 2) (s : State) : exec (.liC a b x) s = execLiC a b x s := rfl

theorem exec_movCAge (a : BitVec 4) (s : State) : exec (.movCAge a) s = execMovCAge a s := rfl

theorem exec_nop (s : State) : exec .nop s = execNop s := rfl

theorem exec_jC (off : BitVec 10) (s : State) : exec (.jC off) s = execJC off s := rfl

theorem exec_bezC (off : BitVec 10) (s : State) : exec (.bezC off) s = execBezC off s := rfl

theorem exec_bnzC (off : BitVec 10) (s : State) : exec (.bnzC off) s = execBnzC off s := rfl

theorem exec_lexit (s : State) : exec .lexit s = execLexit s := rfl

theorem exec_doneC (s : State) : exec .doneC s = execDoneC s := rfl

theorem exec_chkptC (idx : BitVec 10) (s : State) : exec (.chkptC idx) s = execChkptC idx s := rfl

theorem exec_realignC (tag : BitVec 10) (s : State) : exec (.realignC tag) s = execRealignC tag s := rfl

theorem exec_retC (s : State) : exec .retC s = execRetC s := rfl

theorem exec_nclrC (n : BitVec 4) (s : State) : exec (.nclrC n) s = execNclrC n s := rfl

theorem exec_fenceCoreC (s : State) : exec .fenceCoreC s = execFenceCoreC s := rfl

theorem exec_mailboxWrite (core : Nat) (i1 : Nat) (v : U64) (s : State) : exec (.mailboxWrite core i1 v) s = execMailboxWrite core i1 v s := rfl

theorem exec_mbxpClear (core : Nat) (m : BitVec 8) (s : State) : exec (.mbxpClear core m) s = execMbxpClear core m s := rfl

theorem exec_heldMailboxWrite (core : Nat) (i1 : Nat) (s : State) : exec (.heldMailboxWrite core i1) s = execHeldMailboxWrite core i1 s := rfl

theorem exec_guardResolve (slot : Nat) (g : Nat) (s : State) : exec (.guardResolve slot g) s = execGuardResolve slot g s := rfl

theorem exec_homeAccess (id : Nat) (s : State) : exec (.homeAccess id) s = execHomeAccess id s := rfl

theorem exec_pageWalk (core : Nat) (tenant : Nat) (va : Nat) (s : State) : exec (.pageWalk core tenant va) s = execPageWalk core tenant va s := rfl

theorem exec_nwrHeldWrite (slot : Nat) (n : Nat) (s : State) : exec (.nwrHeldWrite slot n) s = execNwrHeldWrite slot n s := rfl

theorem exec_nwrWithdrawal (src : Nat) (s : State) : exec (.nwrWithdrawal src) s = execNwrWithdrawal src s := rfl

theorem exec_rstReturn (i1 : Nat) (s : State) : exec (.rstReturn i1) s = execRstReturn i1 s := rfl

theorem exec_amsgRun (core : Nat) (s : State) : exec (.amsgRun core) s = execAmsgRun core s := rfl

theorem exec_amsgTimeout (core : Nat) (s : State) : exec (.amsgTimeout core) s = execAmsgTimeout core s := rfl

theorem exec_holdClear (cluster : Nat) (s : State) : exec (.holdClear cluster) s = execHoldClear cluster s := rfl

theorem exec_holdTimeout (cluster : Nat) (s : State) : exec (.holdTimeout cluster) s = execHoldTimeout cluster s := rfl

theorem exec_dispatch (cluster : Nat) (s : State) : exec (.dispatch cluster) s = execDispatch cluster s := rfl

theorem exec_recordWalkHop (i1 : Nat) (s : State) : exec (.recordWalkHop i1) s = execRecordWalkHop i1 s := rfl

theorem exec_gangStart (cluster : Nat) (s : State) : exec (.gangStart cluster) s = execGangStart cluster s := rfl

theorem exec_launchiCountRead (cluster : Nat) (s : State) : exec (.launchiCountRead cluster) s = execLaunchiCountRead cluster s := rfl

theorem exec_recordRelease (i1 : Nat) (s : State) : exec (.recordRelease i1) s = execRecordRelease i1 s := rfl

theorem exec_groupCountStep (i1 : Nat) (s : State) : exec (.groupCountStep i1) s = execGroupCountStep i1 s := rfl

theorem exec_chargeExhausted (slot : Nat) (s : State) : exec (.chargeExhausted slot) s = execChargeExhausted slot s := rfl

theorem exec_budgetExhausted (slot : Nat) (s : State) : exec (.budgetExhausted slot) s = execBudgetExhausted slot s := rfl

theorem exec_graceExhausted (slot : Nat) (s : State) : exec (.graceExhausted slot) s = execGraceExhausted slot s := rfl

theorem exec_parkedWithdrawal (slot : Nat) (s : State) : exec (.parkedWithdrawal slot) s = execParkedWithdrawal slot s := rfl

theorem exec_realignTimeout (slot : Nat) (s : State) : exec (.realignTimeout slot) s = execRealignTimeout slot s := rfl

theorem exec_svcAnswer (slot : Nat) (v : U64) (s : State) : exec (.svcAnswer slot v) s = execSvcAnswer slot v s := rfl

theorem exec_preemptRequest (slot : Nat) (s : State) : exec (.preemptRequest slot) s = execPreemptRequest slot s := rfl

theorem exec_preemptTimeout (slot : Nat) (s : State) : exec (.preemptTimeout slot) s = execPreemptTimeout slot s := rfl

theorem exec_spillSave (slot : Nat) (s : State) : exec (.spillSave slot) s = execSpillSave slot s := rfl

theorem exec_granuleFill (i1 : Nat) (s : State) : exec (.granuleFill i1) s = execGranuleFill i1 s := rfl

theorem exec_zldComplete (quad : Nat) (z : Nat) (s : State) : exec (.zldComplete quad z) s = execZldComplete quad z s := rfl

theorem exec_tileDrainDone (quad : Nat) (z : Nat) (s : State) : exec (.tileDrainDone quad z) s = execTileDrainDone quad z s := rfl

theorem exec_wloadExecute (quad : Nat) (s : State) : exec (.wloadExecute quad) s = execWloadExecute quad s := rfl

theorem exec_wswapExecute (quad : Nat) (s : State) : exec (.wswapExecute quad) s = execWswapExecute quad s := rfl

theorem exec_mmaExecute (quad : Nat) (s : State) : exec (.mmaExecute quad) s = execMmaExecute quad s := rfl

theorem exec_mmamExecute (quad : Nat) (s : State) : exec (.mmamExecute quad) s = execMmamExecute quad s := rfl

theorem exec_yzeroExecute (quad : Nat) (s : State) : exec (.yzeroExecute quad) s = execYzeroExecute quad s := rfl

theorem exec_ydrainExecute (quad : Nat) (s : State) : exec (.ydrainExecute quad) s = execYdrainExecute quad s := rfl

theorem exec_ymovExecute (quad : Nat) (s : State) : exec (.ymovExecute quad) s = execYmovExecute quad s := rfl

theorem exec_tileStateDrain (quad : Nat) (s : State) : exec (.tileStateDrain quad) s = execTileStateDrain quad s := rfl

theorem exec_cardStart (engine : Nat) (cls : Nat) (s : State) : exec (.cardStart engine cls) s = execCardStart engine cls s := rfl

theorem exec_cardFinish (engine : Nat) (i1 : Nat) (s : State) : exec (.cardFinish engine i1) s = execCardFinish engine i1 s := rfl

theorem exec_collTimeout (engine : Nat) (i1 : Nat) (s : State) : exec (.collTimeout engine i1) s = execCollTimeout engine i1 s := rfl

theorem exec_codebookBankWrite (engine : Nat) (i1 : Nat) (s : State) : exec (.codebookBankWrite engine i1) s = execCodebookBankWrite engine i1 s := rfl

theorem exec_checkChargeExhausted (slot : Nat) (s : State) : exec (.checkChargeExhausted slot) s = execCheckChargeExhausted slot s := rfl

theorem exec_enqueueWindowSpawn (cluster : Nat) (tenant : Nat) (addr : U64) (s : State) : exec (.enqueueWindowSpawn cluster tenant addr) s = execEnqueueWindowSpawn cluster tenant addr s := rfl

theorem exec_enqueueWindowSubmit (cluster : Nat) (tenant : Nat) (addr : U64) (s : State) : exec (.enqueueWindowSubmit cluster tenant addr) s = execEnqueueWindowSubmit cluster tenant addr s := rfl

theorem exec_enqueueWindowSpawnResult (cluster : Nat) (tenant : Nat) (s : State) : exec (.enqueueWindowSpawnResult cluster tenant) s = execEnqueueWindowSpawnResult cluster tenant s := rfl

theorem exec_enqueueWindowSubmitResult (cluster : Nat) (tenant : Nat) (s : State) : exec (.enqueueWindowSubmitResult cluster tenant) s = execEnqueueWindowSubmitResult cluster tenant s := rfl

theorem exec_partitionStart (part : Nat) (tenant : Nat) (code : BitVec 128) (frame : BitVec 128) (deadline : U64) (budget : BitVec 32) (recAddr : BitVec 52) (group : U64) (s : State) : exec (.partitionStart part tenant code frame deadline budget recAddr group) s = execPartitionStart part tenant code frame deadline budget recAddr group s := rfl

theorem exec_boot (ecdsaOk : Bool) (lmsOk : Bool) (version : U64) (s : State) : exec (.boot ecdsaOk lmsOk version) s = execBoot ecdsaOk lmsOk version s := rfl

theorem exec_linkTrain (link : Nat) (err : BitVec 4) (s : State) : exec (.linkTrain link err) s = execLinkTrain link err s := rfl

theorem exec_tenantSwitch (core : Nat) (toTenant : Nat) (s : State) : exec (.tenantSwitch core toTenant) s = execTenantSwitch core toTenant s := rfl

theorem exec_flitArbitration (link : Nat) (s : State) : exec (.flitArbitration link) s = execFlitArbitration link s := rfl

theorem exec_creditReturn (link : Nat) (cls : Nat) (resp : Bool) (s : State) : exec (.creditReturn link cls resp) s = execCreditReturn link cls resp s := rfl

theorem exec_hostModuleFailure (module : Nat) (s : State) : exec (.hostModuleFailure module) s = execHostModuleFailure module s := rfl

theorem exec_fabricPortFailure (port : Nat) (s : State) : exec (.fabricPortFailure port) s = execFabricPortFailure port s := rfl

theorem exec_serviceCoreRestart (die : Nat) (s : State) : exec (.serviceCoreRestart die) s = execServiceCoreRestart die s := rfl

theorem exec_attestationRequest (nonce : BitVec 256) (s : State) : exec (.attestationRequest nonce) s = execAttestationRequest nonce s := rfl

theorem exec_patrolScrub (line : Nat) (s : State) : exec (.patrolScrub line) s = execPatrolScrub line s := rfl

theorem exec_correctedError (die : Nat) (addr : U64) (s : State) : exec (.correctedError die addr) s = execCorrectedError die addr s := rfl

theorem exec_uncorrectableError (line : Nat) (s : State) : exec (.uncorrectableError line) s = execUncorrectableError line s := rfl

theorem exec_partitionReset (part : Nat) (words : List (Nat × BitVec 64)) (s : State) : exec (.partitionReset part words) s = execPartitionReset part words s := rfl

theorem exec_flitRetry (link : Nat) (s : State) : exec (.flitRetry link) s = execFlitRetry link s := rfl

end Sys2Proof.Machine
end

