-- ==== Sys2Proof/Laws/Mem.lean ====
section
/-!
SUPPORT. Laws of accesses: what the checks of R114 answer, what finding an access's place leaves as it was, and that
nothing is forced, filled or poisoned for a calm slot.
-/

namespace Sys2Proof.Machine

/-- `t` is `s` but for translation caches and the counter of free choices: what finding a place may change (R166). -/
def State.sameButTlb (s t : State) : Prop :=
  ∃ cs n, t = { s with cores := cs, tick := n } ∧ ∀ c, t.core c = { s.core c with tlb := (t.core c).tlb }

theorem State.sameButTlb_refl (s : State) : s.sameButTlb s := ⟨s.cores, s.tick, rfl, fun _ => rfl⟩

theorem State.core_of_cores {s t : State} {c : Nat} {f : Core → Core} (h : t.cores = (s.modCore c f).cores)
    (hf : ∀ x, f x = { x with tlb := (f x).tlb }) (d : Nat) : t.core d = { s.core d with tlb := (t.core d).tlb } := by
  have e : t.core d = (s.modCore c f).core d := by rw [State.core, h]; rfl
  rw [e, State.core_modCore]
  split
  next hd => subst hd; exact hf _
  next => rfl

theorem State.cacheLeaf_same (s : State) (c p t va lvl : Nat) (pte : U64) : s.sameButTlb (s.cacheLeaf c p t va lvl pte) := by
  unfold State.cacheLeaf
  dsimp only
  split
  · refine ⟨_, s.tick, rfl, State.core_of_cores (c := c) (f := fun x => { x with tlb := x.tlb ++ [_] }) rfl fun _ => rfl⟩
  · refine ⟨_, s.tick + 1, rfl,
      State.core_of_cores (c := c) (f := fun x => { x with tlb := x.tlb.eraseIdx _ ++ [_] }) rfl fun _ => rfl⟩

theorem State.translate_same (s : State) (cached : Option Nat) (p t va : Nat) : s.sameButTlb (s.translate cached p t va).2 := by
  unfold State.translate
  split
  · exact s.sameButTlb_refl
  · split
    · exact s.sameButTlb_refl
    · split
      · exact s.cacheLeaf_same _ _ _ _ _ _
      · exact s.sameButTlb_refl

theorem require_ok {ok : Bool} {c : Cause} {v : U64} {s t : State} {u : Unit} (h : require ok c v s = .ok (u, t)) :
    ok = true ∧ t = s := by
  cases ok
  · cases h
  · cases h; exact ⟨rfl, rfl⟩

/-- The checks of R114 leave the state as it is, and succeed only when each is met. -/
theorem checkCap_ok {k : Cap} {v : Int} {n a : Nat} {nd : Need} {s t : State} (h : checkCap k v n nd s = .ok (a, t)) :
    t = s ∧ a = v.toNat ∧ k.tag = true ∧ k.space ≤ 6 ∧ k.space ∈ nd.spaces ∧ nd.perm.all k.has = true ∧
      (k.base : Int) ≤ v ∧ v + n ≤ k.top ∧ v.toNat % nd.align = 0 := by
  unfold checkCap at h
  simp only [Exec.bind_apply, require_apply] at h
  cases h1 : k.tag with
  | false => simp [h1] at h
  | true =>
    cases h2 : decide (k.space ≤ 6) && nd.spaces.contains k.space with
    | false =>
      simp only [h1, h2, Bool.not_false, if_true] at h
      split at h <;> simp at h
    | true =>
      cases h3 : nd.perm.all k.has with
      | false =>
        simp only [h1, h2, h3, if_true, Bool.not_true, Bool.false_eq_true, if_false, Exec.bind_apply, require_false, reduceCtorEq] at h
      | true =>
        cases h4 : decide ((k.base : Int) ≤ v) && decide (v + n ≤ k.top) with
        | false =>
          simp only [h1, h2, h3, h4, if_true, Bool.not_true, Bool.false_eq_true, if_false, Exec.bind_apply, require_true, require_false, reduceCtorEq] at h
        | true =>
          cases h5 : decide (v.toNat % nd.align = 0) with
          | false =>
            simp only [h1, h2, h3, h4, h5, if_true, Bool.not_true, Bool.false_eq_true, if_false, Exec.bind_apply, require_true, require_false, reduceCtorEq] at h
          | true =>
            simp only [h1, h2, h3, h4, h5, if_true, Bool.not_true, Bool.false_eq_true, if_false, Exec.bind_apply,
              Exec.pure_apply, require_true] at h
            cases h
            simp only [Bool.and_eq_true, decide_eq_true_eq, List.contains_eq_mem] at h2 h4 h5
            exact ⟨rfl, rfl, rfl, h2.1, h2.2, rfl, h4.1, h4.2, h5⟩

/-- Finding the place of an access changes translation caches only. -/
theorem locate_same {w : Who} {space v n : Nat} {bits : List Nat} {s t : State} {p : Place}
    (h : locate w space v n bits s = .ok (p, t)) : s.sameButTlb t := by
  have fin : ∀ {c : Bool} {cs : Cause} {tv : U64} {q : Place}, (require c cs tv >>= fun _ => pure q : Exec Place) s = .ok (p, t) →
      s.sameButTlb t := by
    intro c cs tv q h
    cases c
    · cases h
    · cases h; exact s.sameButTlb_refl
  rcases space with _ | _ | _ | _ | _ | _ | space
  · simp only [locate, Exec.bind_apply, Exec.get_apply] at h
    cases ha : s.alias? w.part v with
    | some q =>
      obtain ⟨q1, q2⟩ := q
      rw [ha] at h
      rcases q1 with _ | _ | q1 <;> exact fin h
    | none =>
      rw [ha] at h
      have ht := State.translate_same s (if w.cached then some w.core else none) w.part w.tenant v
      dsimp only at h
      generalize s.translate (if w.cached then some w.core else none) w.part w.tenant v = q at h ht
      obtain ⟨q1, q2⟩ := q
      cases q1 with
      | fault => cases h
      | poisoned => cases h
      | leaf pa pte lvl =>
        simp only [Exec.bind_apply, Exec.set_apply] at h
        cases hb : (bits.all fun b => bitAt pte b) with
        | false => rw [hb] at h; cases h
        | true => rw [hb] at h; cases h; exact ht
  · exact fin h
  · exact fin h
  · exact fin h
  · exact fin h
  · exact fin h
  · simp only [locate, Exec.bind_apply, Exec.get_apply] at h
    cases hd : devRegion v with
    | none => rw [hd] at h; cases h
    | some r =>
      rw [hd] at h
      simp only [Exec.bind_apply] at h
      cases hr : State.ownsRegion s w.part r with
      | false => rw [hr] at h; cases h
      | true =>
        rw [hr] at h
        exact fin ((Exec.bind_apply _ _ _).trans h)

/-- As `locate_same`, for the place of an access with its checks. -/
theorem place_same {k : Cap} {v : Int} {n : Nat} {nd : Need} {bits : List Nat} {s t : State} {p : Place}
    (h : place k v n nd bits s = .ok (p, t)) : s.sameButTlb t := by
  unfold place at h
  simp only [Exec.bind_apply, Exec.get_apply] at h
  cases hc : checkCap k v n nd s with
  | error e => rw [hc] at h; cases h
  | ok r =>
    obtain ⟨a, u⟩ := r
    rw [hc] at h
    obtain ⟨rfl, -⟩ := checkCap_ok hc
    exact locate_same h

/-! ## Calm slots -/

variable {s t : State}

theorem State.sameButTlb.slots (h : s.sameButTlb t) : t.slots = s.slots := by
  obtain ⟨cs, n, rfl, -⟩ := h; rfl

theorem State.sameButTlb.slot (h : s.sameButTlb t) (g : Nat) : t.slot g = s.slot g := by
  obtain ⟨cs, n, rfl, -⟩ := h; rfl

theorem State.sameButTlb.cur (h : s.sameButTlb t) : t.cur = s.cur := by
  obtain ⟨cs, n, rfl, -⟩ := h; rfl

theorem State.sameButTlb.flight (h : s.sameButTlb t) : t.flight = s.flight := by
  obtain ⟨cs, n, rfl, -⟩ := h; rfl

theorem State.sameButTlb.mem (h : s.sameButTlb t) : t.mem = s.mem := by
  obtain ⟨cs, n, rfl, -⟩ := h; rfl

theorem State.sameButTlb.bytes (h : s.sameButTlb t) (k n : Nat) : t.bytes k n = s.bytes k n := by
  obtain ⟨cs, i, rfl, -⟩ := h; rfl

theorem State.sameButTlb.calm (h : s.sameButTlb t) (hc : s.calm) : t.calm := by
  obtain ⟨cs, n, rfl, hk⟩ := h
  obtain ⟨h1, h2, h3, h4, h5, h6, h7⟩ := hc
  refine ⟨h1, h2, h3, h4, h5, h6, fun x => ⟨(h7 x).1, (h7 x).2.1, fun id => ?_⟩⟩
  have := (h7 x).2.2 id
  unfold State.messageTo at this ⊢
  dsimp only at this ⊢
  rw [hk]
  exact this

theorem State.noteIssue_messageTo (s : State) (g h id : Nat) : s.noteIssue.messageTo g h id = s.messageTo g h id := by
  simp [State.messageTo]

theorem State.noteIssue_threadFree (s : State) (c h : Nat) (rst : Bool) : s.noteIssue.threadFree c h rst = s.threadFree c h rst := by
  unfold State.threadFree
  rw [State.noteIssue_slot_live]

theorem State.noteIssue_walkFrom (s : State) (va n tab : Nat) : s.noteIssue.walkFrom va n tab = s.walkFrom va n tab := by
  induction n generalizing tab with
  | zero => rfl
  | succ n ih =>
    have ih' : s.noteIssue.walkFrom va n = s.walkFrom va n := funext ih
    unfold State.walkFrom
    rw [ih']
    rfl

@[simp] theorem State.noteIssue_walk (s : State) (p t va : Nat) : s.noteIssue.walk p t va = s.walk p t va := by
  simp only [State.walk, State.noteIssue_partFld, State.noteIssue_walkFrom]

@[simp] theorem State.noteIssue_hwFind (s : State) (p t va : Nat) (bits : List Nat) : s.noteIssue.hwFind p t va bits = s.hwFind p t va bits := by
  unfold State.hwFind
  rw [State.noteIssue_alias, State.noteIssue_walk]
  rfl

@[simp] theorem State.noteIssue_hwPlace (s : State) (p t va : Nat) (bits : List Nat) : s.noteIssue.hwPlace p t va bits = s.hwPlace p t va bits := by
  unfold State.hwPlace
  rw [State.noteIssue_hwFind]
  rfl

theorem State.noteIssue_homeHeld (s : State) (h : Nat) : s.noteIssue.homeHeld h = s.homeHeld h := by
  simp only [State.homeHeld, State.releaseBlocked, State.noteIssue_hwPlace, State.noteIssue_releases]
  rfl

theorem State.calm_noteIssue (h : s.calm) : s.noteIssue.calm := by
  obtain ⟨h1, h2, h3, h4, h5, h6, h7⟩ := h
  refine ⟨h1, ?_, ?_, ?_, h5, h6, fun x => ⟨(State.noteIssue_homeHeld s x).trans (h7 x).1, ?_, fun id => ?_⟩⟩
  · simpa using h2
  · simpa using h3
  · simpa using h4
  · exact (State.noteIssue_threadFree s _ x false).trans (h7 x).2.1
  · exact (State.noteIssue_messageTo s _ x id).trans ((h7 x).2.2 id)

theorem State.upToLast_nil {g : Nat} (f : Access → Bool) (h : ∀ a ∈ s.flight, a.slot ≠ g) : s.upToLast g f = [] := by
  have : s.flight.filter (fun a => a.slot == g) = [] := by
    rw [List.filter_eq_nil_iff]
    intro a ha
    simpa using h a ha
  simp [State.upToLast, this]

/-- A calm slot has nothing to force. -/
theorem force_calm (f : Access → Bool) (h : s.calm) : force f s = .ok ((), s) := by
  simp [force, State.upToLast_nil f h.1, State.performAll]

theorem forceHome_calm (i : Nat) (h : s.calm) : forceHome i s = .ok ((), s) := by
  simp [forceHome, (h.2.2.2.2.2.2 i).2.2 _, force_calm _ h]

theorem homeReady_calm (i : Nat) (h : s.calm) : homeReady i s = .ok ((), s) := by
  simp [homeReady, (h.2.2.2.2.2.2 i).1, (h.2.2.2.2.2.2 i).2.1]

theorem relHolds_calm (h : s.calm) : relHolds s = .ok ([], s) := by
  simp [relHolds, h.2.1]

theorem releaseWait_calm (h : s.calm) : releaseWait s = .ok ((), s) := by
  simp [releaseWait, relHolds_calm h, force_calm _ h]

theorem notLatent_calm (h : s.calm) : notLatent s = .ok ((), s) := by
  simp [notLatent_apply, h.2.2.2.1]

theorem State.cardsAt_calm (h : s.calm) (p : Place) (n : Nat) (w : Bool) : s.cardsAt s.cur p n w = [] := by
  unfold State.cardsAt
  split
  · rfl
  · rw [h.2.2.1]; rfl

theorem beforeRead_calm (h : s.calm) (p : Place) (n : Nat) : beforeRead p n s = .ok ((), s) := by
  simp [beforeRead, State.cardsAt_calm h, forceHome_calm _ h, homeReady_calm _ h]

theorem State.poisonIn_nil (h : s.poison = []) (k n : Nat) : s.poisonIn k n = none := by
  simp [State.poisonIn, h]

theorem State.poisonSeen_nil (h : s.poison = []) (x : Option Nat) (k n : Nat) : s.poisonSeen x k n = none := by
  simp [State.poisonSeen, State.poisonIn_nil h]

theorem State.fillFor_nil (h : s.absent = []) (k n : Nat) : s.fillFor k n = s := by
  simp [State.fillFor, h]

theorem State.fillWaits_nil (h : s.absent = []) (k n : Nat) : s.fillWaits k n = false := by
  simp [State.fillWaits, h]

theorem State.viewOver_calm (h : s.calm) (k n v : Nat) : s.viewOver (s.slot s.cur) k n v = v := by
  simp [State.viewOver, State.tileOf, h.2.2.2.1]

theorem State.view_calm (h : s.calm) (k n : Nat) : s.view (s.slot s.cur) k n = s.bytes k n := by
  simp [State.view, State.viewByte, State.tileOf, h.2.2.2.1, State.bytes]

/-- What a calm slot reads is the bytes of memory. -/
theorem readBytes_calm (h : s.calm) (k n : Nat) : readBytes k n s = .ok (s.bytes k n, s) := by
  simp [readBytes, State.fillWaits_nil h.2.2.2.2.1, State.fillFor_nil h.2.2.2.2.1, State.poisonSeen_nil h.2.2.2.2.2.1, State.view_calm h]

theorem readPlace_calm (h : s.calm) (k : Nat) (c : Bool) (va : Option Nat) (n : Nat) :
    readPlace (.mem k c va) n s = .ok (ofBytes (s.bytes k n), s) := by
  simp [readPlace, beforeRead_calm h, readBytes_calm h]

theorem readPlace_device (h : s.calm) (off n : Nat) : readPlace (.device off) n s = .ok (s.deviceRead off n, s) := by
  simp [readPlace, beforeRead_calm h, State.viewOver_calm h]

/-- A calm slot's load of memory, where its checks and its place succeed (R114, R145, R147). -/
theorem loadAny_calm {k : Cap} {v : Int} {n key : Nat} {nd : Need} {bits : List Nat} {c : Bool} {va : Option Nat} (h : s.calm)
    (hp : place k v n nd bits s = .ok (.mem key c va, t)) : loadAny k v n nd bits s = .ok (ofBytes (s.bytes key n), t) := by
  have hs := place_same hp
  simp [loadAny, hp, readPlace_calm (hs.calm h), hs.bytes]

end Sys2Proof.Machine
end

