-- ==== Sys2Proof/Laws/Quiet.lean ====
section
/-!
SUPPORT. When nothing stands in the way of an access: what can be read off a state's lists.
-/

namespace Sys2Proof.Machine

/-- What a sparse map answers is its default or stands in it. -/
theorem SMap.get_mem {α : Type} (d : α) (m : SMap α) (k : Nat) : m.get d k = d ∨ (k, m.get d k) ∈ m := by
  induction m with
  | nil => exact .inl rfl
  | cons e t ih =>
    obtain ⟨j, v⟩ := e
    by_cases h : j = k
    · subst h; simp [SMap.get]
    · simp only [SMap.get, if_neg h, List.mem_cons]; exact ih.imp_right .inr

/-- A state is calm when nothing of the slot is on its way, no message thread runs, and no record waits to be queued. -/
theorem State.calm_of_quiet (s : State)
    (h : (∀ a ∈ s.flight, a.slot ≠ s.cur) ∧ (s.slot s.cur).relHold = [] ∧ s.cardsOf s.cur = [] ∧ (s.slot s.cur).tile? = none ∧
      s.absent = [] ∧ s.poison = [] ∧ s.releases = [] ∧ s.amsgs = [] ∧ (∀ c ∈ s.cores, c.2.amsgs = []) ∧
      ∀ x ∈ s.slots, slotNo x.1 = 11 → x.2.live = false) : s.calm := by
  obtain ⟨hf, hr, hc, ht, ha, hp, hq, hm, hk, hs⟩ := h
  have hl : ∀ n, (s.slot (12 * n + 11)).live = false := fun n => by
    rcases SMap.get_mem ({} : Slot) s.slots (12 * n + 11) with e | e
    · rw [State.slot, e]
    · exact hs _ e (by simp [slotNo])
  have hn : ∀ n, (s.core n).amsgs = [] := fun n => by
    rcases SMap.get_mem ({} : Core) s.cores n with e | e
    · rw [State.core, e]
    · exact hk _ e
  exact ⟨hf, hr, hc, ht, ha, hp, fun h => ⟨by simp [State.homeHeld, hq], by simp [State.threadFree, hl],
    fun id => by simp [State.messageTo, hm, hn, hl]⟩⟩

/-- Where no message thread runs, no record waits to be queued and no granule is absent, a step may be performed at any home. -/
theorem State.stepAt_of_quiet (s : State) (h : s.releases = [] ∧ s.absent = [] ∧ ∀ x ∈ s.slots, slotNo x.1 = 11 → x.2.live = false)
    (c key n : Nat) : s.stepAt c key n = true := by
  obtain ⟨hq, ha, hs⟩ := h
  have hl : ∀ m, (s.slot (12 * m + 11)).live = false := fun m => by
    rcases SMap.get_mem ({} : Slot) s.slots (12 * m + 11) with e | e
    · rw [State.slot, e]
    · exact hs _ e (by simp [slotNo])
  simp [State.stepAt, State.homeHeld, hq, State.threadFree, hl, State.fillWaits, ha]

end Sys2Proof.Machine
end

