-- ==== Sys2Proof/Tests/Slice0.lean ====
section
/-!
SUPPORT. Small tests of the model, and a witness for every statement that has hypotheses: a concrete state and operands
that meet them all, one for each clause. The expected results are worked out from the rules of the manual.
-/

open Sys2Proof Sys2Proof.Machine

namespace Sys2Proof.Tests

-- The tests are checked one after another, so that the threads of many small proofs do not add up.
set_option Elab.async false

/-! ## Small states -/

/-- Whether `m` ends well from `s` with a value and a state that satisfy `p`. -/
def okIs {α : Type} (m : Exec α) (s : State) (p : α → State → Bool) : Bool :=
  match m s with
  | .ok (a, t) => p a t
  | .error _ => false

/-- The state in which `m` ends well from `s`. -/
def after {α : Type} (m : Exec α) (s : State) : State :=
  match m s with
  | .ok (_, t) => t
  | .error _ => s

/-- The place that `p` describes is byte `key` of memory. -/
def isMem (key : Nat) : Place → Bool
  | .mem k _ _ => k == key
  | _ => false

/-- Partition 0 owns the package, with scratchpads of 64 KiB and windows at 2^40 and 2^41, and runs. -/
def base : State :=
  [(0x800, 0x1000), (0x801, 2 ^ 64 - 1), (0x802, 2 ^ 64 - 1), (0x803, 2 ^ 64 - 1), (0x804, 2 ^ 64 - 1), (0x805, 2 ^ 64 - 1),
   (0x808, 2 ^ 40), (0x809, 2 ^ 41), (0x80A, 2 ^ 40 + 0x8000), (0x80B, 0x4000), (0x80C, 1026), (0x80D, 60 * 2 ^ 40 + 1000 * 2 ^ 16),
   (0x80F, 6), (0x810, 2 ^ 41 + 0x100000), (0x812, 2 ^ 61 + 0xC000), (0x813, 4), (0x814, 1), (0x840, 0x100004)].foldl
      (fun s w => s.setPartReg 0 w.1 (BitVec.ofNat 64 w.2))
    { parts := [(0, { running := true })], now := 100, fw := { booted := true }
      mem := [(0x100000, 1), (0x100002, 0x11), (0x110000, 0x3F), (0x110003, 0x40), (0x110008, 0x1F), (0x11000B, 0x80)] }

/-- The capability of space `sp` with permissions 0 to 5 at `a`, of `n` bytes. -/
def cap (sp a n : Nat) : Cap := (capFor sp 0x3F a a (a + n)).getD Cap.null

/-- The code capability of the tests. -/
def code : Cap := (capFor 0 5 (2 ^ 40 + 0x1000) (2 ^ 40) (2 ^ 40 + 0x8000)).getD Cap.null

/-- A live slot with named registers n1, n2 and n4 to n7 present. -/
def slot : Slot :=
  { live := true, pcc := code, rq := (List.range 16).map fun i => BitVec.ofNat 64 (77 * i + 3), pres := 0xF6#16
    n := [(1, 9#64), (2, BitVec.ofInt 64 (-7)), (4, 0xABCD#64), (5, 2#64), (6, 3#64), (7, 64#64)], lastIssue := some 90 }

/-- Slot `x` in global slot `g`, the current one. -/
def put (g : Nat) (x : Slot) (s : State := base) : State := { s.setSlot g x with cur := g }

/-- `slot` changed by `f`, in global slot `g`. -/
def at' (g : Nat) (f : Slot → Slot := id) : State := put g (f slot)

/-! ## Ill-formed instructions are refused, one for each check of R50, R42, R39, R40 and R276 -/

theorem test_wf_shift : (Instr.shli .queue (.age 0#4) 64#11).wf = false ∧ (Instr.shli .queue (.age 0#4) 63#11).wf = true := by decide
theorem test_wf_shri : (Instr.shri .queue (.age 0#4) 64#11).wf = false := by decide
theorem test_wf_srai : (Instr.srai .queue (.age 0#4) 64#11).wf = false := by decide
theorem test_wf_nwr_slot : (Instr.nwr 0#2 0#4 (.age 0#4) 12#5).wf = false ∧ (Instr.nwr 0#2 0#4 (.age 0#4) 11#5).wf = true := by decide
theorem test_wf_sysreg : (Instr.mfs .queue 0x004#12).wf = false ∧ (Instr.mts 0x7FF#12 (.age 0#4)).wf = false ∧
    (Instr.mtsi 0x846#12 0#3 0#5).wf = false ∧ (Instr.mfs .queue 0x845#12).wf = true := by decide
theorem test_wf_loop : (Instr.loop (.age 0#4) 1#18).wf = false ∧ (Instr.loopm 0#3 1#18).wf = false ∧ (Instr.loopi 0#10 1#14).wf = false ∧
    (Instr.loop (.age 0#4) 2#18).wf = true := by decide
theorem test_wf_fence : (Instr.fence 3#3 0#3).wf = false ∧ (Instr.fence 0#3 6#3).wf = false ∧ (Instr.fence 2#3 5#3).wf = true := by decide
theorem test_wf_scope : (Instr.rclaim 6#3 .queue 0#3 (.age 0#4)).wf = false ∧ (Instr.bwait 7#3 0#3 (.age 0#4)).wf = false ∧
    (Instr.rretire 6#3 0#3 (.age 0#4) (.age 0#4)).wf = false ∧ (Instr.barrive 6#3 .queue 0#3 (.age 0#4)).wf = false := by decide
theorem test_wf_rinit : (Instr.rinit 0#3 0#3 25#5).wf = false ∧ (Instr.rinit 0#3 0#3 24#5).wf = true := by decide
theorem test_wf_element_type : (Instr.vadd none 4#3 0#5 0#5 0#5).wf = false ∧ (Instr.vfadd none 3#3 0#5 0#5 0#5).wf = false ∧
    (Instr.vfexp2 none 7#3 0#5 0#5).wf = false ∧ (Instr.vcmp none 1#3 0#2 0#3 0#5 0#5).wf = false ∧
    (Instr.vfcmp none 5#3 0#2 0#3 0#5 0#5).wf = false ∧ (Instr.vgth none 1#3 0#5 0#3 0#5).wf = false ∧
    (Instr.vtbl none 5#3 0#5 0#5 0#3).wf = false ∧ (Instr.vrngn none 7#3 0#5).wf = false := by decide
/-- A prefix of which no field is set. -/
def noPfx : Pfx := { ovt := 0#3, ove := false, cov := 0#2, f4e := false, f4 := 0#5, sat := false, rnd := 0#3, zero := false, me := false, vm := 0#3 }
theorem test_wf_prefix_fields : (Instr.vadd (some { noPfx with rnd := 1#3 }) 0#3 0#5 0#5 0#5).wf = false ∧
    (Instr.vfadd (some { noPfx with rnd := 7#3 }) 6#3 0#5 0#5 0#5).wf = false ∧
    (Instr.vand (some { noPfx with f4e := true }) 0#3 0#5 0#5 0#5).wf = false ∧
    (Instr.vfadd (some { noPfx with cov := 1#2 }) 6#3 0#5 0#5 0#5).wf = false ∧
    (Instr.vfadd (some { noPfx with ove := true }) 6#3 0#5 0#5 0#5).wf = false ∧
    (Instr.vmand (some { noPfx with sat := true }) 0#3 0#3 0#3).wf = false ∧
    (Instr.vfadd (some { noPfx with zero := true }) 6#3 0#5 0#5 0#5).wf = false ∧
    (Instr.vfadd (some { noPfx with rnd := 5#3, sat := true, me := true, zero := true }) 6#3 0#5 0#5 0#5).wf = true := by decide
theorem test_wf_mask : (Instr.vqbfp (some { noPfx with me := true }) 6#3 0#5 0#5 1#3).wf = false ∧
    (Instr.ydrain (some { noPfx with vm := 1#3 }) false 0#4 0#3 (.age 0#4)).wf = false := by decide
theorem test_wf_covariance : (Instr.madd none 5#3 0#4 0#4 0#4).wf = false ∧
    (Instr.madd (some { noPfx with cov := 1#2 }) 1#3 0#4 0#4 0#4).wf = false ∧
    (Instr.madd (some { noPfx with cov := 1#2 }) 4#3 0#4 0#4 0#4).wf = false ∧
    (Instr.mfma (some { noPfx with f4e := true, f4 := 16#5 }) 0#3 0#4 0#4 0#5).wf = false := by decide
theorem test_wf_convert : (Instr.vcvt none 3#3 0#5 0#5 0#3 0#2).wf = false ∧ (Instr.vcvt none 1#3 0#5 0#5 0#3 2#2).wf = false ∧
    (Instr.vcvt none 1#3 0#5 0#5 0#3 1#2).wf = true := by decide
theorem test_wf_override : (Instr.vld (some { noPfx with ove := true, ovt := 4#3 }) 0#3 0#5 0#3 0#5).wf = false ∧
    (Instr.vld (some { noPfx with ove := true, ovt := 3#3 }) 0#3 0#5 0#3 0#5).wf = true := by decide
theorem test_wf_other : (Instr.vqbfp none 6#3 0#5 0#5 0#3).wf = false ∧ (Instr.mcoll none 5#3 0#5 0#4).wf = false ∧
    (Instr.copy 0#3 false true 0#4).wf = false ∧ (Instr.copy 0#3 false false 1#4).wf = false ∧ (Instr.lset 3#5 (.age 0#4) 8#5).wf = false ∧
    (Instr.homeAccess 0).wf = false := by decide

/-! ## Witnesses: integers, moves and named registers -/

theorem witness_IntegerResults : (at' 5).reads (.nam 2#4) = some (BitVec.ofInt 64 (-7)) ∧ (at' 5).reads (.age 3#4) = some 234#64 := by
  decide +kernel
theorem witness_IntegerResults_extension : (at' 5).reads (.nam 7#4) = some 64#64 ∧ (at' 5).reads (.nam 6#4) = some 3#64 ∧
    (64#64).toNat % 64 = 64 % 64 ∧ (3#64).toNat % 64 = 3 % 64 := by decide +kernel
theorem witness_DivisionNeverTraps : (at' 5).reads (.nam 2#4) = some (BitVec.ofInt 64 (-7)) ∧ (at' 5).reads (.age 0#4) = some 3#64 ∧
    (at' 5 fun x => { x with n := [(1, 0#64)] }).reads (.nam 1#4) = some 0#64 := by decide +kernel
theorem witness_ImmediateResults : (at' 5).reads (.nam 2#4) = some (BitVec.ofInt 64 (-7)) ∧ (63#11).toNat ≤ 63 ∧ 63 < (64#11).toNat := by
  decide +kernel
theorem witness_CompactResults : (at' 5).reads (.age 15#4) = some 1158#64 ∧ (at' 5).reads (.age 0#4) = some 3#64 := by decide +kernel
theorem witness_MovesAndPresence : (at' 5).reads (.nam 1#4) = some 9#64 ∧ (at' 5).reads (.age 2#4) = some 157#64 ∧
    (at' 5).reads (.nam 5#4) = some 2#64 := by decide +kernel
theorem witness_MovesAndPresence_clear : ((at' 5).slot (at' 5).cur).pres.getLsbD (3#4).toNat = false := by decide +kernel

/-- As `at' 5`, and its borrowed helper, slot 7. -/
def lender : State := put 5 { slot with borrow := some 7 } (put 7 { borrowed := true, n := [(3, 77#64)] })
/-- Slot 5 lives, and no helper of its core is free. -/
def crowd : State := put 5 slot ((List.range 11).foldl (fun s i => s.setSlot i { live := true }) base)
/-- The entry of a queue, with value `v` and tenant `t`. -/
def entryOf (v t : Nat) (hs : List Nat := []) : QEntry := { v := BitVec.ofNat 64 v, tenant := t, holds := hs }
/-- Slot 5, and `es` in queue 1 of its core. -/
def queued (es : List QEntry) : State := (at' 5).modCore 0 fun c => { c with queues := [(1, es)] }
/-- An access of slot `g` with number `id`. -/
def accessOf (id g home : Nat) (ws : List (Nat × Byte)) (hs : List Nat := []) : Access :=
  { id := id, slot := g, tid := 0, instr := id, kind := .store, home := home, writes := ws, holds := hs }

theorem witness_GeneratorAndCycle : (at' 5).reads (.nam 1#4) = some 9#64 ∧ ((at' 5).slot 5).rngLo = 0#64 := by decide +kernel
theorem witness_QueuesAndBorrows_borrow : ((at' 5).slot 5).borrow = none ∧ (at' 5).freeHelper (12 * coreOf 5 + 3) = true ∧
    (at' 5).reads (.nam 6#4) = some 3#64 := by decide +kernel
theorem witness_QueuesAndBorrows_lowest : let s := at' 5 fun x => { x with n := [(1, 0#64)] }
    s.reads (.nam 1#4) = some 0#64 ∧ s.freeHelper (12 * coreOf s.cur + 3) = true ∧
    ∀ j < 3, s.freeHelper (12 * coreOf s.cur + j) = false := by decide +kernel
theorem witness_QueuesAndBorrows_none_free : crowd.freeHelper (12 * coreOf crowd.cur + 3) = false ∧ crowd.reads (.nam 6#4) = some 3#64 ∧
    (lender.slot lender.cur).borrow = some 7 ∧ ((at' 5).reads (.nam 7#4) = some 64#64) ∧
    ∀ j < 11, crowd.freeHelper (12 * coreOf crowd.cur + j) = false := by decide +kernel
theorem witness_QueuesAndBorrows_send : ((queued [entryOf 3 0]).slot 5).relHold = [] ∧ ((queued [entryOf 3 0]).slot 5).tile? = none ∧
    (∀ e ∈ [entryOf 3 0], e.tenant = ((queued [entryOf 3 0]).slot 5).tenant) ∧
    ((queued [entryOf 3 0]).core 0).queues.get [] 1 = [entryOf 3 0] := by decide +kernel
theorem witness_QueuesAndBorrows_full : 4 ≤ [entryOf 1 0, entryOf 2 0, entryOf 3 0, entryOf 4 0].length ∧
    (∀ e ∈ [entryOf 1 0], e.tenant = ((at' 5).slot 5).tenant) ∧ ¬ ∀ e ∈ [entryOf 1 2], e.tenant = ((at' 5).slot 5).tenant := by decide +kernel
theorem witness_QueuesAndBorrows_held : let s := { queued [entryOf 3 0 [6]] with flight := [accessOf 6 3 0 []] }
    (s.core 0).queues.get [] 1 = [entryOf 3 0 [6]] ∧ s.pending 6 = true := by decide +kernel

/-- Slot 5 of core 0, and a live slot 3 of its neighbour to the right. -/
def beside : State := put 5 slot (put (12 * coreAt 1 0 + 3) { live := true, tid := 9 })
/-- The NWR that slot 5 sent to it. -/
def nwrOf : NwrReq := { id := 3, src := 5, dst := 12 * coreAt 1 0 + 3, tid := some 9, n := 4, v := 55 }
/-- A flit of class 0 that carries message `id` and has no link left to cross. -/
def flitOf (id : Nat) : Flit := { id := id, cls := 0, resp := false, src := 5, dst := 0, path := [] }
theorem witness_NeighbourRegisters_send : let s := beside
    s.reads (.nam 2#4) = some (BitVec.ofInt 64 (-7)) ∧ (s.slot s.cur).tile? = none ∧ (s.slot s.cur).relHold = [] ∧
    (∃ d : BitVec 2, neighbour (coreOf s.cur) d = (1, 0)) ∧ s.ownsCore (s.partOfSlot s.cur) (coreAt 1 0) = true ∧ slotNo s.cur ≠ 11 ∧
    (s.slot (12 * coreAt 1 0 + 3)).live = true ∧ (s.slot (12 * coreAt 1 0 + 4)).live = false := by decide +kernel
theorem witness_NeighbourRegisters_outside : (∃ d : BitVec 2, (neighbour 0 d).1 < 0) ∧ slotNo 11 = 11 := by decide +kernel
theorem witness_NeighbourRegisters_ends : let s := { beside with nwrs := [nwrOf] }
    nwrOf.tid.isSome = true ∧ s.nwrAlive nwrOf = true ∧ (s.slot nwrOf.dst).live = true ∧ (s.slot nwrOf.dst).present nwrOf.n = false ∧
    s.threadFree (coreOf nwrOf.src) (coreOf nwrOf.dst) false = true ∧ meshPath (coreOf nwrOf.dst) (coreOf nwrOf.src) ≠ [] := by decide +kernel
theorem witness_NeighbourRegisters_completes : let s := { beside.modSlot 5 (fun x => { x with wait := Wait.nwr }) with
      links := [(7, { unacked := [{ flitOf 4 with resp := true }] })], acks := [{ id := 4, owner := 5, kind := .nwr 5 0 }] }
    (s.link 7).unacked = [{ flitOf 4 with resp := true }] ∧ ({ flitOf 4 with resp := true } : Flit).sub = 2 * 0 + 1 ∧ (flitOf 4).path = [] ∧ s.nwrs = [] ∧ s.amsgs = [] ∧
    s.acks = [{ id := (flitOf 4).id, owner := 5, kind := .nwr nwrOf.src 0 }] ∧ (s.slot nwrOf.src).tid = 0 ∧ (s.slot nwrOf.src).wait = Wait.nwr := by decide +kernel
theorem witness_NeighbourRegisters_arrives : let s := { beside with nwrs := [{ nwrOf with tid := none }], links := [(7, { unacked := [flitOf 3] })] }
    (s.link 7).unacked = [flitOf 3] ∧ (flitOf 3).sub = 2 * 0 ∧ (flitOf 3).path = [] ∧
    s.acks = [] ∧ s.nwrs.find? (fun q => q.id == (flitOf 3).id) = some { nwrOf with tid := none } := by decide +kernel
theorem witness_NeighbourRegisters_withdrawn : let s := { beside with nwrs := [{ nwrOf with tid := some 8 }] }
    let t := { (beside.modSlot 5 fun x => { x with preempt := some 1 }) with nwrs := [nwrOf] }
    let u := s.modSlot 5 fun x => { x with ten := true, tbase := BitVec.ofNat 39 (2 ^ 27) }
    u.nwrAlive { nwrOf with tid := some 8 } = false ∧ (u.slot 5).handles .xperm = true ∧ t.nwrAlive nwrOf = true ∧ t.mayStop 5 = true := by
  decide +kernel

/-! ## Witnesses: system registers and mailboxes -/

theorem witness_PrivilegedInUserMode : ((at' 5).slot (at' 5).cur).user = true ∧ 0x800 ≤ (0x800#12).toNat := by decide +kernel
theorem witness_SystemRegisterReads : (0x7FF#12).toNat < 0x800 ∧ ((at' 0 fun x => { x with user := false }).slot 0).user = false := by decide +kernel
/-- Slot 5, and what mailbox 1 of its core holds. -/
def mailboxes (full : Bool) (held : List MbxWrite := []) : State :=
  (at' 5).modCore 0 fun c => { c with mbxp := if full then 2#8 else 0#8, mbxHeld := [(1, held)] }
theorem witness_SystemRegisterWrites : (at' 5).reads (.nam 5#4) = some 2#64 ∧ ((at' 5).slot 5).tile? = none ∧
    (mailboxes false).mailboxFree 0 1 = true ∧ (mailboxes true).mailboxFree 0 1 = false ∧ (0x201#12).toNat = 0x200 + 1 ∧
    (0x30F#12).toNat = 0x300 + 15 ∧ (2#64 : U64) = (0#3 ++ 2#5).setWidth 64 := by decide +kernel
theorem witness_SystemRegisterWrites_privileged : let s := at' 0 fun x => { x with user := false }
    s.reads (.nam 5#4) = some 2#64 ∧ (s.slot s.cur).tile? = none ∧ (s.slot s.cur).user = false := by decide +kernel
theorem witness_SystemRegisterWrites_mailbox : let s := mailboxes false [{ v := 7, slot := some 6 }]
    (s.core 0).mbxHeld.get [] 1 = [{ v := 7, slot := some 6 }] ∧ (s.core 0).mbxp.getLsbD 1 = false ∧
    (mailboxes true).mailboxFree 0 1 = false := by decide +kernel
theorem witness_SystemRegisterWrites_stores : (∀ w ∈ [{ v := 7, slot := none }, { v := 7, slot := none, store := some 6 }],
      (((mailboxes false [w]).core 0).mbxHeld.get [] 1 = [w] ∧ ((mailboxes false [w]).core 0).mbxp.getLsbD 1 = false)) ∧
    (let s := { mailboxes false [{ v := 7, slot := none, store := some 6 }] with flight := [accessOf 6 5 0 []] }
     s.flight.find? (fun x => x.id == (accessOf 6 5 0 []).id) = some (accessOf 6 5 0 [])) := by decide +kernel

/-! ## Witnesses: capabilities -/

/-- Slot 5 with capabilities in k1 to k7. -/
def caps : State := at' 5 fun x => { x with
  k := [(1, cap 2 0x100 0x4000), (2, cap 0 0x5000 0x1000), (3, { cap 2 0x100 0x100 with tag := false }), (4, cap 1 0x2000 0x1000),
    (5, cap 3 0 0x1000), (6, (capFor 6 3 0x2000000 0x2000000 0x2001000).getD Cap.null), (7, code)]
  n := (4, 0x4000#64) :: x.n }
theorem witness_CapabilityReadsAndMoves : (caps.cap 1#3).space = 2 ∧ (caps.cap 2#3).space = 0 ∧ (caps.cap 3#3).space = 2 := by decide +kernel
theorem witness_CapabilityReadsAndMoves_cursor : caps.reads (.nam 1#4) = some 9#64 ∧ (caps.cap 1#3).tag = true ∧ (caps.cap 3#3).tag = false ∧
    (9 : Nat) / 2 ^ ((caps.cap 1#3).ex + 26) = (caps.cap 1#3).cursor / 2 ^ ((caps.cap 1#3).ex + 26) ∧
    caps.reads (.nam 2#4) = some (BitVec.ofInt 64 (-7)) ∧
    (BitVec.ofInt 64 (-7)).toNat / 2 ^ ((caps.cap 1#3).ex + 26) ≠ (caps.cap 1#3).cursor / 2 ^ ((caps.cap 1#3).ex + 26) ∧
    ((caps.cap 1#3).cursor : Int) + (9#64).toInt < 2 ^ 52 := by decide +kernel
theorem witness_CapabilityDerivation_narrow : (caps.cap 1#3).tag = true ∧ (caps.cap 1#3).legal = true ∧ caps.reads (.nam 1#4) = some 9#64 ∧
    (let k := caps.cap 1#3; k.cursor / 2 ^ 26 = (k.cursor + 9) / 2 ^ 26 ∧ k.base ≤ k.cursor ∧ k.cursor + 9 ≤ k.top) := by decide +kernel
theorem witness_CapabilityDerivation_inexact : let k := (capFor 0 0x3F 0x1001 0x1000 0x20000000).getD Cap.null
    let nb := k.cursor / 2 * 2
    let nt := (k.cursor + 0x4000000 + 1) / 2 * 2
    k.tag = true ∧ k.legal = true ∧ nb / 2 ^ 27 = nt / 2 ^ 27 ∧ k.cursor / 2 ^ 26 ≠ (k.cursor + 0x4000000) / 2 ^ 26 ∧ k.base ≤ nb ∧ nt ≤ k.top ∧
    nb ≠ k.cursor := by decide +kernel
theorem witness_CapabilityDerivation_outside : caps.reads (.nam 4#4) = some 0x4000#64 ∧
    (let k := caps.cap 2#3; ¬ (k.cursor + 0x4000 ≤ k.top) ∧ k.legal = true ∧ k.tag = true) := by decide +kernel
/-- The alias of `k` in GLOBAL space, its cursor moved by `sh`. -/
def globalOf (k : Cap) (sh : Nat) : Cap := { tag := true, bits := packCap k.tOff k.bOff k.ex k.perm 0 (k.cursor + sh) }
theorem witness_CapabilityDerivation_generic : (caps.cap 3#3).tag = false ∧ (caps.cap 5#3).space = 3 ∧ (caps.cap 5#3).tag = true ∧
    (caps.cap 2#3).space = 0 ∧
    (let k := caps.cap 1#3
     k.space = 2 ∧ (caps.partReg (caps.partOfSlot 5) 0x808).toNat = 2 ^ 40 ∧ k.cursor + 2 ^ 40 < 2 ^ 52 ∧ k.top + 2 ^ 40 ≤ 2 ^ 52 ∧
       (globalOf k (2 ^ 40)).base = k.base + 2 ^ 40 ∧ (globalOf k (2 ^ 40)).top = k.top + 2 ^ 40) ∧
    (let k := caps.cap 4#3
     k.space = 1 ∧ (caps.partReg (caps.partOfSlot 5) 0x809).toNat = 2 ^ 41 ∧
       (globalOf k (2 ^ 41)).base = k.base + 2 ^ 41 ∧ (globalOf k (2 ^ 41)).top = k.top + 2 ^ 41) := by decide +kernel
/-- `s` with the `n` bytes of `v` at `key`. -/
def with' (s : State) (key n v : Nat) : State := s.writeAll (writesAt key (toBytes n v))
/-- Slot 5, and a pool of three places at the base of its code capability. -/
def pool : State := with' (with' (at' 5) (2 ^ 61) 2 3) (2 ^ 61 + 16) 16 (cap 0 0x100 0x1000).bits.toNat
/-- `s`, whose current slot has read `os` in the first steps of its instruction. -/
def seen (s : State) (os : List Seen) : State := s.modSlot s.cur fun x => { x with seen := os.mapIdx fun i o => (i, o) }
theorem witness_CapabilityDerivation_pool : ((pool.slot pool.cur).pcc = code) ∧ (pool.slot pool.cur).saw 0 = none ∧
    okIs (loadAny code code.base 2 { spaces := [0], perm := [], align := 2 } []) pool.noteIssue (fun n _ => n == 3) = true := by decide +kernel
theorem witness_CapabilityDerivation_pool_index : let o : Seen := { bytes := toBytes 2 3 }
    let s := seen pool [o]
    (s.slot s.cur).saw 0 = some o ∧ leAt o.bytes 0 2 = 3 ∧ (s.slot s.cur).saw 1 = none ∧ (s.slot s.cur).pcc = code ∧
    okIs (loadAny code (code.base + 16) 16 { spaces := [0], perm := [], align := 16 } []) s.noteIssue (fun c _ =>
      let k : Cap := { tag := true, bits := BitVec.ofNat 128 c }
      decide (k.space = 0) && k.legal) = true := by decide +kernel

/-! ## Witnesses: control flow -/

theorem witness_Transfers : (at' 5).reads (.nam 1#4) = some 9#64 ∧ (at' 5).reads (.age 0#4) = some 3#64 ∧
    (let x := (at' 5).slot 5; (x.pcc.base : Int) ≤ x.pc + 2 * 5 ∧ x.pc + 2 * 5 + 2 ≤ x.pcc.top) := by decide +kernel
theorem witness_Transfers_code : code.tag = true ∧ code.space = 0 ∧ code.has 2 = true ∧ code.cursor % 2 = 0 ∧ code.base ≤ code.cursor ∧
    code.cursor + 2 ≤ code.top := by decide +kernel
theorem witness_Transfers_checks : ({ code with tag := false } : Cap).tag = false ∧ (cap 2 0x40 0x100).space ≠ 0 ∧
    ((capFor 0 3 0x5000 0x5000 0x6000).getD Cap.null).has 2 = false ∧ (code.withCursor (2 ^ 40 + 0x1001)).cursor % 2 = 1 ∧
    ¬ ((code.withCursor (2 ^ 40 + 0x9000)).cursor + 2 ≤ (code.withCursor (2 ^ 40 + 0x9000)).top) ∧
    (code.withCursor (2 ^ 40 + 0x9000)).has 2 = true := by decide +kernel
/-- Slot 5 with guards set, clear and pending. -/
def guards : State := at' 5 fun x => { x with
  guards := [(1, .resolved true), (3, .pending true 2#3 (.need 4) (.have 5#64)), (9, .pending false 2#3 (.have 4#64) (.have 5#64))] }
theorem witness_Guards : (guards.slot 5).guards.get Guard.clear 1 = .resolved true ∧
    (guards.slot 5).guards.get Guard.clear 3 = .pending true 2#3 (.need 4) (.have 5#64) ∧ (guards.slot 5).guards.get Guard.clear 2 = .clear ∧
    guards.reads (.nam 1#4) = some 9#64 ∧ guards.reads (.nam 0#4) = none ∧
    (guards.slot 5).guards.get Guard.clear 9 = .pending false 2#3 (.have 4#64) (.have 5#64) ∧ guards.engines = [] := by decide +kernel
/-- A loop level of `c` iterations that ends at the program counter of the tests. -/
def level (c : Nat) : LoopLevel := { start := 2 ^ 40 + 0xFF0, last := 2 ^ 40 + 0x1000, past := 2 ^ 40 + 0x1004, count := BitVec.ofNat 64 c }
/-- Slot 5 with loop levels `ls` and mailbox 1 of its core full or not. -/
def loops (ls : List LoopLevel) (full : Bool := false) : State :=
  (at' 5 fun x => { x with loops := ls }).modCore 0 fun c => { c with mbx := [(1, 3#64)], mbxp := if full then 2#8 else 0#8 }
theorem witness_LoopsAndRealign_open : ((loops [level 1, level 2]).slot 5).loops.length < 3 ∧
    okIs (fetch (((loops []).slot 5).pc + 2 * 6) 2) (loops []).noteIssue (fun _ t =>
      decide (t.slot 5 = (loops []).noteIssue.slot 5) && t.cur == 5 && !(t.core 0).mbxp.getLsbD 1) = true ∧
    okIs (fetch (((loops []).slot 5).pc + 2 * 6) 2) (loops [] true).noteIssue (fun _ t => (t.core 0).mbxp.getLsbD 1) = true ∧
    3 ≤ ((loops [level 1, level 2, level 3]).slot 5).loops.length ∧ (loops []).reads (.nam 5#4) = some 2#64 := by decide +kernel
theorem witness_LoopsAndRealign_end : let x := ((loops [level 2]).slot 5)
    x.loops = [] ++ [level 2] ∧ x.hidden ≤ ([] : List LoopLevel).length ∧ x.pc ≤ (level 2).last ∧ (level 2).last < x.pc + 4 ∧
    (level 2).count - 1#64 ≠ 0#64 ∧ (level 1).count - 1#64 = 0#64 ∧ ¬ ((2 ^ 40 + 0x1002 : Nat) < x.pc + 2) ∧
    ((loops []).slot 5).loops.length ≤ ((loops []).slot 5).hidden := by decide +kernel
/-- Slots 17 and 18 held at tag 1 and the program counter of slot 5. -/
def held : State := put 5 slot (put 17 { slot with wait := .realign 1 (2 ^ 40 + 0x1000) 4 170 }
  (put 18 { slot with wait := .realign 1 (2 ^ 40 + 0x1000) 2 99 }))
theorem witness_LoopsAndRealign_met : (17 / 96 = clusterOf (coreOf 5)) ∧ (held.slot 17).live = true ∧
    (held.slot 17).tenant = (held.slot 5).tenant ∧ held.partOfSlot 17 = held.partOfSlot 5 ∧
    (held.slot 17).wait = .realign (1#10).toNat (held.slot 5).pc 4 170 ∧ (held.slot 5).wait = Wait.none ∧
    (held.slot 18).wait = .realign 1 (2 ^ 40 + 0x1000) 2 99 ∧ 99 ≤ held.now ∧ (at' 5).slots.map (fun y => y.1) = [5] := by decide +kernel

theorem witness_MovesAndPresence_blocked : let s := at' 0 fun x => { x with user := false }
    s.reads (.nam 0#4) = none ∧ (s.slot s.cur).user = false ∧ Src.nam 0#4 ∈ sources (.add .queue (.age 0#4) (.nam 0#4)) ∧
    Src.nam 0#4 ∈ sources (.mts 0x800#12 (.nam 0#4)) ∧ asksMode (.mts 0x800#12 (.nam 0#4)) = true ∧
    asksMode (.add .queue (.age 0#4) (.nam 0#4)) = false ∧ Src.nam 0#4 ∉ sources (.gset 0#3 0#4 (.nam 0#4) (.age 0#4)) := by decide +kernel
theorem witness_SystemRegisterWrites_tile : let s := at' 5 fun x => { x with phase := .surrogate 1, user := false }
    (s.slot s.cur).tile?.isSome = true ∧ s.reads (.nam 5#4) = some 2#64 ∧ 0x800 ≤ (0xFFF#12).toNat ∧ (s.slot s.cur).user = false ∧
    ((7#3 ++ 31#5).setWidth 64 : U64) = 255#64 := by decide +kernel
theorem witness_CapabilityDerivation_too_wide : caps.reads (.nam 2#4) = some (BitVec.ofInt 64 (-7)) ∧
    (let k := caps.cap 1#3
     k.tag = true ∧ k.legal = true ∧ ∀ e ≤ 27, k.cursor / 2 ^ e * 2 ^ e / 2 ^ (e + 26) ≠
       (k.cursor + (BitVec.ofInt 64 (-7)).toNat + 2 ^ e - 1) / 2 ^ e * 2 ^ e / 2 ^ (e + 26)) ∧ (caps.cap 3#3).tag = false := by decide +kernel
theorem witness_CapabilityDerivation_records : ∀ c ∈ [(cap 2 0x100 0x4000).bits.toNat, (cap 1 0x2000 0x1000).bits.toNat,
      (cap 3 0 0x1000).bits.toNat, (cap 0 0x100 0x4000).bits.toNat + 2 ^ 63, (cap 0 0x100 0x4000).bits.toNat + 7 * 2 ^ 52],
    let o : Seen := { bytes := toBytes 2 3 }
    let p : Seen := { bytes := toBytes 16 c }
    let x := (seen pool [o, p]).slot 5
    x.saw 0 = some o ∧ x.saw 1 = some p ∧ leAt o.bytes 0 2 = 3 ∧ leAt p.bytes 0 16 = c ∧ x.pcc = code := by decide +kernel

/-- A guarded card of the task in slot 5, that waits for guard 3. -/
def guarded : Card :=
  { id := 1, engine := 0, regions := [], bytes := [], cap0 := Cap.null, cap1 := Cap.null, addr := 0, issuer := some (5, 0)
    core := 0, tenant := 0, part := 0, cls := 0, group := 0#64, guard := some (3, true) }
theorem witness_Guards_binds : let s := { guards with engines := [(0, { queues := [(0, [guarded])] })] }
    guarded.awaits (s.slot s.cur).tid (3#4).toNat = true ∧ s.reads (.nam 1#4) = some 9#64 ∧ s.reads (.nam 5#4) = some 2#64 ∧
    (∀ c ∈ s.cards, c.awaits (s.slot s.cur).tid (2#4).toNat = false) := by decide +kernel
theorem witness_Guards_capture : (guards.slot guards.cur).guards.get Guard.clear 3 = .pending true 2#3 (.need 4) (.have 5#64) ∧
    exec (.mov (.nam 4#4) (.nam 1#4)) guards = guards.gives 4 (.nam 4#4) 9#64 := ⟨by decide +kernel, rfl⟩
theorem witness_Guards_neighbour : let s := { put (12 * coreAt 1 0 + 3) { live := true, tid := 9, guards := [(3, .pending true 2#3 (.need 4) (.have 5#64))] } beside with
      nwrs := [nwrOf] }
    (s.slot nwrOf.dst).guards.get Guard.clear 3 = .pending true 2#3 (.need 4) (.have 5#64) ∧ nwrOf.n = (4#4).toNat ∧ nwrOf.src ≠ nwrOf.dst ∧
    nwrOf.tid.isSome = true ∧ s.nwrAlive nwrOf = true ∧ (s.slot nwrOf.dst).live = true ∧ (s.slot nwrOf.dst).present nwrOf.n = false ∧
    s.threadFree (coreOf nwrOf.src) (coreOf nwrOf.dst) false = true := by decide +kernel

/-! ## Witnesses: loads, stores and atomics -/

theorem witness_CheckOrder : let nd : Need := { perm := [0, 1], align := 8, spaces := [0, 2] }
    let k := cap 2 0x100 0x4000
    k.tag = true ∧ k.space ∈ nd.spaces ∧ (∀ i ∈ nd.perm, k.has i = true) ∧ k.base ≤ 0x108 ∧ 0x108 + 8 ≤ k.top ∧ 0x108 % 8 = 0 ∧
    0x105 % 8 ≠ 0 ∧ ¬ ((k.base : Int) ≤ 0xF8) ∧ (cap 5 0 0x100).space ∉ nd.spaces ∧ (cap 5 0 0x100).space ≤ 6 ∧ nd.xperm = false ∧
    ((capFor 2 1 0x100 0x100 0x200).getD Cap.null).has 1 = false := by decide +kernel
theorem witness_PlacesAndLoads_places : let p := (caps.who 5).part
    caps.vaultOk p 0x2000 = true ∧ caps.vaultOk p (2 ^ 51) = false ∧ caps.ownsCore p (0x100 / 2 ^ 18) = true ∧
    caps.ownsCore p (2 ^ 30 / 2 ^ 18) = false ∧ 2 ^ 16 - 1 < 2 ^ caps.partFld p 0x800 8 8 ∧ 2 ^ caps.partFld p 0x800 8 8 ≤ 2 ^ 16 ∧
    (caps.partReg p 0x808).toNat = 2 ^ 40 ∧ devRegion 0x800000 = none ∧ caps.routeTo (dieOf (caps.who 5).core) 3 = 0#24 := by decide +kernel
/-- As `caps`, with bytes in scratchpad 0 and in the page of 0x5000. -/
def filled : State := with' (with' caps (2 ^ 61 + 0x100) 8 0x8877665544332211) 0x40005000 8 0xF1F2F3F4F5F6F7F8
theorem witness_PlacesAndLoads_loads : filled.calm ∧ filled.reads (.nam 5#4) = some 2#64 ∧ slotNo filled.cur ≠ 11 ∧
    okIs (place (filled.cap 1#3) ((filled.cap 1#3).cursor + 0 * 8) 8 { perm := [0], align := 8 } [1]) filled.noteIssue
      (fun p _ => isMem (2 ^ 61 + 0x100) p) = true :=
  ⟨State.calm_of_quiet _ (by decide +kernel), by decide +kernel⟩
theorem witness_PlacesAndLoads_device :
    okIs (place (filled.cap 6#3) ((filled.cap 6#3).cursor + 0 * 8) 8 { perm := [0], align := 8 } [1]) filled.noteIssue
      (fun p _ => match p with | .device o => o == 0x2000000 | _ => false) = true := by decide +kernel
/-- As `filled`, with the line of 0x5000 in the read cache of core 0. -/
def cached : State := filled.modCore 0 fun c => { c with rcache := [{ part := 0, tenant := 0, line := 0x5000 / 64, bytes := List.replicate 64 7#8 }] }
theorem witness_PlacesAndLoads_cached : cached.calm ∧ slotNo cached.cur ≠ 11 ∧
    okIs (place (cached.cap 2#3) ((cached.cap 2#3).cursor + 0 * 8) 8 { perm := [0], align := 8 } [1]) cached.noteIssue
      (fun p _ => decide (p = .mem 0x40005000 true (some 0x5000))) = true ∧
    ((cached.core 0).rcache.find? fun l => l.part == 0 && l.tenant == 0 && l.line == 0x5000 / 64).isSome = true ∧
    (filled.core 0).rcache = [] :=
  ⟨State.calm_of_quiet _ (by decide +kernel), by decide +kernel⟩
theorem witness_Stores : filled.calm ∧ filled.reads (.nam 2#4) = some (BitVec.ofInt 64 (-7)) ∧ filled.reads (.nam 7#4) = some 64#64 ∧
    okIs (place (filled.cap 1#3) ((filled.cap 1#3).cursor + 2 * 4) 4 { perm := [1], align := 4 } [2]) filled.noteIssue
      (fun p t => isMem (2 ^ 61 + 0x108) p && decide (t = filled.noteIssue)) = true ∧
    okIs (place (filled.cap 1#3) ((filled.cap 1#3).cursor + 64 * 1) 8 { perm := [1], align := 8 } [2])
      (filled.noteIssue.modSlot 5 fun z => { z with relHold := [] }) (fun p _ => isMem (2 ^ 61 + 0x140) p) = true :=
  ⟨State.calm_of_quiet _ (by decide +kernel), by decide +kernel⟩
theorem witness_Stores_device : let s := filled.modSlot 5 fun x => { x with k := [(3, (capFor 6 3 0x1000 0x1000 0x2000).getD Cap.null), (6, filled.cap 6#3)] }
    s.calm ∧ s.reads (.nam 2#4) = some (BitVec.ofInt 64 (-7)) ∧ devRegion 0x1008 = some (.mbx 1 1) ∧ devRegion 0x2000000 = some (.layer 0 0) ∧
    okIs (place (s.cap 3#3) ((s.cap 3#3).cursor + 1 * 8) 8 { perm := [1], align := 8 } [2]) s.noteIssue
      (fun p _ => match p with | .device o => o == 0x1008 | _ => false) = true ∧
    okIs (place (s.cap 6#3) ((s.cap 6#3).cursor + 0 * 8) 8 { perm := [1], align := 8 } [2]) s.noteIssue
      (fun p _ => match p with | .device o => o == 0x2000000 | _ => false) = true :=
  ⟨State.calm_of_quiet _ (by decide +kernel), by decide +kernel⟩
theorem witness_Stores_outstanding : let s := { filled with flight := (List.range 16).map fun i => accessOf (i + 1) 5 0 [] }
    16 ≤ s.outstanding s.cur ∧ (s.slot s.cur).tile? = none ∧ s.reads (.nam 2#4) = some (BitVec.ofInt 64 (-7)) ∧
    okIs (place (s.cap 1#3) ((s.cap 1#3).cursor + 1 * 8) 8 { perm := [1], align := 8 } [2]) s.noteIssue (fun _ _ => true) = true := by
  decide +kernel
/-- Whether `m` traps from `s` with cause `c`. -/
def trapIs {α : Type} (m : Exec α) (s : State) (c : Cause) : Bool :=
  match m s with
  | .error (.trap d _) => decide (d = c)
  | _ => false
theorem witness_Stores_faults :
    trapIs (place (filled.cap 1#3) ((filled.cap 1#3).cursor + -1 * 8) 8 { perm := [0], align := 8 } [1]) filled.noteIssue .capBnd = true ∧
    trapIs (place (filled.cap 1#3) ((filled.cap 1#3).cursor + -1 * 8) 8 { perm := [1], align := 8 } [2]) filled.noteIssue .capBnd = true ∧
    trapIs (place (filled.cap 0#3) ((filled.cap 0#3).cursor + -1 * 16) 16 { perm := [0], align := 16 } [1]) filled.noteIssue .capTag = true ∧
    trapIs (place (filled.cap 1#3) ((filled.cap 1#3).cursor + -1 * 16) 16 { perm := [1], align := 16 } [2]) filled.noteIssue .capBnd = true := by
  decide +kernel
/-- Slot 5 with a capability that may store capabilities, one that may be stored, and one that may not. -/
def capStore : State := (filled.modSlot 5 fun x => { x with
  k := [(1, (capFor 0 0x7F 0x5000 0x5000 0x6000).getD Cap.null), (2, (capFor 2 0x6F 0x110 0x110 0x4000).getD Cap.null), (3, cap 2 0x120 0x4000),
    (4, (capFor 2 0x7F 0x110 0x110 0x4000).getD Cap.null)] }).setTag (2 ^ 61 + 0x120) true
theorem witness_CapabilityAccessesAndAtomics_capabilities : capStore.calm ∧ slotNo capStore.cur ≠ 11 ∧ (2 ^ 61 + 0x120 : Nat) < 2 ^ 63 ∧
    okIs (place (capStore.cap 3#3) 0x120 16 { perm := [0], align := 16 } [1]) capStore.noteIssue (fun p _ => isMem (2 ^ 61 + 0x120) p) = true ∧
    okIs (place (capStore.cap 4#3) 0x110 16 { perm := [1], align := 16 } [2]) capStore.noteIssue (fun p _ => isMem (2 ^ 61 + 0x110) p) = true ∧
    (capStore.cap 4#3).has 4 = true ∧ (capStore.cap 4#3).space ≤ 3 ∧ (capStore.cap 4#3).has 6 = true ∧ (capStore.cap 4#3).tag = true ∧
    (capStore.cap 2#3).has 4 = false ∧ (capStore.cap 3#3).has 6 = false :=
  ⟨State.calm_of_quiet _ (by decide +kernel), by decide +kernel⟩
theorem witness_CapabilityAccessesAndAtomics_page : let s := with' capStore 0x110000 1 0x1F
    s.calm ∧ (s.cap 1#3).has 4 = true ∧ (s.cap 1#3).space = 0 ∧ (s.cap 4#3).tag = true ∧ (s.cap 4#3).has 6 = true ∧
    okIs (place (s.cap 1#3) 0x5000 16 { perm := [1], align := 16 } [2]) s.noteIssue
      (fun p _ => decide (p = .mem 0x40005000 false (some 0x5000))) = true :=
  ⟨State.calm_of_quiet _ (by decide +kernel), by decide +kernel⟩
theorem witness_CapabilityAccessesAndAtomics_atomic : filled.calm ∧ slotNo filled.cur ≠ 11 ∧
    okIs (place (filled.cap 1#3) ((filled.cap 1#3).cursor + 0 * 4) 4 { spaces := [0, 1, 2, 3, 5], xperm := true, perm := [0, 1, 5], align := 4 } [1, 2, 4])
      filled.noteIssue (fun p _ => isMem (2 ^ 61 + 0x100) p) = true ∧
    (let s := filled.modSlot 5 fun x => { x with rq := 9#64 :: 0x44332211#64 :: x.rq.drop 2 }
     ofBytes (s.bytes (2 ^ 61 + 0x100) 4) = ((s.slot 5).rq.getD 1 0#64).toNat % 2 ^ 32) ∧
    ofBytes (filled.bytes (2 ^ 61 + 0x100) 4) ≠ ((filled.slot 5).rq.getD 1 0#64).toNat % 2 ^ 32 :=
  ⟨State.calm_of_quiet _ (by decide +kernel), by decide +kernel⟩
/-- Two stores of slot 5 to home 7, and one of slot 4 that holds for the first. -/
def travelling : State :=
  { filled with flight := [accessOf 3 5 7 [(2 ^ 61 + 0x110, 5#8), (2 ^ 61 + 0x111, 6#8)], accessOf 4 5 7 [], accessOf 6 4 8 [] [3]] }
theorem witness_HomesAndFences_performs : let a := accessOf 3 5 7 [(2 ^ 61 + 0x110, 5#8), (2 ^ 61 + 0x111, 6#8)]
    travelling.flight.head? = some a ∧ a.slot < 7680 ∧ travelling.pathFrom a.home a.origin ≠ [] ∧ a.kind = .store ∧ a.holds = [] ∧ a.va = none ∧ travelling.absent = [] ∧
    ∀ b ∈ travelling.flight.tail, b.id ≠ a.id ∧ ¬ (b.slot = a.slot ∧ b.home = a.home ∧ b.id < a.id) := by decide +kernel
theorem witness_HomesAndFences_order : let a := accessOf 3 5 7 [(2 ^ 61 + 0x110, 5#8), (2 ^ 61 + 0x111, 6#8)]
    a ∈ travelling.flight ∧ accessOf 4 5 7 [] ∈ travelling.flight ∧ a.slot = (accessOf 4 5 7 []).slot ∧ a.home = (accessOf 4 5 7 []).home ∧
    a.id < (accessOf 4 5 7 []).id ∧ travelling.queuesBehind (accessOf 4 5 7 []) a = false ∧ a.id ∈ (accessOf 6 4 8 [] [3]).holds ∧ (∀ x ∈ travelling.flight, x.id = 4 → x = accessOf 4 5 7 []) ∧
    ∀ x ∈ travelling.flight, x.id = 6 → x = accessOf 6 4 8 [] [3] := by decide +kernel
/-- A card of slot 5, with body words `bs` and capabilities `a` and `b`. -/
def cardOf (bs : List Byte) (a b : Cap) : Card :=
  { id := 1, engine := 0, regions := [], bytes := bs, cap0 := a, cap1 := b, addr := 2 ^ 40 + 0x800, issuer := some (5, 0), core := 0, tenant := 0
    part := 0, cls := 0, group := 0#64 }
/-- As `filled`, with `c` in the background queue of engine `e`. -/
def withCard (c : Card) (e : Nat := 0) : State := filled.modEngine e fun x => { x with queues := [(0, [c])] }
theorem witness_HomesAndFences_fences : filled.calm ∧ filled.cardsOf filled.cur = [] ∧
    (∀ a ∈ filled.flight, a.part = filled.partOfSlot filled.cur → a.old = false) ∧
    (∀ c ∈ filled.cards, c.part = filled.partOfSlot filled.cur → ∀ o ∈ c.ops, o.old = false) ∧
    ∃ c ∈ (withCard (cardOf [] Cap.null Cap.null)).cardsOf 5, c.guard = none ∨ c.bound ≠ none :=
  ⟨State.calm_of_quiet _ (by decide +kernel), by decide +kernel⟩

/-! ## Witnesses: remote operations -/

/-- What RST and AMSG need of their target. -/
def rstNeed (n : Nat) : Need := { spaces := [0, 1, 2, 3, 5, 6], perm := [1], align := n }
/-- As `filled`, after the checks of an RST of slot 5 and its count. -/
def counted : State := ((after (place (filled.cap 1#3) 0x100 8 (rstNeed 8) [2]) filled.noteIssue).liveNow (filled.partOfSlot 5) 0 0#64 1 0).modSlot 5
  fun y => { y with rsts := y.rsts + 1 }
theorem calm_filled : filled.calm := State.calm_of_quiet _ (by decide +kernel)
theorem calm_counted : counted.calm := State.calm_of_quiet _ (by decide +kernel)
theorem witness_RemoteOperations_rst : filled.calm ∧ counted.calm ∧ filled.reads (.nam 2#4) = some (BitVec.ofInt 64 (-7)) ∧
    (filled.slot 5).rsts = 0 ∧ (filled.slot 5).group = 0#64 ∧ (counted.slot 5).rsts ≠ 0 ∧ (counted.slot 5).tile? = none ∧
    okIs (place (filled.cap 1#3) (filled.cap 1#3).cursor 8 (rstNeed 8) [2]) filled.noteIssue (fun p _ => isMem (2 ^ 61 + 0x100) p) = true ∧
    okIs (place (filled.cap 1#3) (filled.cap 1#3).cursor 1 { spaces := [0, 1, 2, 5], perm := [1] } []) filled.noteIssue
      (fun p _ => isMem (2 ^ 61 + 0x100) p) = true ∧
    (filled.cap 7#3).tag = true ∧ (filled.cap 7#3).space = 0 ∧ (filled.cap 7#3).has 2 = true ∧ (filled.cap 7#3).cursor % 2 = 0 ∧
    (filled.cap 7#3).base ≤ (filled.cap 7#3).cursor ∧ (filled.cap 7#3).cursor + 2 ≤ (filled.cap 7#3).top :=
  ⟨calm_filled, calm_counted, by decide +kernel⟩
/-- As `filled`, with a capability of package 3 in k1 and a mailbox of core 1 in k2, and a route to that package. -/
def abroad : State := { filled.modSlot 5 fun x => { x with k := (1, (capFor 5 3 (3 * 2 ^ 43 + 64) (3 * 2 ^ 43) (3 * 2 ^ 43 + 4096)).getD Cap.null) ::
    (2, (capFor 6 3 0x1008 0x1000 0x2000).getD Cap.null) :: x.k } with routes := [(3, 1#24)] }
theorem witness_RemoteOperations_far : abroad.calm ∧
    okIs (place (abroad.cap 1#3) (abroad.cap 1#3).cursor 8 (rstNeed 8) [2]) abroad.noteIssue
      (fun p _ => match p with | .remote o => o == 3 * 2 ^ 43 + 64 | _ => false) = true ∧
    okIs (place (abroad.cap 2#3) (abroad.cap 2#3).cursor 8 (rstNeed 8) [2]) abroad.noteIssue
      (fun p _ => match p with | .device o => o == 0x1008 | _ => false) = true ∧ devRegion 0x1008 = some (.mbx 1 1) :=
  ⟨State.calm_of_quiet _ (by decide +kernel), by decide +kernel⟩
/-- A message to scratchpad 0. -/
def message : Amsg :=
  { id := 2, core := 3, home := 3, code := code, target := cap 2 0x40 0x100, v0 := 7, v1 := 8, slot := 5, tid := 0, tenant := 0, part := 0
    group := none, holds := [] }
theorem witness_RemoteOperations_events : let s := filled.modCore 3 fun c => { c with amsgs := [message] }
    let t := put 5 slot (put 47 { slot with ten := true, tbase := BitVec.ofNat 39 (2 ^ 27), msgIssues := 65536 })
    let r : Return := { id := 3, slot := 5, tid := 4, core := 0, ref := none, failed := false }
    let u := { (at' 5 fun x => { x with rsts := 2, tid := 4 }) with returns := [r] }
    (s.slot (12 * 3 + 11)).live = false ∧ (s.core 3).amsgs = [message] ∧ (∀ k ∈ s.amsgs ++ [message], k.slot = message.slot → k.core = 3 → message.id ≤ k.id) ∧ message.holds = [] ∧ (t.slot 47).live = true ∧ (t.slot 47).msgIssues = 65536 ∧
    (t.slot 47).handles .amsgTime = true ∧ u.crossing r.id = false ∧ (5, u.slot 5) ∈ u.slots ∧ (u.slot 5).tid = r.tid ∧ (u.slot 5).live = true ∧
    ∀ y ∈ u.slots, y.2.tid = r.tid → y.2.live = true → y = (r.slot, u.slot 5) := by decide +kernel
/-- As `filled`, with a walk of page `pg` of partition 0 in flight. -/
def walking (pg : Nat) : State :=
  { filled with pageWalks := [{ die := 0, part := 0, tenant := 0, page := pg, core := 3, found := (filled.walk 0 0 (pg * 2 ^ 16)).found }] }
theorem witness_RemoteOperations_walks : filled.partOf 3 = 0 ∧ filled.inFlight (dieOf 3) 0 0 0x5000 = none ∧ (filled.core 3).tlb = [] ∧
    ((walking 0).inFlight (dieOf 3) 0 0 0x5000).isSome = true ∧ ((walking (2 ^ 29)).inFlight (dieOf 3) 0 0 (2 ^ 45 + 5)).isSome = true ∧
    (match (filled.walk 0 0 0x5000).found with | .leaf _ _ => true | _ => false) = true ∧ (filled.walk 0 0 (2 ^ 45)).found = .fault := by decide +kernel

/-! ## Witnesses: traps and system instructions -/

/-- Slot `g` with a trap base. -/
def handler (g : Nat) (f : Slot → Slot := id) : State := at' g fun x => f { x with ten := true, tbase := BitVec.ofNat 39 (2 ^ 27) }
theorem witness_TrapEntry : let x := (handler 5).slot 5
    x.ten = true ∧ x.inTrap = false ∧ x.pcc.base ≤ x.tbase.toNat * 2 ^ 13 + 64 * Cause.illop.code ∧
    x.tbase.toNat * 2 ^ 13 + 64 * Cause.illop.code + 2 ≤ x.pcc.top ∧ x.grace = false ∧
    x.tbase.toNat * 2 ^ 13 + 64 * Cause.budget.code + 2 ≤ x.pcc.top := by decide +kernel
theorem witness_TrapEntry_unhandled : (at' 0).calm ∧ slotNo (at' 0).cur = 0 ∧ ((at' 0).slot 0).handles .illop = false ∧
    ((handler 0).slot 0).handles .mcheck = false ∧ ((at' 0).errRing.get [] 0).length < (at' 0).errCap :=
  ⟨State.calm_of_quiet _ (by decide +kernel), by decide +kernel⟩
theorem witness_TrapInstructions : (handler 5).reads (.nam 2#4) = some (BitVec.ofInt 64 (-7)) ∧ ((handler 5).slot 5).handles .trapi = true ∧
    ((handler 5).slot 5).handles .brk = true := by decide +kernel
theorem witness_ReturnAndSystemInstructions_return : let x := (handler 5 fun y => { y with inTrap := true, tpc := BitVec.ofNat 52 (2 ^ 40 + 0x7FFE) }).slot 5
    x.inTrap = true ∧ x.tpc.toNat % 2 = 0 ∧ x.pcc.base ≤ x.tpc.toNat ∧ x.tpc.toNat + 2 ≤ x.pcc.top ∧
    (2 ^ 40 + 0x7FFF) % 2 = 1 ∧ ¬ ((2 ^ 40 + 0x8000 : Nat) + 2 ≤ x.pcc.top) ∧ ((handler 5).slot 5).inTrap = false := by decide +kernel
theorem witness_ReturnAndSystemInstructions_system : (at' 0).calm ∧ (at' 5).reads (.nam 5#4) = some 2#64 ∧ (at' 5).reads (.nam 7#4) = some 64#64 ∧
    slotNo 5 ≠ 11 ∧ slotNo 5 ≠ 0 ∧ slotNo 11 = 11 ∧ slotNo 0 = 0 ∧ ((at' 0).slot 0).mcheck = none ∧
    ((at' 0).quad (quadOf (coreOf 0))).parting = none ∧ ((at' 0 fun x => { x with mcheck := some 0x40#64 }).slot 0).mcheck = some 0x40#64 ∧
    ((mailboxes true).core 0).mbxp &&& (2#64 : U64).extractLsb' 0 8 ≠ 0#8 ∧ ((at' 5).core 0).mbxp &&& (2#64 : U64).extractLsb' 0 8 = 0#8 ∧
    (at' 5).mayStop 5 = false ∧ (at' 5 fun x => { x with preempt := some 5 }).mayStop 5 = true :=
  ⟨State.calm_of_quiet _ (by decide +kernel), by decide +kernel⟩
/-- The request of an SVC of slot 5. -/
def request : SvcReq := { no := 1, gslot := 5, partid := 0#64, taskRec := 0#52, a := 1, b := 2, d := .nam 3#4, answer := none }
/-- A granule of scratchpad 0 that is to come back. -/
def granule : Granule := { key := 2 ^ 61 + 0x200, bytes := List.replicate 64 9#8, tags := [2 ^ 61 + 0x210] }
theorem witness_FirmwareAndSaves : let s := at' 5 fun x => { x with wait := Wait.svc, svc := some request }
    s.slots = [(5, s.slot 5)] ∧ (s.slot 5).svc = some request ∧ ((at' 5).slot 5).preempt = none ∧ slotNo 5 ≠ 11 ∧
    (let t := { (at' 5 fun x => { x with preempt := some 3 }) with now := 65539 }
     (t.slot 5).preempt = some 3 ∧ 3 + 65536 ≤ t.now ∧ (t.slot 5).admitted = false ∧ (t.slot 5).wait = Wait.none ∧ (t.slot 5).stopped = none) ∧
    granule.bytes.length = 64 := by decide +kernel
theorem witness_FirmwareAndSaves_save : let s := at' 5 fun x => { x with stopped := some none, preempt := some 3 }
    slotNo 5 ≠ 0 ∧ (s.slot 5).live = true ∧ (s.slot 5).wait = Wait.none ∧ (s.slot 5).stopped = some none ∧ (s.slot 5).borrow = none ∧
    s.flight = [] ∧ s.engines = [] ∧ (s.core (coreOf 5)).localQ = [] := by decide +kernel
theorem witness_FirmwareAndSaves_tinv : let s := at' 5 fun x => { x with user := false, n := [(1, 0x5000#64), (2, 0#64)] }
    s.calm ∧ s.reads (.nam 1#4) = some 0x5000#64 ∧ s.reads (.nam 2#4) = some 0#64 ∧ (s.slot 5).user = false ∧ s.partOfSlot 5 = 0 ∧
    (∃ w ∈ (walking 0).pageWalks, w.part = 0 ∧ w.tenant = 0 ∧ (w.page = 0x5000 / 2 ^ 16 ∨ w.found.covers (w.page * 2 ^ 16) 0x5000 = true)) :=
  ⟨State.calm_of_quiet _ (by decide +kernel), by decide +kernel⟩

/-! ## Witnesses: records, tasks and descriptors -/

/-- What an instruction on a record needs (R152). -/
def recNeed : Need := { spaces := [0, 1, 2], perm := [0, 1, 5, 3], align := 64 }
/-- `s` with the record at `off` in scratchpad 0: its join count, kind, walking bits, group and class. -/
def withRec (s : State) (off join kind walk group : Nat) (cls : Nat := 0) (dl : Nat := 5000) : State :=
  (s.writeAll (writesAt (2 ^ 61 + off) (toBytes 16 code.bits.toNat ++ toBytes 16 0 ++ toBytes 4 join ++ toBytes 4 (kind * 4 + cls) ++
    toBytes 8 dl ++ toBytes 4 100 ++ toBytes 4 walk ++ toBytes 8 group))).setTag (2 ^ 61 + off) true
/-- Slot `g`, and the record at 0x400 in its scratchpad, named by k1. -/
def record (join kind walk : Nat) (cls : Nat := 0) (g : Nat := 5) : State :=
  withRec (at' g fun x => { x with k := [(1, cap 2 0x400 0x1000), (2, cap 2 0x900 0x100)] }) 0x400 join kind walk 0 cls
/-- The record at 0x400 as a step reads it. -/
def recSeen (s : State) : Seen := s.object (2 ^ 61 + 0x400) true none (2 ^ 40 + 0x400) 64
/-- The record that the instruction at `s` has then. -/
def recAt (s : State) : Rec := recOf (recSeen s).bytes ((recSeen s).tags.getD 0 false) ((recSeen s).tags.getD 1 false) (recSeen s).loc.addr 0 0
/-- The record that WALK has after it has written hint `h`. -/
def walkAt (s : State) (h : Nat) : Rec :=
  recOf (putLe (recSeen s).bytes 52 4 (h % 2 ^ 32 ||| 2 ^ 16)) ((recSeen s).tags.getD 0 false) ((recSeen s).tags.getD 1 false) (recSeen s).loc.addr 0 0
/-- Whether the instruction of slot `s.cur` on the record at 0x400 finds its place, before it has read it; it has read it after that. -/
def placed (s : State) : Bool :=
  (s.slot s.cur).saw 0 == none && ((seen s [recSeen s]).slot s.cur).saw 0 == some (recSeen s) && okIs (place (s.cap 1#3) (s.cap 1#3).cursor 64 recNeed [1, 2, 4]) s.noteIssue fun p _ => decide (p = .mem (2 ^ 61 + 0x400) true none)

theorem witness_QueueingOfRecords_order : ([{ job := { deadline := 3 } }, { job := { deadline := 5 } }, { job := { deadline := 7 } }] : List Entry).Pairwise
    fun a b => a.job.deadline ≤ b.job.deadline := by decide +kernel
theorem witness_QueueingOfRecords_room : (base.cluster 0).hold = none ∧ (base.cluster 0).ring = [] ∧ (base.cluster 0).ready.length < 256 ∧
    ((base.modCluster 0 fun c => { c with hold := some ({}, 7) }).cluster 0).hold ≠ none := by decide +kernel
theorem witness_QueueingOfRecords_spawn : (record 0 0 0).calm ∧ placed (record 0 0 0) = true ∧ (record 0 0 0).reads (.nam 1#4) = some 9#64 ∧
    (record 0 0 0).recOk (recAt (record 0 0 0)) [0, 1] = true ∧ (recAt (record 0 0 0)).join = 0#32 ∧ (recAt (record 0 0 0)).hen = false ∧
    ((record 0 0 0).enqueue 0 { job := recAt (record 0 0 0) }).isSome = true ∧
    (record 0 2 0).recOk (recAt (record 0 2 0)) [0, 1] = false ∧ (recAt (record 2 0 0)).join ≠ 0#32 ∧
    (record 2 0 0).recOk (recAt (record 2 0 0)) [0, 1] = true ∧ (recAt (record 0 0 0x10304)).hen = true ∧
    (record 0 0 0x10304).recOk (recAt (record 0 0 0x10304)) [0, 1] = true :=
  ⟨State.calm_of_quiet _ (by decide +kernel), by decide +kernel⟩
theorem witness_QueueingOfRecords_walk : (record 0 0 0).recOk (walkAt (record 0 0 0) 9) [0, 1] = true ∧ (walkAt (record 0 0 0) 9).join = 0#32 ∧
    (walkAt (record 0 0 0) 9).hen = true ∧ (record 2 0 0).recOk (walkAt (record 2 0 0) 9) [0, 1] = true ∧ (walkAt (record 2 0 0) 9).join ≠ 0#32 ∧
    (record 0 2 0).recOk (walkAt (record 0 2 0) 9) [0, 1] = false ∧
    (let s := seen (record 0 0 0) [recSeen (record 0 0 0), recSeen (record 0 0 0)]
     s.calm ∧ (s.slot s.cur).saw 1 = some (recSeen (record 0 0 0))) :=
  ⟨by decide +kernel, by decide +kernel, by decide +kernel, by decide +kernel, by decide +kernel, by decide +kernel, State.calm_of_quiet _ (by decide +kernel),
    by decide +kernel⟩
/-- As `record` in slot 0, with helpers 0 to 10 taken but those in `is`. -/
def starter (is : List Nat := [3]) : State :=
  let s := record 0 0 0 0 0
  put 0 (s.slot 0) ((List.range 11).foldl (fun s i => if i ∈ is then s else s.setSlot i { live := true }) s)
/-- The helpers that START may take (R178). -/
def startable (s : State) (i : Nat) : Bool :=
  s.freeHelper i && !(i == 10 && (recAt s).deadline != BitVec.allOnes 64 && s.backgroundWaits 0)
theorem witness_StartLaunchJoin_start : let s := starter
    s.calm ∧ placed s = true ∧ slotNo s.cur = 0 ∧ s.recOk (recAt s) [0] = true ∧ (recAt s).join = 0#32 ∧ (recAt s).hen = false ∧
    startable s 3 = true ∧ (∀ j < 3, startable s j = false) ∧ (s.cluster 0).hold = none ∧
    (record 0 2 0 0 0).recOk (recAt (record 0 2 0 0 0)) [0] = false ∧ startable (record 0 2 0 0 0) 3 = true ∧
    ((s.modCluster 0 fun c => { c with hold := some ({}, 5) }).cluster 0).hold ≠ none ∧
    placed (starter []) = true ∧ (∀ j < 11, startable (starter []) j = false) ∧
    startable ((starter [10]).modCluster 0 fun c => { c with ready := [{ job := { deadline := BitVec.allOnes 64 } }] }) 10 = false :=
  ⟨State.calm_of_quiet _ (by decide +kernel), by decide +kernel⟩
theorem witness_StartLaunchJoin_launch : let s := record 0 0 0
    s.calm ∧ placed s = true ∧ slotNo s.cur ≠ 0 ∧ s.recOk (recAt s) [0] = true ∧ s.reads (.nam 1#4) = some 9#64 ∧ (9#64).toNat < 2 ^ 32 ∧
    2 ^ 32 ≤ (BitVec.ofInt 64 (-7)).toNat ∧ s.reads (.nam 2#4) = some (BitVec.ofInt 64 (-7)) ∧
    (at' 5 fun x => { x with n := [(1, 0#64)] }).reads (.nam 1#4) = some 0#64 ∧
    (s.enqueue 0 { job := recAt s, count := 9, gcount := 9 }).isSome = true ∧
    okIs (place (s.cap 2#3) (s.cap 2#3).cursor 8 { perm := [0], align := 8 } [1]) s.noteIssue (fun _ _ => true) = true ∧
    (s.enqueue 0 { job := recAt s, count := 0, gcount := 0, unread := some (2, 0x900, 5) }).isSome = true :=
  ⟨State.calm_of_quiet _ (by decide +kernel), by decide +kernel⟩
/-- Whether JOIN of slot 5 finds the place of its record, behind its release. -/
def joinPlaced (s : State) : Bool :=
  okIs (place (s.cap 1#3) (s.cap 1#3).cursor 64 recNeed [1, 2, 4]) (s.noteIssue.modSlot 5 fun x => { x with relHold := [] }) fun p _ =>
    isMem (2 ^ 61 + 0x400) p
theorem witness_StartLaunchJoin_join : (record 1 0 0).calm ∧
    joinPlaced (record 0 0 0) = true ∧ joinPlaced (record 1 0 0) = true ∧ joinPlaced (record 2 0 0) = true ∧ leAt ((record 2 0 0).bytes (2 ^ 61 + 0x400) 64) 32 4 = 2 ∧
    leAt ((record 1 0 0).bytes (2 ^ 61 + 0x400) 64) 32 4 = 1 ∧ leAt ((record 0 0 0).bytes (2 ^ 61 + 0x400) 64) 32 4 = 0 ∧
    okIs (readRecord { key := 2 ^ 61 + 0x400, keep := true, va := none, addr := 2 ^ 40 + 0x400 }) (record 1 0 0) (fun r w =>
      w.cur == 5 && ((w.released r 0).map fun q => q.cur) == some 5) = true :=
  ⟨State.calm_of_quiet _ (by decide +kernel), by decide +kernel⟩
theorem witness_EndOfTaskAndGangs_end : let s := at' 5
    s.flight = [] ∧ (s.slot 5).borrow = none ∧ (s.slot 5).phase = Phase.task ∧ (s.slot 5).group = 0#64 ∧ s.engines = [] ∧ slotNo 0 = 0 ∧
    slotNo 11 = 11 ∧ ((at' 11 fun x => { x with msg := some { id := 1, slot := 5, tid := 0, core := 0, ref := none, failed := false } }).slot 11).msg.isSome = true ∧
    1 ≤ slotNo 5 ∧ slotNo 5 ≤ 10 ∧ (s.slot 5).wait = Wait.none ∧ (s.cluster 0).hold = none ∧ (s.cluster 0).ready = [] ∧
    s.reads (.nam 1#4) = some 9#64 ∧ s.reads (.nam 7#4) = some 64#64 := by decide +kernel
/-- As `record`, and at 0x600 the header `hdr` and records of kind `kind` behind it. -/
def descriptor (kind : Nat) (hdr : List Byte) : State :=
  (withRec (withRec (record 0 0 0) 0x640 0 kind 0 (if kind = 2 then 0 else 0x40) 0 50000) 0x680 0 kind 0 (if kind = 2 then 0 else 0x40) 0 60000).writeAll (writesAt (2 ^ 61 + 0x600) hdr)
    |>.modSlot 5 fun x => { x with k := [(1, cap 2 0x600 0x1000)] }
/-- As `descriptor`, whose header and records slot 5 has read, in the first `k` steps, and then `more`. -/
def described (kind : Nat) (hdr : List Byte) (k : Nat) (more : List Seen := []) : State :=
  let s := descriptor kind hdr
  seen s ([s.object (2 ^ 61 + 0x600) true none 0x600 64, s.object (2 ^ 61 + 0x640) true none (2 ^ 40 + 0x640) 64,
    s.object (2 ^ 61 + 0x680) true none (2 ^ 40 + 0x680) 64].take k ++ more)
/-- What a descriptor needs (R193). -/
def descNeed : Need := { spaces := [0, 1, 2], perm := [0, 3], align := 64 }
theorem witness_EndOfTaskAndGangs_header : let s := descriptor 2 (toBytes 8 2)
    s.calm ∧ (s.slot s.cur).saw 0 = none ∧
    okIs (place (s.cap 1#3) 0x600 64 descNeed [1]) s.noteIssue (fun p _ => decide (p = .mem (2 ^ 61 + 0x600) true none)) = true :=
  ⟨State.calm_of_quiet _ (by decide +kernel), by decide +kernel⟩
theorem witness_EndOfTaskAndGangs_records : ∀ i ∈ [1, 2], let s := described 2 (toBytes 8 2) i
    let h := (descriptor 2 (toBytes 8 2)).object (2 ^ 61 + 0x600) true none 0x600 64
    (s.slot s.cur).saw 0 = some h ∧ descriptorCount 2 4 h.bytes = 2 ∧
    okIs (checkCap (s.cap 1#3) 0x600 (64 * 3) descNeed) s.noteIssue (fun v _ => v == 0x600) = true ∧
    (∀ j < i, ((s.slot s.cur).saw j).isSome = true) ∧ (s.slot s.cur).saw i = none ∧
    okIs (locate (s.who s.cur) (s.cap 1#3).space (0x600 + 64 * i) 64 [1]) s.noteIssue (fun p _ => isMem (2 ^ 61 + 0x600 + 64 * i) p) = true := by
  decide +kernel
theorem witness_EndOfTaskAndGangs_gang : let s := described 2 (toBytes 8 2) 3
    s.calm ∧ okIs (descriptorAt inStep (s.cap 1#3) 2 4) s.noteIssue (fun p t =>
      t.gangOk p.1 p.2 && p.2.length == 2 && leAt p.1 2 2 == 0 &&
      (t.enqueue 0 { job := p.2.headD {}, gcount := 2, gang := p.2, pipes := [Cap.null] }).isSome) = true ∧
    okIs (descriptorAt inStep ((described 0 (toBytes 8 2) 3).cap 1#3) 2 4) (described 0 (toBytes 8 2) 3).noteIssue (fun p t => !t.gangOk p.1 p.2) = true :=
  ⟨State.calm_of_quiet _ (by decide +kernel), by decide +kernel⟩
/-- What the steps of a GANG with a pipe of space `sp` have read. -/
def piped (sp : Nat) : State :=
  described 2 (toBytes 2 2 ++ toBytes 6 1) 3 [{ bytes := toBytes 2 2 }, { bytes := toBytes 16 (cap sp 0x100 0x1000).bits.toNat }]
theorem witness_EndOfTaskAndGangs_pipes : ∀ sp ∈ [0, 2], let s := piped sp
    okIs (descriptorAt inStep (s.cap 1#3) 2 4) s.noteIssue (fun p t => t.gangOk p.1 p.2 && p.2.length == 2 && leAt p.1 2 2 == 1 &&
      okIs (loadPool 3 (p.2.headD {}).code 1) t (fun c _ => c.tag && c.space == sp)) = true := by decide +kernel
theorem witness_EndOfTaskAndGangs_submit : let s := descriptor 0 (toBytes 8 2 ++ toBytes 8 0x40)
    okIs (descriptorAt (fun _ e => e) (s.cap 1#3) 1 64) (seen s [s.object (2 ^ 61 + 0x600) true none 0x600 64]).noteIssue (fun p t => t.submitOk p.1 p.2 && (t.cluster 0).hold.isNone &&
      (t.submitStep 0 0 0 5 p.1 p.2).2.cur == 5 && ((t.modCluster 0 fun c => { c with hold := some ({}, 5) }).cluster 0).hold.isSome) = true := by
  decide +kernel
theorem witness_EndOfTaskAndGangs_self : slotNo 5 ≠ 0 ∧ slotNo 5 ≠ 11 ∧ ((at' 5).slot 5).phase = Phase.task ∧ slotNo 11 = 11 ∧
    (capFor 0 43 0x40 0x40 0x80).isSome = true ∧ (at' 5 fun x => { x with taskRec := 0x40 }).reads (.nam 1#4) = some 9#64 := by decide +kernel

/-! ## Witnesses: futures, rings and barriers -/

/-- What an instruction on a future or a barrier needs, and on a ring. -/
def objNeed (a : Nat) : Need := { spaces := [0, 1, 2], perm := [0, 1, 5], align := a }
/-- Slot 5, and an object of bytes `bs` at 0x800 named by k1, the record at 0x400 named by k2. -/
def object (bs : List Byte) : State := ((record 0 0 0).writeAll (writesAt (2 ^ 61 + 0x800) bs)).modSlot 5 fun x =>
  { x with k := [(1, cap 2 0x800 0x1000), (2, (capFor 2 0x7F 0x400 0x400 0x4000).getD Cap.null)] }
/-- Whether slot 5 finds the place of its object, at its issue and behind a release. -/
def objPlaced (s : State) (a : Nat) : Bool :=
  let finds := fun (t : State) => okIs (place (s.cap 1#3) (s.cap 1#3).cursor a (objNeed a) [1, 2, 4]) t fun p _ => isMem (2 ^ 61 + 0x800) p
  finds s.noteIssue && finds (s.noteIssue.modSlot 5 fun x => { x with relHold := [] })
/-- The first word of the future at 0x800. -/
def futureOf (s : State) : Nat := leAt (s.bytes (2 ^ 61 + 0x800) 16) 0 8
/-- A future of word `lo`. -/
def future (lo : Nat) : State := object (toBytes 8 lo ++ toBytes 8 77)
theorem witness_Futures : (future 0).calm ∧ (future 0).reads (.nam 2#4) = some (BitVec.ofInt 64 (-7)) ∧ objPlaced (future 0) 16 = true ∧
    objPlaced (future 0x401) 16 = true ∧ objPlaced (future 2) 16 = true ∧ objPlaced (future 3) 16 = true ∧ futureOf (future 0) = 0 ∧
    futureOf (future 0x401) = 0x401 ∧ futureOf (future 2) = 2 ∧ futureOf (future 3) = 3 ∧
    okIs (place ((future 0).cap 2#3) ((future 0).cap 2#3).cursor 64 recNeed [1, 2, 4])
      (after (place ((future 0).cap 1#3) ((future 0).cap 1#3).cursor 16 (objNeed 16) [1, 2, 4]) ((future 0).noteIssue.modSlot 5 fun x => { x with relHold := [] }))
      (fun p _ => isMem (2 ^ 61 + 0x400) p) = true :=
  ⟨State.calm_of_quiet _ (by decide +kernel), by decide +kernel⟩
/-- A ring of `size` entries and counters. -/
def ring (size claim commit awaited retire : Nat) : State :=
  (object (toBytes 16 (cap 2 0x1000 0x1000).bits.toNat ++ toBytes 8 size ++ toBytes 8 claim ++ toBytes 8 commit ++ toBytes 8 awaited ++ toBytes 8 retire)).setTag
    (2 ^ 61 + 0x800) true
/-- The header of the ring. -/
def ringIn (s : State) : Ring := ringOf (s.bytes (2 ^ 61 + 0x800) 64)
theorem witness_Rings : (ring 8 3 2 1 1).calm ∧ slotNo (ring 8 3 2 1 1).cur ≠ 11 ∧ objPlaced (ring 8 3 2 1 1) 64 = true ∧
    (ring 8 3 2 1 1).parked = [] ∧ (ringIn (ring 8 3 2 1 1)).ok = true ∧ (ring 8 3 2 1 1).reads (.nam 5#4) = some 2#64 ∧
    (ringIn (ring 8 3 2 1 1)).claim + 2 ≤ (ringIn (ring 8 3 2 1 1)).retire + (ringIn (ring 8 3 2 1 1)).size ∧
    (ringIn (ring 8 9 2 1 1)).retire + (ringIn (ring 8 9 2 1 1)).size < (ringIn (ring 8 9 2 1 1)).claim + 2 ∧ (ringIn (ring 8 9 2 1 1)).ok = true ∧
    (ringIn (ring 7 5 1 1 1)).ok = false ∧ (ringIn (ring 8 3 2 1 1)).size < (BitVec.ofInt 64 (-7)).toNat ∧
    2 ^ 64 ≤ (ringIn (ring 8 (2 ^ 64 - 2) (2 ^ 64 - 3) (2 ^ 64 - 4) (2 ^ 64 - 4))).claim + 2 :=
  ⟨State.calm_of_quiet _ (by decide +kernel), by decide +kernel⟩
theorem witness_Rings_await_and_retire : let h := ringIn (ring 8 6 5 3 2)
    h.ok = true ∧ 2 ≤ h.commit - h.awaited ∧ (ringIn (ring 8 3 2 1 1)).commit - (ringIn (ring 8 3 2 1 1)).awaited < 2 ∧ h.retire = 2 ∧
    h.awaited < h.retire + 2 ∧ (let g := ringIn (ring 8 6 6 6 2); g.ok = true ∧ g.retire = 2 ∧ 2 + 2 ≤ g.awaited) ∧
    (ring 8 6 6 6 2).reads (.nam 5#4) = some 2#64 ∧ objPlaced (ring 8 6 6 6 2) 64 = true ∧
    (let g := ringIn (ring 8 6 6 6 1); g.ok = true ∧ g.retire < 2 ∧ 2 + 2 ≤ g.awaited) := by decide +kernel
theorem witness_Rings_commit : let h := ringIn (ring 8 6 2 1 1)
    h.ok = true ∧ h.commit = 2 ∧ 2 + 2 ≤ h.claim ∧ objPlaced (ring 8 6 2 1 1) 64 = true ∧
    (let g := ringIn (ring 8 6 1 1 1); g.ok = true ∧ g.commit < 2 ∧ 2 + 2 ≤ g.claim) ∧ (ringIn (ring 8 3 2 1 1)).claim < 2 + 2 := by decide +kernel
/-- A request of slot 7 parked at the barrier until phase `ph` ends. -/
def parkedOf (ph : Nat) : Parked := { slot := 7, key := 2 ^ 61 + 0x800, addr := 2 ^ 40 + 0x800, op := .bwait ph 0 }
theorem witness_Rings_init : let s := object []
    let b := s.cap 2#3
    s.calm ∧ slotNo s.cur ≠ 11 ∧ s.parkedAt (2 ^ 61 + 0x800) = [] ∧ (((capFor 2 0x2F 0x800 0x800 0x4000).getD Cap.null).has 4 = false) ∧
    (let c := (capFor 2 0x7F 0x800 0x800 0x4000).getD Cap.null
     c.has 4 = true ∧ okIs (place c c.cursor 64 { spaces := [0, 1, 2], perm := [0, 1, 5], align := 64 } [1, 2, 4]) s.noteIssue
       (fun p _ => decide (p = .mem (2 ^ 61 + 0x800) true none)) = true) ∧
    b.tag = true ∧ b.space ≤ 2 ∧ b.has 0 = true ∧ b.has 1 = true ∧ b.has 6 = true ∧
    b.cursor % 64 = 0 ∧ b.base ≤ b.cursor ∧ b.cursor + 64 * 2 ^ (3#5).toNat ≤ b.top ∧ ¬ (b.cursor + 64 * 2 ^ (24#5).toNat ≤ b.top) ∧
    { s with parked := [parkedOf 1] }.parkedAt (2 ^ 61 + 0x800) ≠ [] ∧ (cap 3 0x40 0x400).space = 3 ∧ (cap 2 0x400 0x400).has 6 = false ∧
    ((capFor 2 0x7F 0x410 0x400 0x4000).getD Cap.null).cursor % 64 ≠ 0 :=
  ⟨State.calm_of_quiet _ (by decide +kernel), by decide +kernel⟩
theorem witness_Rings_init_page : let s := (with' (with' capStore 0x110000 1 0x1F) 0x110008 1 0x1F)
    let c := (capFor 0 0x7F 0x5000 0x5000 0x6000).getD Cap.null
    c.has 4 = true ∧ okIs (place c c.cursor 64 { spaces := [0, 1, 2], perm := [0, 1, 5], align := 64 } [1, 2, 4]) s.noteIssue
      (fun p _ => match p with | .mem _ keep _ => !keep | _ => false) = true := by decide +kernel
/-- A barrier. -/
def barrier (phase aexp acnt bexp bcnt : Nat) : State := object ({ phase := phase, aexp := aexp, acnt := acnt, bexp := bexp, bcnt := bcnt } : Bar).bytes
/-- The barrier in memory. -/
def barIn (s : State) : Bar := barOf (s.bytes (2 ^ 61 + 0x800) 16)
theorem witness_Barriers : (barrier 2 3 1 0 0).calm ∧ objPlaced (barrier 2 3 1 0 0) 16 = true ∧ slotNo (barrier 2 3 1 0 0).cur ≠ 11 ∧
    (barrier 2 3 1 0 0).reads (.nam 5#4) = some 2#64 ∧ (barIn (barrier 2 3 1 0 0)).phase = 2 ∧ (barIn (barrier 2 3 1 0 0)).aexp = 3 ∧
    (barIn (barrier 2 3 1 0 0)).acnt ≠ 3 ∧ (barIn (barrier 9 0 0 0 0)).aexp = 0 ∧ (barIn (barrier 9 1 0 0 0)).phase ≠ 2 ∧
    (barIn (barrier 9 2 2 0 0)).acnt = (barIn (barrier 9 2 2 0 0)).aexp ∧ 2 ^ 40 ≤ (barIn (barrier 9 2 1 (2 ^ 40 - 1) 0)).bexp + 2 :=
  ⟨State.calm_of_quiet _ (by decide +kernel), by decide +kernel⟩
theorem witness_Barriers_arrive : (let o := barIn (barrier 2 3 2 0 2); o.acnt + 1 = o.aexp ∧ o.bcnt ≤ o.bexp + 2) ∧
    (let o := barIn (barrier 2 3 2 0 3); o.acnt + 1 = o.aexp ∧ o.bexp + 2 < o.bcnt) ∧ 65535 < (BitVec.ofInt 64 (-7)).toNat := by decide +kernel
theorem witness_Barriers_parked : let s := { (barrier 2 3 1 0 0).setSlot 7 { slot with wait := Wait.parked, preempt := some 3 } with parked := [parkedOf 1] }
    s.parkedPoison (parkedOf 1) = none ∧ (barIn s).aexp ≠ 0 ∧ (barIn s).acnt ≤ (barIn s).aexp ∧ (barIn s).phase ≠ 1 % 2 ^ 16 ∧ (barIn s).phase = 2 % 2 ^ 16 ∧ s.mayStop 7 = true ∧
    (let u : State := { s with poison := [((2 ^ 61 + 0x800) / 64, true)] }
     (u.poisonIn (2 ^ 61 + 0x800) 16).isSome = true ∧
     ((State.modSlot { u with parked := [] } 7 fun x => { x with wait := Wait.none }).takeTrap 7 .mcheck (BitVec.ofNat 64 (physOf (2 ^ 61 + 0x800))) 4).isSome = true) := by
  decide +kernel

/-! ## Witnesses: vectors and moments -/

/-- `l` packed into fields of `w` bits. -/
def packed (w : Nat) (l : List Nat) : Nat := l.foldr (fun a t => a + 2 ^ w * t) 0
/-- Slot 5 with one lane group: v1 counts, m1 and m2 hold moments, `f` changes the rest. -/
def lanes (f : Slot → Slot := id) : State := at' 5 fun x => f { x with
  groups := 1, minGrp := 1, vm := [(1, 0xAAAA#256)], x := [(7, 0x3F000000#64)], v := [(1, BitVec.ofNat 8192 (packed 32 (List.range 16)))]
  m := [(1, BitVec.ofNat 16384 (packed 64 (List.replicate 16 0x3F80000040000000))), (2, BitVec.ofNat 16384 (packed 64 (List.replicate 16 0xBF80000040000000)))] }
theorem witness_VectorClaims : (at' 5 fun x => { x with n := [(1, 3#64), (2, 2#64)] }).reads (.nam 1#4) = some 3#64 ∧
    (at' 5 fun x => { x with n := [(1, 16#64), (2, 1#64)] }).reads (.nam 1#4) = some 16#64 ∧ (at' 5).reads (.nam 7#4) = some 64#64 ∧
    ((at' 5).slot 5).groups = 0 ∧ ((lanes).slot 5).groups = 1 ∧ (at' 5).freeGroups ((at' 5).partOf 0) 0 = 16 ∧ (lanes).freeGroups ((lanes).partOf 0) 0 = 15 ∧
    (put 5 slot (put 6 { live := true, groups := 15 })).freeGroups 0 0 = 1 ∧ (put 5 { slot with groups := 1 } (put 6 { live := true, groups := 12 })).freeGroups 0 0 = 3 := by
  decide +kernel
theorem witness_VectorIntegerResults : ((lanes).slot 5).groups ≠ 0 ∧ etBits 2#3 = 32 := by decide +kernel
theorem witness_VectorFloatResults : ((lanes).slot 5).groups ≠ 0 ∧ etBits 6#3 = 32 ∧ etFmt 6#3 = fp32 := by decide +kernel
theorem witness_VectorFloatResults_rounding : roundAt { mode := 0 } false 11 0 2 false = (3, true) ∧ roundAt { mode := 1 } true 11 0 2 false = (2, true) ∧
    roundAt { mode := 2 } true 11 0 2 false = (2, true) ∧ roundAt { mode := 3 } true 11 0 2 false = (3, true) ∧
    roundAt { mode := 4 } false 10 0 2 false = (3, true) ∧ roundAt { mode := 0 } false 12 0 2 false = (3, false) := by decide +kernel
theorem witness_VectorMasks : ((lanes).slot 5).groups ≠ 0 ∧ etBits 3#3 = 64 := by decide +kernel
theorem witness_VectorConversions : ((lanes).slot 5).groups ≠ 0 ∧ ((lanes).slot 5).count (max (etBits 1#3) (etBits 6#3)) = 16 ∧
    (((lanes).slot 5).count 32 + 31) / 32 = 1 := by decide +kernel
theorem witness_VectorPermutesAndTables : (lanes).reads (.nam 5#4) = some 2#64 ∧ (lanes).reads (.nam 7#4) = some 64#64 ∧
    ((lanes).slot 5).count 32 = 16 ∧ ((lanes).slot 5).enabled noPfx 32 2 = true ∧
    ((lanes).slot 5).enabled { noPfx with me := true, vm := 1#3 } 32 2 = false := by decide +kernel
/-- A table header at 0x400, of `n` intervals from -100 to 100, named by k1. -/
def table (n : Nat) : State := ((lanes fun x => { x with k := [(1, cap 2 0x400 0x1000)] }).writeAll (writesAt (2 ^ 61 + 0x400)
  (toBytes 4 n ++ toBytes 4 0xC2C80000 ++ toBytes 4 0x42C80000 ++ toBytes 4 0x3CA3D70A ++ toBytes 16 1 ++ List.replicate 20 0#8)))
theorem witness_VectorPermutesAndTables_table : let s := table 4
    (s.slot s.cur).groups ≠ 0 ∧ (s.cap 1#3).cursor = 0x400 ∧
    okIs (checkCap (s.cap 1#3) 0x400 32 { perm := [0], align := 16 }) s.noteIssue (fun v t => v == 0x400 && decide (t = s.noteIssue)) = true ∧
    okIs (locate (s.who s.cur) (s.cap 1#3).space 0x400 16 [1]) s.noteIssue (fun p t => isMem (2 ^ 61 + 0x400) p &&
      okIs (locate (s.who s.cur) (s.cap 1#3).space 0x410 16 [1]) t (fun o u => isMem (2 ^ 61 + 0x410) o && decide (u.slot s.cur = s.noteIssue.slot s.cur))) =
      true := by decide +kernel
/-- The places of the 16 elements of 4 bytes from 0x100, and of 8 bytes. -/
def spread (load : Bool) (n : Nat) : Bool :=
  okIs (elemPlaces (cap 2 0x100 0x1000) n load ((List.range 16).map fun j => some ((0x100 : Int) + n * j))) (lanes).noteIssue fun ps _ =>
    ps.all fun e => e.all fun x => match x.1 with | .mem _ _ _ => true | _ => false
theorem witness_VectorAndMomentMemory : (lanes).calm ∧ ((lanes).slot 5).groups ≠ 0 ∧ spread true 4 = true ∧ spread false 4 = true ∧
    spread true 8 = true ∧ spread false 8 = true ∧ (lanes).reads (.nam 5#4) = some 2#64 :=
  ⟨State.calm_of_quiet _ (by decide +kernel), by decide +kernel⟩
theorem witness_VectorAndMomentMemory_negative : fpLt (Fp.ofBits fp32 0xBF800000) (.fin false 0 0) = true ∧
    fpLt (Fp.ofBits fp32 0x3F800000) (.fin false 0 0) = false ∧ 0 ∈ (List.range (16 * ((lanes).slot 5).groups)).filter (((lanes).slot 5).enabled noPfx 32) := by
  decide +kernel
/-- The variance that a rule gives, below zero. -/
def belowZero (r : MRes) : Bool := fpLt (Fp.ofBits fp32 r.var) (.fin false 0 0)
theorem witness_MomentRegisters : ((lanes).slot 5).groups ≠ 0 ∧ isRho 0x3F000000 = true ∧ isRho 0x40000000 = false ∧
    (let e := fun r => ((lanes).slot 5).moment r 0
     belowZero (maddRule none (e 1) (e 1) 0#6) = false ∧ belowZero (maddRule none (e 1) (e 2) 0#6) = false ∧
     belowZero (maddRule none (e 2) (e 2) 0#6) = true ∧
     (match (maddRule none (e 2) (e 2) 0#6).ref with | some (u, w) => residue (maddRule none (e 2) (e 2) 0#6).var u w | none => false) = false) := by
  decide +kernel
theorem witness_MomentRegisters_residue : (∀ v ∈ [0xB5000000, 0x3F800000, 0], ∃ n m e, Fp.ofBits fp32 v = .fin n m e ∧ -200 ≤ e) ∧
    residue 0xB5000000 0x3F800000 0x3F800000 = true ∧ residue 0xB6000001 0x3F800000 0x3F800000 = false ∧ (∃ n, Fp.ofBits fp32 0x7F800000 = .inf n) :=
  ⟨by
    intro v hv
    fin_cases hv <;> exact ⟨_, _, _, rfl, by decide +kernel⟩, by decide +kernel, by decide +kernel, _, rfl⟩
theorem witness_MomentRegisters_set : (∀ i ∈ List.range 16, fpLt (Fp.ofBits fp32 (((lanes).slot 5).elem 1#5 32 i)) (.fin false 0 0) = false) ∧
    fpLt (Fp.ofBits fp32 ((lanes fun x => { x with v := [(1, 0xBF800000#8192)] }).slot 5 |>.elem 1#5 32 0)) (.fin false 0 0) = true := by decide +kernel

/-! ## Witnesses: tiles and the matrix array -/

/-- A ZDESC of `r` rows and `c` columns in format `fmt`. -/
def desc (fmt r c : Nat) (pair : Bool := false) : U64 := BitVec.ofNat 64 (fmt + (r - 1) * 16 + (c - 1) * 2 ^ 11 + if pair then 2 ^ 23 else 0)
/-- Slot 5, and a quadrant with tiles 1, 5, 7 and 13 ready, 4 filling, 6 draining and the others empty, changed by `f`. -/
def quadOne (f : Quad → Quad := id) : State :=
  (filled.modQuad 0 fun q => f { q with
    zdesc := [(0, desc 2 4 4), (1, desc 0 4 8), (2, desc 0 4 8), (3, desc 15 2 8), (5, desc 0 4 8 true), (7, desc 0 4 64)]
    tiles := [(1, { state := .ready }), (4, { state := .filling }), (5, { state := .ready }), (6, { state := .draining }), (7, { state := .ready }),
      (13, { state := .ready, bytes := [(1, 0xBF#8)] })]
    accs := [(1, { moment := true, momentI := true }), (2, { validI := false })]
    activeI := some { fmt := 0, k := 8, n := 6, sparse := false, mant := 1 } }).modSlot 5 fun x => { x with n := (1, 48#64) :: x.n, k := [(1, cap 2 0x400 0x1000)] }
/-- Tile `z` of quadrant 0. -/
def tileOf (s : State) (z : Nat) : TileReg := (s.quad 0).tile z
theorem witness_TileRegisters : (quadOne).calm ∧ quadOf (coreOf 5) = 0 ∧ (tileOf (quadOne) 1).state = .ready ∧ (tileOf (quadOne) 2).state = .empty ∧
    (tileOf (quadOne) 4).state = .filling ∧ (tileOf (quadOne) 6).state = .draining ∧ (tileOf (quadOne) 1).since ≠ some (quadOne).now ∧
    descLegal (((quadOne).quad 0).desc 3) 3 = false ∧ (quadOne).reads (.nam 1#4) = some 48#64 ∧
    okIs (tileRows true 0 2 1#3 48#64) (quadOne).noteIssue (fun p _ => !p.2.2.isEmpty) = true ∧
    okIs (tileRows false 0 1 1#3 48#64) (quadOne).noteIssue (fun p _ => !p.2.2.isEmpty) = true :=
  ⟨State.calm_of_quiet _ (by decide +kernel), by decide +kernel⟩
theorem witness_TileRegisters_stream : let s := with' ((quadOne).modSlot 5 fun x => { x with n := (1, 0#64) :: x.n }) (2 ^ 61 + 0x400) 8 0
    okIs (tileRows true 0 2 1#3 0#64) s.noteIssue (fun p t => okIs (streamPlaces p.1 p.2.1 (s.cap 1#3)) t fun _ _ => true) = true := by decide +kernel
/-- The issuer of a command: slot 5. -/
def issuer : Issuer := { slot := 5, tid := 0, pc := 2 ^ 40 + 0x1000, tenant := 0, part := 0, group := 0#64 }
theorem witness_TileRegisters_events : let j : ZldJob := { z := 4, who := issuer, instr := 3, expand := none }
    let s := quadOne fun q => { q with zlds := [j] }
    (s.quad 0).zlds = [j] ∧ j.bad = none ∧ s.flight = [] ∧ s.owed j.instr = false ∧ (tileOf s 4).since ≠ some s.now ∧ (tileOf s 6).state = .draining ∧
    (tileOf s 6).since ≠ some s.now ∧ (s.quad (s.lead 0)).queue = [] ∧
    (let t := quadOne fun q => { q with leaving := some (0, 1), tiles := [] }
     (t.quad 0).leaving = some (0, 1) ∧ t.tenantClass (t.partOf 0) 0 ≠ 2 ∧ (t.quad 0).keep.get false 0 = false ∧ t.commandsOn 0 = false ∧ t.poison = [] ∧ t.savedTiles = []) := by decide +kernel
/-- Command `c` of slot 5 in quadrant 0. -/
def command (c : Cmd) : CmdEntry := { cmd := c, who := issuer, quad := 0 }
theorem witness_MatrixIssueAndFusion_issue : let s := quadOne
    let full := quadOne fun q => { q with queue := List.replicate 16 (command .wswap) }
    (s.quad (s.lead 0)).queue.length < 16 ∧ ¬ (full.quad (full.lead 0)).queue.length < 16 ∧ ((s.quad 0).acc 3).validI = true ∧
    ((s.quad 0).acc 2).validI = false ∧ descLegal (desc 0 4 8) 1 = true ∧ (tileOf s 1).since ≠ some s.now ∧ (shapeOf (desc 0 4 8)).fmt = 0 ∧
    (shapeOf (desc 0 4 8)).cols ≤ 64 ∧ descSparse (desc 0 4 8) = false ∧ (tileOf s 2).state = .empty ∧ descPair (desc 0 4 8) = ((s.quad 0).acc 3).momentI ∧
    (s.slot 5).mode noPfx ≠ 5 ∧ s.reads (.nam 1#4) = some 48#64 := by decide +kernel
theorem witness_MatrixIssueAndFusion_mma : let s := quadOne
    s.kParts 0 = [0] ∧ s.nParts 0 = [0] ∧ s.planesOf 0 = [(0, 0)] ∧ descLegal ((s.quad 0).desc 1) 1 = true ∧ ((s.quad 0).acc 3).momentI = false ∧
    ((s.quad 0).acc 1).momentI = true ∧ (shapeOf ((s.quad 0).desc 1)).cols = 8 ∧ descPair ((s.quad 0).desc 5) = true ∧
    descLegal ((s.quad 0).desc 5) 5 = true ∧ ((quadOne fun q => { q with activeI := none }).quad 0).activeI = none := by decide +kernel
/-- Quadrants 0 and 1 joined, planes of 64 columns in both. -/
def joined : State :=
  let s := quadOne fun q => { q with fused := 3#4, activeI := some { fmt := 0, k := 64, n := 6, sparse := false, mant := 1 } }
  s.modQuad 1 fun _ => s.quad 0
theorem witness_MatrixIssueAndFusion_joined : (joined.kParts 0).length * (joined.nParts 0).length = 2 ∧
    (∀ l ∈ joined.kParts 0, descLegal ((joined.quad l).desc 7) 7 = true ∧ (tileOf joined 7).state = .ready) ∧
    (∀ t ∈ joined.nParts 0, ((joined.quad t).acc 3).validI = true ∧ ((joined.quad t).acc 3).momentI = false) := by decide +kernel
theorem witness_MatrixIssueAndFusion_fuse : let s := quadOne.modSlot 5 fun x => { x with user := false, n := [(1, 3#64), (2, 7#64)] }
    s.reads (.nam 1#4) = some 3#64 ∧ s.reads (.nam 2#4) = some 7#64 ∧ 3#64 ∈ [3#64, 12#64, 5#64, 10#64, 15#64] ∧ 7#64 ∉ [3#64, 12#64, 5#64, 10#64, 15#64] ∧
    (s.slot 5).user = false ∧ ((at' 5).slot 5).user = true ∧ (∀ i ∈ [0, 1], s.ownsQuad (s.partOfSlot 5) i = true ∧ (s.quad i).queue = [] ∧ (s.quad i).fused = 0#4) ∧
    ∀ i ∈ [0, 1], (joined.quad i).fused = (3#64 : U64).extractLsb' 0 4 := by decide +kernel
theorem witness_MatrixExecution : ∀ c ∈ [Cmd.wswap, .yzero 1 true, .ymov 2 1, .wload 1 (desc 0 4 8), .mma 3 1 [desc 0 4 8] false,
      .mma 1 5 [desc 0 4 8 true] true, .ydrain 1 3 (desc 0 4 8) 0x3FC00000#32 false false 2 true []],
    let s := quadOne fun q => { q with queue := [command c, command .wswap] }
    (s.quad 0).queue = command c :: [command .wswap] ∧ s.poison = [] ∧ (command c).quad = 0 ∧ s.lead 0 = 0 ∧ s.quiet [command c] = true ∧
    ∀ q ∈ s.setQuads 0, (s.quad q).residue = false := by decide +kernel
theorem witness_MatrixExecution_variance : negativeIn (shapeOf (desc 0 4 8 true)) [] = false ∧
    negativeIn (shapeOf (desc 0 4 8 true)) (tileOf (quadOne) 13).bytes = true ∧ ((quadOne).quad 0).fused = 0#4 := by decide +kernel

/-! ## Witnesses: engine cards -/

/-- The bytes of a card of `kind` with roles 1 and 2, first body word `n` and capabilities `a` and `b`. -/
def cardBytes (kind n : Nat) (a b : Cap) : List Byte :=
  toBytes 16 (kind + 256 + 2048) ++ toBytes 16 n ++ toBytes 16 a.bits.toNat ++ toBytes 16 b.bits.toNat
/-- A COPY of 256 bytes within vaults. -/
def copyCard : Card := cardOf (cardBytes 0 256 (cap 1 0x2000 0x1000) (cap 1 0x4000 0x1000)) (cap 1 0x2000 0x1000) (cap 1 0x4000 0x1000)
/-- Slot `g`, and the bytes of `copyCard` at 0x800, named by k1. -/
def cardHere (g : Nat := 5) (f : Slot → Slot := id) : State :=
  (((at' g fun x => f { x with k := [(1, cap 2 0x800 0x1000)] }).writeAll (writesAt (2 ^ 61 + 0x800) copyCard.bytes)).setTag (2 ^ 61 + 0x820) true).setTag (2 ^ 61 + 0x830) true
/-- Whether an instruction on the card finds its place. -/
def cardPlaced (s : State) (perm bits : List Nat) : Bool :=
  okIs (cardAt (s.cap 1#3) perm bits) s.noteIssue fun p _ => p.1 == 2 ^ 61 + 0x800 && p.2.1 && isMem (2 ^ 61 + 0x800) p.2.2.1 && p.2.2.2 == 2 ^ 40 + 0x800
theorem witness_CardIssue : (cardHere).calm ∧ slotNo 5 ≠ 11 ∧ slotNo 11 = 11 ∧ cardPlaced (cardHere) [0, 1, 3] [1, 2] = true ∧
    ((cardHere).engine (clusterOf (coreOf 5))).queues = [] ∧ (0, Instr.copy 1#3 false false 0#4) ∈
      [(0, Instr.copy 1#3 false false 0#4), (1, .xform 1#3 false false 0#4), (2, .coll 1#3 false false 0#4), (3, .trace 1#3 false false 0#4)] ∧
    ((cardHere).slot 5).saw 0 = none :=
  ⟨State.calm_of_quiet _ (by decide +kernel), by decide +kernel⟩
/-- As `cardHere`, and slot 5 has read the card. -/
def cardSeen : State := seen cardHere [cardHere.object (2 ^ 61 + 0x800) true none (2 ^ 40 + 0x800) 64]
theorem witness_CardIssue_queues : let full := cardSeen.modEngine 0 fun e => { e with queues := [(0, List.replicate 32 { copyCard with issuer := none })] }
    cardSeen.calm ∧ full.calm ∧ (cardSeen.slot 5).saw 0 = some (cardHere.object (2 ^ 61 + 0x800) true none (2 ^ 40 + 0x800) 64) ∧
    ((cardSeen.engine 0).queues.get [] (cardSeen.classOf 5)).length < 32 ∧ 32 ≤ ((full.engine 0).queues.get [] (full.classOf 5)).length ∧
    (cardSeen.slot 5).group = 0#64 ∧ (cardSeen.noteIssue.liveNow 0 0 0#64 1 0).homeHeld (homeOf (2 ^ 61 + 0x800)) = false :=
  ⟨State.calm_of_quiet _ (by decide +kernel), State.calm_of_quiet _ (by decide +kernel), by decide +kernel⟩
theorem witness_CardIssue_observation : cardPlaced (cardHere) [0] [1] = true ∧ ((cardHere).slot 5).errs = [] ∧ ((cardHere).slot 5).tile? = none ∧
    (let s := cardHere 5 fun x => { x with errs := [0x1234#64, 5#64], ten := true, tbase := BitVec.ofNat 39 (2 ^ 27) }
     (s.slot 5).handles .engErr = true ∧ cardPlaced s [0] [1] = true) ∧
    ∃ c ∈ ((cardHere).modEngine 0 fun e => { e with running := [copyCard] }).cardsOf 5, c.addr = 2 ^ 40 + 0x800 := by decide +kernel
/-- As `withCard`, with a class-0 token at the engine. -/
def ready (c : Card) : State := (withCard c).modEngine 0 fun x => { x with tokens := 1 }
theorem witness_CardExecution_start : (ready copyCard).readyHead 0 0 = some copyCard ∧ 1 ≤ ((ready copyCard).engine 0).tokens ∧
    (ready copyCard).nextClass 0 = some (0, 0) ∧ copyCard.discarded = false ∧ copyCard.formed = true ∧
    ({ copyCard with guard := some (1, true), bound := some true } : Card).discarded = true ∧ copyCard.kind = engineKind copyCard.engine ∧
    (ready copyCard).pkgIndex = 0 ∧ copyCard.bodyOk 0 = true ∧ copyCard.role0 = 1 ∧ copyCard.cap0.space ∈ copyCard.spacesOf 0 ∧ copyCard.refused 0 = none := by decide +kernel
theorem witness_CardExecution_checks : (cardOf (cardBytes 0x4000 256 (cap 1 0x2000 0x1000) (cap 1 0x4000 0x1000)) Cap.null Cap.null).formed = false ∧
    ((capFor 1 0x3E 0x2000 0x2000 0x3000).getD Cap.null).has 0 = false ∧ ({ copyCard.cap0 with tag := false } : Cap).tag = false ∧
    (cap 6 0 0x1000).space ∉ copyCard.spacesOf 0 ∧ ({ copyCard with cap0 := Cap.null } : Card).refused 0 ≠ none := by decide +kernel
theorem witness_CardExecution_copy : copyCard.kind = 0 ∧ copyCard.mode = 0 ∧ copyCard.body 0 = 256 ∧ copyCard.err = 0 ∧ copyCard.last = false ∧
    copyCard.waits = false ∧ copyCard.ops = [] ∧ copyCard.stage = 0 ∧
    (let src : CardAcc := { cap := 0, v := copyCard.cap0.cursor, n := 256, write := false }
     let dst : CardAcc := { cap := 1, v := copyCard.cap1.cursor, n := 256, write := true }
     filled.checkAccs copyCard [src, dst] = none ∧ filled.checkAccs { copyCard with cap1 := cap 1 0x4000 0x80 } [src, dst] ≠ none) := by decide +kernel
/-- A read and a write of `copyCard`'s first line, sent to home `p` or not yet. -/
def opOf (id : Nat) (write : Bool) (p : Option Place) : CardOp :=
  { id := id, cap := if write then 1 else 0, v := if write then 0x4000 else 0x2000, n := 64, write := write, pos := 0, place := p }
/-- `copyCard` with accesses `os` and bytes `b` in its buffer. -/
def cardWith (os : List CardOp) (b : List Byte := []) : Card := ({ copyCard with ops := os, last := true } : Card).put 0 b
/-- It runs in engine 0. -/
def running (os : List CardOp) (b : List Byte := []) : State := filled.modEngine 0 fun x => { x with running := [cardWith os b] }
/-- The places of the two lines. -/
def vaultAt (v : Nat) : Place := .mem (2 ^ 60 + v) true none
theorem witness_CardExecution_access : (running [opOf 4 false none]).cardOp? 4 = some (cardWith [opOf 4 false none], opOf 4 false none) ∧
    (running [opOf 4 false none]).flight = [] ∧ (running [opOf 4 false none]).absent = [] ∧ (cardWith [opOf 4 false none]).before (opOf 4 false none) = [] ∧ (running [opOf 4 false none]).owed copyCard.id = false ∧
    (∃ x ∈ (cardWith [opOf 4 false none, opOf 6 false none]).before (opOf 6 false none), x.write = false ∧ x.place = none) ∧
    (match filled.cardPlace copyCard (copyCard.cap 0) 0x2000 64 false with | .ok p => decide (p = vaultAt 0x2000) | .error _ => false) = true ∧
    (match filled.cardPlace copyCard (copyCard.cap 0) (2 ^ 51) 64 false with | .ok _ => false | .error n => n == 0x19) = true ∧
    (cardWith [opOf 5 true none]).holdsAll 0 64 = false ∧ (cardWith [opOf 5 true none] (List.replicate 64 1#8)).holdsAll 0 64 = true := by decide +kernel
theorem witness_CardExecution_performs : let o := opOf 4 false (some (vaultAt 0x2000))
    let w := opOf 5 true (some (vaultAt 0x4000))
    let bs := List.replicate 64 9#8
    (running [o]).cardOp? 4 = some (cardWith [o], o) ∧ (running [o]).cardOpDue (cardWith [o]) o (vaultAt 0x2000) = true ∧
    (running [w] bs).cardOp? 5 = some (cardWith [w] bs, w) ∧ (running [w] bs).cardOpDue (cardWith [w] bs) w (vaultAt 0x4000) = true ∧
    (running [o]).hostGone (2 ^ 60 + 0x2000) = false ∧ (running [o]).poisonIn (2 ^ 60 + 0x2000) 64 = none ∧
    (running [o]).pathFrom (homeOf (2 ^ 60 + 0x2000)) copyCard.core = [] ∧ (running [o]).pathFrom (homeOf 0x40005000) copyCard.core ≠ [] ∧ (running [o]).owed copyCard.id = false ∧
    (let f := opOf 4 false (some (.mem 0x40005000 true none)); (running [f]).cardOpDue (cardWith [f]) f (.mem 0x40005000 true none) = true) ∧
    ({ running [o] with poison := [((2 ^ 60 + 0x2000) / 64, true)] } : State).poisonIn (2 ^ 60 + 0x2000) 64 ≠ none ∧
    ({ running [o] with links := [(0, { waiting := [(0, [flitOf 4])] })] } : State).cardOpDue (cardWith [o]) o (vaultAt 0x2000) = false := by
  decide +kernel
theorem witness_CardExecution_end : let run := fun (c : Card) e => ({ (filled.modEngine e fun x => { x with running := [c] }) with now := 2 ^ 31 } : State)
    ((run copyCard 0).engine 0).running = [copyCard] ∧ copyCard.engine = 0 ∧ copyCard.group = 0#64 ∧ (run copyCard 0).absent = [] ∧ copyCard.cmpl = 0 ∧
    (let c : Card := { copyCard with last := true }; c.err = 0 ∧ c.waits = false ∧ c.last = true ∧ c.ops = [] ∧ c.outcome ≠ 6 ∧ c.ending = 0 ∧
      (run c 0).owed c.id = false ∧ (run c 0).stepReady c.core c.part c.tenant (c.addr + 2) 2 = true ∧ groupRef c.part c.tenant c.group = none ∧
      c.caddr = copyCard.caddr ∧ (run c 0).stepReady c.core c.part c.tenant (2 ^ 40 + 0x500) 16 = true) ∧
    engineKind 300 = 2 ∧ engineKind 100 = 1 ∧ copyCard.started + 2 ^ 31 ≤ (run copyCard 0).now ∧
    (cardOf (cardBytes 2 256 (cap 1 0x2000 0x1000) (cap 1 0x4000 0x1000)) Cap.null Cap.null).kind = 2 ∧
    (cardOf (cardBytes (2 ^ 12) 256 (cap 1 0x2000 0x1000) (cap 1 0x4000 0x1000)) Cap.null Cap.null).cmpl = 1 ∧
    (cardOf (cardBytes (2 ^ 13) 256 (cap 1 0x2000 0x1000) (cap 1 0x4000 0x1000)) Cap.null Cap.null).cmpl = 2 := by decide +kernel

/-! ## Witnesses: lanes, element loads, group sums and halts -/

theorem witness_VectorClaims_no_lanes : ((at' 5).slot (at' 5).cur).groups = 0 ∧ (at' 5).reads (.nam 1#4) = some 9#64 ∧
    (at' 5).reads (.nam 2#4) = some (BitVec.ofInt 64 (-7)) ∧ Instr.vadd none 2#3 1#5 1#5 1#5 ∈ [Instr.vadd none 2#3 1#5 1#5 1#5] := by decide +kernel
theorem witness_VectorAndMomentMemory_none_enabled : let s := lanes fun x => { x with vm := [] }
    okIs (elemPlaces (cap 2 0x100 0x1000) 4 true ((List.range 16).map fun j => if (s.slot 5).enabled { noPfx with me := true, vm := 1#3 } 32 j then some ((0x100 : Int) + 4 * j) else none))
      s.noteIssue (fun ps _ => ps.all Option.isNone && ps.length == 16) = true := by decide +kernel
/-- The access of element `i` of slot 5, at `key` of home `h`. -/
def elemAt (i key n : Nat) (h : Nat := 0) : Access := mkAccess (lanes) (i + 1) 7 (.elem i key n) h [] none [] none false
/-- Slot 5 waits for the elements `l` of the load `j` in flight. -/
def waiting (j : ElemJob) (l : List Access) : State := { (lanes fun x => { x with wait := Wait.elems, elems := some j }) with flight := l }
/-- Slot 5 waits for the elements `l` of `instr` in flight; it has got element 3. -/
def loading (instr : Instr) (l : List Access) : State := waiting { instr := instr, no := 7, got := [(3, 0xBF800000 * 2 ^ 32)] } l
theorem witness_VectorAndMomentMemory_elements : ∀ i ∈ [Instr.vld none 2#3 1#5 1#3 0#5, .vlds none 2#3 1#5 1#3 (.nam 5#4), .vgth none 2#3 1#5 1#3 1#5,
      .mld none 1#4 1#3 0#5, .vtbl none 6#3 1#5 2#5 1#3], ∀ rest ∈ [[], [elemAt 1 (2 ^ 61 + 0x104) 4]], let s := loading i (elemAt 0 (2 ^ 61 + 0x100) 4 :: rest)
    (s.slot 5).elems = some { instr := i, no := 7, got := [(3, 0xBF800000 * 2 ^ 32)] } ∧ (elemAt 0 (2 ^ 61 + 0x100) 4).instr = 7 ∧ s.owed 7 = false ∧
    s.pathFrom (elemAt 0 (2 ^ 61 + 0x100) 4).home (coreOf 5) = [] ∧ (elemAt 0 (2 ^ 61 + 0x100) 4).slot < 7680 ∧ (∀ r ∈ rest, r.instr = 7) ∧
    (elemAt 0 (2 ^ 61 + 0x100) 4).tile = none ∧ s.absent = [] ∧ s.poison = [] ∧ s.hostGone (2 ^ 61 + 0x100) = false ∧
    s.mayPerform (elemAt 0 (2 ^ 61 + 0x100) 4) = true ∧ (∀ r ∈ rest, r.id ≠ (elemAt 0 (2 ^ 61 + 0x100) 4).id) ∧
    (s.slot (elemAt 0 (2 ^ 61 + 0x100) 4).slot).tid = (elemAt 0 (2 ^ 61 + 0x100) 4).tid ∧ (s.slot 5).wait = Wait.elems ∧ (elemAt 0 (2 ^ 61 + 0x100) 4).slot = 5 ∧
    ({ s with flight := rest } : State).elemRead (elemAt 0 (2 ^ 61 + 0x100) 4) (2 ^ 61 + 0x100) 4 = (.ok 0, { s with flight := rest }) := by decide +kernel
/-- As the last, from a home on another core. -/
theorem witness_VectorAndMomentMemory_far : let a := elemAt 0 (2 ^ 60 + 0x100) 4 320
    let s := loading (.vld none 2#3 1#5 1#3 0#5) [a]
    s.pathFrom a.home (coreOf 5) ≠ [] ∧ s.mayPerform a = true ∧ s.owed a.instr = false ∧
    ({ s with flight := [] } : State).elemRead a (2 ^ 60 + 0x100) 4 = (.ok 0, { s with flight := [] }) ∧
    (2 ^ 65 ≤ deviceKey 0x1008 ∧ s.pathFrom 0 0 = []) := by decide +kernel
/-- An element that cannot be read, and a load that has failed at one. -/
theorem witness_VectorAndMomentMemory_fails : let a := elemAt 0 (2 ^ 61 + 0x100) 4
    let s : State := { loading (.vld none 2#3 1#5 1#3 0#5) [a, elemAt 1 (2 ^ 61 + 0x104) 4] with poison := [((2 ^ 61 + 0x100) / 64, true)] }
    (match ({ s with flight := [elemAt 1 (2 ^ 61 + 0x104) 4] } : State).elemRead a (2 ^ 61 + 0x100) 4 with | (.error e, _) => decide (e.1 = .mcheck) | _ => false) = true ∧
    s.mayPerform a = true ∧ s.owed a.instr = false ∧ a.instr = (elemAt 1 (2 ^ 61 + 0x104) 4).instr ∧
    ∀ i ∈ [Instr.vld none 2#3 1#5 1#3 0#5, .mld none 1#4 1#3 0#5, .vtbl none 6#3 1#5 2#5 1#3],
      let t := waiting { instr := i, no := 7, bad := some (.xlate, 0x40#64) } [a]
      let u := t.modSlot 5 fun x => { x with ten := true, tbase := BitVec.ofNat 39 (2 ^ 27) }
      (u.slot 5).elems = some { instr := i, no := 7, bad := some (.xlate, 0x40#64) } ∧ u.mayPerform a = true ∧ (u.takeTrap 5 .xlate 0x40#64 4).isSome = true := by
  decide +kernel
/-- What the loads of the header of `table n` return. -/
def headerOf (n : Nat) : SMap Nat := [(0, (table n).num (2 ^ 61 + 0x400) 16), (1, (table n).num (2 ^ 61 + 0x410) 16)]
/-- Slot 5 waits for the last load of a VTBL on the table of `n` intervals at 0x400, with its header in place but element 0, or with entries. -/
def tabled (n : Nat) (entries : Bool) (top : Nat) (a : Access) : State :=
  (waiting { instr := .vtbl none 6#3 1#5 1#5 1#3, no := 7, entries := entries, got := (headerOf n).drop 1 } [a]).modSlot 5 fun x =>
    { x with k := [(1, cap 2 0x400 top)], ten := true, tbase := BitVec.ofNat 39 (2 ^ 27) }
theorem witness_VectorAndMomentMemory_table : let a := elemAt 0 (2 ^ 61 + 0x400) 16
    let hdr := fun n => tableOf (toBytes 16 ((headerOf n).get 0 0) ++ toBytes 16 ((headerOf n).get 0 1))
    (∀ n ∈ [0, 4], ∀ e ∈ [false, true], let s := tabled n e 0x1000 a
      s.mayPerform a = true ∧ s.owed 7 = false ∧ (s.slot 5).elems.isSome = true ∧
        SMap.put ((headerOf n).drop 1) 0 ((table n).num (2 ^ 61 + 0x400) 16) = headerOf n) ∧ (hdr 0).isNone = true ∧
    (match hdr 4 with
      | none => false
      | some h => h.n == 4 && (List.range 5).all (fun m => decide (0x400 + 32 + 4 * m + 4 ≤ (cap 2 0x400 0x1000).top)) &&
        decide ((cap 2 0x400 48).top < 0x400 + 32 + 4 * 4 + 4) && (List.range 4).all (fun m => decide (0x400 + 32 + 4 * m + 4 ≤ (cap 2 0x400 48).top)) &&
        okIs (entryPlaces (cap 2 0x400 0x1000) (((List.range 16).filter (((lanes).slot 5).enabled zeroPfx 32)).flatMap fun l =>
          (h.step 6#3 (((lanes).slot 5).elem 1#5 32 l)).1.entries l)) (tabled 4 false 0x1000 a) (fun ps _ => !ps.isEmpty)) = true := by decide +kernel
theorem witness_VectorAndMomentMemory_MVNEG : let s := loading (.mld none 1#4 1#3 0#5) [elemAt 0 (2 ^ 61 + 0x100) 8]
    let t := (loading (.mld none 1#4 1#3 0#5) [elemAt 0 (2 ^ 61 + 0x100) 8]).modSlot 5 fun x => { x with ten := true, tbase := BitVec.ofNat 39 (2 ^ 27) }
    (List.range (16 * (s.slot 5).groups)).filter ((s.slot 5).enabled noPfx 32) = List.range 16 ∧
    fpLt (Fp.ofBits fp32 (0xBF800000 * 2 ^ 32 / 2 ^ 32)) (.fin false 0 0) = true ∧ fpLt (Fp.ofBits fp32 0) (.fin false 0 0) = false ∧
    (t.takeTrap 5 .mvneg (BitVec.ofNat 64 (1 * 2 ^ 48 + 3 * 2 ^ 32 + 0xBF800000)) 4).isSome = true := by decide +kernel
/-- A number of format FP32. -/
def num (n : Nat) : Fp := Fp.ofBits fp32 n
theorem witness_MatrixExecution_sums : let one := num 0x3F800000
    let inf := num 0x7F800000
    let ninf := num 0xFF800000
    (∃ p ∈ [(inf, num 0)], (∃ n, p.1 = .inf n) ∧ ∃ n e, p.2 = .fin n 0 e) ∧ (num 0x7FC00000).isNan = true ∧ one.isNan = false ∧
    (∃ n, inf = .inf n) ∧ (∃ n, ninf = .inf n) ∧ inf ≠ ninf ∧ ¬ (∃ n, one = .inf n) :=
  ⟨⟨_, .head _, ⟨false, rfl⟩, ⟨false, _, rfl⟩⟩, rfl, rfl, ⟨false, rfl⟩, ⟨true, rfl⟩, by decide +kernel, by decide +kernel⟩
/-- The plane of quadrant 0 that an MMA of tile 1 uses, of 8 rows and 6 columns. -/
def planeOne : Plane := { info := some { fmt := 0, k := 8, n := 6, sparse := false, mant := 1 } }
theorem witness_MatrixExecution_parts : (∃ i, planeOne.info = some i ∧ i.n = 6 ∧ i.k = 8) ∧ 6 ≤ 6 ∧ 5 < 6 ∧ 32 * 0 < 8 := by decide +kernel
/-- Quadrant 0 with an MMAM of slot 5 in its queue, tile 5 draining beside the variances in tile 13. -/
def halting (bad : Bool) : State :=
  (quadOne fun q => { q with queue := [command (.mma 3 5 [desc 0 4 8 true] true)], residue := bad }).modSlot 5 fun x => { x with wait := .array }
theorem witness_MatrixExecution_halts : ∀ bad ∈ [false, true], let s := halting bad
    (s.quad 0).queue = [command (.mma 3 5 [desc 0 4 8 true] true)] ∧ s.poison = [] ∧ (s.quad 0).fused = 0#4 ∧
    s.quiet (s.quad 0).queue = true ∧ (s.slot issuer.slot).tid = issuer.tid ∧ (s.slot issuer.slot).wait = .array ∧ (s.quad 0).residue = bad ∧
    negativeIn (shapeOf (desc 0 4 8 true)) ((s.quad 0).tile (5 + 8)).bytes = true := by decide +kernel
/-- A command behind the MMAM, and an accumulator that an earlier record has cleared. -/
theorem witness_MatrixExecution_halts_later : ∀ rest ∈ [[command .wswap], [command (.yzero 3 false)]],
    let s := (quadOne fun q => { q with queue := command (.mma 3 5 [desc 0 4 8 true] true) :: rest, accs := [(3, { valid := false, code := 0x0F })] }).modSlot 5 fun x =>
      { x with wait := .array }
    s.quiet (s.quad 0).queue = true ∧ ((s.quad 0).acc 3).valid = false ∧ ((halting false).quad 0 |>.acc 3).valid = true := by decide +kernel
theorem witness_TileRegisters_poisoned : let j : ZldJob := { z := 4, who := issuer, instr := 3, bad := some 0x40, expand := none }
    let s := quadOne fun q => { q with zlds := [j] }
    (s.quad 0).zlds = [j] ∧ j.bad = some 0x40 ∧ s.flight = [] ∧ s.owed j.instr = false ∧ (tileOf s 4).since ≠ some s.now ∧ j.z = 4 := by decide +kernel

/-! ## Witnesses: layers and views -/

/-- Bytes `a` to `a + n` of the scratchpad as GLOBAL addresses. -/
def window (a n : Nat) : Cap := (capFor 0 0x3F (2 ^ 40 + a) (2 ^ 40 + a) (2 ^ 40 + a + n)).getD Cap.null
/-- A layer of 4 by 4 pixels in slot `i` of view 0, with its front images at `a`. -/
def layerOf (i a : Nat) : Layer :=
  { live := true, w := 4#16, h := 4#16, fcol := window a 64, fdep := window (a + 0x80) 32, bcol := window (a + 0x100) 64
    bdep := window (a + 0x180) 32, age := 7#16, e := 0x1234#24, price := 100#24, kpar := 3#16, q := 2#16, lights := 5#64, slot := BitVec.ofNat 6 i }
/-- View 0 of 4 by 4 pixels, layers 3 and 4 in slots 9 and 10, both in the request queue. -/
def viewOf : View :=
  { ocol := window 0x1000 64, ord := window 0x1100 256, vw := 4#16, vh := 4#16, bg := 0xFF112233#32, slots := [(9, 3), (10, 4)]
    qhead := 5#64, qtail := 7#64, queue := [(5, (77#64, 3)), (6, (88#64, 4))], lights := [(2, 7#24)] }
/-- Slot 5 with layers 3 and 4 of view 0; n1 and n2 hold `a` and `b`, layer 4 is changed by `g`. -/
def layered (a : Nat := 3) (b : Nat := 4) (g : Layer → Layer := id) : State :=
  ((((at' 5 fun x => { x with n := [(1, BitVec.ofNat 64 a), (2, BitVec.ofNat 64 b)], k := [(1, window 0x2000 64), (2, window 0x2100 32)] }).setLayer 3
    (layerOf 9 0x400)).setLayer 4 (g (layerOf 10 0x600))).modView 0 fun _ => viewOf)
theorem witness_LayerObjects : (layered).calm ∧ slotNo (layered).cur ≠ 11 ∧ (layered).reads (.nam 1#4) = some 3#64 ∧ (layered).reads (.nam 2#4) = some 4#64 ∧
    (layered).ownsLayer 0 3 = true ∧ ((layered).layer 3).live = true ∧ ((layered).layer 3).busy = false ∧ (layered).backInUse 3 = false ∧ (layered 5).ownsLayer 0 5 = true ∧
    ((layered 5).layer 5).live = false ∧ (layered 2000).ownsLayer 0 2000 = false ∧ ((layered 4 4 fun l => { l with busy := true }).layer 4).busy = true ∧
    2 ^ 24 ≤ (BitVec.ofNat 64 (2 ^ 24)).toNat ∧ (layered 4 (2 ^ 24)).reads (.nam 2#4) = some (BitVec.ofNat 64 (2 ^ 24)) ∧
    layerValueOk 4 0x40004 = true ∧ ((layered).layer 3).imagesFit (0x40004 % 2 ^ 16) (0x40004 / 2 ^ 16) = true ∧ (64 : Nat) % 64 = 0 ∧ ((1#5).setWidth 3 : BitVec 3) = 1#3 ∧
    colourFit (layered.cap 1#3) 4 4 = true ∧ depthFit (layered.cap 2#3) 4 4 = true ∧ colourFit (layered.cap 2#3) 4 4 = false :=
  ⟨State.calm_of_quiet _ (by decide +kernel), by decide +kernel⟩
theorem witness_LayerObjects_views : (layered).ownsView 0 0 = true ∧ (layered).ownsView 0 63 = false ∧ ((layered).view' 0).configured = true ∧
    ((layered).view' 1).configured = false ∧ ((layered).view' 0).slotAt 3 = 0xFFFF ∧ ((layered).view' 0).slotAt 9 ≠ 0xFFFF ∧
    (layered).ownsLayer 0 0 = true ∧ ((layered).layer 0).live = false ∧ (let s := (layered).setPartReg 0 0x80D (BitVec.ofNat 64 (60 * 2 ^ 40 + 2 * 2 ^ 16 + 3));
      s.partOfSlot 5 = 0 ∧ ∀ j ∈ List.range 100, s.ownsLayer 0 j = true → (s.layer j).live = true) := by decide +kernel
/-- As `layered`, with render record 0x400 of layer 3. -/
def rendering (join kind walk : Nat) : State :=
  ((record join kind walk).setLayer 3 { layerOf 9 0x800 with render := BitVec.ofNat 64 (2 ^ 40 + 0x400) }).modView 0 fun _ => viewOf
/-- The record that LREQ.s queues for the request of deadline 77. -/
def renderAt (s : State) : Rec := { recAt s with deadline := s.rebaseDeadline (0 / 16) (dieOf (coreOf 5)) 77#64 }
theorem witness_LayerObjects_requests : let s := rendering 0 0 0
    s.calm ∧ slotNo s.cur ≠ 11 ∧ (s.slot 5).view.toNat = 0 ∧ s.ownsView (s.partOfSlot 5) 0 = true ∧ (s.view' 0).qtail ≠ (s.view' 0).qhead ∧
    ((s.modView 0 fun v => { v with qtail := 5#64 }).view' 0).qtail = 5#64 ∧ (s.view' 0).queue.get (0#64, 0) (5 % 64) = (77#64, 3) ∧
    ((layered).layer 3).render.toNat = 0 ∧ (s.layer 3).render.toNat ≠ 0 ∧
    okIs (locate (s.who 5) 0 (2 ^ 40 + 0x400) 64 [1]) s.noteIssue (fun p _ => decide (p = .mem (2 ^ 61 + 0x400) true none)) = true ∧
    s.recOk (renderAt s) [0, 1] = true ∧ (renderAt s).join = 0#32 ∧ (renderAt s).hen = false ∧ (rendering 0 2 0).recOk (renderAt (rendering 0 2 0)) [0, 1] = false ∧
    (renderAt (rendering 2 0 0)).join ≠ 0#32 ∧ (rendering 2 0 0).recOk (renderAt (rendering 2 0 0)) [0, 1] = true ∧
    (renderAt (rendering 0 0 0x10304)).hen = true ∧ (rendering 0 0 0x10304).recOk (renderAt (rendering 0 0 0x10304)) [0, 1] = true ∧
    (s.enqueue 0 { job := renderAt s }).isSome = true :=
  ⟨State.calm_of_quiet _ (by decide +kernel), by decide +kernel⟩

/-- Whether `e` is a state that satisfies `p`. -/
def goodIs {α β : Type} (e : Except β α) (p : α → Bool) : Bool := match e with | .ok a => p a | .error _ => false
/-- Layer 4 lies over a corner of layer 3, or beside it. -/
def corner (ox : Nat) : State := layered 3 4 fun l => { l with ox := BitVec.ofNat 16 ox, oy := 1#16 }
/-- The pixel of layer `w` under pixel `q` of layer `z`. -/
def under (z w : Layer) (q : Nat) : Option Nat :=
  let u : Int := (q % z.w.toNat : Nat) + z.ox.toInt - w.ox.toInt
  let v : Int := (q / z.w.toNat : Nat) + z.oy.toInt - w.oy.toInt
  if 0 ≤ u ∧ u < w.w.toNat ∧ 0 ≤ v ∧ v < w.h.toNat then some (v.toNat * w.w.toNat + u.toNat) else none
/-- As `corner 2`, with layer 3 at depth 5 under the first pixel of layer 4. -/
def behind : State := with' (corner 2) (2 ^ 61 + 0x480 + 12) 2 5
theorem witness_LayerImages : ∀ ox ∈ [2, 4], let s := corner ox
    let l := s.layer 3
    let n := s.layer 4
    slotNo s.cur ≠ 11 ∧ s.reads (.nam 1#4) = some 3#64 ∧ s.reads (.nam 2#4) = some 4#64 ∧ s.ownsLayer 0 3 = true ∧ s.ownsLayer 0 4 = true ∧
    l.live = true ∧ n.live = true ∧ l.busy = false ∧ n.busy = false ∧ l.view = n.view ∧ s.layerJobs = [] ∧
    (List.range 16).any (fun q => (under n l q).isSome) = decide (ox = 2) ∧ (List.range 16).any (fun q => (under l n q).isSome) = decide (ox = 2) ∧
    (∀ z ∈ [l, n], z.fcol.tag = true ∧ z.fdep.tag = true ∧ z.fcol.has 1 = true ∧ z.fdep.has 1 = true) ∧
    okIs (frontImages 3 [1, 2]) s.noteIssue (fun _ t => okIs (frontImages 4 [2]) t fun _ _ => true) = true ∧
    okIs (frontImages 4 [2]) s.noteIssue (fun _ _ => true) = true := by decide +kernel
theorem witness_LayerImages_calm : (corner 2).calm ∧ (corner 4).calm ∧ behind.calm :=
  ⟨State.calm_of_quiet _ (by decide +kernel), State.calm_of_quiet _ (by decide +kernel), State.calm_of_quiet _ (by decide +kernel)⟩
theorem witness_LayerImages_merge : (∀ s ∈ [corner 2, behind], okIs (frontImages 3 [1]) s.noteIssue (fun f t => okIs (frontImages 4 [1]) t fun g u =>
      okIs (frontImages 3 [1, 2]) u (fun _ _ => true) && decide (u.num (g.dep.place 0).1 2 = 0) &&
        (List.range 16).all fun q => (under (s.layer 3) (s.layer 4) q).isNone || (u.num (f.dep.place (2 * q)).1 2 == 0) != (q == 6 && u.num (2 ^ 61 + 0x48C) 2 == 5)) =
      true) ∧ under (behind.layer 3) (behind.layer 4) 6 = some 0 ∧ behind.num (2 ^ 61 + 0x48C) 2 = 5 := by decide +kernel
theorem witness_LayerImages_compose : let s := corner 2
    let w := s.view' 0
    (s.slot s.cur).view.toNat = 0 ∧ s.ownsView 0 0 = true ∧ w.configured = true ∧ s.composing 0 = false ∧ w.occupied = [(9, 3), (10, 4)] ∧
    (∀ e ∈ w.occupied, (s.layer e.2).fcol.tag = true ∧ (s.layer e.2).fdep.tag = true ∧
      colourFit (s.layer e.2).fcol (s.layer e.2).w.toNat (s.layer e.2).h.toNat = true ∧
      depthFit (s.layer e.2).fdep (s.layer e.2).w.toNat (s.layer e.2).h.toNat = true) ∧
    okIs (eachM (fun (e : Nat × Nat) => frontImages e.2 [1]) w.occupied) s.noteIssue (fun _ v => okIs (imageAt w.ocol (4 * w.vw.toNat * w.vh.toNat) [2]) v fun _ t =>
      okIs (imageAt w.ord (256 * tilesOf w.vw.toNat * tilesOf w.vh.toNat) [1, 2]) t fun _ _ => true) = true := by decide +kernel

/-- The front images of layer `i`, and the image of `n` bytes that `k` bounds. -/
def frontOf (i : Nat) : Front := match frontImages i [1] (corner 2).noteIssue with | .ok (f, _) => f | .error _ => frontUnused i {}
def imageOf (k : Cap) (n : Nat) : Image := match imageAt k n [1, 2] (corner 2).noteIssue with | .ok (m, _) => m | .error _ => Image.unused
/-- A COMPOSE of view 0 that has issued, with layers `ls` still to come. -/
def composing (ls : List Nat) : ComposeJob :=
  { d := .queue, view := 0, camStep := 2, flipPen := 1, vw := 4, vh := 4, bg := 0xFF112233, dline := 5#64, newSlots := 0#64, lights := [], occupied := [(9, 3), (10, 4)]
    fronts := [frontOf 3, frontOf 4], out := imageOf viewOf.ocol 64, ord := imageOf viewOf.ord 256, layers := ls }
/-- Layer 3 captured where it stands. -/
def shotOf : Shot := { front := frontOf 3, slot := 9, x := 0, y := 0 }
/-- An LSPLIT of layer 3 into 4, or an LMERGE of 4 into 3, that has come to pixel `i`, part `p` of it, and has read `got`. -/
def pairing (merge : Bool) (i p : Nat) (got : List Nat := []) (w : Bool := true) : PairJob :=
  { merge := merge, a := frontOf 3, b := frontOf 4, ax := 0, ay := 0, bx := 2, by' := 1, writable := w, pixel := i, part := p, got := got }
/-- Slot 5 in the steps of `j`. -/
def stepping (j : LayerJob) (s : State := corner 2) : State := s.modSlot 5 fun x => { x with job := some j, wait := Wait.layer }
/-- Steps of a COMPOSE: a layer, a request, a pixel without and with layers, before and after a depth, a read and a write of the
order matrix, its end, a flip and the last. -/
def composeSteps : List ComposeJob :=
  [composing [3, 4], { composing [] with append := some 3 }, composing [], { composing [] with look := [shotOf] },
   { composing [] with look := [shotOf], depth := some 7 }, { composing [] with pixel := 16 }, { composing [] with pixel := 16, line := 4 },
   { composing [] with pixel := 16, line := 8 }, { composing [] with flips := some [3] }, { composing [] with flips := some [] }]
/-- Steps of an LSPLIT and of an LMERGE: at pixels under and beside the other layer, and after the last. -/
def pairSteps : List PairJob :=
  [pairing false 15 0, pairing false 15 1 [0], pairing false 0 0, pairing false 0 1 [7], pairing false 0 2 [7, 8], pairing false 0 3 [7, 8, 0],
   pairing false 0 4 [7, 8, 0, 0], pairing false 0 5 [7, 8, 0, 0, 0], pairing false 16 0, pairing false 16 1, pairing false 16 2,
   pairing true 0 0, pairing true 6 0, pairing true 6 1 [0], pairing true 6 2 [0, 5] false, pairing true 6 2 [0, 5], pairing true 6 3 [0, 5, 1],
   pairing true 6 4 [0, 5, 1, 0], pairing true 16 0, pairing true 16 1, pairing true 16 2, pairing true 16 3]
theorem witness_LayerImages_steps : ∀ j ∈ composeSteps.map LayerJob.compose ++ pairSteps.map LayerJob.pair,
    ((stepping j).slot 5).job = some j ∧ (stepping j).absent = [] ∧ ∀ c k n, (stepping j).stepAt c k n = true := by
  have h : ∀ j ∈ composeSteps.map LayerJob.compose ++ pairSteps.map LayerJob.pair, ((stepping j).slot 5).job = some j ∧ (stepping j).releases = [] ∧
      (stepping j).absent = [] ∧ ∀ x ∈ (stepping j).slots, slotNo x.1 = 11 → x.2.live = false := by decide +kernel
  exact fun j hj => ⟨(h j hj).1, (h j hj).2.2.1, State.stepAt_of_quiet _ (h j hj).2⟩
theorem witness_LayerImages_composing : let s := stepping (.compose (composing [3, 4]))
    s.pairOn 3 = false ∧ (s.layer 3).live = true ∧ ((composing [3, 4]).fronts.find? fun f => f.no == 3 && f.of (s.layer 3)) = some (frontOf 3) ∧
    (∀ j ∈ composeSteps, j.pixel < 16 ∨ 16 ≤ j.pixel) ∧ shotOf.front.w = 4 ∧ shotOf.front.h = 4 ∧
    s.poisonIn (shotOf.front.dep.place 0).1 2 = none ∧ s.poisonIn (shotOf.front.col.place 0).1 4 = none ∧ s.poisonIn ((composing []).ord.place 0).1 64 = none ∧
    8 * (tilesOf 4 * tilesOf 4) = 8 ∧ (s.layer 3).live = true := by decide +kernel
theorem witness_LayerImages_poisoned : ∀ k ∈ [(shotOf.front.dep.place 0).1, (shotOf.front.col.place 0).1, ((composing []).ord.place 0).1, ((frontOf 4).dep.place 0).1,
      ((frontOf 4).col.place 0).1],
    let s : State := { corner 2 with poison := [(k / 64, true)] }
    (s.poisonIn k 2).isSome = true ∧ s.poisonIn k 2 = s.poisonIn k 4 ∧ (s.takeTrap 5 .mcheck (BitVec.ofNat 64 (physOf (64 * (k / 64)))) 4).isSome = true := by
  decide +kernel
theorem witness_LayerImages_pairs : let s := stepping (.pair (pairing true 6 2 [0, 5] false))
    let l := s.layer 3
    l.fcol.tag = true ∧ l.fdep.tag = true ∧ l.fcol.has 1 = true ∧ l.fdep.has 1 = true ∧ okIs (frontImages 3 [1, 2]) { s with cur := 5 } (fun _ _ => true) = true ∧
    under (s.layer 4) l 0 = some 6 ∧ under (s.layer 4) l 15 = none ∧ under l (s.layer 4) 6 = some 0 ∧ under l (s.layer 4) 0 = none ∧
    s.poisonIn ((frontOf 3).col.place 24).1 4 = none ∧ s.poisonIn ((frontOf 4).dep.place 0).1 2 = none := by decide +kernel
/-- LBEGIN of layer 3 while its back image is captured. -/
theorem witness_LayerObjects_in_use : let s := stepping (.pair { pairing false 0 0 with a := { frontOf 3 with fcol := ((corner 2).layer 3).bcol } })
    s.calm ∧ s.backInUse 3 = true ∧ (s.layer 3).busy = false :=
  ⟨State.calm_of_quiet _ (by decide +kernel), by decide +kernel⟩
theorem witness_LayerImages_fragments : 255 * 2 ^ 24 ≤ 0xFF123456 ∧ 0xFF123456 < 2 ^ 32 ∧
    ([{ depth := 1, no := 1, slot := 1, colour := 0xFF123456 }, { depth := 1, no := 2, slot := 2, colour := 0x80FFFFFF }] : List Frag).Pairwise
      fun f g => f.depth < g.depth ∨ f.depth = g.depth ∧ f.no ≤ g.no := by decide +kernel

/-! ## Witnesses: guarded surrogates -/

/-- Slot 5 in phase `ph`, with `a` in n1, `b` in n2, tolerance 1 in mode `tm`, changed by `f`. -/
def phased (ph : Phase) (a b tm : Nat) (f : Slot → Slot := id) : State :=
  { (at' 5 fun x => f { x with phase := ph, n := [(1, BitVec.ofNat 64 a), (2, BitVec.ofNat 64 b)], tol := 0x3F800000#32, tolMode := BitVec.ofNat 2 tm }) with
    launches := [{ launchOf [] [] with id := 7, tiles := 4, key := 2 ^ 61 + 0x900, addr := 2 ^ 40 + 0x900 }]
    tiles := [{ id := 3, launch := 7, index := 0 }] }
theorem witness_Surrogates : (∀ tm ∈ [0, 1], let s := phased (.check 3 false) 0x3F000000 0x3F800000 tm
      (s.slot s.cur).phase = .check 3 false ∧ s.reads (.nam 1#4) = some 0x3F000000#64 ∧ s.reads (.nam 2#4) = some 0x3F800000#64 ∧
      (s.slot s.cur).tolMode = BitVec.ofNat 2 tm ∧ (s.slot s.cur).tile? ≠ none) ∧ (BitVec.ofNat 2 1 ≠ 0#2) ∧
    (Fp.ofBits fp32 (fpDiv fp32 rneMode (num 0x3F000000).abs (num 0x3F800000)).bits).isNan = false ∧
    fpLt (num 0x3F800000) (Fp.ofBits fp32 (fpDiv fp32 rneMode (num 0x3F000000).abs (num 0x3F800000)).bits) = false ∧
    (match num 0x3F800000 with | .fin false m _ => decide (m ≠ 0) | _ => false) = true ∧ (num 0x3F000000).abs.isNan = false ∧
    fpLt (num 0x3F800000) (num 0x3F000000).abs = false ∧ (num 0x7FC00000).abs.isNan = true ∧ fpLt (num 0x3F800000) (num 0x40000000).abs = true ∧
    (num 0x40000000).abs.isNan = false ∧ (Fp.ofBits fp32 (fpDiv fp32 rneMode (num 0x7FC00000).abs (num 0x3F800000)).bits).isNan = true ∧
    fpLt (num 0x3F800000) (Fp.ofBits fp32 (fpDiv fp32 rneMode (num 0x40000000).abs (num 0x3F800000)).bits) = true ∧
    (match num 0xBF800000 with | .fin false m _ => decide (m ≠ 0) | _ => false) = false := by decide +kernel
theorem witness_Surrogates_phases : (∀ tile posted, ((at' 5).slot 5).phase ≠ .check tile posted) ∧ ((at' 5).slot 5).tile? = none ∧ slotNo 5 ≠ 11 ∧
    (let s := phased (.surrogate 3) 5 5 0 fun x => { x with admitted := true }
     (s.slot 5).live = true ∧ (s.slot 5).admitted = true ∧ (s.slot 5).charge = 0 ∧ (s.slot 5).tile? ≠ none ∧ (s.failPhase 5 9).isSome = true) :=
  ⟨fun _ _ => nofun, by decide +kernel⟩
/-- A surrogate descriptor of 4 tiles at 0x800, named by k1, of deadline `dl`, budgets `b` and group `g`, or with `z` tiles. -/
def surrogate (dl b g : Nat) (z : Nat := 4) : State :=
  let bs := toBytes 16 code.bits.toNat ++ toBytes 16 code.bits.toNat ++ toBytes 16 code.bits.toNat ++ toBytes 16 0 ++ toBytes 4 z ++ toBytes 4 0 ++
    toBytes 4 0x3F800000 ++ toBytes 4 0x200 ++ toBytes 8 dl ++ toBytes 4 b ++ toBytes 4 b ++ toBytes 4 b ++ toBytes 4 0 ++ toBytes 8 g ++ toBytes 8 0 ++ toBytes 8 (2 ^ 41 + 5)
  ((((at' 5 fun x => { x with k := [(1, window 0x800 128)] }).writeAll (writesAt (2 ^ 61 + 0x800) bs)).setTag (2 ^ 61 + 0x800) true).setTag (2 ^ 61 + 0x810) true).setTag
    (2 ^ 61 + 0x820) true
/-- The halves of the descriptor as the steps of SLAUNCH read them. -/
def half (s : State) (i : Nat) : Seen := s.object (2 ^ 61 + 0x800 + 64 * i) true none (2 ^ 40 + 0x800) 64
/-- What `p` says of the launch that SLAUNCH makes once it has read both halves. -/
def launched (s : State) (p : State → RecordAt → List Byte → Launch → Bool) : Bool :=
  let n := (seen s [half s 0, half s 1]).noteIssue
  let bs := (half s 0).bytes ++ (half s 1).bytes
  p { n with fresh := n.fresh + 1 } (half s 0).loc bs
    { launchOf bs (half s 0).tags with
      id := n.fresh, addr := 2 ^ 40 + 0x800, key := 2 ^ 61 + 0x800, tenant := 0, part := 0, cluster := 0, launcher := 5, ltid := 0 }
theorem witness_Surrogates_descriptor : let s := surrogate (2 ^ 64 - 1) 0 0
    (s.slot 5).saw 0 = none ∧ okIs (launchAt (s.cap 1#3) [0, 1, 5, 3] [1, 2, 4]) s.noteIssue
      (fun q _ => decide (q.2 = { key := 2 ^ 61 + 0x800, keep := true, va := none, addr := 2 ^ 40 + 0x800 })) = true ∧
    ((seen s [half s 0]).slot 5).saw 0 = some (half s 0) ∧ ((seen s [half s 0]).slot 5).saw 1 = none ∧
    ((seen s [half s 0, half s 1]).slot 5).saw 0 = some (half s 0) ∧ ((seen s [half s 0, half s 1]).slot 5).saw 1 = some (half s 1) := by decide +kernel
theorem witness_Surrogates_launch : let s := surrogate (2 ^ 64 - 1) 0 0
    s.calm ∧ (seen s [half s 0]).calm ∧ (seen s [half s 0, half s 1]).calm ∧ slotNo s.cur ≠ 11 ∧ okIs (launchAt (s.cap 1#3) [0] [1]) s.noteIssue (fun q _ => leAt (s.bytes (q.2.key + 112) 8) 0 8 == 0) = true ∧
    launched s (fun u r bs l => s.launchOk 0 0 bs l && !l.admitted && ((u.launchBackground l r.va).map fun q => q.2.cur == s.cur) == some true) = true ∧
    launched (surrogate (2 ^ 64 - 1) 0 0 0) (fun _ _ bs l => !(surrogate (2 ^ 64 - 1) 0 0 0).launchOk 0 0 bs l) = true ∧
    launched (surrogate 50000 10 0x40) (fun u r bs l => (surrogate 50000 10 0x40).launchOk 0 0 bs l && l.admitted && (u.launchAdmit l r.va).2.cur == 5) = true ∧
    (2 ^ 41 + 5) / 2 ^ 41 % 2 = 1 :=
  ⟨State.calm_of_quiet _ (by decide +kernel), State.calm_of_quiet _ (by decide +kernel), State.calm_of_quiet _ (by decide +kernel), by decide +kernel⟩

/-! ## Witnesses: the scheduler -/

/-- A record at home on core (`hx`, 0), within `r`. -/
def jobOf (hx r : Nat) : Rec := { code := code, frame := cap 2 0x40 0x400, deadline := 5000#64, budget := 100#32, hen := true, hx := hx, hy := 0, radius := r }
/-- Cluster 0 with one entry. -/
def listed (e : Entry) : State := base.modCluster 0 fun c => { c with ready := [e] }
/-- A gang of two with its window. -/
def gangOf : Entry := { job := { jobOf 0 0 with kind := 2 }, seq := 9, gang := [jobOf 0 0, jobOf 0 0], pipes := [cap 2 0x80 0x40] }
theorem witness_Scheduler_dispatch : (∀ c, clusterOf c = 0 → ((listed { job := jobOf 0 0 }).core c).localQ = []) ∧ (listed { job := jobOf 0 0 }).slices = [] ∧
    (listed { job := jobOf 0 0 }).savedZero = [] ∧ ((listed { job := jobOf 0 0 }).cluster 0).ready = [{ job := jobOf 0 0 }] ∧
    ((listed { job := jobOf 0 0 }).cluster 0).ring = [] ∧ (jobOf 0 0).kind ≠ 1 ∧ (listed { job := jobOf 0 0 }).offered 0 { job := jobOf 0 0 } ≠ [] :=
  ⟨fun _ _ => rfl, by decide +kernel⟩
theorem witness_Scheduler_gang : let s := (listed gangOf).modCluster 0 fun c => { c with windows := [(9, [0, 1])] }
    (s.cluster 0).ready = [gangOf] ∧ (s.cluster 0).ring = [] ∧ gangOf.gang ≠ [] ∧ (s.cluster 0).windows.get [] gangOf.seq = [0, 1] ∧ [0, 1].Nodup ∧
    (s.gangHelpers 0 0 5000#64 9 0).head?.isSome = true ∧ (s.gangHelpers 0 0 5000#64 9 1).head?.isSome = true := by decide +kernel
theorem witness_Scheduler_walk : (jobOf 9 2).radius < chebyshev 0 9 0 ∧ chebyshev 0 1 0 ≤ (jobOf 1 2).radius ∧
    (base.freeHelpers 0 0 5000#64 0) ≠ [] ∧ ({ base with walks := [{ job := jobOf 9 2, core := 0 }] } : State).walks = [{ job := jobOf 9 2, core := 0 }] := by decide +kernel
/-- The completion record at offset 0x300 with count `n`. -/
def grouped (n : Nat) : State := with' (withRec base 0x400 2 0 0 0) (2 ^ 61 + 0x300) 8 n
theorem witness_Scheduler_steps : let s := grouped 5
    s.absent = [] ∧ s.hwPlace 0 0 (2 ^ 40 + 0x400) [1, 2, 4] = some (2 ^ 61 + 0x400, true, none) ∧ 2 ≤ s.num (2 ^ 61 + 0x400 + 32) 4 ∧
    (let r : GroupRef := { part := 0, tenant := 0, offset := 0 }
     s.hwPlace 0 0 (s.groupAddr r) [1, 2] = some (2 ^ 61 + 0x8000, true, none) ∧ ((s.num (2 ^ 61 + 0x8000) 8 : Int) + 1) % 2 ^ 64 ≠ 0) ∧
    s.cardsWrite { part := 0, tenant := 0, core := 0, slot := 5, cached := false } 0 (2 ^ 40 + 0x300) 8 = false ∧
    (s.hwLoad { part := 0, tenant := 0, core := 0, slot := 5, cached := false } 0 (2 ^ 40 + 0x300) 8).map (fun p => (p.1, decide (p.2.clusters = s.clusters))) =
      some (5, true) := by decide +kernel
/-- The completion record of offset 0 with one task live, whose future at 0x300, if it has one, holds `lo`; its journal entry is `seq`. -/
def completing (fut lo seq : Nat) : State :=
  with' (with' (with' (with' base (2 ^ 61 + 0x8000) 8 1) (2 ^ 61 + 0x8010) 8 fut) (2 ^ 61 + 0x8018) 8 seq) (2 ^ 61 + 0x300) 8 lo
/-- The group's step as its last task ends. -/
def lastStep : GroupStep := { ref := { part := 0, tenant := 0, offset := 0 }, delta := -1, core := 0 }
/-- The record as the step has written it. -/
def written (s : State) : State := s.writeAll (writesAt (2 ^ 61 + 0x8000) (toBytes 8 0 ++ toBytes 4 1 ++ toBytes 4 0))
theorem witness_Scheduler_group : (∀ f ∈ [0, 0x1001, 2 ^ 40 + 0x300], ∀ q ∈ [0, 3], let s := { completing f 0 q with groupSteps := [lastStep] }
      s.absent = [] ∧ lastStep.seq = none ∧ s.stepReady 0 0 0 (s.groupAddr lastStep.ref) 32 = true ∧
      s.hwPlace 0 0 (s.groupAddr lastStep.ref) [1, 2] = some (2 ^ 61 + 0x8000, true, none) ∧
      (((s.num (2 ^ 61 + 0x8000) 8 : Int) + lastStep.delta) % 2 ^ 64).toNat = 0 ∧ (written s).num (2 ^ 61 + 0x8010) 8 = f) ∧
    (∀ lo ∈ [0, 2 ^ 40 + 0x401, 2], let w := written (completing (2 ^ 40 + 0x300) lo 3)
      w.hwPlace 0 0 (2 ^ 40 + 0x300) [1, 2, 4] = some (2 ^ 61 + 0x300, true, none) ∧ w.num (2 ^ 61 + 0x300) 8 = lo ∧ lo / 4 % 4 = 0 ∧ lo < 2 ^ 52) ∧
    (let s := { completing 0 0 0 with groupSteps := [{ lastStep with delta := 1 }] }
     (((s.num (2 ^ 61 + 0x8000) 8 : Int) + 1) % 2 ^ 64).toNat ≠ 0) := by decide +kernel
theorem witness_Scheduler_release : let s := { grouped 5 with releases := [{ addr := 2 ^ 40 + 0x400, tenant := 0, part := 0, core := 0 }] }
    (2 ^ 40 + 0x400) % 64 = 0 ∧ s.stepReady 0 0 0 (2 ^ 40 + 0x400) 64 = true ∧
    s.hwPlace 0 0 (2 ^ 40 + 0x400) [1, 2, 4] = some (2 ^ 61 + 0x400, true, none) := by decide +kernel
/-- A LAUNCHI of slot 5 at the head of its queue, whose count word at 0x300 has been seen to hold `v`, or not. -/
def launchiOf (v : Option Nat) : Entry := { job := jobOf 0 0, count := 0, gcount := 0, unread := some (0, 2 ^ 40 + 0x300, 5), seen := v }
theorem witness_Scheduler_count : (∀ v ∈ [none, some 0, some 7], let s := (grouped 5).modCluster 0 fun c => { c with ready := [launchiOf v] }
      (s.cluster 0).ready = [launchiOf v] ∧ (s.cluster 0).ring = [] ∧ (launchiOf v).job.group = 0#64 ∧
      s.countReady { part := 0, tenant := 0, core := 0, slot := 5, cached := false } 0 (2 ^ 40 + 0x300) = true) ∧
    ∀ n ∈ [0, 5], let s := (grouped n).modCluster 0 fun c => { c with ready := [launchiOf none] }
      (s.hwLoad { part := 0, tenant := 0, core := 0, slot := 5, cached := false } 0 (2 ^ 40 + 0x300) 8).map (fun p => (p.1, decide (p.2.clusters = s.clusters))) =
        some (n, true) := by decide +kernel
theorem witness_Scheduler_steps_homes : ∀ h, (grouped 5).homeHeld h = false := fun h => by
  have : (grouped 5).releases = [] := by decide +kernel
  simp [State.homeHeld, this]
theorem witness_Scheduler_hold : (base.ringRoom (jobOf 0 0).part 0 (((insertEntry { job := jobOf 0 0 } []).drop 256).filter fun x => x.job.part == 0).length) = true ∧
    0 + 2 ^ 24 ≤ ({ base with now := 2 ^ 24 } : State).now ∧ ({ base with now := 2 ^ 24 } : State).partFld 0 0x800 3 1 = 0 := by decide +kernel

/-- A host's store of `addr` to word `off` of the enqueue window of tenant 0 in cluster 0, in flight in `s`. -/
def storing (off : Nat) (addr : U64) (s : State) : State :=
  { s with flight := [{ mkAccess s 1 0 (.window 0 0 off addr) 0 [] none [] none false with slot := 0x1FFF }] }
/-- Whether a store of a window stands in flight and may be performed. -/
def atWindow (off : Nat) (addr : U64) (s : State) : Bool :=
  (storing off addr s).flight.all fun a => a.slot == 0x1FFF && decide (a.kind = .window 0 0 off addr) && !a.rst && (storing off addr s).mayPerform a
theorem witness_WindowsAndBudgets : (record 0 0 0).fw.booted = true ∧ (4#64).toNat % 64 ≠ 0 ∧ 2 ^ 52 ≤ (BitVec.ofNat 64 (2 ^ 52)).toNat ∧
    atWindow 0 4#64 (record 0 0 0) = true ∧ atWindow 8 4#64 (record 0 0 0) = true ∧ atWindow 0 (BitVec.ofNat 64 (2 ^ 40 + 0x400)) (record 0 0 0) = true ∧
    atWindow 8 (BitVec.ofNat 64 (2 ^ 40 + 0x600)) (descriptor 0 (toBytes 8 2 ++ toBytes 8 0x40)) = true := by decide +kernel
theorem witness_WindowsAndBudgets_spawn : let s := storing 0 (BitVec.ofNat 64 (2 ^ 40 + 0x400)) (record 0 0 0)
    s.absent = [] ∧ (s.hwPlace 0 0 (2 ^ 40 + 0x400) [1, 2, 4] = some (2 ^ 61 + 0x400, true, none) ∧ s.recOk (recAt s) [0, 1] = true ∧
    (recAt s).join = 0#32 ∧ (recAt s).hen = false ∧ (recAt s).group = 0#64 ∧ (s.cluster 0).hold = none) ∧ (s.cluster 0).ready = [] ∧ (s.cluster 0).ring = [] ∧
    (record 0 2 0).recOk (recAt (record 0 2 0)) [0, 1] = false := ⟨rfl, by decide +kernel, rfl, rfl, by decide +kernel⟩
/-- What a SUBMIT of the descriptor at 0x600 reads of it, and what `p` says of its header and records. -/
def submitted (s : State) (p : List Byte → List Rec → State → Bool) : Bool :=
  s.hwPlace 0 0 (2 ^ 40 + 0x600) [1] == some (2 ^ 61 + 0x600, true, none) &&
    match State.hwRecs { s with flight := [] } 0 0 (2 ^ 40 + 0x600) (descriptorCount 1 64 (s.bytes (2 ^ 61 + 0x600) 64)) 1 with
    | some (rs, v) => p (s.bytes (2 ^ 61 + 0x600) 64) rs v
    | none => false
/-- The groups that the scheduler of `v` admits for records `rs`. -/
def admitted (v : State) (rs : List Rec) : Option State :=
  v.admitGroups 0 (v.tenantClass 0 0) 0 (rs.map fun r => [{ slot := 0, job := r, charge := r.budget.toNat + 16 }])
theorem witness_WindowsAndBudgets_submit : let s := descriptor 0 (toBytes 8 2 ++ toBytes 8 0x40)
    submitted s (fun hdr rs v => s.submitOk hdr rs && match admitted v rs with
      | some w => (w.journalNew 0 (leAt hdr 8 8) (firstDeadline rs) 0 0 noSlot 0).1.isSome
      | none => false) = true ∧
    submitted (s.setPartReg 0 0x80F 0) (fun hdr rs v => (s.setPartReg 0 0x80F 0).submitOk hdr rs && (admitted v rs).isNone) = true ∧
    submitted (descriptor 2 (toBytes 8 2 ++ toBytes 8 0x40)) (fun hdr rs _ => !(descriptor 2 (toBytes 8 2 ++ toBytes 8 0x40)).submitOk hdr rs) = true := by
  decide +kernel
/-- A slice of deadline `d` that needs 116 cycles' share. -/
def sliceOf (d : Nat) : Slice := { slot := 0, job := { jobOf 0 0 with deadline := BitVec.ofNat 64 d }, charge := 116 }
/-- Slot `h` of `base` has room for it: one slice, with 116 at most a twelfth of the cycles to its deadline; not, where they are none. -/
theorem witness_WindowsAndBudgets_admission : (1 ∈ base.reservedIn 0 0 0) ∧ (base.slices = [] ∧ (base.slot 1).admitted = false) ∧
    (∀ D : Nat, (D = 50000 ∨ 50000 < D ∧ ∃ y ∈ [sliceOf 50000], y.job.deadline.toNat = D) →
      (((([sliceOf 50000].filter fun x => decide (x.job.deadline.toNat ≤ D)).map fun x => x.charge).sum : Nat) : Int) ≤ ((D : Int) - (base.cycle 0).toNat) / 12) ∧
    ¬ (((([sliceOf 100].filter fun x => decide (x.job.deadline.toNat ≤ 100)).map fun x => x.charge).sum : Nat) : Int) ≤ ((100 : Int) - (base.cycle 0).toNat) / 12 := by
  refine ⟨by decide +kernel, by decide +kernel, ?_, by decide +kernel⟩
  rintro D (rfl | ⟨h, y, hy, e⟩)
  · decide +kernel
  · obtain rfl : y = sliceOf 50000 := by simpa using hy
    rw [show (sliceOf 50000).job.deadline.toNat = 50000 by decide +kernel] at e
    omega
theorem witness_WindowsAndBudgets_groups : (base.bindSlices [sliceOf 50000] (base.reservedIn 0 0 0)).isSome = true ∧
    base.bindSlices [sliceOf 100] (base.reservedIn 0 0 0) = none := by decide +kernel
theorem witness_WindowsAndBudgets_spent : (let x := (at' 5 fun x => { x with admitted := true }).slot 5
      x.live = true ∧ x.admitted = true ∧ x.charge = 0 ∧ x.tile? = none ∧ x.wait = Wait.none ∧ x.group = 0#64) ∧
    (let x := (at' 5 fun x => { x with limited := true, ten := true, tbase := BitVec.ofNat 39 (2 ^ 27) }).slot 5
     x.live = true ∧ x.limited = true ∧ x.issues = 0#32 ∧ x.stopped = none ∧ x.grace = false ∧ x.handles .budget = true) ∧
    (let s := at' 0 fun x => { x with limited := true, grace := true }
     (s.slot 0).live = true ∧ (s.slot 0).limited = true ∧ (s.slot 0).issues = 0#32 ∧ (s.slot 0).grace = true ∧ (s.slot 0).tile? = none ∧ s.flight = [] ∧
     (s.slot 0).borrow = none ∧ (s.slot 0).phase = Phase.task ∧ slotNo 0 = 0 ∧ (s.slot 0).stopped = none) := by decide +kernel

/-! ## Witnesses: partitions, firmware, errors and links -/

theorem witness_PartitionsAndFirmware : let s : State := ({ base with parts := [(0, { base.part 0 with running := false })] } : State).setPartReg 0 0x806 1#64
    (s.part 0).running = false ∧ s.fw.booted = true ∧ s.blockOk 0 = true ∧ code.legal = true ∧ code.tag = true ∧ (cap 2 0x40 0x400).legal = true ∧
    (cap 2 0x40 0x400).bits ≠ 0#128 ∧ s.dieStart = [] ∧ 0 ≤ s.now ∧ ({ s with dieStart := [(0, 101)] } : State).dieStart.get 0 (dieOf 0) > s.now ∧ ({ s with parts := [(0, { s.part 0 with running := true })] } : State).ownsCore 0 0 = true ∧ (base.part 0).running = true ∧ (State.reset.part 0).running = false ∧ State.reset.blockOk 0 = false ∧
    State.reset.fw.booted = false ∧ ({ tag := true, bits := 31 * 2 ^ 52 } : Cap).legal = false := by decide +kernel
theorem witness_PartitionsAndFirmware_rings : ∀ cl, (base.cluster cl).ring = [] := fun _ => rfl
theorem witness_PartitionsAndFirmware_tenants : (∀ g ∈ helpersOf 0, (base.slot g).tenant = 0 ∧ (base.slot g).live = false ∧ (base.slot g).borrowed = false) ∧
    (base.slot 11).live = false ∧ base.commandsOn (quadOf 0) = false ∧ (base.quad (quadOf 0)).leaving = none ∧
    (let s := (List.range 11).foldl (fun s i => s.setSlot i { live := true }) base
     ∀ g ∈ helpersOf 0, (s.slot g).tenant ≠ 3 ∧ (s.slot g).live = true ∧ (s.slot g).admitted = false ∧ (s.slot g).preempt = none) := by decide +kernel
theorem witness_PartitionsAndFirmware_errors : State.reset.fw.booted = false ∧ State.reset.fw.bootFailed = false ∧ base.fw.booted = true ∧
    (base.errRing.get [] 0).length < base.errCap ∧ ({ base with errCap := 0 } : State).errCap ≤ (base.errRing.get [] 0).length := by decide +kernel
/-- Link `l` changed by `f`. -/
def linked (l : Nat) (f : Link → Link) : State := base.modLink l f
theorem witness_Links : (∃ l < 16, (dieRoute (l / 4) (l % 4)).length = 1 ∧ base.dieUp (l / 4) = true ∧ base.dieUp (l % 4) = true) ∧
    ({ base with dieStart := [(0, 101)] } : State).dieUp 0 = false ∧ (8#4).toNat ≤ 8 ∧
    (∀ cls ∈ [0, 1], let s := linked 3 fun k => { k with waiting := [(2 * cls, [flitOf 4, flitOf 5])], tokens := 1 }
      (s.link 3).waiting = [(2 * cls, [flitOf 4, flitOf 5])] ∧ 0 < (s.link 3).free 3 (2 * cls) ∧ s.linkDown 3 = false ∧ (s.link 3).chosenAt ≠ some s.now ∧ 1 ≤ (s.link 3).tokens) ∧
    ({ base with hostDown := 15#4 } : State).linkDown 2600 = true ∧
    base.hostDown.getLsbD 0 = false ∧ base.portDown.getLsbD 3 = false ∧ (({ base with hostDown := 1#4 } : State).hostDown ≠ 15#4) ∧
    ((linked 3 fun k => { k with unacked := [flitOf 4] }).link 3).unacked ≠ [] := by decide +kernel
theorem witness_Links_credit : ∀ path ∈ [[], [7]], let s := linked 3 fun k => { k with unacked := [{ flitOf 4 with path := path }] }
    (s.link 3).unacked.filter (fun f => f.sub == 2 * 0 + (if false then 1 else 0)) = [{ flitOf 4 with path := path }] := by decide +kernel

/-! ## Words of the encoding: the fixed bits of each row of the opcode table with a value in every operand field -/

theorem words_integer : ∀ e ∈ [(0x24006, Instr.add .queue (.nam 2#4) (.age 0#4)), (0xB18006, .sub .queue (.age 12#4) (.age 12#4)),
    (0x16DE006, .mul .queue (.age 15#4) (.nam 11#4)), (0x1AD7406, .mulh (.nam 4#4) (.age 11#4) (.age 11#4)), (0x2628006, .mulhu .queue (.nam 4#4) (.nam 8#4)),
    (0x4B1DF06, .and (.nam 15#4) (.age 14#4) (.age 12#4)), (0x5296006, .or .queue (.age 11#4) (.age 10#4)), (0x5C10006, .xor .queue (.age 8#4) (.nam 0#4)),
    (0x62CFE06, .andn (.nam 14#4) (.age 7#4) (.age 11#4)), (0x6D59106, .shl (.nam 1#4) (.age 12#4) (.nam 5#4)), (0x719A006, .shr .queue (.age 13#4) (.age 6#4)),
    (0x7A81D06, .sra (.nam 13#4) (.age 0#4) (.age 10#4)), (0x8507206, .rol (.nam 2#4) (.age 3#4) (.nam 4#4)), (0x8E26006, .min .queue (.nam 3#4) (.nam 8#4)),
    (0x916E006, .max .queue (.nam 7#4) (.age 5#4)), (0x9E96006, .minu .queue (.age 11#4) (.nam 10#4)), (0xA3FF706, .maxu (.nam 7#4) (.nam 15#4) (.age 15#4)),
    (0xAEFE006, .slt .queue (.nam 15#4) (.nam 11#4)), (0xB642006, .sltu .queue (.age 1#4) (.nam 9#4)), (0xBC08006, .seq .queue (.age 4#4) (.nam 0#4)),
    (0xC050006, .sne .queue (.age 8#4) (.age 1#4)), (0xC800006, .clz .queue (.age 0#4)), (0xD00E006, .ctz .queue (.age 7#4)),
    (0xD83DE06, .popc (.nam 14#4) (.nam 14#4)), (0xE008006, .brev .queue (.age 4#4)), (0xEB6E006, .sext .queue (.nam 7#4) (.age 13#4)),
    (0xF4BB006, .zext (.nam 0#4) (.nam 13#4) (.nam 2#4)), (0x2FE7BE06, .sel (.nam 14#4) (.nam 13#4) (.nam 9#4) 2#4), (0x2A36006, .div .queue (.nam 11#4) (.age 8#4)),
    (0x3505D06, .divu (.nam 13#4) (.age 2#4) (.nam 4#4)), (0x3D22006, .rem .queue (.nam 1#4) (.nam 4#4)), (0x44FD906, .remu (.nam 9#4) (.nam 14#4) (.nam 3#4)),
    (0x15C19A0A, .addi (.nam 10#4) (.age 12#4) 174#11), (0x3AA7800A, .andi .queue (.nam 12#4) 469#11), (0x7EE8580A, .ori (.nam 8#4) (.age 2#4) 1015#11),
    (0x50AE400A, .xori .queue (.nam 2#4) 645#11), (0x213800A, .shli .queue (.nam 12#4) 16#11), (0x37510A, .shri (.nam 1#4) (.nam 10#4) 1#11),
    (0x1DB980A, .srai (.nam 8#4) (.nam 12#4) 14#11), (0x9CDF000A, .slti .queue (.nam 8#4) 1254#11), (0x8100310E, .li (.nam 1#4) 264193#19),
    (0x5080112, .xset 1#3 1288#16 0#2)], decodeTableWord 32 e.1 = some e.2 := by decide +kernel
theorem words_move_and_system : ∀ e ∈ [(0x800016, Instr.xget .queue 0#3), (0x2DD16, .mov (.nam 13#4) (.nam 6#4)), (0x1030216, .xsetr 2#3 (.nam 8#4)),
    (0x1801516, .nclr 21#4), (0x2834016, .ntest .queue 26#4), (0x220DD316, .nwr 2#2 19#4 (.age 14#4) 3#5), (0x3015C16, .borrow (.nam 12#4) (.age 10#4)),
    (0x3827016, .brd (.nam 0#4) 19#4), (0x4027216, .bwr 18#4 (.nam 3#4)), (0x4800016, .bret), (0x5034416, .qsend 4#3 (.nam 10#4)),
    (0x580DE16, .qrecv (.nam 14#4) 6#3), (0x600C016, .qstat .queue 6#3), (0x6801916, .rng (.nam 9#4)), (0x7038016, .rngseed (.nam 12#4)), (0x7800016, .cycle .queue),
    (0x210C141A, .mfs (.nam 4#4) 2115#12), (0x22082C1A, .mts 2178#12 (.age 12#4)),
    (0x2008C01A, .mtsi 2050#12 1#3 0#5)], decodeTableWord 32 e.1 = some e.2 := by decide +kernel
theorem words_compact : ∀ e ∈ [(0x2E44, Instr.addC 9#4 11#4), (0xDC8, .subC 7#4 3#4), (0x244C, .andC 1#4 9#4), (0x3E50, .orC 9#4 15#4), (0x1814, .xorC 0#4 6#4),
    (0x3ED8, .shliC 11#4 15#4 0#2), (0xA45C, .shriC 1#4 9#4 2#2), (0x86A0, .addiC 10#4 1#4 2#2), (0x20E4, .mulC 3#4 8#4), (0x628, .sltC 8#4 1#4),
    (0x3AEC, .seqC 11#4 14#4), (0x14F0, .movCToNamed 5#4 3#4), (0x834, .movCFromNamed 2#4), (0x9B38, .liC 12#4 6#4 2#2), (0x3FC, .movCAge 15#4), (0x1, .nop),
    (0x9D45, .jC 629#10), (0xA809, .bezC 672#10), (0x3F4D, .bnzC 253#10), (0x11, .lexit), (0x15, .doneC), (0x3019, .chkptC 192#10), (0xED9D, .realignC 950#10),
    (0x21, .retC), (0x125, .nclrC 4#4), (0x29, .fenceCoreC)], decodeTableWord 16 e.1 = some e.2 := by decide +kernel
theorem words_capability : ∀ e ∈ [(0x141E, Instr.cgeta (.nam 4#4) 0#3), (0x80971E, .cgetb (.nam 7#4) 4#3), (0x100601E, .cgetl .queue 3#3),
    (0x180DF1E, .cgetp (.nam 15#4) 6#3), (0x200111E, .ctag (.nam 1#4) 0#3), (0x280811E, .cmov 1#3 4#3), (0x580001E, .cclr 0#3), (0x618A01E, .ceq .queue 5#3 6#3),
    (0x688981E, .csub (.nam 8#4) 4#3 2#3), (0x304C01E, .cseta 0#3 6#3 (.age 1#4)), (0x39C841E, .cinc 4#3 4#3 (.age 7#4)),
    (0x1468021E, .cbound true 2#3 0#3 (.nam 10#4)), (0x484201E, .cperm 0#3 1#3 (.age 1#4)), (0x500601E, .cgen 0#3 3#3),
    (0x754211E, .ldk 1#3 673#10)], decodeTableWord 32 e.1 = some e.2 := by decide +kernel
theorem words_control : ∀ e ∈ [(0x8CA3EC22, Instr.beq (.age 12#4) (.nam 15#4) 1125#11), (0x2244B222, .bne (.nam 2#4) (.age 5#4) 274#11),
    (0x166BAB22, .blt (.age 11#4) (.nam 13#4) 179#11), (0xAECD8222, .bge (.age 2#4) (.age 12#4) 1398#11), (0x3FF22822, .bltu (.age 8#4) (.nam 1#4) 511#11),
    (0xA2B60122, .bgeu (.age 1#4) (.nam 0#4) 1301#11), (0x995A1822, .bbs (.nam 8#4) (.nam 0#4) 1226#11), (0x5DC0B22, .bbc (.age 11#4) (.age 0#4) 46#11),
    (0x55114126, .bez (.age 1#4) 87109#18), (0xE32B6E26, .bnz (.age 14#4) 232621#18), (0x6A4A442A, .bgs 4#4 108841#18), (0x1135142A, .bgc 4#4 17620#18),
    (0xC00073E, .gwait 7#4), (0x50BC6E2E, .j 2645559#23), (0xC735492E, .call 6527652#23), (0x332, .jk 3#3), (0xD32, .callk 5#3),
    (0xBFFF5036, .loop (.nam 0#4) 196605#18), (0x9FB82736, .loopm 7#3 163552#18), (0x9893813A, .loopi 897#10 9764#14),
    (0x17073E, .gset 0#3 7#4 (.nam 8#4) (.age 5#4)), (0x5F82E3E, .gsetn 3#3 14#4 (.age 1#4) (.nam 14#4)),
    (0x800093E, .gclr 9#4)], decodeTableWord 32 e.1 = some e.2 := by decide +kernel
theorem words_memory : ∀ e ∈ [(0x134EE042, Instr.ld 6#3 .queue 7#3 617#13), (0x690D6146, .st 1#2 true 3#3 3361#13 (.age 1#4)),
    (0x49B204A, .ldx 1#3 true .queue 1#3 (.nam 11#4) 0#2), (0xDD6C74A, .stx 3#2 true 6#3 (.nam 6#4) 2#2 (.age 7#4)), (0x8818654E, .ldc 5#3 3#3 17420#15),
    (0x22E62D4E, .stc 1#3 4467#15 5#3), (0xDA506052, .aadd true 2#2 .queue 3#3 218#8), (0x3B518052, .aand true 2#2 .queue 4#3 59#8),
    (0x6872DE52, .aor true 3#2 (.nam 14#4) 6#3 104#8), (0xD33FA52, .axor true 1#2 (.nam 10#4) 7#3 13#8), (0x82144052, .amin true 0#2 .queue 2#3 130#8),
    (0x9B652052, .amax false 3#2 .queue 1#3 155#8), (0x9C565F52, .aminu true 2#2 (.nam 15#4) 2#3 156#8), (0x80679F52, .amaxu false 3#2 (.nam 15#4) 4#3 128#8),
    (0x53287452, .aswp false 1#2 (.nam 4#4) 3#3 83#8), (0x6A390052, .acas true 1#2 .queue 0#3 106#8), (0x5B1A5B52, .afadd true 0#2 (.nam 11#4) 2#3 91#8),
    (0x1456, .fence 2#3 4#3), (0x800056, .efence), (0x1000056, .ifence), (0x1050805A, .rst 1#2 4#3 (.nam 4#4)), (0x98205A, .amsg 1#3 6#3),
    (0x100005A, .rdrain)], decodeTableWord 32 e.1 = some e.2 := by decide +kernel
theorem words_task_and_synchronisation : ∀ e ∈ [(0x5F5E, Instr.spawn (.nam 15#4) 2#3), (0x80D85E, .start (.nam 8#4) 6#3), (0x200125E, .join (.nam 2#4) 0#3),
    (0x2FC385E, .walk (.nam 8#4) 1#3 (.nam 15#4)), (0x100005E, .done), (0x1F1005E, .yield (.age 8#4) (.nam 12#4)), (0x310905E, .launch (.nam 0#4) 4#3 (.age 4#4)),
    (0x390A05E, .launchi .queue 5#3 4#3), (0x400605E, .gang .queue 3#3), (0x480605E, .submit .queue 3#3), (0x501805E, .dline .queue (.age 12#4)),
    (0x580015E, .self 1#3), (0x8062, .finit 4#3), (0xCC0062, .fres .queue 0#3 (.nam 3#4)), (0x1180062, .freg .queue 0#3 6#3), (0x180E062, .fget .queue 7#3),
    (0x200E062, .fstat .queue 7#3), (0x87166, .rinit 3#3 2#3 17#5), (0x8C1F66, .rclaim 0#3 (.nam 15#4) 0#3 (.age 3#4)),
    (0x1243266, .rtryclaim 0#3 (.nam 2#4) 1#3 (.age 9#4)), (0x31D4AA66, .rcommit 3#3 5#3 (.age 10#4) (.nam 5#4)), (0x4248A066, .rawait 4#3 .queue 5#3 (.nam 2#4)),
    (0x228CB566, .rretire 2#3 5#3 (.nam 5#4) (.age 3#4)), (0x20006A, .binit 0#3 (.age 8#4)), (0x3094A06A, .barrive 3#3 .queue 5#3 (.age 5#4)),
    (0x168E06A, .bexpect 7#3 (.nam 10#4)), (0x41A0E06A, .bwait 4#3 7#3 (.age 8#4)),
    (0x32685A6A, .btest 3#3 (.nam 10#4) 2#3 (.nam 10#4))], decodeTableWord 32 e.1 = some e.2 := by decide +kernel
theorem words_system : ∀ e ∈ [(0x2406E, Instr.trap (.nam 2#4)), (0x180006E, .brk), (0x80006E, .rte), (0x165BC6E, .svc (.nam 12#4) (.age 13#4) (.nam 9#4)),
    (0x256006E, .chkpt 688#10), (0x2AF206E, .realign 377#10), (0x301206E, .wfi .queue (.age 9#4)), (0x380006E, .halt),
    (0x401A06E, .tinv false (.age 13#4) (.age 0#4))], decodeTableWord 32 e.1 = some e.2 := by decide +kernel
theorem words_claims : ∀ e ∈ [(0x2E0072, Instr.vclaim .queue (.nam 0#4) (.age 11#4)), (0xFBB272, .vreneg (.nam 2#4) (.nam 13#4) (.nam 14#4)),
    (0x1000072, .vrel)], decodeTableWord 32 e.1 = some e.2 := by decide +kernel
theorem words_VINT : ∀ e ∈ [(0xFC7076, Instr.vadd none 1#3 16#5 3#5 31#5), (0x484B176, .vsub none 1#3 17#5 5#5 1#5), (0x8BA2B76, .vmul none 1#3 11#5 17#5 14#5),
    (0xD8DD276, .vmulh none 3#3 18#5 14#5 3#5), (0x10CEC576, .vmin none 1#3 5#5 22#5 19#5), (0x14A5F176, .vmax none 1#3 17#5 15#5 9#5),
    (0x1823F376, .vminu none 0#3 19#5 31#5 8#5), (0x1CA52A76, .vmaxu none 1#3 10#5 9#5 9#5), (0x210EE676, .vand none 2#3 6#5 23#5 3#5),
    (0x249BF076, .vor none 1#3 16#5 31#5 6#5), (0x2937E376, .vxor none 2#3 3#5 31#5 13#5), (0x2D76E276, .vshl none 2#3 2#5 23#5 29#5),
    (0x302EF176, .vshr none 0#3 17#5 23#5 11#5), (0x35E55C76, .vsra none 3#3 28#5 10#5 25#5), (0x3881AF76, .vabs none 1#3 15#5 13#5),
    (0x3CAE8376, .vsadd none 1#3 3#5 20#5 11#5), (0x40E27E76, .vssub none 1#3 30#5 19#5 24#5)], decodeTableWord 32 e.1 = some e.2 := by decide +kernel
theorem words_VFP : ∀ e ∈ [(0x2B21F7A, Instr.vfadd none 5#3 31#5 16#5 12#5), (0x7687C7A, .vfsub none 6#3 28#5 3#5 26#5), (0xA7B6F7A, .vfmul none 4#3 15#5 27#5 30#5),
    (0xECACC7A, .vfma none 5#3 12#5 22#5 18#5), (0x13718A7A, .vfdiv none 6#3 10#5 12#5 28#5), (0x1681427A, .vfsqrt none 5#3 2#5 10#5),
    (0x1A6F377A, .vfmin none 4#3 23#5 25#5 27#5), (0x1EBC747A, .vfmax none 5#3 20#5 3#5 15#5), (0x2301257A, .vfabs none 6#3 5#5 9#5),
    (0x2780517A, .vfneg none 7#3 17#5 2#5), (0x2B83E57A, .vfrcp none 7#3 5#5 31#5), (0x2F00267A, .vfrsq none 6#3 6#5 1#5), (0x33003D7A, .vfexp2 none 6#3 29#5 1#5),
    (0x3601917A, .vflog2 none 4#3 17#5 12#5), (0x3A039A7A, .vfclass none 4#3 26#5 28#5)], decodeTableWord 32 e.1 = some e.2 := by decide +kernel
theorem words_vector : ∀ e ∈ [(0x131547E, Instr.vcmp none 2#3 2#2 4#3 10#5 12#5), (0x751657E, .vfcmp none 6#3 0#2 5#3 11#5 20#5),
    (0x81C457E, .vmand none 5#3 2#3 7#3), (0xC04C07E, .vmor none 0#3 6#3 1#3), (0x100CC07E, .vmxor none 0#3 6#3 3#3), (0x1400E27E, .vmnot none 2#3 7#3),
    (0x1800107E, .vmpop none (.nam 0#4) 0#3), (0x1C00187E, .vmfirst none (.nam 8#4) 0#3), (0x1061382, .vcvt none 2#3 19#5 16#5 1#3 0#2),
    (0x61B9582, .vqbfp none 4#3 21#5 28#5 6#3), (0xA050582, .vdqbfp none 4#3 5#5 8#5 1#3), (0x643E86, .vld none 0#3 30#5 1#3 25#5),
    (0x41C3B86, .vst none 0#3 27#5 1#3 7#5), (0xA40D886, .vlds none 4#3 24#5 6#3 (.nam 0#4)), (0xE686086, .vsts none 4#3 0#5 3#3 (.nam 10#4)),
    (0x1130CD86, .vgth none 2#3 13#5 6#3 12#5), (0x1534FB86, .vsct none 2#3 27#5 7#3 13#5), (0x180DA8A, .vbcast none 3#3 26#5 (.age 6#4)),
    (0x60A408A, .vext none 4#3 .queue 18#5 (.age 2#4)), (0x896A98A, .vins none 1#3 9#5 (.nam 5#4) (.age 5#4)), (0xD80128A, .viota none 3#3 18#5),
    (0x1328248A, .vshuf none 6#3 4#5 1#5 10#5), (0x17819A8A, .vredsum none 7#3 (.nam 10#4) 12#5), (0x1802B98A, .vredmax none 0#3 (.nam 9#4) 21#5),
    (0x1D81F48A, .vredmin none 3#3 (.nam 4#4) 15#5), (0x21C448E, .vtbl none 4#3 4#5 2#5 7#3), (0x500198E, .vrng none 2#3 25#5),
    (0xB00038E, .vrngn none 6#3 3#5)], decodeTableWord 32 e.1 = some e.2 := by decide +kernel
theorem words_moment : ∀ e ∈ [(0x2114092, Instr.madd none 4#3 0#4 10#4 4#4), (0x429A792, .msub none 0#3 7#4 13#4 10#4), (0x9AC6892, .mmul none 3#3 8#4 3#4 11#4),
    (0xC516792, .mscale none 7#4 11#4 20#5), (0x10300D92, .mfma none 0#3 13#4 0#4 12#5), (0x14014892, .mneg none 8#4 10#4), (0x14796, .mrelu none 7#4 10#4),
    (0x4000B96, .msig none 11#4 0#4), (0x801C596, .mexp none 5#4 14#4), (0xC000A96, .msqr none 10#4 0#4), (0x3F4D9A, .mset none 13#4 26#5 15#5),
    (0x401639A, .mmean none 3#5 11#4), (0x8012C9A, .mvar none 12#5 9#4), (0xC0D899A, .mcoll none 3#3 9#5 12#4), (0x1048439A, .mld none 3#4 2#3 18#5),
    (0x1414A79A, .mst none 7#4 5#3 5#5), (0x1800599A, .mchk none (.nam 9#4) 2#4)], decodeTableWord 32 e.1 = some e.2 := by decide +kernel
theorem words_tile_and_matrix : ∀ e ∈ [(0x746D9E, Instr.zld false 13#4 3#3 (.nam 13#4)), (0xA0069E, .zst 6#4 0#3 (.age 8#4)), (0x100049E, .zzero 4#4),
    (0x180029E, .zrel 2#4), (0x281479E, .zmov 7#4 10#4), (0x200B99E, .zstate (.nam 9#4) 5#4), (0x160A2, .wload 11#4), (0x8000A2, .wswap), (0x10022A2, .mma 2#3 1#4),
    (0x180A3A2, .mmam 3#3 5#4), (0x120005A2, .yzero true 5#3), (0x30064A2, .ymov 4#3 3#3), (0x2F06CA2, .ydrain none false 12#4 3#3 (.nam 12#4)),
    (0x382E0A2, .qfuse (.nam 7#4)), (0x402E0A2, .qsplit (.nam 7#4))], decodeTableWord 32 e.1 = some e.2 := by decide +kernel
theorem words_engine_layer_and_surrogate : ∀ e ∈ [(0x1DBA6, Instr.copy 3#3 true true 11#4), (0x81D1A6, .xform 1#3 true true 10#4),
    (0x1012CA6, .coll 4#3 true false 5#4), (0x181C1A6, .trace 1#3 true true 8#4), (0x20080A6, .ewait .queue 4#3), (0x280A0A6, .estat .queue 5#3),
    (0x2C0AA, .lnew .queue (.nam 6#4)), (0x8040AA, .lfree (.age 2#4)), (0x20180AA, .lest .queue (.age 12#4)), (0x2BA80AA, .lprice (.nam 4#4) (.age 14#4)),
    (0x5E9A0AA, .llight (.age 13#4) (.nam 10#4)), (0x118A8AA, .lset 8#5 (.age 5#4) 6#5), (0x1CE80AA, .lget 19#5 .queue (.nam 4#4)), (0x30011AA, .lreq (.nam 1#4)),
    (0x130019AA, .lreqS (.nam 9#4)), (0x38380AA, .lbegin (.nam 12#4)), (0x40060AA, .ldone (.age 3#4)), (0x4F280AA, .lsplit (.nam 4#4) (.nam 12#4)),
    (0x53D20AA, .lmerge (.age 9#4) (.age 15#4)), (0x60000AA, .compose .queue), (0x60AE, .slaunch .queue 3#3), (0x8060AE, .sresid (.age 3#4)),
    (0x17860AE, .sresidm (.age 3#4) (.nam 14#4)), (0x18000AE, .sabort), (0x20000AE, .sstat .queue 0#3)], decodeTableWord 32 e.1 = some e.2 := by decide +kernel

/-- Prefix words (R41) before VADD of INT32, VFMA of FP32, MADD and VLD of INT16: the mask register in bits 4 to 2, ME, ZERO, the rounding
mode in bits 9 to 7, SAT, the fourth operand in bits 15 to 11 with its enable, the covariance in bits 18 to 17, the override type. -/
def pfx (f : Pfx → Pfx) : Option Pfx := some (f { rnd := 0#3, sat := false, f4 := 0#5, cov := 0#2, f4e := false, ove := false, ovt := 0#3, me := false, zero := false, vm := 0#3 })
theorem words_prefixed : ∀ e ∈ [(3 + 2 ^ 2 * 3 + 2 ^ 5 + 2 ^ 6 + 2 ^ 10, 0x010C4176, Instr.vadd (pfx fun q => { q with vm := 3#3, me := true, zero := true, sat := true }) 2#3 1#5 2#5 3#5),
    (3 + 2 ^ 7 * 5 + 2 ^ 11 * 9 + 2 ^ 16, 0x0F0C417A, .vfma (pfx fun q => { q with rnd := 5#3, f4 := 9#5, f4e := true }) 6#3 1#5 2#5 3#5),
    (3 + 2 ^ 17 * 2, 0x000C4192, .madd (pfx fun q => { q with cov := 2#2 }) 0#3 1#4 2#4 3#4),
    (3 + 2 ^ 19 + 2 ^ 20 * 2, 0x008C4186, .vld (pfx fun q => { q with ove := true, ovt := 2#3 }) 1#3 1#5 2#3 3#5)],
    decodeBytes (toBytes 4 e.1 ++ toBytes 4 e.2.1) = .ok (e.2.2, 8) := by decide +kernel

/-! ## Ill-formed terms: one for each check of WellFormed.lean, which refuses it -/

theorem refused_fields : ∀ i ∈ [Instr.shli .queue (.age 0#4) 64#11, .shri .queue (.age 0#4) 64#11, .srai .queue (.age 0#4) 64#11, .nwr 0#2 0#4 (.age 0#4) 12#5,
    .mfs .queue 0x004#12, .mts 0x815#12 (.age 0#4), .mtsi 0x109C#12 0#3 0#5, .mfs .queue 0x8C0#12, .mfs .queue 0x846#12, .loop (.age 0#4) 1#18, .loopm 0#3 1#18,
    .loopi 3#10 1#14, .fence 3#3 0#3, .fence 0#3 6#3, .rinit 0#3 1#3 25#5, .rclaim 6#3 .queue 0#3 (.age 0#4), .btest 7#3 .queue 0#3 (.age 0#4),
    .lset 0#5 (.age 0#4) 8#5, .lset 17#5 (.age 0#4) 8#5, .homeAccess 0], i.wf = false := by decide +kernel
theorem refused_types : ∀ i ∈ [Instr.vadd none 4#3 0#5 0#5 0#5, .vfadd none 3#3 0#5 0#5 0#5, .vfexp2 none 7#3 0#5 0#5, .vcmp none 1#3 0#2 0#3 0#5 0#5, .vfcmp none 2#3 0#2 0#3 0#5 0#5,
    .vcvt none 3#3 0#5 0#5 0#3 0#2, .vcvt none 2#3 0#5 0#5 1#3 2#2, .vqbfp none 6#3 0#5 0#5 0#3, .vqbfp none 5#3 0#5 0#5 1#3, .vgth none 1#3 0#5 0#3 0#5,
    .viota none 4#3 0#5, .vtbl none 5#3 0#5 0#5 0#3, .vrng none 4#3 0#5, .vrngn none 2#3 0#5, .madd none 5#3 0#4 0#4 0#4, .mcoll none 5#3 0#5 0#4],
    i.wf = false := by decide +kernel
theorem refused_prefixes : ∀ i ∈ [Instr.vadd (pfx fun q => { q with rnd := 1#3 }) 2#3 0#5 0#5 0#5, .vfadd (pfx fun q => { q with rnd := 7#3 }) 6#3 0#5 0#5 0#5,
    .vcmp (pfx fun q => { q with sat := true }) 2#3 0#2 0#3 0#5 0#5, .vadd (pfx fun q => { q with f4e := true }) 2#3 0#5 0#5 0#5,
    .vadd (pfx fun q => { q with f4 := 1#5 }) 2#3 0#5 0#5 0#5, .vadd (pfx fun q => { q with cov := 1#2 }) 2#3 0#5 0#5 0#5, .vadd (pfx fun q => { q with ove := true }) 2#3 0#5 0#5 0#5,
    .vadd (pfx fun q => { q with ovt := 1#3 }) 2#3 0#5 0#5 0#5, .vadd (pfx fun q => { q with zero := true }) 2#3 0#5 0#5 0#5,
    .vqbfp (pfx fun q => { q with me := true }) 6#3 0#5 0#5 1#3, .vld (pfx fun q => { q with ove := true, ovt := 6#3 }) 2#3 0#5 0#3 0#5,
    .madd (pfx fun q => { q with cov := 1#2 }) 4#3 0#4 0#4 0#4, .madd (pfx id) 1#3 0#4 0#4 0#4, .mfma (pfx fun q => { q with f4e := true, f4 := 16#5 }) 0#3 0#4 0#4 0#5,
    .ydrain (pfx fun q => { q with vm := 1#3 }) false 0#4 0#3 (.age 0#4)], i.wf = false := by decide +kernel
/-- Reserved bits and register numbers that no member has are refused by decoding (R28, R50). -/
theorem refused_words : ∀ w ∈ [0x00800006 + 2 ^ 31, 0x000000B2, 0x0000007A + 2 ^ 23, 0x14000092 + 2 ^ 12], decodeTableWord 32 w = none := by decide +kernel

/-! ## Witnesses: the machine as a whole -/

/-- Core 0's slot 0 about to issue LI -5 to the result queue (R92). -/
def started : State := State.withFetchWord State.reset 32 (0x0E + 2 ^ 13 * (2 ^ 19 - 5))
/-- Its turn. -/
def turned : State := started.giveTurn 0
theorem started_issues : started.issuesAs turned :=
  ⟨by decide +kernel, started, 0, .inl ⟨by decide +kernel, rfl⟩, by decide +kernel, rfl, by decide +kernel, by decide +kernel, by decide +kernel⟩
/-- What slot 0 reads at `pc`, and the state then. -/
def fetched (s : State) (p : List Byte → State → Bool) : Bool := okIs (fetchBytes (s.slot s.cur).pc) s p
/-- As `started`, with the bytes at its program counter buffered. -/
def buffered : State := match fetchBytes (turned.slot 0).pc turned with | .ok (_, v) => v | .error _ => turned
theorem witness_StepRunsDecoded : started.issuesAs turned ∧ fetched turned (fun bs _ => (decodeBytes bs).toOption == some (.li .queue 0x7FFFB#19, 4)) = true ∧
    fetched ((State.withFetchWord State.reset 32 0xB2).giveTurn 0) (fun bs _ => (decodeBytes bs).toOption == none) = true :=
  ⟨started_issues, by decide +kernel, by decide +kernel⟩
theorem witness_StepRunsDecoded_fault : (match fetchBytes 0x10 turned with | .error (.trap .capBnd v) => v == 0x10#64 | _ => false) = true := by decide +kernel
theorem witness_StepRunsDecoded_buffered : buffered.issuesAs buffered ∧ (Instr.li .queue 0x7FFFB#19).wf = true ∧
    (let x := buffered.slot buffered.cur
     x.pcc.tag = true ∧ x.pcc.space = 0 ∧ x.pcc.has 2 = true ∧ x.pcc.base ≤ x.pc ∧ x.pc + 4 ≤ x.pcc.top ∧ x.pc % 2 = 0 ∧
     (encode (.li .queue 0x7FFFB#19)).len = 4 ∧ ∀ j < 4, buffered.buffered (x.pc + j) = some ((encodeBytes (.li .queue 0x7FFFB#19)).getD j 0#8)) :=
  ⟨⟨by decide +kernel, buffered, 0, .inl ⟨by decide +kernel, rfl⟩, by decide +kernel, by decide +kernel, by decide +kernel, by decide +kernel, by decide +kernel⟩,
    by decide +kernel, by decide +kernel⟩
/-- A pending guard whose operands are both there is forced. -/
def settling : State := { State.reset with slots := [(5, { live := true, guards := [(3, .pending false 0#3 (.have 1#64) (.have 1#64))] })] }
theorem witness_StepRunsDecoded_forced : settling.forced = some (.guardResolve 5 3) ∧ ∃ t, exec (.guardResolve 5 3) settling = .next t := by
  refine ⟨by decide +kernel, ?_⟩
  have h : (match exec (.guardResolve 5 3) settling with | .next _ => true | _ => false) = true := by decide +kernel
  revert h
  cases exec (.guardResolve 5 3) settling <;> simp
/-- One count more on its way back than the free choice of the next step names, so that it names one of the events. -/
def chosen : State := { State.reset with returns := List.replicate (Config.pick 0 + 1) { id := 0, slot := 12, tid := 0, core := 1, ref := none, failed := false } }
theorem witness_StepRunsDecoded_choice : chosen.forced = none ∧ ∃ t, t = { chosen with tick := chosen.tick + 1 } ∧ ∃ c u,
    t.enabled[Config.pick chosen.tick % (t.enabled.length + 1)]? = some c ∧ t.choose c = some u := by
  refine ⟨rfl, _, rfl, ?_⟩
  generalize ht : { chosen with tick := chosen.tick + 1 } = t
  have hr : t.returns.length = Config.pick 0 + 1 := by simp [← ht, chosen]
  have hon : ∀ i < t.returns.length, (t.choose (.event (.rstReturn i))).isSome := fun i hi => by
    have hc : t.crossing 0 = false := by rw [← ht]; rfl
    have e : t.returns[i]? = some { id := 0, slot := 12, tid := 0, core := 1, ref := none, failed := false } := by
      rw [hr] at hi
      simp [← ht, chosen, hi]
    simp [State.choose, exec, execRstReturn, runEvent, State.rstReturn, e, hc]
  let one : List Choice := (List.range t.returns.length).map fun i => .event (.rstReturn i)
  have hs : one.Sublist t.enabled := by
    have : one.filter (fun c => (t.choose c).isSome) = one := by
      rw [List.filter_eq_self]; simp only [one, List.mem_map, List.mem_range]; rintro _ ⟨i, hi, rfl⟩; exact hon i hi
    rw [← this]
    refine List.Sublist.filter _ ?_
    have hd : ((List.range t.returns.length).map Instr.rstReturn).Sublist t.deliveries := by
      unfold State.deliveries
      exact ((List.sublist_append_right _ _).trans (List.sublist_append_left _ _)).trans (List.sublist_append_left _ _)
    have := hd.map Choice.event
    simp only [List.map_map] at this
    refine List.Sublist.trans this (List.Sublist.trans ?_ (List.sublist_append_right _ _))
    simp only [List.append_assoc]
    exact (List.sublist_append_left _ _).map _
  have hl : Config.pick 0 < t.enabled.length := by have := hs.length_le; simp [one] at this; omega
  have hk : Config.pick chosen.tick % (t.enabled.length + 1) < t.enabled.length := by
    have : chosen.tick = 0 := rfl
    rw [this, Nat.mod_eq_of_lt (by omega)]; exact hl
  have hm : t.enabled[Config.pick chosen.tick % (t.enabled.length + 1)] ∈ t.enabled := List.getElem_mem hk
  have hf : ∀ c ∈ t.enabled, (t.choose c).isSome := fun c hc => (List.mem_filter.mp hc).2
  obtain ⟨u, hu⟩ := Option.isSome_iff_exists.mp (hf _ hm)
  exact ⟨_, u, List.getElem?_eq_getElem hk, hu⟩
theorem witness_DecodedBytesAreTheEncoding : decodeBytes (encodeBytes (.add .queue (.age 0#4) (.nam 1#4))) = .ok (.add .queue (.age 0#4) (.nam 1#4), 4) := by decide +kernel
theorem witness_DecodeEncodeRoundTrip : (Instr.add .queue (.age 0#4) (.nam 1#4)).wf = true := by decide +kernel
theorem witness_EveryStepKeepsMemoryCanonical : started.canonical ∧ State.reset.canonical ∧ ∃ t, step started = .next t := by
  refine ⟨⟨by decide +kernel, by decide +kernel, by decide +kernel⟩, ⟨by decide +kernel, by decide +kernel, by decide +kernel⟩, ?_⟩
  have h : (match step started with | .next _ => true | _ => false) = true := by decide +kernel
  revert h
  cases step started <;> simp
theorem witness_IntegerFrame : intDst (.add (.nam 3#4) (.age 0#4) (.nam 1#4)) = some (.nam 3#4) ∧ intDst (.liC 1#4 2#4 3#2) = some .queue := by decide +kernel

/-! ## Results of one step, worked out from the rules -/

/-- What the current slot reads at age 0 after `i`. -/
def pushed (s : State) (i : Instr) : Option U64 := match exec i s with | .next t => (t.slot t.cur).read (.age 0#4) | _ => none
/-- Slot 5 with `a` in n1 and `b` in n2. -/
def two (a b : Int) : State := at' 5 fun x => { x with n := [(1, BitVec.ofInt 64 a), (2, BitVec.ofInt 64 b)] }
/-- `i` of n1 and n2 gives `v`. -/
def gives (a b : Int) (i : Instr) (v : Int) : Bool := pushed (two a b) i == some (BitVec.ofInt 64 v)
theorem test_step_runs_the_program : (match step started with | .next t => (t.slot 0).read (.age 0#4) == some (BitVec.ofInt 64 (-5)) && (t.slot 0).pc == (started.slot 0).pc + 4 | _ => false) = true := by
  decide +kernel
/-- R89, R90, R91: one value a member where a swapped operand or a wrong sign would show. -/
theorem test_integer : (gives (2 ^ 63 - 1) 1 (.add .queue (.nam 1#4) (.nam 2#4)) (-2 ^ 63) && gives 3 5 (.sub .queue (.nam 1#4) (.nam 2#4)) (-2) &&
    gives (-1) 5 (.mulh .queue (.nam 1#4) (.nam 2#4)) (-1) && gives (-1) 5 (.mulhu .queue (.nam 1#4) (.nam 2#4)) 4 &&
    gives (-7) 2 (.div .queue (.nam 1#4) (.nam 2#4)) (-3) && gives (-7) 2 (.rem .queue (.nam 1#4) (.nam 2#4)) (-1) &&
    gives 6 5 (.andn .queue (.nam 1#4) (.nam 2#4)) 2 && gives (-8) 65 (.sra .queue (.nam 1#4) (.nam 2#4)) (-4) && gives (-8) 65 (.shr .queue (.nam 1#4) (.nam 2#4)) (2 ^ 63 - 4) &&
    gives (2 ^ 63 + 1) 1 (.rol .queue (.nam 1#4) (.nam 2#4)) 3 && gives (-1) 1 (.minu .queue (.nam 1#4) (.nam 2#4)) 1 && gives (-1) 1 (.slt .queue (.nam 1#4) (.nam 2#4)) 1 &&
    gives 0 0 (.ctz .queue (.nam 1#4)) 64 && gives 1 0 (.brev .queue (.nam 1#4)) (2 ^ 63) && gives 0x80 8 (.sext .queue (.nam 1#4) (.nam 2#4)) (-128) &&
    gives (-1) 0 (.zext .queue (.nam 1#4) (.nam 2#4)) (-1)) = true := by decide +kernel
/-- R124, R125: a taken branch goes to the program counter plus twice its offset, from the instruction itself. -/
theorem test_branch : (match exec (.blt (.nam 1#4) (.nam 2#4) 6#11) (two (-1) 1) with | .next t => (t.slot 5).pc == ((two 0 0).slot 5).pc + 12 | _ => false) = true ∧
    (match exec (.bltu (.nam 1#4) (.nam 2#4) 6#11) (two (-1) 1) with | .next t => (t.slot 5).pc == ((two 0 0).slot 5).pc + 4 | _ => false) = true := by decide +kernel
/-- R153, R154: a byte is extended with its sign or not; the offset is counted in elements. -/
theorem test_load : let s := (at' 5 fun x => { x with k := [(1, cap 2 0x100 0x1000)] }).writeAll (writesAt (2 ^ 61 + 0x106) (toBytes 2 0xFF80))
    pushed s (.ld 2#3 .queue 1#3 3#13) = some (BitVec.ofInt 64 (-128)) ∧ pushed s (.ld 3#3 .queue 1#3 3#13) = some 0xFF80#64 := by decide +kernel
/-- R111, R118: CBOUND narrows to a length that the format holds exactly, and keeps the cursor as the base. -/
theorem test_bound : (match exec (.cbound true 2#3 1#3 (.nam 1#4)) (at' 5 fun x => { x with k := [(1, cap 2 0x100 0x1000)], n := [(1, 48#64)] }) with
    | .next t => decide (((t.slot 5).kreg 2).base = 0x100 ∧ ((t.slot 5).kreg 2).top = 0x130 ∧ ((t.slot 5).kreg 2).tag = true) | _ => false) = true := by decide +kernel
/-- R204, R206: TRAP in a helper with a handler goes to the vector of its code, saves the program counter and sets TRAP. -/
theorem test_trap : (match exec .brk (at' 5 fun x => { x with ten := true, tbase := BitVec.ofNat 39 (2 ^ 27) }) with
    | .next t => (t.slot 5).inTrap && (t.slot 5).tpc.toNat == slot.pc && (t.slot 5).pc == 2 ^ 40 + 64 * (t.slot 5).tcause.toNat | _ => false) = true := by decide +kernel
/-- R273: VADD wraps at the width of its elements; with SAT it clamps and says so. -/
theorem test_vadd : (let s := lanes fun x => { x with v := [(1, 0x7FFFFFFF#8192), (2, 1#8192)] }
    (match exec (.vadd none 2#3 3#5 1#5 2#5) s with | .next t => (t.slot 5).elem 3#5 32 0 == 0x80000000 && (t.slot 5).fflags == 0#6 | _ => false) &&
    match exec (.vadd (pfx fun q => { q with sat := true }) 2#3 3#5 1#5 2#5) s with | .next t => (t.slot 5).elem 3#5 32 0 == 0x7FFFFFFF && (t.slot 5).fflags ≠ 0#6 | _ => false) = true := by
  decide +kernel
/-- R63, R274: a tie of VFADD goes to the even neighbour: 2^24 + 1 and 2^24 + 3 in FP32. -/
theorem test_vfadd : (let s := fun a => lanes fun x => { x with v := [(1, 0x4B800000#8192), (2, a)] }
    let r := fun a => match exec (.vfadd none 6#3 3#5 1#5 2#5) (s a) with | .next t => (t.slot 5).elem 3#5 32 0 | _ => 0
    r 0x3F800000#8192 == 0x4B800000 && r 0x40400000#8192 == 0x4B800002) = true := by decide +kernel
/-- R348: independent moments add: mean 1 + 2, variance 2 + 4. -/
theorem test_madd : (let w := fun (m v : Nat) => BitVec.ofNat 16384 (m + 2 ^ 32 * v)
    match exec (.madd none 0#3 3#4 1#4 2#4) (lanes fun x => { x with m := [(1, w 0x3F800000 0x40000000), (2, w 0x40000000 0x40800000)] }) with
    | .next t => (t.slot 5).moment 3 0 == (0x40400000, 0x40C00000) | _ => false) = true := by decide +kernel
/-- R147, R158: an atomic add gives the old value, and its home holds the sum. -/
theorem test_aadd : (let s := (at' 5 fun x => { x with k := [(1, cap 2 0x100 0x1000)] }).writeAll (writesAt (2 ^ 61 + 0x100) (toBytes 8 40))
    match exec (.aadd true 0#2 .queue 1#3 0#8) (s.modSlot 5 fun x => { x with rq := 2#64 :: x.rq.drop 1 }) with
    | .next t => (t.slot 5).read (.age 0#4) == some 40#64 && t.num (2 ^ 61 + 0x100) 8 == 42 | _ => false) = true := by decide +kernel
/-- R129, R130: LOOPI opens a body of two instructions, and its end goes back to the first. -/
theorem test_loop : (match exec (.loopi 3#10 4#14) (at' 5) with | .next t => (t.slot 5).pc == slot.pc + 4 && (t.slot 5).loops.length == 1 | _ => false) = true := by decide +kernel

end Sys2Proof.Tests
end

/-! # Writes to system registers (R5, R106, R134) -/

namespace Sys2Proof.Machine

/-! ## Changes of one slot or core -/

/-- What a change of a slot does depends on what it makes of that slot alone. -/
theorem State.modSlot_congr {s : State} {g : Nat} {f f' : Slot → Slot} (h : f (s.slot g) = f' (s.slot g)) :
    s.modSlot g f = s.modSlot g f' := by
  rw [State.modSlot, h, State.modSlot]

/-- What a change of a core does depends on what it makes of that core alone. -/
theorem State.modCore_congr {s : State} {c : Nat} {f f' : Core → Core} (h : f (s.core c) = f' (s.core c)) :
    s.modCore c f = s.modCore c f' := by
  rw [State.modCore, h, State.modCore]

/-- An instruction ends by what its body does to the state that has issued it. -/
theorem runInstr_congr {len : Nat} {m m' : Exec Flow} {s : State} (h : m s.noteIssue = m' s.noteIssue) :
    runInstr len m s = runInstr len m' s := by
  rw [runInstr, h, runInstr]

/-! ## Mailboxes (R134) -/

@[simp] theorem State.noteIssue_mailboxFree (s : State) (c i : Nat) : s.noteIssue.mailboxFree c i = s.mailboxFree c i := by
  simp [State.mailboxFree]

@[simp] theorem State.mailboxArrive_cur (s : State) (c i : Nat) (w : MbxWrite) : (s.mailboxArrive c i w).cur = s.cur := rfl

/-- A write to an empty mailbox is stored. -/
theorem State.mailboxArrive_free {s : State} {c i : Nat} {w : MbxWrite} (h : s.mailboxFree c i = true) :
    s.mailboxArrive c i w =
      s.modCore c fun x => { x with mbx := x.mbx.set 0#64 i w.v, mbxp := x.mbxp ||| BitVec.ofNat 8 (2 ^ i) } :=
  State.modCore_congr (if_pos h)

/-- A write to a full mailbox takes its place behind those that are held. -/
theorem State.mailboxArrive_held {s : State} {c i : Nat} {w : MbxWrite} (h : s.mailboxFree c i = false) :
    s.mailboxArrive c i w = s.modCore c fun x => { x with mbxHeld := x.mbxHeld.set [] i (x.mbxHeld.get [] i ++ [w]) } :=
  State.modCore_congr (if_neg (Bool.eq_false_iff.1 h))

/-- Mailbox `i` of core `c` with the oldest write held there stored, and the writes `rest` still held. -/
def State.takeHeld (s : State) (c i : Nat) (w : MbxWrite) (rest : List MbxWrite) : State :=
  s.modCore c fun x =>
    { x with mbx := x.mbx.set 0#64 i w.v, mbxp := x.mbxp ||| BitVec.ofNat 8 (2 ^ i), mbxHeld := x.mbxHeld.set [] i rest }

section HeldMailbox

variable {s : State} {c i : Nat} {w : MbxWrite} {rest : List MbxWrite}
  (hw : (s.core c).mbxHeld.get [] i = w :: rest) (hp : (s.core c).mbxp.getLsbD i = false)
include hw hp

/-- The held write of an MTS completes it. -/
theorem State.heldMailbox_slot {g : Nat} (hg : w.slot = some g) :
    s.heldMailbox c i = some ((s.takeHeld c i w rest).complete g 4) := by
  simp [State.heldMailbox, State.takeHeld, hw, hp, hg]

/-- The held write of the host completes nothing. -/
theorem State.heldMailbox_host (hg : w.slot = none) (hs : w.store = none) :
    s.heldMailbox c i = some (s.takeHeld c i w rest) := by
  simp [State.heldMailbox, State.takeHeld, hw, hp, hg, hs]

/-- The held write of a store completes its access, which may be the last of a tile's commit (R369). -/
theorem State.heldMailbox_store {a : Access} (hg : w.slot = none) (hs : w.store = some a.id)
    (ha : s.flight.find? (fun x => x.id == a.id) = some a) :
    s.heldMailbox c i =
      some ((State.sendReturn { s.takeHeld c i w rest with flight := s.flight.filter fun x => x.id ≠ a.id } a false).settleCommit
        a.slot) := by
  simp [State.heldMailbox, State.takeHeld, hw, hp, hg, hs, ha]

end HeldMailbox

/-! ## What a write does to the registers of a slot (R106) -/

theorem Slot.writeSys_rmode (x : Slot) (v : U64) :
    x.writeSys 0x100 v = { x with rmode := if (v.extractLsb' 0 3).toNat ≤ 5 then v.extractLsb' 0 3 else x.rmode } := by
  by_cases hv : (v.extractLsb' 0 3).toNat ≤ 5
  · rw [if_pos hv]; exact if_pos hv
  · rw [if_neg hv]; exact if_neg hv

theorem Slot.writeSys_fflags (x : Slot) (v : U64) : x.writeSys 0x101 v = { x with fflags := v.extractLsb' 0 6 } := rfl

theorem Slot.writeSys_covmode (x : Slot) (v : U64) : x.writeSys 0x102 v = { x with covmode := v.extractLsb' 0 2 } := rfl

theorem Slot.writeSys_rngLo (x : Slot) (v : U64) : x.writeSys 0x108 v = { x with rngLo := v } := rfl

theorem Slot.writeSys_rngHi (x : Slot) (v : U64) : x.writeSys 0x109 v = { x with rngHi := v } := rfl

theorem Slot.writeSys_tol {x : Slot} (h : x.tile? = none) (v : U64) :
    x.writeSys 0x500 v = { x with tol := v.extractLsb' 0 32 } := by
  simp [Slot.writeSys, h]

theorem Slot.writeSys_tolMode {x : Slot} (h : x.tile? = none) (v : U64) :
    x.writeSys 0x501 v = { x with tolMode := if (v.extractLsb' 0 2).toNat < 2 then v.extractLsb' 0 2 else x.tolMode } := by
  have hkept : (x.tile?.isSome || decide ((v.extractLsb' 0 2).toNat ≥ 2)) = true ↔ ¬(v.extractLsb' 0 2).toNat < 2 := by
    simp only [h, Option.isSome_none, Bool.false_or, decide_eq_true_eq, Nat.not_lt, ge_iff_le]
  by_cases hv : (v.extractLsb' 0 2).toNat < 2
  · rw [if_pos hv]; exact if_neg fun hk => hkept.1 hk hv
  · rw [if_neg hv]; exact if_pos (hkept.2 hv)

/-- The code of a surrogate tile changes neither TOL nor its mode. -/
theorem Slot.writeSys_of_tile {x : Slot} (h : x.tile?.isSome = true) (v : U64) {n : Nat} (hn : n = 0x500 ∨ n = 0x501) :
    x.writeSys n v = x := by
  rcases hn with rfl | rfl <;> simp [Slot.writeSys, h]

theorem Slot.writeSys_view (x : Slot) (v : U64) : x.writeSys 0x600 v = { x with view := v.extractLsb' 0 6 } := rfl

theorem Slot.writeSys_camStep (x : Slot) (v : U64) : x.writeSys 0x601 v = { x with camStep := v.extractLsb' 0 24 } := rfl

theorem Slot.writeSys_flipPen (x : Slot) (v : U64) : x.writeSys 0x602 v = { x with flipPen := v.extractLsb' 0 24 } := rfl

theorem Slot.writeSys_tpc (x : Slot) (v : U64) :
    x.writeSys 0x701 v = { x with tpc := if x.inTrap then v.extractLsb' 0 52 else x.tpc } := by
  by_cases ht : x.inTrap = true
  · rw [if_pos ht]; exact if_pos ht
  · rw [if_neg ht]; exact if_neg ht

theorem Slot.writeSys_elost (x : Slot) (v : U64) : x.writeSys 0x703 v = { x with elost := x.elost && !v.getLsbD 7 } := rfl

theorem Slot.writeSys_tbase (x : Slot) (v : U64) :
    x.writeSys 0x704 v = { x with tbase := v.extractLsb' 13 39, ten := v.getLsbD 0 } := rfl

/-- The registers of a slot that a write changes. -/
def writableSys : List Nat :=
  [0x100, 0x101, 0x102, 0x108, 0x109, 0x500, 0x501, 0x600, 0x601, 0x602, 0x701, 0x703, 0x704]

/-- A write to another register is discarded. -/
theorem Slot.writeSys_readOnly (x : Slot) (v : U64) {n : Nat} (h : n ∉ writableSys) : x.writeSys n v = x := by
  simp only [writableSys, List.mem_cons, List.not_mem_nil, or_false, not_or] at h
  simp [Slot.writeSys, h]

/-- The read-only registers below 0x800. -/
def readOnlySys : List Nat :=
  [0x000, 0x001, 0x002, 0x003, 0x010, 0x011, 0x110, 0x120, 0x121, 0x122, 0x123, 0x310, 0x400, 0x401, 0x402, 0x403, 0x502, 0x700,
    0x702]

theorem readOnlySys_facts : ∀ n ∈ readOnlySys, n < 0x800 ∧ (n < 0x200 ∨ 0x310 ≤ n) ∧ n ∉ writableSys := by decide

/-- No register at 0x800 or above is one of the slot's own. -/
theorem not_mem_writableSys {n : Nat} (h : 0x800 ≤ n) : n ∉ writableSys := fun hn =>
  absurd ((by decide : ∀ m ∈ writableSys, m < 0x800) n hn) (by omega)

/-! ## What a write does to the state -/

theorem writeSys_slot {s : State} {n : Nat} (v : U64) (hn : n < 0x200 ∨ 0x310 ≤ n) :
    writeSys n v s = .ok (.next, s.modSlot s.cur fun x => x.writeSys n v) := by
  have hbox : ¬(0x200 ≤ n ∧ n < 0x208) := by omega
  have hmbxp : n ≠ 0x208 := by omega
  have hzdesc : ¬(0x300 ≤ n ∧ n < 0x310) := by omega
  simp [writeSys, hbox, hmbxp, hzdesc]

theorem writeSys_mailbox_free {s : State} {i : Nat} (v : U64) (hi : i < 8) (ht : (s.slot s.cur).tile? = none)
    (hf : s.mailboxFree (coreOf s.cur) i = true) :
    writeSys (0x200 + i) v s = .ok (.next, s.mailboxArrive (coreOf s.cur) i { v := v }) := by
  have hbox : 0x200 + i < 0x208 := by omega
  simp [writeSys, hbox, notLatent_apply, ht, hf]

theorem writeSys_mailbox_held {s : State} {i : Nat} (v : U64) (hi : i < 8) (ht : (s.slot s.cur).tile? = none)
    (hf : s.mailboxFree (coreOf s.cur) i = false) :
    writeSys (0x200 + i) v s =
      .ok (.hold, (s.mailboxArrive (coreOf s.cur) i { v := v, slot := some s.cur }).modSlot s.cur
        fun x => { x with wait := Wait.mailbox }) := by
  have hbox : 0x200 + i < 0x208 := by omega
  simp [writeSys, hbox, notLatent_apply, ht, hf]

theorem writeSys_mbxp (v : U64) (s : State) :
    writeSys 0x208 v s = .ok (.next, s.mbxpWrite (coreOf s.cur) (v.extractLsb' 0 8)) := by
  simp [writeSys]

theorem writeSys_zdesc {i : Nat} (v : U64) (s : State) (hi : i < 16) :
    writeSys (0x300 + i) v s = .ok (.next, s.modQuad (quadOf (coreOf s.cur)) fun q =>
      { q with zdesc := q.zdesc.set 0#64 i ((v.extractLsb' 0 27).setWidth 64) }) := by
  have hbox : ¬(0x300 + i < 0x208) := by omega
  have hmbxp : 0x300 + i ≠ 0x208 := by omega
  have hzdesc : 0x300 + i < 0x310 := by omega
  simp [writeSys, hbox, hmbxp, hzdesc]

/-! ## MTS and MTSI -/

/-- Outside user mode any register may be named, and in user mode those below 0x800 (R38). -/
def State.mayName (s : State) (sys : BitVec 12) : Prop := 0x800 ≤ sys.toNat → (s.slot s.cur).user = false

theorem sysPrivilege_mayName {s : State} {sys : BitVec 12} (h : s.mayName sys) (tval : U64) :
    sysPrivilege sys tval s = .ok ((), s) := by
  by_cases hs : 0x800 ≤ sys.toNat
  · simp [sysPrivilege, hs, privileged, h hs]
  · simp [sysPrivilege, hs]

theorem State.mayName_noteIssue {s : State} {sys : BitVec 12} (h : s.mayName sys) : s.noteIssue.mayName sys := fun hs =>
  (State.noteIssue_slot_user s s.cur).trans (h hs)

/-- `w sys` writes `v` to system register `sys`, wherever it may name that register. -/
def State.writesSys (s : State) (v : U64) (w : BitVec 12 → Instr) : Prop :=
  ∀ sys, s.mayName sys → exec (w sys) s = runInstr 4 (writeSys sys.toNat v) s

/-- MTS writes its source. -/
theorem State.writesSys_mts {s : State} {a : Src} {v : U64} (h : s.reads a = some v) : s.writesSys v fun sys => .mts sys a := by
  intro sys hsys
  rw [exec_mts, execMts]
  apply runInstr_congr
  simp [sysPrivilege_mayName (State.mayName_noteIssue hsys), src_issued h]

/-- MTSI writes its immediate, zero-extended. -/
theorem State.writesSys_mtsi (s : State) (h : BitVec 3) (l : BitVec 5) :
    s.writesSys ((h ++ l).setWidth 64) fun sys => .mtsi sys h l := by
  intro sys hsys
  rw [exec_mtsi, execMtsi]
  apply runInstr_congr
  simp [sysPrivilege_mayName (State.mayName_noteIssue hsys)]

/-- MTS and MTSI write a system register. -/
theorem State.writesSys_of {s : State} {a : Src} {v : U64} {h : BitVec 3} {l : BitVec 5} {w : BitVec 12 → Instr}
    (hw : s.reads a = some v ∧ w = (fun sys => .mts sys a) ∨ v = (h ++ l).setWidth 64 ∧ w = fun sys => .mtsi sys h l) :
    s.writesSys v w := by
  rcases hw with ⟨ha, rfl⟩ | ⟨rfl, rfl⟩
  · exact State.writesSys_mts ha
  · exact State.writesSys_mtsi s h l

section WritesSys

variable {s : State} {v : U64} {w : BitVec 12 → Instr} {sys : BitVec 12} (hw : s.writesSys v w)
include hw

/-- A register of the slot: the write changes the slot as `f`. -/
theorem State.writesSys.slot {f : Slot → Slot} (hn : sys.toNat < 0x200 ∨ 0x310 ≤ sys.toNat) (hp : s.mayName sys)
    (hf : (s.noteIssue.slot s.cur).writeSys sys.toNat v = f (s.noteIssue.slot s.cur)) :
    exec (w sys) s = .next (s.done 4 f) := by
  rw [hw sys hp]
  apply runInstr_done
  rw [writeSys_slot v hn]
  exact congrArg (fun t => Except.ok (Flow.next, t)) (State.modSlot_congr hf)

/-- A register of the slot that user mode may name. -/
theorem State.writesSys.slot_user {f : Slot → Slot} (hn : sys.toNat < 0x200 ∨ 0x310 ≤ sys.toNat ∧ sys.toNat < 0x800)
    (hf : (s.noteIssue.slot s.cur).writeSys sys.toNat v = f (s.noteIssue.slot s.cur)) :
    exec (w sys) s = .next (s.done 4 f) :=
  hw.slot (hn.imp_right And.left) (fun h => absurd h (by omega)) hf

/-- A read-only register: the write is discarded (R5). -/
theorem State.writesSys.readOnly (hn : sys.toNat < 0x200 ∨ 0x310 ≤ sys.toNat) (hp : s.mayName sys)
    (hr : sys.toNat ∉ writableSys) : exec (w sys) s = .next (s.done 4 fun x => x) :=
  hw.slot hn hp (Slot.writeSys_readOnly _ v hr)

theorem State.writesSys.mailbox_free {i : Nat} (hs : sys.toNat = 0x200 + i) (hi : i < 8) (ht : (s.slot s.cur).tile? = none)
    (hf : s.mailboxFree (coreOf s.cur) i = true) :
    exec (w sys) s = .next ((s.noteIssue.modCore (coreOf s.cur) fun c =>
      { c with mbx := c.mbx.set 0#64 i v, mbxp := c.mbxp ||| BitVec.ofNat 8 (2 ^ i) }).past 4) := by
  rw [hw sys fun h => absurd h (by omega), hs]
  have hf' := (State.noteIssue_mailboxFree s (coreOf s.cur) i).trans hf
  have hbody := writeSys_mailbox_free v hi ((State.noteIssue_tile s s.cur).trans ht) hf'
  rw [runInstr_past hbody]
  exact congrArg (fun t => Host.Outcome.next (t.past 4)) (State.mailboxArrive_free hf')

theorem State.writesSys.mailbox_held {i : Nat} (hs : sys.toNat = 0x200 + i) (hi : i < 8) (ht : (s.slot s.cur).tile? = none)
    (hf : s.mailboxFree (coreOf s.cur) i = false) :
    exec (w sys) s = .next ((s.noteIssue.modCore (coreOf s.cur) fun c =>
      { c with mbxHeld := c.mbxHeld.set [] i (c.mbxHeld.get [] i ++ [{ v := v, slot := some s.cur }]) }).modSlot s.cur
        fun x => { x with wait := Wait.mailbox }) := by
  rw [hw sys fun h => absurd h (by omega), hs]
  have hf' := (State.noteIssue_mailboxFree s (coreOf s.cur) i).trans hf
  have hbody := writeSys_mailbox_held v hi ((State.noteIssue_tile s s.cur).trans ht) hf'
  rw [runInstr_ok hbody]
  exact congrArg (fun t => Host.Outcome.next (t.modSlot s.cur fun x => { x with wait := Wait.mailbox }))
    (State.mailboxArrive_held hf')

theorem State.writesSys.mbxp : exec (w 0x208#12) s = .next ((s.noteIssue.modCore (coreOf s.cur) fun c =>
    { c with mbxp := c.mbxp &&& ~~~(v.extractLsb' 0 8) }).past 4) := by
  rw [hw 0x208#12 fun h => absurd h (by decide)]
  exact runInstr_past (writeSys_mbxp v s.noteIssue)

theorem State.writesSys.zdesc {i : Nat} (hs : sys.toNat = 0x300 + i) (hi : i < 16) :
    exec (w sys) s = .next ((s.noteIssue.modQuad (quadOf (coreOf s.cur)) fun q =>
      { q with zdesc := q.zdesc.set 0#64 i ((v.extractLsb' 0 27).setWidth 64) }).past 4) := by
  rw [hw sys fun h => absurd h (by omega), hs]
  exact runInstr_past (writeSys_zdesc v s.noteIssue hi)

end WritesSys

/-! ## The events of mailboxes -/

theorem exec_mailboxWrite_eq {s : State} {c i : Nat} (v : U64) (hc : c < 640) (hi : i < 8) :
    exec (.mailboxWrite c i v) s = .next (s.mailboxArrive c i { v := v }) := by
  rw [exec_mailboxWrite, execMailboxWrite]
  exact runEvent_some (if_pos ⟨hc, hi⟩)

theorem exec_mbxpClear_eq {s : State} {c : Nat} (m : BitVec 8) (hc : c < 640) :
    exec (.mbxpClear c m) s = .next (s.mbxpWrite c m) := by
  rw [exec_mbxpClear, execMbxpClear]
  exact runEvent_some (if_pos hc)

theorem exec_heldMailboxWrite_eq {s t : State} {c i : Nat} (h : s.heldMailbox c i = some t) :
    exec (.heldMailboxWrite c i) s = .next t := by
  rw [exec_heldMailboxWrite, execHeldMailboxWrite]
  exact runEvent_some h

/-! ## The statement -/

/-- Settles O11: every writable register of the slot has its own equation of `Slot.writeSys`, a read-only one is outside
`writableSys`, and the mailboxes follow `State.mailboxArrive` and `State.heldMailbox`. -/
theorem systemRegisterWrites : Obligations.SystemRegisterWrites := by
  refine ⟨fun s a v h l w hw => ?_, fun s a v h l w i sys hw => ?_, fun s c i v m hc hi => ?_⟩
  · have hw := State.writesSys_of hw
    have htile := State.noteIssue_tile s s.cur
    refine ⟨hw.slot_user (by decide) (Slot.writeSys_rmode _ v), hw.slot_user (by decide) (Slot.writeSys_fflags _ v),
      hw.slot_user (by decide) (Slot.writeSys_covmode _ v), hw.slot_user (by decide) (Slot.writeSys_rngLo _ v),
      hw.slot_user (by decide) (Slot.writeSys_rngHi _ v), hw.slot_user (by decide) (Slot.writeSys_view _ v),
      hw.slot_user (by decide) (Slot.writeSys_camStep _ v), hw.slot_user (by decide) (Slot.writeSys_flipPen _ v),
      hw.slot_user (by decide) (Slot.writeSys_tpc _ v), hw.slot_user (by decide) (Slot.writeSys_elost _ v),
      hw.slot_user (by decide) (Slot.writeSys_tbase _ v), fun ht => ?_, fun ht => ?_, fun sys hsys => ?_, fun sys hsys hu => ?_⟩
    · have ht := htile.trans ht
      exact ⟨hw.slot_user (by decide) (Slot.writeSys_tol ht v), hw.slot_user (by decide) (Slot.writeSys_tolMode ht v)⟩
    · have ht := (congrArg Option.isSome htile).trans ht
      exact ⟨hw.slot_user (by decide) (Slot.writeSys_of_tile ht v (.inl rfl)),
        hw.slot_user (by decide) (Slot.writeSys_of_tile ht v (.inr rfl))⟩
    · obtain ⟨hlow, hn, hr⟩ := readOnlySys_facts _ hsys
      exact hw.readOnly hn (fun hp => absurd hp (by omega)) hr
    · exact hw.readOnly (.inr (by omega)) (fun _ => hu) (not_mem_writableSys hsys)
  · have hw := State.writesSys_of hw
    exact ⟨hw.mailbox_free, hw.mailbox_held, hw.mbxp, hw.zdesc⟩
  · refine ⟨fun hf => ?_, fun hf => ?_, exec_mbxpClear_eq m hc, fun w rest hheld hp => ⟨fun g hg => ?_, fun hg hs => ?_, ?_⟩⟩
    · rw [exec_mailboxWrite_eq v hc hi, State.mailboxArrive_free hf]
    · rw [exec_mailboxWrite_eq v hc hi, State.mailboxArrive_held hf]
    · exact exec_heldMailboxWrite_eq (State.heldMailbox_slot hheld hp hg)
    · exact exec_heldMailboxWrite_eq (State.heldMailbox_host hheld hp hg hs)
    · exact fun a hg hs ha => exec_heldMailboxWrite_eq (State.heldMailbox_store hheld hp hg hs ha)

end Sys2Proof.Machine

/-! # What reset leaves (R13, R23, R86, R88, R135, R169, R203, R425) -/

namespace Sys2Proof.Machine

@[simp] theorem State.slot_reset (g : Nat) : State.reset.slot g = {} := rfl

@[simp] theorem State.core_reset (c : Nat) : State.reset.core c = {} := rfl

@[simp] theorem State.part_reset (p : Nat) : State.reset.part p = {} := rfl

/-- No die has counted a cycle, whatever start it would be given (R23). -/
@[simp] theorem State.cycle_reset (d : Nat) : State.reset.cycle d = 0#64 := rfl

/-- Every entry of the result queue of a slot that nothing has started reads 0 (log 3). -/
theorem Slot.rq_start {i : Nat} (hi : i < 16) : ({} : Slot).rq[i]? = some 0#64 :=
  List.getElem?_replicate_of_lt hi

/-- Settles O59: no map of the reset state lists anything, so each slot, core and partition has its start value. -/
theorem resetState : Obligations.ResetState := by
  refine ⟨State.reset_canonical, rfl, rfl, rfl, State.cycle_reset, fun c => ⟨?_, ?_⟩, fun p => ?_, fun g => ⟨{}, State.slot_reset g, ?_⟩⟩
  · rw [State.core_reset]
  · rw [State.core_reset]
  · rw [State.part_reset]
  · exact ⟨rfl, fun _ => rfl, rfl, rfl, rfl, rfl, rfl, rfl, rfl, rfl, rfl, rfl, rfl, rfl, rfl, rfl, rfl, rfl, rfl,
      List.length_replicate, fun _ hi => Slot.rq_start hi, fun _ => rfl⟩

end Sys2Proof.Machine

/-! # Whether every step goes on (R13, R204, R205) -/

namespace Sys2Proof.Machine

/-! ## Instructions -/

theorem runReporting_next (len : Nat) (m : Exec Flow) (s : State) : ∃ t, runReporting len m s = .next t := by
  unfold runReporting
  split
  · split <;> exact ⟨_, rfl⟩
  · exact runInstr_next len m s

/-- A well-formed instruction is no event: it completes, traps or is blocked. -/
theorem exec_next_of_wf {i : Instr} (h : i.wf = true) (s : State) : ∃ t, exec i s = .next t := by
  unfold exec
  cases i
  case mailboxWrite | mbxpClear | heldMailboxWrite | guardResolve | homeAccess | pageWalk | nwrHeldWrite | nwrWithdrawal | rstReturn
      | amsgRun | amsgTimeout | holdClear | holdTimeout | dispatch | recordWalkHop | gangStart | launchiCountRead | recordRelease
      | groupCountStep | chargeExhausted | budgetExhausted | graceExhausted | parkedWithdrawal | realignTimeout | svcAnswer
      | preemptRequest | preemptTimeout | spillSave | granuleFill | zldComplete | tileDrainDone | wloadExecute | wswapExecute
      | mmaExecute | mmamExecute | yzeroExecute | ydrainExecute | ymovExecute | tileStateDrain | cardStart | cardFinish | collTimeout
      | codebookBankWrite | checkChargeExhausted | enqueueWindowSpawn | enqueueWindowSubmit | enqueueWindowSpawnResult
      | enqueueWindowSubmitResult | partitionStart | boot | linkTrain | tenantSwitch | flitArbitration | creditReturn
      | hostModuleFailure | fabricPortFailure | serviceCoreRestart | attestationRequest | patrolScrub | correctedError
      | uncorrectableError | partitionReset | flitRetry => exact absurd h Bool.false_ne_true
  case ewait | estat => exact runReporting_next _ _ s
  all_goals exact runInstr_next _ _ s

theorem wf_of_checked {o : Option Instr} {i : Instr} (h : checked o = some i) : i.wf = true := by
  obtain ⟨j, -, hj⟩ := Option.bind_eq_some_iff.1 h
  split at hj
  next hw => exact Option.some.inj hj ▸ hw
  next => exact nomatch hj

theorem decode16_wf {w : U16} {i : Instr} (h : decode16 w = some i) : i.wf = true := wf_of_checked h

theorem decode32_wf {w : U32} {i : Instr} (h : decode32 w = some i) : i.wf = true := wf_of_checked h

theorem decodePair_wf {q w : U32} {i : Instr} (h : decodePair q w = some i) : i.wf = true := by
  obtain ⟨p, -, hp⟩ := Option.bind_eq_some_iff.1 h
  exact wf_of_checked hp

/-- What decoding accepts is well-formed (R50): each of its three forms is `checked`. -/
theorem decodeBytes_wf {bs : List Byte} {i : Instr} {len : Nat} (h : decodeBytes bs = .ok (i, len)) : i.wf = true := by
  unfold decodeBytes at h
  dsimp only at h
  split at h
  · exact nomatch h
  split at h
  · split at h
    next j hd => cases h; exact decode16_wf hd
    · exact nomatch h
  split at h
  · exact nomatch h
  split at h
  · split at h
    next j hd => cases h; exact decode32_wf hd
    · exact nomatch h
  split at h
  · exact nomatch h
  split at h
  · exact nomatch h
  split at h
  · exact nomatch h
  split at h
  · exact nomatch h
  split at h
  next j hd => cases h; exact decodePair_wf hd
  · exact nomatch h

/-- What a fetch finds as an instruction is well-formed. -/
theorem State.fetchDecode_wf {s t : State} {i : Instr} {len : Nat} (h : s.fetchDecode = (.instr i len, t)) : i.wf = true := by
  unfold State.fetchDecode at h
  split at h
  · exact nomatch h
  · exact nomatch h
  next bs u _ =>
    split at h
    next j n hd => cases h; exact decodeBytes_wf hd
    · exact nomatch h
    · exact nomatch h
    · exact nomatch h

/-! ## One step -/

/-- The turn of a slot answers a next state. -/
theorem State.slotTurn_next (s : State) : ∃ t, s.slotTurn = .next t := by
  unfold State.slotTurn
  split
  · exact ⟨_, rfl⟩
  split
  · exact ⟨_, rfl⟩
  split
  · exact ⟨_, rfl⟩
  split
  · exact ⟨_, rfl⟩
  split
  · exact ⟨_, rfl⟩
  · exact ⟨_, rfl⟩
  next i len t h => exact exec_next_of_wf (State.fetchDecode_wf h) t

theorem State.issueStep_next (s : State) : ∃ t, s.issueStep = .next t := by
  unfold State.issueStep
  split
  next g _ => exact State.slotTurn_next (s.giveTurn g)
  · exact ⟨_, rfl⟩

/-- Every engine that the state lists is the one that reading its number finds, as where no number is listed twice. -/
def State.enginesRead (s : State) : Prop := ∀ e ∈ s.engines, s.engine e.1 = e.2

/-- An entry of a map that lists its key once is what reading that key finds. -/
theorem SMap.get_of_mem {α : Type} (d : α) {m : SMap α} (hn : (m.map Prod.fst).Nodup) {e : Nat × α} (he : e ∈ m) :
    m.get d e.1 = e.2 := by
  induction m with
  | nil => cases he
  | cons x m ih =>
    rw [List.map_cons, List.nodup_cons] at hn
    rcases List.mem_cons.1 he with rfl | he
    · exact if_pos rfl
    · exact (if_neg fun h : x.1 = e.1 => hn.1 (List.mem_map.2 ⟨e, he, h.symm⟩)).trans (ih hn.2 he)

theorem State.enginesRead_of_nodup {s : State} (h : (s.engines.map Prod.fst).Nodup) : s.enginesRead :=
  fun _ he => SMap.get_of_mem ({} : Engine) h he

theorem runEvent_isSome {name : String} {r : Option State} (h : r.isSome = true) : ∃ t, runEvent name r = .next t :=
  ⟨_, runEvent_some (Option.some_get h).symm⟩

theorem State.collTimeout_isSome {s : State} {e i : Nat} (h : ((s.engine e).running[i]?).any s.collDue = true) :
    (s.collTimeout e i).isSome = true := by
  unfold State.collTimeout
  cases hc : (s.engine e).running[i]? with
  | none => rw [hc] at h; exact nomatch h
  | some c => rw [hc, Option.any_some] at h; simp only [h, if_true, Option.isSome_some]

theorem State.holdTimeout_isSome {s : State} {cl : Nat} (h : s.holdDue cl = true) : (s.holdTimeout cl).isSome = true := by
  unfold State.holdTimeout
  cases hc : (s.cluster cl).hold with
  | none => unfold State.holdDue at h; rw [hc] at h; exact nomatch h
  | some x => simp only [Option.bind_some, h, if_true, Option.isSome_some]

/-- An event that a list of candidates gives only where it can take place. -/
theorem findSome_ite_some {α β : Type} {l : List α} {p : α → Bool} {f : α → β} {b : β}
    (h : (l.findSome? fun x => if p x = true then some (f x) else none) = some b) : ∃ x ∈ l, p x = true ∧ f x = b := by
  obtain ⟨x, hx, hb⟩ := List.exists_of_findSome?_eq_some h
  split at hb
  next hp => exact ⟨x, hx, hp, Option.some.inj hb⟩
  · exact nomatch hb

theorem State.settledGuard_next {s : State} {i : Instr} (h : s.settledGuard = some i) : ∃ t, exec i s = .next t := by
  obtain ⟨x, -, hx⟩ := List.exists_of_findSome?_eq_some h
  obtain ⟨k, -, hk, rfl⟩ := findSome_ite_some hx
  exact runEvent_isSome hk

/-- An event whose time has come can take place: reading an engine finds the card that is overdue there. -/
theorem State.overdue_next {s : State} {i : Instr} (he : s.enginesRead) (h : s.overdue = some i) : ∃ t, exec i s = .next t := by
  unfold State.overdue at h
  rcases Option.or_eq_some_iff.1 h with h | ⟨-, h⟩
  · obtain ⟨x, -, hx, rfl⟩ := findSome_ite_some h
    exact runEvent_isSome hx
  rcases Option.or_eq_some_iff.1 h with h | ⟨-, h⟩
  · obtain ⟨x, -, hx, rfl⟩ := findSome_ite_some h
    exact runEvent_isSome hx
  rcases Option.or_eq_some_iff.1 h with h | ⟨-, h⟩
  · obtain ⟨e, hm, hx⟩ := List.exists_of_findSome?_eq_some h
    obtain ⟨k, hk, rfl⟩ := Option.map_eq_some_iff.1 hx
    have hd := List.find?_some hk
    rw [← he e hm] at hd
    exact runEvent_isSome (State.collTimeout_isSome hd)
  · obtain ⟨x, -, hx, rfl⟩ := findSome_ite_some h
    exact runEvent_isSome (State.holdTimeout_isSome hx)

theorem State.forced_next {s : State} {i : Instr} (he : s.enginesRead) (h : s.forced = some i) : ∃ t, exec i s = .next t := by
  rcases Option.or_eq_some_iff.1 h with h | ⟨-, h⟩
  · exact State.settledGuard_next h
  · exact State.overdue_next he h

/-- What O57 says holds of a state each of whose engines reads as it is listed (R13, R204, R205). -/
theorem step_next {s : State} (he : s.enginesRead) : ∃ t, step s = .next t := by
  unfold step State.takeStep
  split
  next i h =>
    obtain ⟨t, ht⟩ := State.forced_next he h
    rw [ht]
    exact ⟨_, rfl⟩
  · dsimp only
    split
    · exact State.issueStep_next s
    split
    · exact ⟨_, rfl⟩
    · exact State.issueStep_next _


/-! ## A state whose next step faults -/

/-- What is forced and faults stops the step. -/
theorem step_forced_fault {s : State} {i : Instr} {r : Fault} (h : s.forced = some i) (hf : exec i s = .fault r) :
    step s = .fault r := by
  unfold step State.takeStep
  rw [h]
  simp only [hf]

/-- A collective that has waited past 2^31 cycles for its participants. -/
def overdueCard : Card :=
  { id := 1, engine := 0, regions := [], bytes := [2#8], cap0 := Cap.null, cap1 := Cap.null, addr := 0, issuer := none, core := 0
    tenant := 0, part := 0, cls := 0, group := 0#64, waits := true }

/-- A state whose list of engines names engine 0 twice: reading engine 0 finds the first entry, which is idle, while the second
runs a collective that is overdue. -/
def engineListedTwice : State := { engines := [(0, {}), (0, { running := [overdueCard] })], now := 2 ^ 31 }

theorem engineListedTwice_forced : engineListedTwice.forced = some (.collTimeout 0 0) := by decide +kernel

theorem engineListedTwice_fault : exec (.collTimeout 0 0) engineListedTwice = .fault (.notEnabled "COLL_TIMEOUT") := rfl

/-- Refutes O57: where the list of engines names an engine twice, `State.overdue` finds the overdue collective of the second entry,
and COLL_TIMEOUT, which reads the first, cannot take place. Where no engine is listed twice, every step goes on (`step_next`). -/
theorem not_everyStepGoesOn : ¬ Obligations.EveryStepGoesOn := by
  intro h
  obtain ⟨⟨t, ht⟩, -⟩ := h engineListedTwice
  rw [step_forced_fault engineListedTwice_forced engineListedTwice_fault] at ht
  exact nomatch ht

end Sys2Proof.Machine

/-! # Accesses at their homes, and fences (R21, R146, R149, R245 to R248) -/

namespace Sys2Proof.Machine

/-! ## What performing writes changes -/

/-- `t` is `s` but for bytes, tags and poison. -/
def State.sameButMemory (s t : State) : Prop := ∃ m g q, t = { s with mem := m, tags := g, poison := q }

theorem State.sameButMemory_refl (s : State) : s.sameButMemory s := ⟨s.mem, s.tags, s.poison, rfl⟩

theorem State.sameButMemory.trans {s t u : State} (h : s.sameButMemory t) (h' : t.sameButMemory u) : s.sameButMemory u := by
  obtain ⟨_, _, _, rfl⟩ := h
  obtain ⟨m, g, q, rfl⟩ := h'
  exact ⟨m, g, q, rfl⟩

theorem State.sameButMemory_foldl {β : Type} {f : State → β → State} (hf : ∀ (s : State) b, s.sameButMemory (f s b)) (l : List β) (s : State) :
    s.sameButMemory (l.foldl f s) := by
  induction l generalizing s with
  | nil => exact s.sameButMemory_refl
  | cons b l ih => exact (hf s b).trans (ih (f s b))

theorem State.sameButMemory_writeAll (s : State) (ws : List (Nat × Byte)) : s.sameButMemory (s.writeAll ws) :=
  State.sameButMemory_foldl (fun _ _ => ⟨_, _, _, rfl⟩) ws s

/-- The lines that writes cover whole are poisoned no more (R428). -/
def State.cleanWhole (s : State) (ws : List (Nat × Byte)) : State := (wholeLines ws).foldl (fun s l => s.setPoison (l * 64) false) s

theorem State.sameButMemory_cleanWhole (s : State) (ws : List (Nat × Byte)) : s.sameButMemory (s.cleanWhole ws) :=
  State.sameButMemory_foldl (fun _ _ => ⟨_, _, _, rfl⟩) _ s

/-- A fold of steps that each leave a part of the state leaves it. -/
theorem State.foldl_keeps {β γ : Type} {f : State → β → State} (r : State → γ) (hf : ∀ s b, r (f s b) = r s) (l : List β) (s : State) :
    r (l.foldl f s) = r s := by
  induction l generalizing s with
  | nil => rfl
  | cons b l ih => exact (ih (f s b)).trans (hf s b)

theorem State.cleanWhole_mem (s : State) (ws : List (Nat × Byte)) : (s.cleanWhole ws).mem = s.mem :=
  State.foldl_keeps (f := fun s l => s.setPoison (l * 64) false) State.mem (fun _ _ => rfl) _ s

theorem State.cleanWhole_tags (s : State) (ws : List (Nat × Byte)) : (s.cleanWhole ws).tags = s.tags :=
  State.foldl_keeps (f := fun s l => s.setPoison (l * 64) false) State.tags (fun _ _ => rfl) _ s

section Writes

variable {s : State} {p ten : Nat} {ws : List (Nat × Byte)} {tag : Option Nat}

/-- Writes that no page logs, where no granule is absent: their bytes, their lines cleaned, their tag (R146, R113, R428, R157). -/
theorem State.performWrites_here (h : s.absent = []) :
    s.performWrites p ten none ws tag =
      tag.elim ((s.writeAll ws).cleanWhole ws) fun k => ((s.writeAll ws).cleanWhole ws).setTag k true := by
  cases ws with
  | nil => cases tag <;> rfl
  | cons w ws =>
    have hf : s.fillFor w.1 (ws.length + 1) = s := State.fillFor_nil h _ _
    cases tag <;> simp only [State.performWrites, List.length_cons, hf] <;> rfl

theorem State.sameButMemory_performWrites (h : s.absent = []) : s.sameButMemory (s.performWrites p ten none ws tag) := by
  rw [State.performWrites_here h]
  have hw := (s.sameButMemory_writeAll ws).trans (State.sameButMemory_cleanWhole _ ws)
  cases tag with
  | none => exact hw
  | some k => exact hw.trans ⟨_, _, _, rfl⟩

theorem State.byte_performWrites (h : s.absent = []) (k : Nat) :
    (s.performWrites p ten none ws tag).byte k = (s.writeAll ws).byte k := by
  rw [State.performWrites_here h]
  have hm : ((s.writeAll ws).cleanWhole ws).byte k = (s.writeAll ws).byte k := by
    rw [State.byte, State.cleanWhole_mem, State.byte]
  cases tag with
  | none => exact hm
  | some j => exact hm

/-- The granule of the access's tag becomes tagged, and any other has the tag that its writes leave. -/
theorem State.tags_performWrites (h : s.absent = []) (g : Nat) :
    (s.performWrites p ten none ws tag).tags.get false g =
      (tag.any (fun k => k / 16 == g) || (s.writeAll ws).tags.get false g) := by
  rw [State.performWrites_here h]
  cases tag with
  | none => rw [Option.elim_none, State.cleanWhole_tags]; rfl
  | some k =>
    rw [Option.elim_some, State.setTag, SMap.get_set, State.cleanWhole_tags, Option.any_some]
    by_cases hg : g = k / 16
    · simp [hg]
    · simp [hg, Ne.symm hg]

end Writes

/-- A granule is tagged after writes when it was and none of them meets it (R113). -/
theorem State.tags_writeAll (ws : List (Nat × Byte)) (s : State) (g : Nat) :
    (s.writeAll ws).tags.get false g = (s.tags.get false g && ws.all fun w => decide (w.1 / 16 ≠ g)) := by
  induction ws generalizing s with
  | nil => exact (Bool.and_true _).symm
  | cons w ws ih =>
    rw [State.writeAll, List.foldl_cons, ← State.writeAll, ih, State.setByte, SMap.get_erase, List.all_cons]
    by_cases hg : g = w.1 / 16
    · simp [hg]
    · simp [hg, Ne.symm hg]

/-- A byte reads as the last write that names it has left it. -/
theorem State.byte_writeAll_last (pre post : List (Nat × Byte)) (w : Nat × Byte) (s : State) (h : ∀ x ∈ post, x.1 ≠ w.1) :
    (s.writeAll (pre ++ w :: post)).byte w.1 = w.2 := by
  have hw : s.writeAll (pre ++ w :: post) = ((s.writeAll pre).setByte w.1 w.2).writeAll post := by
    simp only [State.writeAll, List.foldl_append, List.foldl_cons]
  rw [hw, State.byte_writeAll_ne _ _ _ h, State.byte_setByte, if_pos rfl]

/-! ## Where a response goes (R407) -/

/-- `t` is `s` but for what is on its way back: numbers, counts, responses and the links. -/
def State.sameButReturns (s t : State) : Prop := ∃ f r k l, t = { s with fresh := f, returns := r, acks := k, links := l }

theorem State.post_links (s : State) (id cls : Nat) (resp : Bool) (src dst : Nat) (path : List Nat) :
    ∃ l, s.post id cls resp src dst path = { s with links := l } := by
  cases path with
  | nil => exact ⟨s.links, rfl⟩
  | cons l ls =>
    unfold State.post State.putFlit
    dsimp only
    split
    · exact ⟨s.links, rfl⟩
    · exact ⟨_, rfl⟩

theorem State.sameButReturns_answer (s : State) (a : Access) : s.sameButReturns (s.answer a) := by
  unfold State.answer State.respond
  dsimp only
  obtain ⟨l, hl⟩ := State.post_links { s with fresh := s.fresh + 1 } s.fresh (s.accessClass a) true a.home a.origin
    (s.pathFrom a.home a.origin ++ if a.slot = hostSlot then [hostLink] else [])
  rw [hl]
  split
  · exact ⟨_, s.returns, _, l, rfl⟩
  · exact ⟨_, s.returns, s.acks, l, rfl⟩

theorem State.sameButReturns_sendReturn (s : State) (a : Access) (failed : Bool) : s.sameButReturns (s.sendReturn a failed) := by
  unfold State.sendReturn
  split
  · unfold State.sendBack
    dsimp only
    generalize hr : s.returns ++ _ = r
    obtain ⟨l, hl⟩ := State.post_links { s with fresh := s.fresh + 1, returns := r } s.fresh
      (s.messageClass a.part a.tenant none) true a.home (coreOf a.slot) (s.pathFrom a.home (coreOf a.slot))
    exact ⟨_, r, s.acks, l, hl⟩
  · exact s.sameButReturns_answer a

/-- A flit that waits for a link is on it. -/
theorem State.crossing_of_waiting {s : State} {l i id : Nat} {f : Flit} (h : f ∈ (s.link l).waiting.get [] i) (hid : f.id = id) :
    s.crossing id = true := by
  have hw : (i, (s.link l).waiting.get [] i) ∈ (s.link l).waiting :=
    (SMap.get_mem [] (s.link l).waiting i).resolve_left fun e => by rw [e] at h; cases h
  have hk : (l, s.link l) ∈ s.links :=
    (SMap.get_mem ({} : Link) s.links l).resolve_left fun e => by
      have e : s.link l = {} := e
      rw [e] at h; cases h
  unfold State.crossing
  rw [List.any_eq_true]
  refine ⟨_, hk, ?_⟩
  rw [Bool.or_eq_true, List.any_eq_true]
  refine .inl ⟨_, hw, List.any_eq_true.2 ⟨f, h, ?_⟩⟩
  rw [hid, beq_self_eq_true]

/-- Link `l` takes flits: it is no host link with no module left (R416). -/
def State.takes (s : State) (l : Nat) : Prop := (l = hostLink ∨ l = hostIn) → s.hostDown ≠ 15#4

theorem State.crossing_post {s : State} {id cls : Nat} {resp : Bool} {src dst l : Nat} {ls : List Nat} (h : s.takes l) :
    (s.post id cls resp src dst (l :: ls)).crossing id = true := by
  unfold State.post State.putFlit
  dsimp only
  rw [if_neg]
  · refine State.crossing_of_waiting (l := l) (i := Flit.sub { id, cls, resp, src, dst, path := l :: ls })
      (f := { id, cls, resp, src, dst, path := ls }) ?_ rfl
    simp [State.link, State.modLink]
  · intro hl
    simp only [Bool.and_eq_true, Bool.or_eq_true, beq_iff_eq] at hl
    exact h hl.1 hl.2

/-! ## The first link of a response's path -/

/-- The core at a place of the mesh stands on the die of that place (R16). -/
theorem dieOf_coreAt (x y : Nat) : dieOf (coreAt x y) = x / 16 + 2 * (y / 10) := by
  unfold dieOf coreAt
  dsimp only
  omega

/-- Column and row of the core with number `r` in cluster `q` of die `d` (R16). -/
theorem coreX_eq {d q r : Nat} (hq : q < 20) (hr : r < 8) : coreX (160 * d + 8 * q + r) = 16 * (d % 2) + 4 * (q % 4) + r % 4 := by
  have hd : (160 * d + 8 * q + r) / 160 = d := by omega
  have hc : (160 * d + 8 * q + r) / 8 % 20 = q := by omega
  have hn : (160 * d + 8 * q + r) % 8 = r := by omega
  rw [coreX, dieOf, clusterOf, hd, hc, hn]

theorem coreY_eq {d q r : Nat} (hq : q < 20) (hr : r < 8) : coreY (160 * d + 8 * q + r) = 10 * (d / 2) + 2 * (q / 4) + r / 4 := by
  have hd : (160 * d + 8 * q + r) / 160 = d := by omega
  have hc : (160 * d + 8 * q + r) / 8 % 20 = q := by omega
  have hn : (160 * d + 8 * q + r) % 8 = r := by omega
  rw [coreY, dieOf, clusterOf, hd, hc, hn]

theorem core_split (c : Nat) : ∃ d q r, q < 20 ∧ r < 8 ∧ c = 160 * d + 8 * q + r :=
  ⟨c / 160, c / 8 % 20, c % 8, by omega, by omega, by omega⟩

/-- A core stands at its column and row. -/
theorem coreAt_self (c : Nat) : coreAt (coreX c) (coreY c) = c := by
  obtain ⟨d, q, r, hq, hr, rfl⟩ := core_split c
  rw [coreX_eq hq hr, coreY_eq hq hr]
  have hx : (16 * (d % 2) + 4 * (q % 4) + r % 4) / 16 = d % 2 := by omega
  have hx' : (16 * (d % 2) + 4 * (q % 4) + r % 4) % 16 = 4 * (q % 4) + r % 4 := by omega
  have hy : (10 * (d / 2) + 2 * (q / 4) + r / 4) / 10 = d / 2 := by omega
  have hy' : (10 * (d / 2) + 2 * (q / 4) + r / 4) % 10 = 2 * (q / 4) + r / 4 := by omega
  unfold coreAt
  dsimp only
  rw [hx, hx', hy, hy']
  omega

theorem coreX_lt {c : Nat} (h : c < 640) : coreX c < 32 := by
  obtain ⟨d, q, r, hq, hr, rfl⟩ := core_split c
  rw [coreX_eq hq hr]
  omega

theorem coreY_lt {c : Nat} (h : c < 640) : coreY c < 20 := by
  obtain ⟨d, q, r, hq, hr, rfl⟩ := core_split c
  rw [coreY_eq hq hr]
  omega

/-- The places next to core `c` in the mesh, on the way to core `d`: X first (R10). -/
def nextPlace (c d dir x y : Nat) : Prop :=
  dir = 0 ∧ x = coreX c + 1 ∧ x ≤ coreX d ∧ y = coreY c ∨ dir = 1 ∧ x + 1 = coreX c ∧ y = coreY c ∨
    dir = 2 ∧ x = coreX c ∧ y = coreY c + 1 ∧ y ≤ coreY d ∨ dir = 3 ∧ x = coreX c ∧ y + 1 = coreY c

/-- The first link of a path leads from its start to a place next to it. -/
theorem meshPath_head {c d l : Nat} {ls : List Nat} (h : meshPath c d = l :: ls) :
    ∃ dir x y, nextPlace c d dir x y ∧ l = hopLink c dir (coreAt x y) := by
  have hself := coreAt_self c
  unfold nextPlace
  unfold meshPath at h
  dsimp only at h
  generalize coreX c = x0, coreY c = y0, coreX d = x1, coreY d = y1 at *
  have firstHop : ∀ {n k : Nat} {f : Nat → Nat} {r : List Nat}, n = k + 1 → (List.range n).map f ++ r = l :: ls → l = f 0 := by
    intro n k f r hn h
    rw [hn, List.range_succ_eq_map, List.map_cons, List.cons_append] at h
    exact (List.cons.inj h).1.symm
  have noHops : ∀ {n : Nat} {f : Nat → Nat} {r : List Nat}, n = 0 → (List.range n).map f ++ r = r := by
    intro n f r hn
    rw [hn]; rfl
  simp only [List.append_assoc] at h
  rcases Nat.lt_trichotomy x0 x1 with hx | rfl | hx
  · refine ⟨0, x0 + 1, y0, .inl ⟨rfl, rfl, hx, rfl⟩, ?_⟩
    rw [firstHop (k := x1 - x0 - 1) (by omega) h, Nat.add_zero, hself]
  · rw [noHops (Nat.sub_self _), noHops (Nat.sub_self _)] at h
    rcases Nat.lt_trichotomy y0 y1 with hy | rfl | hy
    · refine ⟨2, x0, y0 + 1, .inr (.inr (.inl ⟨rfl, rfl, rfl, hy⟩)), ?_⟩
      rw [firstHop (k := y1 - y0 - 1) (by omega) h, Nat.add_zero, hself]
    · rw [Nat.sub_self] at h
      cases h
    · refine ⟨3, x0, y0 - 1, .inr (.inr (.inr ⟨rfl, rfl, by omega⟩)), ?_⟩
      rw [noHops (by omega), ← List.append_nil (List.map _ _)] at h
      rw [firstHop (k := y0 - y1 - 1) (by omega) h, Nat.sub_zero, hself]
  · refine ⟨1, x0 - 1, y0, .inr (.inl ⟨rfl, by omega, rfl⟩), ?_⟩
    rw [noHops (by omega)] at h
    rw [firstHop (k := x0 - x1 - 1) (by omega) h, Nat.sub_zero, hself]

/-- A core of the package, or the first core of a die: where a home stands (R141). -/
def homeNode (c : Nat) : Prop := c < 640 ∨ c % 160 = 0

/-- The first core of a die stands in the corner from which its columns and rows count. -/
theorem corner_place {c : Nat} (h : c % 160 = 0) : coreX c = 16 * (dieOf c % 2) ∧ coreY c = 10 * (dieOf c / 2) := by
  obtain ⟨d, rfl⟩ : ∃ d, c = 160 * d := ⟨c / 160, by omega⟩
  have hd : dieOf (160 * d) = d := by unfold dieOf; omega
  rw [hd]
  exact ⟨(coreX_eq (q := 0) (r := 0) (by decide) (by decide)).trans (by omega),
    (coreY_eq (q := 0) (r := 0) (by decide) (by decide)).trans (by omega)⟩

/-- No hop from where a home stands, towards a core of the package, is a host link. -/
theorem hopLink_not_host {c d dir x y : Nat} (hc : homeNode c) (hd : d < 640) (hn : nextPlace c d dir x y) :
    hopLink c dir (coreAt x y) ≠ hostLink ∧ hopLink c dir (coreAt x y) ≠ hostIn := by
  have hx := coreX_lt hd
  have hy := coreY_lt hd
  have hself := dieOf_coreAt (coreX c) (coreY c)
  rw [coreAt_self] at hself
  unfold hopLink
  rw [dieOf_coreAt]
  unfold dieLink linkDir hostLink hostIn
  rcases hc with hc | hc
  · have hxc := coreX_lt hc
    have hyc := coreY_lt hc
    have hdie : dieOf c < 4 := by unfold dieOf; omega
    unfold nextPlace at hn
    split <;> omega
  · obtain ⟨hxc, hyc⟩ := corner_place hc
    have hdie : c = 160 * dieOf c := by unfold dieOf; omega
    unfold nextPlace at hn
    split <;> omega

theorem meshPath_not_host {c d l : Nat} {ls : List Nat} (hc : homeNode c) (hd : d < 640) (h : meshPath c d = l :: ls) :
    l ≠ hostLink ∧ l ≠ hostIn := by
  obtain ⟨dir, x, y, hn, rfl⟩ := meshPath_head h
  exact hopLink_not_host hc hd hn

/-- Every home of this package stands at such a core. -/
theorem homeNode_nodeOfHome (h : Nat) : homeNode (nodeOfHome h) := by
  unfold homeNode nodeOfHome hostHome
  split
  · omega
  split
  · omega
  split
  · omega
  split
  · omega
  split
  · omega
  split
  · omega
  split <;> omega

/-- The first link of a response's path takes its flit. -/
theorem State.takes_pathFrom {s : State} {h c l : Nat} {ls : List Nat} (hc : c < 640) (hp : s.pathFrom h c = l :: ls) : s.takes l := by
  have mesh : ∀ {n : Nat}, homeNode n → meshPath n c = l :: ls → s.takes l := by
    intro n hn hp hl
    obtain ⟨ho, hi⟩ := meshPath_not_host hn hc hp
    exact absurd hl (not_or.2 ⟨ho, hi⟩)
  unfold State.pathFrom at hp
  split at hp
  · exact mesh (.inr (Nat.mul_mod_right 160 _)) hp
  split at hp
  · by_cases hd : s.hostDown = 15#4
    · rw [if_pos hd, List.nil_append] at hp
      exact mesh (.inl (by decide)) hp
    · exact fun _ => hd
  · exact mesh (homeNode_nodeOfHome h) hp

/-! ## The home performs a store -/

/-- A return or a response that travels over links crosses the first of them. -/
theorem State.crossing_sendReturn {s : State} {a : Access} {failed : Bool} (ha : a.slot < 7680) (hp : s.pathFrom a.home a.origin ≠ []) :
    (s.sendReturn a failed).crossing s.fresh = true := by
  have hc : coreOf a.slot < 640 := by unfold coreOf; omega
  have ho : a.origin = coreOf a.slot := if_pos ha
  obtain ⟨l, ls, hl⟩ := List.exists_cons_of_ne_nil hp
  rw [ho] at hl
  have ht : s.takes l := State.takes_pathFrom hc hl
  unfold State.sendReturn
  split
  · unfold State.sendBack
    dsimp only
    rw [hl]
    exact State.crossing_post ht
  · unfold State.answer State.respond
    have hs : (if a.slot = hostSlot then [hostLink] else []) = [] := if_neg (by unfold hostSlot; omega)
    rw [ho, hs, List.append_nil, hl]
    dsimp only
    split
    · exact State.crossing_post (s := { s with fresh := s.fresh + 1 }) ht
    · exact State.crossing_post (s := { s with fresh := s.fresh + 1 }) ht

/-- The flight without an access that has been performed. -/
def State.without (s : State) (a : Access) : State := { s with flight := s.flight.filter fun x => x.id ≠ a.id }

/-- What the home of a store leaves: its access in flight no longer, its writes performed, its response or count on its way. -/
def State.stored (s : State) (a : Access) : State :=
  ((s.without a).performWrites a.part a.tenant none a.writes a.tagKey).sendReturn a false

section Stored

variable {s : State} {a : Access} (hab : s.absent = [])
include hab

/-- A store leaves the state as it was but for the flight, memory and what travels back. -/
theorem State.stored_frame : ∃ m g q f r k l, s.stored a =
    { s.without a with mem := m, tags := g, poison := q, fresh := f, returns := r, acks := k, links := l } := by
  obtain ⟨m, g, q, hw⟩ := State.sameButMemory_performWrites (s := s.without a) (p := a.part) (ten := a.tenant) (ws := a.writes)
    (tag := a.tagKey) hab
  obtain ⟨f, r, k, l, hr⟩ := State.sameButReturns_sendReturn
    ((s.without a).performWrites a.part a.tenant none a.writes a.tagKey) a false
  exact ⟨m, g, q, f, r, k, l, hr.trans (by rw [hw])⟩

theorem State.stored_byte (k : Nat) : (s.stored a).byte k = ((s.without a).writeAll a.writes).byte k := by
  obtain ⟨f, r, l, n, hr⟩ := State.sameButReturns_sendReturn
    ((s.without a).performWrites a.part a.tenant none a.writes a.tagKey) a false
  rw [State.stored, hr]
  exact State.byte_performWrites (s := s.without a) hab k

theorem State.stored_tags (g : Nat) : (s.stored a).tags.get false g =
    (a.tagKey.any (fun k => k / 16 == g) || (s.tags.get false g && a.writes.all fun w => decide (w.1 / 16 ≠ g))) := by
  obtain ⟨f, r, l, n, hr⟩ := State.sameButReturns_sendReturn
    ((s.without a).performWrites a.part a.tenant none a.writes a.tagKey) a false
  rw [State.stored, hr]
  exact (State.tags_performWrites (s := s.without a) hab g).trans (congrArg _ (State.tags_writeAll _ _ _))

theorem State.stored_byte_ne {k : Nat} (h : ∀ w ∈ a.writes, w.1 ≠ k) : (s.stored a).byte k = s.byte k := by
  rw [State.stored_byte hab, State.byte_writeAll_ne _ _ _ h]
  rfl

/-- A byte reads as the last write of the store that names it. -/
theorem State.stored_byte_last {i : Nat} (hi : i < a.writes.length)
    (h : ∀ j, i < j → j < a.writes.length → (a.writes.getD j (0, 0#8)).1 ≠ (a.writes.getD i (0, 0#8)).1) :
    (s.stored a).byte (a.writes.getD i (0, 0#8)).1 = (a.writes.getD i (0, 0#8)).2 := by
  have hd : ∀ j (hj : j < a.writes.length), a.writes.getD j (0, 0#8) = a.writes[j] := fun j hj => List.getD_eq_getElem _ _ hj
  have hs : a.writes.take i ++ a.writes[i] :: a.writes.drop (i + 1) = a.writes := by
    rw [← List.drop_eq_getElem_cons hi, List.take_append_drop]
  have hpost : ∀ x ∈ a.writes.drop (i + 1), x.1 ≠ a.writes[i].1 := by
    intro x hx
    obtain ⟨n, hn, rfl⟩ := List.mem_iff_getElem.1 hx
    rw [List.length_drop] at hn
    have hj := h (i + 1 + n) (by omega) (by omega)
    rwa [hd i hi, hd _ (by omega), ← List.getElem_drop] at hj
  have hb := State.byte_writeAll_last (a.writes.take i) (a.writes.drop (i + 1)) a.writes[i] (s.without a) hpost
  rw [hs] at hb
  rw [State.stored_byte hab, hd i hi, hb]

/-- A granule that neither a write nor the tag of the store meets keeps its tag. -/
theorem State.stored_tags_ne {g : Nat} (hw : ∀ w ∈ a.writes, w.1 / 16 ≠ g) (ht : ∀ key, a.tagKey = some key → key / 16 ≠ g) :
    (s.stored a).tags.get false g = s.tags.get false g := by
  have hall : (a.writes.all fun w => decide (w.1 / 16 ≠ g)) = true := List.all_eq_true.2 fun w h => decide_eq_true (hw w h)
  have hany : a.tagKey.any (fun k => k / 16 == g) = false := by
    cases hk : a.tagKey with
    | none => rfl
    | some k => exact beq_false_of_ne (ht k hk)
  rw [State.stored_tags hab, hall, hany, Bool.and_true, Bool.false_or]

/-- A granule that a write meets is tagged no more, unless the store tags it (R113). -/
theorem State.stored_tags_cleared {w : Nat × Byte} (hw : w ∈ a.writes) (ht : ∀ key, a.tagKey = some key → key / 16 ≠ w.1 / 16) :
    (s.stored a).tags.get false (w.1 / 16) = false := by
  have hall : (a.writes.all fun v => decide (v.1 / 16 ≠ w.1 / 16)) = false :=
    List.all_eq_false.2 ⟨w, hw, by simp⟩
  have hany : a.tagKey.any (fun k => k / 16 == w.1 / 16) = false := by
    cases hk : a.tagKey with
    | none => rfl
    | some k => exact beq_false_of_ne (ht k hk)
  rw [State.stored_tags hab, hall, hany, Bool.and_false, Bool.or_false]

theorem State.stored_tags_set {key : Nat} (ht : a.tagKey = some key) : (s.stored a).tags.get false (key / 16) = true := by
  rw [State.stored_tags hab, ht, Option.any_some, beq_self_eq_true, Bool.true_or]

/-- The response of a slot's store, or the count of its RST, crosses the links back to its core (R407). -/
theorem State.crossing_stored (ha : a.slot < 7680) (hp : s.pathFrom a.home a.origin ≠ []) : (s.stored a).crossing s.fresh = true := by
  obtain ⟨m, g, q, hw⟩ := State.sameButMemory_performWrites (s := s.without a) (p := a.part) (ten := a.tenant) (ws := a.writes)
    (tag := a.tagKey) hab
  rw [State.stored, hw]
  exact State.crossing_sendReturn (s := { s.without a with mem := m, tags := g, poison := q }) ha hp

end Stored

section Store

variable {s : State} {a : Access} {rest : List Access} (hf : s.flight = a :: rest)
include hf

theorem State.find_head : s.flight.find? (fun x => x.id == a.id) = some a := by
  rw [hf, List.find?_cons_of_pos (by simp)]

theorem State.flight_without (hrest : ∀ b ∈ rest, b.id ≠ a.id) : s.flight.filter (fun x => decide (x.id ≠ a.id)) = rest := by
  rw [hf, List.filter_cons_of_neg (by simp), List.filter_eq_self]
  exact fun b hb => decide_eq_true (hrest b hb)

/-- The oldest store of its slot to its home may be performed once nothing holds it up (R12, R149, R245, R250, R407). -/
theorem State.mayPerform_store (hk : a.kind = .store) (hrest : ∀ b ∈ rest, ¬ (b.slot = a.slot ∧ b.home = a.home ∧ b.id < a.id))
    (hh : a.holds = []) (hab : s.absent = []) (hc : s.crossing a.id = false) (hm : s.messageTo a.slot a.home a.id = false)
    (hd : s.homeHeld a.home = false) (ht : s.threadFree a.origin a.home a.rst = true) : s.mayPerform a = true := by
  have hthere : s.heldThere a = false := by unfold State.heldThere; rw [hk]
  have hfill : (a.bytesAt.all fun k => !s.fillWaits k.1 k.2) = true := by
    cases a.bytesAt with
    | none => rfl
    | some k => rw [Option.all_some, State.fillWaits_nil hab]; rfl
  have hold : (s.flight.any fun x => x.slot == a.slot && x.home == a.home && decide (x.id < a.id) && !s.queuesBehind a x) = false := by
    rw [List.any_eq_false]
    intro x hx hx'
    simp only [Bool.and_eq_true, beq_iff_eq, decide_eq_true_eq] at hx'
    obtain ⟨⟨⟨hs, hm⟩, hi⟩, -⟩ := hx'
    rcases List.mem_cons.1 (hf ▸ hx) with rfl | hr
    · exact absurd hi (Nat.lt_irrefl _)
    · exact hrest x hr ⟨hs, hm, hi⟩
  unfold State.mayPerform State.mayArrive
  rw [hc, hh, hm, hd, ht, hthere, hfill, hold]
  rfl

end Store

/-- A store whose host can be reached is performed, and answered or returned (R146, R407, R416). -/
theorem State.perform_store {s : State} {a : Access} (hk : a.kind = .store) (hva : a.va = none)
    (hg : ∀ w ∈ a.writes, s.hostGone w.1 = false) : s.perform a = some (s.stored a) := by
  have hn : a.writes.find? (fun w => (s.without a).hostGone w.1) = none :=
    List.find?_eq_none.2 fun w hw => Bool.eq_false_iff.1 (hg w hw)
  have hs : (s.without a).performStore a = (s.without a).performWrites a.part a.tenant none a.writes a.tagKey := by
    unfold State.performStore
    rw [hn, hva]
  unfold State.perform
  rw [hk, State.stored, ← hs]
  rfl

/-- A slot that waits for nothing has neither a load nor a tile that an access ends. -/
theorem State.settleSlot_idle {s : State} {g : Nat} (h : (s.slot g).wait = Wait.none) : s.settleSlot g = s := by
  have hl : s.loadDone g = false := by unfold State.loadDone; rw [h]; rfl
  have hc : s.commitDone g = false := by unfold State.commitDone; rw [h]; rfl
  unfold State.settleSlot State.settleCommit
  rw [hl, hc]
  rfl

theorem exec_homeAccess_eq {s t : State} {id : Nat} (h : s.homeAccess id = some t) : exec (.homeAccess id) s = .next t := by
  rw [exec_homeAccess, execHomeAccess, h]
  rfl

/-! ## What the home does not perform -/

/-- The home performs no access that may not be performed now, and no card has one of its number. -/
theorem exec_homeAccess_fault {s : State} {b : Access} (hb : b ∈ s.flight) (hu : ∀ x ∈ s.flight, x.id = b.id → x = b)
    (hc : s.cardOp? b.id = none) (hm : s.mayPerform b = false) : exec (.homeAccess b.id) s = .fault (.notEnabled "HOME_ACCESS") := by
  have hfind : s.flight.find? (fun x => x.id == b.id) = some b := by
    cases h : s.flight.find? (fun x => x.id == b.id) with
    | none => exact absurd (beq_self_eq_true b.id) (List.find?_eq_none.1 h b hb)
    | some x => rw [hu x (List.mem_of_find?_eq_some h) (beq_iff_eq.1 (List.find?_some (p := fun x : Access => x.id == b.id) h))]
  have ha : s.homeAccess b.id = none := by
    unfold State.homeAccess
    rw [hfind]
    exact if_neg (Bool.eq_false_iff.1 hm)
  have hca : s.cardAccess b.id = none := by
    unfold State.cardAccess
    rw [hc]
  rw [exec_homeAccess, execHomeAccess, ha, hca]
  rfl

/-- An access comes after an earlier one of its slot to its home, but for those held at a full mailbox (R149, R134). -/
theorem State.mayPerform_earlier {s : State} {a b : Access} (ha : a ∈ s.flight) (hs : a.slot = b.slot) (hh : a.home = b.home)
    (hi : a.id < b.id) (hq : s.queuesBehind b a = false) : s.mayPerform b = false := by
  have : (s.flight.any fun x => x.slot == b.slot && x.home == b.home && decide (x.id < b.id) && !s.queuesBehind b x) = true :=
    List.any_eq_true.2 ⟨a, ha, by simp [hs, hh, hi, hq]⟩
  unfold State.mayPerform
  rw [this, Bool.not_true, Bool.and_false]

theorem State.mayPerform_of_mayArrive {s : State} {b : Access} (h : s.mayArrive b = false) : s.mayPerform b = false := by
  unfold State.mayPerform
  rw [h, Bool.false_and]

/-- An access comes after those that its fence holds it back for (R245). -/
theorem State.mayArrive_held {s : State} {a b : Access} (ha : a ∈ s.flight) (hb : a.id ∈ b.holds) : s.mayArrive b = false := by
  have hp : s.pending a.id = true := by
    unfold State.pending
    rw [Bool.or_eq_true, List.any_eq_true]
    exact .inl ⟨a, ha, beq_self_eq_true _⟩
  have : (b.holds.all fun h => !s.pending h) = false :=
    List.all_eq_false.2 ⟨a.id, hb, by rw [hp]; exact Bool.false_ne_true⟩
  unfold State.mayArrive
  simp [this]

/-- The message thread of a core that runs one is not free for what crosses a die boundary, nor for an RST (R12, R149). -/
theorem State.threadFree_busy {s : State} {c h : Nat} {rst : Bool} (hh : h < 640) (hd : dieOf h ≠ dieOf c ∨ rst = true)
    (hl : (s.slot (12 * h + 11)).live = true) : s.threadFree c h rst = false := by
  have hn : nodeOfHome h = h := if_pos hh
  have hdie : dieOfHome h = dieOf h := if_pos hh
  have hfar : ¬ 6000 ≤ h := by omega
  have hhost : ¬ h = hostHome := by unfold hostHome; omega
  unfold State.threadFree
  rw [hn, hdie, hl]
  rcases hd with hd | hd <;> simp [hfar, hhost, hd]

/-! ## Fences -/

/-- The state with the read cache of its current core empty (R156, R245). -/
def State.acquired (s : State) : State := s.modCore (coreOf s.cur) fun c => { c with rcache := [] }

theorem acquire_apply (s : State) : acquire s = .ok ((), s.acquired) := rfl

theorem State.cur_acquired (s : State) : s.acquired.cur = s.cur := rfl

/-- FENCE.rel gathers the slot's accesses in scope, behind those that an earlier one has left (R245, R246, R250). -/
theorem fenceRel_apply (sc : Nat) (s : State) :
    fenceRel sc s = .ok ((), s.modSlot s.cur fun x =>
      { x with relHold := x.relHold.filter s.pending ++
                 (((s.flight.filter fun a => a.slot == s.cur && !a.rst && inScope sc s.cur a.home).map Access.id).filter
                   fun i => !x.relHold.contains i) }) := rfl

/-- A full FENCE of a calm slot, where no access of its partition is marked old, acts as FENCE.acq (R223, R245). -/
theorem fullFence_calm {s : State} (sc : Nat) (h : s.calm) (hf : ∀ a ∈ s.flight, a.part = s.partOfSlot s.cur → a.old = false)
    (hc : ∀ c ∈ s.cards, c.part = s.partOfSlot s.cur → ∀ o ∈ c.ops, o.old = false) : fullFence sc s = .ok ((), s.acquired) := by
  have hfo : (s.flight.any fun a => a.old && a.part == s.partOfSlot s.cur) = false := by
    rw [List.any_eq_false]
    intro a ha hold
    rw [Bool.and_eq_true, beq_iff_eq] at hold
    exact Bool.eq_false_iff.1 (hf a ha hold.2) hold.1
  have hco : (s.cards.any fun c => c.part == s.partOfSlot s.cur && c.ops.any CardOp.old) = false := by
    rw [List.any_eq_false]
    intro c hm hold
    rw [Bool.and_eq_true, beq_iff_eq, List.any_eq_true] at hold
    obtain ⟨hp, o, ho, hold⟩ := hold
    exact Bool.eq_false_iff.1 (hc c hm hp o ho) hold
  simp [fullFence, force_calm _ h, hfo, hco, acquire_apply]

theorem exec_fence_acq (s : State) (sc : BitVec 3) : exec (.fence 1#3 sc) s = .next (s.noteIssue.acquired.past 4) :=
  (exec_fence _ sc s).trans (runInstr_past rfl)

theorem exec_fence_rel (s : State) (sc : BitVec 3) : exec (.fence 2#3 sc) s = .next (s.done 4 fun x =>
    { x with relHold := x.relHold.filter s.pending ++
               (((s.flight.filter fun a => a.slot == s.cur && !a.rst && inScope sc.toNat s.cur a.home).map Access.id).filter
                 fun i => !x.relHold.contains i) }) :=
  (exec_fence _ sc s).trans (runInstr_done rfl)

/-- EFENCE with no card out empties the read cache (R247). -/
theorem exec_efence_free {s : State} (h : s.cardsOf s.cur = []) : exec .efence s = .next (s.noteIssue.acquired.past 4) := by
  refine (exec_efence s).trans (runInstr_past ?_)
  simp [h, acquire_apply]

/-- EFENCE waits for a card without a guard, and for one that is bound to its tile (R247). -/
theorem exec_efence_waits {s : State} (h : ∃ c ∈ s.cardsOf s.cur, c.guard = none ∨ c.bound ≠ none) : exec .efence s = s.waits := by
  obtain ⟨c, hc, hg⟩ := h
  have hall : ((s.cardsOf s.cur).all fun c => c.guard.isSome && c.bound.isNone) = false := by
    refine List.all_eq_false.2 ⟨c, hc, ?_⟩
    rcases hg with hg | hg <;> simp [hg]
  refine (exec_efence s).trans (runInstr_waits ?_)
  simp [hall, await_apply]

section Full

variable {s : State} (h : s.calm) (hf : ∀ a ∈ s.flight, a.part = s.partOfSlot s.cur → a.old = false)
  (hc : ∀ c ∈ s.cards, c.part = s.partOfSlot s.cur → ∀ o ∈ c.ops, o.old = false)
include h hf hc

theorem fullFence_noteIssue (sc : Nat) : fullFence sc s.noteIssue = .ok ((), s.noteIssue.acquired) :=
  fullFence_calm sc (State.calm_noteIssue h) (by simpa using hf) (by rwa [State.noteIssue_partOfSlot])

theorem exec_fence_full (sc : BitVec 3) : exec (.fence 0#3 sc) s = .next (s.noteIssue.acquired.past 4) := by
  refine runInstr_past (?_ : fence 0 sc.toNat s.noteIssue = _)
  simp [fence, fullFence_noteIssue h hf hc]

theorem exec_fenceCoreC_full : exec .fenceCoreC s = .next (s.noteIssue.acquired.past 2) := by
  refine runInstr_past (?_ : fence 0 1 s.noteIssue = _)
  simp [fence, fullFence_noteIssue h hf hc]

/-- IFENCE empties the instruction buffer too (R248). -/
theorem exec_ifence_full :
    exec .ifence s = .next ((s.noteIssue.acquired.modCore (coreOf s.cur) fun c => { c with ibuf := [] }).past 4) := by
  refine (exec_ifence s).trans (runInstr_past ?_)
  simp [fullFence_noteIssue h hf hc, State.cur_acquired]

end Full

/-! ## The obligation -/

/-- Why the home does not perform access `b`: an earlier access or one that it waits for, a link, a message, a hold of the home,
or the message thread of the core that it would need (R12, R134, R149, R180, R245, R250, R407). -/
theorem State.mayPerform_false {s : State} {b : Access}
    (h : (∃ a ∈ s.flight, a.slot = b.slot ∧ a.home = b.home ∧ a.id < b.id ∧ s.queuesBehind b a = false ∨ a.id ∈ b.holds) ∨
      s.crossing b.id = true ∨ s.messageTo b.slot b.home b.id = true ∨ s.homeHeld b.home = true ∨
      b.slot ≠ hardwareSlot ∧ b.home < 640 ∧ (dieOf b.home ≠ dieOf b.origin ∨ b.rst = true) ∧ (s.slot (12 * b.home + 11)).live = true) :
    s.mayPerform b = false := by
  rcases h with ⟨a, ha, ⟨hs, hh, hi, hq⟩ | hb⟩ | hc | hm | hd | ⟨-, hh, hd, hl⟩
  · exact State.mayPerform_earlier ha hs hh hi hq
  · exact State.mayPerform_of_mayArrive (State.mayArrive_held ha hb)
  · exact State.mayPerform_of_mayArrive (by unfold State.mayArrive; simp [hc])
  · exact State.mayPerform_of_mayArrive (by unfold State.mayArrive; simp [hm])
  · exact State.mayPerform_of_mayArrive (by unfold State.mayArrive; simp [hd])
  · exact State.mayPerform_of_mayArrive (by unfold State.mayArrive; simp [State.threadFree_busy hh hd hl])

/-- The home performs the store, and leaves `s.stored a`. -/
theorem exec_homeAccess_store {s : State} {a : Access} {rest : List Access} (hf : s.flight = a :: rest) (hk : a.kind = .store)
    (hrest : ∀ b ∈ rest, ¬ (b.slot = a.slot ∧ b.home = a.home ∧ b.id < a.id)) (hh : a.holds = []) (hva : a.va = none)
    (hab : s.absent = []) (hc : s.crossing a.id = false) (hm : s.messageTo a.slot a.home a.id = false) (hd : s.homeHeld a.home = false)
    (ht : s.threadFree a.origin a.home a.rst = true) (hg : ∀ w ∈ a.writes, s.hostGone w.1 = false)
    (hw : (s.slot a.slot).wait = Wait.none) : exec (.homeAccess a.id) s = .next (s.stored a) := by
  obtain ⟨m, g, q, f, r, k, l, hst⟩ := State.stored_frame (a := a) hab
  have hslot : ((s.stored a).slot a.slot).wait = Wait.none := by rw [hst]; exact hw
  refine exec_homeAccess_eq ?_
  unfold State.homeAccess
  rw [State.find_head hf]
  dsimp only
  rw [if_pos (State.mayPerform_store hf hk hrest hh hab hc hm hd ht), State.perform_store hk hva hg, Option.map_some,
    State.settleSlot_idle hslot]

/-- Settles O21: the home leaves `State.stored`, whose bytes, tags and responses the lemmas above describe; what holds an access up
makes `State.mayPerform` false; and each fence is the run of its body. -/
theorem homesAndFences : Obligations.HomesAndFences := by
  unfold Obligations.HomesAndFences
  refine ⟨?_, ?_, ?_⟩
  · intro s a rest hf hk hh hva hab hrest hc hm hd ht hg hw
    refine ⟨s.stored a, exec_homeAccess_store hf hk (fun b hb => (hrest b hb).2) hh hva hab hc hm hd ht hg hw, ?_,
      fun _ => State.stored_byte_ne hab, fun _ => State.stored_byte_last hab, fun _ => State.stored_tags_ne hab,
      fun _ => State.stored_tags_cleared hab, fun _ => State.stored_tags_set hab, State.crossing_stored hab, ?_⟩
    · obtain ⟨m, g, q, f, r, k, l, hst⟩ := State.stored_frame (a := a) hab
      rw [hst]
      exact State.flight_without hf fun b hb => (hrest b hb).1
    · obtain ⟨m, g, q, f, r, k, l, hst⟩ := State.stored_frame (a := a) hab
      rw [hst]
      exact ⟨rfl, rfl, rfl⟩
  · intro s b hb hu hc h
    exact exec_homeAccess_fault hb hu hc (State.mayPerform_false h)
  · intro s sc
    exact ⟨exec_fence_acq s sc, exec_fence_rel s sc, exec_efence_free, exec_efence_waits,
      fun h hf hc => ⟨exec_fence_full h hf hc sc, exec_fenceCoreC_full h hf hc, exec_ifence_full h hf hc⟩⟩

end Sys2Proof.Machine

/-! # Partitions, tenants, firmware and errors (R179, R402) -/

namespace Sys2Proof.Machine

/-- Firmware runs, and the queue of cluster 0 holds 257 records of partition 0, none of them in a ring: one more than the 256 that it
keeps (R179). `State.setAll` never leaves such a queue, but O51 speaks of every state whose rings are empty. -/
def overfullQueue : State :=
  { State.reset with fw := { State.reset.fw with booted := true }, clusters := [(0, { ready := List.replicate 257 {} })] }

theorem overfullQueue_ring (cl : Nat) : (overfullQueue.cluster cl).ring = [] := by
  by_cases h : cl = 0
  · subst h; rfl
  · have hc : overfullQueue.cluster cl = {} := if_neg (Ne.symm h)
    rw [hc]

/-- The reset of partition 1 leaves the queue to the other partitions, and lays the record past its 256 entries in memory: the
counter of its range is in byte 72. -/
theorem overfullQueue_reset : (overfullQueue.partitionReset 1 []).map (fun t => t.byte 72) = some 1#8 := by decide +kernel

/-- Refutes O51: the reset of partition 1 from `overfullQueue` writes byte 72 of memory, though no cluster's ring holds an entry. -/
theorem not_partitionsAndFirmware : ¬ Obligations.PartitionsAndFirmware := by
  unfold Obligations.PartitionsAndFirmware
  intro h
  obtain ⟨hpart, -⟩ := h
  obtain ⟨-, -, hreset, -⟩ := hpart overfullQueue 1 0 0#128 0#128 0#64 0#64 0#32 0#52 (by decide)
  obtain ⟨t, ht, -, hmem, -⟩ := hreset rfl []
  obtain ⟨u, hu, hbyte⟩ := Option.map_eq_some_iff.1 overfullQueue_reset
  have hrun : exec (.partitionReset 1 []) overfullQueue = .next u := runEvent_some (name := "PARTITION_RESET") hu
  obtain rfl : u = t := Host.Outcome.next.inj (hrun.symm.trans ht)
  have hnone : u.byte 72 = 0#8 := by rw [State.byte, hmem overfullQueue_ring]; rfl
  exact absurd (hnone.symm.trans hbyte) (by decide)

end Sys2Proof.Machine

/-! # Links (R11, R24, R406 to R408, R416, R418, R419) -/

namespace Sys2Proof.Machine

/-! ## A link changed -/

theorem State.link_modLink (s : State) (l j : Nat) (f : Link → Link) :
    (s.modLink l f).link j = if j = l then f (s.link l) else s.link j := SMap.get_set _ _ _ _ _

@[simp] theorem State.link_modLink_self (s : State) (l : Nat) (f : Link → Link) : (s.modLink l f).link l = f (s.link l) :=
  SMap.get_set_self _ _ _ _

theorem State.link_modLink_ne {s : State} {l j : Nat} {f : Link → Link} (h : j ≠ l) : (s.modLink l f).link j = s.link j :=
  SMap.get_set_ne h

/-! ## Training (R24) -/

theorem dieRoute_ne {a b : Nat} (h : (dieRoute a b).length = 1) : a ≠ b := by
  rintro rfl
  rw [dieRoute, if_pos rfl] at h
  cases h

/-- A trained link has measured the difference `m` of its two counters, and stores an offset for each direction (R24). -/
theorem State.linkTrain_up {s : State} {l : Nat} {err : BitVec 4} (hl : l < 16) (hr : (dieRoute (l / 4) (l % 4)).length = 1)
    (he : err.toNat ≤ 8) (ha : s.dieUp (l / 4) = true) (hb : s.dieUp (l % 4) = true) :
    ∃ t m, s.linkTrain l err = some t ∧ t.mem = s.mem ∧
      m = s.cycle (l % 4) - s.cycle (l / 4) + BitVec.ofNat 64 err.toNat - 4#64 ∧
      t.linkOff.get 0#64 (linkDir (l / 4) (l % 4)) = m - 4#64 ∧ t.linkOff.get 0#64 (linkDir (l % 4) (l / 4)) = 0#64 - m - 4#64 := by
  have hne : linkDir (l / 4) (l % 4) ≠ linkDir (l % 4) (l / 4) := by
    have := dieRoute_ne hr
    unfold linkDir
    omega
  unfold State.linkTrain
  dsimp only
  rw [if_neg (by simp [hr, ha, hb, hl, he])]
  exact ⟨_, _, rfl, rfl, rfl, (SMap.get_set_ne hne).trans (SMap.get_set_self _ _ _ _), SMap.get_set_self _ _ _ _⟩

theorem State.linkTrain_down {s : State} {l : Nat} {err : BitVec 4} (h : s.dieUp (l / 4) = false ∨ s.dieUp (l % 4) = false) :
    s.linkTrain l err = none := by
  unfold State.linkTrain
  dsimp only
  rw [if_pos]
  rcases h with h | h <;> simp [h]

/-- The two offsets of a link sum to -8 (R24). -/
theorem offsets_sum (m : U64) : (m - 4#64) + (0#64 - m - 4#64) = 0#64 - 8#64 := by bv_omega

theorem offset_eq (m : U64) : m - 4#64 - 4#64 = m - 8#64 := by bv_omega

/-! ## Arbitration (R406, R408) -/

theorem accrue_tokens {rate acc tokens : Nat} (h : 1 ≤ tokens) : 1 ≤ (accrue rate acc tokens).2 := by
  unfold accrue
  split <;> dsimp only <;> omega

/-- Round robin takes the one class that is ready, whichever it has taken last. -/
theorem turnClass_single {ready : Nat → Bool} {w : Nat → Nat} {rr used cls : Nat} (h1 : 1 ≤ cls) (h3 : cls < 4)
    (hr : ∀ c, ready c = true ↔ c = cls) : ∃ n, turnClass ready w rr used = some (cls, n) := by
  unfold turnClass
  split
  case isTrue h =>
    rw [Bool.and_eq_true, hr] at h
    exact ⟨used + 1, by rw [h.1]⟩
  case isFalse =>
    have hmem : cls ∈ [0, 1, 2].map fun i => (rr + i) % 3 + 1 := by
      simp only [List.map_cons, List.map_nil, List.mem_cons, List.not_mem_nil, or_false]
      omega
    cases hf : ([0, 1, 2].map fun i => (rr + i) % 3 + 1).find? ready with
    | none => exact absurd ((hr cls).2 rfl) (List.find?_eq_none.1 hf cls hmem)
    | some c =>
      obtain rfl := (hr c).1 (List.find?_some hf)
      exact ⟨1, rfl⟩

section Arbiter

variable {k : Link} {l cls : Nat} {f : Flit} {fs : List Flit}

/-- Where only the requests of one class wait, and have a free slot, only that class is ready, with them. -/
theorem Link.ready_single (hw : k.waiting = [(2 * cls, f :: fs)]) (hfree : 0 < k.free l (2 * cls)) (c : Nat) :
    k.ready l c = if c = cls then some (2 * cls) else none := by
  have hget : ∀ i, k.waiting.get [] i = if 2 * cls = i then f :: fs else [] := fun i => by rw [hw]; rfl
  unfold Link.ready
  by_cases hc : c = cls
  · subst hc
    rw [if_pos rfl, List.find?_cons_of_neg, List.find?_cons_of_pos]
    · simp [hget, hfree]
    · simp [hget]
  · rw [if_neg hc, List.find?_eq_none]
    have hi : ∀ i ∈ [2 * c + 1, 2 * c], 2 * cls ≠ i := by
      intro i hi
      simp only [List.mem_cons, List.not_mem_nil, or_false] at hi
      omega
    intro i him
    simp [hget, hi i him]

/-- What an arbiter's send of the first flit of subchannel `i` leaves (R406). -/
structure Link.Sent (k k' : Link) (l i : Nat) (f : Flit) (fs : List Flit) : Prop where
  waiting : k'.waiting.get [] i = fs
  free : k'.free l i = k.free l i - 1
  unacked : k'.unacked = k.unacked ++ [f]
  chosenAt : k'.chosenAt = k.chosenAt

theorem Link.sent_send {i : Nat} (hw : k.waiting.get [] i = f :: fs) : k.Sent (k.send l i) l i f fs := by
  unfold Link.send
  rw [hw]
  exact ⟨SMap.get_set_self _ _ _ _, SMap.get_set_self _ _ _ _, rfl, rfl⟩

/-- The link as its arbiter begins its choice of a cycle (R408). -/
def Link.counted (k : Link) (rate now : Nat) : Link :=
  { k with acc := (accrue rate k.acc k.tokens).1, tokens := (accrue rate k.acc k.tokens).2, chosenAt := some now }

/-- What the arbiter's choice leaves of such a link, by its weights: class 0 while it has a token, else round robin (R408). -/
def Link.choose (k : Link) (l : Nat) (w : Nat → Nat) : Link :=
  match k.ready l 0, decide (1 ≤ k.tokens) with
  | some i, true => { k.send l i with tokens := k.tokens - 1 }
  | _, _ =>
    match turnClass (fun c => (k.ready l c).isSome) w k.rrClass k.rrUsed with
    | some (c, used) => { k.send l ((k.ready l c).getD 0) with rrClass := c, rrUsed := used }
    | none => k

theorem State.arbitrate_eq {s : State} (hw : ((s.link l).waiting.all fun w => w.2.isEmpty) = false) (hd : s.linkDown l = false)
    (hch : (s.link l).chosenAt ≠ some s.now) :
    s.arbitrate l = some (s.modLink l fun _ =>
      ((s.link l).counted (s.partFld (s.linkPart l) 0x80E 32 9) s.now).choose l (s.weight (s.linkPart l))) := by
  unfold State.arbitrate
  dsimp only
  rw [if_neg (by simp [hw, hd, hch])]
  rfl

/-- The choice is the one class that waits, class 0 where a token is there (R408). -/
theorem Link.sent_choose {w : Nat → Nat} (hc : cls < 4) (hw : k.waiting = [(2 * cls, f :: fs)]) (hfree : 0 < k.free l (2 * cls))
    (ht : cls = 0 → 1 ≤ k.tokens) : k.Sent (k.choose l w) l (2 * cls) f fs := by
  have hready := Link.ready_single hw hfree
  obtain ⟨hwaiting, hfree', hunacked, hchosen⟩ :=
    Link.sent_send (l := l) (show k.waiting.get [] (2 * cls) = f :: fs by rw [hw, SMap.get, if_pos rfl])
  unfold Link.choose
  rcases Nat.eq_zero_or_pos cls with h0 | h0
  · rw [hready, if_pos h0.symm, decide_eq_true (ht h0)]
    exact ⟨hwaiting, hfree', hunacked, hchosen⟩
  · obtain ⟨n, hn⟩ := turnClass_single (ready := fun c => (k.ready l c).isSome) (w := w) (rr := k.rrClass) (used := k.rrUsed) h0 hc
      fun c => by rw [hready]; split <;> simp [*]
    rw [hready, if_neg (Nat.ne_of_lt h0), hn]
    dsimp only
    rw [hready, if_pos rfl]
    exact ⟨hwaiting, hfree', hunacked, hchosen⟩

theorem State.arbitrate_down {s : State} (h : s.linkDown l = true) : s.arbitrate l = none := by
  unfold State.arbitrate
  dsimp only
  rw [if_pos (.inr (.inl h))]

end Arbiter

/-! ## Credits (R406, R407) -/

/-- A link whose receiver has freed a slot of subchannel `n` in which flit `f` stood. -/
def Link.freed (k : Link) (l n : Nat) (f : Flit) : Link :=
  { k with credits := k.credits.set (linkDepth l) n (min (linkDepth l) (k.free l n + 1)), unacked := k.unacked.erase f }

/-- A returned credit is that of the oldest flit of its subchannel. -/
theorem State.creditReturn_oldest {s : State} {l cls : Nat} {resp : Bool} {f : Flit} {rest : List Flit}
    (h : (s.link l).unacked.filter (fun f => f.sub == 2 * cls + (if resp then 1 else 0)) = f :: rest) :
    s.creditReturn l cls resp = some ((s.modLink l fun k => k.freed l (2 * cls + (if resp then 1 else 0)) f).flitArrives f) ∧
      f.sub = 2 * cls + (if resp then 1 else 0) := by
  have hfind : (s.link l).unacked.find? (fun f => f.sub == 2 * cls + (if resp then 1 else 0)) = some f := by
    rw [← List.head?_filter, h, List.head?_cons]
  refine ⟨?_, beq_iff_eq.1 (List.find?_some (p := fun x : Flit => x.sub == 2 * cls + (if resp then 1 else 0)) hfind)⟩
  unfold State.creditReturn
  dsimp only
  rw [hfind]
  rfl

/-- A flit at the end of its path has arrived with its message and its response (R407). -/
theorem State.flitArrives_nil {s : State} {f : Flit} (h : f.path = []) : s.flitArrives f = (s.landed f.id).ackLands f.id := by
  unfold State.flitArrives
  rw [h]

/-- Any other waits for the next link, unless that is a host link with no module left (R416). -/
theorem State.flitArrives_cons {s : State} {f : Flit} {m : Nat} {ms : List Nat} (h : f.path = m :: ms) :
    s.flitArrives f = if (m = 2600 ∨ m = 2601) ∧ s.hostDown = 15#4 then s
      else s.modLink m fun k => { k with waiting := k.waiting.set [] f.sub (k.waiting.get [] f.sub ++ [{ f with path := ms }]) } := by
  unfold State.flitArrives State.putFlit
  rw [h]
  simp only [Bool.and_eq_true, Bool.or_eq_true, beq_iff_eq, hostLink, hostIn]

/-! ## Failures (R11, R416, R419) -/

/-- What was not acknowledged stands before what waits, on each channel (R416). -/
theorem recall_waiting (us : List Flit) (w : SMap (List Flit)) (n : Nat) :
    (us.reverse.foldl (fun w f => w.set [] f.sub (f :: w.get [] f.sub)) w).get [] n = us.filter (fun f => f.sub == n) ++ w.get [] n := by
  induction us with
  | nil => rfl
  | cons u us ih =>
    rw [List.reverse_cons, List.foldl_append, List.foldl_cons, List.foldl_nil, SMap.get_set]
    by_cases h : u.sub = n
    · rw [if_pos h.symm, h, ih, List.filter_cons_of_pos (p := fun f : Flit => f.sub == n) (beq_iff_eq.2 h), List.cons_append]
    · rw [if_neg (Ne.symm h), ih, List.filter_cons_of_neg (by simpa using h)]

theorem State.hostDown_openError (s : State) (die : Nat) (addr : Option U64) (src : Nat) (corr : Bool) :
    (s.openError die addr src corr).hostDown = s.hostDown := by
  unfold State.openError State.errorRecord
  dsimp only
  split <;> rfl

theorem State.portDown_openError (s : State) (die : Nat) (addr : Option U64) (src : Nat) (corr : Bool) :
    (s.openError die addr src corr).portDown = s.portDown := by
  unfold State.openError State.errorRecord
  dsimp only
  split <;> rfl

theorem State.links_openError (s : State) (die : Nat) (addr : Option U64) (src : Nat) (corr : Bool) :
    (s.openError die addr src corr).links = s.links := by
  unfold State.openError State.errorRecord
  dsimp only
  split <;> rfl

theorem State.hostDown_loseWindows (s : State) : s.loseWindows.hostDown = s.hostDown :=
  State.foldl_keeps (f := fun (s : State) (a : Access) => State.openError { s with flight := s.flight.filter fun x => x.id ≠ a.id } 0 none 3 false)
    State.hostDown (fun _ _ => State.hostDown_openError _ _ _ _ _) _ s

theorem State.hostDown_ackLost (s : State) (id : Nat) : (s.ackLost id).hostDown = s.hostDown := by
  unfold State.ackLost
  split
  · rfl
  · dsimp only
    split <;> rfl

/-- Bit `i` set beside the others. -/
theorem getLsbD_or_bit {n : Nat} (w : BitVec n) {i : Nat} (hi : i < n) (j : Nat) :
    (w ||| BitVec.ofNat n (2 ^ i)).getLsbD j = (w.getLsbD j || decide (j = i)) := by
  rw [BitVec.getLsbD_or, BitVec.getLsbD_ofNat, Nat.testBit_two_pow]
  by_cases h : j = i
  · simp [h, hi]
  · simp [h, Ne.symm h]

/-- A failed module leaves the others as they were, and the flits that it had not had acknowledged go first again (R416). -/
theorem State.moduleDown_up {s : State} {i : Nat} (hi : i < 4) (h : s.hostDown.getLsbD i = false) :
    ∃ t, s.moduleDown i = some t ∧ t.hostDown = s.hostDown ||| BitVec.ofNat 4 (2 ^ i) ∧
      (t.hostDown ≠ 15#4 → t.link 2600 = (s.link 2600).recall ∧ t.link 2601 = (s.link 2601).recall) := by
  unfold State.moduleDown
  rw [if_neg (not_or.2 ⟨Nat.not_le.2 hi, Bool.eq_false_iff.1 h⟩)]
  dsimp only
  generalize hu : ({ s with hostDown := s.hostDown ||| BitVec.ofNat 4 (2 ^ i) } : State).openError 0 none 3 false = u
  have hdown : u.hostDown = s.hostDown ||| BitVec.ofNat 4 (2 ^ i) := by rw [← hu, State.hostDown_openError]
  have hlinks : ∀ l, u.link l = s.link l := fun l => by rw [State.link, ← hu, State.links_openError]; rfl
  rw [State.modLink_hostDown, State.modLink_hostDown]
  split
  case isTrue h15 =>
    have ht := State.foldl_keeps (f := fun (s : State) (f : Flit) => s.ackLost f.id) State.hostDown (fun s f => State.hostDown_ackLost s f.id)
    refine ⟨_, rfl, (ht _ _).trans ?_, fun hne => absurd ((ht _ _).trans ?_) hne⟩
    · simp only [State.modLink_hostDown, State.hostDown_loseWindows, hdown]
    · simp only [State.modLink_hostDown, State.hostDown_loseWindows, h15]
  case isFalse =>
    refine ⟨_, rfl, hdown, fun _ => ⟨?_, ?_⟩⟩
    · exact (State.link_modLink_ne (l := hostIn) (j := hostLink) (by decide)).trans
        ((State.link_modLink_self _ _ _).trans (congrArg Link.recall (hlinks _)))
    · exact (State.link_modLink_self _ hostIn _).trans
        (congrArg Link.recall ((State.link_modLink_ne (l := hostLink) (by decide)).trans (hlinks _)))

theorem SMap.mem_insert {α : Type} {m : SMap α} {k : Nat} {v : α} {e : Nat × α} (h : e ∈ m.insert k v) : e = (k, v) ∨ e ∈ m := by
  induction m with
  | nil => exact .inl (List.mem_singleton.1 h)
  | cons a m ih =>
    obtain ⟨j, w⟩ := a
    rw [SMap.insert] at h
    split at h
    · exact List.mem_cons.1 h
    · rcases List.mem_cons.1 h with rfl | h
      · exact .inr List.mem_cons_self
      · exact (ih h).imp_right (List.mem_cons_of_mem _)

theorem SMap.mem_set {α : Type} [DecidableEq α] {d : α} {m : SMap α} {k : Nat} {v : α} {e : Nat × α} (h : e ∈ m.set d k v) :
    e = (k, v) ∨ e ∈ m := by
  rw [SMap.set] at h
  split at h
  · exact .inr (SMap.mem_erase h).1
  · exact (SMap.mem_insert h).imp_right fun h => (SMap.mem_erase h).1

/-! ## A failed port's flits (R419) -/

/-- No flit that waits on link number `j`, or that it has not had acknowledged, is on link `l` or has it before it. -/
def Link.avoids (k : Link) (j l : Nat) : Prop := ∀ f ∈ k.unacked ++ k.waiting.flatMap Prod.snd, j ≠ l ∧ l ∉ f.path

/-- No link of the package has a flit that is on link `l` or still to cross it. -/
def State.avoids (s : State) (l : Nat) : Prop := ∀ k ∈ s.links, k.2.avoids k.1 l

theorem State.flitsOf_nil {s : State} {l : Nat} (h : s.avoids l) : s.flitsOf l = [] := by
  unfold State.flitsOf
  rw [List.flatMap_eq_nil_iff]
  intro k hk
  rw [List.filter_eq_nil_iff]
  intro f hf
  obtain ⟨hj, hp⟩ := h k hk f hf
  simp [hj, hp]

theorem Link.avoids_empty (j l : Nat) : ({} : Link).avoids j l := fun _ h => nomatch h

theorem State.link_avoids {s : State} {l : Nat} (h : s.avoids l) (j : Nat) : (s.link j).avoids j l := by
  rcases SMap.get_mem ({} : Link) s.links j with hd | hm
  · exact (show s.link j = {} from hd) ▸ Link.avoids_empty j l
  · exact h _ hm

theorem State.avoids_takeFlits (s : State) (l : Nat) : (s.takeFlits l).avoids l := by
  intro e he
  obtain ⟨k, -, rfl⟩ := List.mem_map.1 he
  intro f hf
  have keeps : ∀ fs : List Flit, f ∈ fs.filter (fun f => !(k.1 == l || f.path.contains l)) → k.1 ≠ l ∧ l ∉ f.path := by
    intro fs hf
    simpa using (List.mem_filter.1 hf).2
  rcases List.mem_append.1 hf with hu | hw
  · exact keeps _ hu
  · obtain ⟨w, hw, hf⟩ := List.mem_flatMap.1 hw
    obtain ⟨w, -, rfl⟩ := List.mem_map.1 (List.mem_filter.1 hw).1
    exact keeps _ hf

theorem mem_insertFlit {f x : Flit} {fs : List Flit} (h : x ∈ insertFlit f fs) : x = f ∨ x ∈ fs := by
  induction fs with
  | nil => exact .inl (List.mem_singleton.1 h)
  | cons g gs ih =>
    rw [insertFlit] at h
    split at h
    · exact List.mem_cons.1 h
    · rcases List.mem_cons.1 h with rfl | h
      · exact .inr List.mem_cons_self
      · exact (ih h).imp_right (List.mem_cons_of_mem _)

/-- A link keeps off link `l` when a flit at the end of its path is put among those that wait. -/
theorem Link.avoids_insert {k : Link} {j l n : Nat} {f : Flit} (h : k.avoids j l) (hj : j ≠ l) (hf : f.path = []) :
    ({ k with waiting := k.waiting.set [] n (insertFlit f (k.waiting.get [] n)) } : Link).avoids j l := by
  intro x hx
  rcases List.mem_append.1 hx with hu | hw
  · exact h x (List.mem_append_left _ hu)
  · obtain ⟨w, hw, hxw⟩ := List.mem_flatMap.1 hw
    rcases SMap.mem_set hw with rfl | hw
    · rcases mem_insertFlit hxw with rfl | hxw
      · exact ⟨hj, by rw [hf]; exact List.not_mem_nil⟩
      · rcases SMap.get_mem ([] : List Flit) k.waiting n with hd | hm
        · rw [hd] at hxw; cases hxw
        · exact h x (List.mem_append_right _ (List.mem_flatMap.2 ⟨_, hm, hxw⟩))
    · exact h x (List.mem_append_right _ (List.mem_flatMap.2 ⟨w, hw, hxw⟩))

/-- A route leads to no failed port (R419). -/
theorem State.portTo_up {s : State} {d pkg j : Nat} (h : s.portTo d pkg = some j) : s.portDown.getLsbD j = false := by
  have := List.find?_some (p := fun i => bitAt (s.routeTo d pkg) i && !bitAt s.portDown i) h
  rw [Bool.and_eq_true, Bool.not_eq_true'] at this
  exact this.2

theorem State.portDown_reroute (s : State) (i : Nat) (f : Flit) : (s.reroute i f).portDown = s.portDown := by
  unfold State.reroute
  split <;> rfl

/-- A flit sent again keeps off the port that has failed. -/
theorem State.avoids_reroute {s : State} {i : Nat} (f : Flit) (hi : s.portDown.getLsbD i = true) (h : s.avoids (portLink i)) :
    (s.reroute i f).avoids (portLink i) := by
  unfold State.reroute
  split
  · exact h
  next j hj =>
    have hne : portLink j ≠ portLink i := by
      intro e
      have hji : j = i := by unfold portLink at e; omega
      rw [hji] at hj
      exact Bool.false_ne_true ((State.portTo_up hj).symm.trans hi)
    intro k hk
    rcases SMap.mem_set hk with rfl | hk
    · exact Link.avoids_insert (State.link_avoids h _) hne rfl
    · exact h k hk

theorem State.avoids_reroutes {i : Nat} (fs : List Flit) {s : State} (hi : s.portDown.getLsbD i = true) (h : s.avoids (portLink i)) :
    (fs.foldl (fun s f => s.reroute i f) s).avoids (portLink i) := by
  induction fs generalizing s with
  | nil => exact h
  | cons f fs ih => exact ih ((congrArg (BitVec.getLsbD · i) (State.portDown_reroute s i f)).trans hi) (State.avoids_reroute f hi h)

/-- A failed port leaves the others as they were, and no flit keeps to it (R419). -/
theorem State.portFails_up {s : State} {i : Nat} (hi : i < 24) (h : s.portDown.getLsbD i = false) :
    ∃ t, s.portFails i = some t ∧ t.portDown = s.portDown ||| BitVec.ofNat 24 (2 ^ i) ∧ t.flitsOf (2576 + i) = [] := by
  unfold State.portFails
  rw [if_neg (not_or.2 ⟨Nat.not_le.2 hi, Bool.eq_false_iff.1 h⟩)]
  dsimp only
  generalize hu : ({ s with portDown := s.portDown ||| BitVec.ofNat 24 (2 ^ i) } : State).openError (i / 6) none 3 false = u
  have hdown : u.portDown = s.portDown ||| BitVec.ofNat 24 (2 ^ i) := by rw [← hu, State.portDown_openError]
  have hbit : (u.takeFlits (portLink i)).portDown.getLsbD i = true := by
    have : (u.takeFlits (portLink i)).portDown = u.portDown := rfl
    rw [this, hdown, getLsbD_or_bit _ hi, decide_eq_true rfl, Bool.or_true]
  refine ⟨_, rfl, ?_, State.flitsOf_nil (State.avoids_reroutes _ hbit (State.avoids_takeFlits u _))⟩
  exact (State.foldl_keeps (f := fun s f => State.reroute s i f) State.portDown (fun s f => State.portDown_reroute s i f) _ _).trans hdown

/-! ## The obligation -/

/-- Settles O52: each event of a link by the lemma above that says what it leaves. -/
theorem links : Obligations.Links := by
  unfold Obligations.Links
  intro s l i err
  refine ⟨?_, ?_, ?_, ?_, ?_, ?_, ?_, ?_, ?_⟩
  · intro h
    rw [exec_linkTrain, execLinkTrain, State.linkTrain_down h]
    rfl
  · intro hl hr he ha hb
    obtain ⟨t, m, ht, hmem, hm, hab, hba⟩ := State.linkTrain_up hl hr he ha hb
    exact ⟨t, runEvent_some (name := "LINK_TRAIN") ht, hmem, by rw [hab, hba, offsets_sum], by rw [hab, hm, offset_eq]⟩
  · intro k f fs cls hk hc hw hfree hd hch htok
    subst hk
    have hwaits : ((s.link l).waiting.all fun w => w.2.isEmpty) = false := by rw [hw]; rfl
    obtain ⟨hwaiting, hfree', hunacked, hchosen⟩ :=
      Link.sent_choose (k := (s.link l).counted (s.partFld (s.linkPart l) 0x80E 32 9) s.now) (w := s.weight (s.linkPart l)) hc hw hfree
        fun h0 => accrue_tokens (htok h0)
    refine ⟨_, runEvent_some (name := "FLIT_ARBITRATION") (State.arbitrate_eq hwaits hd hch), ?_⟩
    rw [State.link_modLink_self]
    exact ⟨hwaiting, hchosen, hfree', hunacked⟩
  · intro h
    rw [exec_flitArbitration, execFlitArbitration, State.arbitrate_down h]
    rfl
  · intro cls resp f rest n h freed
    obtain ⟨hret, hsub⟩ := State.creditReturn_oldest h
    have hexec : exec (.creditReturn l cls resp) s = .next (freed.flitArrives f) := runEvent_some (name := "CREDIT_RETURN") hret
    refine ⟨fun hp => by rw [hexec, State.flitArrives_nil hp], fun m ms hp => ?_⟩
    rw [hexec, State.flitArrives_cons hp, hsub]
    rfl
  · exact fun k => ⟨rfl, recall_waiting k.unacked k.waiting⟩
  · intro hi h
    obtain ⟨t, ht, hdown, hlinks⟩ := State.moduleDown_up hi h
    exact ⟨t, runEvent_some (name := "HOST_MODULE_FAILURE") ht, fun j => by rw [hdown, getLsbD_or_bit _ hi], hlinks⟩
  · intro hi h
    obtain ⟨t, ht, hdown, hflits⟩ := State.portFails_up hi h
    exact ⟨t, runEvent_some (name := "FABRIC_PORT_FAILURE") ht, fun j => by rw [hdown, getLsbD_or_bit _ hi], hflits⟩
  · intro h
    have hne : (s.link l).unacked.isEmpty = false := List.isEmpty_eq_false_iff.2 h
    rw [exec_flitRetry, execFlitRetry, hne]
    rfl

end Sys2Proof.Machine

/-! # Encodings (R26 to R52) -/

namespace Sys2Proof.Laws

open Sys2Proof.Machine

/-! ## Decoding undoes encoding -/

/-- Settles O53: each constructor has its round trip. -/
theorem decodeEncodeRoundTrip : Obligations.DecodeEncodeRoundTrip
  | .add d a b => RoundTrip.add d a b | .sub d a b => RoundTrip.sub d a b | .mul d a b => RoundTrip.mul d a b | .mulh d a b => RoundTrip.mulh d a b
  | .mulhu d a b => RoundTrip.mulhu d a b | .div d a b => RoundTrip.div d a b | .divu d a b => RoundTrip.divu d a b
  | .rem d a b => RoundTrip.rem d a b | .remu d a b => RoundTrip.remu d a b | .and d a b => RoundTrip.and d a b | .or d a b => RoundTrip.or d a b
  | .xor d a b => RoundTrip.xor d a b | .andn d a b => RoundTrip.andn d a b | .shl d a b => RoundTrip.shl d a b | .shr d a b => RoundTrip.shr d a b
  | .sra d a b => RoundTrip.sra d a b | .rol d a b => RoundTrip.rol d a b | .min d a b => RoundTrip.min d a b | .max d a b => RoundTrip.max d a b
  | .minu d a b => RoundTrip.minu d a b | .maxu d a b => RoundTrip.maxu d a b | .slt d a b => RoundTrip.slt d a b
  | .sltu d a b => RoundTrip.sltu d a b | .seq d a b => RoundTrip.seq d a b | .sne d a b => RoundTrip.sne d a b | .clz d a => RoundTrip.clz d a
  | .ctz d a => RoundTrip.ctz d a | .popc d a => RoundTrip.popc d a | .brev d a => RoundTrip.brev d a | .sext d a b => RoundTrip.sext d a b
  | .zext d a b => RoundTrip.zext d a b | .sel d a b c => RoundTrip.sel d a b c | .addi d a imm => RoundTrip.addi d a imm
  | .andi d a imm => RoundTrip.andi d a imm | .ori d a imm => RoundTrip.ori d a imm | .xori d a imm => RoundTrip.xori d a imm
  | .shli d a imm => RoundTrip.shli d a imm | .shri d a imm => RoundTrip.shri d a imm | .srai d a imm => RoundTrip.srai d a imm
  | .slti d a imm => RoundTrip.slti d a imm | .li d imm => RoundTrip.li d imm | .xset x imm part => RoundTrip.xset x imm part
  | .mov d a => RoundTrip.mov d a | .xget d x => RoundTrip.xget d x | .xsetr x a => RoundTrip.xsetr x a | .nclr n => RoundTrip.nclr n
  | .nwr dir n a slot => RoundTrip.nwr dir n a slot | .ntest d n => RoundTrip.ntest d n | .borrow d a => RoundTrip.borrow d a
  | .brd d n => RoundTrip.brd d n | .bwr n a => RoundTrip.bwr n a | .bret => RoundTrip.bret | .qsend q a => RoundTrip.qsend q a
  | .qrecv d q => RoundTrip.qrecv d q | .qstat d q => RoundTrip.qstat d q | .rng d => RoundTrip.rng d | .rngseed a => RoundTrip.rngseed a
  | .cycle d => RoundTrip.cycle d | .mfs d sys => RoundTrip.mfs d sys | .mts sys a => RoundTrip.mts sys a
  | .mtsi sys ihi ilo => RoundTrip.mtsi sys ihi ilo | .cgeta d ka => RoundTrip.cgeta d ka | .cgetb d ka => RoundTrip.cgetb d ka
  | .cgetl d ka => RoundTrip.cgetl d ka | .cgetp d ka => RoundTrip.cgetp d ka | .ctag d ka => RoundTrip.ctag d ka
  | .cmov kd ka => RoundTrip.cmov kd ka | .cseta kd ka b => RoundTrip.cseta kd ka b | .cinc kd ka b => RoundTrip.cinc kd ka b
  | .cbound exact kd ka b => RoundTrip.cbound exact kd ka b | .cperm kd ka b => RoundTrip.cperm kd ka b | .cgen kd ka => RoundTrip.cgen kd ka
  | .cclr kd => RoundTrip.cclr kd | .ceq d ka kb => RoundTrip.ceq d ka kb | .csub d ka kb => RoundTrip.csub d ka kb
  | .ldk kd idx => RoundTrip.ldk kd idx | .beq a b off => RoundTrip.beq a b off | .bne a b off => RoundTrip.bne a b off
  | .blt a b off => RoundTrip.blt a b off | .bge a b off => RoundTrip.bge a b off | .bltu a b off => RoundTrip.bltu a b off
  | .bgeu a b off => RoundTrip.bgeu a b off | .bbs a b off => RoundTrip.bbs a b off | .bbc a b off => RoundTrip.bbc a b off
  | .bez a off => RoundTrip.bez a off | .bnz a off => RoundTrip.bnz a off | .bgs g off => RoundTrip.bgs g off | .bgc g off => RoundTrip.bgc g off
  | .j off => RoundTrip.j off | .call off => RoundTrip.call off | .jk k => RoundTrip.jk k | .callk k => RoundTrip.callk k
  | .loop a off => RoundTrip.loop a off | .loopm i off => RoundTrip.loopm i off | .loopi cnt off => RoundTrip.loopi cnt off
  | .gset cc g a b => RoundTrip.gset cc g a b | .gsetn cc g a b => RoundTrip.gsetn cc g a b | .gclr g => RoundTrip.gclr g
  | .gwait g => RoundTrip.gwait g | .ld type d k off => RoundTrip.ld type d k off | .st size rel k off a => RoundTrip.st size rel k off a
  | .ldx type acq d k i scale => RoundTrip.ldx type acq d k i scale | .stx size rel k i scale a => RoundTrip.stx size rel k i scale a
  | .ldc kd k off => RoundTrip.ldc kd k off | .stc k off kd => RoundTrip.stc k off kd | .aadd wide order d k off => RoundTrip.aadd wide order d k off
  | .aand wide order d k off => RoundTrip.aand wide order d k off | .aor wide order d k off => RoundTrip.aor wide order d k off
  | .axor wide order d k off => RoundTrip.axor wide order d k off | .amin wide order d k off => RoundTrip.amin wide order d k off
  | .amax wide order d k off => RoundTrip.amax wide order d k off | .aminu wide order d k off => RoundTrip.aminu wide order d k off
  | .amaxu wide order d k off => RoundTrip.amaxu wide order d k off | .aswp wide order d k off => RoundTrip.aswp wide order d k off
  | .acas wide order d k off => RoundTrip.acas wide order d k off | .afadd wide order d k off => RoundTrip.afadd wide order d k off
  | .fence kind scope => RoundTrip.fence kind scope | .efence => RoundTrip.efence | .ifence => RoundTrip.ifence
  | .rst size ka b => RoundTrip.rst size ka b | .amsg ka kb => RoundTrip.amsg ka kb | .rdrain => RoundTrip.rdrain
  | .spawn d ka => RoundTrip.spawn d ka | .start d ka => RoundTrip.start d ka | .done => RoundTrip.done | .yield a b => RoundTrip.yield a b
  | .join d ka => RoundTrip.join d ka | .walk d ka b => RoundTrip.walk d ka b | .launch d ka b => RoundTrip.launch d ka b
  | .launchi d ka kb => RoundTrip.launchi d ka kb | .gang d ka => RoundTrip.gang d ka | .submit d ka => RoundTrip.submit d ka
  | .dline d a => RoundTrip.dline d a | .self kd => RoundTrip.self kd | .finit ka => RoundTrip.finit ka | .fres d ka b => RoundTrip.fres d ka b
  | .freg d ka kb => RoundTrip.freg d ka kb | .fget d ka => RoundTrip.fget d ka | .fstat d ka => RoundTrip.fstat d ka
  | .rinit ka kb s => RoundTrip.rinit ka kb s | .rclaim scope d ka b => RoundTrip.rclaim scope d ka b
  | .rtryclaim scope d ka b => RoundTrip.rtryclaim scope d ka b | .rcommit scope ka i b => RoundTrip.rcommit scope ka i b
  | .rawait scope d ka b => RoundTrip.rawait scope d ka b | .rretire scope ka i b => RoundTrip.rretire scope ka i b
  | .binit ka b => RoundTrip.binit ka b | .barrive scope d ka b => RoundTrip.barrive scope d ka b | .bexpect ka b => RoundTrip.bexpect ka b
  | .bwait scope ka b => RoundTrip.bwait scope ka b | .btest scope d ka b => RoundTrip.btest scope d ka b | .trap a => RoundTrip.trap a
  | .rte => RoundTrip.rte | .svc d a b => RoundTrip.svc d a b | .brk => RoundTrip.brk | .chkpt idx => RoundTrip.chkpt idx
  | .realign tag => RoundTrip.realign tag | .wfi d a => RoundTrip.wfi d a | .halt => RoundTrip.halt | .tinv all a b => RoundTrip.tinv all a b
  | .vclaim d a b => RoundTrip.vclaim d a b | .vreneg d a b => RoundTrip.vreneg d a b | .vrel => RoundTrip.vrel
  | .vadd p et d a b => RoundTrip.vadd p et d a b | .vsub p et d a b => RoundTrip.vsub p et d a b | .vmul p et d a b => RoundTrip.vmul p et d a b
  | .vmulh p et d a b => RoundTrip.vmulh p et d a b | .vmin p et d a b => RoundTrip.vmin p et d a b | .vmax p et d a b => RoundTrip.vmax p et d a b
  | .vminu p et d a b => RoundTrip.vminu p et d a b | .vmaxu p et d a b => RoundTrip.vmaxu p et d a b | .vand p et d a b => RoundTrip.vand p et d a b
  | .vor p et d a b => RoundTrip.vor p et d a b | .vxor p et d a b => RoundTrip.vxor p et d a b | .vshl p et d a b => RoundTrip.vshl p et d a b
  | .vshr p et d a b => RoundTrip.vshr p et d a b | .vsra p et d a b => RoundTrip.vsra p et d a b | .vabs p et d a => RoundTrip.vabs p et d a
  | .vsadd p et d a b => RoundTrip.vsadd p et d a b | .vssub p et d a b => RoundTrip.vssub p et d a b
  | .vfadd p et d a b => RoundTrip.vfadd p et d a b | .vfsub p et d a b => RoundTrip.vfsub p et d a b
  | .vfmul p et d a b => RoundTrip.vfmul p et d a b | .vfma p et d a b => RoundTrip.vfma p et d a b | .vfdiv p et d a b => RoundTrip.vfdiv p et d a b
  | .vfsqrt p et d a => RoundTrip.vfsqrt p et d a | .vfmin p et d a b => RoundTrip.vfmin p et d a b | .vfmax p et d a b => RoundTrip.vfmax p et d a b
  | .vfabs p et d a => RoundTrip.vfabs p et d a | .vfneg p et d a => RoundTrip.vfneg p et d a | .vfrcp p et d a => RoundTrip.vfrcp p et d a
  | .vfrsq p et d a => RoundTrip.vfrsq p et d a | .vfexp2 p et d a => RoundTrip.vfexp2 p et d a | .vflog2 p et d a => RoundTrip.vflog2 p et d a
  | .vfclass p et d a => RoundTrip.vfclass p et d a | .vcmp p et cc vmd a b => RoundTrip.vcmp p et cc vmd a b
  | .vfcmp p et cc vmd a b => RoundTrip.vfcmp p et cc vmd a b | .vmand p vmd vma vmb => RoundTrip.vmand p vmd vma vmb
  | .vmor p vmd vma vmb => RoundTrip.vmor p vmd vma vmb | .vmxor p vmd vma vmb => RoundTrip.vmxor p vmd vma vmb
  | .vmnot p vmd vma => RoundTrip.vmnot p vmd vma | .vmpop p d vma => RoundTrip.vmpop p d vma | .vmfirst p d vma => RoundTrip.vmfirst p d vma
  | .vcvt p et d a src part => RoundTrip.vcvt p et d a src part | .vqbfp p et d a m1 => RoundTrip.vqbfp p et d a m1
  | .vdqbfp p et d a m1 => RoundTrip.vdqbfp p et d a m1 | .vld p et d k off => RoundTrip.vld p et d k off
  | .vst p et d k off => RoundTrip.vst p et d k off | .vlds p et d k b => RoundTrip.vlds p et d k b | .vsts p et d k b => RoundTrip.vsts p et d k b
  | .vgth p et d k b => RoundTrip.vgth p et d k b | .vsct p et d k b => RoundTrip.vsct p et d k b | .vbcast p et d a => RoundTrip.vbcast p et d a
  | .vext p et d a b => RoundTrip.vext p et d a b | .vins p et d a b => RoundTrip.vins p et d a b | .viota p et d => RoundTrip.viota p et d
  | .vshuf p et d a b => RoundTrip.vshuf p et d a b | .vredsum p et d a => RoundTrip.vredsum p et d a
  | .vredmax p et d a => RoundTrip.vredmax p et d a | .vredmin p et d a => RoundTrip.vredmin p et d a
  | .vtbl p et d a kb => RoundTrip.vtbl p et d a kb | .vrng p et d => RoundTrip.vrng p et d | .vrngn p et d => RoundTrip.vrngn p et d
  | .madd p cov d a b => RoundTrip.madd p cov d a b | .msub p cov d a b => RoundTrip.msub p cov d a b
  | .mmul p cov d a b => RoundTrip.mmul p cov d a b | .mscale p d a b => RoundTrip.mscale p d a b | .mfma p cov d a b => RoundTrip.mfma p cov d a b
  | .mneg p d a => RoundTrip.mneg p d a | .mrelu p d a => RoundTrip.mrelu p d a | .msig p d a => RoundTrip.msig p d a
  | .mexp p d a => RoundTrip.mexp p d a | .msqr p d a => RoundTrip.msqr p d a | .mset p d a b => RoundTrip.mset p d a b
  | .mmean p d a => RoundTrip.mmean p d a | .mvar p d a => RoundTrip.mvar p d a | .mcoll p mode d a => RoundTrip.mcoll p mode d a
  | .mld p d k off => RoundTrip.mld p d k off | .mst p d k off => RoundTrip.mst p d k off | .mchk p d a => RoundTrip.mchk p d a
  | .zld expand zd ka b => RoundTrip.zld expand zd ka b | .zst zd ka b => RoundTrip.zst zd ka b | .zzero zd => RoundTrip.zzero zd
  | .zrel zd => RoundTrip.zrel zd | .zstate d za => RoundTrip.zstate d za | .zmov zd za => RoundTrip.zmov zd za | .wload za => RoundTrip.wload za
  | .wswap => RoundTrip.wswap | .mma yd za => RoundTrip.mma yd za | .mmam yd za => RoundTrip.mmam yd za | .yzero mom yd => RoundTrip.yzero mom yd
  | .ydrain p zero zd ya b => RoundTrip.ydrain p zero zd ya b | .ymov yd ya => RoundTrip.ymov yd ya | .qfuse a => RoundTrip.qfuse a
  | .qsplit a => RoundTrip.qsplit a | .copy k ge sense g => RoundTrip.copy k ge sense g | .xform k ge sense g => RoundTrip.xform k ge sense g
  | .coll k ge sense g => RoundTrip.coll k ge sense g | .trace k ge sense g => RoundTrip.trace k ge sense g | .ewait d ka => RoundTrip.ewait d ka
  | .estat d ka => RoundTrip.estat d ka | .lnew d a => RoundTrip.lnew d a | .lfree a => RoundTrip.lfree a | .lset f a b => RoundTrip.lset f a b
  | .lget f d a => RoundTrip.lget f d a | .lest d a => RoundTrip.lest d a | .lprice a b => RoundTrip.lprice a b | .lreq d => RoundTrip.lreq d
  | .lreqS d => RoundTrip.lreqS d | .lbegin a => RoundTrip.lbegin a | .ldone a => RoundTrip.ldone a | .lsplit a b => RoundTrip.lsplit a b
  | .lmerge a b => RoundTrip.lmerge a b | .llight a b => RoundTrip.llight a b | .compose d => RoundTrip.compose d
  | .slaunch d ka => RoundTrip.slaunch d ka | .sresid a => RoundTrip.sresid a | .sresidm a b => RoundTrip.sresidm a b | .sabort => RoundTrip.sabort
  | .sstat d ka => RoundTrip.sstat d ka | .addC a b => RoundTrip.addC a b | .subC a b => RoundTrip.subC a b | .andC a b => RoundTrip.andC a b
  | .orC a b => RoundTrip.orC a b | .xorC a b => RoundTrip.xorC a b | .mulC a b => RoundTrip.mulC a b | .sltC a b => RoundTrip.sltC a b
  | .seqC a b => RoundTrip.seqC a b | .shliC a b x => RoundTrip.shliC a b x | .shriC a b x => RoundTrip.shriC a b x
  | .addiC a b x => RoundTrip.addiC a b x | .movCToNamed b a => RoundTrip.movCToNamed b a | .movCFromNamed b => RoundTrip.movCFromNamed b
  | .liC a b x => RoundTrip.liC a b x | .movCAge a => RoundTrip.movCAge a | .nop => RoundTrip.nop | .jC off => RoundTrip.jC off
  | .bezC off => RoundTrip.bezC off | .bnzC off => RoundTrip.bnzC off | .lexit => RoundTrip.lexit | .doneC => RoundTrip.doneC
  | .chkptC idx => RoundTrip.chkptC idx | .realignC tag => RoundTrip.realignC tag | .retC => RoundTrip.retC | .nclrC n => RoundTrip.nclrC n
  | .fenceCoreC => RoundTrip.fenceCoreC | .mailboxWrite core i v => RoundTrip.mailboxWrite core i v | .mbxpClear core m => RoundTrip.mbxpClear core m
  | .heldMailboxWrite core i => RoundTrip.heldMailboxWrite core i | .guardResolve slot g => RoundTrip.guardResolve slot g
  | .homeAccess id => RoundTrip.homeAccess id | .pageWalk core tenant va => RoundTrip.pageWalk core tenant va
  | .nwrHeldWrite slot n => RoundTrip.nwrHeldWrite slot n | .nwrWithdrawal src => RoundTrip.nwrWithdrawal src | .rstReturn i => RoundTrip.rstReturn i
  | .amsgRun core => RoundTrip.amsgRun core | .amsgTimeout core => RoundTrip.amsgTimeout core | .holdClear cluster => RoundTrip.holdClear cluster
  | .holdTimeout cluster => RoundTrip.holdTimeout cluster | .dispatch cluster => RoundTrip.dispatch cluster
  | .recordWalkHop i => RoundTrip.recordWalkHop i | .gangStart cluster => RoundTrip.gangStart cluster
  | .launchiCountRead cluster => RoundTrip.launchiCountRead cluster | .recordRelease i => RoundTrip.recordRelease i
  | .groupCountStep i => RoundTrip.groupCountStep i | .chargeExhausted slot => RoundTrip.chargeExhausted slot
  | .budgetExhausted slot => RoundTrip.budgetExhausted slot | .graceExhausted slot => RoundTrip.graceExhausted slot
  | .parkedWithdrawal slot => RoundTrip.parkedWithdrawal slot | .realignTimeout slot => RoundTrip.realignTimeout slot
  | .svcAnswer slot v => RoundTrip.svcAnswer slot v | .preemptRequest slot => RoundTrip.preemptRequest slot
  | .preemptTimeout slot => RoundTrip.preemptTimeout slot | .spillSave slot => RoundTrip.spillSave slot | .granuleFill i => RoundTrip.granuleFill i
  | .zldComplete quad z => RoundTrip.zldComplete quad z | .tileDrainDone quad z => RoundTrip.tileDrainDone quad z
  | .wloadExecute quad => RoundTrip.wloadExecute quad | .wswapExecute quad => RoundTrip.wswapExecute quad
  | .mmaExecute quad => RoundTrip.mmaExecute quad | .mmamExecute quad => RoundTrip.mmamExecute quad
  | .yzeroExecute quad => RoundTrip.yzeroExecute quad | .ydrainExecute quad => RoundTrip.ydrainExecute quad
  | .ymovExecute quad => RoundTrip.ymovExecute quad | .tileStateDrain quad => RoundTrip.tileStateDrain quad
  | .cardStart engine cls => RoundTrip.cardStart engine cls | .cardFinish engine i => RoundTrip.cardFinish engine i
  | .collTimeout engine i => RoundTrip.collTimeout engine i | .codebookBankWrite engine i => RoundTrip.codebookBankWrite engine i
  | .checkChargeExhausted slot => RoundTrip.checkChargeExhausted slot
  | .enqueueWindowSpawn cluster tenant addr => RoundTrip.enqueueWindowSpawn cluster tenant addr
  | .enqueueWindowSubmit cluster tenant addr => RoundTrip.enqueueWindowSubmit cluster tenant addr
  | .enqueueWindowSpawnResult cluster tenant => RoundTrip.enqueueWindowSpawnResult cluster tenant
  | .enqueueWindowSubmitResult cluster tenant => RoundTrip.enqueueWindowSubmitResult cluster tenant
  | .partitionStart part tenant code frame deadline budget recAddr group => RoundTrip.partitionStart part tenant code frame deadline budget recAddr group
  | .boot ecdsaOk lmsOk version => RoundTrip.boot ecdsaOk lmsOk version | .linkTrain link err => RoundTrip.linkTrain link err
  | .tenantSwitch core toTenant => RoundTrip.tenantSwitch core toTenant | .flitArbitration link => RoundTrip.flitArbitration link
  | .creditReturn link cls resp => RoundTrip.creditReturn link cls resp | .hostModuleFailure module => RoundTrip.hostModuleFailure module
  | .fabricPortFailure port => RoundTrip.fabricPortFailure port | .serviceCoreRestart die => RoundTrip.serviceCoreRestart die
  | .attestationRequest nonce => RoundTrip.attestationRequest nonce | .patrolScrub line => RoundTrip.patrolScrub line
  | .correctedError die addr => RoundTrip.correctedError die addr | .uncorrectableError line => RoundTrip.uncorrectableError line
  | .partitionReset part words => RoundTrip.partitionReset part words | .flitRetry link => RoundTrip.flitRetry link

end Sys2Proof.Laws

/-! # What decoding accepts (R50, R51) -/

namespace Sys2Proof.Laws

open Sys2Proof.Machine

/-! ## Where the pieces of a word stand -/

/-- The bits of `x` stand in `w` from bit `lo` up. -/
def Has {n k : Nat} (w : BitVec n) (lo : Nat) (x : BitVec k) : Prop := fld w lo k = x

section Pieces

variable {n lo : Nat} {w : BitVec n}

theorem has_append {j k : Nat} {x : BitVec j} {y : BitVec k} : Has w lo (x ++ y) ↔ Has w (lo + k) x ∧ Has w lo y := by
  have hsplit : fld w lo (j + k) = fld w (lo + k) j ++ fld w lo k :=
    (BitVec.extractLsb'_append_extractLsb'_eq_extractLsb' rfl).symm
  rw [Has, hsplit]
  refine ⟨fun h => ⟨?_, ?_⟩, fun ⟨hx, hy⟩ => by rw [hx, hy]⟩
  · rw [Has, ← BitVec.extractLsb'_append_eq_left (a := x) (b := y), ← h, BitVec.extractLsb'_append_eq_left]
  · rw [Has, ← BitVec.extractLsb'_append_eq_right (a := x) (b := y), ← h, BitVec.extractLsb'_append_eq_right]

theorem has_fld {k : Nat} : Has w lo (fld w lo k) := rfl

theorem has_bit : Has w lo (BitVec.ofBool (bitAt w lo)) := by
  refine BitVec.eq_of_getLsbD_eq fun i hi => ?_
  obtain rfl : i = 0 := by omega
  simp

theorem has_ofNat {k v : Nat} : Has w lo (BitVec.ofNat k v) ↔ (fld w lo k).toNat = v % 2 ^ k := by
  rw [Has, BitVec.toNat_eq, BitVec.toNat_ofNat]

theorem has_src : Has w lo (Src.ofBits (fld w lo 5)).bits := by
  have hbits : ∀ f : BitVec 5, (Src.ofBits f).bits = f := by decide
  exact (hbits _).symm

theorem has_dst {d : Dst} (h : Dst.ofBits (fld w lo 5) = some d) : Has w lo d.bits := by
  have hbits : ∀ f : BitVec 5, ∀ d ∈ Dst.ofBits f, d.bits = f := by decide
  exact (hbits _ d h).symm

theorem has_all {x : BitVec n} : Has w 0 x ↔ w = x := by
  simp [Has]

end Pieces

/-! ## Rows of the opcode map -/

/-- Whatever `o` holds has the encoding that `e` makes of word `w`. -/
def Writes {n : Nat} (e : BitVec n → Encoded) (w : BitVec n) (o : Option Instr) : Prop := ∀ i, o = some i → encode i = e w

section Rows

variable {n : Nat} {e : BitVec n → Encoded} {w : BitVec n}

theorem writes_none : Writes e w none := fun _ h => nomatch h

theorem writes_some {i : Instr} {x : BitVec n} (he : encode i = e x) (hx : Has w 0 x) : Writes e w (some i) := by
  rintro _ ⟨⟩
  rw [he, has_all.1 hx]

theorem writes_ite {c : Prop} [Decidable c] {o : Option Instr} : Writes e w (if c then o else none) ↔ (c → Writes e w o) := by
  by_cases hc : c <;> simp [hc, writes_none]

theorem writes_map {f : BitVec 5} {g : Dst → Instr} :
    Writes e w ((Dst.ofBits f).map g) ↔ ∀ d, Dst.ofBits f = some d → Writes e w (some (g d)) := by
  simp [Writes]

theorem writes_orElse {o o' : Option Instr} (h : Writes e w o) (h' : Writes e w o') : Writes e w (o <|> o') := by
  cases o with
  | none => exact h'
  | some i => exact h

end Rows

/-- A word that stands alone (R30, R37): each row of the opcode map puts every piece of its encoding where it read it. -/
theorem decodeFields_writes {w : U32} (h0 : fld w 0 2 = 2#2) : Writes (.pair none) w (decodeFields none w) := by
  unfold decodeFields
  split
  case h_44 => exact writes_none
  all_goals simp only [decIalu, decIimm, decLi, decXset, decMove, decSysreg, decCap, decBrc, decBrz, decBrg, decJump, decJk, decLoop,
    decLoopi, decGuard, decLd, decSt, decLdstx, decLdcst, decAtom, decFence, decRemote, decTask, decFut, decRing, decBar, decSys,
    decVclaim, decVint, decVfp, decVcmp, decVcvt, decVmem, decVperm, decVspec, decMarith, decMnonl, decMmove, decTile, decMatrix,
    decEngine, decLayer, decSurr]
  -- by the opcode; LI, XSET, LOOPI, LD and ST are the only members of their majors
  all_goals try split
  any_goals exact writes_none
  -- LREQ and LREQ.s have one opcode
  any_goals apply writes_orElse
  all_goals
    simp -failIfUnchanged only [writes_ite, writes_map]
    intros
    refine writes_some rfl (has_append.2 ?_)
    simp only [has_append]
    simp only [has_fld, has_src, has_bit, has_dst, has_ofNat, Nat.reduceAdd, Nat.reduceMod, Nat.reducePow, BitVec.toNat_ofNat,
      and_true, true_and, *]
  -- the last code of a field that names a member with each
  all_goals
    simp only [imp_false] at *
    omega

theorem prefixable_iff {w : U32} : prefixable w = true ↔
    0x1D ≤ (fld w 2 6).toNat ∧ (fld w 2 6).toNat ≤ 0x26 ∨ (fld w 2 6).toNat = 0x28 ∧ fld w 23 5 = 5#5 := by
  simp [prefixable]

/-- The second word of a pair (R27, R41). -/
theorem decodeFields_writes_prefixed {p : Option Pfx} {w : U32} (h0 : fld w 0 2 = 2#2) (hp : prefixable w = true) :
    Writes (.pair p) w (decodeFields p w) := by
  unfold decodeFields
  split
  case h_44 => exact writes_none
  -- no other major is prefixable, and of MATRIX only YDRAIN
  all_goals simp only [prefixable_iff, Nat.not_ofNat_le_one, Nat.reduceLeDiff, Nat.reduceEqDiff, OfNat.one_ne_ofNat, true_and,
    false_and, and_self, and_false, or_self, false_or, *] at hp
  case' h_40 => simp only [decMatrix, hp, BitVec.reduceToNat]
  all_goals simp -failIfUnchanged only [decVint, decVfp, decVcmp, decVcvt, decVmem, decVperm, decVspec, decMarith, decMnonl, decMmove]
  all_goals split
  any_goals exact writes_none
  all_goals
    simp -failIfUnchanged only [writes_ite, writes_map]
    intros
    refine writes_some rfl (has_append.2 ?_)
    simp only [has_append]
    simp only [has_fld, has_src, has_bit, has_dst, has_ofNat, Nat.reduceAdd, Nat.reduceMod, Nat.reducePow, BitVec.toNat_ofNat,
      and_true, *]

/-- The members of the two compact groups (R44, R45). -/
theorem decodeGroups_write {w : U16} :
    (fld w 0 2 = 0#2 → Writes .half w (decodeGroupA w)) ∧ (fld w 0 2 = 1#2 → Writes .half w (decodeGroupB w)) := by
  constructor
  all_goals
    intro h0
    simp only [decodeGroupA, decodeGroupB]
    split
  any_goals exact writes_none
  all_goals
    simp -failIfUnchanged only [writes_ite]
    intros
    refine writes_some rfl (has_append.2 ?_)
    simp only [has_append]
    simp only [has_fld, has_ofNat, Nat.reduceAdd, Nat.reduceMod, Nat.reducePow, BitVec.toNat_ofNat, and_true, *]

/-! ## What the three forms accept -/

theorem writes_checked {n : Nat} {e : BitVec n → Encoded} {w : BitVec n} {o : Option Instr} (h : Writes e w o) : Writes e w (checked o) := by
  intro i hi
  obtain ⟨j, hj, hw⟩ := Option.bind_eq_some_iff.1 hi
  split at hw
  · cases hw; exact h i hj
  · exact nomatch hw

/-- The first word of a pair is read whole (R41). -/
theorem pfx_ofWord_word {q : U32} {p : Pfx} (h0 : fld q 0 2 = 3#2) (h : Pfx.ofWord q = some p) : p.word = q := by
  unfold Pfx.ofWord at h
  split at h
  next hz =>
    cases h
    refine (has_all.1 (has_append.2 ?_)).symm
    simp only [has_append]
    simp only [has_fld, has_bit, has_ofNat, Nat.reduceAdd, Nat.reduceMod, Nat.reducePow, BitVec.toNat_ofNat, and_true, *]
  next => exact nomatch h

theorem decode16_writes (w : U16) : Writes .half w (decode16 w) := by
  refine writes_checked ?_
  split
  next h0 => exact decodeGroups_write.1 h0
  next =>
    split
    next h0 => exact decodeGroups_write.2 h0
    next => exact writes_none

theorem decode32_writes {w : U32} (h0 : fld w 0 2 = 2#2) : Writes .word w (decode32 w) :=
  writes_checked (decodeFields_writes h0)

theorem decodePair_writes {q w : U32} {i : Instr} (hq : fld q 0 2 = 3#2) (hw : fld w 0 2 = 2#2) (hp : prefixable w = true)
    (h : decodePair q w = some i) : encode i = { len := 8, bits := q.toNat + 2 ^ 32 * w.toNat } := by
  obtain ⟨p, hofq, hi⟩ := Option.bind_eq_some_iff.1 h
  rw [writes_checked (decodeFields_writes_prefixed hw hp) i hi, ← pfx_ofWord_word hq hofq]
  rfl

/-! ## Bytes of a number, and back -/

theorem ofBytes_lt (bs : List Byte) : ofBytes bs < 256 ^ bs.length := by
  induction bs with
  | nil => simp [ofBytes]
  | cons b bs ih =>
    have := b.isLt
    rw [ofBytes, List.length_cons, Nat.pow_succ]
    omega

theorem toBytes_ofBytes (bs : List Byte) : toBytes bs.length (ofBytes bs) = bs := by
  induction bs with
  | nil => rfl
  | cons b bs ih =>
    have hdiv : (b.toNat + 256 * ofBytes bs) / 256 = ofBytes bs := by have := b.isLt; omega
    rw [List.length_cons, ofBytes, toBytes, hdiv, ih]
    congr 1
    apply BitVec.eq_of_toNat_eq
    have := b.isLt
    rw [BitVec.toNat_ofNat]
    omega

theorem ofBytes_take (bs : List Byte) (n : Nat) : ofBytes (bs.take n) = ofBytes bs % 256 ^ n := by
  induction n generalizing bs with
  | zero => simp [ofBytes, Nat.mod_one]
  | succ n ih =>
    cases bs with
    | nil => simp [ofBytes]
    | cons b bs =>
      have hb : (b.toNat + 256 * ofBytes bs) % 256 = b.toNat ∧ (b.toNat + 256 * ofBytes bs) / 256 = ofBytes bs := by
        have := b.isLt
        omega
      rw [List.take_succ_cons, ofBytes, ofBytes, ih, Nat.pow_succ, Nat.mul_comm (256 ^ n), Nat.mod_mul, hb.1, hb.2]

/-- The first `n` bytes of a string, from the number that they hold. -/
theorem toBytes_take {bs : List Byte} {n : Nat} (h : n ≤ bs.length) : toBytes n (ofBytes (bs.take n)) = bs.take n := by
  have := toBytes_ofBytes (bs.take n)
  rwa [List.length_take_of_le h] at this

theorem toNat_front (bs : List Byte) (n : Nat) : (BitVec.ofNat (8 * n) (ofBytes (bs.take n))).toNat = ofBytes (bs.take n) := by
  have h := ofBytes_lt (bs.take n)
  have hle : 256 ^ (bs.take n).length ≤ 2 ^ (8 * n) := by
    rw [Nat.pow_mul]
    exact Nat.pow_le_pow_right (by decide) (List.length_take_le n bs)
  rw [BitVec.toNat_ofNat, Nat.mod_eq_of_lt (by omega)]

theorem ofBytes_append (as bs : List Byte) : ofBytes (as ++ bs) = ofBytes as + 256 ^ as.length * ofBytes bs := by
  induction as with
  | nil => simp [ofBytes]
  | cons a as ih =>
    rw [List.cons_append, ofBytes, ofBytes, ih, List.length_cons, Nat.pow_succ]
    ring

/-- The bytes of the two words of a pair. -/
theorem toBytes_take_pair {bs : List Byte} (h : 8 ≤ bs.length) :
    toBytes 8 ((BitVec.ofNat 32 (ofBytes (bs.take 4))).toNat + 2 ^ 32 * (BitVec.ofNat 32 (ofBytes ((bs.drop 4).take 4))).toNat) =
      bs.take 8 := by
  have hsplit : bs.take 8 = bs.take 4 ++ (bs.drop 4).take 4 := by rw [← List.take_add]
  have hlen : (bs.take 4).length = 4 := List.length_take_of_le (by omega)
  rw [toNat_front bs 4, toNat_front (bs.drop 4) 4, ← toBytes_take h, hsplit, ofBytes_append, hlen, show (256 : Nat) ^ 4 = 2 ^ 32 from rfl]

theorem fld_two {n : Nat} (w : BitVec n) : (fld w 0 2).toNat = (fld w 0 1).toNat + 2 * (fld w 1 1).toNat := by
  simp only [BitVec.extractLsb'_toNat, Nat.shiftRight_eq_div_pow]
  omega

/-- The lowest bits of a word at the front of a byte string. -/
theorem fld_front (bs : List Byte) {n : Nat} (h : 1 ≤ n) : (fld (BitVec.ofNat (8 * n) (ofBytes (bs.take n))) 0 2).toNat = ofBytes bs % 4 := by
  have hdvd : 4 ∣ 256 ^ n := Dvd.dvd.trans (by decide : 4 ∣ 256 ^ 1) (Nat.pow_dvd_pow 256 h)
  rw [BitVec.extractLsb'_toNat, Nat.shiftRight_zero, toNat_front, ofBytes_take]
  exact Nat.mod_mod_of_dvd _ hdvd

/-! ## What decoding accepts -/

/-- The three lengths of an instruction, by the lowest bits of its halfwords (R26, R27). -/
theorem decodeBytes_cases {bs : List Byte} {i : Instr} {len : Nat} (h : decodeBytes bs = .ok (i, len)) :
    (len = 2 ∧ 2 ≤ bs.length ∧ ofBytes bs % 4 < 2 ∧ decode16 (BitVec.ofNat 16 (ofBytes (bs.take 2))) = some i) ∨
    (len = 4 ∧ 4 ≤ bs.length ∧ ofBytes bs % 4 = 2 ∧ decode32 (BitVec.ofNat 32 (ofBytes (bs.take 4))) = some i) ∨
    (len = 8 ∧ 8 ≤ bs.length ∧ ofBytes bs % 4 = 3 ∧ ofBytes (bs.drop 4) % 4 = 2 ∧
      prefixable (BitVec.ofNat 32 (ofBytes ((bs.drop 4).take 4))) = true ∧
      decodePair (BitVec.ofNat 32 (ofBytes (bs.take 4))) (BitVec.ofNat 32 (ofBytes ((bs.drop 4).take 4))) = some i) := by
  have hlow := (fld_front bs (n := 2) (by decide)).symm.trans (fld_two _)
  have hbit : ∀ {b : BitVec 1}, b ≠ 0#1 → b = 1#1 := by decide
  unfold decodeBytes at h
  dsimp only at h
  split at h
  · exact nomatch h
  next h2 =>
  split at h
  next hbit1 =>
    split at h
    next j hd =>
      cases h
      rw [hbit1] at hlow
      exact .inl ⟨rfl, Nat.le_of_not_lt h2, by have := (fld (BitVec.ofNat 16 (ofBytes (bs.take 2))) 0 1).isLt; simp at hlow; omega, hd⟩
    next => exact nomatch h
  next hbit1 =>
  rw [hbit hbit1] at hlow
  split at h
  · exact nomatch h
  next h4 =>
  split at h
  next hbit0 =>
    rw [hbit0] at hlow
    split at h
    next j hd =>
      cases h
      exact .inr (.inl ⟨rfl, Nat.le_of_not_lt h4, hlow, hd⟩)
    next => exact nomatch h
  next hbit0 =>
  rw [hbit hbit0] at hlow
  split at h
  · exact nomatch h
  split at h
  · exact nomatch h
  next hword =>
  split at h
  · exact nomatch h
  next h8 =>
  split at h
  · exact nomatch h
  next hpfx =>
  split at h
  next j hd =>
    cases h
    have hword := (fld_front (bs.drop 4) (n := 2) (by decide)).symm.trans (congrArg BitVec.toNat (not_not.1 hword))
    exact .inr (.inr ⟨rfl, Nat.le_of_not_lt h8, hlow, hword, by simpa using hpfx, hd⟩)
  next => exact nomatch h

/-- What decoding accepts has the length of its encoding, and its bytes are that encoding. -/
theorem decodeBytes_encodeBytes {bs : List Byte} {i : Instr} {len : Nat} (h : decodeBytes bs = .ok (i, len)) :
    len = (encode i).len ∧ bs.take len = encodeBytes i := by
  have hfront : ∀ (bs : List Byte) {v : Nat}, ofBytes bs % 4 = v % 4 → fld (BitVec.ofNat 32 (ofBytes (bs.take 4))) 0 2 = BitVec.ofNat 2 v :=
    fun bs v hv => BitVec.eq_of_toNat_eq ((fld_front bs (n := 4) (by decide)).trans (hv.trans (BitVec.toNat_ofNat v 2).symm))
  rcases decodeBytes_cases h with ⟨rfl, h2, -, hd⟩ | ⟨rfl, h4, hlow, hd⟩ | ⟨rfl, h8, hq, hw, hp, hd⟩
  · rw [encodeBytes, decode16_writes _ _ hd, Encoded.half, toNat_front bs 2]
    exact ⟨rfl, (toBytes_take h2).symm⟩
  · rw [encodeBytes, decode32_writes (hfront bs hlow) _ hd, Encoded.word, toNat_front bs 4]
    exact ⟨rfl, (toBytes_take h4).symm⟩
  · rw [encodeBytes, decodePair_writes (hfront bs hq) (hfront _ hw) hp hd]
    exact ⟨rfl, (toBytes_take_pair h8).symm⟩

/-- Settles O54: the three forms are `checked`, and each field of a word is read or asked to be what its encoding has there. -/
theorem decodedBytesAreTheEncoding : Obligations.DecodedBytesAreTheEncoding := fun _ _ _ h =>
  ⟨decodeBytes_wf h, decodeBytes_encodeBytes h⟩

end Sys2Proof.Laws

namespace Sys2Proof.Laws

open Sys2Proof.Machine

/-! # Words of the encoding and compact forms (R28, R30, R31, R41 to R49) -/

/-- Settles O55, by evaluating the decoder on each word. -/
theorem wordsOfTheEncoding : Obligations.WordsOfTheEncoding := by
  unfold Obligations.WordsOfTheEncoding
  refine ⟨?_, ?_, ?_, ?_, ?_⟩ <;> decide +kernel

/-! ## Truth values and fields of a compact word -/

theorem flag_slt (x y : U64) : flag (x.slt y) = if x.toInt < y.toInt then 1#64 else 0#64 := by
  simp [flag, BitVec.slt_iff_toInt_lt]

theorem flag_beq (x y : U64) : flag (x == y) = if x = y then 1#64 else 0#64 := by
  simp [flag]

/-- The amount of a compact shift (R44). -/
theorem bx_toNat (b : BitVec 4) (e : BitVec 2) : (bx b e).toNat = 4 * b.toNat + e.toNat := by
  rw [bx, BitVec.toNat_append, ← Nat.shiftLeft_add_eq_or_of_lt e.isLt, Nat.shiftLeft_eq, Nat.mul_comm]

/-- An instruction that only writes a result (R32, R86). -/
theorem dst_gives (s : State) (len : Nat) (d : Dst) (v : U64) :
    runInstr len (do dst d v; pure .next) s = s.gives len d v := runInstr_gives rfl

/-- Settles O4: the compact members are `alu2` and `alu1` of two ages and of one. -/
theorem compactResults : Obligations.CompactResults := by
  intro s a b e x y hx hy
  refine ⟨alu2_gives _ hx hy, alu2_gives _ hx hy, alu2_gives _ hx hy, alu2_gives _ hx hy, alu2_gives _ hx hy, alu2_gives _ hx hy,
    ?_, ?_, ?_, ?_, ?_, ?_⟩
  · rw [exec_sltC, execSltC, ← flag_slt]; exact alu2_gives _ hx hy
  · rw [exec_seqC, execSeqC, ← flag_beq]; exact alu2_gives _ hx hy
  · rw [exec_shliC, execShliC, ← bx_toNat]; exact alu1_gives _ hx
  · rw [exec_shriC, execShriC, ← bx_toNat]; exact alu1_gives _ hx
  · rw [exec_addiC, execAddiC]; exact alu1_gives _ hx
  · rw [exec_liC, execLiC]; exact dst_gives s 2 _ _

/-! # Privilege (R38) -/

/-- In user mode a privileged instruction raises PRIV. -/
theorem privileged_user {s : State} (h : (s.slot s.cur).user = true) (tval : U64) :
    privileged tval s = .error (.trap .priv tval) := by
  simp [privileged, h]

theorem sysPrivilege_user {s : State} {sys : BitVec 12} (h : (s.slot s.cur).user = true) (hs : 0x800 ≤ sys.toNat) (tval : U64) :
    sysPrivilege sys tval s = .error (.trap .priv tval) := by
  rw [sysPrivilege, if_pos hs, privileged_user h]

/-- Settles O9: each of the four asks for the mode before anything else. -/
theorem privilegedInUserMode : Obligations.PrivilegedInUserMode := by
  intro s d a b sys h l all huser
  have hissued : (s.noteIssue.slot s.noteIssue.cur).user = true := (State.noteIssue_slot_user s s.cur).trans huser
  refine ⟨fun hs => ⟨?_, ?_, ?_⟩, ?_⟩
  · rw [exec_mfs, execMfs]
    exact runInstr_traps (by rw [Exec.bind_apply, sysPrivilege_user hissued hs]; rfl)
  · rw [exec_mts, execMts]
    exact runInstr_traps (by rw [Exec.bind_apply, sysPrivilege_user hissued hs]; rfl)
  · rw [exec_mtsi, execMtsi]
    exact runInstr_traps (by rw [Exec.bind_apply, sysPrivilege_user hissued hs]; rfl)
  · rw [exec_tinv, execTinv]
    exact runInstr_traps (by rw [Exec.bind_apply, privileged_user hissued]; rfl)

/-! # Moves and presence bits (R48, R87, R92 to R94) -/

/-- A field of a number replaced: the bits of the field are those of the new value, and the others stay. -/
theorem testBit_replace {w v lo len j : Nat} :
    (w - w / 2 ^ lo % 2 ^ len * 2 ^ lo + v % 2 ^ len * 2 ^ lo).testBit j =
      if lo ≤ j ∧ j < lo + len then v.testBit (j - lo) else w.testBit j := by
  have hlow : w % 2 ^ lo < 2 ^ lo := Nat.mod_lt _ (Nat.two_pow_pos lo)
  have hmid : ∀ x : Nat, x % 2 ^ len < 2 ^ len := fun x => Nat.mod_lt _ (Nat.two_pow_pos len)
  have hw : w = 2 ^ lo * (2 ^ len * (w / 2 ^ lo / 2 ^ len) + w / 2 ^ lo % 2 ^ len) + w % 2 ^ lo := by
    rw [Nat.div_add_mod, Nat.div_add_mod]
  have hr : w - w / 2 ^ lo % 2 ^ len * 2 ^ lo + v % 2 ^ len * 2 ^ lo =
      2 ^ lo * (2 ^ len * (w / 2 ^ lo / 2 ^ len) + v % 2 ^ len) + w % 2 ^ lo := by
    rw [Nat.mul_add] at hw ⊢
    rw [Nat.mul_comm _ (2 ^ lo), Nat.mul_comm _ (2 ^ lo)]
    omega
  rw [hr]
  conv => rhs; rw [hw]
  simp only [Nat.testBit_two_pow_mul_add _ hlow, Nat.testBit_two_pow_mul_add _ (hmid _), Nat.testBit_mod_two_pow]
  split_ifs <;> grind

theorem getLsbD_putBits {n : Nat} (w : BitVec n) {lo len v j : Nat} (hj : j < n) :
    (putBits w lo len v).getLsbD j = if lo ≤ j ∧ j < lo + len then v.testBit (j - lo) else w.getLsbD j := by
  rw [putBits, BitVec.getLsbD_ofNat, testBit_replace, decide_eq_true hj, Bool.true_and]
  rfl

/-- One of the four 16-bit parts of an extension register (R48). -/
theorem getLsbD_putBits_part (w : U64) (part : BitVec 2) (imm : BitVec 16) {j : Nat} (hj : j < 64) :
    (putBits w (16 * part.toNat) 16 imm.toNat).getLsbD j = if j / 16 = part.toNat then imm.getLsbD (j % 16) else w.getLsbD j := by
  have hpart : (16 * part.toNat ≤ j ∧ j < 16 * part.toNat + 16) ↔ j / 16 = part.toNat := by omega
  rw [getLsbD_putBits w hj, if_congr hpart rfl rfl]
  refine ite_congr rfl (fun h => ?_) fun _ => rfl
  have hbit : j - 16 * part.toNat = j % 16 := by omega
  rw [hbit]
  rfl

/-- A bit set cleared in one place (R94). -/
theorem getLsbD_clearBit (p : BitVec 16) (n : BitVec 4) {j : Nat} (hj : j < 16) :
    (p &&& ~~~BitVec.ofNat 16 (2 ^ n.toNat)).getLsbD j = (decide (j ≠ n.toNat) && p.getLsbD j) := by
  rw [BitVec.getLsbD_and, BitVec.getLsbD_not, BitVec.getLsbD_ofNat, Nat.testBit_two_pow]
  simp [hj, Bool.and_comm, eq_comm]

theorem move_gives {s : State} {len : Nat} {d : Dst} {a : Src} {v : U64} (h : s.reads a = some v) :
    runInstr len (move d a) s = s.gives len d v :=
  runInstr_gives (by simp [move, src_issued h])

theorem clearNamed_done (s : State) (len : Nat) (n : BitVec 4) :
    runInstr len (clearNamed n) s =
      .next (s.done len fun x => { x with pres := (s.slot s.cur).pres &&& ~~~BitVec.ofNat 16 (2 ^ n.toNat) }) :=
  runInstr_done (by
    rw [← State.noteIssue_slot_pres s s.cur]
    exact congrArg (fun t => Except.ok (Flow.next, t)) (State.modSlot_congr rfl))

theorem execXset_done (s : State) (i : BitVec 3) (imm : BitVec 16) (part : BitVec 2) :
    execXset i imm part s = .next (s.done 4 fun y =>
      { y with x := y.x.set 0#64 i.toNat (putBits ((s.slot s.cur).xreg i.toNat) (16 * part.toNat) 16 imm.toNat) }) :=
  runInstr_done (by
    rw [← State.noteIssue_xreg s s.cur]
    exact congrArg (fun t => Except.ok (Flow.next, t)) (State.modSlot_congr rfl))

/-! ## Blocking on a clear register (R87) -/

/-- From state `s`, `m` blocks on each of the sources `xs`. -/
def BlocksOn {α : Type} (s : State) (m : Exec α) (xs : List Src) : Prop := ∀ a ∈ xs, s.reads a = none → m s = .error .wait

section Blocking

variable {α β : Type} {s : State} {xs : List Src}

theorem blocksOn_nil {m : Exec α} : BlocksOn s m [] := fun _ ha => nomatch ha

theorem blocksOn_src {x : Src} {f : U64 → Exec α} (h : ∀ v, BlocksOn s (f v) xs) : BlocksOn s (src x >>= f) (x :: xs) := by
  intro a ha hn
  rw [Exec.bind_apply]
  cases hx : s.reads x with
  | none => rw [src_none hx]
  | some v =>
    rw [src_reads hx]
    rcases List.mem_cons.1 ha with rfl | ha
    · exact nomatch hx.symm.trans hn
    · exact h v a ha hn

/-- An operation that changes nothing may come before. -/
theorem blocksOn_bind {p : Exec β} {b : β} {f : β → Exec α} (hp : p s = .ok (b, s)) (h : BlocksOn s (f b) xs) :
    BlocksOn s (p >>= f) xs := by
  intro a ha hn
  rw [Exec.bind_apply, hp]
  exact h a ha hn

/-- An age is always read (R31). -/
theorem blocksOn_age {c : BitVec 4} {f : U64 → Exec α} (h : ∀ v, BlocksOn s (f v) xs) : BlocksOn s (src (.age c) >>= f) xs :=
  blocksOn_bind (src_reads (s := s) (a := .age c) rfl) (h _)

theorem blocksOn_else {c : Bool} (hc : c = false) {m m' : Exec α} (h : BlocksOn s m' xs) : BlocksOn s (if c then m else m') xs := by
  subst hc
  exact h

theorem BlocksOn.waits {len : Nat} {m : Exec Flow} {a : Src} (h : BlocksOn s.noteIssue m xs) (ha : a ∈ xs) (hn : s.reads a = none) :
    runInstr len m s = s.waits :=
  runInstr_waits (h a ha ((s.reads_noteIssue_eq a).trans hn))

end Blocking

/-- A slot outside user mode passes the question for its mode (R38). -/
theorem privileged_pass {s : State} (h : (s.slot s.cur).user = false) (tval : U64) : privileged tval s.noteIssue = .ok ((), s.noteIssue) := by
  simp [privileged, h]

theorem capField_eq : ∀ f : BitVec 5, capField f = decide (f.toNat ∈ [0, 1, 2, 3, 16, 17]) := by decide

/-- R87: an instruction with a clear named register among its sources is blocked. -/
theorem exec_waits_of_source {s : State} {i : Instr} {a : Src} (ha : a ∈ sources i) (hn : s.reads a = none)
    (hmode : asksMode i = true → (s.slot s.cur).user = false) : exec i s = s.waits := by
  cases i with
  | add | sub | mul | mulh | mulhu | div | divu | rem | remu | and | or | xor | andn | shl | shr | sra | rol | min | max | minu
  | maxu | slt | sltu | seq | sne | sext | zext | svc | vclaim | vreneg | beq | bne | blt | bge | bltu | bgeu | bbs | bbc | yield
  | lprice | lsplit | lmerge | llight | sresidm | rcommit | rretire | vins | stx =>
    exact (blocksOn_src fun _ => blocksOn_src fun _ => blocksOn_nil).waits ha hn
  | clz | ctz | popc | brev | mov | xsetr | borrow | bwr | qsend | dline | binit | bexpect | wfi | lnew | lest | addi | andi | ori
  | xori | shli | shri | srai | slti | nwr | rngseed | trap | lfree | lbegin | ldone | sresid | cseta | cinc | cperm | rst | walk
  | launch | fres | bwait | zst | lget | cbound | rclaim | rtryclaim | rawait | barrive | btest | vbcast | zld | bez | bnz | loop
  | st | vlds | vsts | vext | ydrain | ldx | movCFromNamed =>
    exact (blocksOn_src fun _ => blocksOn_nil).waits ha hn
  | sel => exact (blocksOn_age fun _ => blocksOn_src fun _ => blocksOn_src fun _ => blocksOn_nil).waits ha hn
  | mts =>
    have hpass := sysPrivilege_mayName (State.mayName_noteIssue fun hs => hmode (decide_eq_true hs))
    exact (blocksOn_bind (hpass _) (blocksOn_src fun _ => blocksOn_nil)).waits ha hn
  | tinv =>
    exact (blocksOn_bind (privileged_pass (hmode rfl) _) (blocksOn_src fun _ => blocksOn_src fun _ => blocksOn_nil)).waits ha hn
  | qfuse | qsplit =>
    exact (blocksOn_bind (privileged_pass (hmode rfl) _) (blocksOn_src fun _ => blocksOn_nil)).waits ha hn
  | lset f =>
    by_cases hf : f.toNat ∈ [0, 1, 2, 3, 16, 17]
    · rw [sources, if_pos hf] at ha
      exact (blocksOn_src fun _ => blocksOn_nil).waits ha hn
    · rw [sources, if_neg hf] at ha
      have hcap : capField f = false := (capField_eq f).trans (decide_eq_false hf)
      exact (blocksOn_src fun _ => blocksOn_else hcap (blocksOn_src fun _ => blocksOn_nil)).waits ha hn
  | _ => exact nomatch ha

/-- Settles O5: what a body does from the state that has issued it, and `exec_waits_of_source`. -/
theorem movesAndPresence : Obligations.MovesAndPresence := by
  refine ⟨fun s d a m n i imm part v u w ha hm hn => ⟨move_gives ha, move_gives hm, move_gives hn, move_gives hm, ?_, ?_, ?_⟩,
    fun s d n => ⟨⟨_, clearNamed_done s 4 n, clearNamed_done s 2 n, fun j hj => getLsbD_clearBit _ n hj⟩, ?_⟩,
    fun s i a ha hn hmode => exec_waits_of_source ha hn hmode⟩
  · rw [exec_xget, execXget]
    exact runInstr_gives (by simp)
  · rw [exec_xsetr, execXsetr]
    exact runInstr_done (by simp [src_issued ha])
  · exact ⟨_, execXset_done s i imm part, fun j hj => getLsbD_putBits_part _ part imm hj⟩
  · rw [exec_ntest, execNtest]
    exact runInstr_gives (by simp [flag, Slot.present])

end Sys2Proof.Laws

namespace Sys2Proof.Laws

open Sys2Proof.Machine

/-! # The frame of an integer instruction (R32, R86, R89 to R92) -/

/-- Slot `y` has the registers of slot `x`: the named ones but a destination `d`, and the others that no scalar result changes. -/
structure KeepsRegs (d : Dst) (x y : Slot) : Prop where
  named : ∀ j : BitVec 4, d ≠ .nam j → y.n.get 0#64 j.toNat = x.n.get 0#64 j.toNat ∧ y.pres.getLsbD j.toNat = x.pres.getLsbD j.toNat
  guards : d = .queue → y.guards = x.guards
  others : y.x = x.x ∧ y.k = x.k ∧ y.v = x.v ∧ y.vm = x.vm ∧ y.m = x.m ∧ y.rmode = x.rmode ∧ y.fflags = x.fflags ∧
    y.covmode = x.covmode ∧ y.tcause = x.tcause ∧ y.tpc = x.tpc ∧ y.tval = x.tval ∧ y.inTrap = x.inTrap ∧ y.user = x.user

theorem State.slot_passOver (s : State) (g : Nat) : s.passOver.slot g =
    (s.modSlot s.cur fun x => { x with blocked := true, stopped := if s.mayStop s.cur then some none else x.stopped }).slot g := rfl

/-- Blocking changes none of a slot's registers. -/
theorem keepsRegs_passOver (s : State) (d : Dst) : KeepsRegs d (s.slot s.cur) (s.passOver.slot s.cur) := by
  rw [State.slot_passOver, State.slot_modSlot_self]
  exact ⟨fun _ _ => ⟨rfl, rfl⟩, fun _ => rfl, by simp⟩

theorem getLsbD_setBit {p : BitVec 16} {i j : BitVec 4} (h : j.toNat ≠ i.toNat) :
    (p ||| BitVec.ofNat 16 (2 ^ i.toNat)).getLsbD j.toNat = p.getLsbD j.toNat := by
  rw [BitVec.getLsbD_or, BitVec.getLsbD_ofNat, Nat.testBit_two_pow_of_ne (Ne.symm h), Bool.and_false, Bool.or_false]

/-- A scalar result changes the result queue and its destination. -/
theorem keepsRegs_result (d : Dst) (v : U64) (x : Slot) : KeepsRegs d x (x.result d v) := by
  cases d with
  | queue => exact ⟨fun _ _ => ⟨rfl, rfl⟩, fun _ => rfl, by simp [Slot.result, Slot.push]⟩
  | nam i =>
    refine ⟨fun j hj => ?_, (nomatch ·), by simp [Slot.result, Slot.push, Slot.setNamed]⟩
    have hne : j.toNat ≠ i.toNat := fun h => hj (congrArg Dst.nam (BitVec.eq_of_toNat_eq h.symm))
    exact ⟨SMap.get_set_ne hne, getLsbD_setBit hne⟩

theorem State.slot_done (s : State) (len : Nat) (f : Slot → Slot) :
    (s.done len f).slot s.cur = (f ((s.slot s.cur).issued s.now s.cur)).advance len := by
  have hissued : s.noteIssue.slot s.cur = (s.slot s.cur).issued s.now s.cur := by rw [State.slot_noteIssue, if_pos rfl]
  rw [← hissued, ← State.slot_modSlot_self s.noteIssue s.cur f]
  exact State.slot_modSlot_self _ s.cur _

theorem State.slot_done_ne {s : State} {len : Nat} {f : Slot → Slot} {g : Nat} (h : g ≠ s.cur) : (s.done len f).slot g = s.slot g := by
  rw [State.done, State.past, State.slot_modSlot_ne (by exact h), State.slot_modSlot_ne h, State.slot_noteIssue_ne h]

/-- Issuing and moving on change none of the registers that a scalar result leaves. -/
theorem keepsRegs_gives (s : State) (len : Nat) (d : Dst) (v : U64) :
    KeepsRegs d (s.slot s.cur) ((s.done len fun x => x.result d v).slot s.cur) := by
  rw [State.slot_done]
  have h := keepsRegs_result d v ((s.slot s.cur).issued s.now s.cur)
  exact ⟨h.named, h.guards, h.others⟩

/-- What an integer instruction leaves of the state (R32). -/
structure IntFrame (d : Dst) (s t : State) : Prop where
  mem : t.mem = s.mem
  tags : t.tags = s.tags
  poison : t.poison = s.poison
  quads : t.quads = s.quads
  flight : t.flight = s.flight
  slots : ∀ h, h ≠ s.cur → t.slot h = s.slot h
  regs : KeepsRegs d (s.slot s.cur) (t.slot s.cur)

theorem intFrame_passOver (s : State) (d : Dst) : IntFrame d s s.passOver where
  mem := rfl
  tags := rfl
  poison := rfl
  quads := rfl
  flight := rfl
  slots h hne := by rw [State.slot_passOver, State.slot_modSlot_ne hne]
  regs := keepsRegs_passOver s d

theorem intFrame_gives (s : State) (len : Nat) (d : Dst) (v : U64) : IntFrame d s (s.done len fun x => x.result d v) where
  mem := by simp [State.done, State.past]
  tags := by simp [State.done, State.past]
  poison := by simp [State.done, State.past]
  quads := by simp [State.done, State.past]
  flight := by simp [State.done, State.past]
  slots _ h := State.slot_done_ne h
  regs := keepsRegs_gives s len d v

/-! ## The ends of an integer instruction -/

/-- The current slot is blocked, or completes with a result at `d`. -/
def WaitsOrGives (s : State) (len : Nat) (d : Dst) (o : Host.Outcome State Fault Refusal) : Prop := o = s.waits ∨ ∃ v, o = s.gives len d v

theorem alu1_waitsOrGives (s : State) (len : Nat) (d : Dst) (a : Src) (f : U64 → U64) :
    WaitsOrGives s len d (runInstr len (alu1 d a f) s) := by
  cases hx : s.reads a with
  | none => exact .inl ((blocksOn_src (xs := []) fun _ => blocksOn_nil).waits List.mem_cons_self hx)
  | some x => exact .inr ⟨f x, alu1_gives f hx⟩

theorem alu2_waitsOrGives (s : State) (len : Nat) (d : Dst) (a b : Src) (f : U64 → U64 → U64) :
    WaitsOrGives s len d (runInstr len (alu2 d a b f) s) := by
  have hblocks : BlocksOn s.noteIssue (alu2 d a b f) [a, b] := blocksOn_src fun _ => blocksOn_src fun _ => blocksOn_nil
  cases hx : s.reads a with
  | none => exact .inl (hblocks.waits List.mem_cons_self hx)
  | some x =>
    cases hy : s.reads b with
    | none => exact .inl (hblocks.waits (List.mem_cons_of_mem _ List.mem_cons_self) hy)
    | some y => exact .inr ⟨f x y, alu2_gives f hx hy⟩

/-- SEL's condition is an age, which is always there (R31, R89). -/
theorem execSel_alu2 (s : State) (d : Dst) (a b : Src) (c : BitVec 4) : ∃ f, execSel d a b c s = runInstr 4 (alu2 d a b f) s :=
  ⟨_, runInstr_congr (by rw [Exec.bind_apply, src_issued (a := .age c) rfl])⟩

theorem exec_int_waitsOrGives {i : Instr} {d : Dst} (h : intDst i = some d) (s : State) :
    WaitsOrGives s (encode i).len d (exec i s) := by
  cases i with
  | add | sub | mul | mulh | mulhu | div | divu | rem | remu | and | or | xor | andn | shl | shr | sra | rol | min | max | minu
  | maxu | slt | sltu | seq | sne | sext | zext => cases h; exact alu2_waitsOrGives s 4 _ _ _ _
  | addi | andi | ori | xori | shli | shri | srai | slti | clz | ctz | popc | brev => cases h; exact alu1_waitsOrGives s 4 _ _ _
  | addC | subC | andC | orC | xorC | mulC => cases h; exact alu2_waitsOrGives s 2 .queue (.age _) (.age _) _
  | sltC a b => cases h; exact alu2_waitsOrGives s 2 .queue (.age a) (.age b) fun x y => flag (x.slt y)
  | seqC a b => cases h; exact alu2_waitsOrGives s 2 .queue (.age a) (.age b) fun x y => flag (x == y)
  | shliC a b e => cases h; exact alu1_waitsOrGives s 2 .queue (.age a) fun v => v <<< (bx b e).toNat
  | shriC a b e => cases h; exact alu1_waitsOrGives s 2 .queue (.age a) fun v => v >>> (bx b e).toNat
  | addiC a b e => cases h; exact alu1_waitsOrGives s 2 .queue (.age a) fun v => v + (bx b e).signExtend 64
  | li => cases h; rw [exec_li, execLi]; exact .inr ⟨_, dst_gives s 4 _ _⟩
  | liC => cases h; rw [exec_liC, execLiC]; exact .inr ⟨_, dst_gives s 2 _ _⟩
  | sel d a b c =>
    cases h
    obtain ⟨f, hf⟩ := execSel_alu2 s d a b c
    rw [exec_sel, hf]
    exact alu2_waitsOrGives s 4 d a b f
  | _ => exact nomatch h

/-- Settles O60: the ends of the instruction, and the frame of each end. -/
theorem integerFrame : Obligations.IntegerFrame := by
  intro s i d hi
  have hends := exec_int_waitsOrGives hi s
  refine ⟨hends, ?_⟩
  obtain ⟨t, ht, hframe⟩ : ∃ t, exec i s = .next t ∧ IntFrame d s t := by
    rcases hends with h | ⟨v, h⟩
    · exact ⟨_, h, intFrame_passOver s d⟩
    · exact ⟨_, h, intFrame_gives s _ d v⟩
  exact ⟨t, ht, hframe.mem, hframe.tags, hframe.poison, hframe.quads, hframe.flight, hframe.slots, _, _, rfl, rfl,
    hframe.regs.named, hframe.regs.guards, hframe.regs.others⟩

end Sys2Proof.Laws

namespace Sys2Proof.Laws

open Sys2Proof.Machine

/-! # A step runs the instruction at the program counter (R13, R27, R50 to R52) -/

/-! ## What a step is -/

/-- A step that is an issue is the turn of the slot that issues (R13). -/
theorem step_issuesAs {s u : State} (h : s.issuesAs u) : step s = u.slotTurn := by
  obtain ⟨hforced, v, g, hv, hnext, rfl, -⟩ := h
  have hissue : v.issueStep = (v.giveTurn g).slotTurn := by rw [State.issueStep, hnext]
  rw [← hissue, step, State.takeStep, hforced]
  dsimp only
  rcases hv with ⟨hempty, rfl⟩ | ⟨hcs, hnone, rfl⟩
  · rw [hempty]
  · split
    next hempty => exact absurd hempty hcs
    next => rw [hnone]; rfl

section Issues

variable {s u v : State} (h : s.issuesAs u)
include h

/-- Nothing stops the slot that issues before its fetch: it executes the instruction that it finds (R27). -/
theorem step_found_instr {i : Instr} {len : Nat} (hf : u.fetchDecode = (.instr i len, v)) : step s = exec i v := by
  obtain ⟨-, -, -, -, -, -, hload, hcommit, hbefore, hcheck⟩ := id h
  simp [step_issuesAs h, State.slotTurn, hload, hcommit, hbefore, hcheck, hf]

/-- It raises the trap that it finds (R27, R50). -/
theorem step_found_trap {c : Cause} {tval : U64} {len : Nat} (hf : u.fetchDecode = (.trap c tval len, v)) :
    step s = .next (v.issueTrap c tval len) := by
  obtain ⟨-, -, -, -, -, -, hload, hcommit, hbefore, hcheck⟩ := id h
  simp [step_issuesAs h, State.slotTurn, hload, hcommit, hbefore, hcheck, hf]

variable {bs : List Byte}

theorem step_instr {i : Instr} {len : Nat} (hf : fetchBytes (u.slot u.cur).pc u = .ok (bs, v)) (hd : decodeBytes bs = .ok (i, len)) :
    step s = exec i v :=
  step_found_instr (len := len) h (by simp only [State.fetchDecode, hf, hd])

theorem step_illop {len : Nat} {tval : U64} (hf : fetchBytes (u.slot u.cur).pc u = .ok (bs, v))
    (hd : decodeBytes bs = .error (.illop len tval)) : step s = .next (v.issueTrap .illop tval len) :=
  step_found_trap h (by simp only [State.fetchDecode, hf, hd])

theorem step_illpfx {tval : U64} (hf : fetchBytes (u.slot u.cur).pc u = .ok (bs, v))
    (hd : decodeBytes bs = .error (.illpfx tval)) : step s = .next (v.issueTrap .illpfx tval 4) :=
  step_found_trap h (by simp only [State.fetchDecode, hf, hd])

theorem step_fetch_trap {c : Cause} {tval : U64} (hf : fetchBytes (u.slot u.cur).pc u = .error (.trap c tval)) :
    step s = .next (u.issueTrap c tval u.fetchLen) :=
  step_found_trap h (by simp only [State.fetchDecode, hf])

end Issues

theorem step_forced {s t : State} {i : Instr} (h : s.forced = some i) (hi : exec i s = .next t) : step s = .next t.rescan := by
  rw [step, State.takeStep, h]
  simp only [hi]

/-- A choice that the free choice names and that can take place (log 5). -/
theorem step_choice {s t u : State} {c : Choice} (h : s.forced = none) (ht : t = { s with tick := s.tick + 1 })
    (hc : t.enabled[Config.pick s.tick % (t.enabled.length + 1)]? = some c) (hu : t.choose c = some u) : step s = .next u.rescan := by
  rw [step, State.takeStep, h]
  dsimp only
  rw [← ht]
  split
  next hempty => rw [hempty] at hc; exact nomatch hc
  next => rw [hc, Option.bind_some, hu]

/-! ## Fetching what is buffered (R27, R114, R248) -/

/-- The bytes `bs` stand at address `a`, buffered for the current slot, and its code capability covers them. -/
structure Fetchable (s : State) (a : Nat) (bs : List Byte) : Prop where
  tag : (s.slot s.cur).pcc.tag = true
  space : (s.slot s.cur).pcc.space = 0
  perm : (s.slot s.cur).pcc.has 2 = true
  base : (s.slot s.cur).pcc.base ≤ a
  top : a + bs.length ≤ (s.slot s.cur).pcc.top
  even : a % 2 = 0
  bytes : ∀ j < bs.length, s.buffered (a + j) = some (bs.getD j 0#8)

theorem getD_drop (bs : List Byte) (n j : Nat) : (bs.drop n).getD j 0#8 = bs.getD (n + j) 0#8 := by
  rw [List.getD_eq_getElem?_getD, List.getD_eq_getElem?_getD, List.getElem?_drop]

section Fetching

variable {s : State} {a : Nat} {bs : List Byte}

theorem Fetchable.take (h : Fetchable s a bs) (n : Nat) : Fetchable s a (bs.take n) := by
  have hlen := List.length_take_le n bs
  have hle := List.length_take_le' n bs
  exact {
    h with
    top := Nat.le_trans (Nat.add_le_add_left hle a) h.top
    bytes := fun j hj => by
      rw [h.bytes j (Nat.lt_of_lt_of_le hj hle), List.getD_eq_getElem?_getD, List.getD_eq_getElem?_getD,
        List.getElem?_take_of_lt (Nat.lt_of_lt_of_le hj hlen)] }

theorem Fetchable.drop (h : Fetchable s a bs) {n : Nat} (hn : n ≤ bs.length) (heven : n % 2 = 0) : Fetchable s (a + n) (bs.drop n) where
  tag := h.tag
  space := h.space
  perm := h.perm
  base := Nat.le_add_right_of_le h.base
  top := by
    have := h.top
    rw [List.length_drop]
    omega
  even := by have := h.even; omega
  bytes j hj := by
    rw [List.length_drop] at hj
    rw [Nat.add_assoc, h.bytes (n + j) (by omega), getD_drop]

/-- The checks of R114 that are met. -/
theorem checkCap_met {k : Cap} {v : Int} {n : Nat} {nd : Need} (s : State) (htag : k.tag = true) (hle : k.space ≤ 6)
    (hspace : k.space ∈ nd.spaces) (hperm : nd.perm.all k.has = true) (hbase : (k.base : Int) ≤ v) (htop : v + n ≤ k.top)
    (halign : v.toNat % nd.align = 0) : checkCap k v n nd s = .ok (v.toNat, s) := by
  simp [checkCap, htag, hle, hspace, hperm, hbase, htop, halign]

theorem Fetchable.checkCap (h : Fetchable s a bs) :
    checkCap (s.slot s.cur).pcc a bs.length { spaces := [0], perm := [2], align := 2 } s = .ok (a, s) :=
  checkCap_met s h.tag (by simp [h.space]) (by simp [h.space]) (by simp [h.perm]) (Int.ofNat_le.2 h.base) (Int.ofNat_le.2 h.top) h.even

/-- Two bytes of a string, as a number. -/
theorem leAt_two (bs : List Byte) (i : Nat) : leAt bs i 2 = ofBytes [bs.getD i 0#8, bs.getD (i + 1) 0#8] := by
  rw [leAt, ← getD_drop bs i 1, show bs.getD i 0#8 = (bs.drop i).getD 0 0#8 from (getD_drop bs i 0).symm]
  match bs.drop i with
  | [] => rfl
  | [_] => rfl
  | _ :: _ :: _ => rfl

/-- The block with number `n` in the instruction buffer of the current slot's core (R248). -/
def blockAt (s : State) (n : Nat) : Option IBlock :=
  (s.core (coreOf s.cur)).ibuf.find? fun b => b.part == s.partOfSlot s.cur && b.tenant == (s.slot s.cur).tenant && b.block == n

theorem buffered_eq_some {x : Byte} : s.buffered a = some x ↔ ∃ b, blockAt s (a / 32) = some b ∧ b.bytes.getD (a % 32) 0#8 = x :=
  Option.map_eq_some_iff

theorem fetchBlock_buffered {b : IBlock} (h : blockAt s (a / 32) = some b) : fetchBlock a s = .ok (b.bytes, s) := by
  rw [blockAt] at h
  simp only [fetchBlock, Exec.bind_apply, Exec.get_apply, h, Exec.pure_apply]

/-- A halfword that is buffered stands in one block. -/
theorem Fetchable.fetchHalf (h : Fetchable s a bs) (hlen : bs.length = 2) : fetchHalf a s = .ok (ofBytes bs, s) := by
  obtain ⟨x, y, rfl⟩ := List.length_eq_two.1 hlen
  obtain ⟨b, hb, hx⟩ := buffered_eq_some.1 (show s.buffered a = some x from h.bytes 0 Nat.zero_lt_two)
  obtain ⟨b', hb', hy⟩ := buffered_eq_some.1 (show s.buffered (a + 1) = some y from h.bytes 1 Nat.one_lt_two)
  have heven := h.even
  have hblock : (a + 1) / 32 = a / 32 := by omega
  have hplace : (a + 1) % 32 = a % 32 + 1 := by omega
  obtain rfl : b = b' := Option.some.inj (hb.symm.trans (hblock ▸ hb'))
  have hnum : leAt b.bytes (a % 32) 2 = ofBytes [x, y] := by
    rw [leAt_two, ← hplace, hx, hy]
  simp only [Machine.fetchHalf, Exec.bind_apply, fetchBlock_buffered hb, Exec.pure_apply, hnum]

theorem Fetchable.fetch_two (h : Fetchable s a bs) (hle : 2 ≤ bs.length) : fetch a 2 s = .ok (ofBytes (bs.take 2), s) := by
  have hlen := List.length_take_of_le hle
  have hcheck := (h.take 2).checkCap
  rw [hlen] at hcheck
  simp only [fetch, Exec.bind_apply, getSlot_apply, hcheck, (h.take 2).fetchHalf hlen, if_true, Exec.pure_apply]

theorem Fetchable.fetch_four (h : Fetchable s a bs) (hle : 4 ≤ bs.length) : fetch a 4 s = .ok (ofBytes (bs.take 4), s) := by
  have hlow : (bs.take 2).length = 2 := List.length_take_of_le (by omega)
  have hhigh : ((bs.drop 2).take 2).length = 2 := List.length_take_of_le (by rw [List.length_drop]; omega)
  have hword : ofBytes (bs.take 4) = ofBytes (bs.take 2) + 2 ^ 16 * ofBytes ((bs.drop 2).take 2) := by
    rw [show bs.take 4 = bs.take 2 ++ (bs.drop 2).take 2 from List.take_add (i := 2) (j := 2), ofBytes_append, hlow]
    rfl
  have hcheck := (h.take 4).checkCap
  rw [List.length_take_of_le hle] at hcheck
  have hlo := (h.take 2).fetchHalf hlow
  have hhi := ((h.drop (n := 2) (by omega) rfl).take 2).fetchHalf hhigh
  rw [hword]
  simp only [fetch, Exec.bind_apply, getSlot_apply, hcheck, hlo, hhi, Exec.pure_apply, Nat.reduceEqDiff, if_false]

/-- The fetch of an instruction whose bytes are buffered reads them, and changes nothing (R27). -/
theorem Fetchable.fetchBytes (h : Fetchable s a bs) {i : Instr} (hd : decodeBytes bs = .ok (i, bs.length)) :
    fetchBytes a s = .ok (bs, s) := by
  have hlow : ∀ bs : List Byte, ofBytes (bs.take 2) % 4 = ofBytes bs % 4 := fun bs => by
    rw [ofBytes_take]
    exact Nat.mod_mod_of_dvd _ (by decide)
  rcases decodeBytes_cases hd with ⟨hlen, h2, hq, -⟩ | ⟨hlen, h4, hq, -⟩ | ⟨hlen, h8, hq, hw, -, -⟩
  · simp only [Machine.fetchBytes, Exec.bind_apply, h.fetch_two h2, hlow, hq, if_true, Exec.pure_apply]
    rw [toBytes_take h2, List.take_of_length_le hlen.le]
  · simp only [Machine.fetchBytes, Exec.bind_apply, h.fetch_two (by omega), h.fetch_four h4, hlow, hq, if_true, Exec.pure_apply,
      Nat.lt_irrefl, if_false]
    rw [toBytes_take h4, List.take_of_length_le hlen.le]
  · have hnext := h.drop (n := 4) (by omega) rfl
    have hrest : 4 ≤ (bs.drop 4).length := by rw [List.length_drop]; omega
    simp only [Machine.fetchBytes, Exec.bind_apply, h.fetch_two (by omega), h.fetch_four (by omega), hlow, hq,
      hnext.fetch_two (by omega), hnext.fetch_four hrest, hw, if_false, Exec.pure_apply, Nat.reduceEqDiff, Nat.reduceLT, ne_eq, not_true]
    rw [toBytes_take (by omega), toBytes_take hrest, ← List.take_add, List.take_of_length_le hlen.le]

end Fetching

/-- Settles O56: what a step is by cases, and the fetch of an instruction whose bytes are buffered. -/
theorem stepRunsDecoded : Obligations.StepRunsDecoded := by
  refine ⟨fun s => ⟨fun u h => ⟨fun bs v hf => ⟨fun _ _ => step_instr h hf, fun _ _ => step_illop h hf, fun _ => step_illpfx h hf⟩,
    fun _ _ => step_fetch_trap h⟩, fun _ _ => step_forced, fun hn t ht c u => step_choice hn ht⟩, ?_⟩
  intro s u i h hwf x htag hspace hperm hbase htop heven hbytes
  have hlen : (encodeBytes i).length = (encode i).len := length_toBytes _ _
  have hd : decodeBytes (encodeBytes i) = .ok (i, (encode i).len) := by
    have := decodeEncodeRoundTrip i hwf []
    rwa [List.append_nil] at this
  rw [← hlen] at htop hbytes hd
  exact step_instr h (Fetchable.fetchBytes ⟨htag, hspace, hperm, hbase, htop, heven, hbytes⟩ hd) hd

end Sys2Proof.Laws

/-! # Floating vector results (R58, R64, R65, R274) -/

namespace Sys2Proof.Machine

/-! ## One slot changed twice -/

theorem SMap.absent_erase {α : Type} (m : SMap α) (k : Nat) : ∀ e ∈ m.erase k, e.1 ≠ k := fun _ he => (SMap.mem_erase he).2

theorem SMap.erase_of_absent {α : Type} {m : SMap α} {k : Nat} (h : ∀ e ∈ m, e.1 ≠ k) : m.erase k = m := by
  induction m with
  | nil => rfl
  | cons e m ih =>
    have hm : SMap.erase m k = m := ih fun x hx => h x (List.mem_cons_of_mem e hx)
    exact (if_neg (h e List.mem_cons_self)).trans (congrArg (e :: ·) hm)

theorem SMap.erase_insert {α : Type} {m : SMap α} {k : Nat} {v : α} (h : ∀ e ∈ m, e.1 ≠ k) : (m.insert k v).erase k = m := by
  induction m with
  | nil => exact if_pos rfl
  | cons e m ih =>
    have he : e.1 ≠ k := h e List.mem_cons_self
    have hm : ∀ x ∈ m, x.1 ≠ k := fun x hx => h x (List.mem_cons_of_mem e hx)
    by_cases hlt : k < e.1
    · rw [SMap.insert, if_pos hlt]
      exact (if_pos rfl).trans (SMap.erase_of_absent h)
    · rw [SMap.insert, if_neg hlt]
      exact (if_neg he).trans (congrArg (e :: ·) (ih hm))

/-- A later write to a key takes the place of an earlier one. -/
theorem SMap.set_set {α : Type} [DecidableEq α] (d : α) (m : SMap α) (k : Nat) (v w : α) : (m.set d k v).set d k w = m.set d k w := by
  have herase : (m.set d k v).erase k = m.erase k := by
    rw [SMap.set]
    split
    · exact SMap.erase_of_absent (SMap.absent_erase m k)
    · exact SMap.erase_insert (SMap.absent_erase m k)
  rw [SMap.set, herase, SMap.set]

theorem State.modSlot_modSlot (s : State) (g : Nat) (f f' : Slot → Slot) :
    (s.modSlot g f).modSlot g f' = s.modSlot g fun x => f' (f x) := by
  rw [State.modSlot, State.slot_modSlot_self]
  simp only [State.setSlot, State.modSlot, SMap.set_set]

/-- Issuing lists the current slot, so that it may be read as a change of that slot. -/
theorem State.noteIssue_modSlot_id (s : State) : (s.noteIssue.modSlot s.cur fun x => x) = s.noteIssue :=
  congrArg (fun t : State => { s.noteIssue with slots := t.slots })
    (State.modSlot_modSlot s s.cur (fun x => x.issued s.now s.cur) fun x => x)

/-! ## STO fields (R65, R101) -/

/-- Slot `x` after `n` steps of its generator. -/
def Slot.rolled (x : Slot) (n : Nat) : Slot :=
  { x with rngLo := (rngOuts n x.rngLo x.rngHi).2.1, rngHi := (rngOuts n x.rngLo x.rngHi).2.2 }

theorem rngNext_apply (s : State) : rngNext s =
    .ok ((rngStep (s.slot s.cur).rngLo (s.slot s.cur).rngHi).1, s.modSlot s.cur fun x =>
      { x with rngLo := (rngStep (s.slot s.cur).rngLo (s.slot s.cur).rngHi).2.1
               rngHi := (rngStep (s.slot s.cur).rngLo (s.slot s.cur).rngHi).2.2 }) := rfl

theorem eachM_rngNext {α : Type} (l : List α) (s : State) (f : Slot → Slot) :
    eachM (fun _ => rngNext) l (s.modSlot s.cur f) =
      .ok ((rngOuts l.length (f (s.slot s.cur)).rngLo (f (s.slot s.cur)).rngHi).1,
        s.modSlot s.cur fun x => (f x).rolled l.length) := by
  induction l generalizing f with
  | nil => rfl
  | cons a l ih =>
    simp only [eachM, Exec.bind_apply, rngNext_apply, State.modSlot_cur, State.modSlot_modSlot, State.slot_modSlot_self, ih, Exec.pure_apply]
    refine congrArg (fun t => Except.ok (_, t)) (State.modSlot_congr ?_)
    rfl

/-- How many outputs of the generator `n` roundings in a mode take: one for each four fields of STO, else none (R65). -/
def drawsFor (mode n : Nat) : Nat := if mode = 5 then ceilDiv n 4 else 0

/-- The roundings of `n` results by slot `x` in the mode of a prefix (R64, R65). -/
def Slot.roundingsOf (x : Slot) (q : Pfx) (n i : Nat) : Rnd :=
  { mode := x.mode q, draw := ((rngOuts (drawsFor (x.mode q) n) x.rngLo x.rngHi).1.flatMap fields4).getD i 0, sat := q.sat }

theorem roundings_apply (q : Pfx) (n : Nat) (s : State) (f : Slot → Slot) :
    roundings q n (s.modSlot s.cur f) = .ok ((f (s.slot s.cur)).roundingsOf q n,
      s.modSlot s.cur fun x => (f x).rolled (drawsFor ((f (s.slot s.cur)).mode q) n)) := by
  by_cases hm : (f (s.slot s.cur)).mode q = 5
  · simp [roundings, hm, takeFields, eachM_rngNext, drawsFor, funext_iff, Slot.roundingsOf]
  · simp [roundings, hm, drawsFor, funext_iff, Slot.roundingsOf, rngOuts]
    rfl

/-! ## The members of VFP (R274) -/

theorem lanesHeld_of_groups {s : State} (h : (s.slot s.cur).groups ≠ 0) (tval : U64) : lanesHeld tval s = .ok ((), s) := by
  simp [lanesHeld, h]

theorem mapElems_apply (q : Pfx) (w : Nat) (d : BitVec 5) (f : Slot → Nat → FRes) (s : State) :
    mapElems q w d f s = .ok ((), s.modSlot s.cur fun x => x.eachElem q d w (f x)) := by
  simp only [mapElems, putElems, Exec.bind_apply, getSlot_apply, modSlot_apply, setFlags_apply, State.modSlot_cur, State.modSlot_modSlot]
  exact congrArg (fun t => Except.ok ((), t)) (State.modSlot_congr rfl)

theorem vfp_apply {s : State} (op : VFpOp) (p : Option Pfx) (et : BitVec 3) (d a b : BitVec 5) (tval : U64)
    (h : (s.slot s.cur).groups ≠ 0) :
    vfp op p et d a b tval s.noteIssue = .ok (.next, s.noteIssue.modSlot s.cur fun x =>
      x.floatElems (pfxOf p) d a b (if (pfxOf p).f4e then (pfxOf p).f4 else d) (etBits et) (op.apply (etFmt et))) := by
  have hg : lanesHeld tval s.noteIssue = .ok ((), s.noteIssue) := lanesHeld_of_groups (by simpa using h) tval
  have hr := roundings_apply (pfxOf p) ((s.noteIssue.slot s.cur).count (etBits et)) s.noteIssue fun x => x
  rw [State.noteIssue_cur, State.noteIssue_modSlot_id] at hr
  simp only [vfp, Exec.bind_apply, hg, getSlot_apply, State.noteIssue_cur, hr, mapElems_apply, State.modSlot_cur, State.modSlot_modSlot, Exec.pure_apply]
  exact congrArg (fun t => Except.ok (Flow.next, t)) (State.modSlot_congr rfl)

/-- A member of VFP on the elements of a slot that holds lanes. -/
theorem vfp_next {s : State} (op : VFpOp) (p : Option Pfx) (et : BitVec 3) (d a b : BitVec 5) (tval : U64)
    (h : (s.slot s.cur).groups ≠ 0) :
    runInstr (pairLen p) (vfp op p et d a b tval) s = .next (s.done (pairLen p) fun x =>
      x.floatElems (pfxOf p) d a b (if (pfxOf p).f4e then (pfxOf p).f4 else d) (etBits et) (op.apply (etFmt et))) :=
  runInstr_done (vfp_apply op p et d a b tval h)

/-! ## Rounding to a multiple of a power of two (R58, R64) -/

/-- When a magnitude of `k` units and `rem` more, of `u` to a unit, goes up to `k + 1` units (R64). -/
def RoundsUp (r : Rnd) (neg : Bool) (k rem u : Nat) : Prop :=
  r.mode = 0 ∧ (u < 2 * rem ∨ 2 * rem = u ∧ k % 2 = 1) ∨ r.mode = 2 ∧ neg = false ∧ rem ≠ 0 ∨
    r.mode = 3 ∧ neg = true ∧ rem ≠ 0 ∨ r.mode = 4 ∧ u ≤ 2 * rem

theorem roundUp?_iff {r : Rnd} {neg : Bool} {k rem sh : Nat} (hmode : r.mode ≤ 4) (hsh : 0 < sh) :
    roundUp? r neg k rem sh false = true ↔ RoundsUp r neg k rem (2 ^ sh) := by
  obtain ⟨n, rfl⟩ : ∃ n, sh = n + 1 := ⟨sh - 1, by omega⟩
  have hhalf : 2 ^ (n + 1) / 2 = 2 ^ n := by omega
  obtain ⟨mode, draw, sat⟩ := r
  have hmodes : mode = 0 ∨ mode = 1 ∨ mode = 2 ∨ mode = 3 ∨ mode = 4 := by
    change mode ≤ 4 at hmode
    omega
  rcases hmodes with rfl | rfl | rfl | rfl | rfl <;> simp [roundUp?, RoundsUp, hhalf] <;> omega

/-- A magnitude `m` is rounded to `q` units of `u` as the mode asks (R58, R64). -/
structure RoundsTo (r : Rnd) (neg : Bool) (m u q : Nat) : Prop where
  below : q * u < m + u
  above : m < q * u + u
  nearest : r.mode = 0 ∨ r.mode = 4 → 2 * (q * u) ≤ 2 * m + u ∧ 2 * m ≤ 2 * (q * u) + u
  even : r.mode = 0 → 2 * (q * u) = 2 * m + u ∨ 2 * m = 2 * (q * u) + u → q % 2 = 0
  away : r.mode = 4 → 2 * m ≠ 2 * (q * u) + u
  down : r.mode = 1 ∨ r.mode = 2 ∧ neg = true ∨ r.mode = 3 ∧ neg = false → q * u ≤ m
  up : r.mode = 2 ∧ neg = false ∨ r.mode = 3 ∧ neg = true → m ≤ q * u

section RoundsTo

variable {r : Rnd} {neg : Bool} {m k rem u : Nat} (hm : m = k * u + rem) (hrem : rem < u)
include hm hrem

theorem roundsTo_quotient (h : ¬ RoundsUp r neg k rem u) : RoundsTo r neg m u k := by
  unfold RoundsUp at h
  constructor <;> grind

theorem roundsTo_next (h : RoundsUp r neg k rem u) : RoundsTo r neg m u (k + 1) := by
  unfold RoundsUp at h
  have hnext : (k + 1) * u = k * u + u := Nat.succ_mul k u
  constructor <;> grind

end RoundsTo

theorem RoundsUp.rem_ne_zero {r : Rnd} {neg : Bool} {k rem u : Nat} (hu : 0 < u) (h : RoundsUp r neg k rem u) : rem ≠ 0 := by
  unfold RoundsUp at h
  omega

section RoundAt

variable {r : Rnd} {neg : Bool} {m q : Nat} {e qe : Int} {inexact : Bool}

/-- Rounding to a multiple of a coarser power of two gives the quotient, or the next number. -/
theorem roundAt_of_lt {sh : Nat} (h : e < qe) (hsh : sh = (qe - e).toNat) : roundAt r neg m e qe false =
    (if roundUp? r neg (m / 2 ^ sh) (m % 2 ^ sh) sh false then m / 2 ^ sh + 1 else m / 2 ^ sh, decide (m % 2 ^ sh ≠ 0)) := by
  subst hsh
  rw [roundAt, if_neg (by omega)]
  simp only [Bool.or_false]

variable (hmode : r.mode ≤ 4) (hle : e ≤ qe) (h : roundAt r neg m e qe false = (q, inexact))
include hmode hle h

theorem roundAt_cases {u : Nat} (hu : u = 2 ^ (qe - e).toNat) : ∃ k rem, m = k * u + rem ∧ rem < u ∧ inexact = decide (rem ≠ 0) ∧
    (RoundsUp r neg k rem u ∧ q = k + 1 ∨ ¬ RoundsUp r neg k rem u ∧ q = k) := by
  obtain ⟨sh, hsh⟩ : ∃ sh, sh = (qe - e).toNat := ⟨_, rfl⟩
  rw [← hsh] at hu
  rcases hle.lt_or_eq with hlt | rfl
  · rw [roundAt_of_lt hlt hsh] at h
    obtain ⟨rfl, rfl⟩ := Prod.mk.inj h
    have hiff := roundUp?_iff (r := r) (neg := neg) (k := m / 2 ^ sh) (rem := m % 2 ^ sh) hmode (show 0 < sh by omega)
    subst hu
    refine ⟨m / 2 ^ sh, m % 2 ^ sh, (Nat.div_add_mod' m _).symm, Nat.mod_lt m (Nat.two_pow_pos sh), rfl, ?_⟩
    split
    next hup => exact .inl ⟨hiff.1 hup, rfl⟩
    next hdown => exact .inr ⟨fun hup => hdown (hiff.2 hup), rfl⟩
  · obtain ⟨rfl, rfl⟩ : m = q ∧ false = inexact := by simpa [roundAt] using h
    obtain rfl : u = 1 := by simp [hu, hsh]
    exact ⟨m, 0, by omega, by omega, rfl, .inr ⟨fun hup => hup.rem_ne_zero Nat.one_pos rfl, rfl⟩⟩

theorem roundAt_roundsTo : RoundsTo r neg m (2 ^ (qe - e).toNat) q := by
  obtain ⟨k, rem, hm, hrem, -, ⟨hup, rfl⟩ | ⟨hdown, rfl⟩⟩ := roundAt_cases hmode hle h rfl
  · exact roundsTo_next hm hrem hup
  · exact roundsTo_quotient hm hrem hdown

/-- A rounding is inexact exactly when it moves. -/
theorem roundAt_inexact : inexact = decide (q * 2 ^ (qe - e).toNat ≠ m) := by
  obtain ⟨k, rem, hm, hrem, rfl, hq⟩ := roundAt_cases hmode hle h rfl
  obtain ⟨u, hu⟩ : ∃ u, u = 2 ^ (qe - e).toNat := ⟨_, rfl⟩
  rw [← hu] at hm hrem hq ⊢
  rw [decide_eq_decide]
  rcases hq with ⟨hup, rfl⟩ | ⟨-, rfl⟩
  · have hne := hup.rem_ne_zero (Nat.zero_lt_of_lt hrem)
    have hnext : (k + 1) * u = k * u + u := Nat.succ_mul k u
    omega
  · omega

end RoundAt

/-! ## The statement -/

/-- Settles O35: each member of VFP is `vfp` with its own operation, and a rounding gives the quotient or the next multiple. -/
theorem vectorFloatResults : Obligations.VectorFloatResults := by
  refine ⟨?_, ?_⟩
  · rintro s p et d a b n q f hgroups rfl rfl rfl
    exact ⟨vfp_next .add p et d a b _ hgroups, vfp_next .sub p et d a b _ hgroups, vfp_next .mul p et d a b _ hgroups,
      vfp_next .fma p et d a b _ hgroups, vfp_next .div p et d a b _ hgroups, vfp_next .sqrt p et d a 0#5 _ hgroups,
      vfp_next .rcp p et d a 0#5 _ hgroups, vfp_next .rsq p et d a 0#5 _ hgroups, vfp_next .exp2 p et d a 0#5 _ hgroups,
      vfp_next .log2 p et d a 0#5 _ hgroups, vfp_next .min p et d a b _ hgroups, vfp_next .max p et d a b _ hgroups,
      vfp_next .abs p et d a 0#5 _ hgroups, vfp_next .neg p et d a 0#5 _ hgroups, vfp_next .cls p et d a 0#5 _ hgroups⟩
  · intro r neg m e qe q inexact hmode hle h
    have hr := roundAt_roundsTo hmode hle h
    exact ⟨roundAt_inexact hmode hle h, hr.below, hr.above, hr.nearest, hr.even, hr.away, hr.down, hr.up⟩

end Sys2Proof.Machine

/-! # Halts of the matrix array (R313) -/

namespace Sys2Proof.Machine

/-! ## The slot that runs a task -/

/-- Slot `g` is live and runs task `tid`, and no other slot that is listed in `m` does. -/
structure Runs (m : SMap Slot) (g tid : Nat) : Prop where
  alive : (m.get {} g).live = true
  task : (m.get {} g).tid = tid
  only : ∀ e ∈ m, e.2.live = true → e.2.tid = tid → e.1 = g

/-- A live slot is listed. -/
theorem SMap.mem_of_live {m : SMap Slot} {g : Nat} (h : (m.get {} g).live = true) : (g, m.get {} g) ∈ m :=
  (SMap.get_mem _ m g).resolve_left fun hd => by
    rw [hd] at h
    exact Bool.false_ne_true h

/-- A change of a slot that keeps its task keeps who runs a task. -/
theorem Runs.set {m : SMap Slot} {g tid h : Nat} {x : Slot} (hr : Runs m g tid) (hlive : x.live = (m.get {} h).live)
    (htid : x.tid = (m.get {} h).tid) : Runs (m.set {} h x) g tid := by
  have hget : ((m.set {} h x).get {} g).live = (m.get {} g).live ∧ ((m.set {} h x).get {} g).tid = (m.get {} g).tid := by
    rw [SMap.get_set]
    split
    next e => rw [e]; exact ⟨hlive, htid⟩
    next => exact ⟨rfl, rfl⟩
  refine ⟨hget.1.trans hr.alive, hget.2.trans hr.task, fun e he hl ht => ?_⟩
  rcases SMap.mem_set he with rfl | he
  · have hold : (m.get {} h).live = true := hlive.symm.trans hl
    exact hr.only (h, m.get {} h) (SMap.mem_of_live hold) hold (htid.symm.trans ht)
  · exact hr.only e he hl ht

/-- What is written to a task reaches the slot that runs it. -/
theorem State.modTask_of_runs {s : State} {g tid : Nat} (h : Runs s.slots g tid) (f : Slot → Slot) :
    s.modTask tid f = s.modSlot g f := by
  unfold State.modTask
  split
  next e he =>
    have hprop := List.find?_some he
    simp only [Bool.and_eq_true, beq_iff_eq] at hprop
    rw [h.only e (List.mem_of_find?_eq_some he) hprop.2 hprop.1]
  next hnone =>
    refine absurd ?_ (List.find?_eq_none.1 hnone _ (SMap.mem_of_live h.alive))
    rw [h.task, h.alive, beq_self_eq_true, Bool.and_self]

/-- What is written to a task reaches at most one slot. -/
theorem State.slot_modTask (s : State) (tid : Nat) (f : Slot → Slot) (g : Nat) :
    (s.modTask tid f).slot g = s.slot g ∨ (s.modTask tid f).slot g = f (s.slot g) := by
  unfold State.modTask
  split
  · rw [State.slot_modSlot]
    split
    next e => rw [e]; exact .inr rfl
    next => exact .inl rfl
  · exact .inl rfl

/-! ## What a discarded command does to slots (R313) -/

theorem State.errorRecord_slots (s : State) (die : Nat) (addr : U64) (gslot code source tenant part : Nat) (corr : Bool) :
    (s.errorRecord die addr gslot code source tenant part corr).slots = s.slots := by
  unfold State.errorRecord
  dsimp only
  split <;> rfl

/-- Of the slots an engine error changes the error list of its task (R212). -/
theorem State.engineError_slots (s : State) (o : Issuer) (engine code addr : Nat) :
    (s.engineError o engine code addr).slots =
      (s.modTask o.tid fun x => x.noteError (BitVec.ofNat 64 (addr / 16 % 2 ^ 48 * 2 ^ 16 + engine * 2 ^ 8 + code))).slots := by
  unfold State.engineError
  dsimp only
  rw [State.errorRecord_slots]
  split <;> rfl

theorem Slot.noteError_keeps (x : Slot) (w : U64) :
    (x.noteError w).live = x.live ∧ (x.noteError w).tid = x.tid ∧ (x.noteError w).mcheck = x.mcheck := by
  unfold Slot.noteError
  split <;> exact ⟨rfl, rfl, rfl⟩

/-- Steps that each leave the slots as they are. -/
theorem State.foldl_slots {β : Type} {f : State → β → State} (hf : ∀ s b, (f s b).slots = s.slots) (l : List β) (s : State) :
    (l.foldl f s).slots = s.slots := by
  induction l generalizing s with
  | nil => rfl
  | cons b l ih => exact (ih _).trans (hf s b)

theorem State.allReady_slots (s : State) (zs : List (Nat × Nat)) : (s.allReady zs).slots = s.slots := by
  unfold State.allReady
  refine State.foldl_slots ?_ zs s
  exact fun _ _ => rfl

theorem State.slot_congr {s t : State} (h : t.slots = s.slots) (g : Nat) : t.slot g = s.slot g :=
  congrArg (fun m : SMap Slot => m.get ({} : Slot) g) h

theorem State.rejoin_slots {s t : State} (h : t.slots = s.slots) (o : Issuer) : (t.rejoin o).slots = (s.rejoin o).slots := by
  have hslot := State.slot_congr h o.slot
  unfold State.rejoin
  rw [hslot]
  split
  · exact congrArg₂ (fun (m : SMap Slot) (x : Slot) => m.set {} o.slot { x.advance 4 with wait := Wait.none }) h hslot
  · exact h

/-- A discarded command sends its record after changes of quadrants, and after the slot of an MMA has rejoined (R313). -/
theorem State.discard_eq (s : State) (c : CmdEntry) (code : Nat) : ∃ (t : State) (v : U64),
    s.discard c code = t.arrayError c.who code v ∧ (t.slots = s.slots ∨ t.slots = (s.rejoin c.who).slots) := by
  refine ⟨_, _, rfl, ?_⟩
  have hready := State.allReady_slots s (s.sources c)
  dsimp only
  split
  · refine .inr (State.rejoin_slots (Eq.trans (State.foldl_slots ?_ _ _) hready) c.who)
    exact fun _ _ => rfl
  · exact .inl hready
  · exact .inl hready
  · refine .inl (Eq.trans ?_ hready)
    split <;> rfl
  · exact .inl hready
  · exact .inl hready

theorem State.rejoin_mcheck (s : State) (o : Issuer) (g : Nat) : ((s.rejoin o).slot g).mcheck = (s.slot g).mcheck := by
  unfold State.rejoin
  split
  · rw [State.complete, State.slot_modSlot]
    split
    next e => rw [e]; rfl
    next => rfl
  · rfl

theorem State.runs_rejoin {s : State} {g tid : Nat} (h : Runs s.slots g tid) (o : Issuer) : Runs (s.rejoin o).slots g tid := by
  unfold State.rejoin
  split
  · exact h.set (h := o.slot) rfl rfl
  · exact h

/-- An error record takes back no MCHECK that a slot is to raise. -/
theorem State.arrayError_keeps {s : State} {g : Nat} (h : (s.slot g).mcheck ≠ none) (o : Issuer) (code : Nat) (v : U64) :
    ((s.arrayError o code v).slot g).mcheck ≠ none := by
  have hlisted : ((s.engineError o 4 code o.pc).slot g).mcheck ≠ none := by
    rw [State.slot_congr (State.engineError_slots s o 4 code o.pc)]
    rcases State.slot_modTask s o.tid (fun x => x.noteError _) g with e | e <;> rw [e]
    · exact h
    · rwa [(Slot.noteError_keeps _ _).2.2]
  unfold State.arrayError
  dsimp only
  split
  · rcases State.slot_modTask (s.engineError o 4 code o.pc) o.tid (fun x => { x with mcheck := some v }) g with e | e <;> rw [e]
    · exact hlisted
    · exact Option.some_ne_none v
  · exact hlisted

/-- A record with code 5 makes the slot that runs its task raise MCHECK (R313). -/
theorem State.arrayError_raises {s : State} {o : Issuer} {g : Nat} (h : Runs s.slots g o.tid) (v : U64) :
    ((s.arrayError o 5 v).slot g).mcheck ≠ none := by
  have hruns : Runs (s.engineError o 4 5 o.pc).slots g o.tid := by
    rw [State.engineError_slots, State.modTask_of_runs h]
    exact h.set (h := g) (Slot.noteError_keeps _ _).1 (Slot.noteError_keeps _ _).2.1
  rw [State.arrayError, if_pos rfl, State.modTask_of_runs hruns, State.slot_modSlot_self]
  exact Option.some_ne_none v

theorem State.discard_keeps {s : State} {g : Nat} (h : (s.slot g).mcheck ≠ none) (c : CmdEntry) (code : Nat) :
    ((s.discard c code).slot g).mcheck ≠ none := by
  obtain ⟨t, v, heq, ht⟩ := State.discard_eq s c code
  rw [heq]
  refine State.arrayError_keeps ?_ c.who code v
  rcases ht with ht | ht <;> rw [State.slot_congr ht]
  · exact h
  · rwa [State.rejoin_mcheck]

theorem State.discard_raises {s : State} {c : CmdEntry} {g : Nat} (h : Runs s.slots g c.who.tid) :
    ((s.discard c 5).slot g).mcheck ≠ none := by
  obtain ⟨t, v, heq, ht⟩ := State.discard_eq s c 5
  rw [heq]
  refine State.arrayError_raises ?_ v
  rcases ht with ht | ht <;> rw [ht]
  · exact h
  · exact State.runs_rejoin h c.who

/-! ## A halt of code 5 (R313) -/

/-- Of the slots a halt changes those of the commands that it discards. -/
theorem State.haltQueue_slots (s : State) (lead i code : Nat) : (s.haltQueue lead i code).slots =
    (((((s.quad lead).queue.drop i).zip (code :: List.replicate (s.quad lead).queue.length 0x0F)).foldl
      (fun t e => t.discard e.1 e.2) (s.modQuad lead fun x => { x with queue := x.queue.take i })).slots) := by
  unfold State.haltQueue
  refine State.foldl_slots ?_ _ _
  exact fun _ _ => rfl

theorem State.discards_keep {g : Nat} (l : List (CmdEntry × Nat)) {s : State} (h : (s.slot g).mcheck ≠ none) :
    ((l.foldl (fun t e => t.discard e.1 e.2) s).slot g).mcheck ≠ none := by
  induction l generalizing s with
  | nil => exact h
  | cons e l ih => exact ih (State.discard_keeps h e.1 e.2)

/-- The slot that runs the task of the oldest command is to raise MCHECK. -/
theorem State.haltQueue_raises {s : State} {Q g : Nat} {c : CmdEntry} {rest : List CmdEntry} (hq : (s.quad Q).queue = c :: rest)
    (h : Runs s.slots g c.who.tid) : ((s.haltQueue Q 0 5).slot g).mcheck ≠ none := by
  rw [State.slot_congr (State.haltQueue_slots s Q 0 5), hq, List.drop_zero, List.zip_cons_cons, List.foldl_cons]
  exact State.discards_keep _ (State.discard_raises h)

/-- A single quadrant is a set of its own (R314). -/
theorem State.setQuads_single {s : State} {Q : Nat} (h : (s.quad Q).fused = 0#4) : s.setQuads Q = [Q] := by
  have hset : s.fusedSet Q = BitVec.ofNat 4 (2 ^ (Q % 4)) := if_pos h
  have hmask : ∀ j < 4, (List.range 4).filterMap (fun i => if bitAt (BitVec.ofNat 4 (2 ^ j)) i then some (4 * (Q / 4) + i) else none) =
      [4 * (Q / 4) + j] := fun
    | 0, _ | 1, _ | 2, _ | 3, _ => rfl
  rw [State.setQuads, hset, hmask _ (Nat.mod_lt Q (by decide)), Nat.div_add_mod]

/-- A slot that waits for its MMAM raises MCHECK when the array's residue shows an error, where it is the slot that runs the task of the
command (R313, R427). -/
theorem mmamExecute_residue_raises {s : State} {Q y z : Nat} {ds : List U64} {c : CmdEntry} {rest : List CmdEntry}
    (hq : (s.quad Q).queue = c :: rest) (hquad : c.quad = Q) (hfused : (s.quad Q).fused = 0#4) (hcmd : c.cmd = .mma y z ds true)
    (hquiet : s.quiet (c :: rest) = true) (hresidue : (s.quad Q).residue = true) (hruns : Runs s.slots c.who.slot c.who.tid) :
    ∃ u, exec (.mmamExecute Q) s = .next u ∧ (u.slot c.who.slot).mcheck ≠ none := by
  have hbad : s.cmdBad c = true := by
    simp [State.cmdBad, hcmd, hquad, State.setQuads_single hfused, hresidue]
  have hfirst : s.quiet [c] = true := by
    simp only [State.quiet, List.all_cons, Bool.and_eq_true] at hquiet
    simp [State.quiet, hquiet.1]
  refine ⟨s.haltQueue Q 0 5, runEvent_some ?_, State.haltQueue_raises hq hruns⟩
  simp [State.execCmd, hq, hcmd, hfirst, State.runCmd, hbad, hquiet]

/-! ## A slot that is not live -/

/-- Slot 0 waits for an MMAM of its task, and is not live; the residue of quadrant 0, which holds that command, shows an error. -/
def waitsNotLive : State :=
  { slots := [(0, { wait := .array })]
    quads := [(0, { residue := true, queue := [⟨.mma 0 0 [0#64] true, ⟨0, 0, 0, 0, 0, 0#64⟩, 0⟩] })] }

theorem waitsNotLive_halts : exec (.mmamExecute 0) waitsNotLive = .next (waitsNotLive.haltQueue 0 0 5) := rfl

theorem waitsNotLive_mcheck : ((waitsNotLive.haltQueue 0 0 5).slot 0).mcheck = none := rfl

/-- Refutes O43: its clause on a residue error asks the slot that waits for the MMAM to be of the command's task, but not to be live.
`State.arrayError` finds a task among the live slots, so that the slot of `waitsNotLive` is given no MCHECK. Where the slot is live and
alone runs the task, it is (`mmamExecute_residue_raises`). -/
theorem not_matrixExecution : ¬ Obligations.MatrixExecution := by
  intro h
  obtain ⟨-, -, hhalt⟩ := h
  obtain ⟨-, hresidue⟩ := hhalt waitsNotLive 0 0 0 0#64 _ [] rfl rfl rfl rfl rfl rfl rfl rfl
  obtain ⟨u, hu, -, -, -, -, -, -, -, -, hmcheck⟩ := hresidue rfl
  obtain rfl : waitsNotLive.haltQueue 0 0 5 = u := Host.Outcome.next.inj (waitsNotLive_halts.symm.trans hu)
  exact hmcheck waitsNotLive_mcheck

end Sys2Proof.Machine

/-! # Every step keeps memory canonical (R113, R114, R428) -/

namespace Sys2Proof.Machine

/-! ## What it is for a result to be canonical -/

/-- A state that may be missing is canonical where there is one. -/
def CanonicalOpt (o : Option State) : Prop := ∀ t, o = some t → t.canonical

/-- As `CanonicalOpt`, for a state that comes with a value. -/
def CanonicalOptSnd {α : Type} (o : Option (α × State)) : Prop := ∀ a t, o = some (a, t) → t.canonical

/-- As `CanonicalOpt`, for a state or an error code. -/
def CanonicalExc {ε : Type} (r : Except ε State) : Prop := ∀ t, r = .ok t → t.canonical

/-- What stops an instruction leaves a canonical state, if it leaves one: the state of an instruction's step (R240). -/
def Stop.canonical : Stop → Prop
  | .again t => t.canonical
  | _ => True

/-- What a body answers is canonical: the state in which it completes, or which it leaves where it stops. -/
def CanonicalRes {α : Type} : Except Stop (α × State) → Prop
  | .ok (_, t) => t.canonical
  | .error e => e.canonical

/-- A body keeps memory canonical. -/
def Keeps {α : Type} (m : Exec α) : Prop := ∀ s, s.canonical → CanonicalRes (m s)

/-- The next state, if there is one, is canonical. -/
def CanonicalOut (o : Host.Outcome State Fault Refusal) : Prop := ∀ t, o = .next t → t.canonical

section

-- one theorem after the other: elaborated side by side, this many would need more threads than the memory limit leaves room for
set_option Elab.async false

variable {α β : Type} {s t : State}

/-! ## States -/

/-- A change of other fields than memory, tags and poison. -/
theorem State.canonical.same (h : s.canonical) (hm : t.mem = s.mem := by rfl) (ht : t.tags = s.tags := by rfl)
    (hp : t.poison = s.poison := by rfl) : t.canonical := State.canonical_congr hm ht hp h

/-- As `same`, for a change of a state that the rest of the proof names. -/
theorem State.canonical.congr (he : (t.mem, t.tags, t.poison) = (s.mem, s.tags, s.poison)) (h : s.canonical) : t.canonical := by
  simp only [Prod.mk.injEq] at he
  exact State.canonical_congr he.1 he.2.1 he.2.2 h

theorem State.canonical.ite {c : Prop} [Decidable c] (hs : s.canonical) (ht : t.canonical) : (if c then s else t).canonical := by
  split
  · exact hs
  · exact ht

/-- As `ite`, for a state that comes with a value. -/
theorem State.canonical.ite_fst {c : Prop} [Decidable c] {p q : State × α} (hp : p.1.canonical) (hq : q.1.canonical) :
    (if c then p else q).1.canonical := by
  split
  · exact hp
  · exact hq

theorem State.canonical.dite {c : Prop} [Decidable c] {f : c → State} {g : ¬c → State} (hf : ∀ h, (f h).canonical) (hg : ∀ h, (g
    h).canonical) : (dite c f g).canonical := by
  split
  · exact hf _
  · exact hg _

theorem State.canonical.of_snd {p : α × State} {a : α} (h : p.2.canonical) (hp : p = (a, t)) : t.canonical := by
  rw [hp] at h
  exact h

theorem State.canonical.foldl {f : State → β → State} {l : List β} (h : s.canonical) (hf : ∀ s b, s.canonical → (f s b).canonical) :
    (l.foldl f s).canonical := State.foldl_canonical hf l h

theorem State.canonical.setByte {key b} (h : s.canonical) : (s.setByte key b).canonical := State.setByte_canonical key b h

theorem State.canonical.setTag {key b} (h : s.canonical) : (s.setTag key b).canonical := State.setTag_canonical key b h

theorem State.canonical.setPoison {key b} (h : s.canonical) : (s.setPoison key b).canonical := State.setPoison_canonical key b h

theorem State.canonical.writeAll {ws} (h : s.canonical) : (s.writeAll ws).canonical := State.writeAll_canonical ws h

theorem State.canonical.fillFor {key n} (h : s.canonical) : (s.fillFor key n).canonical := State.fillFor_canonical key n h

theorem State.canonical.fill {g} (h : s.canonical) : (s.fill g).canonical := State.fill_canonical g h

theorem State.canonical.performWrites {p ten va ws tag} (h : s.canonical) : (s.performWrites p ten va ws tag).canonical :=
  State.performWrites_canonical p ten va ws tag h

theorem State.canonical.logWrite {p ten va} (h : s.canonical) : (s.logWrite p ten va).canonical := State.logWrite_canonical p ten va h

theorem SMap.from_filter [DecidableEq β] {d : β} {m : SMap β} {lo : Option Nat} {f : Nat × β → Bool} (h : SMap.from d lo m) :
    SMap.from d lo (List.filter f m) := by
  induction m generalizing lo with
  | nil => trivial
  | cons e m ih =>
    obtain ⟨hlo, hv, hm⟩ := h
    rw [List.filter_cons]
    split
    · exact ⟨hlo, hv, ih hm⟩
    · exact ih (SMap.from_weaken hm fun l hl => ⟨e.1, rfl, Nat.le_of_lt (hlo l hl)⟩)

/-- Some entries left out. -/
theorem SMap.wf_filter [DecidableEq β] {d : β} {m : SMap β} {f : Nat × β → Bool} (h : SMap.wf d m = true) :
    SMap.wf d (List.filter f m) = true := (SMap.wf_iff d _).2 (SMap.from_filter ((SMap.wf_iff d m).1 h))

theorem SMap.wf_foldl_set [DecidableEq β] {d v : β} {m : SMap β} {l : List α} {key : α → Nat} (h : SMap.wf d m = true) :
    SMap.wf d (l.foldl (fun m x => m.set d (key x) v) m) = true := by
  induction l generalizing m with
  | nil => exact h
  | cons x l ih => exact ih (SMap.wf_set _ _ h)

theorem State.canonical.setPartReg {p n v} (h : s.canonical) : (s.setPartReg p n v).canonical := State.setPartReg_canonical p n v h

theorem State.canonical.clearTag {key} (h : s.canonical) : (s.clearTag key).canonical := State.clearTag_canonical key h

/-! ## States that may be missing -/

theorem CanonicalOpt.none : CanonicalOpt none := fun _ h => nomatch h

theorem CanonicalOpt.some (h : s.canonical) : CanonicalOpt (some s) := fun _ ht => Option.some.inj ht ▸ h

theorem CanonicalOpt.ite {c : Prop} [Decidable c] {o o' : Option State} (h : CanonicalOpt o) (h' : CanonicalOpt o') :
    CanonicalOpt (if c then o else o') := by
  split
  · exact h
  · exact h'

theorem CanonicalOpt.map {o : Option α} {f : α → State} (h : ∀ a, o = Option.some a → (f a).canonical) : CanonicalOpt (o.map f) := by
  intro t ht
  obtain ⟨a, ha, rfl⟩ := Option.map_eq_some_iff.1 ht
  exact h a ha

theorem CanonicalOpt.bind {o : Option α} {f : α → Option State} (h : ∀ a, o = Option.some a → CanonicalOpt (f a)) : CanonicalOpt (o.bind
    f) := by
  intro t ht
  obtain ⟨a, ha, hf⟩ := Option.bind_eq_some_iff.1 ht
  exact h a ha t hf

theorem CanonicalOpt.getD {o : Option State} (h : CanonicalOpt o) (hs : s.canonical) : (o.getD s).canonical := by
  cases o with
  | none => exact hs
  | some t => exact h t rfl

theorem CanonicalOpt.elim {o : Option State} {f : State → State} (h : CanonicalOpt o) (hs : s.canonical)
    (hf : ∀ t, t.canonical → (f t).canonical) : (o.elim s f).canonical := by
  cases o with
  | none => exact hs
  | some t => exact hf t (h t rfl)

theorem CanonicalOpt.filter {o : Option State} {f : State → Bool} (h : CanonicalOpt o) : CanonicalOpt (o.filter f) := fun t ht =>
  h t (Option.filter_eq_some_iff.1 ht).1

theorem CanonicalOpt.or {o o' : Option State} (h : CanonicalOpt o) (h' : CanonicalOpt o') : CanonicalOpt (o.or o') := by
  cases o with
  | none => exact h'
  | some t => exact h

theorem CanonicalOpt.findSome {l : List α} {f : α → Option State} (h : ∀ a, CanonicalOpt (f a)) : CanonicalOpt (l.findSome? f) := by
  intro t ht
  obtain ⟨a, _, ha⟩ := List.exists_of_findSome?_eq_some ht
  exact h a t ha

theorem CanonicalOptSnd.none : CanonicalOptSnd (none : Option (α × State)) := fun _ _ h => nomatch h

theorem CanonicalOptSnd.some {p : α × State} (h : p.2.canonical) : CanonicalOptSnd (some p) := fun _ _ ht => by
  obtain rfl := Option.some.inj ht
  exact h

theorem CanonicalOptSnd.ite {c : Prop} [Decidable c] {o o' : Option (α × State)} (h : CanonicalOptSnd o) (h' : CanonicalOptSnd o') :
    CanonicalOptSnd (if c then o else o') := by
  split
  · exact h
  · exact h'

theorem CanonicalOptSnd.map {o : Option β} {f : β → α × State} (h : ∀ a, o = Option.some a → (f a).2.canonical) : CanonicalOptSnd (o.map
    f) := by
  intro a t ht
  obtain ⟨b, hb, hf⟩ := Option.map_eq_some_iff.1 ht
  exact (h b hb).of_snd hf

theorem CanonicalOptSnd.eq_some {o : Option (α × State)} {p : α × State} (h : CanonicalOptSnd o) (ho : o = Option.some p) : p.2.canonical
    :=
  h p.1 p.2 ho

theorem CanonicalOptSnd.or {o o' : Option (α × State)} (h : CanonicalOptSnd o) (h' : CanonicalOptSnd o') : CanonicalOptSnd (o.or o') := by
  cases o with
  | none => exact h'
  | some p => exact h

/-! ## States or error codes -/

theorem CanonicalExc.error {ε : Type} {e : ε} : CanonicalExc (.error e) := fun _ h => nomatch h

theorem CanonicalExc.ok {ε : Type} (h : s.canonical) : CanonicalExc (.ok s : Except ε State) := fun _ ht => Except.ok.inj ht ▸ h

theorem CanonicalExc.ite {ε : Type} {c : Prop} [Decidable c] {r r' : Except ε State} (h : CanonicalExc r) (h' : CanonicalExc r') :
    CanonicalExc (if c then r else r') := by
  split
  · exact h
  · exact h'

theorem CanonicalExc.map {ε : Type} {r : Except ε State} {f : State → State} (h : ∀ u, r = .ok u → (f u).canonical) :
    CanonicalExc (r.map f) := by
  cases r with
  | error e => exact .error
  | ok u => exact .ok (h u rfl)

/-! ## Bodies -/

theorem Keeps.pure (a : α) : Keeps (pure a) := fun _ h => h

theorem Keeps.throw {e : Stop} (h : e.canonical) : Keeps (throw e : Exec α) := fun _ _ => h

theorem Keeps.bind {m : Exec α} {f : α → Exec β} (hm : Keeps m) (hf : ∀ a, Keeps (f a)) : Keeps (m >>= f) := by
  intro s h
  have hs := hm s h
  rw [Exec.bind_apply]
  cases hr : m s with
  | ok p => rw [hr] at hs; exact hf p.1 p.2 hs
  | error e => rw [hr] at hs; exact hs

theorem Keeps.get {f : State → Exec β} (hf : ∀ s, s.canonical → Keeps (f s)) : Keeps (get >>= f) := fun s h => hf s h s h

theorem Keeps.set (h : t.canonical) : Keeps (set t : Exec PUnit) := fun _ _ => h

theorem Keeps.modify {f : State → State} (hf : ∀ s, s.canonical → (f s).canonical) : Keeps (modify f : Exec PUnit) := fun s h => hf s h

theorem Keeps.ite {c : Prop} [Decidable c] {m m' : Exec α} (h : Keeps m) (h' : Keeps m') : Keeps (if c then m else m') := by
  split
  · exact h
  · exact h'

theorem Keeps.map {m : Exec α} {f : α → β} (hm : Keeps m) : Keeps (f <$> m) := by
  intro s h
  have hs := hm s h
  rw [Exec.map_apply]
  cases hr : m s with
  | ok p => rw [hr] at hs; exact hs
  | error e => rw [hr] at hs; exact hs

theorem Keeps.here : Keeps (MonadState.get : Exec State) := fun _ h => h

/-! ## Outcomes -/

theorem CanonicalOut.next (h : s.canonical) : CanonicalOut (.next s) := fun _ ht => Host.Outcome.next.inj ht ▸ h

theorem CanonicalOut.event {name : String} {o : Option State} (h : CanonicalOpt o) : CanonicalOut (runEvent name o) := by
  cases o with
  | none => exact fun _ ht => nomatch ht
  | some t => exact .next (h t rfl)

/-! ### What `Base` keeps -/

theorem trap_keeps {c tval} : Keeps (trap c tval : Exec α) := .throw trivial

theorem block_keeps : Keeps (block : Exec α) := .throw trivial

theorem firmly_keeps {m : Exec α} (hm : Keeps m) : Keeps (firmly m) := by
  intro s h
  have hr := hm s h
  unfold firmly
  split
  · trivial
  · exact hr

theorem require_keeps {ok c tval} : Keeps (require ok c tval) := .ite (.pure _) (trap_keeps)

theorem await_keeps {ok} : Keeps (await ok) := .ite (.pure _) (block_keeps)

theorem eachM_keeps {f : α → Exec β} {l : List α} (hf : ∀ a, Keeps (f a)) : Keeps (eachM f l) := by
  induction l with
  | nil => exact .pure _
  | cons a as ih => exact .bind (hf a) fun _ => .bind ih fun _ => .pure _

theorem State.canonical.setSlot {g x} (h : s.canonical) : (s.setSlot g x).canonical := h.same

theorem State.canonical.modSlot {g f} (h : s.canonical) : (s.modSlot g f).canonical := h.setSlot

theorem State.canonical.modCore {c f} (h : s.canonical) : (s.modCore c f).canonical := h.same

theorem State.canonical.modCluster {cl f} (h : s.canonical) : (s.modCluster cl f).canonical := h.same

theorem State.canonical.modQuad {q f} (h : s.canonical) : (s.modQuad q f).canonical := h.same

theorem State.canonical.modEngine {e f} (h : s.canonical) : (s.modEngine e f).canonical := h.same

theorem State.canonical.freshNo (h : s.canonical) : s.freshNo.2.canonical := h.same

theorem getSlot_keeps : Keeps getSlot := .get fun _ _ => .pure _

theorem modSlot_keeps {f} : Keeps (modSlot f) := .modify fun _ h => h.modSlot

theorem newNo_keeps : Keeps newNo := .get fun _ h => .bind (.set h.freshNo) fun _ => .pure _

/-! ### What `Flags` keeps -/

theorem setFlags_keeps {fl} : Keeps (setFlags fl) := modSlot_keeps

theorem rngNext_keeps : Keeps rngNext := .bind getSlot_keeps fun _ => .bind modSlot_keeps fun _ => .pure _

/-! ### What `Mem` keeps -/

theorem checkCap_keeps {k v n nd} : Keeps (checkCap k v n nd) :=
  .bind require_keeps fun _ => .ite (.ite (.bind trap_keeps fun _ => .bind require_keeps fun _ => .bind require_keeps fun _ =>
      .bind require_keeps fun _ => .pure _) (.bind trap_keeps fun _ => .bind require_keeps fun _ => .bind require_keeps fun _ =>
      .bind require_keeps fun _ => .pure _)) (.bind require_keeps fun _ => .bind require_keeps fun _ =>
      .bind require_keeps fun _ => .pure _)

theorem State.canonical.cacheLeaf {c p t va lvl pte} (h : s.canonical) : (s.cacheLeaf c p t va lvl pte).canonical := by
  unfold State.cacheLeaf
  split
  · exact h.modCore
  · exact h.same

theorem State.canonical.translate {cached p t va} (h : s.canonical) : (s.translate cached p t va).2.canonical := by
  unfold State.translate
  split
  · exact h
  · split
    · exact h
    · split
      · exact h.cacheLeaf
      · exact h

theorem locate_keeps {w space v n bits} : Keeps (locate w space v n bits) := by
  unfold locate
  refine .get fun _ h => ?_
  dsimp only
  split
  · split
    · exact .bind require_keeps fun _ => .pure _
    · exact .bind require_keeps fun _ => .pure _
    · split
      · exact .bind (.set h.translate) fun _ => .bind require_keeps fun _ => .pure _
      · exact trap_keeps
      · exact trap_keeps
  · exact .bind require_keeps fun _ => .pure _
  · exact .bind require_keeps fun _ => .pure _
  · exact .bind require_keeps fun _ => .pure _
  · exact .bind require_keeps fun _ => .pure _
  · exact .bind require_keeps fun _ => .pure _
  · split
    · exact trap_keeps
    · exact .bind require_keeps fun _ => .bind require_keeps fun _ => .pure _

/-! ### What `Net` keeps -/

theorem State.canonical.modLink {l f} (h : s.canonical) : (s.modLink l f).canonical := h.same

theorem State.canonical.putFlit {f} (h : s.canonical) : (s.putFlit f).canonical := by
  unfold State.putFlit
  split
  · exact h
  · exact .ite h h.modLink

theorem State.canonical.post {id cls resp src dst path} (h : s.canonical) : (s.post id cls resp src dst path).canonical := h.putFlit

theorem State.canonical.respond {h₁ c cls path ack} (h : s.canonical) : (s.respond h₁ c cls path ack).canonical := by
  unfold State.respond
  dsimp only
  split
  · exact .congr rfl h.same.post
  · exact h.same.post

/-! ### What `Sched` keeps -/

theorem State.canonical.errorRecord {die addr gslot code source tenant part corr} (h : s.canonical) : (s.errorRecord die addr gslot
    code source tenant part corr).canonical :=
  .ite h.same h.same

theorem State.canonical.schedError {die code addr tenant part} (h : s.canonical) : (s.schedError die code addr tenant
    part).canonical :=
  h.errorRecord

theorem State.canonical.journalPut {p group deadline kind tenant gslot state} (h : s.canonical) : (s.journalPut p group deadline
    kind tenant gslot state).canonical :=
  h.performWrites.setPartReg

theorem State.canonical.journalNew {p group deadline kind tenant gslot state} (h : s.canonical) : (s.journalNew p group deadline
    kind tenant gslot state).2.canonical := by
  unfold State.journalNew
  dsimp only
  split
  · exact h
  · exact h.journalPut

theorem State.canonical.journalState {p seq state} (h : s.canonical) : (s.journalState p seq state).canonical :=
  .ite h.performWrites h

theorem State.canonical.sendJournal {p seq state c} (h : s.canonical) : (s.sendJournal p seq state c).canonical := h.same.post

theorem State.canonical.resolveFuture {p t va value c home} (h : s.canonical) : (s.resolveFuture p t va value c home).2.canonical
    := by
  unfold State.resolveFuture
  dsimp only
  split
  · exact h
  · split
    · exact h
    · split
      · exact h.fillFor
      · split
        · exact h.fillFor
        · split
          · exact .congr rfl h.fillFor.performWrites
          · exact h.fillFor.performWrites

theorem State.canonical.applyGroup {g} (h : s.canonical) : (s.applyGroup g).canonical := by
  unfold State.applyGroup
  extract_lets +onlyGivenNames r die bad
  split
  · exact h.schedError
  next key _ log _ =>
    extract_lets +onlyGivenNames s₁ live fl0 set1 fl1 fl2 complete fl3 traps put s₂ s₃
    have hput {u : State} {off n v} (hu : u.canonical) : (put u off n v).canonical := hu.performWrites
    have h₂ : s₂.canonical := hput (hput (hput h.fillFor))
    have h₃ : s₃.canonical := by
      unfold s₃
      split
      · exact hput h₂
      · exact h₂
    refine .ite ?_ h₃
    extract_lets +onlyGivenNames fut s₄ seq
    have h₄ : s₄.canonical := by
      unfold s₄
      split
      · exact h₃
      · split
        next res u he =>
        have hu := h₃.resolveFuture.of_snd he
        refine hput ?_
        split
        · exact hu
        · exact hput hu
        · exact (hput hu).schedError
        · exact (hput hu).schedError
    exact .ite h₄ h₄.sendJournal

theorem State.canonical.groupNow {g} (h : s.canonical) : (s.groupNow g).canonical := h.same.foldl fun _ _ h' => h'.applyGroup

theorem State.canonical.groupLater {g} (h : s.canonical) : (s.groupLater g).canonical := h.same

theorem State.canonical.liveNow {p t group delta c} (h : s.canonical) : (s.liveNow p t group delta c).canonical := by
  unfold State.liveNow
  split
  · exact h
  · exact h.groupNow

theorem State.canonical.layRing {p cl old new} (h : s.canonical) : (s.layRing p cl old new).canonical :=
  h.modCluster.foldl fun _ _ h' => h'.performWrites.performWrites

theorem State.canonical.setAll {cl all} (h : s.canonical) : (s.setAll cl all).canonical :=
  (State.canonical.ite h (h.foldl fun _ _ h' => h'.layRing)).modCluster

theorem State.canonical.enqueue {cl e} (h : s.canonical) : CanonicalOpt (s.enqueue cl e) := by
  unfold State.enqueue
  dsimp only
  split
  · exact .none
  · split
    · exact .none
    · exact .ite (.some h.freshNo.setAll) (.some h.freshNo.setAll.modCluster.schedError)

theorem State.canonical.queueRec {core e} (h : s.canonical) : CanonicalOpt (s.queueRec core e) := .ite (.some h.same) h.enqueue

theorem State.canonical.illFormed {r c} (h : s.canonical) : (s.illFormed r c).canonical := by
  unfold State.illFormed
  refine State.canonical.schedError ?_
  split
  · exact .ite h.groupLater h
  · exact h

theorem State.canonical.released {r c} (h : s.canonical) : CanonicalOpt (s.released r c) := .ite h.queueRec (.some h.illFormed)

theorem State.canonical.releaseStep {x} (h : s.canonical) : CanonicalOpt (s.releaseStep x) := by
  unfold State.releaseStep
  dsimp only
  split
  · exact .some h.schedError
  · split
    · exact .some h.schedError
    · split
      · split
        · exact .some (.ite h.fillFor.groupLater h.fillFor)
        · exact .some h.fillFor
      · exact .ite h.fillFor.performWrites.released (.some h.fillFor.performWrites)

theorem State.canonical.spawnStep {r c} (h : s.canonical) : CanonicalOptSnd (s.spawnStep r c) :=
  .ite (.some h) (.ite (.map fun _ ha => h.liveNow.queueRec _ ha) (.some h.liveNow))

theorem State.canonical.bindSlices {new l} (h : s.canonical) : CanonicalOpt (s.bindSlices new l) := by
  induction l with
  | nil => exact .none
  | cons g gs ih => exact .ite (.some h.same) ih

theorem State.canonical.admitGroups {p cls cl l} (h : s.canonical) : CanonicalOpt (s.admitGroups p cls cl l) := by
  induction l generalizing s with
  | nil => exact .some h
  | cons x xs ih =>
    unfold State.admitGroups
    split
    · exact .none
    next u hu => exact ih (h.bindSlices u hu)

theorem State.canonical.submitStep {p t cl gslot hdr recs} (h : s.canonical) : (s.submitStep p t cl gslot hdr recs).2.canonical :=
    by
  unfold State.submitStep
  dsimp only
  split
  · exact h
  · split
    · exact h.journalNew
    · split
      · exact h
      · exact (((h.admitGroups _ ‹_›).journalNew).of_snd ‹_›).groupNow

theorem State.canonical.setWindow {cl t submit v} (h : s.canonical) : (s.setWindow cl t submit v).canonical := h.modCluster

theorem State.canonical.windowFault {cl t addr submit} (h : s.canonical) : (s.windowFault cl t addr submit).canonical :=
  h.schedError.setWindow

theorem State.canonical.windowSpawn {cl t addr} (h : s.canonical) : CanonicalOpt (s.windowSpawn cl t addr) := by
  unfold State.windowSpawn
  dsimp only
  split
  · exact .some h.windowFault
  · split
    · exact .some h.windowFault
    · exact .map fun _ ha => (h.fillFor.spawnStep.eq_some ha).setWindow

theorem State.canonical.hwRecs {p t a n i} (h : s.canonical) : CanonicalOptSnd (s.hwRecs p t a n i) := by
  induction n generalizing s i with
  | zero => exact .some h
  | succ n ih =>
    unfold State.hwRecs
    split
    · exact .none
    · dsimp only
      split
      · exact .none
      next hr => exact .some (ih h.fillFor _ _ hr)

theorem State.canonical.windowSubmit {cl t addr} (h : s.canonical) : CanonicalOpt (s.windowSubmit cl t addr) := by
  unfold State.windowSubmit
  dsimp only
  split
  · exact .none
  · split
    · exact .some h.windowFault
    · split
      · exact .some h.windowFault
      · split
        · exact .some h.fillFor.windowFault
        · exact .some (((h.fillFor.hwRecs _ _ ‹_›).submitStep).setWindow)

/-! ### What `Flight` keeps -/

theorem State.canonical.mailboxArrive {c i w} (h : s.canonical) : (s.mailboxArrive c i w).canonical := h.modCore

theorem State.canonical.mbxpWrite {c m} (h : s.canonical) : (s.mbxpWrite c m).canonical := h.modCore

theorem State.canonical.cardState {c bs} (h : s.canonical) : (s.cardState c bs).canonical := by
  unfold State.cardState
  split
  · exact h
  · split
    · exact h.performWrites
    · exact h

theorem State.canonical.modTask {tid f} (h : s.canonical) : (s.modTask tid f).canonical := by
  unfold State.modTask
  dsimp only
  split
  · exact h.modSlot
  · exact h.same

theorem State.canonical.sendBack {r p t home} (h : s.canonical) : (s.sendBack r p t home).canonical := h.same.post

theorem State.canonical.answer {a} (h : s.canonical) : (s.answer a).canonical := h.respond

theorem State.canonical.sendReturn {a failed} (h : s.canonical) : (s.sendReturn a failed).canonical := .ite h.sendBack h.answer

theorem State.canonical.elemBack {a f} (h : s.canonical) : (s.elemBack a f).canonical := .ite h.modSlot h

theorem State.canonical.elemRead {a key n} (h : s.canonical) : (s.elemRead a key n).2.canonical := by
  unfold State.elemRead
  dsimp only
  split
  · exact h
  · split
    · exact h.same
    · exact h.fillFor

theorem State.canonical.performStore {a} (h : s.canonical) : (s.performStore a).canonical := by
  unfold State.performStore
  split
  · exact h.modTask
  · exact h.performWrites

theorem State.canonical.perform {a} (h : s.canonical) : CanonicalOpt (s.perform a) := by
  unfold State.perform
  dsimp only
  split
  · exact .some h.same.performStore.sendReturn
  · exact .some h.same.sendReturn
  · exact .some h.same.sendReturn
  · refine .some (State.canonical.answer ?_)
    split
    · exact h.same.fillFor.modQuad
    · exact h.same.fillFor.modQuad
  · exact .some h.same.elemRead.elemBack.answer
  · exact .ite (.some h.same.mbxpWrite.sendReturn) (.ite (.some h.same.mailboxArrive.sendReturn) (.some h.mailboxArrive))
  next cl t off v _ =>
    have hr : CanonicalOpt (if off = 0 then { s with flight := s.flight.filter fun x => x.id ≠ a.id }.windowSpawn cl t v
        else if off = 8 then { s with flight := s.flight.filter fun x => x.id ≠ a.id }.windowSubmit cl t v
        else some { s with flight := s.flight.filter fun x => x.id ≠ a.id }) :=
      .ite h.same.windowSpawn (.ite h.same.windowSubmit (.some h.same))
    exact .map fun u hu => (hr u hu).sendReturn
  · exact .some h.same.journalState.answer

theorem State.canonical.landed {id} (h : s.canonical) : (s.landed id).canonical := by
  unfold State.landed
  split
  · exact h.same
  · exact h.same.modCore
  · exact h

theorem State.canonical.performAll {l} (h : s.canonical) : CanonicalOpt (s.performAll l) := by
  induction l generalizing s with
  | nil => exact .some h
  | cons a as ih =>
    unfold State.performAll
    split
    · split
      next u hu => exact .ite .none (ih (h.perform u hu))
      · exact .none
    · exact .none

theorem force_keeps {f} : Keeps (force f) := by
  unfold force
  refine .get fun _ h => ?_
  split
  · exact .set (h.performAll _ ‹_›)
  · exact block_keeps

theorem forceHome_keeps {h₁} : Keeps (forceHome h₁) := .get fun _ _ => .bind await_keeps fun _ => force_keeps

theorem homeReady_keeps {h₁} : Keeps (homeReady h₁) := .get fun _ _ => await_keeps

theorem acquire_keeps : Keeps acquire := .modify fun _ h => h.modCore

theorem fenceRel_keeps {sc} : Keeps (fenceRel sc) := .get fun _ _ => modSlot_keeps

theorem relHolds_keeps : Keeps relHolds := .get fun _ _ => .pure _

theorem releaseWait_keeps : Keeps releaseWait := .bind relHolds_keeps fun _ => force_keeps

theorem releaseAt_keeps {sc} : Keeps (releaseAt sc) := .bind fenceRel_keeps fun _ => releaseWait_keeps

theorem notLatent_keeps : Keeps notLatent := by
  unfold notLatent
  refine .bind getSlot_keeps fun _ => ?_
  split
  · exact .throw trivial
  · exact .pure _

theorem notAcrossDies_keeps {home v} : Keeps (notAcrossDies home v) := .get fun _ _ => require_keeps

theorem beforeRead_keeps {p n} : Keeps (beforeRead p n) :=
  .get fun _ _ => .bind await_keeps fun _ => .bind forceHome_keeps fun _ => homeReady_keeps

theorem readBytes_keeps {key n} : Keeps (readBytes key n) := by
  unfold readBytes
  refine .get fun _ h => .bind await_keeps fun _ => .bind (.modify fun _ h' => h'.fillFor) fun _ => .get fun _ h' => ?_
  split
  · exact trap_keeps
  · exact .pure _

theorem look_keeps {r n} : Keeps (look r n) := .bind readBytes_keeps fun _ => .get fun _ _ => .pure _

theorem inStep_keeps {i m} (hm : Keeps m) : Keeps (inStep i m) := by
  refine .bind getSlot_keeps fun x => ?_
  split
  · exact .pure _
  · exact .bind hm fun _ => .bind modSlot_keeps fun _ => .get fun _ hu => .throw hu

theorem forget_keeps : Keeps forget := modSlot_keeps

theorem readAgain_keeps : Keeps readAgain := .bind forget_keeps fun _ => .get fun _ h => .throw h

theorem remoteRound_keeps {h₁} : Keeps (remoteRound h₁) := by
  unfold remoteRound
  refine .get fun _ h => ?_
  dsimp only
  split
  · exact .ite (.bind await_keeps fun _ => modSlot_keeps) (.bind (.throw trivial) fun _ => modSlot_keeps)
  · exact .throw trivial

theorem remoteAnswer_keeps {cur n} : Keeps (remoteAnswer cur n) := by
  unfold remoteAnswer
  refine .get fun _ h => .bind require_keeps fun _ => .bind remoteRound_keeps fun _ => .get fun _ h' =>
      .bind (.set h'.same) fun _ => ?_
  split
  · exact trap_keeps
  · exact trap_keeps
  · exact trap_keeps
  · exact .pure _

theorem readPlace_keeps {p n} : Keeps (readPlace p n) := by
  unfold readPlace
  refine .bind beforeRead_keeps fun _ => ?_
  split
  · exact .bind readBytes_keeps fun _ => .pure _
  · exact .get fun _ _ => .pure _
  · exact .bind remoteAnswer_keeps fun _ => .get fun _ _ => .pure _

theorem place_keeps {k v n nd bits} : Keeps (place k v n nd bits) := .bind checkCap_keeps fun _ => .get fun _ _ => locate_keeps

theorem loadAny_keeps {k v n nd bits} : Keeps (loadAny k v n nd bits) := .bind place_keeps fun _ => readPlace_keeps

theorem storeSlot_keeps : Keeps storeSlot := by
  unfold storeSlot
  refine .get fun _ h => ?_
  split
  · exact .pure _
  · exact await_keeps

theorem State.canonical.launchAccess {a} (h : s.canonical) : (s.launchAccess a).canonical := h.same.post

theorem send_keeps {instr kind home ws tagKey holds va n rst} : Keeps (send instr kind home ws tagKey holds va n rst) := by
  unfold send
  refine .bind newNo_keeps fun _ => .get fun _ h => ?_
  dsimp only
  split
  · exact .set h.launchAccess
  · exact .ite (.throw trivial) (.set h.same)

theorem storeKind_keeps {p v value} : Keeps (storeKind p v value) := by
  unfold storeKind
  split
  · exact .pure _
  · exact .pure _
  · split
    · exact .pure _
    · exact .pure _
    · exact trap_keeps

theorem storePlace_keeps {p instr v bs tag rst} : Keeps (storePlace p instr v bs tag rst) := by
  unfold storePlace
  refine .get fun _ h => .bind relHolds_keeps fun _ => .bind storeKind_keeps fun _ => .bind getSlot_keeps fun _ => ?_
  split
  · exact send_keeps
  · exact send_keeps
  · split
    · exact send_keeps
    · split
      · exact send_keeps
      · exact .bind releaseWait_keeps fun _ => .bind await_keeps fun _ => .bind forceHome_keeps fun _ =>
            .bind notAcrossDies_keeps fun _ => .bind remoteAnswer_keeps fun _ => .pure _

theorem storeVia_keeps {k v n value} : Keeps (storeVia k v n value) :=
  .bind place_keeps fun _ => .bind storeSlot_keeps fun _ => .bind newNo_keeps fun _ => storePlace_keeps

/-! ### What `Tasks` keeps -/

theorem beforeLive_keeps {group} : Keeps (beforeLive group) := by
  unfold beforeLive
  refine .get fun _ h => ?_
  split
  · exact .pure _
  · split
    · exact .pure _
    · exact .bind await_keeps fun _ => .bind forceHome_keeps fun _ => homeReady_keeps

theorem raiseLive_keeps {group delta} : Keeps (raiseLive group delta) :=
  .bind beforeLive_keeps fun _ => .get fun _ h => .set h.liveNow

theorem State.canonical.startRec {g r item count f} (h : s.canonical) : (s.startRec g r item count f).canonical :=
  h.freshNo.setSlot.modCore

theorem State.canonical.journalStarted {r} (h : s.canonical) : (s.journalStarted r).canonical := by
  unfold State.journalStarted
  dsimp only
  split
  · exact h
  · split
    · exact h
    · exact .ite h.journalState h

theorem State.canonical.modLaunch {id f} (h : s.canonical) : (s.modLaunch id f).canonical := h.same

theorem State.canonical.statusStep {l f} (h : s.canonical) : (s.statusStep l f).canonical :=
  .ite h.fillFor.schedError h.fillFor.performWrites

theorem State.canonical.startTile {g l i} (h : s.canonical) : (s.startTile g l i).canonical := by
  unfold State.startTile
  exact State.canonical.startRec h.freshNo.same

theorem State.canonical.startExact {g l i} (h : s.canonical) : (s.startExact g l i).canonical := h.startRec

theorem State.canonical.failTile {t l reason} (h : s.canonical) : CanonicalOpt (s.failTile t l reason) := by
  unfold State.failTile
  extract_lets +onlyGivenNames s₁ s₂ s₃ s₄
  have h₄ : s₄.canonical := h.same.modTask.statusStep.modLaunch
  exact .ite (.some h₄.same) h₄.enqueue

theorem State.canonical.quitPair {c} (h : s.canonical) : (s.quitPair c).canonical := by
  unfold State.quitPair
  split
  · exact h
  · exact .ite h h.modQuad

theorem State.canonical.discardUnbound {tid} (h : s.canonical) : (s.discardUnbound tid).canonical := h.same

theorem State.canonical.returnBorrow {g} (h : s.canonical) : (s.returnBorrow g).canonical := by
  unfold State.returnBorrow
  dsimp only
  split
  · exact h
  · exact h.setSlot.modSlot

theorem State.canonical.startCheck {g l t} (h : s.canonical) : (s.startCheck g l t).canonical :=
  h.returnBorrow.discardUnbound.startRec

theorem State.canonical.leaves {g keep} (h : s.canonical) : (s.leaves g keep).canonical := h.modQuad

theorem State.canonical.commitTile {g t} (h : s.canonical) : (s.commitTile g t).canonical :=
  (h.same.foldl fun _ _ h' => h'.launchAccess).modSlot

theorem State.canonical.finishTile {g t l} (h : s.canonical) : (s.finishTile g t l).canonical :=
  h.same.statusStep.modLaunch.returnBorrow.discardUnbound.leaves.setSlot.liveNow

theorem State.canonical.settleCommit {g} (h : s.canonical) : (s.settleCommit g).canonical := by
  unfold State.settleCommit
  split
  · exact (CanonicalOpt.map fun _ _ => h.finishTile).getD h
  · exact h

theorem State.canonical.endTask {g trapped} (h : s.canonical) : (s.endTask g trapped).canonical := by
  unfold State.endTask
  dsimp only
  split
  · refine (State.canonical.leaves ?_).setSlot
    split
    · split
      · exact h.returnBorrow.discardUnbound.statusStep.modLaunch
      · exact h.returnBorrow.discardUnbound
    · exact h.returnBorrow.discardUnbound
  · refine ((State.canonical.leaves ?_).setSlot).groupNow
    split
    · split
      · exact h.returnBorrow.discardUnbound.statusStep.modLaunch
      · exact h.returnBorrow.discardUnbound
    · exact h.returnBorrow.discardUnbound

theorem State.canonical.endMessage {g failed} (h : s.canonical) : (s.endMessage g failed).canonical := by
  unfold State.endMessage
  dsimp only
  split
  · exact h.returnBorrow.leaves.setSlot.quitPair
  · exact h.returnBorrow.leaves.setSlot.quitPair.sendBack

theorem State.canonical.stopZero {g} (h : s.canonical) : (s.stopZero g).canonical := h.modSlot.quitPair

theorem State.canonical.drain {g} (h : s.canonical) : CanonicalOpt (s.drain g) :=
  .ite .none (.filter h.performAll)

theorem State.canonical.failPhase {g reason} (h : s.canonical) : CanonicalOpt (s.failPhase g reason) := by
  unfold State.failPhase
  dsimp only
  split
  · exact .some h
  · split
    · exact .some h
    · exact .none
    · exact .ite .none (.map fun _ ha => (((((h.performAll _ ‹_›).failTile _ ha).returnBorrow).discardUnbound).leaves).setSlot)

/-! ### What `Ops` keeps -/

theorem State.canonical.complete {g len} (h : s.canonical) : (s.complete g len).canonical := h.modSlot

theorem State.canonical.completeWith {g len d v} (h : s.canonical) : (s.completeWith g len d v).canonical := h.modSlot

theorem State.canonical.noteIssue (h : s.canonical) : s.noteIssue.canonical :=
  State.canonical_congr s.noteIssue_mem s.noteIssue_tags s.noteIssue_poison h

theorem State.canonical.passOver (h : s.canonical) : s.passOver.canonical :=
  State.canonical_congr s.passOver_mem s.passOver_tags s.passOver_poison h

theorem State.canonical.passFirm (h : s.canonical) : s.passFirm.canonical :=
  State.canonical_congr s.passFirm_mem s.passFirm_tags s.passFirm_poison h

theorem State.canonical.ask {h₁} (h : s.canonical) : (s.ask h₁).canonical := by
  unfold State.ask
  dsimp only
  exact .ite h.same.modSlot.post (.congr rfl h.same.modSlot.post)

theorem State.canonical.stepped (h : t.canonical) : (s.stepped t).canonical := by
  unfold State.stepped
  exact State.canonical.passOver h.same

theorem State.canonical.unhandled {g c tval ilen} (h : s.canonical) : CanonicalOpt (s.unhandled g c tval ilen) := by
  unfold State.unhandled
  dsimp only
  split
  · exact h.failPhase
  · split
    · exact .none
    · exact .some (.ite ((((h.drain _ ‹_›).setSlot).errorRecord).stopZero) (.ite ((((h.drain _
          ‹_›).setSlot).errorRecord).endMessage) ((((h.drain _ ‹_›).setSlot).errorRecord).endTask)))

theorem State.canonical.takeTrap {g c tval ilen} (h : s.canonical) : CanonicalOpt (s.takeTrap g c tval ilen) :=
  .ite (.some h.modSlot) h.unhandled

theorem checkTarget_keeps {k t} : Keeps (checkTarget k t) := require_keeps

theorem returnFromTrap_keeps : Keeps returnFromTrap :=
  .bind getSlot_keeps fun _ => .bind require_keeps fun _ => .bind checkTarget_keeps fun _ => .bind modSlot_keeps fun _ => .pure _

theorem unlessBad_keeps : Keeps (unlessBad s) := by
  unfold unlessBad
  split
  · exact trap_keeps
  · exact .pure _

theorem State.canonical.settle {len x2} (h : s.canonical) : (s.settle len x2).canonical := by
  unfold State.settle
  split
  · exact h.modSlot
  · exact h.modSlot
  · exact h
  · exact h

theorem State.canonical.runInstr {len m} (h : s.canonical) (hm : Keeps m) : CanonicalOut (Machine.runInstr len m s) := by
  have hr := hm _ h.noteIssue
  unfold Machine.runInstr
  split
  next hok => rw [hok] at hr; exact .next (State.canonical.settle hr)
  · exact .next h.passOver
  · exact .next h.passFirm
  · exact .next h.passOver.ask
  next hagain => rw [hagain] at hr; exact .next (State.canonical.stepped hr)
  · split
    next ht => exact .next (h.noteIssue.takeTrap _ ht)
    · exact .next h.passOver
  · split
    next ht => exact .next (h.noteIssue.failPhase _ ht)
    · exact .next h.passOver

/-! ### What `Operands` keeps -/

theorem src_keeps {a} : Keeps (src a) := by
  unfold src
  refine .bind getSlot_keeps fun _ => ?_
  split
  · exact .pure _
  · exact block_keeps

theorem dst_keeps {d v} : Keeps (dst d v) := modSlot_keeps

theorem kreg_keeps {i} : Keeps (kreg i) := .bind getSlot_keeps fun _ => .pure _

theorem setK_keeps {i c} : Keeps (setK i c) := modSlot_keeps

theorem privileged_keeps {tval} : Keeps (privileged tval) := .bind getSlot_keeps fun _ => require_keeps

theorem slotNumber_keeps : Keeps slotNumber := .get fun _ _ => .pure _

theorem roleIs_keeps {f tval} : Keeps (roleIs f tval) := .bind slotNumber_keeps fun _ => require_keeps

/-! ### What `Memory` keeps -/

theorem readCached_keeps {va key p} : Keeps (readCached va key p) := by
  refine .get fun s h => ?_
  dsimp only
  split
  · exact .pure _
  · refine .bind beforeRead_keeps fun _ => .bind readBytes_keeps fun _ => .bind (.modify fun u hu => ?_) fun _ => .pure _
    split
    · exact hu.modCore
    · exact hu.same

theorem loadTyped_keeps {type k v} : Keeps (loadTyped type k v) := by
  unfold loadTyped
  refine .bind place_keeps fun _ => .bind notAcrossDies_keeps fun _ => .bind getSlot_keeps fun _ => ?_
  split
  · exact .ite (.bind readCached_keeps fun _ => .pure _) (.bind readPlace_keeps fun _ => .pure _)
  · exact .bind readPlace_keeps fun _ => .pure _

theorem execLd_canonical {type d k off} (h : s.canonical) : CanonicalOut (execLd type d k off s) :=
  h.runInstr (.bind kreg_keeps fun _ => .bind loadTyped_keeps fun _ => .bind dst_keeps fun _ => .pure _)

theorem execLdx_canonical {type acq d k i scale} (h : s.canonical) : CanonicalOut (execLdx type acq d k i scale s) :=
  h.runInstr (.bind src_keeps fun _ => .bind kreg_keeps fun _ => .bind loadTyped_keeps fun _ => .bind dst_keeps fun _ =>
      .ite (.bind acquire_keeps fun _ => .pure _) (.pure _))

theorem storeSized_keeps {size rel k v a} : Keeps (storeSized size rel k v a) :=
  .ite (.bind fenceRel_keeps fun _ => .bind storeVia_keeps fun _ => .pure _) (.bind storeVia_keeps fun _ => .pure _)

theorem execSt_canonical {size rel k off a} (h : s.canonical) : CanonicalOut (execSt size rel k off a s) :=
  h.runInstr (.bind src_keeps fun _ => .bind kreg_keeps fun _ => storeSized_keeps)

theorem execStx_canonical {size rel k i scale a} (h : s.canonical) : CanonicalOut (execStx size rel k i scale a s) :=
  h.runInstr (.bind src_keeps fun _ => .bind src_keeps fun _ => .bind kreg_keeps fun _ => storeSized_keeps)

theorem farTag_keeps {cur m} : Keeps (farTag cur m) := .get fun _ h => .bind (.set h.same) fun _ => .pure _

theorem execLdc_canonical {kd k off} (h : s.canonical) : CanonicalOut (execLdc kd k off s) := by
  unfold execLdc
  refine h.runInstr (.bind kreg_keeps fun _ => .bind place_keeps fun _ => .bind notAcrossDies_keeps fun _ =>
      .bind readPlace_keeps fun _ => .get fun _ h' => ?_)
  dsimp only
  split
  · exact .bind (.pure _) fun _ => .bind setK_keeps fun _ => .pure _
  · exact .bind farTag_keeps fun _ => .bind (.pure _) fun _ => .bind setK_keeps fun _ => .pure _
  · exact .bind (.pure _) fun _ => .bind setK_keeps fun _ => .pure _

theorem execStc_canonical {k off kd} (h : s.canonical) : CanonicalOut (execStc k off kd s) := by
  unfold execStc
  refine h.runInstr (.bind kreg_keeps fun _ => .bind kreg_keeps fun _ => .bind place_keeps fun _ =>
      .ite (.bind require_keeps fun _ => .bind require_keeps fun _ => .bind require_keeps fun _ =>
      ?_) (.bind storeSlot_keeps fun _ => .bind newNo_keeps fun _ => .bind storePlace_keeps fun _ => .pure _))
  dsimp only
  split
  · exact .bind require_keeps fun _ => .bind storeSlot_keeps fun _ => .bind newNo_keeps fun _ => .bind storePlace_keeps fun _ =>
        .pure _
  · exact .bind storeSlot_keeps fun _ => .bind newNo_keeps fun _ => .bind storePlace_keeps fun _ => .pure _

theorem fullFence_keeps {sc} : Keeps (fullFence sc) :=
  .get fun _ _ => .bind force_keeps fun _ => .get fun _ _ => .bind await_keeps fun _ => acquire_keeps

theorem fence_keeps {kind sc} : Keeps (fence kind sc) := by
  unfold fence
  dsimp only
  split
  · exact .bind fullFence_keeps fun _ => .pure _
  · exact .bind acquire_keeps fun _ => .pure _
  · exact .bind fenceRel_keeps fun _ => .pure _

theorem execFence_canonical {kind scope} (h : s.canonical) : CanonicalOut (execFence kind scope s) := h.runInstr fence_keeps

theorem execFenceCoreC_canonical (h : s.canonical) : CanonicalOut (execFenceCoreC s) := h.runInstr fence_keeps

theorem execEfence_canonical (h : s.canonical) : CanonicalOut (execEfence s) :=
  h.runInstr (.get fun _ _ => .bind await_keeps fun _ => .bind acquire_keeps fun _ => .pure _)

theorem execIfence_canonical (h : s.canonical) : CanonicalOut (execIfence s) :=
  h.runInstr (.bind fullFence_keeps fun _ => .bind (.modify fun _ h' => h'.modCore) fun _ => .pure _)

theorem State.canonical.pageWalk {core tenant va} (h : s.canonical) : CanonicalOpt (s.pageWalk core tenant va) := by
  unfold State.pageWalk
  dsimp only
  split
  · split
    · refine .some ?_
      split
      · exact h.same.cacheLeaf
      · exact h.same
    · exact .ite .none (.some h.same)
  · exact .none

theorem execPageWalk_canonical {core tenant va} (h : s.canonical) : CanonicalOut (execPageWalk core tenant va s) :=
  .event h.pageWalk

/-! ### What `Atomic` keeps -/

theorem atomicAt_keeps {op p n v c} : Keeps (atomicAt op p n v c) := by
  unfold atomicAt
  refine .get fun _ h => .bind await_keeps fun _ => .bind forceHome_keeps fun _ => .bind homeReady_keeps fun _ => ?_
  dsimp only
  split
  · refine .bind readBytes_keeps fun _ => .get fun _ h' => ?_
    split
    · exact .bind (.set h'.performWrites) fun _ => .bind setFlags_keeps fun _ => .pure _
    · exact .bind (.set h'.clearTag) fun _ => .bind setFlags_keeps fun _ => .pure _
  · exact .bind remoteAnswer_keeps fun _ => .bind setFlags_keeps fun _ => .pure _
  · exact trap_keeps

theorem atomic_keeps {op wide order d k off} : Keeps (atomic op wide order d k off) :=
  .bind notLatent_keeps fun _ => .bind getSlot_keeps fun _ => .bind kreg_keeps fun _ => .bind place_keeps fun _ =>
      .bind notAcrossDies_keeps fun _ => .ite (.bind fenceRel_keeps fun _ => .bind releaseWait_keeps fun _ =>
      .bind atomicAt_keeps fun _ => .bind dst_keeps fun _ => .ite (.bind acquire_keeps fun _ =>
      .pure _) (.pure _)) (.bind releaseWait_keeps fun _ => .bind atomicAt_keeps fun _ => .bind dst_keeps fun _ =>
      .ite (.bind acquire_keeps fun _ => .pure _) (.pure _))

theorem execAadd_canonical {wide order d k off} (h : s.canonical) : CanonicalOut (execAadd wide order d k off s) :=
  h.runInstr atomic_keeps

theorem execAand_canonical {wide order d k off} (h : s.canonical) : CanonicalOut (execAand wide order d k off s) :=
  h.runInstr atomic_keeps

theorem execAor_canonical {wide order d k off} (h : s.canonical) : CanonicalOut (execAor wide order d k off s) :=
  h.runInstr atomic_keeps

theorem execAxor_canonical {wide order d k off} (h : s.canonical) : CanonicalOut (execAxor wide order d k off s) :=
  h.runInstr atomic_keeps

theorem execAmin_canonical {wide order d k off} (h : s.canonical) : CanonicalOut (execAmin wide order d k off s) :=
  h.runInstr atomic_keeps

theorem execAmax_canonical {wide order d k off} (h : s.canonical) : CanonicalOut (execAmax wide order d k off s) :=
  h.runInstr atomic_keeps

theorem execAminu_canonical {wide order d k off} (h : s.canonical) : CanonicalOut (execAminu wide order d k off s) :=
  h.runInstr atomic_keeps

theorem execAmaxu_canonical {wide order d k off} (h : s.canonical) : CanonicalOut (execAmaxu wide order d k off s) :=
  h.runInstr atomic_keeps

theorem execAswp_canonical {wide order d k off} (h : s.canonical) : CanonicalOut (execAswp wide order d k off s) :=
  h.runInstr atomic_keeps

theorem execAcas_canonical {wide order d k off} (h : s.canonical) : CanonicalOut (execAcas wide order d k off s) :=
  h.runInstr atomic_keeps

theorem execAfadd_canonical {wide order d k off} (h : s.canonical) : CanonicalOut (execAfadd wide order d k off s) :=
  h.runInstr atomic_keeps

/-! ### What `Capability` keeps -/

theorem capGet_keeps {d ka f} : Keeps (capGet d ka f) := .bind kreg_keeps fun _ => .bind dst_keeps fun _ => .pure _

theorem execCgeta_canonical {d ka} (h : s.canonical) : CanonicalOut (execCgeta d ka s) := h.runInstr capGet_keeps

theorem execCgetb_canonical {d ka} (h : s.canonical) : CanonicalOut (execCgetb d ka s) := h.runInstr capGet_keeps

theorem execCgetl_canonical {d ka} (h : s.canonical) : CanonicalOut (execCgetl d ka s) := h.runInstr capGet_keeps

theorem execCgetp_canonical {d ka} (h : s.canonical) : CanonicalOut (execCgetp d ka s) := h.runInstr capGet_keeps

theorem execCtag_canonical {d ka} (h : s.canonical) : CanonicalOut (execCtag d ka s) := h.runInstr capGet_keeps

theorem execCmov_canonical {kd ka} (h : s.canonical) : CanonicalOut (execCmov kd ka s) :=
  h.runInstr (.bind kreg_keeps fun _ => .bind setK_keeps fun _ => .pure _)

theorem execCclr_canonical {kd} (h : s.canonical) : CanonicalOut (execCclr kd s) := h.runInstr (.bind setK_keeps fun _ => .pure _)

theorem moveCursor_keeps {k v} : Keeps (moveCursor k v) :=
  .bind require_keeps fun _ => .bind require_keeps fun _ => .bind require_keeps fun _ => .pure _

theorem execCseta_canonical {kd ka b} (h : s.canonical) : CanonicalOut (execCseta kd ka b s) :=
  h.runInstr (.bind src_keeps fun _ => .bind kreg_keeps fun _ => .bind moveCursor_keeps fun _ => .bind setK_keeps fun _ => .pure _)

theorem execCinc_canonical {kd ka b} (h : s.canonical) : CanonicalOut (execCinc kd ka b s) :=
  h.runInstr (.bind src_keeps fun _ => .bind kreg_keeps fun _ => .bind moveCursor_keeps fun _ => .bind setK_keeps fun _ => .pure _)

theorem execCbound_canonical {exact kd ka b} (h : s.canonical) : CanonicalOut (execCbound exact kd ka b s) :=
  h.runInstr (.bind src_keeps fun _ => .bind kreg_keeps fun _ => .bind require_keeps fun _ => .bind require_keeps fun _ =>
      .bind require_keeps fun _ => .bind setK_keeps fun _ => .pure _)

theorem execCperm_canonical {kd ka b} (h : s.canonical) : CanonicalOut (execCperm kd ka b s) :=
  h.runInstr (.bind src_keeps fun _ => .bind kreg_keeps fun _ => .bind require_keeps fun _ => .bind setK_keeps fun _ => .pure _)

theorem execCgen_canonical {kd ka} (h : s.canonical) : CanonicalOut (execCgen kd ka s) := by
  unfold execCgen
  refine h.runInstr (.bind kreg_keeps fun _ => .get fun _ h' => .bind require_keeps fun _ => .bind require_keeps fun _ => ?_)
  dsimp only
  split
  · exact .bind setK_keeps fun _ => .pure _
  · exact .bind trap_keeps fun _ => .pure _

theorem execCeq_canonical {d ka kb} (h : s.canonical) : CanonicalOut (execCeq d ka kb s) :=
  h.runInstr (.bind kreg_keeps fun _ => .bind kreg_keeps fun _ => .bind dst_keeps fun _ => .pure _)

theorem execCsub_canonical {d ka kb} (h : s.canonical) : CanonicalOut (execCsub d ka kb s) :=
  h.runInstr (.bind kreg_keeps fun _ => .bind kreg_keeps fun _ => .bind require_keeps fun _ => .bind dst_keeps fun _ => .pure _)

theorem poolCap_keeps {bits c addr} : Keeps (poolCap bits c addr) :=
  .bind require_keeps fun _ => .bind require_keeps fun _ => .pure _

theorem loadImage_keeps {i pcc v n} : Keeps (loadImage i pcc v n) := by
  unfold loadImage
  refine .bind (inStep_keeps ?_) fun _ => .pure _
  exact .bind loadAny_keeps fun _ => .pure _

theorem loadPool_keeps {i pcc idx} : Keeps (loadPool i pcc idx) :=
  .bind loadImage_keeps fun _ => .bind require_keeps fun _ => .bind loadImage_keeps fun _ => .get fun _ _ => poolCap_keeps

theorem execLdk_canonical {kd idx} (h : s.canonical) : CanonicalOut (execLdk kd idx s) :=
  h.runInstr (.bind getSlot_keeps fun _ => .bind loadPool_keeps fun _ => .bind forget_keeps fun _ => .bind setK_keeps fun _ =>
      .pure _)

/-! ### What `Fetch` keeps -/

theorem State.canonical.bufferBlock {c b} (h : s.canonical) : (s.bufferBlock c b).canonical := by
  unfold State.bufferBlock
  split
  · exact h.modCore
  · exact h.same

theorem fetchBlock_keeps {a} : Keeps (fetchBlock a) := by
  unfold fetchBlock
  refine .get fun _ h => ?_
  dsimp only
  split
  · exact .pure _
  · refine .bind locate_keeps fun _ => ?_
    split
    · exact .get fun _ h' => .bind await_keeps fun _ => .bind require_keeps fun _ => .bind (.set h'.fillFor.bufferBlock) fun _ =>
          .pure _
    · exact trap_keeps

theorem fetchHalf_keeps {a} : Keeps (fetchHalf a) := .bind fetchBlock_keeps fun _ => .pure _

theorem fetch_keeps {a n} : Keeps (fetch a n) :=
  .bind getSlot_keeps fun _ => .bind checkCap_keeps fun _ => .bind fetchHalf_keeps fun _ =>
      .ite (.pure _) (.bind fetchHalf_keeps fun _ => .pure _)

theorem fetchBytes_keeps {pc} : Keeps (fetchBytes pc) :=
  .bind fetch_keeps fun _ => .ite (.pure _) (.bind fetch_keeps fun _ => .ite (.pure _) (.bind fetch_keeps fun _ =>
      .ite (.pure _) (.bind fetch_keeps fun _ => .pure _)))

theorem State.canonical.fetchDecode (h : s.canonical) : s.fetchDecode.2.canonical := by
  have hf := fetchBytes_keeps (pc := (s.slot s.cur).pc) s h
  unfold State.fetchDecode
  split
  · exact h
  · exact h
  next hr =>
    rw [hr] at hf
    split
    · exact hf
    · exact hf
    · exact hf
    · exact hf

/-! ### What `Control` keeps -/

theorem relTarget_keeps {off} : Keeps (relTarget off) := .bind getSlot_keeps fun _ => .pure _

theorem takeBranch_keeps {off} : Keeps (takeBranch off) :=
  .bind getSlot_keeps fun _ => .bind relTarget_keeps fun _ => .bind checkTarget_keeps fun _ => .bind modSlot_keeps fun _ => .pure _

theorem branch_keeps {taken off} : Keeps (branch taken off) := .ite (takeBranch_keeps) (.pure _)

theorem branchCond_keeps {cc a b off} : Keeps (branchCond cc a b off) :=
  .bind src_keeps fun _ => .bind src_keeps fun _ => branch_keeps

theorem execBeq_canonical {a b off} (h : s.canonical) : CanonicalOut (execBeq a b off s) := h.runInstr branchCond_keeps

theorem execBne_canonical {a b off} (h : s.canonical) : CanonicalOut (execBne a b off s) := h.runInstr branchCond_keeps

theorem execBlt_canonical {a b off} (h : s.canonical) : CanonicalOut (execBlt a b off s) := h.runInstr branchCond_keeps

theorem execBge_canonical {a b off} (h : s.canonical) : CanonicalOut (execBge a b off s) := h.runInstr branchCond_keeps

theorem execBltu_canonical {a b off} (h : s.canonical) : CanonicalOut (execBltu a b off s) := h.runInstr branchCond_keeps

theorem execBgeu_canonical {a b off} (h : s.canonical) : CanonicalOut (execBgeu a b off s) := h.runInstr branchCond_keeps

theorem execBbs_canonical {a b off} (h : s.canonical) : CanonicalOut (execBbs a b off s) := h.runInstr branchCond_keeps

theorem execBbc_canonical {a b off} (h : s.canonical) : CanonicalOut (execBbc a b off s) := h.runInstr branchCond_keeps

theorem branchZero_keeps {z a off} : Keeps (branchZero z a off) := .bind src_keeps fun _ => branch_keeps

theorem execBez_canonical {a off} (h : s.canonical) : CanonicalOut (execBez a off s) := h.runInstr branchZero_keeps

theorem execBnz_canonical {a off} (h : s.canonical) : CanonicalOut (execBnz a off s) := h.runInstr branchZero_keeps

theorem execBezC_canonical {off} (h : s.canonical) : CanonicalOut (execBezC off s) := h.runInstr branchZero_keeps

theorem execBnzC_canonical {off} (h : s.canonical) : CanonicalOut (execBnzC off s) := h.runInstr branchZero_keeps

theorem guardValue_keeps {g tval} : Keeps (guardValue g tval) := by
  unfold guardValue
  refine .bind getSlot_keeps fun _ => ?_
  split
  · exact .pure _
  · exact block_keeps
  · exact trap_keeps

theorem execBgs_canonical {g off} (h : s.canonical) : CanonicalOut (execBgs g off s) :=
  h.runInstr (.bind guardValue_keeps fun _ => branch_keeps)

theorem execBgc_canonical {g off} (h : s.canonical) : CanonicalOut (execBgc g off s) :=
  h.runInstr (.bind guardValue_keeps fun _ => branch_keeps)

theorem execJ_canonical {off} (h : s.canonical) : CanonicalOut (execJ off s) := h.runInstr takeBranch_keeps

theorem execJC_canonical {off} (h : s.canonical) : CanonicalOut (execJC off s) := h.runInstr takeBranch_keeps

theorem link_keeps : Keeps link := modSlot_keeps

theorem execCall_canonical {off} (h : s.canonical) : CanonicalOut (execCall off s) :=
  h.runInstr (.bind getSlot_keeps fun _ => .bind relTarget_keeps fun _ => .bind checkTarget_keeps fun _ =>
      .bind link_keeps fun _ => .pure _)

theorem checkCode_keeps {k} : Keeps (checkCode k) :=
  .bind require_keeps fun _ => .bind require_keeps fun _ => .bind require_keeps fun _ => .bind require_keeps fun _ =>
      checkTarget_keeps

theorem jumpCap_keeps {i} : Keeps (jumpCap i) :=
  .bind kreg_keeps fun _ => .bind checkCode_keeps fun _ => .bind modSlot_keeps fun _ => .pure _

theorem execJk_canonical {k} (h : s.canonical) : CanonicalOut (execJk k s) := h.runInstr jumpCap_keeps

theorem execRetC_canonical (h : s.canonical) : CanonicalOut (execRetC s) := h.runInstr jumpCap_keeps

theorem execCallk_canonical {k} (h : s.canonical) : CanonicalOut (execCallk k s) :=
  h.runInstr (.bind kreg_keeps fun _ => .bind checkCode_keeps fun _ => .bind link_keeps fun _ => .bind modSlot_keeps fun _ =>
      .pure _)

theorem execNop_canonical (h : s.canonical) : CanonicalOut (execNop s) := h.runInstr (.pure _)

theorem loopPast_keeps {off tval} : Keeps (loopPast off tval) :=
  .bind getSlot_keeps fun _ => .bind require_keeps fun _ => .bind fetch_keeps fun _ => .pure _

theorem openLoop_keeps {off past n} : Keeps (openLoop off past n) :=
  .bind getSlot_keeps fun _ => .ite (.pure _) (.bind modSlot_keeps fun _ => .pure _)

theorem execLoop_canonical {a off} (h : s.canonical) : CanonicalOut (execLoop a off s) :=
  h.runInstr (.bind src_keeps fun _ => .bind loopPast_keeps fun _ => openLoop_keeps)

theorem execLoopm_canonical {i off} (h : s.canonical) : CanonicalOut (execLoopm i off s) :=
  h.runInstr (.bind loopPast_keeps fun _ => .get fun _ h' => .bind await_keeps fun _ => .bind (.set h'.mbxpWrite) fun _ =>
      openLoop_keeps)

theorem execLoopi_canonical {cnt off} (h : s.canonical) : CanonicalOut (execLoopi cnt off s) :=
  h.runInstr (.bind loopPast_keeps fun _ => openLoop_keeps)

theorem execLexit_canonical (h : s.canonical) : CanonicalOut (execLexit s) := by
  unfold execLexit
  refine h.runInstr (.bind getSlot_keeps fun _ => ?_)
  split
  · exact trap_keeps
  · exact .bind modSlot_keeps fun _ => .pure _

theorem setGuard_keeps {g v} : Keeps (setGuard g v) := .bind modSlot_keeps fun _ => .pure _

theorem State.canonical.bindCards {g i v} (h : s.canonical) : (s.bindCards g i v).canonical := by
  unfold State.bindCards
  dsimp only
  exact .ite h (.congr rfl (h.foldl fun _ _ h' => h'.cardState))

theorem guardSet_keeps {neg cc g a b} : Keeps (guardSet neg cc g a b) := by
  unfold guardSet
  refine .bind getSlot_keeps fun _ => ?_
  dsimp only
  split
  · exact .bind (.modify fun _ h => h.bindCards) fun _ => setGuard_keeps
  · exact setGuard_keeps

theorem execGset_canonical {cc g a b} (h : s.canonical) : CanonicalOut (execGset cc g a b s) := h.runInstr guardSet_keeps

theorem execGsetn_canonical {cc g a b} (h : s.canonical) : CanonicalOut (execGsetn cc g a b s) := h.runInstr guardSet_keeps

theorem execGclr_canonical {g} (h : s.canonical) : CanonicalOut (execGclr g s) := h.runInstr setGuard_keeps

theorem execGwait_canonical {g} (h : s.canonical) : CanonicalOut (execGwait g s) :=
  h.runInstr (.bind guardValue_keeps fun _ => .pure _)

theorem State.canonical.resolveGuard {g i} (h : s.canonical) : CanonicalOpt (s.resolveGuard g i) := by
  unfold State.resolveGuard
  split
  · exact .some h.modSlot.bindCards
  · exact .none

theorem execGuardResolve_canonical {slot g} (h : s.canonical) : CanonicalOut (execGuardResolve slot g s) := .event h.resolveGuard

theorem State.canonical.endRealign {g} (h : s.canonical) : (s.endRealign g).canonical := by
  unfold State.endRealign
  split
  · exact h.complete
  · exact h

theorem realign_keeps {len tag} : Keeps (realign len tag) :=
  .get fun _ h => .ite (.bind modSlot_keeps fun _ => .pure _) (.bind (.set (h.foldl fun _ _ h' => h'.endRealign)) fun _ => .pure _)

theorem execRealign_canonical {tag} (h : s.canonical) : CanonicalOut (execRealign tag s) := h.runInstr realign_keeps

theorem execRealignC_canonical {tag} (h : s.canonical) : CanonicalOut (execRealignC tag s) := h.runInstr realign_keeps

theorem State.canonical.realignDue {g} (h : s.canonical) : CanonicalOpt (s.realignDue g) := by
  unfold State.realignDue
  split
  · exact .ite (.some h.endRealign) .none
  · exact .none

theorem execRealignTimeout_canonical {slot} (h : s.canonical) : CanonicalOut (execRealignTimeout slot s) := .event h.realignDue

theorem execMailboxWrite_canonical {core i v} (h : s.canonical) : CanonicalOut (execMailboxWrite core i v s) :=
  .event (.ite (.some h.mailboxArrive) .none)

theorem execMbxpClear_canonical {core m} (h : s.canonical) : CanonicalOut (execMbxpClear core m s) :=
  .event (.ite (.some h.mbxpWrite) .none)

theorem State.canonical.heldMailbox {c i} (h : s.canonical) : CanonicalOpt (s.heldMailbox c i) := by
  unfold State.heldMailbox
  split
  · exact .none
  · refine .ite .none ?_
    extract_lets +onlyGivenNames s₁
    have h₁ : s₁.canonical := h.modCore
    refine .some ?_
    split
    · exact h₁.complete
    · exact h₁.same.sendReturn.settleCommit
    · exact h₁

theorem execHeldMailboxWrite_canonical {core i} (h : s.canonical) : CanonicalOut (execHeldMailboxWrite core i s) :=
  .event h.heldMailbox

/-! ### What `Move` keeps -/

theorem execXset_canonical {x imm part} (h : s.canonical) : CanonicalOut (execXset x imm part s) :=
  h.runInstr (.bind modSlot_keeps fun _ => .pure _)

theorem move_keeps {d a} : Keeps (move d a) := .bind src_keeps fun _ => .bind dst_keeps fun _ => .pure _

theorem execMov_canonical {d a} (h : s.canonical) : CanonicalOut (execMov d a s) := h.runInstr move_keeps

theorem execMovCToNamed_canonical {b a} (h : s.canonical) : CanonicalOut (execMovCToNamed b a s) := h.runInstr move_keeps

theorem execMovCFromNamed_canonical {b} (h : s.canonical) : CanonicalOut (execMovCFromNamed b s) := h.runInstr move_keeps

theorem execMovCAge_canonical {a} (h : s.canonical) : CanonicalOut (execMovCAge a s) := h.runInstr move_keeps

theorem execXget_canonical {d x} (h : s.canonical) : CanonicalOut (execXget d x s) :=
  h.runInstr (.bind getSlot_keeps fun _ => .bind dst_keeps fun _ => .pure _)

theorem execXsetr_canonical {x a} (h : s.canonical) : CanonicalOut (execXsetr x a s) :=
  h.runInstr (.bind src_keeps fun _ => .bind modSlot_keeps fun _ => .pure _)

theorem clearNamed_keeps {n} : Keeps (clearNamed n) := .bind modSlot_keeps fun _ => .pure _

theorem execNclr_canonical {n} (h : s.canonical) : CanonicalOut (execNclr n s) := h.runInstr clearNamed_keeps

theorem execNclrC_canonical {n} (h : s.canonical) : CanonicalOut (execNclrC n s) := h.runInstr clearNamed_keeps

theorem execNtest_canonical {d n} (h : s.canonical) : CanonicalOut (execNtest d n s) :=
  h.runInstr (.bind getSlot_keeps fun _ => .bind dst_keeps fun _ => .pure _)

theorem execNwr_canonical {dir n a slot} (h : s.canonical) : CanonicalOut (execNwr dir n a slot s) :=
  h.runInstr (.bind src_keeps fun _ => .bind notLatent_keeps fun _ => .get fun _ h' => .bind require_keeps fun _ =>
      .bind require_keeps fun _ => .bind releaseWait_keeps fun _ => .bind newNo_keeps fun _ => .bind (.modify fun _ h'' =>
      h''.same.post) fun _ => .bind modSlot_keeps fun _ => .pure _)

theorem State.canonical.nwrDone {g tid} (h : s.canonical) : (s.nwrDone g tid).canonical := .ite h.complete h

theorem State.canonical.nwrPerform {g n} (h : s.canonical) : CanonicalOpt (s.nwrPerform g n) := by
  unfold State.nwrPerform
  dsimp only
  split
  · exact .none
  · exact .ite (.some (.ite h.same.modSlot.respond.nwrDone h.same.modSlot.respond)) .none

theorem execNwrHeldWrite_canonical {slot n} (h : s.canonical) : CanonicalOut (execNwrHeldWrite slot n s) := .event h.nwrPerform

theorem State.canonical.nwrResolve {g} (h : s.canonical) : CanonicalOpt (s.nwrResolve g) := by
  unfold State.nwrResolve
  dsimp only
  split
  · exact .none
  · exact .ite h.same.takeTrap (.ite (.some h.same.modSlot) .none)

theorem execNwrWithdrawal_canonical {src} (h : s.canonical) : CanonicalOut (execNwrWithdrawal src s) := .event h.nwrResolve

theorem execBorrow_canonical {d a} (h : s.canonical) : CanonicalOut (execBorrow d a s) := by
  unfold execBorrow
  refine h.runInstr (.bind src_keeps fun _ => .get fun _ h' => ?_)
  dsimp only
  split
  · exact .bind dst_keeps fun _ => .pure _
  · exact .bind (.modify fun _ h'' => h''.modSlot) fun _ => .bind modSlot_keeps fun _ => .bind dst_keeps fun _ => .pure _

theorem borrowedSlot_keeps {tval} : Keeps (borrowedSlot tval) := by
  unfold borrowedSlot
  refine .get fun _ h => ?_
  split
  · exact .pure _
  · exact trap_keeps

theorem execBrd_canonical {d n} (h : s.canonical) : CanonicalOut (execBrd d n s) :=
  h.runInstr (.bind borrowedSlot_keeps fun _ => .get fun _ _ => .bind dst_keeps fun _ => .pure _)

theorem execBwr_canonical {n a} (h : s.canonical) : CanonicalOut (execBwr n a s) :=
  h.runInstr (.bind src_keeps fun _ => .bind borrowedSlot_keeps fun _ => .bind (.modify fun _ h' => h'.modSlot) fun _ => .pure _)

theorem execBret_canonical (h : s.canonical) : CanonicalOut (execBret s) :=
  h.runInstr (.bind borrowedSlot_keeps fun _ => .bind (.modify fun _ h' => h'.returnBorrow) fun _ => .pure _)

theorem queueEntries_keeps {q} : Keeps (queueEntries q) := .get fun _ _ => .pure _

theorem setQueue_keeps {q es} : Keeps (setQueue q es) := .modify fun _ h => h.modCore

theorem execQsend_canonical {q a} (h : s.canonical) : CanonicalOut (execQsend q a s) :=
  h.runInstr (.bind src_keeps fun _ => .bind notLatent_keeps fun _ => .bind queueEntries_keeps fun _ => .bind await_keeps fun _ =>
      .bind relHolds_keeps fun _ => .bind getSlot_keeps fun _ => .bind setQueue_keeps fun _ => .pure _)

theorem execQrecv_canonical {d q} (h : s.canonical) : CanonicalOut (execQrecv d q s) := by
  unfold execQrecv
  refine h.runInstr (.bind queueEntries_keeps fun _ => .get fun _ h' => ?_)
  dsimp only
  split
  · exact .bind block_keeps fun _ => .pure _
  · exact .bind await_keeps fun _ => .bind setQueue_keeps fun _ => .bind dst_keeps fun _ => .pure _

theorem execQstat_canonical {d q} (h : s.canonical) : CanonicalOut (execQstat d q s) :=
  h.runInstr (.bind queueEntries_keeps fun _ => .bind dst_keeps fun _ => .pure _)

theorem execRng_canonical {d} (h : s.canonical) : CanonicalOut (execRng d s) :=
  h.runInstr (.bind rngNext_keeps fun _ => .bind dst_keeps fun _ => .pure _)

theorem execRngseed_canonical {a} (h : s.canonical) : CanonicalOut (execRngseed a s) :=
  h.runInstr (.bind src_keeps fun _ => .get fun _ _ => .bind modSlot_keeps fun _ => .pure _)

theorem execCycle_canonical {d} (h : s.canonical) : CanonicalOut (execCycle d s) :=
  h.runInstr (.get fun _ _ => .bind dst_keeps fun _ => .pure _)

/-! ### What `Spill` keeps -/

theorem State.canonical.unhold {g} (h : s.canonical) : (s.unhold g).canonical := by
  unfold State.unhold
  dsimp only
  split
  · exact h.modCore.modSlot
  · exact h.complete
  · exact h

theorem State.canonical.moveLatent {x a b} (h : s.canonical) : (s.moveLatent x a b).canonical := by
  unfold State.moveLatent
  dsimp only
  split
  · exact h
  · exact h.same

theorem State.canonical.save {g e} (h : s.canonical) : CanonicalOptSnd (s.save g e) := by
  unfold State.save
  dsimp only
  split
  · exact .none
  · refine .ite .none (.some ((((((State.canonical.performAll ?_ _ ‹_›).foldl fun _ _ h' =>
        h'.fillFor).returnBorrow).moveLatent).leaves).setSlot))
    split
    · exact .ite h.unhold h.unhold.returnBorrow
    · exact h.unhold

theorem State.canonical.queueCont {c e} (h : s.canonical) : CanonicalOpt (s.queueCont c e) :=
  .ite (.some h.freshNo.modCore) h.enqueue

theorem State.canonical.spillSave {g} (h : s.canonical) : CanonicalOpt (s.spillSave g) := by
  unfold State.spillSave
  refine .ite .none ?_
  extract_lets +onlyGivenNames x p r job
  have hr : r.2.canonical := by
    unfold r
    split
    · split
      · exact h
      · exact h.errorRecord
    · exact h
  split
  · exact .none
  next hu => exact .ite (.some (hr.save _ _ hu).same) (hr.save _ _ hu).queueCont

theorem State.canonical.putWindow {g c} (h : s.canonical) : (s.putWindow g c).canonical :=
  have hs : State.canonical { s with
      absent := s.absent.filter fun a => !(decide (privateKey g 0 ≤ a.key) && decide (a.key < privateKey g 0 + 2 ^ 20))
      mem := s.mem.filter fun m => !(decide (privateKey g 0 ≤ m.1) && decide (m.1 < privateKey g 0 + 2 ^ 20))
      tags := s.tags.filter fun m => !(decide (privateKey g 0 ≤ 16 * m.1) && decide (16 * m.1 < privateKey g 0 + 2 ^ 20))
      poison := s.poison.filter fun m => !(decide (privateKey g 0 ≤ 64 * m.1) && decide (64 * m.1 < privateKey g 0 + 2 ^ 20)) } :=
    ⟨SMap.wf_filter h.1, SMap.wf_filter h.2.1, SMap.wf_filter h.2.2⟩
  (hs.writeAll.foldl fun _ _ h => h.setPoison).foldl fun _ _ h => h.setTag

theorem State.canonical.follow {tid h₁} (h : s.canonical) : (s.follow tid h₁).canonical := h.same

theorem State.canonical.restore {g c} (h : s.canonical) : CanonicalOpt (s.restore g c) := by
  unfold State.restore
  extract_lets +onlyGivenNames p core helper gs eager
  refine .ite .none ?_
  split
  · extract_lets +onlyGivenNames src x s₁ s₂ s₃ s₄ s₅ s₆ s₇
    have h₂ : s₂.canonical := by
      unfold s₂
      split
      · exact h.setSlot.modSlot
      · exact h.setSlot
    have h₄ : s₄.canonical := (State.canonical.ite h₂.putWindow h₂).moveLatent
    have h₅ : s₅.canonical := .ite (h₄.foldl fun _ _ h => h.fill) h₄.same
    have h₇ : s₇.canonical := h₅.follow.modCore
    split
    · split
      · exact .some h₇.completeWith.modSlot
      · exact .some h₇
    · exact .some h₇
  · exact .none

/-! ### What `TaskInstr` keeps -/

theorem stepPlace_keeps {p n} : Keeps (stepPlace p n) :=
  .bind releaseWait_keeps fun _ => .get fun _ _ => .bind await_keeps fun _ => .bind forceHome_keeps fun _ => homeReady_keeps

theorem objectAt_keeps {k n perm bits near} : Keeps (objectAt k n perm bits near) := by
  unfold objectAt
  refine .bind place_keeps fun _ => .ite (.bind notAcrossDies_keeps fun _ => .get fun _ h => ?_) (.get fun _ h => ?_)
  · dsimp only
    split
    · exact .bind stepPlace_keeps fun _ => .pure _
    · exact trap_keeps
  · dsimp only
    split
    · exact .bind stepPlace_keeps fun _ => .pure _
    · exact trap_keeps

theorem recordAt_keeps {k} : Keeps (recordAt k) := objectAt_keeps

theorem recordIn_keeps {o bs} : Keeps (recordIn o bs) := .get fun _ _ => .pure _

theorem readRecord_keeps {r} : Keeps (readRecord r) := .bind look_keeps fun _ => recordIn_keeps

theorem recordSeen_keeps {k} : Keeps (recordSeen k) := by
  unfold recordSeen
  refine inStep_keeps ?_
  exact .bind recordAt_keeps fun _ => look_keeps

theorem writeObject_keeps {r off bs} : Keeps (writeObject r off bs) := .get fun _ h => .set h.performWrites

theorem orWait_keeps {r} (hr : CanonicalOpt r) : Keeps (orWait r) := by
  unfold orWait
  split
  · exact .set (hr _ rfl)
  · exact block_keeps

theorem holdFree_keeps : Keeps holdFree := .get fun _ _ => await_keeps

theorem spawn_keeps {d r} : Keeps (spawn d r) := by
  unfold spawn
  refine .get fun _ h => .ite (.bind beforeLive_keeps fun _ => .get fun _ h' => ?_) (.get fun _ h' => ?_)
  · split
    · exact block_keeps
    · exact .bind (.set (h'.spawnStep _ _ ‹_›)) fun _ => .bind forget_keeps fun _ => .bind dst_keeps fun _ => .pure _
  · split
    · exact block_keeps
    · exact .bind (.set (h'.spawnStep _ _ ‹_›)) fun _ => .bind forget_keeps fun _ => .bind dst_keeps fun _ => .pure _

theorem execSpawn_canonical {d ka} (h : s.canonical) : CanonicalOut (execSpawn d ka s) :=
  h.runInstr (.bind notLatent_keeps fun _ => .bind kreg_keeps fun _ => .bind recordSeen_keeps fun _ =>
      .bind recordIn_keeps fun _ => spawn_keeps)

theorem execWalk_canonical {d ka b} (h : s.canonical) : CanonicalOut (execWalk d ka b s) := by
  unfold execWalk
  refine h.runInstr (.bind src_keeps fun _ => .bind notLatent_keeps fun _ => .bind kreg_keeps fun _ =>
      .bind recordSeen_keeps fun _ => .bind recordIn_keeps fun _ => .get fun _ h' => .ite (.bind (inStep_keeps ?_) fun _ =>
      spawn_keeps) (spawn_keeps))
  exact .bind homeReady_keeps fun _ => .bind writeObject_keeps fun _ => .pure _

theorem execStart_canonical {d ka} (h : s.canonical) : CanonicalOut (execStart d ka s) := by
  unfold execStart
  refine h.runInstr (.bind notLatent_keeps fun _ => .bind roleIs_keeps fun _ => .bind kreg_keeps fun _ =>
      .bind recordSeen_keeps fun _ => .bind recordIn_keeps fun _ => .get fun _ h' => ?_)
  dsimp only
  split
  · exact .bind dst_keeps fun _ => .bind forget_keeps fun _ => .pure _
  · exact .ite (.bind holdFree_keeps fun _ => .bind raiseLive_keeps fun _ => .bind (.modify fun _ h'' => h''.startRec) fun _ =>
        .bind dst_keeps fun _ => .bind forget_keeps fun _ => .pure _) (.bind dst_keeps fun _ => .bind forget_keeps fun _ => .pure _)

theorem execJoin_canonical {d ka} (h : s.canonical) : CanonicalOut (execJoin d ka s) := by
  unfold execJoin
  refine h.runInstr (.bind notLatent_keeps fun _ => .bind kreg_keeps fun _ => .bind fenceRel_keeps fun _ =>
      .bind recordAt_keeps fun _ => .bind readBytes_keeps fun _ => .ite (.bind dst_keeps fun _ =>
      .pure _) (.bind writeObject_keeps fun _ => .bind dst_keeps fun _ => .ite (.bind readRecord_keeps fun _ => .get fun _ h' =>
      .bind (orWait_keeps ?_) fun _ => .pure _) (.pure _)))
  exact h'.released

theorem done_keeps {tval} : Keeps (done tval) := by
  unfold done
  refine .bind roleIs_keeps fun _ => .get fun _ h => ?_
  dsimp only
  split
  · split
    · exact .bind (.set h.startCheck) fun _ => .pure _
    · exact .pure _
  · split
    · refine .bind (.throw trivial) fun _ => ?_
      split
      · exact .bind (.set h.commitTile.settleCommit) fun _ => .pure _
      · exact .pure _
    · split
      · exact .bind (.set h.commitTile.settleCommit) fun _ => .pure _
      · exact .pure _
  · split
    · exact .bind block_keeps fun _ => .pure _
    · exact .bind unlessBad_keeps fun _ => .bind (.set (.ite ((h.drain _ ‹_›).endMessage) ((h.drain _ ‹_›).endTask))) fun _ =>
          .pure _

theorem execDone_canonical (h : s.canonical) : CanonicalOut (execDone s) := h.runInstr done_keeps

theorem execDoneC_canonical (h : s.canonical) : CanonicalOut (execDoneC s) := h.runInstr done_keeps

theorem execYield_canonical {a b} (h : s.canonical) : CanonicalOut (execYield a b s) := by
  unfold execYield
  refine h.runInstr (.bind src_keeps fun _ => .bind src_keeps fun _ => .bind roleIs_keeps fun _ => .bind notLatent_keeps fun _ =>
      .bind modSlot_keeps fun _ => .get fun _ h' => ?_)
  dsimp only
  split
  · exact .bind block_keeps fun _ => .pure _
  · refine .bind (orWait_keeps ?_) fun _ => .pure _
    exact (h'.save _ _ ‹_›).enqueue

theorem execLaunch_canonical {d ka b} (h : s.canonical) : CanonicalOut (execLaunch d ka b s) := by
  unfold execLaunch
  refine h.runInstr (.bind src_keeps fun _ => .bind notLatent_keeps fun _ => .bind kreg_keeps fun _ =>
      .bind recordSeen_keeps fun _ => .bind recordIn_keeps fun _ => .get fun _ h' => .ite (.bind dst_keeps fun _ =>
      .bind forget_keeps fun _ => .pure _) (.ite (.bind raiseLive_keeps fun _ => .get fun _ h'' => .bind (orWait_keeps ?_) fun _ =>
      .bind dst_keeps fun _ => .bind forget_keeps fun _ => .pure _) (.bind dst_keeps fun _ => .bind forget_keeps fun _ => .pure _)))
  exact h''.enqueue

theorem execLaunchi_canonical {d ka kb} (h : s.canonical) : CanonicalOut (execLaunchi d ka kb s) := by
  unfold execLaunchi
  refine h.runInstr (.bind notLatent_keeps fun _ => .bind kreg_keeps fun _ => .bind kreg_keeps fun _ =>
      .bind (inStep_keeps ?_) fun _ => .bind recordIn_keeps fun _ => .get fun _ h' => .ite (.bind dst_keeps fun _ =>
      .bind forget_keeps fun _ => .pure _) (.bind raiseLive_keeps fun _ => .get fun _ h'' => .bind (orWait_keeps ?_) fun _ =>
      .bind dst_keeps fun _ => .bind forget_keeps fun _ => .pure _))
  · exact .bind recordAt_keeps fun _ => .bind place_keeps fun _ => look_keeps
  · exact h''.enqueue

theorem descriptorRec_keeps {k v i} : Keeps (descriptorRec k v i) := by
  unfold descriptorRec
  refine .get fun _ h => .bind locate_keeps fun _ => ?_
  split
  · exact .bind beforeRead_keeps fun _ => look_keeps
  · exact trap_keeps

theorem descriptorHead_keeps {k} : Keeps (descriptorHead k) := by
  unfold descriptorHead
  refine inStep_keeps ?_
  refine .bind place_keeps fun _ => ?_
  split
  · exact .bind releaseWait_keeps fun _ => .bind beforeRead_keeps fun _ => look_keeps
  · exact trap_keeps

theorem descriptorAt_keeps {step k lo hi} (hs : ∀ i m, Keeps m → Keeps (step i m)) : Keeps (descriptorAt step k lo hi) :=
  .bind descriptorHead_keeps fun _ => .bind checkCap_keeps fun _ =>
    .bind (eachM_keeps fun _ => .bind (hs _ _ descriptorRec_keeps) fun _ => recordIn_keeps) fun _ => .pure _

theorem execGang_canonical {d ka} (h : s.canonical) : CanonicalOut (execGang d ka s) := by
  have hend {v : U64} : Keeps (do dst d v; forget; pure Flow.next) := .bind dst_keeps fun _ => .bind forget_keeps fun _ => .pure _
  exact h.runInstr (.bind notLatent_keeps fun _ => .bind kreg_keeps fun _ => .bind (descriptorAt_keeps fun _ _ =>
      inStep_keeps) fun _ =>
    .get fun _ _ => .ite hend (.bind (eachM_keeps fun _ => .ite (.pure _) loadPool_keeps) fun _ => .ite hend
      (.bind raiseLive_keeps fun _ => .get fun _ h => .bind (orWait_keeps h.enqueue) fun _ => hend)))

theorem execSubmit_canonical {d ka} (h : s.canonical) : CanonicalOut (execSubmit d ka s) := by
  refine h.runInstr (.bind notLatent_keeps fun _ => .bind kreg_keeps fun _ => .bind (descriptorAt_keeps fun _ _ h => h) fun _ =>
    .get fun _ _ => .ite (.bind holdFree_keeps fun _ => .bind beforeLive_keeps fun _ => ?_) ?_)
  · exact .get fun _ h => .bind (.set h.submitStep) fun _ => .bind forget_keeps fun _ => .bind dst_keeps fun _ => .pure _
  · exact .get fun _ h => .bind (.set h.submitStep) fun _ => .bind forget_keeps fun _ => .bind dst_keeps fun _ => .pure _

theorem execDline_canonical {d a} (h : s.canonical) : CanonicalOut (execDline d a s) :=
  h.runInstr (.bind src_keeps fun _ => .get fun _ _ => .bind dst_keeps fun _ => .pure _)

theorem execSelf_canonical {kd} (h : s.canonical) : CanonicalOut (execSelf kd s) :=
  h.runInstr (.get fun _ _ => .bind setK_keeps fun _ => .pure _)

/-! ### What `Layer` keeps -/

theorem State.canonical.setLayer {i l} (h : s.canonical) : (s.setLayer i l).canonical := h.same

theorem State.canonical.modView {v f} (h : s.canonical) : (s.modView v f).canonical := h.same

theorem layerBad_keeps {num view reason} : Keeps (layerBad num view reason : Exec α) := trap_keeps

theorem layerReq_keeps {ok num view reason} : Keeps (layerReq ok num view reason) := .ite (.pure _) (layerBad_keeps)

theorem layerInRange_keeps {i} : Keeps (layerInRange i) := .get fun _ _ => layerReq_keeps

theorem liveLayer_keeps {i} : Keeps (liveLayer i) :=
  .bind layerInRange_keeps fun _ => .get fun _ _ => .bind layerReq_keeps fun _ => .pure _

theorem ownView_keeps {v} : Keeps (ownView v) := .get fun _ _ => .bind layerReq_keeps fun _ => .pure _

theorem layerStep_keeps {tval} : Keeps (layerStep tval) :=
  .bind roleIs_keeps fun _ => .bind notLatent_keeps fun _ => releaseWait_keeps

theorem execLnew_canonical {d a} (h : s.canonical) : CanonicalOut (execLnew d a s) := by
  refine h.runInstr (.bind src_keeps fun _ => .bind layerStep_keeps fun _ => .bind getSlot_keeps fun x => ?_)
  dsimp only
  refine .bind ownView_keeps fun v => .bind layerReq_keeps fun _ => .bind layerReq_keeps fun _ => .bind layerReq_keeps fun _ =>
      .get ?_
  intro u hu
  generalize List.find? _ _ = free
  cases free with
  | none => exact .bind dst_keeps fun _ => .pure _
  | some i => exact .bind (.set hu.setLayer.modView) fun _ => .bind dst_keeps fun _ => .pure _

theorem State.canonical.freeLayer {i} (h : s.canonical) : (s.freeLayer i).canonical := h.setLayer.modView

theorem execLfree_canonical {a} (h : s.canonical) : CanonicalOut (execLfree a s) :=
  h.runInstr (.bind src_keeps fun _ => .bind layerStep_keeps fun _ => .bind liveLayer_keeps fun _ => .bind layerReq_keeps fun _ =>
      .bind (.modify fun _ h' => h'.freeLayer) fun _ => .pure _)

theorem lsetLayer_keeps {f i v k} : Keeps (lsetLayer f i v k) :=
  .bind liveLayer_keeps fun _ => .ite (.bind layerReq_keeps fun _ => .bind layerReq_keeps fun _ => .modify fun _ h =>
      h.setLayer) (.bind layerReq_keeps fun _ => .ite (.bind layerReq_keeps fun _ => .bind layerReq_keeps fun _ =>
      .bind (.modify fun _ h => h.setLayer) fun _ => .ite (.modify fun _ h => h.modView) (.pure _)) (.bind (.modify fun _ h =>
      h.setLayer) fun _ => .ite (.modify fun _ h => h.modView) (.pure _)))

theorem lsetView_keeps {f i v k} : Keeps (lsetView f i v k) := by
  unfold lsetView
  refine .bind ownView_keeps fun _ => .bind layerReq_keeps fun _ => ?_
  split
  · exact .bind layerReq_keeps fun _ => .modify fun _ h => h.modView
  · exact .bind layerReq_keeps fun _ => .modify fun _ h => h.modView
  · exact .bind layerReq_keeps fun _ => .bind layerReq_keeps fun _ => .modify fun _ h => h.modView
  · exact .bind layerReq_keeps fun _ => .modify fun _ h => h.modView
  · exact .modify fun _ h => h.modView

theorem reservedField_keeps {i} : Keeps (reservedField i) := .bind liveLayer_keeps fun _ => layerBad_keeps

theorem execLset_canonical {f a b} (h : s.canonical) : CanonicalOut (execLset f a b s) :=
  h.runInstr (.bind src_keeps fun _ => .ite (.bind (.pure _) fun _ => .bind kreg_keeps fun _ => .bind layerStep_keeps fun _ =>
      .ite (.bind reservedField_keeps fun _ => .pure _) (.ite (.bind lsetLayer_keeps fun _ =>
      .pure _) (.bind lsetView_keeps fun _ => .pure _))) (.bind src_keeps fun _ => .bind kreg_keeps fun _ =>
      .bind layerStep_keeps fun _ => .ite (.bind reservedField_keeps fun _ => .pure _) (.ite (.bind lsetLayer_keeps fun _ =>
      .pure _) (.bind lsetView_keeps fun _ => .pure _))))

theorem execLget_canonical {f d a} (h : s.canonical) : CanonicalOut (execLget f d a s) :=
  h.runInstr (.bind src_keeps fun _ => .bind layerStep_keeps fun _ => .ite (.bind reservedField_keeps fun _ =>
      .pure _) (.ite (.bind liveLayer_keeps fun _ => .bind layerReq_keeps fun _ => .bind dst_keeps fun _ =>
      .pure _) (.bind ownView_keeps fun _ => .bind layerReq_keeps fun _ => .bind dst_keeps fun _ => .pure _)))

theorem execLest_canonical {d a} (h : s.canonical) : CanonicalOut (execLest d a s) :=
  h.runInstr (.bind src_keeps fun _ => .bind layerStep_keeps fun _ => .bind liveLayer_keeps fun _ => .bind dst_keeps fun _ =>
      .pure _)

theorem execLprice_canonical {a b} (h : s.canonical) : CanonicalOut (execLprice a b s) :=
  h.runInstr (.bind src_keeps fun _ => .bind src_keeps fun _ => .bind layerStep_keeps fun _ => .bind lsetLayer_keeps fun _ =>
      .pure _)

theorem execLlight_canonical {a b} (h : s.canonical) : CanonicalOut (execLlight a b s) :=
  h.runInstr (.bind src_keeps fun _ => .bind src_keeps fun _ => .bind layerStep_keeps fun _ => .bind getSlot_keeps fun _ =>
      .bind ownView_keeps fun _ => .bind layerReq_keeps fun _ => .bind layerReq_keeps fun _ => .bind (.modify fun _ h' =>
      h'.modView) fun _ => .pure _)

theorem execLreq_canonical {d} (h : s.canonical) : CanonicalOut (execLreq d s) := by
  unfold execLreq
  refine h.runInstr (.bind layerStep_keeps fun _ => .bind getSlot_keeps fun _ => .bind ownView_keeps fun _ => ?_)
  dsimp only
  split
  · exact .bind dst_keeps fun _ => .pure _
  · exact .bind (.modify fun _ h' => h'.modView) fun _ => .bind dst_keeps fun _ => .pure _

theorem renderRecord_keeps {addr} : Keeps (renderRecord addr) := by
  unfold renderRecord
  refine .ite (.pure _) (.get fun _ h => .bind locate_keeps fun _ => ?_)
  split
  · exact .bind beforeRead_keeps fun _ => .bind readRecord_keeps fun _ => .pure _
  · exact .pure _

theorem execLreqS_canonical {d} (h : s.canonical) : CanonicalOut (execLreqS d s) := by
  unfold execLreqS
  refine h.runInstr (.bind layerStep_keeps fun _ => .bind getSlot_keeps fun _ => .bind ownView_keeps fun _ => ?_)
  dsimp only
  split
  · exact .bind dst_keeps fun _ => .pure _
  · refine .get fun _ h' => .bind renderRecord_keeps fun _ => .bind (.modify fun _ h'' => h''.modView) fun _ => .get fun _ h'' => ?_
    split
    · exact .bind dst_keeps fun _ => .pure _
    · refine .ite (.bind beforeLive_keeps fun _ => .get fun _ h₃ => ?_) (.get fun _ h₃ => ?_)
      · split
        · exact .bind block_keeps fun _ => .pure _
        · exact .bind (.set (h₃.spawnStep _ _ ‹_›)) fun _ => .bind dst_keeps fun _ => .pure _
      · split
        · exact .bind block_keeps fun _ => .pure _
        · exact .bind (.set (h₃.spawnStep _ _ ‹_›)) fun _ => .bind dst_keeps fun _ => .pure _

theorem execLbegin_canonical {a} (h : s.canonical) : CanonicalOut (execLbegin a s) :=
  h.runInstr (.bind src_keeps fun _ => .bind layerStep_keeps fun _ => .bind liveLayer_keeps fun _ => .bind layerReq_keeps fun _ =>
      .get fun _ _ => .bind await_keeps fun _ => .bind (.modify fun _ h'' => h''.setLayer) fun _ => .pure _)

theorem execLdone_canonical {a} (h : s.canonical) : CanonicalOut (execLdone a s) :=
  h.runInstr (.bind src_keeps fun _ => .bind layerStep_keeps fun _ => .bind liveLayer_keeps fun _ => .bind layerReq_keeps fun _ =>
      .bind releaseAt_keeps fun _ => .bind (.modify fun _ h' => h'.setLayer.modView) fun _ => .pure _)

/-! ### What `Compose` keeps -/

theorem imageAt_keeps {k n bits} : Keeps (imageAt k n bits) := by
  unfold imageAt
  refine .bind (eachM_keeps ?_) fun _ => .pure _
  intro _
  refine .get fun _ h => .bind locate_keeps fun _ => ?_
  split
  · exact .pure _
  · exact .pure _

theorem imageReady_keeps {m writes} : Keeps (imageReady m writes) := by
  unfold imageReady
  refine firmly_keeps ?_
  exact .get fun _ _ => .bind await_keeps fun _ => force_keeps

theorem frontImages_keeps {i bits} : Keeps (frontImages i bits) :=
  .get fun _ _ => .bind imageAt_keeps fun _ => .bind imageAt_keeps fun _ => .pure _

theorem State.canonical.frontNow {g i checked} (h : s.canonical) : (s.frontNow g i checked).2.canonical := by
  unfold State.frontNow
  extract_lets +onlyGivenNames l
  split
  · exact h
  · split
    · have hf := frontImages_keeps (i := i) (bits := [1]) { s with cur := g } h.same
      split
      next hr => rw [hr] at hf; exact State.canonical.same hf
      · exact h
    · exact h

theorem startJob_keeps {j} : Keeps (startJob j) := .bind modSlot_keeps fun _ => .pure _

theorem execCompose_canonical {d} (h : s.canonical) : CanonicalOut (execCompose d s) := by
  unfold execCompose
  refine h.runInstr (.bind (firmly_keeps ?_) fun _ => .bind getSlot_keeps fun _ => .bind ownView_keeps fun _ => .get fun _ h' =>
      .bind (firmly_keeps ?_) fun _ => .bind layerReq_keeps fun _ => .bind (eachM_keeps ?_) fun _ =>
      .bind (eachM_keeps ?_) fun _ => .bind (eachM_keeps ?_) fun _ => .bind imageAt_keeps fun _ => .bind imageAt_keeps fun _ =>
      .bind (eachM_keeps ?_) fun _ => .bind imageReady_keeps fun _ => .bind imageReady_keeps fun _ => .bind (.modify fun _ h'' =>
      h''.modView) fun _ => startJob_keeps)
  · exact layerStep_keeps
  · exact await_keeps
  · intro _
    exact layerReq_keeps
  · intro _
    exact layerReq_keeps
  · intro _
    exact frontImages_keeps
  · intro _
    exact .bind imageReady_keeps fun _ => imageReady_keeps

theorem frontWritable_keeps {l} : Keeps (frontWritable l) :=
  .bind require_keeps fun _ => .bind require_keeps fun _ => .bind require_keeps fun _ => require_keeps

theorem twoLayers_keeps {a b both} : Keeps (twoLayers a b both) := by
  unfold twoLayers
  refine .bind layerInRange_keeps fun _ => .bind layerInRange_keeps fun _ => .bind liveLayer_keeps fun _ =>
      .bind liveLayer_keeps fun _ => .bind layerReq_keeps fun _ => .bind layerReq_keeps fun _ => .bind layerReq_keeps fun _ =>
      .bind layerReq_keeps fun _ => .bind layerReq_keeps fun _ => .get fun _ h => .bind (firmly_keeps ?_) fun _ => .pure _
  exact await_keeps

theorem State.canonical.modLayer {i f} (h : s.canonical) : (s.modLayer i f).canonical := .ite h.setLayer h

theorem State.canonical.alone {g} (h : s.canonical) : (s.alone g).canonical := h.same

theorem startPair_keeps {j} : Keeps (startPair j) := by
  unfold startPair
  refine .get fun _ h => ?_
  split
  · exact trap_keeps
  · exact startJob_keeps

theorem mergeWritable_keeps {i} : Keeps (mergeWritable i) := .get fun _ _ => .bind frontWritable_keeps fun _ => frontImages_keeps

theorem execLsplit_canonical {a b} (h : s.canonical) : CanonicalOut (execLsplit a b s) := by
  unfold execLsplit
  refine h.runInstr (.bind src_keeps fun _ => .bind src_keeps fun _ => .bind (firmly_keeps ?_) fun _ =>
      .bind twoLayers_keeps fun _ => .ite (.bind frontWritable_keeps fun _ => .ite (.bind frontWritable_keeps fun _ =>
      .ite (.bind frontImages_keeps fun _ => .ite (.bind frontImages_keeps fun _ => .bind (eachM_keeps ?_) fun _ =>
      startPair_keeps) (.bind (.pure _) fun _ => .bind (eachM_keeps ?_) fun _ => startPair_keeps)) (.bind (.pure _) fun _ =>
      .ite (.bind frontImages_keeps fun _ => .bind (eachM_keeps ?_) fun _ => startPair_keeps) (.bind (.pure _) fun _ =>
      .bind (eachM_keeps ?_) fun _ => startPair_keeps))) (.ite (.bind frontImages_keeps fun _ =>
      .ite (.bind frontImages_keeps fun _ => .bind (eachM_keeps ?_) fun _ => startPair_keeps) (.bind (.pure _) fun _ =>
      .bind (eachM_keeps ?_) fun _ => startPair_keeps)) (.bind (.pure _) fun _ => .ite (.bind frontImages_keeps fun _ =>
      .bind (eachM_keeps ?_) fun _ => startPair_keeps) (.bind (.pure _) fun _ => .bind (eachM_keeps ?_) fun _ =>
      startPair_keeps)))) (.ite (.bind frontWritable_keeps fun _ => .ite (.bind frontImages_keeps fun _ =>
      .ite (.bind frontImages_keeps fun _ => .bind (eachM_keeps ?_) fun _ => startPair_keeps) (.bind (.pure _) fun _ =>
      .bind (eachM_keeps ?_) fun _ => startPair_keeps)) (.bind (.pure _) fun _ => .ite (.bind frontImages_keeps fun _ =>
      .bind (eachM_keeps ?_) fun _ => startPair_keeps) (.bind (.pure _) fun _ => .bind (eachM_keeps ?_) fun _ =>
      startPair_keeps))) (.ite (.bind frontImages_keeps fun _ => .ite (.bind frontImages_keeps fun _ =>
      .bind (eachM_keeps ?_) fun _ => startPair_keeps) (.bind (.pure _) fun _ => .bind (eachM_keeps ?_) fun _ =>
      startPair_keeps)) (.bind (.pure _) fun _ => .ite (.bind frontImages_keeps fun _ => .bind (eachM_keeps ?_) fun _ =>
      startPair_keeps) (.bind (.pure _) fun _ => .bind (eachM_keeps ?_) fun _ => startPair_keeps)))))
  · exact layerStep_keeps
  · intro _
    exact imageReady_keeps
  · intro _
    exact imageReady_keeps
  · intro _
    exact imageReady_keeps
  · intro _
    exact imageReady_keeps
  · intro _
    exact imageReady_keeps
  · intro _
    exact imageReady_keeps
  · intro _
    exact imageReady_keeps
  · intro _
    exact imageReady_keeps
  · intro _
    exact imageReady_keeps
  · intro _
    exact imageReady_keeps
  · intro _
    exact imageReady_keeps
  · intro _
    exact imageReady_keeps
  · intro _
    exact imageReady_keeps
  · intro _
    exact imageReady_keeps
  · intro _
    exact imageReady_keeps
  · intro _
    exact imageReady_keeps

theorem execLmerge_canonical {a b} (h : s.canonical) : CanonicalOut (execLmerge a b s) := by
  unfold execLmerge
  refine h.runInstr (.bind src_keeps fun _ => .bind src_keeps fun _ => .bind (firmly_keeps ?_) fun _ =>
      .bind twoLayers_keeps fun _ => .ite (.bind frontImages_keeps fun _ => .ite (.bind frontImages_keeps fun _ => .get fun _ h' =>
      .ite (.bind mergeWritable_keeps fun _ => .bind (eachM_keeps ?_) fun _ => .bind (eachM_keeps ?_) fun _ =>
      startPair_keeps) (.bind (.pure _) fun _ => .bind (eachM_keeps ?_) fun _ => .bind (eachM_keeps ?_) fun _ =>
      startPair_keeps)) (.bind (.pure _) fun _ => .get fun _ h' => .ite (.bind mergeWritable_keeps fun _ =>
      .bind (eachM_keeps ?_) fun _ => .bind (eachM_keeps ?_) fun _ => startPair_keeps) (.bind (.pure _) fun _ =>
      .bind (eachM_keeps ?_) fun _ => .bind (eachM_keeps ?_) fun _ => startPair_keeps))) (.bind (.pure _) fun _ =>
      .ite (.bind frontImages_keeps fun _ => .get fun _ h' => .ite (.bind mergeWritable_keeps fun _ =>
      .bind (eachM_keeps ?_) fun _ => .bind (eachM_keeps ?_) fun _ => startPair_keeps) (.bind (.pure _) fun _ =>
      .bind (eachM_keeps ?_) fun _ => .bind (eachM_keeps ?_) fun _ => startPair_keeps)) (.bind (.pure _) fun _ => .get fun _ h' =>
      .ite (.bind mergeWritable_keeps fun _ => .bind (eachM_keeps ?_) fun _ => .bind (eachM_keeps ?_) fun _ =>
      startPair_keeps) (.bind (.pure _) fun _ => .bind (eachM_keeps ?_) fun _ => .bind (eachM_keeps ?_) fun _ => startPair_keeps))))
  · exact layerStep_keeps
  · intro _
    exact imageReady_keeps
  · intro _
    exact imageReady_keeps
  · intro _
    exact imageReady_keeps
  · intro _
    exact imageReady_keeps
  · intro _
    exact imageReady_keeps
  · intro _
    exact imageReady_keeps
  · intro _
    exact imageReady_keeps
  · intro _
    exact imageReady_keeps
  · intro _
    exact imageReady_keeps
  · intro _
    exact imageReady_keeps
  · intro _
    exact imageReady_keeps
  · intro _
    exact imageReady_keeps
  · intro _
    exact imageReady_keeps
  · intro _
    exact imageReady_keeps
  · intro _
    exact imageReady_keeps
  · intro _
    exact imageReady_keeps

theorem State.canonical.layerTrap {g c v} (h : s.canonical) : CanonicalOpt (s.layerTrap g c v) :=
  .map fun _ ha => (h.takeTrap _ ha).modSlot

/-- What a step of an instruction in `Wait.layer` leaves is canonical. -/
def LayerGo.canonical : LayerGo α → Prop
  | .wait => True
  | .go _ t => t.canonical
  | .bad _ t => t.canonical
  | .done _ t => t.canonical

theorem LayerGo.canonical.ite {c : Prop} [Decidable c] {r r' : LayerGo α} (h : r.canonical) (h' : r'.canonical) :
    (if c then r else r').canonical := by
  split
  · exact h
  · exact h'

theorem State.canonical.imgRead {g m off n} {f : Nat → State → LayerGo α} (h : s.canonical)
    (hf : ∀ v t, t.canonical → (f v t).canonical) : (s.imgRead g m off n f).canonical := by
  unfold State.imgRead
  refine .ite ?_ trivial
  dsimp only
  split
  · exact h.fillFor
  · exact hf _ _ h.fillFor

theorem State.canonical.imgWrite {g m off n v} {f : State → LayerGo α} (h : s.canonical) (hf : ∀ t, t.canonical → (f t).canonical) :
    (s.imgWrite g m off n v f).canonical := .ite (hf _ h.performWrites) trivial

/-- A slot in `Wait.layer` after a step of its instruction. -/
theorem LayerGo.canonical.gone {r : LayerGo α} {g job} (h : r.canonical) : CanonicalOpt (layerGone g job r) := by
  unfold layerGone
  split
  · exact .none
  · exact .some (State.canonical.modSlot h)
  · exact State.canonical.layerTrap h
  next push u =>
    cases push with
    | none => exact .some (State.canonical.modSlot (State.canonical.complete h))
    | some p => exact .some (State.canonical.modSlot (State.canonical.completeWith h))

theorem State.canonical.takePixel {g j} (h : s.canonical) : CanonicalOpt (s.takePixel g j) := by
  have hm := mergeWritable_keeps (i := j.a.no) { s with cur := g } h.same
  unfold State.takePixel
  split
  next hr => rw [hr] at hm; exact .some (State.canonical.modSlot (State.canonical.same hm))
  · exact h.layerTrap
  · exact .none

theorem State.canonical.composeLayer {g j i rest} (h : s.canonical) : (s.composeLayer g j i rest).canonical :=
  .ite trivial (State.canonical.frontNow (.ite h.setLayer h))

theorem State.canonical.composePixel {g j} (h : s.canonical) : (s.composePixel g j).canonical := by
  unfold State.composePixel
  dsimp only
  split
  · exact h.imgWrite fun _ h => h
  · exact h.imgRead fun _ _ h => h
  · exact h.imgRead fun _ _ h => h

theorem State.canonical.composeOrder {g j} (h : s.canonical) : (s.composeOrder g j).canonical :=
  .ite (h.imgRead fun _ _ h => h) (h.imgWrite fun _ h => h)

theorem State.canonical.composeStep {g j} (h : s.canonical) : (s.composeStep g j).canonical := by
  unfold State.composeStep
  split
  · exact h.modView
  · exact h.composeLayer
  · exact .ite h.composePixel (.ite h.composeOrder h)
  · exact State.canonical.ite h.setLayer h
  · exact h.modView

theorem State.canonical.splitStep {g j} (h : s.canonical) : (s.splitStep g j).canonical := by
  unfold State.splitStep
  extract_lets +onlyGivenNames i put
  have hput {m off n v k} : (put m off n v k).canonical := h.imgWrite fun _ h => h
  split
  · exact hput
  · exact hput
  · exact h.imgRead fun _ _ h => h
  · exact h.imgRead fun _ _ h => h
  · exact hput
  · exact hput
  · exact hput
  · exact hput

theorem State.canonical.mergeStep {g j} (h : s.canonical) : (s.mergeStep g j).canonical := by
  unfold State.mergeStep
  dsimp only
  split
  · exact h
  · exact h.imgRead fun _ _ h => h
  · exact h.imgRead fun _ _ h => h
  · exact h.imgRead fun _ _ h => h
  · exact h.imgWrite fun _ h => h
  · exact h.imgWrite fun _ h => h

theorem State.canonical.splitEnd {j} (h : s.canonical) : (s.splitEnd j).canonical := by
  unfold State.splitEnd
  split
  · exact h
  · exact h.modLayer
  · exact h.modView

theorem State.canonical.mergeEnd {j} (h : s.canonical) : (s.mergeEnd j).canonical := by
  unfold State.mergeEnd
  split
  · exact h
  · exact h.modLayer
  · exact h.modView
  · exact h.setLayer

theorem State.canonical.pairStep {g j} (h : s.canonical) : (s.pairStep g j).canonical := by
  unfold State.pairStep
  split
  · exact h.splitStep
  · exact h.mergeStep
  · exact h.splitEnd
  · exact h.mergeEnd

theorem State.canonical.layerStep {g} (h : s.canonical) : CanonicalOpt (s.layerStep g) := by
  unfold State.layerStep
  split
  · exact .none
  · exact h.composeStep.gone
  · exact .ite h.takePixel h.pairStep.gone

/-! ### What `Vector` keeps -/

theorem lanesHeld_keeps {tval} : Keeps (lanesHeld tval) := .bind getSlot_keeps fun _ => require_keeps

theorem putElems_keeps {d w rs} : Keeps (putElems d w rs) := .bind modSlot_keeps fun _ => setFlags_keeps

theorem mapElems_keeps {q w d f} : Keeps (mapElems q w d f) := .bind getSlot_keeps fun _ => putElems_keeps

theorem takeFields_keeps {n} : Keeps (takeFields n) := by
  unfold takeFields
  refine .bind (eachM_keeps ?_) fun _ => .pure _
  intro _
  exact rngNext_keeps

theorem roundings_keeps {q n} : Keeps (roundings q n) :=
  .bind getSlot_keeps fun _ => .ite (.bind takeFields_keeps fun _ => .pure _) (.pure _)

/-! ### What `VConvert` keeps -/

theorem execVcvt_canonical {p et d a src1 part} (h : s.canonical) : CanonicalOut (execVcvt p et d a src1 part s) :=
  h.runInstr (.bind lanesHeld_keeps fun _ => .bind getSlot_keeps fun _ => .ite (.bind (.pure _) fun _ =>
      .bind putElems_keeps fun _ => .pure _) (.bind roundings_keeps fun _ => .bind putElems_keeps fun _ => .pure _))

theorem execVqbfp_canonical {p et d a m1} (h : s.canonical) : CanonicalOut (execVqbfp p et d a m1 s) :=
  h.runInstr (.bind lanesHeld_keeps fun _ => .bind getSlot_keeps fun _ => .ite (.bind takeFields_keeps fun _ =>
      .bind modSlot_keeps fun _ => .bind setFlags_keeps fun _ => .pure _) (.bind (.pure _) fun _ => .bind modSlot_keeps fun _ =>
      .bind setFlags_keeps fun _ => .pure _))

theorem execVdqbfp_canonical {p et d a m1} (h : s.canonical) : CanonicalOut (execVdqbfp p et d a m1 s) :=
  h.runInstr (.bind lanesHeld_keeps fun _ => .bind getSlot_keeps fun _ => .bind putElems_keeps fun _ => .pure _)

/-! ### What `VMem` keeps -/

theorem elemPlaces_keeps {k n load addrs} : Keeps (elemPlaces k n load addrs) := by
  unfold elemPlaces
  refine eachM_keeps ?_
  intro _
  dsimp only
  split
  · exact .pure _
  · exact .bind place_keeps fun _ => .ite (.bind notAcrossDies_keeps fun _ => .pure _) (.pure _)

theorem sendElem_keeps {instr n i p} : Keeps (sendElem instr n i p) :=
  .bind newNo_keeps fun _ => .get fun _ h => .set h.launchAccess

theorem sendElems_keeps {i entries got n ps} : Keeps (sendElems i entries got n ps) := by
  unfold sendElems
  refine .bind newNo_keeps fun _ => .bind (eachM_keeps ?_) fun _ => modSlot_keeps
  intro _
  exact sendElem_keeps

theorem loadElems_keeps {i n ps fin} (hf : ∀ m, Keeps (fin m)) : Keeps (loadElems i n ps fin) := by
  unfold loadElems
  split
  · exact .bind (hf _) fun _ => .pure _
  · exact .bind sendElems_keeps fun _ => .pure _

theorem vloadEnd_keeps {p et d got} : Keeps (vloadEnd p et d got) := mapElems_keeps

theorem vload_keeps {i p et d k addr} : Keeps (vload i p et d k addr) := by
  unfold vload
  refine .bind getSlot_keeps fun _ => .bind kreg_keeps fun _ => .bind elemPlaces_keeps fun _ => loadElems_keeps ?_
  intro _
  exact vloadEnd_keeps

theorem vstore_keeps {p et d k addr} : Keeps (vstore p et d k addr) := by
  unfold vstore
  refine .bind getSlot_keeps fun _ => .bind kreg_keeps fun _ => .bind elemPlaces_keeps fun _ => .bind storeSlot_keeps fun _ =>
      .bind newNo_keeps fun _ => .bind (eachM_keeps ?_) fun _ => .pure _
  intro _
  dsimp only
  split
  · exact .pure _
  · exact .bind storePlace_keeps fun _ => setFlags_keeps

theorem execVld_canonical {p et d k off} (h : s.canonical) : CanonicalOut (execVld p et d k off s) :=
  h.runInstr (.bind lanesHeld_keeps fun _ => vload_keeps)

theorem execVst_canonical {p et d k off} (h : s.canonical) : CanonicalOut (execVst p et d k off s) :=
  h.runInstr (.bind lanesHeld_keeps fun _ => vstore_keeps)

theorem execVlds_canonical {p et d k b} (h : s.canonical) : CanonicalOut (execVlds p et d k b s) :=
  h.runInstr (.bind src_keeps fun _ => .bind lanesHeld_keeps fun _ => vload_keeps)

theorem execVsts_canonical {p et d k b} (h : s.canonical) : CanonicalOut (execVsts p et d k b s) :=
  h.runInstr (.bind src_keeps fun _ => .bind lanesHeld_keeps fun _ => vstore_keeps)

theorem execVgth_canonical {p et d k b} (h : s.canonical) : CanonicalOut (execVgth p et d k b s) :=
  h.runInstr (.bind lanesHeld_keeps fun _ => vload_keeps)

theorem execVsct_canonical {p et d k b} (h : s.canonical) : CanonicalOut (execVsct p et d k b s) :=
  h.runInstr (.bind lanesHeld_keeps fun _ => vstore_keeps)

/-! ### What `VSpecial` keeps -/

theorem tableBounds_keeps {k n} : Keeps (tableBounds k n) := by
  unfold tableBounds
  split
  · exact trap_keeps
  · exact .pure _

theorem entryPlaces_keeps {k es} : Keeps (entryPlaces k es) := by
  unfold entryPlaces
  refine eachM_keeps ?_
  intro _
  exact .get fun _ _ => .bind locate_keeps fun _ => .pure _

theorem tableWrite_keeps {q et d a h₁ got} : Keeps (tableWrite q et d a h₁ got) := .bind getSlot_keeps fun _ => mapElems_keeps

theorem tableNext_keeps {p et d a kb entries got} : Keeps (tableNext p et d a kb entries got) := by
  unfold tableNext
  dsimp only
  split
  · exact .bind mapElems_keeps fun _ => .bind setFlags_keeps fun _ => .pure _
  · refine .ite (.bind tableWrite_keeps fun _ => .pure _) (.bind kreg_keeps fun _ => .bind tableBounds_keeps fun _ =>
        .bind getSlot_keeps fun _ => .bind entryPlaces_keeps fun _ => ?_)
    split
    · exact .bind tableWrite_keeps fun _ => .pure _
    · exact .bind sendElems_keeps fun _ => .pure _

theorem execVtbl_canonical {p et d a kb} (h : s.canonical) : CanonicalOut (execVtbl p et d a kb s) :=
  h.runInstr (.bind lanesHeld_keeps fun _ => .bind kreg_keeps fun _ => .bind checkCap_keeps fun _ => .get fun _ _ =>
      .bind locate_keeps fun _ => .bind locate_keeps fun _ => .bind sendElems_keeps fun _ => .pure _)

theorem execVrng_canonical {p et d} (h : s.canonical) : CanonicalOut (execVrng p et d s) := by
  unfold execVrng
  refine h.runInstr (.bind lanesHeld_keeps fun _ => .bind getSlot_keeps fun _ => .bind (eachM_keeps ?_) fun _ =>
      .bind mapElems_keeps fun _ => .pure _)
  intro _
  exact rngNext_keeps

theorem execVrngn_canonical {p et d} (h : s.canonical) : CanonicalOut (execVrngn p et d s) := by
  unfold execVrngn
  refine h.runInstr (.bind lanesHeld_keeps fun _ => .bind getSlot_keeps fun _ => .bind (eachM_keeps ?_) fun _ =>
      .bind mapElems_keeps fun _ => .pure _)
  intro _
  exact rngNext_keeps

/-! ### What `Moment` keeps -/

theorem mapMoments_keeps {q d f} : Keeps (mapMoments q d f) := .bind getSlot_keeps fun _ => modSlot_keeps

theorem rho_keeps {p cov} : Keeps (rho p cov) := by
  unfold rho
  refine .bind getSlot_keeps fun _ => ?_
  dsimp only
  split
  · exact .pure _
  · exact .pure _
  · exact .pure _
  · exact .bind require_keeps fun _ => .pure _

theorem byRule_keeps {q d f} : Keeps (byRule q d f) := by
  unfold byRule
  refine .bind getSlot_keeps fun _ => ?_
  dsimp only
  split
  · exact trap_keeps
  · exact .bind mapMoments_keeps fun _ => .bind setFlags_keeps fun _ => .pure _

theorem execMadd_canonical {p cov d a b} (h : s.canonical) : CanonicalOut (execMadd p cov d a b s) :=
  h.runInstr (.bind lanesHeld_keeps fun _ => .bind rho_keeps fun _ => byRule_keeps)

theorem execMsub_canonical {p cov d a b} (h : s.canonical) : CanonicalOut (execMsub p cov d a b s) :=
  h.runInstr (.bind lanesHeld_keeps fun _ => .bind rho_keeps fun _ => byRule_keeps)

theorem execMmul_canonical {p cov d a b} (h : s.canonical) : CanonicalOut (execMmul p cov d a b s) :=
  h.runInstr (.bind lanesHeld_keeps fun _ => .bind rho_keeps fun _ => byRule_keeps)

theorem execMscale_canonical {p d a b} (h : s.canonical) : CanonicalOut (execMscale p d a b s) :=
  h.runInstr (.bind lanesHeld_keeps fun _ => byRule_keeps)

theorem execMfma_canonical {p cov d a b} (h : s.canonical) : CanonicalOut (execMfma p cov d a b s) :=
  h.runInstr (.bind lanesHeld_keeps fun _ => .bind rho_keeps fun _ => byRule_keeps)

theorem execMneg_canonical {p d a} (h : s.canonical) : CanonicalOut (execMneg p d a s) :=
  h.runInstr (.bind lanesHeld_keeps fun _ => .bind getSlot_keeps fun _ => .bind mapMoments_keeps fun _ => .pure _)

theorem execMrelu_canonical {p d a} (h : s.canonical) : CanonicalOut (execMrelu p d a s) :=
  h.runInstr (.bind lanesHeld_keeps fun _ => byRule_keeps)

theorem execMsig_canonical {p d a} (h : s.canonical) : CanonicalOut (execMsig p d a s) :=
  h.runInstr (.bind lanesHeld_keeps fun _ => byRule_keeps)

theorem execMexp_canonical {p d a} (h : s.canonical) : CanonicalOut (execMexp p d a s) :=
  h.runInstr (.bind lanesHeld_keeps fun _ => byRule_keeps)

theorem execMsqr_canonical {p d a} (h : s.canonical) : CanonicalOut (execMsqr p d a s) :=
  h.runInstr (.bind lanesHeld_keeps fun _ => byRule_keeps)

theorem execMset_canonical {p d a b} (h : s.canonical) : CanonicalOut (execMset p d a b s) := by
  unfold execMset
  refine h.runInstr (.bind lanesHeld_keeps fun _ => .bind getSlot_keeps fun _ => ?_)
  split
  · exact trap_keeps
  · exact .bind mapMoments_keeps fun _ => .pure _

theorem execMmean_canonical {p d a} (h : s.canonical) : CanonicalOut (execMmean p d a s) :=
  h.runInstr (.bind lanesHeld_keeps fun _ => .bind mapElems_keeps fun _ => .pure _)

theorem execMvar_canonical {p d a} (h : s.canonical) : CanonicalOut (execMvar p d a s) :=
  h.runInstr (.bind lanesHeld_keeps fun _ => .bind mapElems_keeps fun _ => .pure _)

theorem execMcoll_canonical {p mode d a} (h : s.canonical) : CanonicalOut (execMcoll p mode d a s) := by
  unfold execMcoll
  refine h.runInstr (.bind lanesHeld_keeps fun _ => .bind getSlot_keeps fun _ => .bind (eachM_keeps ?_) fun _ =>
      .bind mapElems_keeps fun _ => .pure _)
  intro _
  exact rngNext_keeps

theorem mldEnd_keeps {p d got} : Keeps (mldEnd p d got) := by
  unfold mldEnd
  refine .bind getSlot_keeps fun _ => ?_
  dsimp only
  split
  · exact trap_keeps
  · exact mapMoments_keeps

theorem execMld_canonical {p d k off} (h : s.canonical) : CanonicalOut (execMld p d k off s) := by
  unfold execMld
  refine h.runInstr (.bind lanesHeld_keeps fun _ => .bind getSlot_keeps fun _ => .bind kreg_keeps fun _ =>
      .bind elemPlaces_keeps fun _ => loadElems_keeps ?_)
  intro _
  exact mldEnd_keeps

theorem execMst_canonical {p d k off} (h : s.canonical) : CanonicalOut (execMst p d k off s) := by
  unfold execMst
  refine h.runInstr (.bind lanesHeld_keeps fun _ => .bind getSlot_keeps fun _ => .bind kreg_keeps fun _ =>
      .bind elemPlaces_keeps fun _ => .bind storeSlot_keeps fun _ => .bind newNo_keeps fun _ => .bind (eachM_keeps ?_) fun _ =>
      .pure _)
  intro _
  split
  · exact .pure _
  · exact storePlace_keeps

theorem execMchk_canonical {p d a} (h : s.canonical) : CanonicalOut (execMchk p d a s) :=
  h.runInstr (.bind lanesHeld_keeps fun _ => .bind getSlot_keeps fun _ => .bind dst_keeps fun _ => .pure _)

/-! ### What `Elements` keeps -/

theorem thenNext_keeps {m} (hm : Keeps m) : Keeps (thenNext m) := .bind hm fun _ => .pure _

theorem ElemJob.last_keeps {j : ElemJob} : Keeps j.last.2 := by
  unfold ElemJob.last
  split
  · exact thenNext_keeps vloadEnd_keeps
  · exact thenNext_keeps vloadEnd_keeps
  · exact thenNext_keeps vloadEnd_keeps
  · exact thenNext_keeps mldEnd_keeps
  · exact tableNext_keeps
  · exact .pure _

theorem State.canonical.finishLoad {g} (h : s.canonical) : CanonicalOpt (s.finishLoad g) := by
  refine .bind fun j _ => ?_
  have hl := ElemJob.last_keeps (j := j) { s with cur := g } h.same
  dsimp only
  split
  · exact .map fun _ hu => (h.takeTrap _ hu).modSlot
  · split
    next hr => rw [hr] at hl; exact .some (State.canonical.same hl)
    next hr => rw [hr] at hl; exact .some (State.canonical.modSlot (State.canonical.complete (State.canonical.same hl)))
    · exact .map fun _ hu => (h.takeTrap _ hu).modSlot
    · exact .none

theorem State.canonical.settleSlot {g} (h : s.canonical) : (s.settleSlot g).canonical := .ite (h.finishLoad.getD h) h.settleCommit

theorem State.canonical.homeAccess {id} (h : s.canonical) : CanonicalOpt (s.homeAccess id) := by
  unfold State.homeAccess
  split
  · exact .none
  · exact .ite (.map fun _ ha => (h.perform _ ha).settleSlot) .none

/-! ### What `Compress` keeps -/

theorem State.canonical.loadCodebook {p d slot gen bs} (h : s.canonical) : (s.loadCodebook p d slot gen bs).canonical := h.same

/-! ### What `SysReg` keeps -/

theorem quadHere_keeps : Keeps quadHere := .get fun _ _ => .pure _

theorem writeSys_keeps {n v} : Keeps (writeSys n v) :=
  .get fun _ h => .ite (.bind notLatent_keeps fun _ => .bind (.set h.mailboxArrive) fun _ =>
      .ite (.pure _) (.bind modSlot_keeps fun _ => .pure _)) (.ite (.bind (.set h.mbxpWrite) fun _ =>
      .pure _) (.ite (.bind (.set h.modQuad) fun _ => .pure _) (.bind modSlot_keeps fun _ => .pure _)))

theorem sysPrivilege_keeps {sys tval} : Keeps (sysPrivilege sys tval) := .ite (privileged_keeps) (.pure _)

theorem execMfs_canonical {d sys} (h : s.canonical) : CanonicalOut (execMfs d sys s) :=
  h.runInstr (.bind sysPrivilege_keeps fun _ => .get fun _ _ => .bind dst_keeps fun _ => .pure _)

theorem execMts_canonical {sys a} (h : s.canonical) : CanonicalOut (execMts sys a s) :=
  h.runInstr (.bind sysPrivilege_keeps fun _ => .bind src_keeps fun _ => writeSys_keeps)

theorem execMtsi_canonical {sys ihi ilo} (h : s.canonical) : CanonicalOut (execMtsi sys ihi ilo s) :=
  h.runInstr (.bind sysPrivilege_keeps fun _ => writeSys_keeps)

/-! ### What `Tile` keeps -/

theorem State.canonical.accClean {quad y} (h : s.canonical) : (s.accClean quad y).canonical :=
  ⟨h.1, h.2.1, SMap.wf_set (accLine quad y) false h.2.2⟩

theorem State.canonical.tileTo {quad z st} (h : s.canonical) : (s.tileTo quad z st).canonical := h.modQuad

theorem State.canonical.setTile {quad z st bytes} (h : s.canonical) : (s.setTile quad z st bytes).canonical :=
  have hs : ((s.modQuad quad fun q => q.modTile z fun t => { t with bytes := bytes }).tileTo quad z st).canonical :=
      h.modQuad.tileTo
  ⟨hs.1, hs.2.1, SMap.wf_filter h.2.2⟩

theorem tileIssue_keeps {quad z st} : Keeps (tileIssue quad z st) := .modify fun _ h => h.tileTo

theorem legalDesc_keeps {quad z} : Keeps (legalDesc quad z) := .get fun _ _ => .bind require_keeps fun _ => .pure _

theorem oneChange_keeps {quad z} : Keeps (oneChange quad z) := .get fun _ _ => await_keeps

theorem readsTile_keeps {quad z} : Keeps (readsTile quad z) := by
  unfold readsTile
  refine .bind oneChange_keeps fun _ => .get fun _ h => ?_
  split
  · exact trap_keeps
  · exact .pure _
  · exact block_keeps

theorem writesTile_keeps {quad z} : Keeps (writesTile quad z) := by
  unfold writesTile
  refine .bind oneChange_keeps fun _ => .get fun _ h => ?_
  split
  · exact block_keeps
  · exact block_keeps
  · exact .pure _

theorem issuerHere_keeps : Keeps issuerHere := .get fun _ _ => .pure _

theorem State.canonical.engineError {o engine code addr} (h : s.canonical) : (s.engineError o engine code addr).canonical := by
  unfold State.engineError
  refine State.canonical.errorRecord ?_
  split
  · exact h.modTask.groupLater
  · exact h.modTask

theorem State.canonical.arrayError {o code mcheck} (h : s.canonical) : (s.arrayError o code mcheck).canonical :=
  .ite h.engineError.modTask h.engineError

theorem rowPlaces_keeps {k load v n off} : Keeps (rowPlaces k load v n off) := by
  unfold rowPlaces
  refine .bind checkCap_keeps fun _ => eachM_keeps ?_
  intro _
  exact .get fun _ _ => .bind locate_keeps fun _ => .ite (.bind notAcrossDies_keeps fun _ => .pure _) (.pure _)

theorem sendPiece_keeps {quad z instr e} : Keeps (sendPiece quad z instr e) := by
  unfold sendPiece
  dsimp only
  split
  · exact .bind newNo_keeps fun _ => .get fun _ h => .set h.launchAccess
  · exact .pure _

theorem tileRows_keeps {load quad zd ka b} : Keeps (tileRows load quad zd ka b) := by
  unfold tileRows
  refine .ite (.bind writesTile_keeps fun _ => .bind legalDesc_keeps fun _ => .bind require_keeps fun _ =>
      .bind require_keeps fun _ => .bind kreg_keeps fun _ => .bind (eachM_keeps ?_) fun _ =>
      .pure _) (.bind readsTile_keeps fun _ => .bind legalDesc_keeps fun _ => .bind require_keeps fun _ =>
      .bind require_keeps fun _ => .bind kreg_keeps fun _ => .bind (eachM_keeps ?_) fun _ => .pure _)
  · intro _
    exact rowPlaces_keeps
  · intro _
    exact rowPlaces_keeps

theorem streamPlaces_keeps {h₁ st k} : Keeps (streamPlaces h₁ st k) := rowPlaces_keeps

theorem execZld_canonical {expand zd ka b} (h : s.canonical) : CanonicalOut (execZld expand zd ka b s) := by
  unfold execZld
  refine h.runInstr (.bind src_keeps fun _ => .bind quadHere_keeps fun _ => .bind tileRows_keeps fun _ => .bind kreg_keeps fun _ =>
      .ite (.bind streamPlaces_keeps fun _ => .bind issuerHere_keeps fun _ => .get fun _ h' => .bind newNo_keeps fun _ =>
      .bind (.modify fun _ h'' => h''.setTile.modQuad) fun _ => .bind (eachM_keeps ?_) fun _ => .pure _) (.bind (.pure _) fun _ =>
      .bind issuerHere_keeps fun _ => .get fun _ h' => .bind newNo_keeps fun _ => .bind (.modify fun _ h'' =>
      h''.setTile.modQuad) fun _ => .bind (eachM_keeps ?_) fun _ => .pure _))
  · intro _
    exact sendPiece_keeps
  · intro _
    exact sendPiece_keeps

theorem execZst_canonical {zd ka b} (h : s.canonical) : CanonicalOut (execZst zd ka b s) := by
  unfold execZst
  refine h.runInstr (.bind src_keeps fun _ => .bind quadHere_keeps fun _ => .bind tileRows_keeps fun _ =>
      .bind storeSlot_keeps fun _ => .get fun _ h' => .bind require_keeps fun _ => .bind tileIssue_keeps fun _ =>
      .bind newNo_keeps fun _ => .bind (eachM_keeps ?_) fun _ => .pure _)
  intro _
  exact storePlace_keeps

theorem State.canonical.zldComplete {quad z} (h : s.canonical) : CanonicalOpt (s.zldComplete quad z) := by
  unfold State.zldComplete
  dsimp only
  split
  · exact .none
  · split
    · exact .none
    · split
      · exact .some h.modQuad.setTile.arrayError
      · split
        · exact .some h.modQuad.tileTo
        · split
          · exact .ite (.some h.modQuad.setTile) (.some h.modQuad.setTile.arrayError)
          · exact .some h.modQuad.setTile.arrayError

theorem execZldComplete_canonical {quad z} (h : s.canonical) : CanonicalOut (execZldComplete quad z s) := .event h.zldComplete

theorem fillTile_keeps {quad z bytes} : Keeps (fillTile quad z bytes) :=
  .bind issuerHere_keeps fun _ => .bind newNo_keeps fun _ => .modify fun _ h => h.setTile.modQuad

theorem execZzero_canonical {zd} (h : s.canonical) : CanonicalOut (execZzero zd s) :=
  h.runInstr (.bind quadHere_keeps fun _ => .bind writesTile_keeps fun _ => .bind legalDesc_keeps fun _ =>
      .bind fillTile_keeps fun _ => .pure _)

theorem execZrel_canonical {zd} (h : s.canonical) : CanonicalOut (execZrel zd s) :=
  h.runInstr (.bind quadHere_keeps fun _ => .bind writesTile_keeps fun _ => .bind legalDesc_keeps fun _ =>
      .bind (.modify fun _ h' => h'.setTile) fun _ => .pure _)

theorem execZstate_canonical {d za} (h : s.canonical) : CanonicalOut (execZstate d za s) :=
  h.runInstr (.bind quadHere_keeps fun _ => .get fun _ _ => .bind dst_keeps fun _ => .pure _)

theorem execZmov_canonical {zd za} (h : s.canonical) : CanonicalOut (execZmov zd za s) :=
  h.runInstr (.bind quadHere_keeps fun _ => .bind readsTile_keeps fun _ => .ite (.bind writesTile_keeps fun _ =>
      .bind legalDesc_keeps fun _ => .bind legalDesc_keeps fun _ => .get fun _ _ => .bind require_keeps fun _ =>
      .ite (.pure _) (.bind tileIssue_keeps fun _ => .bind fillTile_keeps fun _ => .pure _)) (.bind legalDesc_keeps fun _ =>
      .bind legalDesc_keeps fun _ => .get fun _ _ => .bind require_keeps fun _ => .ite (.pure _) (.bind tileIssue_keeps fun _ =>
      .bind fillTile_keeps fun _ => .pure _)))

/-! ### What `Matrix` keeps -/

theorem queueRoom_keeps {q} : Keeps (queueRoom q) := .get fun _ _ => await_keeps

theorem enterQueue_keeps {q c} : Keeps (enterQueue q c) := .bind issuerHere_keeps fun _ => .modify fun _ h => h.modQuad

theorem accValid_keeps {q y} : Keeps (accValid q y) := .get fun _ _ => require_keeps

theorem execWload_canonical {za} (h : s.canonical) : CanonicalOut (execWload za s) :=
  h.runInstr (.bind quadHere_keeps fun _ => .bind oneChange_keeps fun _ => .bind legalDesc_keeps fun _ =>
      .bind readsTile_keeps fun _ => .ite (.bind readsTile_keeps fun _ => .bind require_keeps fun _ => .bind require_keeps fun _ =>
      .bind require_keeps fun _ => .bind queueRoom_keeps fun _ => .bind tileIssue_keeps fun _ =>
      .ite (.bind tileIssue_keeps fun _ => .bind (.modify fun _ h' => h'.modQuad) fun _ => .bind enterQueue_keeps fun _ =>
      .pure _) (.bind (.modify fun _ h' => h'.modQuad) fun _ => .bind enterQueue_keeps fun _ =>
      .pure _)) (.bind require_keeps fun _ => .bind require_keeps fun _ => .bind require_keeps fun _ =>
      .bind queueRoom_keeps fun _ => .bind tileIssue_keeps fun _ => .ite (.bind tileIssue_keeps fun _ => .bind (.modify fun _ h' =>
      h'.modQuad) fun _ => .bind enterQueue_keeps fun _ => .pure _) (.bind (.modify fun _ h' => h'.modQuad) fun _ =>
      .bind enterQueue_keeps fun _ => .pure _)))

theorem execWswap_canonical (h : s.canonical) : CanonicalOut (execWswap s) :=
  h.runInstr (.bind quadHere_keeps fun _ => .bind queueRoom_keeps fun _ => .bind (.modify fun _ h' => h'.modQuad) fun _ =>
      .bind enterQueue_keeps fun _ => .pure _)

theorem forEach_keeps {l : List α} {f : α → Exec Unit} (hf : ∀ a, Keeps (f a)) : Keeps (forEach l f) :=
  .bind (eachM_keeps hf) fun _ => .pure _

theorem mmaIssue_keeps {moment y z} : Keeps (mmaIssue moment y z) := by
  unfold mmaIssue
  refine .bind quadHere_keeps fun _ => .get fun _ h => .bind (forEach_keeps ?_) fun _ => .bind (eachM_keeps ?_) fun _ =>
      .bind (forEach_keeps ?_) fun _ => .bind (forEach_keeps ?_) fun _ => .bind (forEach_keeps ?_) fun _ =>
      .bind (forEach_keeps ?_) fun _ => .bind (forEach_keeps ?_) fun _ => .bind (forEach_keeps ?_) fun _ => ?_
  · intro _
    refine forEach_keeps ?_
    intro _
    exact oneChange_keeps
  · intro _
    exact .bind legalDesc_keeps fun _ => .bind require_keeps fun _ => .pure _
  · intro _
    refine forEach_keeps ?_
    intro _
    exact readsTile_keeps
  · intro _
    exact require_keeps
  · intro _
    exact accValid_keeps
  · intro _
    exact require_keeps
  · intro _
    exact .bind require_keeps fun _ => require_keeps
  · intro _
    exact require_keeps
  · dsimp only
    split
    · refine .bind require_keeps fun _ => .bind queueRoom_keeps fun _ => .bind (forEach_keeps ?_) fun _ =>
          .bind enterQueue_keeps fun _ => .bind modSlot_keeps fun _ => .pure _
      intro _
      refine forEach_keeps ?_
      intro _
      exact tileIssue_keeps
    · refine .bind queueRoom_keeps fun _ => .bind (forEach_keeps ?_) fun _ => .bind enterQueue_keeps fun _ =>
          .bind modSlot_keeps fun _ => .pure _
      intro _
      refine forEach_keeps ?_
      intro _
      exact tileIssue_keeps

theorem execMma_canonical {yd za} (h : s.canonical) : CanonicalOut (execMma yd za s) := h.runInstr mmaIssue_keeps

theorem execMmam_canonical {yd za} (h : s.canonical) : CanonicalOut (execMmam yd za s) := h.runInstr mmaIssue_keeps

theorem execYzero_canonical {mom yd} (h : s.canonical) : CanonicalOut (execYzero mom yd s) :=
  h.runInstr (.bind quadHere_keeps fun _ => .bind queueRoom_keeps fun _ => .bind (.modify fun _ h' => h'.modQuad) fun _ =>
      .bind enterQueue_keeps fun _ => .pure _)

theorem execYmov_canonical {yd ya} (h : s.canonical) : CanonicalOut (execYmov yd ya s) :=
  h.runInstr (.bind quadHere_keeps fun _ => .bind accValid_keeps fun _ => .bind queueRoom_keeps fun _ => .get fun _ _ =>
      .bind (.modify fun _ h'' => h''.modQuad) fun _ => .bind enterQueue_keeps fun _ => .pure _)

theorem execYdrain_canonical {p zero zd ya b} (h : s.canonical) : CanonicalOut (execYdrain p zero zd ya b s) := by
  unfold execYdrain
  refine h.runInstr (.bind src_keeps fun _ => .bind quadHere_keeps fun _ => .bind oneChange_keeps fun _ =>
      .bind legalDesc_keeps fun _ => .get fun _ h' => .bind (forEach_keeps ?_) fun _ => .bind require_keeps fun _ =>
      .bind require_keeps fun _ => .bind require_keeps fun _ => .bind accValid_keeps fun _ => .bind queueRoom_keeps fun _ =>
      .bind getSlot_keeps fun _ => .ite (.bind takeFields_keeps fun _ => .bind (.pure _) fun _ => .bind (forEach_keeps ?_) fun _ =>
      .bind enterQueue_keeps fun _ => .pure _) (.bind (.pure _) fun _ => .bind (forEach_keeps ?_) fun _ =>
      .bind enterQueue_keeps fun _ => .pure _))
  · intro _
    exact writesTile_keeps
  · intro _
    exact .modify fun _ h'' => h''.setTile
  · intro _
    exact .modify fun _ h'' => h''.setTile

theorem State.canonical.allReady {zs} (h : s.canonical) : (s.allReady zs).canonical := h.foldl fun _ _ h' => h'.tileTo

theorem State.canonical.runMma {c y z ds m} (h : s.canonical) : CanonicalExc (s.runMma c y z ds m) :=
  .ite .error (.ok (h.foldl fun _ _ h => h.modQuad))

theorem State.canonical.runWload {c z d} (h : s.canonical) : CanonicalExc (s.runWload c z d) := .ite .error (.ok h.modQuad)

theorem State.canonical.runYdrain {c z y d scale moment zero mode sat ds} (h : s.canonical) :
    (s.runYdrain c z y d scale moment zero mode sat ds).canonical := by
  unfold State.runYdrain
  dsimp only
  refine State.canonical.modTask (.ite (State.canonical.modQuad ?_) ?_)
  · exact .ite_fst h.setTile.setTile h.setTile
  · exact .ite_fst h.setTile.setTile h.setTile

theorem State.canonical.rejoin {o} (h : s.canonical) : (s.rejoin o).canonical := .ite h.complete h

theorem State.canonical.discard {c code} (h : s.canonical) : (s.discard c code).canonical := by
  unfold State.discard
  refine State.canonical.arrayError ?_
  dsimp only
  split
  · exact (h.allReady.foldl fun _ _ h' => h'.modQuad).rejoin
  · exact h.allReady.modQuad
  · exact h.allReady.modQuad
  · exact .ite h.allReady.setTile.setTile h.allReady.setTile
  · exact h.allReady.modQuad
  · exact h.allReady

theorem State.canonical.haltQueue {lead i code} (h : s.canonical) : (s.haltQueue lead i code).canonical := by
  unfold State.haltQueue
  dsimp only
  exact .congr rfl ((h.modQuad.foldl fun _ _ h' => h'.discard).foldl fun _ _ h' => h'.modQuad)

theorem State.canonical.runCmd {c} (h : s.canonical) : CanonicalExc (s.runCmd c) := by
  unfold State.runCmd
  refine .ite .error ?_
  split
  · exact .map fun _ hu => (h.runWload _ hu).allReady
  · exact .ok h.modQuad
  · exact .map fun _ hu => (h.runMma _ hu).allReady.rejoin
  · exact .ok h.accClean.modQuad
  · exact .ok h.accClean.modQuad
  · exact .ok h.runYdrain

theorem State.canonical.execCmd {q i f} (h : s.canonical) : CanonicalOpt (s.execCmd q i f) := by
  unfold State.execCmd
  dsimp only
  split
  · exact .none
  · refine .ite ?_ .none
    split
    next hu => exact .some (h.runCmd _ hu).modQuad
    · exact .ite (.some h.haltQueue) .none

theorem execWloadExecute_canonical {quad} (h : s.canonical) : CanonicalOut (execWloadExecute quad s) := .event h.execCmd

theorem execWswapExecute_canonical {quad} (h : s.canonical) : CanonicalOut (execWswapExecute quad s) := .event h.execCmd

theorem execMmaExecute_canonical {quad} (h : s.canonical) : CanonicalOut (execMmaExecute quad s) := .event h.execCmd

theorem execMmamExecute_canonical {quad} (h : s.canonical) : CanonicalOut (execMmamExecute quad s) := .event h.execCmd

theorem execYzeroExecute_canonical {quad} (h : s.canonical) : CanonicalOut (execYzeroExecute quad s) := .event h.execCmd

theorem execYdrainExecute_canonical {quad} (h : s.canonical) : CanonicalOut (execYdrainExecute quad s) := .event h.execCmd

theorem execYmovExecute_canonical {quad} (h : s.canonical) : CanonicalOut (execYmovExecute quad s) := .event h.execCmd

theorem State.canonical.tileDrainDone {quad z} (h : s.canonical) : CanonicalOpt (s.tileDrainDone quad z) :=
  .ite (.some h.tileTo) .none

theorem execTileDrainDone_canonical {quad z} (h : s.canonical) : CanonicalOut (execTileDrainDone quad z s) := .event h.tileDrainDone

theorem fuse_keeps {a tval ok m} : Keeps (fuse a tval ok m) :=
  .bind privileged_keeps fun _ => .bind src_keeps fun _ => .bind require_keeps fun _ => .get fun _ h =>
      .bind require_keeps fun _ => .bind require_keeps fun _ => .bind await_keeps fun _ => .bind (.set (h.foldl fun _ _ h' =>
      h'.modQuad)) fun _ => .pure _

theorem execQfuse_canonical {a} (h : s.canonical) : CanonicalOut (execQfuse a s) := h.runInstr fuse_keeps

theorem execQsplit_canonical {a} (h : s.canonical) : CanonicalOut (execQsplit a s) := h.runInstr fuse_keeps

theorem State.canonical.putQuad {quad q} (h : s.canonical) : (s.putQuad quad q).canonical :=
  have hs : (s.modQuad quad fun old => { q with fused := old.fused, keep := old.keep, lines := [] }).canonical := h.modQuad
  ⟨hs.1, hs.2.1, SMap.wf_foldl_set (SMap.wf_filter h.2.2)⟩

theorem State.canonical.tileStateDrain {quad} (h : s.canonical) : CanonicalOpt (s.tileStateDrain quad) := by
  unfold State.tileStateDrain
  dsimp only
  split
  · exact .none
  · split
    · exact .none
    · split
      · exact .some (.congr rfl h.modQuad.putQuad)
      · exact .some (.congr rfl h.modQuad.putQuad)

theorem execTileStateDrain_canonical {quad} (h : s.canonical) : CanonicalOut (execTileStateDrain quad s) := .event h.tileStateDrain

/-! ### What `Ring` keeps -/

theorem State.canonical.failParked {r c tval} (h : s.canonical) : (s.failParked r c tval).canonical :=
  h.same.modSlot.takeTrap.getD h.same.modSlot

theorem State.canonical.finishParked {r x} (h : s.canonical) : (s.finishParked r x).canonical := by
  unfold State.finishParked
  dsimp only
  split
  · split
    · exact (State.canonical.ite h.same.performWrites.modCore h.same.performWrites).completeWith
    · exact (State.canonical.ite h.same.performWrites.modCore h.same.performWrites).complete
  · exact h.failParked

theorem State.canonical.firstReady {key} (h : s.canonical) : CanonicalOpt (s.firstReady key) := by
  refine .findSome fun i => ?_
  split
  · exact .none
  · split
    · exact .some h.failParked
    · exact .none
    · exact .some h.finishParked

theorem State.canonical.reevaluate {key n} (h : s.canonical) : (s.reevaluate key n).canonical := by
  induction n generalizing s with
  | zero => exact h
  | succ n ih =>
    unfold State.reevaluate
    split
    · exact h
    next hu => exact ih (h.firstReady _ hu)

theorem State.canonical.afterStep {key} (h : s.canonical) : (s.afterStep key).canonical := h.reevaluate

theorem park_keeps {r op} : Keeps (park r op) := .bind (.modify fun _ h => h.same) fun _ => .bind modSlot_keeps fun _ => .pure _

theorem State.canonical.unpark {g} (h : s.canonical) : CanonicalOpt (s.unpark g) := by
  unfold State.unpark
  dsimp only
  split
  · exact .none
  · exact .some h.same.modSlot.afterStep

theorem State.canonical.withdraw {g} (h : s.canonical) : CanonicalOpt (s.withdraw g) := .ite h.unpark .none

theorem execParkedWithdrawal_canonical {slot} (h : s.canonical) : CanonicalOut (execParkedWithdrawal slot s) := .event h.withdraw

theorem headerAt_keeps {k perm bits} : Keeps (headerAt k perm bits) := objectAt_keeps

theorem checkBase_keeps {b n} : Keeps (checkBase b n) :=
  .bind require_keeps fun _ => .bind require_keeps fun _ => .bind require_keeps fun _ => .bind require_keeps fun _ => require_keeps

theorem execRinit_canonical {ka kb s1} (h : s.canonical) : CanonicalOut (execRinit ka kb s1 s) :=
  h.runInstr (.bind notLatent_keeps fun _ => .bind kreg_keeps fun _ => .bind kreg_keeps fun _ => .bind headerAt_keeps fun _ =>
      .bind require_keeps fun _ => .bind checkBase_keeps fun _ => .bind require_keeps fun _ => .bind readBytes_keeps fun _ =>
      .get fun _ h' => .bind require_keeps fun _ => .bind (.set h'.performWrites) fun _ => .pure _)

theorem ringStep_keeps {r x d op acq} : Keeps (ringStep r x d op acq) := by
  unfold ringStep
  dsimp only
  split
  · exact trap_keeps
  · split
    · exact .bind dst_keeps fun _ => .pure _
    · exact .pure _
  · split
    · exact park_keeps
    · exact .pure _
  · refine .bind writeObject_keeps fun _ => ?_
    split
    · exact .bind dst_keeps fun _ => .ite (.bind acquire_keeps fun _ => .bind (.modify fun _ h => h.afterStep) fun _ =>
          .pure _) (.bind (.modify fun _ h => h.afterStep) fun _ => .pure _)
    · exact .ite (.bind acquire_keeps fun _ => .bind (.modify fun _ h => h.afterStep) fun _ => .pure _) (.bind (.modify fun _ h =>
          h.afterStep) fun _ => .pure _)

theorem readRing_keeps {r} : Keeps (readRing r) := .bind readBytes_keeps fun _ => .pure _

theorem execRclaim_canonical {scope d ka b} (h : s.canonical) : CanonicalOut (execRclaim scope d ka b s) :=
  h.runInstr (.bind src_keeps fun _ => .bind roleIs_keeps fun _ => .bind notLatent_keeps fun _ => .bind kreg_keeps fun _ =>
      .bind headerAt_keeps fun _ => .bind readRing_keeps fun _ => .get fun _ _ => ringStep_keeps)

theorem execRtryclaim_canonical {scope d ka b} (h : s.canonical) : CanonicalOut (execRtryclaim scope d ka b s) :=
  h.runInstr (.bind src_keeps fun _ => .bind notLatent_keeps fun _ => .bind kreg_keeps fun _ => .bind headerAt_keeps fun _ =>
      .bind readRing_keeps fun _ => .get fun _ _ => ringStep_keeps)

theorem execRcommit_canonical {scope ka i b} (h : s.canonical) : CanonicalOut (execRcommit scope ka i b s) :=
  h.runInstr (.bind src_keeps fun _ => .bind src_keeps fun _ => .bind roleIs_keeps fun _ => .bind notLatent_keeps fun _ =>
      .bind kreg_keeps fun _ => .bind fenceRel_keeps fun _ => .bind headerAt_keeps fun _ => .bind readRing_keeps fun _ =>
      ringStep_keeps)

theorem execRawait_canonical {scope d ka b} (h : s.canonical) : CanonicalOut (execRawait scope d ka b s) :=
  h.runInstr (.bind src_keeps fun _ => .bind roleIs_keeps fun _ => .bind notLatent_keeps fun _ => .bind kreg_keeps fun _ =>
      .bind headerAt_keeps fun _ => .bind readRing_keeps fun _ => .get fun _ _ => ringStep_keeps)

theorem execRretire_canonical {scope ka i b} (h : s.canonical) : CanonicalOut (execRretire scope ka i b s) :=
  h.runInstr (.bind src_keeps fun _ => .bind src_keeps fun _ => .bind roleIs_keeps fun _ => .bind notLatent_keeps fun _ =>
      .bind kreg_keeps fun _ => .bind fenceRel_keeps fun _ => .bind headerAt_keeps fun _ => .bind readRing_keeps fun _ =>
      ringStep_keeps)

theorem barrierAt_keeps {k} : Keeps (barrierAt k) := .bind objectAt_keeps fun _ => .bind readBytes_keeps fun _ => .pure _

theorem barStep_keeps {r x d} : Keeps (barStep r x d) := by
  unfold barStep
  dsimp only
  split
  · refine .bind writeObject_keeps fun _ => ?_
    split
    · exact .bind dst_keeps fun _ => .bind (.modify fun _ h => h.afterStep) fun _ => .pure _
    · exact .bind (.modify fun _ h => h.afterStep) fun _ => .pure _
  · exact trap_keeps

theorem execBinit_canonical {ka b} (h : s.canonical) : CanonicalOut (execBinit ka b s) :=
  h.runInstr (.bind src_keeps fun _ => .bind notLatent_keeps fun _ => .bind kreg_keeps fun _ => .bind barrierAt_keeps fun _ =>
      .get fun _ _ => .bind require_keeps fun _ => .bind writeObject_keeps fun _ => .pure _)

theorem execBarrive_canonical {scope d ka b} (h : s.canonical) : CanonicalOut (execBarrive scope d ka b s) :=
  h.runInstr (.bind src_keeps fun _ => .bind notLatent_keeps fun _ => .bind kreg_keeps fun _ => .bind fenceRel_keeps fun _ =>
      .bind barrierAt_keeps fun _ => barStep_keeps)

theorem execBexpect_canonical {ka b} (h : s.canonical) : CanonicalOut (execBexpect ka b s) :=
  h.runInstr (.bind src_keeps fun _ => .bind notLatent_keeps fun _ => .bind kreg_keeps fun _ => .bind barrierAt_keeps fun _ =>
      barStep_keeps)

theorem endStep_keeps {r o y} : Keeps (endStep r o y) :=
  .ite (.pure _) (.bind writeObject_keeps fun _ => .modify fun _ h => h.afterStep)

theorem execBwait_canonical {scope ka b} (h : s.canonical) : CanonicalOut (execBwait scope ka b s) := by
  unfold execBwait
  refine h.runInstr (.bind src_keeps fun _ => .bind roleIs_keeps fun _ => .bind notLatent_keeps fun _ => .bind kreg_keeps fun _ =>
      .bind barrierAt_keeps fun _ => ?_)
  split
  split
  · exact park_keeps
  · exact .bind endStep_keeps fun _ => .bind acquire_keeps fun _ => .pure _
  · exact trap_keeps

theorem execBtest_canonical {scope d ka b} (h : s.canonical) : CanonicalOut (execBtest scope d ka b s) :=
  h.runInstr (.bind src_keeps fun _ => .bind notLatent_keeps fun _ => .bind kreg_keeps fun _ => .bind barrierAt_keeps fun _ =>
      .bind require_keeps fun _ => .bind dst_keeps fun _ => .bind endStep_keeps fun _ => .ite (.bind acquire_keeps fun _ =>
      .pure _) (.pure _))

theorem State.canonical.barrierAdd {p t a n} (h : s.canonical) : CanonicalExc (s.barrierAdd p t a n) := by
  unfold State.barrierAdd
  refine .ite .error ?_
  split
  · exact .error
  · dsimp only
    split
    · exact .ok h.fillFor.performWrites.afterStep
    · exact .error

/-! ### What `Card` keeps -/

theorem cardAt_keeps {k perm bits} : Keeps (cardAt k perm bits) := by
  unfold cardAt
  refine .bind checkCap_keeps fun _ => .get fun _ h => .bind locate_keeps fun _ => .get fun _ h' => ?_
  split
  · exact .pure _
  · exact .pure _

theorem issueCard_keeps {kind ka ge sense g} : Keeps (issueCard kind ka ge sense g) := by
  unfold issueCard
  refine .bind roleIs_keeps fun _ => .bind notLatent_keeps fun _ => .bind kreg_keeps fun _ => .bind (inStep_keeps ?_) fun _ =>
      .get fun _ h => .ite (.bind readAgain_keeps fun _ => .bind getSlot_keeps fun _ => .ite (.bind (.set h.engineError) fun _ =>
      .bind forget_keeps fun _ => .pure _) (.bind releaseWait_keeps fun _ => .bind raiseLive_keeps fun _ =>
      .bind homeReady_keeps fun _ => .bind (.modify fun _ h' => h'.performWrites) fun _ => .bind newNo_keeps fun _ =>
      .get fun _ h' => .bind (.set h'.modEngine) fun _ => .bind forget_keeps fun _ => .pure _)) (.bind getSlot_keeps fun _ =>
      .ite (.bind (.set h.engineError) fun _ => .bind forget_keeps fun _ => .pure _) (.bind releaseWait_keeps fun _ =>
      .bind raiseLive_keeps fun _ => .bind homeReady_keeps fun _ => .bind (.modify fun _ h' => h'.performWrites) fun _ =>
      .bind newNo_keeps fun _ => .get fun _ h' => .bind (.set h'.modEngine) fun _ => .bind forget_keeps fun _ => .pure _))
  exact .bind cardAt_keeps fun _ => .get fun _ _ => .bind await_keeps fun _ => .bind beforeRead_keeps fun _ => look_keeps

theorem State.canonical.contribute {c pkg} (h : s.canonical) : (s.contribute c pkg).canonical := by
  unfold State.contribute
  dsimp only
  split
  · exact h
  · exact h.same.post

theorem State.canonical.beginStage {c g} (h : s.canonical) : (s.beginStage c g).2.canonical := by
  unfold State.beginStage
  dsimp only
  split
  · exact h
  · exact h.same.foldl fun _ _ h' => h'.contribute

theorem State.canonical.putCard {c} (h : s.canonical) : (s.putCard c).canonical := h.modEngine

theorem State.canonical.sendCardOp {c o} (h : s.canonical) : CanonicalOpt (s.sendCardOp c o) := by
  unfold State.sendCardOp
  dsimp only
  split
  · exact .none
  · split
    · exact .some h.putCard
    · exact .some h.putCard.post

theorem State.canonical.answerCard {c h₁} (h : s.canonical) : (s.answerCard c h₁).canonical := h.respond

theorem State.canonical.atHome {c o p} (h : s.canonical) : (s.atHome c o p).2.canonical := by
  unfold State.atHome
  dsimp only
  split
  · split
    · exact h
    · split
      · exact h.performWrites
      · split
        · exact h.fillFor
        · exact h.fillFor
  · exact h
  · split
    · exact h.same
    · split
      · exact h.same
      · split
        · exact h.same
        · exact h.same

theorem State.canonical.performCardOp {c o p} (h : s.canonical) : (s.performCardOp c o p).2.canonical := h.atHome.answerCard

/-! ### What `VPermute` keeps -/

theorem execVbcast_canonical {p et d a} (h : s.canonical) : CanonicalOut (execVbcast p et d a s) :=
  h.runInstr (.bind src_keeps fun _ => .bind lanesHeld_keeps fun _ => .bind mapElems_keeps fun _ => .pure _)

theorem execVext_canonical {p et d a b} (h : s.canonical) : CanonicalOut (execVext p et d a b s) :=
  h.runInstr (.bind src_keeps fun _ => .bind lanesHeld_keeps fun _ => .bind getSlot_keeps fun _ => .bind dst_keeps fun _ => .pure _)

theorem execVins_canonical {p et d a b} (h : s.canonical) : CanonicalOut (execVins p et d a b s) :=
  h.runInstr (.bind src_keeps fun _ => .bind src_keeps fun _ => .bind lanesHeld_keeps fun _ => .bind getSlot_keeps fun _ =>
      .ite (.bind modSlot_keeps fun _ => .pure _) (.pure _))

theorem execViota_canonical {p et d} (h : s.canonical) : CanonicalOut (execViota p et d s) :=
  h.runInstr (.bind lanesHeld_keeps fun _ => .bind mapElems_keeps fun _ => .pure _)

theorem execVshuf_canonical {p et d a b} (h : s.canonical) : CanonicalOut (execVshuf p et d a b s) :=
  h.runInstr (.bind lanesHeld_keeps fun _ => .bind mapElems_keeps fun _ => .pure _)

theorem reduce_keeps {op p et d a tval} : Keeps (reduce op p et d a tval) :=
  .bind lanesHeld_keeps fun _ => .bind getSlot_keeps fun _ => .ite (.bind dst_keeps fun _ =>
      .pure _) (.bind setFlags_keeps fun _ => .bind dst_keeps fun _ => .pure _)

theorem execVredsum_canonical {p et d a} (h : s.canonical) : CanonicalOut (execVredsum p et d a s) := h.runInstr reduce_keeps

theorem execVredmax_canonical {p et d a} (h : s.canonical) : CanonicalOut (execVredmax p et d a s) := h.runInstr reduce_keeps

theorem execVredmin_canonical {p et d a} (h : s.canonical) : CanonicalOut (execVredmin p et d a s) := h.runInstr reduce_keeps

/-! ### What `Transfer` keeps -/

theorem State.canonical.collJoin {c} (h : s.canonical) : (s.collJoin c).2.canonical := by
  unfold State.collJoin
  dsimp only
  split
  · exact h.same
  · exact h.same.beginStage

/-! ### What `Engine` keeps -/

theorem execCopy_canonical {k ge sense g} (h : s.canonical) : CanonicalOut (execCopy k ge sense g s) := h.runInstr issueCard_keeps

theorem execXform_canonical {k ge sense g} (h : s.canonical) : CanonicalOut (execXform k ge sense g s) := h.runInstr issueCard_keeps

theorem execColl_canonical {k ge sense g} (h : s.canonical) : CanonicalOut (execColl k ge sense g s) := h.runInstr issueCard_keeps

theorem execTrace_canonical {k ge sense g} (h : s.canonical) : CanonicalOut (execTrace k ge sense g s) := h.runInstr issueCard_keeps

theorem observeCard_keeps {waits d ka} : Keeps (observeCard waits d ka) := by
  unfold observeCard
  refine .bind roleIs_keeps fun _ => .bind kreg_keeps fun _ => .bind cardAt_keeps fun _ => .get fun _ h =>
      .bind getSlot_keeps fun _ => .bind await_keeps fun _ => ?_
  dsimp only
  split
  · exact trap_keeps
  · exact .bind readPlace_keeps fun _ => .bind dst_keeps fun _ => .ite (.bind acquire_keeps fun _ => .pure _) (.pure _)

theorem State.canonical.runReporting {len m} (h : s.canonical) (hm : Keeps m) : CanonicalOut (Machine.runReporting len m s) := by
  unfold Machine.runReporting
  split
  · split
    next ht => exact .next (h.noteIssue.modSlot.takeTrap _ ht)
    · exact .next h.passOver
  · exact h.runInstr hm

theorem execEwait_canonical {d ka} (h : s.canonical) : CanonicalOut (execEwait d ka s) := h.runReporting observeCard_keeps

theorem execEstat_canonical {d ka} (h : s.canonical) : CanonicalOut (execEstat d ka s) := h.runReporting observeCard_keeps

theorem State.canonical.cardAdvance {n} {c : Card} (h : s.canonical) : (cardAdvance n (c, s)).2.canonical := by
  induction n generalizing s c with
  | zero => exact h
  | succ n ih =>
    unfold Sys2Proof.Machine.cardAdvance
    split
    · split
      · exact ih h
      · exact ih h.beginStage
    · exact h

theorem State.canonical.keepCard {c} (h : s.canonical) : (s.keepCard c).canonical := .ite h.putCard h.cardAdvance.putCard

theorem State.canonical.cardAccess {id} (h : s.canonical) : CanonicalOpt (s.cardAccess id) := by
  unfold State.cardAccess
  split
  · exact .none
  · split
    · exact h.sendCardOp
    · exact .ite (.some h.performCardOp.keepCard) .none

theorem State.canonical.ackLands {id} (h : s.canonical) : (s.ackLands id).canonical := by
  unfold State.ackLands
  dsimp only
  split
  · exact h
  · split
    · split
      · exact h.same.keepCard
      · exact h.same.settleSlot
      · exact h.same
    · exact h.same.nwrDone
    · exact h.same.post

theorem State.canonical.ackLost {id} (h : s.canonical) : (s.ackLost id).canonical := by
  unfold State.ackLost
  dsimp only
  split
  · exact h
  · split
    · exact h.same.putCard
    · exact h.same.modSlot
    · exact h.same

theorem execHomeAccess_canonical {id} (h : s.canonical) : CanonicalOut (execHomeAccess id s) :=
  .event (.or h.homeAccess h.cardAccess)

theorem State.canonical.cardStart {e cls} (h : s.canonical) : CanonicalOpt (s.cardStart e cls) := by
  unfold State.cardStart
  dsimp only
  split
  · exact .none
  · split
    · exact .none
    · split
      · exact .none
      · split
        · split
          · exact .some h.modEngine.modEngine
          · split
            · exact .some h.modEngine.cardState.modEngine
            · exact .some h.modEngine.cardState.modEngine.keepCard
        · split
          · exact .some h.modEngine.modEngine
          · split
            · exact .some h.modEngine.cardState.modEngine
            · exact .some h.modEngine.cardState.modEngine.keepCard

theorem execCardStart_canonical {engine cls} (h : s.canonical) : CanonicalOut (execCardStart engine cls s) := .event h.cardStart

theorem State.canonical.cardError {c code} (h : s.canonical) : (s.cardError c code).canonical := by
  unfold State.cardError
  dsimp only
  split
  · exact h.engineError
  · refine State.canonical.errorRecord ?_
    split
    · exact h.groupLater
    · exact h

theorem State.canonical.cardCompletes {c} (h : s.canonical) : (s.cardCompletes c).2.canonical := by
  unfold State.cardCompletes
  split
  · split
    next hu => exact h.barrierAdd _ hu
    · exact h
  · split
    · dsimp only
      split
      next hu => exact h.resolveFuture.of_snd hu
      next hu => exact h.resolveFuture.of_snd hu
      next hu => exact h.resolveFuture.of_snd hu
      next hu => exact h.resolveFuture.of_snd hu
    · exact h

theorem State.canonical.finishCompletion {c} (h : s.canonical) : (s.finishCompletion c).canonical := by
  unfold State.finishCompletion
  extract_lets +onlyGivenNames c' s₁
  have h₁ : s₁.canonical := .ite h.cardError h
  split
  next e s₂ he =>
  have h₂ : s₂.canonical := h₁.cardCompletes.of_snd he
  refine State.canonical.putCard ?_
  split
  · exact h₂.cardError
  · exact h₂

theorem State.canonical.finishState {c} (h : s.canonical) : (s.finishState c).canonical := h.cardState.putCard

theorem State.canonical.finishLive {c} (h : s.canonical) : (s.finishLive c).canonical := h.liveNow.modEngine

theorem State.canonical.finishCard {c} (h : s.canonical) : CanonicalOpt (s.finishCard c) := by
  unfold State.finishCard
  dsimp only
  split
  · exact .ite (.some h.finishCompletion) .none
  · exact .ite (.some h.finishState) .none
  · exact .ite (.some h.finishLive) .none

theorem State.canonical.cardFinish {e i} (h : s.canonical) : CanonicalOpt (s.cardFinish e i) := by
  unfold State.cardFinish
  split
  · exact .none
  · exact .ite (.ite (.some h.collJoin.putCard) .none) (.ite h.finishCard .none)

theorem execCardFinish_canonical {engine i} (h : s.canonical) : CanonicalOut (execCardFinish engine i s) := .event h.cardFinish

theorem State.canonical.collTimeout {e i} (h : s.canonical) : CanonicalOpt (s.collTimeout e i) := by
  unfold State.collTimeout
  split
  · exact .none
  · exact .ite (.some h.putCard) .none

theorem execCollTimeout_canonical {engine i} (h : s.canonical) : CanonicalOut (execCollTimeout engine i s) := .event h.collTimeout

theorem State.canonical.bankWrite {e i} (h : s.canonical) : CanonicalOpt (s.bankWrite e i) := by
  unfold State.bankWrite
  split
  · exact .none
  · exact .ite (.some h.loadCodebook.putCard) .none

theorem execCodebookBankWrite_canonical {engine i} (h : s.canonical) : CanonicalOut (execCodebookBankWrite engine i s) :=
  .event h.bankWrite

theorem State.canonical.cardNotRun {r cl code addr} (h : s.canonical) : (s.cardNotRun r cl code addr).canonical := by
  unfold State.cardNotRun
  refine State.canonical.schedError ?_
  split
  · exact h.groupLater
  · exact h

theorem State.canonical.cardFromRecord {r cl} (h : s.canonical) : CanonicalOpt (s.cardFromRecord r cl) := by
  unfold State.cardFromRecord
  dsimp only
  split
  · exact .some h.cardNotRun
  · exact .ite (.some h.fillFor.cardNotRun) (.ite (.some h.fillFor.freshNo.modEngine) .none)

/-! ### What `Surrogate` keeps -/

theorem launchAt_keeps {k perm bits} : Keeps (launchAt k perm bits) := by
  unfold launchAt
  refine .bind place_keeps fun _ => ?_
  split
  · exact .pure _
  · exact trap_keeps

theorem State.canonical.launchStatus {l va seq} (h : s.canonical) : (s.launchStatus l va seq).canonical := h.performWrites

theorem State.canonical.launchBackground {l va} (h : s.canonical) : CanonicalOptSnd (s.launchBackground l va) := by
  unfold State.launchBackground
  extract_lets +onlyGivenNames s₁ s₂ s₃
  have h₃ : s₃.canonical := h.liveNow.launchStatus.same
  exact .map fun u hu => h₃.enqueue u hu

theorem State.canonical.launchAdmit {l va} (h : s.canonical) : (s.launchAdmit l va).2.canonical := by
  unfold State.launchAdmit
  extract_lets +onlyGivenNames rejected
  have hr : rejected.2.canonical := h.journalNew
  split
  · exact hr
  · split
    · exact hr
    next hu =>
      split
      · exact h
      next he =>
        have h₁ := (h.admitGroups _ hu).journalNew.of_snd he
        exact State.canonical.same h₁.groupNow.launchStatus

theorem execSlaunch_canonical {d ka} (h : s.canonical) : CanonicalOut (execSlaunch d ka s) := by
  unfold execSlaunch
  have hend {v : U64} : Keeps (do dst d v; forget; pure Flow.next) := .bind dst_keeps fun _ => .bind forget_keeps fun _ => .pure _
  refine h.runInstr (.bind roleIs_keeps fun _ => .bind getSlot_keeps fun _ => .bind require_keeps fun _ => .bind kreg_keeps fun _ =>
    .bind (inStep_keeps (.bind launchAt_keeps fun _ => .bind stepPlace_keeps fun _ => look_keeps)) fun o =>
    .bind (inStep_keeps (.bind stepPlace_keeps fun _ => look_keeps)) fun rest => .bind homeReady_keeps fun _ =>
        .bind newNo_keeps fun id =>
    .get fun _ _ => .ite hend (.ite (.bind beforeLive_keeps fun _ => .get fun u hu => ?_) (.bind beforeLive_keeps fun _ =>
      .get fun u hu => ?_)))
  · split
    next hl => exact .bind (.set (hu.launchAdmit.of_snd hl)) fun _ => hend
  · split
    · exact .bind block_keeps fun _ => .bind forget_keeps fun _ => .pure _
    next hl => exact .bind (.set (hu.launchBackground _ _ hl)) fun _ => hend

theorem post_keeps {r dev} : Keeps (post r dev) := by
  unfold post
  refine .bind getSlot_keeps fun _ => ?_
  split
  · exact .throw trivial
  · exact .ite (.throw trivial) (.ite (.throw trivial) (.bind modSlot_keeps fun _ => .pure _))

theorem execSresid_canonical {a} (h : s.canonical) : CanonicalOut (execSresid a s) :=
  h.runInstr (.bind src_keeps fun _ => .bind getSlot_keeps fun _ => .bind require_keeps fun _ => post_keeps)

theorem execSresidm_canonical {a b} (h : s.canonical) : CanonicalOut (execSresidm a b s) :=
  h.runInstr (.bind src_keeps fun _ => .bind src_keeps fun _ => .bind getSlot_keeps fun _ => .bind require_keeps fun _ =>
      post_keeps)

theorem execSabort_canonical (h : s.canonical) : CanonicalOut (execSabort s) :=
  h.runInstr (.bind getSlot_keeps fun _ => .bind require_keeps fun _ => .throw trivial)

theorem execSstat_canonical {d ka} (h : s.canonical) : CanonicalOut (execSstat d ka s) :=
  h.runInstr (.bind roleIs_keeps fun _ => .bind kreg_keeps fun _ => .bind launchAt_keeps fun _ => .bind readPlace_keeps fun _ =>
      .bind dst_keeps fun _ => .ite (.bind acquire_keeps fun _ => .pure _) (.pure _))

theorem State.canonical.checkCharge {g} (h : s.canonical) : CanonicalOpt (s.checkCharge g) := .ite h.failPhase .none

theorem execCheckChargeExhausted_canonical {slot} (h : s.canonical) : CanonicalOut (execCheckChargeExhausted slot s) :=
  .event h.checkCharge

/-! ### What `Scheduler` keeps -/

theorem State.canonical.startEntry {g e} (h : s.canonical) : CanonicalOpt (s.startEntry g e) := by
  unfold State.startEntry
  split
  · exact .ite h.restore .none
  · split
    · exact .bind fun _ _ => .ite (.some h.startTile) .none
    · exact .map fun _ _ => h.startExact
    · exact .some h.startRec

theorem State.canonical.startOn {e gs} (h : s.canonical) : CanonicalOpt (s.startOn e gs) := .bind fun _ _ => h.startEntry

theorem State.canonical.localList {c l} (h : s.canonical) : CanonicalOpt (s.localList c l) := by
  induction l with
  | nil => exact .none
  | cons e es ih =>
    unfold State.localList
    refine .ite .none ?_
    dsimp only
    split
    next hu => exact .some (h.startOn _ hu).modCore
    · exact .ite ih .none

theorem State.canonical.localStart {c} (h : s.canonical) : CanonicalOpt (s.localStart c) := h.localList

theorem State.canonical.setList {cl f} (h : s.canonical) : (s.setList cl f).canonical := h.setAll

theorem State.canonical.listStart {cl l} (h : s.canonical) : CanonicalOpt (s.listStart cl l) := by
  induction l with
  | nil => exact .none
  | cons e es ih =>
    unfold State.listStart
    refine .ite (.ite .none (.map fun _ _ => h.modCluster)) (.ite .none
      (.ite (.map fun u hu => (h.cardFromRecord u hu).setList) (.ite .none ?_)))
    split
    next hu => exact .some (h.startOn _ hu).setList
    · exact .ite ih .none

theorem State.canonical.tenList {cl c l} (h : s.canonical) : CanonicalOpt (s.tenList cl c l) := by
  induction l with
  | nil => exact .none
  | cons e es ih =>
    unfold State.tenList
    refine .ite .none ?_
    extract_lets +onlyGivenNames g fits
    have hc : CanonicalOpt (if fits then s.startEntry g e else none) := .ite h.startEntry .none
    split
    next hu => exact .some ((hc _ hu).setList.foldl fun _ _ h => h.modCore)
    · exact ih

theorem State.canonical.slotTen {cl c} (h : s.canonical) : CanonicalOpt (s.slotTen cl c) := h.tenList

theorem State.canonical.startSlice {g} (h : s.canonical) : CanonicalOpt (s.startSlice g) := by
  unfold State.startSlice
  refine .ite .none (.bind fun sl _ => ?_)
  extract_lets +onlyGivenNames s₁ s₂ s₃
  have h₂ : s₂.canonical := h.same.journalStarted
  have h₃ : CanonicalOpt s₃ := by
    unfold s₃
    split
    · exact .some h₂.startRec
    · exact .map fun _ _ => .ite h₂.startExact h₂.startTile
  exact .map fun u hu => (h₃ u hu).modSlot

theorem State.canonical.resumeZero {g} (h : s.canonical) : CanonicalOpt (s.resumeZero g) := by
  unfold State.resumeZero
  split
  · exact .none
  · exact .ite .none (.map fun u hu => (h.restore u hu).same)

theorem State.canonical.orSame {f done} (h : s.canonical) (hf : CanonicalOpt (f s)) : (s.orSame f done).1.canonical := by
  unfold State.orSame
  split
  next hu => exact hf _ hu
  · exact h

theorem State.canonical.orSames {l : List Nat} {f : Nat → State → Option State} {r : State × Bool} (h : r.1.canonical)
    (hf : ∀ x s, s.canonical → CanonicalOpt (f x s)) : (l.foldl (fun r x => r.1.orSame (f x) r.2) r).1.canonical := by
  induction l generalizing r with
  | nil => exact h
  | cons x l ih => exact ih (h.orSame (hf x _ h))

theorem State.canonical.dispatch {cl} (h : s.canonical) : CanonicalOpt (s.dispatch cl) := by
  unfold State.dispatch
  extract_lets +onlyGivenNames each r₁ r₂ r₃ r₄ r₅
  have h₁ : r₁.1.canonical := .orSames h fun _ _ h => h.resumeZero
  have h₂ : r₂.1.canonical := .orSames h₁ fun _ _ h => h.startSlice
  have h₃ : r₃.1.canonical := .orSames h₂ fun _ _ h => h.localStart
  have h₄ : r₄.1.canonical := h₃.orSame h₃.listStart
  have h₅ : r₅.1.canonical := .orSames h₄ fun _ _ h => h.slotTen
  exact .ite (.some h₅) .none

theorem execDispatch_canonical {cluster} (h : s.canonical) : CanonicalOut (execDispatch cluster s) := .event h.dispatch

theorem State.canonical.startMembers {e l j} (h : s.canonical) : (s.startMembers e l j).canonical := by
  induction l generalizing s j with
  | nil => exact h
  | cons g gs ih => exact ih h.startRec

theorem State.canonical.startGang {cl e} (h : s.canonical) : CanonicalOpt (s.startGang cl e) :=
  .ite (.some h.startMembers.setList.modCluster) .none

theorem State.canonical.gangStart {cl} (h : s.canonical) : CanonicalOpt (s.gangStart cl) := .findSome fun _ => h.startGang

theorem execGangStart_canonical {cluster} (h : s.canonical) : CanonicalOut (execGangStart cluster s) := .event h.gangStart

theorem State.canonical.walkHop {i} (h : s.canonical) : CanonicalOpt (s.walkHop i) := by
  unfold State.walkHop
  split
  · exact .none
  next w _ =>
    extract_lets +onlyGivenNames r rest taken
    have ht : CanonicalOpt taken := .ite h.same.startOn .none
    clear_value taken
    split
    next u => exact .some (ht u rfl)
    · exact .ite h.same.queueCont (.some h.same)

theorem execRecordWalkHop_canonical {i} (h : s.canonical) : CanonicalOut (execRecordWalkHop i s) := .event h.walkHop

theorem State.canonical.hwLoad {w space v n} (h : s.canonical) : CanonicalOptSnd (s.hwLoad w space v n) := by
  have hl := locate_keeps (w := w) (space := space) (v := v) (n := n) (bits := [1]) s h
  unfold State.hwLoad
  split
  · exact .none
  next p u hu =>
    have hc : u.canonical := by
      rw [show locate w space v n [1] s = .ok (p, u) from hu] at hl
      exact hl
    split
    · exact .ite .none (.some hc.fillFor)
    · exact .some hc
    · exact .ite .none (.some hc.same)

theorem State.canonical.countSeen {cl n} (h : s.canonical) : CanonicalOpt (s.countSeen cl n) :=
  .bind fun _ _ => .bind fun _ _ => .ite (.map fun _ hc => (h.hwLoad.eq_some hc).setList) .none

theorem State.canonical.countRead {cl} (h : s.canonical) : CanonicalOpt (s.countRead cl) := by
  unfold State.countRead
  split
  · exact .none
  next e _ _ =>
    refine .bind fun u _ => ?_
    extract_lets +onlyGivenNames r w live gone home
    have hlive {s : State} {d : Int} {f : Bool} (h : s.canonical) : (live s d f).canonical := by
      unfold live
      split
      · exact h
      · exact h.groupNow
    have hgone {s : State} (h : s.canonical) : (gone s).canonical := h.setList
    refine .ite .none ?_
    split
    · exact .some (hgone (hlive h).schedError)
    next hu =>
      have hu := CanonicalOptSnd.or (.map fun _ _ => h) h.hwLoad _ _ hu
      exact .ite (.some (hgone (hlive hu))) (.ite (.some (hgone (hlive hu))) (.some (State.canonical.setList (.ite hu (hlive hu)))))

theorem execLaunchiCountRead_canonical {cluster} (h : s.canonical) : CanonicalOut (execLaunchiCountRead cluster s) :=
  .event h.countRead

theorem State.canonical.holdClear {cl} (h : s.canonical) : CanonicalOpt (s.holdClear cl) :=
  .bind fun _ _ => .ite (.some h.setAll.modCluster) .none

theorem execHoldClear_canonical {cluster} (h : s.canonical) : CanonicalOut (execHoldClear cluster s) := .event h.holdClear

theorem State.canonical.holdTimeout {cl} (h : s.canonical) : CanonicalOpt (s.holdTimeout cl) :=
  .bind fun _ _ => .ite (.some h.setPartReg.journalPut) .none

theorem execHoldTimeout_canonical {cluster} (h : s.canonical) : CanonicalOut (execHoldTimeout cluster s) := .event h.holdTimeout

theorem State.canonical.releaseAt' {i} (h : s.canonical) : CanonicalOpt (s.releaseAt' i) :=
  .bind fun _ _ => .ite h.same.releaseStep .none

theorem execRecordRelease_canonical {i} (h : s.canonical) : CanonicalOut (execRecordRelease i s) := .event h.releaseAt'

theorem State.canonical.groupStepAt {i} (h : s.canonical) : CanonicalOpt (s.groupStepAt i) :=
  .bind fun _ _ => .ite (.some h.same.applyGroup) .none

theorem execGroupCountStep_canonical {i} (h : s.canonical) : CanonicalOut (execGroupCountStep i s) := .event h.groupStepAt

theorem State.canonical.chargeSpent {g} (h : s.canonical) : CanonicalOpt (s.chargeSpent g) := by
  unfold State.chargeSpent
  extract_lets +onlyGivenNames x s₁ s₂
  have h₁ : s₁.canonical := by
    unfold s₁
    split
    · exact h.groupLater
    · exact h
  have h₂ : s₂.canonical := h₁.modSlot
  refine .ite ?_ .none
  split
  · exact .some (h₂.unpark.getD h₂)
  · exact .ite (.some (State.canonical.modSlot h₂.same)) (.some h₂)
  · exact .some h₂

theorem execChargeExhausted_canonical {slot} (h : s.canonical) : CanonicalOut (execChargeExhausted slot s) := .event h.chargeSpent

theorem State.canonical.budgetSpent {g} (h : s.canonical) : CanonicalOpt (s.budgetSpent g) := .ite h.takeTrap .none

theorem execBudgetExhausted_canonical {slot} (h : s.canonical) : CanonicalOut (execBudgetExhausted slot s) := .event h.budgetSpent

theorem State.canonical.graceSpent {g} (h : s.canonical) : CanonicalOpt (s.graceSpent g) := .ite h.unhandled .none

theorem execGraceExhausted_canonical {slot} (h : s.canonical) : CanonicalOut (execGraceExhausted slot s) := .event h.graceSpent

theorem State.canonical.hostSend {kind home p t ws} (h : s.canonical) : (s.hostSend kind home p t ws).canonical := h.same.post

theorem State.canonical.hostEnqueue {cl t addr submit} (h : s.canonical) : CanonicalOpt (s.hostEnqueue cl t addr submit) :=
  .ite .none (.ite (.some h.errorRecord) (.some h.hostSend))

theorem State.canonical.hostWindow {cl t addr submit} (h : s.canonical) : CanonicalOpt (s.hostWindow cl t addr submit) :=
  .bind fun _ _ => .ite h.perform .none

theorem execEnqueueWindowSpawn_canonical {cluster tenant addr} (h : s.canonical) : CanonicalOut (execEnqueueWindowSpawn cluster
    tenant addr s) :=
  .event h.hostWindow

theorem execEnqueueWindowSubmit_canonical {cluster tenant addr} (h : s.canonical) : CanonicalOut (execEnqueueWindowSubmit cluster
    tenant addr s) :=
  .event h.hostWindow

theorem execEnqueueWindowSpawnResult_canonical {cluster tenant} (h : s.canonical) : CanonicalOut (execEnqueueWindowSpawnResult
    cluster tenant s) :=
  .event (.ite (.some h) .none)

theorem execEnqueueWindowSubmitResult_canonical {cluster tenant} (h : s.canonical) : CanonicalOut (execEnqueueWindowSubmitResult
    cluster tenant s) :=
  .event (.ite (.some h) .none)

/-! ### What `Firmware` keeps -/

theorem State.canonical.setBlockWord {p w} (h : s.canonical) : (s.setBlockWord p w).canonical := by
  unfold State.setBlockWord
  split
  · exact h
  · exact h.setPartReg

theorem State.canonical.clearCluster {p cl} (h : s.canonical) : (s.clearCluster p cl).canonical := h.setList.modCluster

theorem State.canonical.emptied {p} (h : s.canonical) : (s.emptied p).canonical :=
  have hs : ((s.clusters.map Prod.fst).foldl (fun s cl => s.clearCluster p cl) s).canonical := h.foldl fun _ _ h => h.clearCluster
  ⟨hs.1, hs.2.1, SMap.wf_filter hs.2.2⟩

theorem State.canonical.partitionReset {p ws} (h : s.canonical) : CanonicalOpt (s.partitionReset p ws) := by
  unfold State.partitionReset
  dsimp only
  exact .ite .none (.some (.congr rfl (h.emptied.setPartReg.foldl fun _ _ h' => h'.setBlockWord)))

theorem execPartitionReset_canonical {part words} (h : s.canonical) : CanonicalOut (execPartitionReset part words s) :=
  .event h.partitionReset

theorem State.canonical.startCore {p r c} (h : s.canonical) : (s.startCore p r c).canonical := by
  unfold State.startCore
  exact (h.foldl fun _ _ h' => h'.setSlot).startRec

theorem State.canonical.running {p} (h : s.canonical) : (s.running p).canonical := h.same

theorem State.canonical.partitionStart {p r} (h : s.canonical) : CanonicalOpt (s.partitionStart p r) :=
  .ite .none (.some (h.running.emptied.foldl fun _ _ h' => h'.startCore))

theorem execPartitionStart_canonical {part tenant code frame deadline budget recAddr group} (h : s.canonical) : CanonicalOut
    (execPartitionStart part tenant code frame deadline budget recAddr group s) :=
  .event h.partitionStart

theorem State.canonical.passHelper {nt g} (h : s.canonical) : CanonicalOpt (s.passHelper nt g) :=
  .ite .none (.ite (.some h.modSlot) (.ite .none (.ite (.some (.ite (.ite h.modSlot.modCore h.modSlot.modCore.modCore)
      ((State.canonical.ite h.modSlot.modCore h.modSlot.modCore.modCore).modQuad))) (.ite .none (.some ((State.canonical.ite
      h.modSlot.modCore h.modSlot.modCore.modCore).modQuad))))))

theorem State.canonical.passAll {nt gs} (h : s.canonical) : (s.passAll nt gs).canonical :=
  h.foldl fun _ _ h' => h'.passHelper.getD h'

theorem State.canonical.tenantSwitch {c nt} (h : s.canonical) : CanonicalOpt (s.tenantSwitch c nt) :=
  .ite .none (.ite .none (.some (((h.foldl fun _ _ h' => h'.modSlot).passAll).modCore)))

theorem execTenantSwitch_canonical {core toTenant} (h : s.canonical) : CanonicalOut (execTenantSwitch core toTenant s) :=
  .event h.tenantSwitch

theorem State.canonical.linkTrain {l err} (h : s.canonical) : CanonicalOpt (s.linkTrain l err) :=
  .ite .none (.some h.same.modLink.modLink)

theorem execLinkTrain_canonical {link err} (h : s.canonical) : CanonicalOut (execLinkTrain link err s) := .event h.linkTrain

theorem State.canonical.arbitrate {l} (h : s.canonical) : CanonicalOpt (s.arbitrate l) := .ite .none (.some h.modLink)

theorem execFlitArbitration_canonical {link} (h : s.canonical) : CanonicalOut (execFlitArbitration link s) := .event h.arbitrate

theorem State.canonical.flitArrives {f} (h : s.canonical) : (s.flitArrives f).canonical := by
  unfold State.flitArrives
  split
  · exact h.landed.ackLands
  · exact h.putFlit

theorem State.canonical.creditReturn {l cls resp} (h : s.canonical) : CanonicalOpt (s.creditReturn l cls resp) :=
  .map fun _ _ => h.modLink.flitArrives

theorem execCreditReturn_canonical {link cls resp} (h : s.canonical) : CanonicalOut (execCreditReturn link cls resp s) :=
  .event h.creditReturn

theorem execFlitRetry_canonical {link} (h : s.canonical) : CanonicalOut (execFlitRetry link s) := .event (.ite .none (.some h))

theorem State.canonical.openError {die addr source corr} (h : s.canonical) : (s.openError die addr source corr).canonical :=
  h.same.errorRecord

theorem State.canonical.loseWindows (h : s.canonical) : s.loseWindows.canonical := h.foldl fun _ _ h' => h'.same.openError

theorem State.canonical.moduleDown {i} (h : s.canonical) : CanonicalOpt (s.moduleDown i) :=
  .ite .none (.ite (.some (h.same.openError.modLink.modLink.loseWindows.modLink.modLink.foldl fun _ _ h' =>
      h'.ackLost)) (.some h.same.openError.modLink.modLink))

theorem execHostModuleFailure_canonical {module} (h : s.canonical) : CanonicalOut (execHostModuleFailure module s) :=
  .event h.moduleDown

theorem State.canonical.takeFlits {l} (h : s.canonical) : (s.takeFlits l).canonical := h.same

theorem State.canonical.reroute {port f} (h : s.canonical) : (s.reroute port f).canonical := by
  unfold State.reroute
  split
  · exact h
  · exact h.modLink

theorem State.canonical.portFails {i} (h : s.canonical) : CanonicalOpt (s.portFails i) :=
  .ite .none (.some (h.same.openError.takeFlits.foldl fun _ _ h' => h'.reroute))

theorem execFabricPortFailure_canonical {port} (h : s.canonical) : CanonicalOut (execFabricPortFailure port s) := .event h.portFails

theorem State.canonical.bootUp {ecdsa lms version} (h : s.canonical) : CanonicalOpt (s.bootUp ecdsa lms version) :=
  .ite .none (.ite (.some h.same) (.some h.same))

theorem execBoot_canonical {ecdsaOk lmsOk version} (h : s.canonical) : CanonicalOut (execBoot ecdsaOk lmsOk version s) :=
  .event h.bootUp

theorem State.canonical.serviceRestart {die} (h : s.canonical) : CanonicalOpt (s.serviceRestart die) := .ite (.some h.same) .none

theorem execServiceCoreRestart_canonical {die} (h : s.canonical) : CanonicalOut (execServiceCoreRestart die s) :=
  .event h.serviceRestart

theorem State.canonical.attest {nonce} (h : s.canonical) : CanonicalOpt (s.attest nonce) := .ite (.some h.same) .none

theorem execAttestationRequest_canonical {nonce} (h : s.canonical) : CanonicalOut (execAttestationRequest nonce s) :=
  .event h.attest

theorem State.canonical.hostStore {key bs} (h : s.canonical) : CanonicalOpt (s.hostStore key bs) :=
  .ite .none (.ite (.some h) (.some h.hostSend))

theorem State.canonical.serviceWord {p t w} (h : s.canonical) : CanonicalOpt (s.serviceWord p t w) := by
  unfold State.serviceWord
  dsimp only
  split
  · exact .none
  · split
    · exact .some h.setPartReg
    · exact .some h.setPartReg
    · exact .some h.setPartReg
    · exact .some h.same.setPartReg.setPartReg

theorem State.canonical.firmwareSend {c key bs} (h : s.canonical) : (s.firmwareSend c key bs).canonical := h.same.launchAccess

theorem State.canonical.serviceStore {key bs} (h : s.canonical) : CanonicalOpt (s.serviceStore key bs) :=
  .ite (.some h.firmwareSend) .none

theorem State.canonical.rootStore {key bs} (h : s.canonical) : CanonicalOpt (s.rootStore key bs) :=
  .ite (.some h.firmwareSend) .none

theorem State.canonical.takeRecord {die} (h : s.canonical) : CanonicalOpt (s.takeRecord die) := by
  unfold State.takeRecord
  split
  · exact .none
  · exact .ite (.some h.same) .none

theorem State.canonical.setIndex {n} (h : s.canonical) : CanonicalOpt (s.setIndex n) := .ite (.some h.same) .none

theorem State.canonical.setRoute {die pkg ports} (h : s.canonical) : CanonicalOpt (s.setRoute die pkg ports) :=
  .ite (.some h.same) .none

theorem State.canonical.mapService {lo hi} (h : s.canonical) : CanonicalOpt (s.mapService lo hi) := .ite (.some h.same) .none

theorem State.canonical.hitResidue {quad} (h : s.canonical) : CanonicalOpt (s.hitResidue quad) := .ite (.some h.modQuad) .none

theorem execPatrolScrub_canonical {line} (h : s.canonical) : CanonicalOut (execPatrolScrub line s) := .event (.some h)

theorem execCorrectedError_canonical {die addr} (h : s.canonical) : CanonicalOut (execCorrectedError die addr s) :=
  .event (.ite (.some h.openError) .none)

theorem State.canonical.uncorrectable {line} (h : s.canonical) : CanonicalOpt (s.uncorrectable line) := by
  unfold State.uncorrectable
  refine .ite (.ite (.some h.same.modSlot) .none) (.ite (.some h.setPoison) (.some ((h.setPoison.foldl fun _ _ h' =>
      ?_).openError)))
  split
  · exact h'.groupLater
  · exact h'

theorem execUncorrectableError_canonical {line} (h : s.canonical) : CanonicalOut (execUncorrectableError line s) :=
  .event h.uncorrectable

/-! ### What `Future` keeps -/

theorem futureAt_keeps {k} : Keeps (futureAt k) := .bind objectAt_keeps fun _ => .bind readBytes_keeps fun _ => .pure _

theorem wellFormedFuture_keeps {r lo} : Keeps (wellFormedFuture r lo) := require_keeps

theorem sendRelease_keeps {addr} : Keeps (sendRelease addr) := .get fun _ h => .set h.same

theorem releaseFree_keeps {addr} : Keeps (releaseFree addr) := .get fun _ _ => await_keeps

theorem execFinit_canonical {ka} (h : s.canonical) : CanonicalOut (execFinit ka s) :=
  h.runInstr (.bind notLatent_keeps fun _ => .bind kreg_keeps fun _ => .bind futureAt_keeps fun _ => .bind require_keeps fun _ =>
      .bind writeObject_keeps fun _ => .pure _)

theorem execFres_canonical {d ka b} (h : s.canonical) : CanonicalOut (execFres d ka b s) :=
  h.runInstr (.bind src_keeps fun _ => .bind notLatent_keeps fun _ => .bind kreg_keeps fun _ => .bind fenceRel_keeps fun _ =>
      .bind futureAt_keeps fun _ => .bind wellFormedFuture_keeps fun _ => .bind require_keeps fun _ =>
      .ite (.bind releaseFree_keeps fun _ => .bind writeObject_keeps fun _ => .ite (.bind sendRelease_keeps fun _ =>
      .bind dst_keeps fun _ => .pure _) (.bind dst_keeps fun _ => .pure _)) (.bind writeObject_keeps fun _ =>
      .ite (.bind sendRelease_keeps fun _ => .bind dst_keeps fun _ => .pure _) (.bind dst_keeps fun _ => .pure _)))

theorem execFreg_canonical {d ka kb} (h : s.canonical) : CanonicalOut (execFreg d ka kb s) :=
  h.runInstr (.bind notLatent_keeps fun _ => .bind kreg_keeps fun _ => .bind kreg_keeps fun _ => .bind fenceRel_keeps fun _ =>
      .bind futureAt_keeps fun _ => .bind recordAt_keeps fun _ => .bind wellFormedFuture_keeps fun _ =>
      .bind require_keeps fun _ => .ite (.bind writeObject_keeps fun _ => .bind dst_keeps fun _ =>
      .pure _) (.bind releaseFree_keeps fun _ => .bind sendRelease_keeps fun _ => .bind dst_keeps fun _ => .pure _))

theorem execFget_canonical {d ka} (h : s.canonical) : CanonicalOut (execFget d ka s) :=
  h.runInstr (.bind notLatent_keeps fun _ => .bind kreg_keeps fun _ => .bind futureAt_keeps fun _ =>
      .bind wellFormedFuture_keeps fun _ => .bind require_keeps fun _ => .bind dst_keeps fun _ => .pure _)

theorem execFstat_canonical {d ka} (h : s.canonical) : CanonicalOut (execFstat d ka s) :=
  h.runInstr (.bind notLatent_keeps fun _ => .bind kreg_keeps fun _ => .bind futureAt_keeps fun _ => .bind dst_keeps fun _ =>
      .pure _)

/-! ### What `Remote` keeps -/

theorem countRemote_keeps : Keeps countRemote := .get fun _ _ => .bind raiseLive_keeps fun _ => modSlot_keeps

theorem execRst_canonical {size ka b} (h : s.canonical) : CanonicalOut (execRst size ka b s) :=
  h.runInstr (.bind src_keeps fun _ => .bind notLatent_keeps fun _ => .bind kreg_keeps fun _ => .bind place_keeps fun _ =>
      .bind storeSlot_keeps fun _ => .bind countRemote_keeps fun _ => .bind newNo_keeps fun _ => .bind storePlace_keeps fun _ =>
      .pure _)

theorem State.canonical.sendMessage {m} (h : s.canonical) : (s.sendMessage m).canonical := h.same.post

theorem execAmsg_canonical {ka kb} (h : s.canonical) : CanonicalOut (execAmsg ka kb s) := by
  unfold execAmsg
  refine h.runInstr (.bind notLatent_keeps fun _ => .bind kreg_keeps fun _ => .bind kreg_keeps fun _ =>
      .bind getSlot_keeps fun _ => .bind place_keeps fun _ => .bind checkCode_keeps fun _ => .bind relHolds_keeps fun _ =>
      .bind countRemote_keeps fun _ => .bind newNo_keeps fun _ => .get fun _ h' => ?_)
  dsimp only
  split
  · exact .bind send_keeps fun _ => .pure _
  · exact .bind (.set h'.sendMessage) fun _ => .pure _

theorem execRdrain_canonical (h : s.canonical) : CanonicalOut (execRdrain s) :=
  h.runInstr (.bind notLatent_keeps fun _ => .bind getSlot_keeps fun _ => .bind await_keeps fun _ => .pure _)

theorem State.canonical.rstReturn {i} (h : s.canonical) : CanonicalOpt (s.rstReturn i) := by
  unfold State.rstReturn
  dsimp only
  split
  · exact .none
  · split
    · exact .none
    · split
      · exact .some h.same.modTask
      · exact .some h.same.modTask.groupLater

theorem execRstReturn_canonical {i} (h : s.canonical) : CanonicalOut (execRstReturn i s) := .event h.rstReturn

theorem State.canonical.amsgRun {c} (h : s.canonical) : CanonicalOpt (s.amsgRun c) := by
  unfold State.amsgRun
  dsimp only
  split
  · exact .none
  · split
    · exact .none
    · exact .some h.modCore.freshNo.modSlot.modCore

theorem execAmsgRun_canonical {core} (h : s.canonical) : CanonicalOut (execAmsgRun core s) := .event (.ite h.amsgRun .none)

theorem State.canonical.amsgTimeout {c} (h : s.canonical) : CanonicalOpt (s.amsgTimeout c) := .ite h.modSlot.takeTrap .none

theorem execAmsgTimeout_canonical {core} (h : s.canonical) : CanonicalOut (execAmsgTimeout core s) := .event h.amsgTimeout

/-! ### What `Scalar` keeps -/

theorem alu2_keeps {d a b f} : Keeps (alu2 d a b f) :=
  .bind src_keeps fun _ => .bind src_keeps fun _ => .bind dst_keeps fun _ => .pure _

theorem alu1_keeps {d a f} : Keeps (alu1 d a f) := .bind src_keeps fun _ => .bind dst_keeps fun _ => .pure _

theorem execAdd_canonical {d a b} (h : s.canonical) : CanonicalOut (execAdd d a b s) := h.runInstr alu2_keeps

theorem execSub_canonical {d a b} (h : s.canonical) : CanonicalOut (execSub d a b s) := h.runInstr alu2_keeps

theorem execMul_canonical {d a b} (h : s.canonical) : CanonicalOut (execMul d a b s) := h.runInstr alu2_keeps

theorem execMulh_canonical {d a b} (h : s.canonical) : CanonicalOut (execMulh d a b s) := h.runInstr alu2_keeps

theorem execMulhu_canonical {d a b} (h : s.canonical) : CanonicalOut (execMulhu d a b s) := h.runInstr alu2_keeps

theorem execDiv_canonical {d a b} (h : s.canonical) : CanonicalOut (execDiv d a b s) := h.runInstr alu2_keeps

theorem execDivu_canonical {d a b} (h : s.canonical) : CanonicalOut (execDivu d a b s) := h.runInstr alu2_keeps

theorem execRem_canonical {d a b} (h : s.canonical) : CanonicalOut (execRem d a b s) := h.runInstr alu2_keeps

theorem execRemu_canonical {d a b} (h : s.canonical) : CanonicalOut (execRemu d a b s) := h.runInstr alu2_keeps

theorem execAnd_canonical {d a b} (h : s.canonical) : CanonicalOut (execAnd d a b s) := h.runInstr alu2_keeps

theorem execOr_canonical {d a b} (h : s.canonical) : CanonicalOut (execOr d a b s) := h.runInstr alu2_keeps

theorem execXor_canonical {d a b} (h : s.canonical) : CanonicalOut (execXor d a b s) := h.runInstr alu2_keeps

theorem execAndn_canonical {d a b} (h : s.canonical) : CanonicalOut (execAndn d a b s) := h.runInstr alu2_keeps

theorem execShl_canonical {d a b} (h : s.canonical) : CanonicalOut (execShl d a b s) := h.runInstr alu2_keeps

theorem execShr_canonical {d a b} (h : s.canonical) : CanonicalOut (execShr d a b s) := h.runInstr alu2_keeps

theorem execSra_canonical {d a b} (h : s.canonical) : CanonicalOut (execSra d a b s) := h.runInstr alu2_keeps

theorem execRol_canonical {d a b} (h : s.canonical) : CanonicalOut (execRol d a b s) := h.runInstr alu2_keeps

theorem execMin_canonical {d a b} (h : s.canonical) : CanonicalOut (execMin d a b s) := h.runInstr alu2_keeps

theorem execMax_canonical {d a b} (h : s.canonical) : CanonicalOut (execMax d a b s) := h.runInstr alu2_keeps

theorem execMinu_canonical {d a b} (h : s.canonical) : CanonicalOut (execMinu d a b s) := h.runInstr alu2_keeps

theorem execMaxu_canonical {d a b} (h : s.canonical) : CanonicalOut (execMaxu d a b s) := h.runInstr alu2_keeps

theorem execSlt_canonical {d a b} (h : s.canonical) : CanonicalOut (execSlt d a b s) := h.runInstr alu2_keeps

theorem execSltu_canonical {d a b} (h : s.canonical) : CanonicalOut (execSltu d a b s) := h.runInstr alu2_keeps

theorem execSeq_canonical {d a b} (h : s.canonical) : CanonicalOut (execSeq d a b s) := h.runInstr alu2_keeps

theorem execSne_canonical {d a b} (h : s.canonical) : CanonicalOut (execSne d a b s) := h.runInstr alu2_keeps

theorem execSext_canonical {d a b} (h : s.canonical) : CanonicalOut (execSext d a b s) := h.runInstr alu2_keeps

theorem execZext_canonical {d a b} (h : s.canonical) : CanonicalOut (execZext d a b s) := h.runInstr alu2_keeps

theorem execClz_canonical {d a} (h : s.canonical) : CanonicalOut (execClz d a s) := h.runInstr alu1_keeps

theorem execCtz_canonical {d a} (h : s.canonical) : CanonicalOut (execCtz d a s) := h.runInstr alu1_keeps

theorem execPopc_canonical {d a} (h : s.canonical) : CanonicalOut (execPopc d a s) := h.runInstr alu1_keeps

theorem execBrev_canonical {d a} (h : s.canonical) : CanonicalOut (execBrev d a s) := h.runInstr alu1_keeps

theorem execSel_canonical {d a b c} (h : s.canonical) : CanonicalOut (execSel d a b c s) :=
  h.runInstr (.bind src_keeps fun _ => alu2_keeps)

theorem execAddi_canonical {d a imm} (h : s.canonical) : CanonicalOut (execAddi d a imm s) := h.runInstr alu1_keeps

theorem execAndi_canonical {d a imm} (h : s.canonical) : CanonicalOut (execAndi d a imm s) := h.runInstr alu1_keeps

theorem execOri_canonical {d a imm} (h : s.canonical) : CanonicalOut (execOri d a imm s) := h.runInstr alu1_keeps

theorem execXori_canonical {d a imm} (h : s.canonical) : CanonicalOut (execXori d a imm s) := h.runInstr alu1_keeps

theorem execShli_canonical {d a imm} (h : s.canonical) : CanonicalOut (execShli d a imm s) := h.runInstr alu1_keeps

theorem execShri_canonical {d a imm} (h : s.canonical) : CanonicalOut (execShri d a imm s) := h.runInstr alu1_keeps

theorem execSrai_canonical {d a imm} (h : s.canonical) : CanonicalOut (execSrai d a imm s) := h.runInstr alu1_keeps

theorem execSlti_canonical {d a imm} (h : s.canonical) : CanonicalOut (execSlti d a imm s) := h.runInstr alu1_keeps

theorem execLi_canonical {d imm} (h : s.canonical) : CanonicalOut (execLi d imm s) := h.runInstr (.bind dst_keeps fun _ => .pure _)

theorem execAddC_canonical {a b} (h : s.canonical) : CanonicalOut (execAddC a b s) := h.runInstr alu2_keeps

theorem execSubC_canonical {a b} (h : s.canonical) : CanonicalOut (execSubC a b s) := h.runInstr alu2_keeps

theorem execAndC_canonical {a b} (h : s.canonical) : CanonicalOut (execAndC a b s) := h.runInstr alu2_keeps

theorem execOrC_canonical {a b} (h : s.canonical) : CanonicalOut (execOrC a b s) := h.runInstr alu2_keeps

theorem execXorC_canonical {a b} (h : s.canonical) : CanonicalOut (execXorC a b s) := h.runInstr alu2_keeps

theorem execMulC_canonical {a b} (h : s.canonical) : CanonicalOut (execMulC a b s) := h.runInstr alu2_keeps

theorem execSltC_canonical {a b} (h : s.canonical) : CanonicalOut (execSltC a b s) := h.runInstr alu2_keeps

theorem execSeqC_canonical {a b} (h : s.canonical) : CanonicalOut (execSeqC a b s) := h.runInstr alu2_keeps

theorem execShliC_canonical {a b x} (h : s.canonical) : CanonicalOut (execShliC a b x s) := h.runInstr alu1_keeps

theorem execShriC_canonical {a b x} (h : s.canonical) : CanonicalOut (execShriC a b x s) := h.runInstr alu1_keeps

theorem execAddiC_canonical {a b x} (h : s.canonical) : CanonicalOut (execAddiC a b x s) := h.runInstr alu1_keeps

theorem execLiC_canonical {a b x} (h : s.canonical) : CanonicalOut (execLiC a b x s) :=
  h.runInstr (.bind dst_keeps fun _ => .pure _)

/-! ### What `System` keeps -/

theorem execTrap_canonical {a} (h : s.canonical) : CanonicalOut (execTrap a s) := h.runInstr (.bind src_keeps fun _ => trap_keeps)

theorem execBrk_canonical (h : s.canonical) : CanonicalOut (execBrk s) := h.runInstr trap_keeps

theorem execRte_canonical (h : s.canonical) : CanonicalOut (execRte s) :=
  h.runInstr (.bind getSlot_keeps fun _ => .bind require_keeps fun _ => returnFromTrap_keeps)

theorem execSvc_canonical {d a b} (h : s.canonical) : CanonicalOut (execSvc d a b s) :=
  h.runInstr (.bind src_keeps fun _ => .bind src_keeps fun _ => .bind roleIs_keeps fun _ => .bind newNo_keeps fun _ =>
      .get fun _ _ => .bind modSlot_keeps fun _ => .pure _)

theorem checkpoint_keeps {idx} : Keeps (checkpoint idx) := .get fun _ _ => .ite (.bind modSlot_keeps fun _ => .pure _) (.pure _)

theorem execChkpt_canonical {idx} (h : s.canonical) : CanonicalOut (execChkpt idx s) := h.runInstr checkpoint_keeps

theorem execChkptC_canonical {idx} (h : s.canonical) : CanonicalOut (execChkptC idx s) := h.runInstr checkpoint_keeps

theorem execWfi_canonical {d a} (h : s.canonical) : CanonicalOut (execWfi d a s) :=
  h.runInstr (.bind src_keeps fun _ => .bind roleIs_keeps fun _ => .get fun _ _ => .bind await_keeps fun _ =>
      .bind dst_keeps fun _ => .pure _)

theorem execHalt_canonical (h : s.canonical) : CanonicalOut (execHalt s) := by
  unfold execHalt
  refine h.runInstr (.bind roleIs_keeps fun _ => .get fun _ h' => ?_)
  dsimp only
  split
  · exact .bind block_keeps fun _ => .pure _
  · exact .bind unlessBad_keeps fun _ => .bind (.set ((h'.drain _ ‹_›).stopZero)) fun _ => .pure _

theorem State.canonical.invalidate {p t all va} (h : s.canonical) : (s.invalidate p t all va).canonical := h.same

theorem execTinv_canonical {all a b} (h : s.canonical) : CanonicalOut (execTinv all a b s) :=
  h.runInstr (.bind privileged_keeps fun _ => .bind src_keeps fun _ => .bind src_keeps fun _ => .bind require_keeps fun _ =>
      .bind releaseAt_keeps fun _ => .bind (.modify fun _ h' => h'.invalidate) fun _ => .pure _)

theorem State.canonical.answerSaved {no v} (h : s.canonical) : (s.answerSaved no v).canonical := h.same

theorem State.canonical.svcAnswer {g v} (h : s.canonical) : CanonicalOpt (s.svcAnswer g v) := by
  refine .map fun x _ => ?_
  split
  · exact h.completeWith.modSlot
  · exact h.answerSaved

theorem execSvcAnswer_canonical {slot v} (h : s.canonical) : CanonicalOut (execSvcAnswer slot v s) := .event h.svcAnswer

theorem State.canonical.preemptRequest {g} (h : s.canonical) : CanonicalOpt (s.preemptRequest g) := .ite (.some h.modSlot) .none

theorem execPreemptRequest_canonical {slot} (h : s.canonical) : CanonicalOut (execPreemptRequest slot s) := .event h.preemptRequest

theorem State.canonical.preemptTimeout {g} (h : s.canonical) : CanonicalOpt (s.preemptTimeout g) := .ite (.some h.modSlot) .none

theorem execPreemptTimeout_canonical {slot} (h : s.canonical) : CanonicalOut (execPreemptTimeout slot s) := .event h.preemptTimeout

theorem execSpillSave_canonical {slot} (h : s.canonical) : CanonicalOut (execSpillSave slot s) := .event h.spillSave

theorem State.canonical.fillAt {i} (h : s.canonical) : CanonicalOpt (s.fillAt i) := .bind fun _ _ => .ite .none (.some h.fill)

theorem execGranuleFill_canonical {i} (h : s.canonical) : CanonicalOut (execGranuleFill i s) := .event h.fillAt

/-! ### What `VClaim` keeps -/

theorem freeHere_keeps : Keeps freeHere := .get fun _ _ => .pure _

theorem execVclaim_canonical {d a b} (h : s.canonical) : CanonicalOut (execVclaim d a b s) :=
  h.runInstr (.bind src_keeps fun _ => .bind src_keeps fun _ => .bind getSlot_keeps fun _ => .bind freeHere_keeps fun _ =>
      .ite (.bind dst_keeps fun _ => .pure _) (.ite (.bind dst_keeps fun _ => .pure _) (.bind modSlot_keeps fun _ =>
      .bind dst_keeps fun _ => .pure _)))

theorem execVreneg_canonical {d a b} (h : s.canonical) : CanonicalOut (execVreneg d a b s) :=
  h.runInstr (.bind src_keeps fun _ => .bind src_keeps fun _ => .bind getSlot_keeps fun _ => .bind freeHere_keeps fun _ =>
      .ite (.bind dst_keeps fun _ => .pure _) (.ite (.bind dst_keeps fun _ => .pure _) (.bind modSlot_keeps fun _ =>
      .bind dst_keeps fun _ => .pure _)))

theorem execVrel_canonical (h : s.canonical) : CanonicalOut (execVrel s) := h.runInstr (.bind modSlot_keeps fun _ => .pure _)

/-! ### What `VCompare` keeps -/

theorem mapLanes_keeps {q d en f} : Keeps (mapLanes q d en f) := .bind getSlot_keeps fun _ => modSlot_keeps

theorem compare_keeps {q w d f} : Keeps (compare q w d f) :=
  .bind getSlot_keeps fun _ => .bind mapLanes_keeps fun _ => setFlags_keeps

theorem execVcmp_canonical {p et cc vmd a b} (h : s.canonical) : CanonicalOut (execVcmp p et cc vmd a b s) :=
  h.runInstr (.bind lanesHeld_keeps fun _ => .bind compare_keeps fun _ => .pure _)

theorem execVfcmp_canonical {p et cc vmd a b} (h : s.canonical) : CanonicalOut (execVfcmp p et cc vmd a b s) :=
  h.runInstr (.bind lanesHeld_keeps fun _ => .bind compare_keeps fun _ => .pure _)

theorem maskOp_keeps {f p vmd vma vmb tval} : Keeps (maskOp f p vmd vma vmb tval) :=
  .bind lanesHeld_keeps fun _ => .bind mapLanes_keeps fun _ => .pure _

theorem execVmand_canonical {p vmd vma vmb} (h : s.canonical) : CanonicalOut (execVmand p vmd vma vmb s) := h.runInstr maskOp_keeps

theorem execVmor_canonical {p vmd vma vmb} (h : s.canonical) : CanonicalOut (execVmor p vmd vma vmb s) := h.runInstr maskOp_keeps

theorem execVmxor_canonical {p vmd vma vmb} (h : s.canonical) : CanonicalOut (execVmxor p vmd vma vmb s) := h.runInstr maskOp_keeps

theorem execVmnot_canonical {p vmd vma} (h : s.canonical) : CanonicalOut (execVmnot p vmd vma s) := h.runInstr maskOp_keeps

theorem execVmpop_canonical {p d vma} (h : s.canonical) : CanonicalOut (execVmpop p d vma s) :=
  h.runInstr (.bind lanesHeld_keeps fun _ => .bind getSlot_keeps fun _ => .bind dst_keeps fun _ => .pure _)

theorem execVmfirst_canonical {p d vma} (h : s.canonical) : CanonicalOut (execVmfirst p d vma s) :=
  h.runInstr (.bind lanesHeld_keeps fun _ => .bind getSlot_keeps fun _ => .bind dst_keeps fun _ => .pure _)

/-! ### What `VFloat` keeps -/

theorem vfp_keeps {op p et d a b tval} : Keeps (vfp op p et d a b tval) :=
  .bind lanesHeld_keeps fun _ => .bind getSlot_keeps fun _ => .bind roundings_keeps fun _ => .bind mapElems_keeps fun _ => .pure _

theorem execVfadd_canonical {p et d a b} (h : s.canonical) : CanonicalOut (execVfadd p et d a b s) := h.runInstr vfp_keeps

theorem execVfsub_canonical {p et d a b} (h : s.canonical) : CanonicalOut (execVfsub p et d a b s) := h.runInstr vfp_keeps

theorem execVfmul_canonical {p et d a b} (h : s.canonical) : CanonicalOut (execVfmul p et d a b s) := h.runInstr vfp_keeps

theorem execVfma_canonical {p et d a b} (h : s.canonical) : CanonicalOut (execVfma p et d a b s) := h.runInstr vfp_keeps

theorem execVfdiv_canonical {p et d a b} (h : s.canonical) : CanonicalOut (execVfdiv p et d a b s) := h.runInstr vfp_keeps

theorem execVfsqrt_canonical {p et d a} (h : s.canonical) : CanonicalOut (execVfsqrt p et d a s) := h.runInstr vfp_keeps

theorem execVfmin_canonical {p et d a b} (h : s.canonical) : CanonicalOut (execVfmin p et d a b s) := h.runInstr vfp_keeps

theorem execVfmax_canonical {p et d a b} (h : s.canonical) : CanonicalOut (execVfmax p et d a b s) := h.runInstr vfp_keeps

theorem execVfabs_canonical {p et d a} (h : s.canonical) : CanonicalOut (execVfabs p et d a s) := h.runInstr vfp_keeps

theorem execVfneg_canonical {p et d a} (h : s.canonical) : CanonicalOut (execVfneg p et d a s) := h.runInstr vfp_keeps

theorem execVfrcp_canonical {p et d a} (h : s.canonical) : CanonicalOut (execVfrcp p et d a s) := h.runInstr vfp_keeps

theorem execVfrsq_canonical {p et d a} (h : s.canonical) : CanonicalOut (execVfrsq p et d a s) := h.runInstr vfp_keeps

theorem execVfexp2_canonical {p et d a} (h : s.canonical) : CanonicalOut (execVfexp2 p et d a s) := h.runInstr vfp_keeps

theorem execVflog2_canonical {p et d a} (h : s.canonical) : CanonicalOut (execVflog2 p et d a s) := h.runInstr vfp_keeps

theorem execVfclass_canonical {p et d a} (h : s.canonical) : CanonicalOut (execVfclass p et d a s) := h.runInstr vfp_keeps

/-! ### What `VInt` keeps -/

theorem vint_keeps {op p et d a b tval} : Keeps (vint op p et d a b tval) :=
  .bind lanesHeld_keeps fun _ => .bind mapElems_keeps fun _ => .pure _

theorem execVadd_canonical {p et d a b} (h : s.canonical) : CanonicalOut (execVadd p et d a b s) := h.runInstr vint_keeps

theorem execVsub_canonical {p et d a b} (h : s.canonical) : CanonicalOut (execVsub p et d a b s) := h.runInstr vint_keeps

theorem execVmul_canonical {p et d a b} (h : s.canonical) : CanonicalOut (execVmul p et d a b s) := h.runInstr vint_keeps

theorem execVmulh_canonical {p et d a b} (h : s.canonical) : CanonicalOut (execVmulh p et d a b s) := h.runInstr vint_keeps

theorem execVmin_canonical {p et d a b} (h : s.canonical) : CanonicalOut (execVmin p et d a b s) := h.runInstr vint_keeps

theorem execVmax_canonical {p et d a b} (h : s.canonical) : CanonicalOut (execVmax p et d a b s) := h.runInstr vint_keeps

theorem execVminu_canonical {p et d a b} (h : s.canonical) : CanonicalOut (execVminu p et d a b s) := h.runInstr vint_keeps

theorem execVmaxu_canonical {p et d a b} (h : s.canonical) : CanonicalOut (execVmaxu p et d a b s) := h.runInstr vint_keeps

theorem execVand_canonical {p et d a b} (h : s.canonical) : CanonicalOut (execVand p et d a b s) := h.runInstr vint_keeps

theorem execVor_canonical {p et d a b} (h : s.canonical) : CanonicalOut (execVor p et d a b s) := h.runInstr vint_keeps

theorem execVxor_canonical {p et d a b} (h : s.canonical) : CanonicalOut (execVxor p et d a b s) := h.runInstr vint_keeps

theorem execVshl_canonical {p et d a b} (h : s.canonical) : CanonicalOut (execVshl p et d a b s) := h.runInstr vint_keeps

theorem execVshr_canonical {p et d a b} (h : s.canonical) : CanonicalOut (execVshr p et d a b s) := h.runInstr vint_keeps

theorem execVsra_canonical {p et d a b} (h : s.canonical) : CanonicalOut (execVsra p et d a b s) := h.runInstr vint_keeps

theorem execVabs_canonical {p et d a} (h : s.canonical) : CanonicalOut (execVabs p et d a s) := h.runInstr vint_keeps

theorem execVsadd_canonical {p et d a b} (h : s.canonical) : CanonicalOut (execVsadd p et d a b s) := h.runInstr vint_keeps

theorem execVssub_canonical {p et d a b} (h : s.canonical) : CanonicalOut (execVssub p et d a b s) := h.runInstr vint_keeps

/-! ### What `Dispatch` keeps -/

theorem exec_canonical {i} (h : s.canonical) : CanonicalOut (exec i s) :=
  match i with
  | .add .. => execAdd_canonical h
  | .sub .. => execSub_canonical h
  | .mul .. => execMul_canonical h
  | .mulh .. => execMulh_canonical h
  | .mulhu .. => execMulhu_canonical h
  | .div .. => execDiv_canonical h
  | .divu .. => execDivu_canonical h
  | .rem .. => execRem_canonical h
  | .remu .. => execRemu_canonical h
  | .and .. => execAnd_canonical h
  | .or .. => execOr_canonical h
  | .xor .. => execXor_canonical h
  | .andn .. => execAndn_canonical h
  | .shl .. => execShl_canonical h
  | .shr .. => execShr_canonical h
  | .sra .. => execSra_canonical h
  | .rol .. => execRol_canonical h
  | .min .. => execMin_canonical h
  | .max .. => execMax_canonical h
  | .minu .. => execMinu_canonical h
  | .maxu .. => execMaxu_canonical h
  | .slt .. => execSlt_canonical h
  | .sltu .. => execSltu_canonical h
  | .seq .. => execSeq_canonical h
  | .sne .. => execSne_canonical h
  | .clz .. => execClz_canonical h
  | .ctz .. => execCtz_canonical h
  | .popc .. => execPopc_canonical h
  | .brev .. => execBrev_canonical h
  | .sext .. => execSext_canonical h
  | .zext .. => execZext_canonical h
  | .sel .. => execSel_canonical h
  | .addi .. => execAddi_canonical h
  | .andi .. => execAndi_canonical h
  | .ori .. => execOri_canonical h
  | .xori .. => execXori_canonical h
  | .shli .. => execShli_canonical h
  | .shri .. => execShri_canonical h
  | .srai .. => execSrai_canonical h
  | .slti .. => execSlti_canonical h
  | .li .. => execLi_canonical h
  | .xset .. => execXset_canonical h
  | .mov .. => execMov_canonical h
  | .xget .. => execXget_canonical h
  | .xsetr .. => execXsetr_canonical h
  | .nclr .. => execNclr_canonical h
  | .nwr .. => execNwr_canonical h
  | .ntest .. => execNtest_canonical h
  | .borrow .. => execBorrow_canonical h
  | .brd .. => execBrd_canonical h
  | .bwr .. => execBwr_canonical h
  | .bret .. => execBret_canonical h
  | .qsend .. => execQsend_canonical h
  | .qrecv .. => execQrecv_canonical h
  | .qstat .. => execQstat_canonical h
  | .rng .. => execRng_canonical h
  | .rngseed .. => execRngseed_canonical h
  | .cycle .. => execCycle_canonical h
  | .mfs .. => execMfs_canonical h
  | .mts .. => execMts_canonical h
  | .mtsi .. => execMtsi_canonical h
  | .cgeta .. => execCgeta_canonical h
  | .cgetb .. => execCgetb_canonical h
  | .cgetl .. => execCgetl_canonical h
  | .cgetp .. => execCgetp_canonical h
  | .ctag .. => execCtag_canonical h
  | .cmov .. => execCmov_canonical h
  | .cseta .. => execCseta_canonical h
  | .cinc .. => execCinc_canonical h
  | .cbound .. => execCbound_canonical h
  | .cperm .. => execCperm_canonical h
  | .cgen .. => execCgen_canonical h
  | .cclr .. => execCclr_canonical h
  | .ceq .. => execCeq_canonical h
  | .csub .. => execCsub_canonical h
  | .ldk .. => execLdk_canonical h
  | .beq .. => execBeq_canonical h
  | .bne .. => execBne_canonical h
  | .blt .. => execBlt_canonical h
  | .bge .. => execBge_canonical h
  | .bltu .. => execBltu_canonical h
  | .bgeu .. => execBgeu_canonical h
  | .bbs .. => execBbs_canonical h
  | .bbc .. => execBbc_canonical h
  | .bez .. => execBez_canonical h
  | .bnz .. => execBnz_canonical h
  | .bgs .. => execBgs_canonical h
  | .bgc .. => execBgc_canonical h
  | .j .. => execJ_canonical h
  | .call .. => execCall_canonical h
  | .jk .. => execJk_canonical h
  | .callk .. => execCallk_canonical h
  | .loop .. => execLoop_canonical h
  | .loopm .. => execLoopm_canonical h
  | .loopi .. => execLoopi_canonical h
  | .gset .. => execGset_canonical h
  | .gsetn .. => execGsetn_canonical h
  | .gclr .. => execGclr_canonical h
  | .gwait .. => execGwait_canonical h
  | .ld .. => execLd_canonical h
  | .st .. => execSt_canonical h
  | .ldx .. => execLdx_canonical h
  | .stx .. => execStx_canonical h
  | .ldc .. => execLdc_canonical h
  | .stc .. => execStc_canonical h
  | .aadd .. => execAadd_canonical h
  | .aand .. => execAand_canonical h
  | .aor .. => execAor_canonical h
  | .axor .. => execAxor_canonical h
  | .amin .. => execAmin_canonical h
  | .amax .. => execAmax_canonical h
  | .aminu .. => execAminu_canonical h
  | .amaxu .. => execAmaxu_canonical h
  | .aswp .. => execAswp_canonical h
  | .acas .. => execAcas_canonical h
  | .afadd .. => execAfadd_canonical h
  | .fence .. => execFence_canonical h
  | .efence .. => execEfence_canonical h
  | .ifence .. => execIfence_canonical h
  | .rst .. => execRst_canonical h
  | .amsg .. => execAmsg_canonical h
  | .rdrain .. => execRdrain_canonical h
  | .spawn .. => execSpawn_canonical h
  | .start .. => execStart_canonical h
  | .done .. => execDone_canonical h
  | .yield .. => execYield_canonical h
  | .join .. => execJoin_canonical h
  | .walk .. => execWalk_canonical h
  | .launch .. => execLaunch_canonical h
  | .launchi .. => execLaunchi_canonical h
  | .gang .. => execGang_canonical h
  | .submit .. => execSubmit_canonical h
  | .dline .. => execDline_canonical h
  | .self .. => execSelf_canonical h
  | .finit .. => execFinit_canonical h
  | .fres .. => execFres_canonical h
  | .freg .. => execFreg_canonical h
  | .fget .. => execFget_canonical h
  | .fstat .. => execFstat_canonical h
  | .rinit .. => execRinit_canonical h
  | .rclaim .. => execRclaim_canonical h
  | .rtryclaim scope .. => execRtryclaim_canonical (scope := scope) h
  | .rcommit .. => execRcommit_canonical h
  | .rawait .. => execRawait_canonical h
  | .rretire .. => execRretire_canonical h
  | .binit .. => execBinit_canonical h
  | .barrive .. => execBarrive_canonical h
  | .bexpect .. => execBexpect_canonical h
  | .bwait .. => execBwait_canonical h
  | .btest scope .. => execBtest_canonical (scope := scope) h
  | .trap .. => execTrap_canonical h
  | .rte .. => execRte_canonical h
  | .svc .. => execSvc_canonical h
  | .brk .. => execBrk_canonical h
  | .chkpt .. => execChkpt_canonical h
  | .realign .. => execRealign_canonical h
  | .wfi .. => execWfi_canonical h
  | .halt .. => execHalt_canonical h
  | .tinv .. => execTinv_canonical h
  | .vclaim .. => execVclaim_canonical h
  | .vreneg .. => execVreneg_canonical h
  | .vrel .. => execVrel_canonical h
  | .vadd .. => execVadd_canonical h
  | .vsub .. => execVsub_canonical h
  | .vmul .. => execVmul_canonical h
  | .vmulh .. => execVmulh_canonical h
  | .vmin .. => execVmin_canonical h
  | .vmax .. => execVmax_canonical h
  | .vminu .. => execVminu_canonical h
  | .vmaxu .. => execVmaxu_canonical h
  | .vand .. => execVand_canonical h
  | .vor .. => execVor_canonical h
  | .vxor .. => execVxor_canonical h
  | .vshl .. => execVshl_canonical h
  | .vshr .. => execVshr_canonical h
  | .vsra .. => execVsra_canonical h
  | .vabs .. => execVabs_canonical h
  | .vsadd .. => execVsadd_canonical h
  | .vssub .. => execVssub_canonical h
  | .vfadd .. => execVfadd_canonical h
  | .vfsub .. => execVfsub_canonical h
  | .vfmul .. => execVfmul_canonical h
  | .vfma .. => execVfma_canonical h
  | .vfdiv .. => execVfdiv_canonical h
  | .vfsqrt .. => execVfsqrt_canonical h
  | .vfmin .. => execVfmin_canonical h
  | .vfmax .. => execVfmax_canonical h
  | .vfabs .. => execVfabs_canonical h
  | .vfneg .. => execVfneg_canonical h
  | .vfrcp .. => execVfrcp_canonical h
  | .vfrsq .. => execVfrsq_canonical h
  | .vfexp2 .. => execVfexp2_canonical h
  | .vflog2 .. => execVflog2_canonical h
  | .vfclass .. => execVfclass_canonical h
  | .vcmp .. => execVcmp_canonical h
  | .vfcmp .. => execVfcmp_canonical h
  | .vmand .. => execVmand_canonical h
  | .vmor .. => execVmor_canonical h
  | .vmxor .. => execVmxor_canonical h
  | .vmnot .. => execVmnot_canonical h
  | .vmpop .. => execVmpop_canonical h
  | .vmfirst .. => execVmfirst_canonical h
  | .vcvt .. => execVcvt_canonical h
  | .vqbfp .. => execVqbfp_canonical h
  | .vdqbfp .. => execVdqbfp_canonical h
  | .vld .. => execVld_canonical h
  | .vst .. => execVst_canonical h
  | .vlds .. => execVlds_canonical h
  | .vsts .. => execVsts_canonical h
  | .vgth .. => execVgth_canonical h
  | .vsct .. => execVsct_canonical h
  | .vbcast .. => execVbcast_canonical h
  | .vext .. => execVext_canonical h
  | .vins .. => execVins_canonical h
  | .viota .. => execViota_canonical h
  | .vshuf .. => execVshuf_canonical h
  | .vredsum .. => execVredsum_canonical h
  | .vredmax .. => execVredmax_canonical h
  | .vredmin .. => execVredmin_canonical h
  | .vtbl .. => execVtbl_canonical h
  | .vrng .. => execVrng_canonical h
  | .vrngn .. => execVrngn_canonical h
  | .madd .. => execMadd_canonical h
  | .msub .. => execMsub_canonical h
  | .mmul .. => execMmul_canonical h
  | .mscale .. => execMscale_canonical h
  | .mfma .. => execMfma_canonical h
  | .mneg .. => execMneg_canonical h
  | .mrelu .. => execMrelu_canonical h
  | .msig .. => execMsig_canonical h
  | .mexp .. => execMexp_canonical h
  | .msqr .. => execMsqr_canonical h
  | .mset .. => execMset_canonical h
  | .mmean .. => execMmean_canonical h
  | .mvar .. => execMvar_canonical h
  | .mcoll .. => execMcoll_canonical h
  | .mld .. => execMld_canonical h
  | .mst .. => execMst_canonical h
  | .mchk .. => execMchk_canonical h
  | .zld .. => execZld_canonical h
  | .zst .. => execZst_canonical h
  | .zzero .. => execZzero_canonical h
  | .zrel .. => execZrel_canonical h
  | .zstate .. => execZstate_canonical h
  | .zmov .. => execZmov_canonical h
  | .wload .. => execWload_canonical h
  | .wswap .. => execWswap_canonical h
  | .mma .. => execMma_canonical h
  | .mmam .. => execMmam_canonical h
  | .yzero .. => execYzero_canonical h
  | .ydrain .. => execYdrain_canonical h
  | .ymov .. => execYmov_canonical h
  | .qfuse .. => execQfuse_canonical h
  | .qsplit .. => execQsplit_canonical h
  | .copy .. => execCopy_canonical h
  | .xform .. => execXform_canonical h
  | .coll .. => execColl_canonical h
  | .trace .. => execTrace_canonical h
  | .ewait .. => execEwait_canonical h
  | .estat .. => execEstat_canonical h
  | .lnew .. => execLnew_canonical h
  | .lfree .. => execLfree_canonical h
  | .lset .. => execLset_canonical h
  | .lget .. => execLget_canonical h
  | .lest .. => execLest_canonical h
  | .lprice .. => execLprice_canonical h
  | .lreq .. => execLreq_canonical h
  | .lreqS .. => execLreqS_canonical h
  | .lbegin .. => execLbegin_canonical h
  | .ldone .. => execLdone_canonical h
  | .lsplit .. => execLsplit_canonical h
  | .lmerge .. => execLmerge_canonical h
  | .llight .. => execLlight_canonical h
  | .compose .. => execCompose_canonical h
  | .slaunch .. => execSlaunch_canonical h
  | .sresid .. => execSresid_canonical h
  | .sresidm .. => execSresidm_canonical h
  | .sabort .. => execSabort_canonical h
  | .sstat .. => execSstat_canonical h
  | .addC .. => execAddC_canonical h
  | .subC .. => execSubC_canonical h
  | .andC .. => execAndC_canonical h
  | .orC .. => execOrC_canonical h
  | .xorC .. => execXorC_canonical h
  | .mulC .. => execMulC_canonical h
  | .sltC .. => execSltC_canonical h
  | .seqC .. => execSeqC_canonical h
  | .shliC .. => execShliC_canonical h
  | .shriC .. => execShriC_canonical h
  | .addiC .. => execAddiC_canonical h
  | .movCToNamed .. => execMovCToNamed_canonical h
  | .movCFromNamed .. => execMovCFromNamed_canonical h
  | .liC .. => execLiC_canonical h
  | .movCAge .. => execMovCAge_canonical h
  | .nop .. => execNop_canonical h
  | .jC .. => execJC_canonical h
  | .bezC .. => execBezC_canonical h
  | .bnzC .. => execBnzC_canonical h
  | .lexit .. => execLexit_canonical h
  | .doneC .. => execDoneC_canonical h
  | .chkptC .. => execChkptC_canonical h
  | .realignC .. => execRealignC_canonical h
  | .retC .. => execRetC_canonical h
  | .nclrC .. => execNclrC_canonical h
  | .fenceCoreC .. => execFenceCoreC_canonical h
  | .mailboxWrite .. => execMailboxWrite_canonical h
  | .mbxpClear .. => execMbxpClear_canonical h
  | .heldMailboxWrite .. => execHeldMailboxWrite_canonical h
  | .guardResolve .. => execGuardResolve_canonical h
  | .homeAccess .. => execHomeAccess_canonical h
  | .pageWalk .. => execPageWalk_canonical h
  | .nwrHeldWrite .. => execNwrHeldWrite_canonical h
  | .nwrWithdrawal .. => execNwrWithdrawal_canonical h
  | .rstReturn .. => execRstReturn_canonical h
  | .amsgRun .. => execAmsgRun_canonical h
  | .amsgTimeout .. => execAmsgTimeout_canonical h
  | .holdClear .. => execHoldClear_canonical h
  | .holdTimeout .. => execHoldTimeout_canonical h
  | .dispatch .. => execDispatch_canonical h
  | .recordWalkHop .. => execRecordWalkHop_canonical h
  | .gangStart .. => execGangStart_canonical h
  | .launchiCountRead .. => execLaunchiCountRead_canonical h
  | .recordRelease .. => execRecordRelease_canonical h
  | .groupCountStep .. => execGroupCountStep_canonical h
  | .chargeExhausted .. => execChargeExhausted_canonical h
  | .budgetExhausted .. => execBudgetExhausted_canonical h
  | .graceExhausted .. => execGraceExhausted_canonical h
  | .parkedWithdrawal .. => execParkedWithdrawal_canonical h
  | .realignTimeout .. => execRealignTimeout_canonical h
  | .svcAnswer .. => execSvcAnswer_canonical h
  | .preemptRequest .. => execPreemptRequest_canonical h
  | .preemptTimeout .. => execPreemptTimeout_canonical h
  | .spillSave .. => execSpillSave_canonical h
  | .granuleFill .. => execGranuleFill_canonical h
  | .zldComplete .. => execZldComplete_canonical h
  | .tileDrainDone .. => execTileDrainDone_canonical h
  | .wloadExecute .. => execWloadExecute_canonical h
  | .wswapExecute .. => execWswapExecute_canonical h
  | .mmaExecute .. => execMmaExecute_canonical h
  | .mmamExecute .. => execMmamExecute_canonical h
  | .yzeroExecute .. => execYzeroExecute_canonical h
  | .ydrainExecute .. => execYdrainExecute_canonical h
  | .ymovExecute .. => execYmovExecute_canonical h
  | .tileStateDrain .. => execTileStateDrain_canonical h
  | .cardStart .. => execCardStart_canonical h
  | .cardFinish .. => execCardFinish_canonical h
  | .collTimeout .. => execCollTimeout_canonical h
  | .codebookBankWrite .. => execCodebookBankWrite_canonical h
  | .checkChargeExhausted .. => execCheckChargeExhausted_canonical h
  | .enqueueWindowSpawn .. => execEnqueueWindowSpawn_canonical h
  | .enqueueWindowSubmit .. => execEnqueueWindowSubmit_canonical h
  | .enqueueWindowSpawnResult .. => execEnqueueWindowSpawnResult_canonical h
  | .enqueueWindowSubmitResult .. => execEnqueueWindowSubmitResult_canonical h
  | .partitionStart .. => execPartitionStart_canonical h
  | .boot .. => execBoot_canonical h
  | .linkTrain .. => execLinkTrain_canonical h
  | .tenantSwitch .. => execTenantSwitch_canonical h
  | .flitArbitration .. => execFlitArbitration_canonical h
  | .creditReturn .. => execCreditReturn_canonical h
  | .hostModuleFailure .. => execHostModuleFailure_canonical h
  | .fabricPortFailure .. => execFabricPortFailure_canonical h
  | .serviceCoreRestart .. => execServiceCoreRestart_canonical h
  | .attestationRequest .. => execAttestationRequest_canonical h
  | .patrolScrub line => execPatrolScrub_canonical (line := line) h
  | .correctedError .. => execCorrectedError_canonical h
  | .uncorrectableError .. => execUncorrectableError_canonical h
  | .partitionReset .. => execPartitionReset_canonical h
  | .flitRetry .. => execFlitRetry_canonical h

/-! ### What `Turn` keeps -/

theorem State.canonical.takeInput {x} (h : s.canonical) : CanonicalOpt (s.takeInput x) := by
  unfold State.takeInput
  split
  · split
    · exact h.hostEnqueue
    · exact h.hostEnqueue
    · refine .ite ?_ .none
      split
      next hu => exact .some (exec_canonical h _ hu)
      · exact .none
  · exact h.hostStore
  · exact h.serviceWord
  · exact h.serviceStore
  · exact h.rootStore
  · exact h.takeRecord
  · exact h.setIndex
  · exact h.setRoute
  · exact h.mapService
  · exact h.hitResidue

theorem State.canonical.choose {x} (h : s.canonical) : CanonicalOpt (s.choose x) := by
  unfold State.choose
  split
  · exact .map fun u hu => (h.takeInput u hu).same
  · split
    next hu => exact .some (exec_canonical h _ hu)
    · exact .none
  · exact h.layerStep
  · exact h.countSeen

theorem State.canonical.giveTurn {g} (h : s.canonical) : (s.giveTurn g).canonical := h.same

theorem State.canonical.nextCycle (h : s.canonical) : s.nextCycle.canonical := .ite h.same h

theorem State.canonical.beforeFetch {o} (h : s.canonical) (ho : s.beforeFetch = some o) : CanonicalOpt o := by
  revert ho
  unfold State.beforeFetch
  dsimp only
  split
  · rintro ⟨⟩
    exact .ite h.checkCharge h.chargeSpent
  · split
    · rintro ⟨⟩
      exact .ite h.graceSpent h.budgetSpent
    · split
      · rintro ⟨⟩
        exact h.amsgTimeout
      · exact nofun

theorem State.canonical.issueTrap {c tval ilen} (h : s.canonical) : (s.issueTrap c tval ilen).canonical :=
  h.noteIssue.takeTrap.getD h.passOver

theorem State.canonical.slotTurn (h : s.canonical) : CanonicalOut s.slotTurn := by
  unfold State.slotTurn
  split
  · exact .next (h.finishLoad.getD h.passOver)
  · split
    · exact .next (.ite h.passOver h.settleCommit)
    · split
      next ho => exact .next ((h.beforeFetch ho).getD h.passOver)
      · split
        · exact .next (h.noteIssue.takeTrap.elim h.passOver fun _ h => h.modSlot)
        · split
          · exact .next h.passOver
          next hf => exact .next (State.canonical.issueTrap (h.fetchDecode.of_snd hf))
          next hf => exact exec_canonical (h.fetchDecode.of_snd hf)

theorem State.canonical.issueStep (h : s.canonical) : CanonicalOut s.issueStep := by
  unfold State.issueStep
  split
  · exact h.giveTurn.slotTurn
  · exact .next h.nextCycle

theorem State.canonical.rescan (h : s.canonical) : s.rescan.canonical := h.same

theorem State.canonical.takeStep (h : s.canonical) : CanonicalOut s.takeStep := by
  unfold State.takeStep
  split
  next i _ =>
    split
    next hu => exact .next (State.canonical.rescan (exec_canonical h _ hu))
    · exact exec_canonical h
  · extract_lets +onlyGivenNames t
    have ht : t.canonical := h.same
    split
    · exact h.issueStep
    · split
      next hu =>
        obtain ⟨x, _, hx⟩ := Option.bind_eq_some_iff.1 hu
        exact .next (ht.choose _ hx).rescan
      · exact ht.issueStep

/-! ### What `Step` keeps -/

theorem step_canonical (h : s.canonical) : CanonicalOut (step s) := h.takeStep

end

/-- Settles O58: a step goes through operations that change memory, tags and poison by `setByte`, `setTag`, `setPoison` and by leaving
entries out, and each of these keeps the canonical form. -/
theorem everyStepKeepsMemoryCanonical : Obligations.EveryStepKeepsMemoryCanonical := fun _ t hs ht => step_canonical hs t ht

end Sys2Proof.Machine

/-! # Integer instructions (R89 to R92) -/

namespace Sys2Proof.Laws

open Sys2Proof.Machine

/-! ## What the model's integer functions compute -/

theorem mulHigh_eq (x y : U64) : mulHigh x y = (x.signExtend 128 * y.signExtend 128).extractLsb' 64 64 := by
  have hs (z : U64) : z.signExtend 128 = BitVec.ofInt 128 z.toInt := rfl
  apply BitVec.eq_of_toNat_eq
  rw [mulHigh, hs, hs, ← BitVec.ofInt_mul, BitVec.toNat_ofInt, BitVec.extractLsb'_toNat, BitVec.toNat_ofInt, Nat.shiftRight_eq_div_pow]
  omega

theorem mulHighU_eq (x y : U64) : mulHighU x y = (x.zeroExtend 128 * y.zeroExtend 128).extractLsb' 64 64 := by
  have hlt : x.toNat * y.toNat < 2 ^ 128 := by
    calc x.toNat * y.toNat < 2 ^ 64 * 2 ^ 64 := Nat.mul_lt_mul'' x.isLt y.isLt
      _ = 2 ^ 128 := by norm_num
  have hw (z : U64) : (z.zeroExtend 128).toNat = z.toNat := BitVec.toNat_setWidth_of_le (by omega)
  apply BitVec.eq_of_toNat_eq
  rw [mulHighU, BitVec.toNat_ofNat, BitVec.extractLsb'_toNat, BitVec.toNat_mul, hw, hw, Nat.mod_eq_of_lt hlt, Nat.shiftRight_eq_div_pow]

theorem rotateLeft_eq (x : U64) (n : Nat) : x.rotateLeft (n % 64) = x <<< (n % 64) ||| x >>> (64 - n % 64) := by
  rw [BitVec.rotateLeft, BitVec.rotateLeftAux, Nat.mod_mod]

/-- A choice by `<` is one by `≤` when it does not matter at equality. -/
theorem ite_lt_eq_ite_le {α β : Type} [LinearOrder β] {i j : β} {u v : α} (h : i = j → u = v) :
    (if i < j then u else v) = if i ≤ j then u else v := by
  rcases lt_trichotomy i j with hlt | heq | hgt
  · rw [if_pos hlt, if_pos hlt.le]
  · rw [if_neg heq.not_lt, if_pos heq.le, h heq]
  · rw [if_neg hgt.not_gt, if_neg hgt.not_ge]

theorem min_eq (x y : U64) : (if x.slt y then x else y) = if x.toInt ≤ y.toInt then x else y := by
  simpa [BitVec.slt] using ite_lt_eq_ite_le BitVec.eq_of_toInt_eq

theorem max_eq (x y : U64) : (if x.slt y then y else x) = if x.toInt ≤ y.toInt then y else x := by
  simpa [BitVec.slt] using ite_lt_eq_ite_le fun h => (BitVec.eq_of_toInt_eq h).symm

theorem minu_eq (x y : U64) : (if x.ult y then x else y) = if x.toNat ≤ y.toNat then x else y := by
  simpa [BitVec.ult] using ite_lt_eq_ite_le BitVec.eq_of_toNat_eq

theorem maxu_eq (x y : U64) : (if x.ult y then y else x) = if x.toNat ≤ y.toNat then y else x := by
  simpa [BitVec.ult] using ite_lt_eq_ite_le fun h => (BitVec.eq_of_toNat_eq h).symm

theorem flag_ult (x y : U64) : flag (x.ult y) = if x.toNat < y.toNat then 1#64 else 0#64 := by
  simp [flag, BitVec.ult]

theorem flag_bne (x y : U64) : flag (x != y) = if x ≠ y then 1#64 else 0#64 := by
  simp [flag]

theorem divS_eq (x y : U64) : divS x y = if y = 0#64 then BitVec.allOnes 64 else BitVec.ofInt 64 (x.toInt.tdiv y.toInt) := by
  rw [divS, ← BitVec.ofInt_toInt (x := x.sdiv y), BitVec.toInt_sdiv, ← BitVec.toInt_ofInt, BitVec.ofInt_toInt]

theorem divU_eq (x y : U64) : divU x y = if y = 0#64 then BitVec.allOnes 64 else BitVec.ofNat 64 (x.toNat / y.toNat) := by
  rw [divU, BitVec.udiv_def]

theorem remS_eq (x y : U64) : remS x y = if y = 0#64 then x else BitVec.ofInt 64 (x.toInt.tmod y.toInt) := by
  rw [remS, ← BitVec.toInt_srem, BitVec.ofInt_toInt]

theorem remU_eq (x y : U64) : remU x y = if y = 0#64 then x else BitVec.ofNat 64 (x.toNat % y.toNat) := by
  rw [remU, BitVec.umod_def]

/-- The count of leading zeros of a nonzero word is that of the bits above its highest one. -/
theorem bitLen_spec {x : Nat} (h : x < 2 ^ 64) :
    x = 0 ∧ 64 - bitLen x = 64 ∨ 64 - bitLen x < 64 ∧ 2 ^ (63 - (64 - bitLen x)) ≤ x ∧ x < 2 ^ (64 - (64 - bitLen x)) := by
  by_cases h0 : x = 0
  · simp [h0, bitLen]
  · have hb : bitLen x = x.log2 + 1 := if_neg h0
    have hl : x.log2 < 64 := (Nat.log2_lt h0).2 h
    have h1 : 63 - (64 - bitLen x) = x.log2 := by omega
    have h2 : 64 - (64 - bitLen x) = x.log2 + 1 := by omega
    rw [h1, h2]
    exact .inr ⟨by omega, Nat.log2_self_le h0, Nat.lt_log2_self⟩

theorem ctzNat_zero (n : Nat) : ctzNat n 0 = n := by
  induction n with
  | zero => rfl
  | succ n ih => simp [ctzNat, ih]; omega

theorem ctzNat_spec {n x : Nat} (h0 : x ≠ 0) (h : x < 2 ^ n) :
    ctzNat n x < n ∧ x.testBit (ctzNat n x) = true ∧ ∀ j, j < ctzNat n x → x.testBit j = false := by
  induction n generalizing x with
  | zero => omega
  | succ n ih =>
    rw [ctzNat]
    split
    next hodd => simp [Nat.testBit_zero, hodd]
    next heven =>
      obtain ⟨hlt, hset, hclear⟩ := @ih (x / 2) (by omega) (by omega)
      refine ⟨by omega, ?_, fun j hj => ?_⟩
      · rw [Nat.add_comm, Nat.testBit_succ]; exact hset
      · cases j with
        | zero => simpa [Nat.testBit_zero] using heven
        | succ j => rw [Nat.testBit_succ]; exact hclear j (by omega)

theorem popNat_eq (n x : Nat) : popNat n x = ((List.range n).filter fun i => x.testBit i).length := by
  induction n generalizing x with
  | zero => rfl
  | succ n ih =>
    have hs : (fun i => x.testBit i) ∘ Nat.succ = fun i => (x / 2).testBit i := by funext i; exact Nat.testBit_succ ..
    rw [popNat, ih, List.range_succ_eq_map, List.filter_cons, List.filter_map, hs, Nat.testBit_zero]
    split
    next h => simp only [List.length_cons, List.length_map]; simp at h; omega
    next h => simp only [List.length_map]; simp at h; omega

theorem revNat_lt (n x : Nat) : revNat n x < 2 ^ n := by
  induction n generalizing x with
  | zero => simp [revNat]
  | succ n ih =>
    have := ih (x / 2)
    rw [revNat, Nat.pow_succ]
    rcases Nat.mod_two_eq_zero_or_one x with h | h
    · rw [h]; omega
    · rw [h]; omega

theorem testBit_revNat {n i : Nat} (x : Nat) (hi : i < n) : (revNat n x).testBit i = x.testBit (n - 1 - i) := by
  induction n generalizing x i with
  | zero => omega
  | succ n ih =>
    rw [revNat, Nat.mul_comm, Nat.testBit_two_pow_mul_add _ (revNat_lt n _)]
    split
    next h => rw [ih _ h, ← Nat.testBit_succ]; congr 1; omega
    next h =>
      obtain rfl : i = n := by omega
      simp [Nat.testBit_zero]

theorem fieldWidth_eq {y : U64} {n : Nat} (h1 : 1 ≤ n) (hn : n ≤ 64) (hy : y.toNat % 64 = n % 64) : fieldWidth y = n := by
  unfold fieldWidth
  split
  · omega
  · omega

theorem sext64_ofNat {w : Nat} (hw : 0 < w) (m : Nat) : sext64 m w = (BitVec.ofNat w m).signExtend 64 := by
  have hmsb : (BitVec.ofNat w m).msb = decide (m / 2 ^ (w - 1) % 2 = 1) := by
    rw [BitVec.msb_eq_getLsbD_last, BitVec.getLsbD_ofNat, decide_eq_true (by omega), Bool.true_and, Nat.testBit_eq_decide_div_mod_eq]
  rw [sext64, BitVec.signExtend, BitVec.toInt_eq_msb_cond, hmsb, BitVec.toNat_ofNat]
  simp only [decide_eq_true_eq]
  split
  · rfl
  · rw [BitVec.ofInt_natCast]

theorem sext64_eq (x : U64) {n : Nat} (h1 : 1 ≤ n) : sext64 x.toNat n = (x.setWidth n).signExtend 64 := by
  rw [sext64_ofNat h1, BitVec.ofNat_toNat]

theorem zext_eq (x : U64) (n : Nat) : BitVec.ofNat 64 (x.toNat % 2 ^ n) = (x.setWidth n).setWidth 64 := by
  apply BitVec.eq_of_toNat_eq
  rw [BitVec.toNat_ofNat, BitVec.toNat_setWidth, BitVec.toNat_setWidth]

/-! ## Members with two and with one source -/

/-- As `alu2_gives`, with the value as a rule of the manual has it. -/
theorem alu2_gives_eq {s : State} {len : Nat} {d : Dst} {a b : Src} {x y v : U64} {f : U64 → U64 → U64} (hx : s.reads a = some x)
    (hy : s.reads b = some y) (hv : f x y = v) : runInstr len (alu2 d a b f) s = s.gives len d v := hv ▸ alu2_gives f hx hy

theorem alu1_gives_eq {s : State} {len : Nat} {d : Dst} {a : Src} {x v : U64} {f : U64 → U64} (hx : s.reads a = some x)
    (hv : f x = v) : runInstr len (alu1 d a f) s = s.gives len d v := hv ▸ alu1_gives f hx

/-- SEL reads its third source, and then is a member with two sources (R89). -/
theorem sel_gives {s : State} {d : Dst} {a b : Src} {c : BitVec 4} {x y z : U64} (hx : s.reads a = some x) (hy : s.reads b = some y)
    (hz : s.reads (.age c) = some z) : exec (.sel d a b c) s = s.gives 4 d (if z ≠ 0#64 then x else y) := by
  rw [exec_sel, execSel]
  rw [runInstr_congr (m' := alu2 d a b fun x y => if z ≠ 0#64 then x else y) (by rw [Exec.bind_apply, src_issued hz])]
  exact alu2_gives _ hx hy

/-- Settles O1: each two-source member is `alu2`, each count `alu1`, of a function whose value is the row's. -/
theorem integerResults : Obligations.IntegerResults := by
  refine ⟨fun s d a b x y hx hy => ?_, fun s d a b c x y z hx hy hz => ?_⟩
  · exact ⟨alu2_gives _ hx hy, alu2_gives _ hx hy, alu2_gives _ hx hy, alu2_gives_eq hx hy (mulHigh_eq x y),
      alu2_gives_eq hx hy (mulHighU_eq x y), alu2_gives _ hx hy, alu2_gives _ hx hy, alu2_gives _ hx hy, alu2_gives _ hx hy,
      alu2_gives _ hx hy, alu2_gives _ hx hy, alu2_gives _ hx hy, alu2_gives_eq hx hy (rotateLeft_eq x _),
      alu2_gives_eq hx hy (min_eq x y), alu2_gives_eq hx hy (max_eq x y), alu2_gives_eq hx hy (minu_eq x y),
      alu2_gives_eq hx hy (maxu_eq x y), alu2_gives_eq hx hy (flag_slt x y), alu2_gives_eq hx hy (flag_ult x y),
      alu2_gives_eq hx hy (flag_beq x y), alu2_gives_eq hx hy (flag_bne x y)⟩
  · refine ⟨⟨_, alu1_gives _ hx, ?_⟩, ⟨_, alu1_gives _ hx, ?_⟩, alu1_gives_eq hx (congrArg _ (popNat_eq 64 _)), ⟨_, alu1_gives _ hx, ?_⟩,
      fun n h1 hn hw => ⟨alu2_gives_eq hx hy ?_, alu2_gives_eq hx hy ?_⟩, sel_gives hx hy hz⟩
    · exact (bitLen_spec x.isLt).imp_left fun h => ⟨BitVec.eq_of_toNat_eq h.1, h.2⟩
    · by_cases h0 : x.toNat = 0
      · exact .inl ⟨BitVec.eq_of_toNat_eq h0, by rw [h0, ctzNat_zero]⟩
      · exact .inr (ctzNat_spec h0 x.isLt)
    · intro i hi
      rw [BitVec.getLsbD_ofNat, decide_eq_true hi, Bool.true_and, testBit_revNat _ hi]
      rfl
    · rw [fieldWidth_eq h1 hn hw, sext64_eq x h1]
    · rw [fieldWidth_eq h1 hn hw, zext_eq]

/-- Settles O2: each division is `alu2` of a function that answers for a zero divisor, and wraps. -/
theorem divisionNeverTraps : Obligations.DivisionNeverTraps := fun _ _ _ _ x y hx hy =>
  ⟨alu2_gives_eq hx hy (divS_eq x y), alu2_gives_eq hx hy (divU_eq x y), alu2_gives_eq hx hy (remS_eq x y),
    alu2_gives_eq hx hy (remU_eq x y)⟩

/-! ## Immediates (R91) -/

theorem toInt_imm11 (imm : BitVec 11) : (imm11 imm).toInt = imm.toInt := BitVec.toInt_signExtend_of_le (by omega)

theorem add_imm11_eq (x : U64) (imm : BitVec 11) : x + imm11 imm = BitVec.ofInt 64 (x.toInt + imm.toInt) := by
  rw [BitVec.ofInt_add, BitVec.ofInt_toInt, ← toInt_imm11, BitVec.ofInt_toInt]

theorem shiftLeft_eq_ofNat (x : U64) (n : Nat) : x <<< n = BitVec.ofNat 64 (x.toNat * 2 ^ n) := by
  apply BitVec.eq_of_toNat_eq
  rw [BitVec.toNat_shiftLeft, BitVec.toNat_ofNat, Nat.shiftLeft_eq]

theorem ushiftRight_eq_ofNat (x : U64) (n : Nat) : x >>> n = BitVec.ofNat 64 (x.toNat / 2 ^ n) := by
  apply BitVec.eq_of_toNat_eq
  rw [BitVec.toNat_ushiftRight, BitVec.toNat_ofNat, Nat.shiftRight_eq_div_pow]
  exact (Nat.mod_eq_of_lt (Nat.lt_of_le_of_lt (Nat.div_le_self ..) x.isLt)).symm

theorem sshiftRight_eq_ofInt (x : U64) (n : Nat) : x.sshiftRight n = BitVec.ofInt 64 (x.toInt / 2 ^ n) := by
  rw [BitVec.sshiftRight, Int.shiftRight_eq_div_pow]
  rfl

theorem flag_slt_imm11 (x : U64) (imm : BitVec 11) : flag (x.slt (imm11 imm)) = if x.toInt < imm.toInt then 1#64 else 0#64 := by
  rw [flag_slt, toInt_imm11]

/-- An instruction whose word has its fields but which is not well formed is refused with that word (R50, R85). -/
theorem decodeBytes_not_wf {i : Instr} {w : U32} (h0 : fld w 0 2 = 2#2) (hd : decodeFields none w = some i) (he : encode i = .word w)
    (hwf : i.wf = false) : decodeBytes (encodeBytes i) = .error (.illop 4 (BitVec.ofNat 64 (encode i).bits)) := by
  have hnone : decode32 w = none := by simp [decode32, hd, checked, hwf]
  rw [encodeBytes, he, ← List.append_nil (toBytes ..)]
  exact (decode_word [] h0).trans (by rw [hnone, Encoded.word, BitVec.ofNat_toNat])

/-- A shift by more than 63 (R91). -/
theorem decodeBytes_wide_shift {i : Instr} {d : Dst} {a : Src} {imm : BitVec 11} (h : 63 < imm.toNat)
    (hi : i = .shli d a imm ∨ i = .shri d a imm ∨ i = .srai d a imm) :
    decodeBytes (encodeBytes i) = .error (.illop 4 (BitVec.ofNat 64 (encode i).bits)) := by
  have hwf : decide (imm.toNat < 64) = false := decide_eq_false (by omega)
  rcases hi with rfl | rfl | rfl
  · obtain ⟨w, hw, h0, hm, h8, h13, h18, h21⟩ := fields2 imm 4#3 a.bits d.bits 2#6 2#2
    refine decodeBytes_not_wf h0 ?_ (hw ▸ rfl) hwf
    rw [decodeFields, hm]; change decIimm w = _; rw [decIimm, h18]
    simp [h8, h13, h21]
  · obtain ⟨w, hw, h0, hm, h8, h13, h18, h21⟩ := fields2 imm 5#3 a.bits d.bits 2#6 2#2
    refine decodeBytes_not_wf h0 ?_ (hw ▸ rfl) hwf
    rw [decodeFields, hm]; change decIimm w = _; rw [decIimm, h18]
    simp [h8, h13, h21]
  · obtain ⟨w, hw, h0, hm, h8, h13, h18, h21⟩ := fields2 imm 6#3 a.bits d.bits 2#6 2#2
    refine decodeBytes_not_wf h0 ?_ (hw ▸ rfl) hwf
    rw [decodeFields, hm]; change decIimm w = _; rw [decIimm, h18]
    simp [h8, h13, h21]

/-- Settles O3: each immediate member is `alu1` of one value with its immediate, and a shift of more than 63 decodes as nothing. -/
theorem immediateResults : Obligations.ImmediateResults := fun s _ _ imm _ x hx =>
  ⟨alu1_gives_eq hx (add_imm11_eq x imm), alu1_gives _ hx, alu1_gives _ hx, alu1_gives _ hx,
    fun _ => ⟨alu1_gives_eq hx (shiftLeft_eq_ofNat x _), alu1_gives_eq hx (ushiftRight_eq_ofNat x _),
      alu1_gives_eq hx (sshiftRight_eq_ofInt x _)⟩,
    fun h _ hi => decodeBytes_wide_shift h hi, alu1_gives_eq hx (flag_slt_imm11 x imm), dst_gives s 4 _ _⟩

end Sys2Proof.Laws

/-! # The generator, CYCLE and MFS (R101 to R110) -/

namespace Sys2Proof.Laws

open Sys2Proof.Machine

/-! ## What a system register reads -/

theorem readSys_loop (s : State) (g : Nat) {i : Nat} (hi : i < 3) :
    s.readSys g (0x120 + i) = (((s.slot g).loops[i]?).elim 0#64 LoopLevel.count).toNat := by
  interval_cases i
  · rfl
  · rfl
  · rfl

theorem readSys_mbx (s : State) (g : Nat) {i : Nat} (hi : i < 8) :
    s.readSys g (0x200 + i) = ((s.core (coreOf g)).mbx.get 0#64 i).toNat := by
  simp (disch := omega) only [State.readSys, if_neg, if_pos, Nat.add_sub_cancel_left]

theorem readSys_zdesc (s : State) (g : Nat) {i : Nat} (hi : i < 16) :
    s.readSys g (0x300 + i) = ((s.quad (quadOf (coreOf g))).zdesc.get 0#64 i).toNat := by
  simp (disch := omega) only [State.readSys, if_neg, if_pos, Nat.add_sub_cancel_left]

/-- A quadrant that is not fused is a set of its own (R291). -/
theorem readSys_fused (s : State) (g : Nat) {q : Nat} {m : BitVec 4} (hq : quadOf (coreOf g) = q) (hm : (s.quad q).fused = m) :
    s.readSys g 0x310 = if m = 0#4 then q % 4 + 16 * 2 ^ (q % 4) else q % 4 + 16 * m.toNat +
      4 * (if m = 15#4 then 3 else if m = 3#4 ∨ m = 12#4 then 1 else if m = 5#4 ∨ m = 10#4 then 2 else 0) := by
  subst hq
  have hset : s.readSys g 0x310 = quadOf (coreOf g) % 4 + 4 * fusedShape (s.quad (quadOf (coreOf g))).fused +
    16 * (s.fusedSet (quadOf (coreOf g))).toNat := rfl
  rw [hset, State.fusedSet, hm]
  by_cases h0 : m = 0#4
  · have hlt : 2 ^ (quadOf (coreOf g) % 4) < 2 ^ 4 := Nat.pow_lt_pow_right (by omega) (Nat.mod_lt _ (by omega))
    rw [if_pos h0, if_pos h0, BitVec.toNat_ofNat, Nat.mod_eq_of_lt hlt, h0]
    rfl
  · rw [if_neg h0, if_neg h0, fusedShape]
    omega

theorem readSys_cycle (s : State) (g : Nat) : s.readSys g 0x011 = (s.cycle (dieOf (coreOf g))).toNat := rfl

/-! ## What issuing changes -/

theorem status_noteIssue (s : State) (g : Nat) : (s.noteIssue.slot g).status = (s.slot g).status := by
  simp only [Slot.status, State.noteIssue_slot_user, State.noteIssue_slot_borrow, State.noteIssue_slot_inTrap]

theorem fusedSet_noteIssue (s : State) (q : Nat) : s.noteIssue.fusedSet q = s.fusedSet q := rfl

/-- Issuing changes no system register but BUDGET (R110; log 67). -/
theorem readSys_noteIssue (s : State) (g : Nat) {n : Nat} (hn : n ≠ 0x401) : s.noteIssue.readSys g n = s.readSys g n := by
  simp [State.readSys, hn, status_noteIssue, fusedSet_noteIssue]

theorem readSys_budget (s : State) : s.noteIssue.readSys s.cur 0x401 =
    (if (s.slot s.cur).limited then (s.slot s.cur).issues.toNat - 1 else 0) +
      2 ^ 32 * (if (s.slot s.cur).admitted then (s.slot s.cur).charge - 1 else 0) := by
  have hless (n : U32) : (if n ≠ 0#32 then n - 1#32 else n).toNat = n.toNat - 1 := by
    split
    next h => bv_omega
    next h => rw [not_not.1 h]; rfl
  have hbudget : s.noteIssue.readSys s.cur 0x401 = (fun x : Slot =>
    (if x.limited then x.issues.toNat else 0) + 2 ^ 32 * (if x.admitted then x.charge else 0)) (s.noteIssue.slot s.cur) := rfl
  rw [hbudget, State.slot_noteIssue, if_pos rfl, ← hless]
  cases hl : (s.slot s.cur).limited <;> cases ha : (s.slot s.cur).admitted <;> simp [Slot.issued, hl, ha]

/-! ## MFS -/

/-- MFS reads its register once it has issued (R106). -/
theorem mfs_gives {s : State} {sys : BitVec 12} (h : s.mayName sys) (d : Dst) :
    exec (.mfs d sys) s = s.gives 4 d (BitVec.ofNat 64 (s.noteIssue.readSys s.cur sys.toNat)) := by
  rw [exec_mfs, execMfs]
  exact runInstr_gives (by rw [Exec.bind_apply, sysPrivilege_mayName (State.mayName_noteIssue h)]; rfl)

section Reads

variable {s : State} {d : Dst} {sys : BitVec 12}

/-- MFS of a register below 0x800 but BUDGET, by what the register reads. -/
theorem mfs_reads {n : Nat} (hs : sys.toNat < 0x800 ∧ sys.toNat ≠ 0x401) (h : s.readSys s.cur sys.toNat = n) :
    exec (.mfs d sys) s = s.gives 4 d (BitVec.ofNat 64 n) := by
  rw [mfs_gives fun h8 => absurd h8 (Nat.not_le.2 hs.1), readSys_noteIssue s _ hs.2, h]

/-- As `mfs_reads`, for a register of fewer than 64 bits. -/
theorem mfs_field {w : Nat} {v : BitVec w} (hs : sys.toNat < 0x800 ∧ sys.toNat ≠ 0x401) (h : s.readSys s.cur sys.toNat = v.toNat) :
    exec (.mfs d sys) s = s.gives 4 d (v.setWidth 64) := by
  rw [mfs_reads hs h, BitVec.ofNat_toNat]

/-- As `mfs_reads`, for a register of 64 bits. -/
theorem mfs_word {v : U64} (hs : sys.toNat < 0x800 ∧ sys.toNat ≠ 0x401) (h : s.readSys s.cur sys.toNat = v.toNat) :
    exec (.mfs d sys) s = s.gives 4 d v := by
  rw [mfs_field hs h, BitVec.setWidth_eq]

/-- Register number `i` of a row of words from number `n` on. -/
theorem mfs_row {n i : Nat} {v : U64} (hs : n + i < 0x400) (h : s.readSys s.cur (n + i) = v.toNat) :
    exec (.mfs d (BitVec.ofNat 12 (n + i))) s = s.gives 4 d v := by
  have hn : (BitVec.ofNat 12 (n + i)).toNat = n + i := by rw [BitVec.toNat_ofNat]; omega
  exact mfs_word (by omega) (by rw [hn, h])

end Reads

/-- Settles O10: MFS reads its register after its own issue, which changes none but BUDGET. -/
theorem systemRegisterReads : Obligations.SystemRegisterReads := by
  refine ⟨fun s d sys h => mfs_gives (fun h8 => h.resolve_left (Nat.not_lt.2 h8)) d, ?_⟩
  rintro s d x c rfl rfl
  have hbudget : exec (.mfs d 0x401#12) s = s.gives 4 d (BitVec.ofNat 64 ((if (s.slot s.cur).limited then (s.slot s.cur).issues.toNat - 1 else 0) +
      2 ^ 32 * (if (s.slot s.cur).admitted then (s.slot s.cur).charge - 1 else 0))) := by
    rw [← readSys_budget]
    exact mfs_gives (fun h => absurd h (by decide)) d
  exact ⟨mfs_reads (by decide) rfl, mfs_reads (by decide) rfl, mfs_reads (by decide) rfl, mfs_reads (by decide) rfl,
    mfs_reads (by decide) rfl, mfs_field (by decide) rfl, mfs_field (by decide) rfl, mfs_field (by decide) rfl, mfs_word (by decide) rfl,
    mfs_word (by decide) rfl, mfs_reads (by decide) rfl, fun i hi => mfs_row (by omega) (readSys_loop s _ hi),
    mfs_reads (by decide) rfl, fun i hi => mfs_row (by omega) (readSys_mbx s _ hi), mfs_field (by decide) rfl,
    fun i hi => mfs_row (by omega) (readSys_zdesc s _ hi), fun m hm => mfs_reads (by decide) (readSys_fused s _ rfl hm),
    mfs_word (by decide) rfl, hbudget, mfs_field (by decide) rfl, mfs_word (by decide) rfl, mfs_field (by decide) rfl,
    mfs_field (by decide) rfl, mfs_field (by decide) rfl, mfs_field (by decide) rfl, mfs_field (by decide) rfl,
    mfs_field (by decide) rfl, mfs_field (by decide) rfl, mfs_field (by decide) rfl, mfs_word (by decide) rfl,
    mfs_reads (by decide) rfl, mfs_reads (by decide) rfl⟩

/-! ## The generator and CYCLE -/

theorem cycle_gives (s : State) (d : Dst) : exec (.cycle d) s = s.gives 4 d (s.cycle (dieOf (coreOf s.cur))) := by
  rw [exec_cycle, execCycle]
  exact runInstr_gives rfl

/-- RNG takes a step of the slot's generator and pushes its output (R101). -/
theorem rng_done (s : State) (d : Dst) : exec (.rng d) s = .next (s.done 4 fun x =>
    Slot.result { x with rngLo := (rngStep (s.slot s.cur).rngLo (s.slot s.cur).rngHi).2.1
                         rngHi := (rngStep (s.slot s.cur).rngLo (s.slot s.cur).rngHi).2.2 }
      d (rngStep (s.slot s.cur).rngLo (s.slot s.cur).rngHi).1) := by
  rw [exec_rng, execRng, ← State.noteIssue_slot_rngLo, ← State.noteIssue_slot_rngHi]
  refine runInstr_done ?_
  rw [Exec.bind_apply, rngNext_apply]
  exact congrArg (fun t => Except.ok (Flow.next, t)) (State.modSlot_modSlot ..)

theorem seeded_noteIssue (s : State) (g n : Nat) : s.noteIssue.seeded (s.noteIssue.partOfSlot g) n = s.seeded (s.partOfSlot g) n := by
  simp [State.seeded]

/-- Settles O6: RNG's step is the rule's by definition, and CYCLE pushes what MFS of 0x011 reads. -/
theorem generatorAndCycle : Obligations.GeneratorAndCycle := by
  refine ⟨?_, fun s d a v hv => ⟨?_, cycle_gives s d, ?_⟩⟩
  · rintro s d _ _ rfl rfl
    exact rng_done s d
  · rw [← seeded_noteIssue, exec_rngseed, execRngseed]
    exact runInstr_done (by rw [Exec.bind_apply, src_issued hv]; rfl)
  · rw [cycle_gives, mfs_word (by decide) (readSys_cycle s s.cur)]

end Sys2Proof.Laws

/-! # Borrowed registers and core queues (R97 to R99, R405) -/

namespace Sys2Proof.Laws

open Sys2Proof.Machine

/-! ## BORROW -/

/-- The helper that BORROW takes for a source value (R97). -/
def borrowPick (s : State) (v : U64) : Option Nat :=
  if (s.slot s.cur).borrow.isSome || decide (v.toNat > 10) then none
  else if v = 0#64 then (List.range 11).find? fun i => s.freeHelper (12 * coreOf s.cur + i)
  else if s.freeHelper (12 * coreOf s.cur + v.toNat) then some v.toNat else none

/-- Helper `b`, idle and asked for, is taken. -/
theorem borrowPick_eq_some {s : State} {v : U64} {b : Nat} (hb : (s.slot s.cur).borrow = none) (hlt : b < 11)
    (hfree : s.freeHelper (12 * coreOf s.cur + b) = true)
    (h : v.toNat = b ∨ v = 0#64 ∧ ∀ j, j < b → s.freeHelper (12 * coreOf s.cur + j) = false) : borrowPick s v = some b := by
  have hpos : b ≠ 0 := by
    rintro rfl
    simp [State.freeHelper, slotNo, coreOf] at hfree
  have h10 : ¬v.toNat > 10 := by
    rcases h with rfl | ⟨rfl, _⟩
    · omega
    · decide
  rw [borrowPick, hb]
  simp only [Option.isSome_none, Bool.false_or, decide_eq_true_eq, if_neg h10]
  rcases h with rfl | ⟨rfl, hlow⟩
  · rw [if_neg fun h0 => hpos (by rw [h0]; rfl), if_pos hfree]
  · rw [if_pos rfl, List.find?_range_eq_some]
    exact ⟨hfree, List.mem_range.2 hlt, by simpa using hlow⟩

theorem borrowPick_eq_none {s : State} {v : U64}
    (h : (s.slot s.cur).borrow ≠ none ∨ v.toNat > 10 ∨ v ≠ 0#64 ∧ s.freeHelper (12 * coreOf s.cur + v.toNat) = false ∨
      v = 0#64 ∧ ∀ j, j < 11 → s.freeHelper (12 * coreOf s.cur + j) = false) : borrowPick s v = none := by
  unfold borrowPick
  rcases h with hb | h10 | ⟨h0, hbusy⟩ | ⟨rfl, hbusy⟩
  · rw [if_pos (by simp [Option.isSome_iff_ne_none.2 hb])]
  · rw [if_pos (by simp [h10])]
  · rw [if_neg h0, hbusy]
    simp
  · rw [if_pos rfl, List.find?_eq_none.2 (by simpa using hbusy)]
    simp

theorem borrowPick_noteIssue (s : State) (v : U64) : borrowPick s.noteIssue v = borrowPick s v := by
  simp [borrowPick]

section Borrow

variable {s : State} {d : Dst} {a : Src} {n : BitVec 4} {v : U64} {b : Nat}

theorem borrow_gives (hv : s.reads a = some v) (h : borrowPick s v = none) :
    exec (.borrow d a) s = s.gives 4 d (BitVec.allOnes 64) := by
  rw [← borrowPick_noteIssue, borrowPick] at h
  rw [exec_borrow, execBorrow]
  refine runInstr_gives ?_
  simp only [Exec.bind_apply, src_issued hv, Exec.get_apply, h, dst_apply, Exec.pure_apply]
  rfl

theorem borrow_takes (hv : s.reads a = some v) (h : borrowPick s v = some b) :
    exec (.borrow d a) s = .next (((s.noteIssue.modSlot (12 * coreOf s.cur + b) fun y => { y.idle with borrowed := true }).modSlot s.cur
      fun y => Slot.result { y with borrow := some b } d (BitVec.ofNat 64 b)).past 4) := by
  rw [← borrowPick_noteIssue, borrowPick] at h
  rw [exec_borrow, execBorrow]
  refine runInstr_past ?_
  simp only [Exec.bind_apply, src_issued hv, Exec.get_apply, h, Exec.modify_apply, modSlot_apply, dst_apply, Exec.pure_apply]
  exact congrArg (fun t => Except.ok (Flow.next, t)) (State.modSlot_modSlot ..)

/-! ## BRD, BWR and BRET -/

theorem borrowedSlot_some (h : (s.slot s.cur).borrow = some b) (tval : U64) :
    borrowedSlot tval s.noteIssue = .ok (12 * coreOf s.cur + b, s.noteIssue) := by
  simp [borrowedSlot, h]

theorem borrowedSlot_none (h : (s.slot s.cur).borrow = none) (tval : U64) :
    borrowedSlot tval s.noteIssue = .error (.trap .illop tval) := by
  simp [borrowedSlot, h]

theorem borrowed_gives (hv : s.reads a = some v) (h : (s.slot s.cur).borrow = some b) :
    exec (.brd d n) s = s.gives 4 d ((s.slot (12 * coreOf s.cur + b)).named n.toNat) ∧
    exec (.bwr n a) s = .next ((s.noteIssue.modSlot (12 * coreOf s.cur + b) fun x => x.setNamed n.toNat v).past 4) ∧
    exec .bret s = .next ((s.noteIssue.returnBorrow s.cur).past 4) := by
  refine ⟨?_, ?_, ?_⟩
  · rw [exec_brd, execBrd, ← State.noteIssue_named]
    exact runInstr_gives (by rw [Exec.bind_apply, borrowedSlot_some h]; rfl)
  · rw [exec_bwr, execBwr]
    exact runInstr_past (by simp only [Exec.bind_apply, src_issued hv, borrowedSlot_some h]; rfl)
  · rw [exec_bret, execBret]
    exact runInstr_past (by rw [Exec.bind_apply, borrowedSlot_some h]; rfl)

theorem borrowed_traps (hv : s.reads a = some v) (h : (s.slot s.cur).borrow = none) :
    exec (.brd d n) s = s.traps 4 .illop (wordVal (encode (.brd d n))) ∧
    exec (.bwr n a) s = s.traps 4 .illop (wordVal (encode (.bwr n a))) ∧
    exec .bret s = s.traps 4 .illop (wordVal (encode .bret)) := by
  refine ⟨?_, ?_, ?_⟩
  · rw [exec_brd, execBrd]
    exact runInstr_traps (by rw [Exec.bind_apply, borrowedSlot_none h])
  · rw [exec_bwr, execBwr]
    exact runInstr_traps (by simp only [Exec.bind_apply, src_issued hv, borrowedSlot_none h])
  · rw [exec_bret, execBret]
    exact runInstr_traps (by rw [Exec.bind_apply, borrowedSlot_none h])

end Borrow

/-! ## Core queues -/

section Queues

variable {s : State} {d : Dst} {a : Src} {q : BitVec 3} {v : U64} {es : List QEntry}

/-- All entries of a queue are of the current slot's tenant (R405). -/
def queueMine (s : State) (es : List QEntry) : Prop := ∀ e ∈ es, e.tenant = (s.slot s.cur).tenant

/-- What a queue instruction finds: the entries, and whether one is another tenant's. -/
theorem queueEntries_issued (h : (s.core (coreOf s.cur)).queues.get [] q.toNat = es) :
    queueEntries q s.noteIssue = .ok ((es, es.any fun e => e.tenant ≠ (s.slot s.cur).tenant), s.noteIssue) := by
  simp [queueEntries, h]

theorem any_other_false (h : queueMine s es) : (es.any fun e => e.tenant ≠ (s.slot s.cur).tenant) = false := by
  simpa [queueMine] using h

theorem any_other_true (h : ¬queueMine s es) : (es.any fun e => e.tenant ≠ (s.slot s.cur).tenant) = true := by
  simpa [queueMine] using h

theorem notLatent_issued (h : (s.slot s.cur).tile? = none) : notLatent s.noteIssue = .ok ((), s.noteIssue) := by
  rw [notLatent_apply]
  simp [h]

theorem relHolds_issued (h : (s.slot s.cur).relHold = []) : relHolds s.noteIssue = .ok ([], s.noteIssue) := by
  simp [relHolds, h]

theorem qsend_appends (hv : s.reads a = some v) (ht : (s.slot s.cur).tile? = none)
    (hq : (s.core (coreOf s.cur)).queues.get [] q.toNat = es) (hmine : queueMine s es) (hlen : es.length < 4)
    (hrel : (s.slot s.cur).relHold = []) :
    exec (.qsend q a) s = .next ((s.noteIssue.modCore (coreOf s.cur) fun c =>
      { c with queues := c.queues.set [] q.toNat (es ++ [{ v := v, tenant := (s.slot s.cur).tenant, holds := [] }]) }).past 4) := by
  rw [exec_qsend, execQsend]
  refine runInstr_past ?_
  simp only [Exec.bind_apply, src_issued hv, notLatent_issued ht, queueEntries_issued hq, any_other_false hmine, hlen, Bool.not_false,
    decide_true, Bool.and_true, await_true, relHolds_issued hrel, getSlot_apply, State.noteIssue_cur, State.noteIssue_slot_tenant]
  rfl

theorem qsend_waits (hv : s.reads a = some v) (ht : (s.slot s.cur).tile? = none)
    (hq : (s.core (coreOf s.cur)).queues.get [] q.toNat = es) (h : ¬queueMine s es ∨ 4 ≤ es.length) : exec (.qsend q a) s = s.waits := by
  have hno : (!(es.any fun e => e.tenant ≠ (s.slot s.cur).tenant) && decide (es.length < 4)) = false := by
    rcases h with h | h
    · rw [any_other_true h]; rfl
    · rw [decide_eq_false (Nat.not_lt.2 h), Bool.and_false]
  rw [exec_qsend, execQsend]
  refine runInstr_waits ?_
  simp only [Exec.bind_apply, src_issued hv, notLatent_issued ht, queueEntries_issued hq, hno, await_false]

theorem qrecv_takes {e : QEntry} {rest : List QEntry} (hq : (s.core (coreOf s.cur)).queues.get [] q.toNat = e :: rest)
    (hmine : queueMine s (e :: rest)) (hh : e.holds = []) :
    exec (.qrecv d q) s = .next (((s.noteIssue.modCore (coreOf s.cur) fun c => { c with queues := c.queues.set [] q.toNat rest }).modSlot
      s.cur fun x => x.result d e.v).past 4) := by
  rw [exec_qrecv, execQrecv]
  refine runInstr_past ?_
  simp only [Exec.bind_apply, queueEntries_issued hq, any_other_false hmine, hh, Exec.get_apply, List.all_nil, Bool.not_false,
    Bool.and_true, await_true]
  rfl

theorem qrecv_waits (hq : (s.core (coreOf s.cur)).queues.get [] q.toNat = es)
    (h : ¬queueMine s es ∨ es = [] ∨ ∃ e rest h, es = e :: rest ∧ h ∈ e.holds ∧ s.pending h = true) :
    exec (.qrecv d q) s = s.waits := by
  rw [exec_qrecv, execQrecv]
  refine runInstr_waits ?_
  cases es with
  | nil => simp only [Exec.bind_apply, queueEntries_issued hq, Exec.get_apply, block_apply]
  | cons e rest =>
    have hno : (!((e :: rest).any fun x => x.tenant ≠ (s.slot s.cur).tenant) && e.holds.all fun i => !s.pending i) = false := by
      rcases h with h | h | ⟨_, _, i, h, hi, hp⟩
      · rw [any_other_true h]; rfl
      · exact absurd h (List.cons_ne_nil _ _)
      · obtain ⟨rfl, rfl⟩ := List.cons.inj h
        rw [Bool.and_eq_false_iff]
        exact .inr (List.all_eq_false.2 ⟨i, hi, by simp [hp]⟩)
    simp only [Exec.bind_apply, queueEntries_issued hq, Exec.get_apply, State.noteIssue_pending, hno, await_false]

theorem qstat_gives (hq : (s.core (coreOf s.cur)).queues.get [] q.toNat = es) : exec (.qstat d q) s =
    s.gives 4 d (if es.any fun e => e.tenant ≠ (s.slot s.cur).tenant then BitVec.allOnes 64 else BitVec.ofNat 64 es.length) := by
  rw [exec_qstat, execQstat]
  exact runInstr_gives (by rw [Exec.bind_apply, queueEntries_issued hq]; rfl)

end Queues

/-- Settles O7: BORROW by the helper it picks, the queues by the entries that they find. -/
theorem queuesAndBorrows : Obligations.QueuesAndBorrows := by
  refine ⟨fun s d a n v hv => ⟨fun b hb hlt hfree h => borrow_takes hv (borrowPick_eq_some hb hlt hfree h),
    fun h => borrow_gives hv (borrowPick_eq_none h), fun b hb => borrowed_gives hv hb, fun hb => borrowed_traps hv hb⟩,
    fun s d a q v es hv ht hq => ⟨fun hmine hlen hrel => qsend_appends hv ht hq hmine hlen hrel, fun h => qsend_waits hv ht hq h, ?_,
      fun h => qrecv_waits hq h, fun hmine => ?_, fun hother => ?_⟩⟩
  · rintro e rest hmine rfl hh
    exact qrecv_takes hq hmine hh
  · rw [qstat_gives hq, any_other_false hmine, if_neg Bool.false_ne_true]
  · rw [qstat_gives hq, any_other_true hother, if_pos rfl]

end Sys2Proof.Laws

/-! # Capabilities (R112, R113, R117 to R122) -/

namespace Sys2Proof.Laws

open Sys2Proof.Machine

/-! ## Fields of a word in which some bits are replaced -/

theorem fld_putBits_disjoint {n : Nat} (w : BitVec n) {lo len v l m : Nat} (hn : l + m ≤ n) (h : l + m ≤ lo ∨ lo + len ≤ l) :
    fld (putBits w lo len v) l m = fld w l m := by
  refine BitVec.eq_of_getLsbD_eq fun i hi => ?_
  rw [fld, fld, BitVec.getLsbD_extractLsb', BitVec.getLsbD_extractLsb', getLsbD_putBits w (by omega), if_neg (by omega)]

theorem fld_putBits_self {n : Nat} (w : BitVec n) {lo len v : Nat} (hn : lo + len ≤ n) :
    fld (putBits w lo len v) lo len = BitVec.ofNat len v := by
  refine BitVec.eq_of_getLsbD_eq fun i hi => ?_
  rw [fld, BitVec.getLsbD_extractLsb', getLsbD_putBits w (by omega), if_pos (by omega), BitVec.getLsbD_ofNat, Nat.add_sub_cancel_left]

/-! ## A capability with another cursor -/

section WithCursor

variable (k : Cap) (v : Nat)

@[simp] theorem withCursor_tag : (k.withCursor v).tag = k.tag := rfl

@[simp] theorem withCursor_space : (k.withCursor v).space = k.space :=
  congrArg BitVec.toNat (fld_putBits_disjoint k.bits (by decide) (.inr (by decide)))

@[simp] theorem withCursor_perm : (k.withCursor v).perm = k.perm :=
  congrArg BitVec.toNat (fld_putBits_disjoint k.bits (by decide) (.inr (by decide)))

@[simp] theorem withCursor_ex : (k.withCursor v).ex = k.ex :=
  congrArg BitVec.toNat (fld_putBits_disjoint k.bits (by decide) (.inr (by decide)))

@[simp] theorem withCursor_bOff : (k.withCursor v).bOff = k.bOff :=
  congrArg BitVec.toNat (fld_putBits_disjoint k.bits (by decide) (.inr (by decide)))

@[simp] theorem withCursor_tOff : (k.withCursor v).tOff = k.tOff :=
  congrArg BitVec.toNat (fld_putBits_disjoint k.bits (by decide) (.inr (by decide)))

variable {k v}

theorem withCursor_cursor (h : v < 2 ^ 52) : (k.withCursor v).cursor = v :=
  (congrArg BitVec.toNat (fld_putBits_self k.bits (by decide))).trans ((BitVec.toNat_ofNat ..).trans (Nat.mod_eq_of_lt h))

/-- A cursor in the capability's block leaves the block where it is. -/
theorem withCursor_blk (h : v < 2 ^ 52) (hb : v / 2 ^ (k.ex + 26) = k.cursor / 2 ^ (k.ex + 26)) :
    (k.withCursor v).blk = k.blk := by
  rw [Cap.blk, Cap.blk, withCursor_cursor h, withCursor_ex, hb]

theorem withCursor_base (h : v < 2 ^ 52) (hb : v / 2 ^ (k.ex + 26) = k.cursor / 2 ^ (k.ex + 26)) :
    (k.withCursor v).base = k.base := by
  rw [Cap.base, Cap.base, withCursor_blk h hb, withCursor_bOff, withCursor_ex]

theorem withCursor_top (h : v < 2 ^ 52) (hb : v / 2 ^ (k.ex + 26) = k.cursor / 2 ^ (k.ex + 26)) :
    (k.withCursor v).top = k.top := by
  rw [Cap.top, Cap.top, withCursor_blk h hb, withCursor_tOff, withCursor_ex]

end WithCursor

/-! ## Members that read capabilities -/

/-- A register of the current slot, once it has issued. -/
theorem kreg_issued (s : State) (i : BitVec 3) : kreg i s.noteIssue = .ok (s.cap i, s.noteIssue) := by
  rw [kreg_apply, State.noteIssue_kreg]
  rfl

theorem capGet_gives (s : State) (d : Dst) (ka : BitVec 3) (f : Cap → Nat) :
    runInstr 4 (capGet d ka f) s = s.gives 4 d (BitVec.ofNat 64 (f (s.cap ka))) :=
  runInstr_gives (by rw [capGet, Exec.bind_apply, kreg_issued]; rfl)

/-- As `capGet_gives`, with the value as a rule of the manual has it. -/
theorem capGet_gives_eq {s : State} {d : Dst} {ka : BitVec 3} {f : Cap → Nat} {v : U64} (h : BitVec.ofNat 64 (f (s.cap ka)) = v) :
    runInstr 4 (capGet d ka f) s = s.gives 4 d v := h ▸ capGet_gives s d ka f

theorem capEq_iff (k j : Cap) : capEq k j = true ↔ k.tag = j.tag ∧
    (k.tag = true → k.space = j.space ∧ k.perm = j.perm ∧ k.cursor = j.cursor ∧ k.base = j.base ∧ k.top = j.top) ∧
    (k.tag = false → k.bits = j.bits) := by
  cases hk : k.tag <;> simp [capEq, hk, and_assoc]

theorem ofNat_length (k : Cap) : BitVec.ofNat 64 (u64 ((k.top : Int) - k.base)).toNat = BitVec.ofNat 64 k.top - BitVec.ofNat 64 k.base := by
  rw [BitVec.ofNat_toNat, BitVec.setWidth_eq, u64, sub_eq_add_neg, BitVec.ofInt_add, BitVec.ofInt_neg, ← BitVec.sub_eq_add_neg,
    BitVec.ofInt_natCast, BitVec.ofInt_natCast]

theorem ofNat_tag (k : Cap) : BitVec.ofNat 64 (if k.tag then 1 else 0) = if k.tag then 1#64 else 0#64 := by
  cases k.tag
  · rfl
  · rfl

theorem ceq_gives (s : State) (d : Dst) (ka kb : BitVec 3) :
    exec (.ceq d ka kb) s = s.gives 4 d (flag (capEq (s.cap ka) (s.cap kb))) := by
  rw [exec_ceq, execCeq]
  exact runInstr_gives (by simp only [Exec.bind_apply, kreg_issued]; rfl)

/-- CSUB compares the spaces before it subtracts the cursors (R118). -/
theorem csub_eq (s : State) (d : Dst) (ka kb : BitVec 3) : exec (.csub d ka kb) s = runInstr 4 (do
    require ((s.cap ka).space == (s.cap kb).space) .capSpace (u64 (s.cap ka).cursor)
    dst d (u64 (((s.cap ka).cursor : Int) - (s.cap kb).cursor))
    pure .next) s := by
  rw [exec_csub, execCsub]
  exact runInstr_congr (by simp only [Exec.bind_apply, kreg_issued])

theorem csub_gives {s : State} {d : Dst} {ka kb : BitVec 3} (h : (s.cap ka).space = (s.cap kb).space) :
    exec (.csub d ka kb) s = s.gives 4 d (BitVec.ofInt 64 (((s.cap ka).cursor : Int) - (s.cap kb).cursor)) := by
  rw [csub_eq, beq_iff_eq.2 h]
  exact runInstr_gives rfl

theorem csub_traps {s : State} {d : Dst} {ka kb : BitVec 3} (h : (s.cap ka).space ≠ (s.cap kb).space) :
    exec (.csub d ka kb) s = s.traps 4 .capSpace (BitVec.ofNat 64 (s.cap ka).cursor) := by
  rw [csub_eq, beq_eq_false_iff_ne.2 h, ← BitVec.ofInt_natCast]
  exact runInstr_traps rfl

/-! ## Members that write a capability register -/

/-- An instruction that only writes a capability register. -/
theorem setK_done {s : State} {kd : BitVec 3} {r : Cap} {m : Exec Flow} (h : m s.noteIssue = (do setK kd r; pure .next : Exec Flow) s.noteIssue) :
    runInstr 4 m s = .next (s.done 4 fun x => { x with k := x.k.set Cap.null kd.toNat r }) := runInstr_done h

section MoveCursor

variable {s : State} {kd ka : BitVec 3} {b : Src} {y : U64} {k : Cap} {v : Int}

/-- `v` lies in the block of capability `k`, and in its space (R119). -/
def inBlock (k : Cap) (v : Int) : Prop := 0 ≤ v ∧ v < 2 ^ 52 ∧ v / 2 ^ (k.ex + 26) = k.cursor / 2 ^ (k.ex + 26)

/-- The checks of a new cursor on its block, which the model makes of `v` as a number. -/
theorem inBlock_iff : inBlock k v ↔ (decide (0 ≤ v) && decide (v < 2 ^ 52)) = true ∧
    v.toNat / 2 ^ (k.ex + 26) = k.cursor / 2 ^ (k.ex + 26) := by
  simp only [inBlock, Bool.and_eq_true, decide_eq_true_eq, and_assoc]
  refine and_congr_right fun h0 => and_congr_right fun _ => ?_
  obtain ⟨n, rfl⟩ := Int.eq_ofNat_of_zero_le h0
  have hpow : (2 : Int) ^ (k.ex + 26) = (2 ^ (k.ex + 26) : Nat) := by rw [Nat.cast_pow, Nat.cast_ofNat]
  rw [Int.toNat_natCast, hpow, ← Int.natCast_div, ← Int.natCast_div, Int.natCast_inj]

theorem moveCursor_ok (s : State) (ht : k.tag = true) (h : inBlock k v) : moveCursor k v s = .ok (k.withCursor v.toNat, s) := by
  obtain ⟨hr, hb⟩ := inBlock_iff.1 h
  simp only [moveCursor, Exec.bind_apply, ht, hr, decide_eq_true hb, require_true, Exec.pure_apply]

theorem moveCursor_untagged (s : State) (v : Int) (ht : k.tag = false) : moveCursor k v s = .error (.trap .capTag (u64 k.cursor)) := by
  simp only [moveCursor, Exec.bind_apply, ht, require_false]

theorem moveCursor_outside (s : State) (ht : k.tag = true) (h : ¬inBlock k v) : moveCursor k v s = .error (.trap .capBnd (u64 v)) := by
  rw [inBlock_iff, not_and] at h
  cases hr : decide (0 ≤ v) && decide (v < 2 ^ 52) with
  | false => simp only [moveCursor, Exec.bind_apply, ht, hr, require_true, require_false]
  | true => simp only [moveCursor, Exec.bind_apply, ht, hr, decide_eq_false (h hr), require_true, require_false]

/-- A capability moved to a cursor in its block (R119). -/
theorem withCursor_moved (ht : k.tag = true) (h : inBlock k v) :
    (k.withCursor v.toNat).tag = true ∧ ((k.withCursor v.toNat).cursor : Int) = v ∧ (k.withCursor v.toNat).base = k.base ∧
      (k.withCursor v.toNat).top = k.top ∧ (k.withCursor v.toNat).ex = k.ex ∧ (k.withCursor v.toNat).space = k.space ∧
      (k.withCursor v.toNat).perm = k.perm := by
  obtain ⟨_, hb⟩ := inBlock_iff.1 h
  obtain ⟨h0, h52, _⟩ := h
  have hlt : v.toNat < 2 ^ 52 := by omega
  refine ⟨ht, ?_, withCursor_base hlt hb, withCursor_top hlt hb, withCursor_ex .., withCursor_space .., withCursor_perm ..⟩
  rw [withCursor_cursor hlt, Int.toNat_of_nonneg h0]

/-- CSETA and CINC from the new cursor on (R119): how the instruction ends. -/
theorem moveCursor_ends {m : Exec Flow} (hm : m s.noteIssue = (do
    let r ← moveCursor k v
    setK kd r
    pure .next : Exec Flow) s.noteIssue) :
    (k.tag = true → inBlock k v → ∃ r : Cap, (r.tag = true ∧ (r.cursor : Int) = v ∧ r.base = k.base ∧ r.top = k.top ∧ r.ex = k.ex ∧
        r.space = k.space ∧ r.perm = k.perm) ∧
      runInstr 4 m s = .next (s.done 4 fun x => { x with k := x.k.set Cap.null kd.toNat r })) ∧
    (k.tag = false → runInstr 4 m s = s.traps 4 .capTag (BitVec.ofNat 64 k.cursor)) ∧
    (k.tag = true → ¬inBlock k v → runInstr 4 m s = s.traps 4 .capBnd (BitVec.ofInt 64 v)) := by
  refine ⟨fun ht h => ⟨_, withCursor_moved ht h, ?_⟩, fun ht => ?_, fun ht h => ?_⟩
  · exact runInstr_done (by rw [hm, Exec.bind_apply, moveCursor_ok _ ht h]; rfl)
  · rw [← BitVec.ofInt_natCast]
    exact runInstr_traps (by rw [hm, Exec.bind_apply, moveCursor_untagged _ _ ht]; rfl)
  · exact runInstr_traps (by rw [hm, Exec.bind_apply, moveCursor_outside _ ht h]; rfl)

end MoveCursor

/-- Settles O12: each member by what it reads of its capabilities, CSETA and CINC by the checks that they share. -/
theorem capabilityReadsAndMoves : Obligations.CapabilityReadsAndMoves := by
  refine ⟨?_, fun s kd ka => ⟨?_, ?_⟩, ?_⟩
  · rintro s d ka kb k j rfl rfl
    refine ⟨?_, ?_, ?_, ?_, ?_, csub_gives, csub_traps, ?_⟩
    · rw [exec_cgeta, execCgeta]; exact capGet_gives_eq (BitVec.ofNat_toNat ..)
    · rw [exec_cgetb, execCgetb]; exact capGet_gives ..
    · rw [exec_cgetl, execCgetl]; exact capGet_gives_eq (ofNat_length _)
    · rw [exec_cgetp, execCgetp]; exact capGet_gives ..
    · rw [exec_ctag, execCtag]; exact capGet_gives_eq (ofNat_tag _)
    · rw [ceq_gives, flag, if_congr (capEq_iff _ _) rfl rfl]
  · rw [exec_cmov, execCmov]
    exact runInstr_done (by rw [Exec.bind_apply, kreg_issued]; rfl)
  · rw [exec_cclr, execCclr]
    exact runInstr_done rfl
  · rintro s kd ka b y k v hy rfl
    refine ⟨?_, ?_⟩
    · rintro rfl
      rw [exec_cseta, execCseta]
      exact moveCursor_ends (by simp only [Exec.bind_apply, src_issued hy, kreg_issued])
    · rintro rfl
      rw [exec_cinc, execCinc]
      exact moveCursor_ends (by simp only [Exec.bind_apply, src_issued hy, kreg_issued])

end Sys2Proof.Laws

/-! # CPERM and bit 7 of PERM (R113, R121) -/

namespace Sys2Proof.Laws

open Sys2Proof.Machine

/-- What CPERM makes of a capability (R121): bit 7 of PERM, which R113 reserves, is cleared with the permissions that `y` names. -/
def permCleared (k : Cap) (y : U64) : Cap := { k with bits := putBits k.bits 56 8 (k.perm % 128 &&& (255 - y.toNat % 256)) }

theorem cperm_done {s : State} {kd ka : BitVec 3} {b : Src} {y : U64} (hy : s.reads b = some y) (ht : (s.cap ka).tag = true) :
    exec (.cperm kd ka b) s =
      .next (s.done 4 fun x => { x with k := x.k.set Cap.null kd.toNat (permCleared (s.cap ka) y) }) := by
  rw [exec_cperm, execCperm]
  refine runInstr_done ?_
  simp only [Exec.bind_apply, src_issued hy, kreg_issued, permCleared, ht, require_true, Exec.pure_apply]
  rfl

theorem advance_k (x : Slot) (len : Nat) : (x.advance len).k = x.k := rfl

/-- What a member that writes a capability register leaves in it. -/
theorem cap_done_set (s : State) (len : Nat) (i : BitVec 3) (r : Cap) :
    (s.done len fun x => { x with k := x.k.set Cap.null i.toNat r }).cap i = r := by
  simp [State.done, State.past, State.cap, Slot.kreg, advance_k]

theorem permCleared_has_seven (k : Cap) (y : U64) : (permCleared k y).has 7 = false := by
  have hlt : k.perm % 128 &&& (255 - y.toNat % 256) < 2 ^ 7 := Nat.and_le_left.trans_lt (Nat.mod_lt _ (by decide))
  rw [Cap.has, bitAt, permCleared, getLsbD_putBits k.bits (by decide), if_pos (by decide)]
  exact Nat.testBit_lt_two_pow hlt

/-- Where bit 7 of PERM is clear, CPERM removes exactly the permissions that `y` names. -/
theorem permCleared_has {k : Cap} {y : U64} (hk : k.has 7 = false) {i : Nat} (hi : i < 8) :
    (permCleared k y).has i = (k.has i && !y.getLsbD i) := by
  obtain rfl | hlt := Nat.eq_or_lt_of_le (Nat.le_of_lt_succ hi)
  · rw [permCleared_has_seven, hk, Bool.false_and]
  · have hperm : k.perm.testBit i = k.has i := by
      rw [Cap.perm, fld, BitVec.testBit_toNat, BitVec.getLsbD_extractLsb', decide_eq_true hi, Bool.true_and]
      rfl
    have hnot : (255 - y.toNat % 256).testBit i = !y.getLsbD i := by
      rw [show 255 - y.toNat % 256 = 2 ^ 8 - (y.toNat % 2 ^ 8 + 1) by omega, Nat.testBit_two_pow_sub_succ (Nat.mod_lt _ (by decide)),
        Nat.testBit_mod_two_pow, decide_eq_true hi, Bool.true_and, Bool.true_and]
      rfl
    rw [Cap.has, bitAt, permCleared, getLsbD_putBits k.bits (by omega), if_pos (by omega), Nat.add_sub_cancel_left, Nat.testBit_and,
      show 128 = 2 ^ 7 from rfl, Nat.testBit_mod_two_pow, decide_eq_true hlt, Bool.true_and, hperm, hnot]

/-! ## A tagged capability with the reserved bit set -/

/-- Bit 7 of PERM in k0, which is tagged though R113 forbids it; every other register reads 0. -/
def reservedPerm : State := { slots := [(0, { k := [(0, { tag := true, bits := 1#128 <<< 63 })] })] }

/-- Refutes O13: its clause on CPERM asks nothing of the capability but its tag, and has every bit of PERM that `y` does not name kept.
CPERM clears bit 7, which the capability of `reservedPerm` holds, though no sound one does (R113); where bit 7
is clear, the clause holds (`permCleared_has`). -/
theorem not_capabilityDerivation : ¬ Obligations.CapabilityDerivation := by
  intro h
  obtain ⟨hnarrow, -⟩ := h
  obtain ⟨-, -, hperm⟩ := hnarrow reservedPerm 0 0 (.age 0) 0#64 _ rfl rfl
  obtain ⟨r, -, -, -, -, -, hkeeps, hr⟩ := hperm rfl
  have hcap := congrArg (fun t => t.cap 0) (Host.Outcome.next.inj ((cperm_done rfl rfl).symm.trans hr))
  simp only [cap_done_set] at hcap
  have hkept : r.has 7 = true := hkeeps 7 (by decide)
  rw [← hcap, permCleared_has_seven] at hkept
  exact Bool.false_ne_true hkept

end Sys2Proof.Laws

/-! # The checks of an access in their order (R114) -/

namespace Sys2Proof.Laws

open Sys2Proof.Machine

/-- A check of the capability that fails is the access's trap: its place is not looked for. -/
theorem place_fails {k : Cap} {v : Int} {n : Nat} {nd : Need} {bits : List Nat} {s : State} {e : Stop}
    (h : checkCap k v n nd s = .error e) : place k v n nd bits s = .error e := by
  simp only [place, Exec.bind_apply, h]

section Checks

variable {k : Cap} {v : Int} {n : Nat} {nd : Need} (s : State)

theorem checkCap_untagged (htag : k.tag = false) :
    checkCap k v n nd s = .error (.trap .capTag (BitVec.ofNat 64 k.cursor)) := by
  rw [← BitVec.ofInt_natCast]
  simp [checkCap, htag, u64]

variable (htag : k.tag = true)

include htag in
theorem checkCap_otherSpace (hspace : ¬(k.space ≤ 6 ∧ k.space ∈ nd.spaces)) : checkCap k v n nd s =
    .error (if nd.xperm = true ∧ k.space ≤ 6 then .trap .xperm (BitVec.ofInt 64 v) else .trap .capSpace (BitVec.ofNat 64 k.cursor)) := by
  have hno : (decide (k.space ≤ 6) && nd.spaces.contains k.space) = false := by simpa using hspace
  rw [← BitVec.ofInt_natCast]
  simp only [checkCap, htag, hno, Exec.bind_apply, require_true, Bool.not_false, if_true, Bool.and_eq_true, decide_eq_true_eq]
  split
  · rfl
  · rfl

variable (hspace : k.space ≤ 6 ∧ k.space ∈ nd.spaces)

include htag hspace

theorem checkCap_forbidden (hperm : ¬∀ i ∈ nd.perm, k.has i = true) :
    checkCap k v n nd s = .error (.trap .capPerm (BitVec.ofInt 64 v)) := by
  have hno : nd.perm.all k.has = false := by simpa using hperm
  simp [checkCap, htag, hspace, hno, u64]

variable (hperm : ∀ i ∈ nd.perm, k.has i = true)

include hperm

theorem checkCap_outOfBounds (hbounds : ¬((k.base : Int) ≤ v ∧ v + n ≤ k.top)) :
    checkCap k v n nd s = .error (.trap .capBnd (BitVec.ofInt 64 v)) := by
  have hno : (decide ((k.base : Int) ≤ v) && decide (v + n ≤ k.top)) = false := by simpa using hbounds
  simp only [checkCap, htag, hspace, List.all_eq_true.2 hperm, hno, List.contains_eq_mem, decide_true, Bool.and_true, Bool.not_true,
    Exec.bind_apply, require_true]
  rfl

theorem checkCap_misaligned (hbounds : (k.base : Int) ≤ v ∧ v + n ≤ k.top) (halign : v.toNat % nd.align ≠ 0) :
    checkCap k v n nd s = .error (.trap .align (BitVec.ofInt 64 v)) := by
  simp [checkCap, htag, hspace, List.all_eq_true.2 hperm, hbounds, halign, u64]

theorem place_checked (bits : List Nat) (hbounds : (k.base : Int) ≤ v ∧ v + n ≤ k.top) (halign : v.toNat % nd.align = 0) :
    place k v n nd bits s = locate (s.who s.cur) k.space v.toNat n bits s := by
  simp only [place, Exec.bind_apply, Exec.get_apply,
    checkCap_met s htag hspace.1 hspace.2 (List.all_eq_true.2 hperm) hbounds.1 hbounds.2 halign]

end Checks

/-- Settles O17: one lemma for each check, given that those before it are met. -/
theorem checkOrder : Obligations.CheckOrder := by
  intro k v n nd bits s
  refine ⟨fun htag => ?_, fun htag hspace hx => ?_, fun htag hspace hx hle => ?_, fun htag hspace hperm => ?_,
    fun htag hspace hperm hbounds => ?_, fun htag hspace hperm hbounds halign => ?_, fun htag hspace hperm hbounds halign => ?_⟩
  · exact place_fails (checkCap_untagged s htag)
  · have hno : ¬(nd.xperm = true ∧ k.space ≤ 6) := by
      rintro ⟨hyes, hle⟩
      rcases hx with hx | hx
      · exact absurd (hx.symm.trans hyes) (by decide)
      · omega
    exact place_fails (by rw [checkCap_otherSpace s htag hspace, if_neg hno])
  · exact place_fails (by rw [checkCap_otherSpace s htag hspace, if_pos ⟨hx, hle⟩])
  · exact place_fails (checkCap_forbidden s htag hspace hperm)
  · exact place_fails (checkCap_outOfBounds s htag hspace hperm hbounds)
  · exact place_fails (checkCap_misaligned s htag hspace hperm hbounds halign)
  · exact place_checked s htag hspace hperm bits hbounds halign

end Sys2Proof.Laws

/-! # Places and loads (R115, R116, R145, R153 to R156, R162, R168) -/

namespace Sys2Proof.Laws

open Sys2Proof.Machine

/-! ## Places outside translated GLOBAL space -/

/-- A place that stands behind one check. -/
theorem require_place (ok : Bool) (c : Cause) (tv : U64) (p : Place) (s : State) :
    (require ok c tv >>= fun _ => pure p : Exec Place) s = if ok = true then .ok (p, s) else .error (.trap c tv) := by
  cases ok
  · rfl
  · rfl

theorem vaultOk_iff (s : State) (p a : Nat) : s.vaultOk p a = true ↔ a < 80 * 2 ^ 25 ∧ s.ownsQuad p (a / 2 ^ 23) = true ∧
    a % 2 ^ 23 + s.sliceSize p + (if a % 2 ^ 25 / 2 ^ 23 = s.topShare p (a / 2 ^ 25) then s.latentSize p else 0) < 2 ^ 23 := by
  have hquad : 4 * (a / 2 ^ 25) + a % 2 ^ 25 / 2 ^ 23 = a / 2 ^ 23 := by omega
  simp only [State.vaultOk, hquad, Bool.and_eq_true, decide_eq_true_eq, and_assoc]
  refine and_congr_right fun _ => and_congr_right fun _ => ?_
  have hroom (m l : Nat) : a % 2 ^ 23 < 2 ^ 23 - m - l ↔ a % 2 ^ 23 + m + l < 2 ^ 23 := by omega
  exact hroom ..

section Locate

variable (s : State) (w : Who) (v n : Nat) (bits : List Nat)

theorem locate_vault : locate w 1 v n bits s =
    if s.vaultOk w.part v = true then .ok (.mem (2 ^ 60 + v) true none, s) else .error (.trap .xperm (BitVec.ofNat 64 v)) := by
  rw [← BitVec.ofInt_natCast]
  exact require_place ..

theorem locate_scratch : locate w 2 v n bits s = if s.ownsCore w.part (v / 2 ^ 18) = true then .ok (.mem (2 ^ 61 + v) true none, s)
    else .error (.trap .xperm (BitVec.ofNat 64 v)) := by
  rw [← BitVec.ofInt_natCast]
  exact require_place ..

theorem locate_private : locate w 3 v n bits s = if v < 2 ^ s.partFld w.part 0x800 8 8 then
    .ok (.mem (2 ^ 62 + w.slot * 2 ^ 20 + v) true none, s) else .error (.trap .xperm (BitVec.ofNat 64 v)) := by
  rw [← BitVec.ofInt_natCast]
  exact (require_place ..).trans (ite_congr (decide_eq_true_eq) (fun _ => rfl) fun _ => rfl)

theorem locate_host : locate w 4 v n bits s =
    if s.hostDown ≠ 15#4 then .ok (.mem (2 ^ 63 + v) false none, s) else .error (.trap .mcheck (BitVec.ofNat 64 v)) := by
  rw [← BitVec.ofInt_natCast]
  exact (require_place ..).trans (ite_congr (decide_eq_true_eq) (fun _ => rfl) fun _ => rfl)

theorem locate_remote : locate w 5 v n bits s = if s.routeTo (dieOf w.core) (v / 2 ^ 43) ≠ 0#24 then .ok (.remote v, s)
    else .error (.trap .xperm (BitVec.ofNat 64 v)) := by
  rw [← BitVec.ofInt_natCast]
  exact (require_place ..).trans (ite_congr (decide_eq_true_eq) (fun _ => rfl) fun _ => rfl)

variable {s w v}

/-- A GLOBAL address in the SCRATCH window of its partition (R168). -/
theorem locate_scratchWindow (h : (s.partReg w.part 0x808).toNat ≤ v ∧ v < (s.partReg w.part 0x808).toNat + 640 * 2 ^ 18) :
    locate w 0 v n bits s = if s.ownsCore w.part ((v - (s.partReg w.part 0x808).toNat) / 2 ^ 18) = true then
      .ok (.mem (2 ^ 61 + (v - (s.partReg w.part 0x808).toNat)) true none, s) else .error (.trap .xperm (BitVec.ofNat 64 v)) := by
  have hwindow := (State.noteIssue_alias s w.part v).symm.trans (c := some (2, v - (s.partReg w.part 0x808).toNat)) (if_pos h)
  rw [← BitVec.ofInt_natCast]
  simp only [locate, Exec.bind_apply, Exec.get_apply, Exec.pure_apply, hwindow, require_apply, State.scratchOk]
  cases s.ownsCore w.part (_ / _)
  · rfl
  · rfl

/-- A GLOBAL address in the VAULT window of its partition, outside the SCRATCH window (R168). -/
theorem locate_vaultWindow (hs : ¬((s.partReg w.part 0x808).toNat ≤ v ∧ v < (s.partReg w.part 0x808).toNat + 640 * 2 ^ 18))
    (h : (s.partReg w.part 0x809).toNat ≤ v ∧ v < (s.partReg w.part 0x809).toNat + 80 * 2 ^ 25) :
    locate w 0 v n bits s = if s.vaultOk w.part (v - (s.partReg w.part 0x809).toNat) = true then
      .ok (.mem (2 ^ 60 + (v - (s.partReg w.part 0x809).toNat)) true none, s) else .error (.trap .xperm (BitVec.ofNat 64 v)) := by
  have hwindow := (State.noteIssue_alias s w.part v).symm.trans (c := some (1, v - (s.partReg w.part 0x809).toNat))
    ((if_neg hs).trans (if_pos h))
  rw [← BitVec.ofInt_natCast]
  simp only [locate, Exec.bind_apply, Exec.get_apply, Exec.pure_apply, hwindow, require_apply]
  cases s.vaultOk w.part _
  · rfl
  · rfl

/-- Whether a device region takes an access of `n` bytes (R162). -/
def regionTakes (n : Nat) : DevReg → Bool
  | .mbx _ _ => decide (n = 8)
  | .window _ _ off => decide (n = 8 ∧ off < 0x20)
  | .layer .. => decide (n = 8 ∨ n = 16)
  | .view .. => decide (n = 8 ∨ n = 16)

theorem locate_device {r : DevReg} (h : devRegion v = some r) : locate w 6 v n bits s =
    if (s.ownsRegion w.part r && regionTakes n r) = true then .ok (.device v, s) else .error (.trap .xperm (BitVec.ofNat 64 v)) := by
  rw [← BitVec.ofInt_natCast]
  simp only [locate, Exec.bind_apply, Exec.get_apply, h]
  cases s.ownsRegion w.part r
  · rfl
  · rw [Bool.true_and, require_true]
    have htakes (ok : Bool) : (require ok .xperm (u64 v) >>= fun _ => pure (.device v) : Exec Place) s = _ := require_place ..
    simp only [Exec.bind_apply] at htakes
    cases r with
    | mbx => exact htakes (decide (n = 8))
    | window _ _ off => exact htakes (decide (n = 8 ∧ off < 0x20))
    | layer => exact htakes (decide (n = 8 ∨ n = 16))
    | view => exact htakes (decide (n = 8 ∨ n = 16))

theorem locate_unassigned (h : devRegion v = none) : locate w 6 v n bits s = .error (.trap .xlate (BitVec.ofNat 64 v)) := by
  rw [← BitVec.ofInt_natCast]
  simp only [locate, Exec.bind_apply, Exec.get_apply, h]
  rfl

end Locate

/-! ## Regions of DEVICE space (R162) -/

section Regions

variable {v : Nat}

theorem devRegion_mbx (h : v < 0x280000) (hoff : v % 0x1000 < 0x48) :
    devRegion v = some (.mbx (v / 0x1000) (v % 0x1000 / 8)) := by
  rw [devRegion, if_pos h, if_pos hoff]

theorem devRegion_window (h : 0x1000000 ≤ v) (h' : v < 0x1050000) :
    devRegion v = some (.window ((v - 0x1000000) / 0x1000) (v % 0x1000 / 0x100) (v % 0x100)) := by
  rw [devRegion, if_neg (by omega), if_pos ⟨h, h'⟩]

theorem devRegion_layer (h : 0x2000000 ≤ v) (h' : v < 0x2080000) :
    devRegion v = some (.layer ((v - 0x2000000) / 128) (v % 128)) := by
  rw [devRegion, if_neg (by omega), if_neg (by omega), if_pos ⟨h, h'⟩]

theorem devRegion_view (h : 0x2800000 ≤ v) (h' : v < 0x2840000) :
    devRegion v = some (.view ((v - 0x2800000) / 0x1000) (v % 0x1000)) := by
  rw [devRegion, if_neg (by omega), if_neg (by omega), if_neg (by omega), if_pos ⟨h, h'⟩]

theorem devRegion_unassigned (h : v < 0x280000 ∧ 0x48 ≤ v % 0x1000 ∨ 0x280000 ≤ v ∧ v < 0x1000000 ∨ 0x1050000 ≤ v ∧ v < 0x2000000 ∨
    0x2080000 ≤ v ∧ v < 0x2800000 ∨ 0x2840000 ≤ v) : devRegion v = none := by
  unfold devRegion
  split
  · exact if_neg (by omega)
  · rw [if_neg (by omega), if_neg (by omega), if_neg (by omega)]

end Regions

/-! ## Values of typed loads (R153) -/

theorem loadBytes_eq (type : BitVec 3) :
    loadBytes type = if type.toNat < 2 then 1 else if type.toNat < 4 then 2 else if type.toNat < 6 then 4 else 8 := by
  revert type
  decide

theorem extend_eq (type : BitVec 3) (m : Nat) : extend type m = if type.toNat < 6 ∧ type.toNat % 2 = 0 then
    (BitVec.ofNat (8 * loadBytes type) m).signExtend 64 else BitVec.ofNat 64 m := by
  rw [extend, sext64_ofNat (w := 8 * loadBytes type) (Nat.mul_pos (by decide) (Nat.two_pow_pos _))]

/-! ## Loads of calm slots (R153 to R156) -/

theorem notAcrossDies_near {s : State} {home : Nat} (h : s.near home) (v : Nat) : notAcrossDies home v s = .ok ((), s) := by
  have hok : (decide (slotNo s.cur ≠ 11) || dieOfHome home == dieOf (coreOf s.cur)) = true := by
    simpa [State.near] using h
  simp only [notAcrossDies, Exec.bind_apply, Exec.get_apply, hok, require_true]

theorem near_same {s t : State} (h : s.sameButTlb t) (home : Nat) : t.near home ↔ s.near home := by
  rw [State.near, State.near, h.cur]

section Loads

variable {s t : State} {type : BitVec 3} {k : Cap} {v : Int} {p : Place} {m : Nat}

/-- A load past the read cache. -/
theorem loadTyped_read (hnear : t.near p.home)
    (hp : place k v (loadBytes type) { perm := [0], align := loadBytes type } [1] s = .ok (p, t))
    (hplain : ∀ key c va, type = 7#3 → p ≠ .mem key c (some va)) (hread : readPlace p (loadBytes type) t = .ok (m, t)) :
    loadTyped type k v s = .ok (extend type m, t) := by
  simp only [loadTyped, Exec.bind_apply, hp, notAcrossDies_near hnear, getSlot_apply]
  split
  next key c va =>
    rw [if_neg fun h => hplain key c va h.1 rfl]
    simp only [Exec.bind_apply, hread, Exec.pure_apply]
  next => simp only [Exec.bind_apply, hread, Exec.pure_apply]

/-- LD.rc of translated GLOBAL memory (R156). -/
theorem loadTyped_cached {key va : Nat} {c : Bool} (hnear : t.near (homeOf key)) (htile : (t.slot t.cur).tile? = none)
    (hp : place k v 8 { perm := [0], align := 8 } [1] s = .ok (.mem key c (some va), t)) :
    loadTyped 7#3 k v s = (do let m ← readCached va key (.mem key c (some va)); pure (BitVec.ofNat 64 m) : Exec U64) t := by
  simp only [loadTyped, Exec.bind_apply, show loadBytes 7#3 = 8 from rfl, hp, notAcrossDies_near (home := Place.home (.mem key c (some va))) hnear,
    getSlot_apply, htile, Option.isNone_none, and_self, if_true]

/-- What a calm slot's load of memory or of a device register reads, past the read cache. -/
theorem loadTyped_calm (hcalm : s.calm) (hnear : s.near p.home)
    (hm : (∃ key c va, p = .mem key c va ∧ (type = 7#3 → va = none) ∧ m = ofBytes (s.bytes key (loadBytes type))) ∨
      ∃ o, p = .device o ∧ m = t.deviceRead o (loadBytes type))
    (hp : place k v (loadBytes type) { perm := [0], align := loadBytes type } [1] s.noteIssue = .ok (p, t)) :
    loadTyped type k v s.noteIssue = .ok (extend type m, t) := by
  have hsame := place_same hp
  have htcalm : t.calm := hsame.calm (State.calm_noteIssue hcalm)
  have htnear : t.near p.home := (near_same hsame _).2 hnear
  obtain ⟨key, c, va, rfl, h7, rfl⟩ | ⟨o, rfl, rfl⟩ := hm
  · refine loadTyped_read htnear hp ?_ ?_
    · rintro key' c' va' ht ⟨⟩
      exact nomatch h7 ht
    · rw [readPlace_calm htcalm, hsame.bytes, State.noteIssue_bytes]
  · exact loadTyped_read htnear hp (fun _ _ _ _ => nofun) (readPlace_device htcalm _ _)

end Loads

section Exec

variable {s t : State} {type k : BitVec 3} {d : Dst} {off : BitVec 13} {i : Src} {scale : BitVec 2} {y v : U64}

theorem ld_past (hcur : t.cur = s.cur)
    (h : loadTyped type (s.cap k) ((s.cap k).cursor + off.toInt * loadBytes type) s.noteIssue = .ok (v, t)) :
    exec (.ld type d k off) s = .next ((t.modSlot s.cur fun x => x.result d v).past 4) := by
  rw [exec_ld, execLd]
  exact runInstr_past (by simp only [Exec.bind_apply, kreg_issued, h, dst_apply, Exec.pure_apply, hcur])

theorem ldx_past (hcur : t.cur = s.cur) (hy : s.reads i = some y)
    (h : loadTyped type (s.cap k) ((s.cap k).cursor + y.toInt * 2 ^ scale.toNat) s.noteIssue = .ok (v, t)) :
    exec (.ldx type false d k i scale) s = .next ((t.modSlot s.cur fun x => x.result d v).past 4) := by
  rw [exec_ldx, execLdx]
  refine runInstr_past ?_
  simp only [Exec.bind_apply, src_issued hy, kreg_issued, h, dst_apply, Bool.false_eq_true, if_false, Exec.pure_apply, hcur]

theorem ldxAcq_past (hcur : t.cur = s.cur) (hy : s.reads i = some y)
    (h : loadTyped type (s.cap k) ((s.cap k).cursor + y.toInt * 2 ^ scale.toNat) s.noteIssue = .ok (v, t)) :
    exec (.ldx type true d k i scale) s = .next
      (((t.modSlot s.cur fun x => x.result d v).modCore (coreOf s.cur) fun c => { c with rcache := [] }).past 4) := by
  rw [exec_ldx, execLdx]
  refine runInstr_past ?_
  simp only [Exec.bind_apply, src_issued hy, kreg_issued, h, dst_apply, if_true, acquire_apply, Exec.pure_apply, State.acquired,
    State.modSlot_cur, hcur]

end Exec

/-! ## The read cache (R156) -/

/-- Whether a line of the read cache serves a load of the current slot at GLOBAL address `va`. -/
def servesLoad (s : State) (va : Nat) (l : RcLine) : Bool :=
  l.part == s.partOfSlot s.cur && l.tenant == (s.slot s.cur).tenant && l.line == va / 64

section Cache

variable {s t : State}

theorem partOfSlot_same (h : s.sameButTlb t) (g : Nat) : t.partOfSlot g = s.partOfSlot g := by
  obtain ⟨cs, n, rfl, -⟩ := h
  rfl

theorem rcache_same (h : s.sameButTlb t) (c : Nat) : (t.core c).rcache = (s.core c).rcache := by
  obtain ⟨cs, n, -, hcore⟩ := h
  rw [hcore]

theorem servesLoad_same (h : s.sameButTlb t) (va : Nat) : servesLoad t va = servesLoad s va := by
  funext l
  rw [servesLoad, servesLoad, h.cur, h.slot, partOfSlot_same h]

theorem servesLoad_noteIssue (s : State) (va : Nat) : servesLoad s.noteIssue va = servesLoad s va := by
  funext l
  rw [servesLoad, servesLoad, State.noteIssue_cur, State.noteIssue_partOfSlot, State.noteIssue_slot_tenant]

variable {va key : Nat} {p : Place}

theorem readCached_hit {l : RcLine} (h : (s.core (coreOf s.cur)).rcache.find? (servesLoad s va) = some l) :
    readCached va key p s = .ok (leAt l.bytes (va % 64) 8, s) := by
  unfold servesLoad at h
  simp only [readCached, Exec.bind_apply, Exec.get_apply, h, Exec.pure_apply]

/-- The line that a load of the current slot at `va` caches, of memory at `key`. -/
def cachedLine (s : State) (va key : Nat) : RcLine :=
  { part := s.partOfSlot s.cur, tenant := (s.slot s.cur).tenant, line := va / 64, bytes := s.bytes (key / 64 * 64) 64 }

theorem readCached_miss (hcalm : s.calm) (h : (s.core (coreOf s.cur)).rcache.find? (servesLoad s va) = none)
    (hroom : (s.core (coreOf s.cur)).rcache.length < 512) :
    readCached va key p s = .ok (leAt (s.bytes (key / 64 * 64) 64) (va % 64) 8,
      s.modCore (coreOf s.cur) fun x => { x with rcache := x.rcache ++ [cachedLine s va key] }) := by
  unfold servesLoad at h
  simp only [readCached, Exec.bind_apply, Exec.get_apply, h, beforeRead_calm hcalm, readBytes_calm hcalm, Exec.modify_apply, if_pos hroom,
    Exec.pure_apply, cachedLine]

end Cache

section CachedLoads

variable {s t : State} {k : BitVec 3} {d : Dst} {off : BitVec 13} {key va : Nat} {c : Bool}

variable (hcalm : s.calm) (hnear : s.near (homeOf key))
  (hp : place (s.cap k) ((s.cap k).cursor + off.toInt * 8) 8 { perm := [0], align := 8 } [1] s.noteIssue = .ok (.mem key c (some va), t))

include hp

/-- Finding its place leaves the lines of the core and who is served by them. -/
theorem find_servesLoad : (t.core (coreOf t.cur)).rcache.find? (servesLoad t va) =
    (s.core (coreOf s.cur)).rcache.find? (servesLoad s va) := by
  have hsame := place_same hp
  rw [servesLoad_same hsame, servesLoad_noteIssue, rcache_same hsame, State.noteIssue_core_rcache, hsame.cur, State.noteIssue_cur]

include hcalm hnear

theorem ldRc_hit {l : RcLine} (hl : (s.core (coreOf s.cur)).rcache.find? (servesLoad s va) = some l) :
    exec (.ld 7#3 d k off) s = .next ((t.modSlot s.cur fun x => x.result d (BitVec.ofNat 64 (leAt l.bytes (va % 64) 8))).past 4) := by
  have hsame := place_same hp
  have hload := loadTyped_cached ((near_same hsame _).2 hnear) (hsame.calm (State.calm_noteIssue hcalm)).2.2.2.1 hp
  have hread := readCached_hit (key := key) (p := .mem key c (some va)) ((find_servesLoad hp).trans hl)
  exact ld_past hsame.cur (hload.trans (by rw [Exec.bind_apply, hread]; rfl))

theorem ldRc_miss (hnone : (s.core (coreOf s.cur)).rcache.find? (servesLoad s va) = none)
    (hroom : (s.core (coreOf s.cur)).rcache.length < 512) : exec (.ld 7#3 d k off) s = .next (((t.modCore (coreOf s.cur) fun x =>
      { x with rcache := x.rcache ++ [cachedLine s va key] }).modSlot s.cur fun x =>
        x.result d (BitVec.ofNat 64 (leAt (s.bytes (key / 64 * 64) 64) (va % 64) 8))).past 4) := by
  have hsame := place_same hp
  have htcalm : t.calm := hsame.calm (State.calm_noteIssue hcalm)
  have hload := loadTyped_cached ((near_same hsame _).2 hnear) htcalm.2.2.2.1 hp
  rw [← State.noteIssue_core_rcache, ← rcache_same hsame, ← State.noteIssue_cur, ← hsame.cur] at hroom
  have hread := readCached_miss (key := key) (p := .mem key c (some va)) htcalm ((find_servesLoad hp).trans hnone) hroom
  have hline : cachedLine t va key = cachedLine s va key := by
    rw [cachedLine, cachedLine, hsame.cur, hsame.slot, partOfSlot_same hsame, hsame.bytes, State.noteIssue_cur,
      State.noteIssue_partOfSlot, State.noteIssue_slot_tenant, State.noteIssue_bytes]
  rw [hline, hsame.cur, hsame.bytes] at hread
  exact ld_past (t := t.modCore _ _) hsame.cur (hload.trans (by rw [Exec.bind_apply, hread]; rfl))

end CachedLoads

/-- Settles O18: the places by one lemma for each space and region; the loads through what a calm slot reads, past the read cache and
through it. -/
theorem placesAndLoads : Obligations.PlacesAndLoads := by
  refine ⟨fun s w v n bits => ?_, fun s t type k d off i scale y p m hcalm hy hnear => ?_, fun s t k d off key va c hcalm hnear hp => ?_⟩
  · intro at' fails sw vw scratch vault
    refine ⟨fun a => vaultOk_iff s w.part a, fun h => ?_, fun h => ?_, fun h => ?_, fun h => ?_, fun h => ?_, fun h => ?_,
      fun h => ?_, fun h => ?_, fun h => ?_, fun h => ?_, fun hs h => ?_, fun hs h => ?_, fun ⟨hs, hv⟩ h => ?_,
      fun ⟨hs, hv⟩ h => ?_, fun own fits h => ?_, fun h => ?_⟩
    · exact (locate_vault ..).trans (if_pos h)
    · exact (locate_vault ..).trans (if_neg (Bool.eq_false_iff.1 h))
    · exact (locate_scratch ..).trans (if_pos h)
    · exact (locate_scratch ..).trans (if_neg (Bool.eq_false_iff.1 h))
    · exact (locate_private ..).trans (if_pos h)
    · exact (locate_private ..).trans (if_neg (Nat.not_lt.2 h))
    · exact (locate_host ..).trans (if_pos h)
    · exact (locate_host ..).trans (if_neg (not_not.2 h))
    · exact (locate_remote ..).trans (if_pos h)
    · exact (locate_remote ..).trans (if_neg (not_not.2 h))
    · exact (locate_scratchWindow n bits hs).trans (if_pos h)
    · exact (locate_scratchWindow n bits hs).trans (if_neg (Bool.eq_false_iff.1 h))
    · exact (locate_vaultWindow n bits hs hv).trans (if_pos h)
    · exact (locate_vaultWindow n bits hs hv).trans (if_neg (Bool.eq_false_iff.1 h))
    · obtain ⟨r, hr, hown, hfits⟩ : ∃ r, devRegion v = some r ∧ s.ownsRegion w.part r = own ∧ regionTakes n r = fits := by
        rcases h with ⟨hlt, hoff, rfl, rfl⟩ | ⟨hle, hlt, rfl, rfl⟩ | ⟨hle, hlt, rfl, rfl⟩ | ⟨hle, hlt, rfl, rfl⟩
        · exact ⟨_, devRegion_mbx hlt hoff, rfl, rfl⟩
        · exact ⟨_, devRegion_window hle hlt, rfl, rfl⟩
        · exact ⟨_, devRegion_layer hle hlt, rfl, rfl⟩
        · exact ⟨_, devRegion_view hle hlt, rfl, rfl⟩
      have hat := locate_device (s := s) (w := w) n bits hr
      rw [hown, hfits] at hat
      refine ⟨fun ho hf => hat.trans (if_pos (by rw [ho, hf]; rfl)), fun hno => hat.trans (if_neg ?_)⟩
      rcases hno with rfl | rfl
      · exact Bool.false_ne_true
      · rw [Bool.and_false]
        exact Bool.false_ne_true
    · exact locate_unassigned n bits (devRegion_unassigned h)
  · intro n hm v
    have hn : loadBytes type = n := loadBytes_eq type
    have hv : extend type m = v := by rw [extend_eq, hn]
    clear_value v n
    subst hn hv
    refine ⟨fun hp => ?_, fun hp => ?_⟩
    · exact ld_past (place_same hp).cur (loadTyped_calm hcalm hnear hm hp)
    · have hload := loadTyped_calm hcalm hnear hm hp
      exact ⟨ldx_past (place_same hp).cur hy hload, ldxAcq_past (place_same hp).cur hy hload⟩
  · exact ⟨fun l hl => ldRc_hit hcalm hnear hp hl, fun hnone hroom => ldRc_miss hcalm hnear hp hnone hroom⟩

end Sys2Proof.Laws

/-! # NWR from its issue to its end (R12, R95, R96, R151, R407) -/

namespace Sys2Proof.Laws

open Sys2Proof.Machine

/-! ## Issue -/

section Issue

variable {s : State} {dir : BitVec 2} {n : BitVec 4} {a : Src} {slot : BitVec 5} {v : U64} {x y : Int}

theorem force_none (s : State) : force (fun a => ([] : List Nat).contains a.id) s = .ok ((), s) := by
  have hnone : s.upToLast s.cur (fun a => ([] : List Nat).contains a.id) = [] := by
    simp [State.upToLast, List.filter_eq_nil_iff]
  simp only [force, Exec.bind_apply, Exec.get_apply, hnone, State.performAll]
  rfl

theorem releaseWait_issued (h : (s.slot s.cur).relHold = []) : releaseWait s.noteIssue = .ok ((), s.noteIssue) := by
  rw [releaseWait, Exec.bind_apply, relHolds_issued h]
  exact force_none _

/-- The core at which an NWR to column `x` and row `y` is aimed. -/
def nwrCore (x y : Int) : Nat := coreAt x.toNat y.toNat

/-- The target stands in the mesh and in the partition of the current slot. -/
def nwrInside (s : State) (x y : Int) : Prop :=
  0 ≤ x ∧ x < 32 ∧ 0 ≤ y ∧ y < 20 ∧ s.ownsCore (s.partOfSlot s.cur) (nwrCore x y) = true

/-- The message thread does not write across a die boundary (R12). -/
def nwrNear (s : State) (x y : Int) : Prop := slotNo s.cur ≠ 11 ∨ dieOf (nwrCore x y) = dieOf (coreOf s.cur)

theorem nwrTval_eq (x y : Int) :
    nwrTval slot.toNat x y = BitVec.ofNat 64 (slot.toNat * 2 ^ 16 + (y % 256).toNat * 2 ^ 8 + (x % 256).toNat) := rfl

/-- What an NWR does at its issue, once its operand is read: it is checked, waits for what a release holds back, and leaves. -/
def nwrIssue (n : BitVec 4) (slot : BitVec 5) (v : U64) (x y : Int) : Exec Flow := do
  let s ← get
  require (decide (0 ≤ x) && decide (x < 32) && decide (0 ≤ y) && decide (y < 20) && s.ownsCore (s.partOfSlot s.cur) (nwrCore x y)) .xperm
    (nwrTval slot.toNat x y)
  require (slotNo s.cur ≠ 11 || dieOf (nwrCore x y) == dieOf (coreOf s.cur)) .xperm (nwrTval slot.toNat x y)
  releaseWait
  let i ← newNo
  modify fun s =>
    let t : State :=
      { s with nwrs := s.nwrs ++ [{ id := i, src := s.cur, dst := nwrCore x y * 12 + slot.toNat, tid := none, n := n.toNat, v := v }] }
    t.post i (s.messageClass (s.partOfSlot s.cur) (s.slot s.cur).tenant none) false s.cur (nwrCore x y) (meshPath (coreOf s.cur) (nwrCore x y))
  modSlot fun x => { x with wait := Wait.nwr }
  pure .hold

theorem nwr_eq (hv : s.reads a = some v) (ht : (s.slot s.cur).tile? = none) (hxy : neighbour (coreOf s.cur) dir = (x, y)) :
    exec (.nwr dir n a slot) s = runInstr 4 (nwrIssue n slot v x y) s := by
  rw [exec_nwr, execNwr]
  refine runInstr_congr ?_
  simp only [Exec.bind_apply, src_issued hv, notLatent_issued ht, Exec.get_apply, State.noteIssue_cur, hxy, nwrIssue, nwrCore]

theorem nwrInside_iff : (decide (0 ≤ x) && decide (x < 32) && decide (0 ≤ y) && decide (y < 20) &&
    s.noteIssue.ownsCore (s.noteIssue.partOfSlot s.noteIssue.cur) (nwrCore x y)) = true ↔ nwrInside s x y := by
  simp only [nwrInside, State.noteIssue_partOfSlot, State.noteIssue_ownsCore, State.noteIssue_cur, Bool.and_eq_true, decide_eq_true_eq, and_assoc]

theorem nwrNear_iff : (decide (slotNo s.noteIssue.cur ≠ 11) || dieOf (nwrCore x y) == dieOf (coreOf s.noteIssue.cur)) = true ↔ nwrNear s x y := by
  rw [Bool.or_eq_true, decide_eq_true_iff, beq_iff_eq]
  rfl

theorem post_cur (s : State) (id cls : Nat) (resp : Bool) (src dst : Nat) (path : List Nat) :
    (s.post id cls resp src dst path).cur = s.cur := by
  obtain ⟨l, hl⟩ := State.post_links s id cls resp src dst path
  rw [hl]

/-- The class of the slot's tenant, after the slot has issued and taken a number. -/
theorem messageClass_issued (s : State) (f : Nat) :
    let t : State := { s.noteIssue with fresh := f }
    t.messageClass (t.partOfSlot t.cur) (t.slot t.cur).tenant none = s.classOf s.cur := by
  show s.noteIssue.tenantClass (s.noteIssue.partOfSlot s.cur) (s.noteIssue.slot s.cur).tenant = _
  rw [State.noteIssue_tenantClass, State.noteIssue_partOfSlot, State.noteIssue_slot_tenant, State.classOf]

theorem nwr_sent (hv : s.reads a = some v) (ht : (s.slot s.cur).tile? = none) (hrel : (s.slot s.cur).relHold = [])
    (hxy : neighbour (coreOf s.cur) dir = (x, y)) (hin : nwrInside s x y) (hnear : nwrNear s x y) :
    exec (.nwr dir n a slot) s = .next (State.modSlot
      (State.post { s.noteIssue with
          fresh := s.fresh + 1
          nwrs := s.nwrs ++ [{ id := s.fresh, src := s.cur, dst := 12 * nwrCore x y + slot.toNat, tid := none, n := n.toNat, v := v }] }
        s.fresh (s.classOf s.cur) false s.cur (nwrCore x y) (meshPath (coreOf s.cur) (nwrCore x y)))
      s.cur fun z => { z with wait := Wait.nwr }) := by
  rw [nwr_eq hv ht hxy]
  refine runInstr_ok (f := .hold) ?_
  simp only [nwrIssue, Exec.bind_apply, Exec.get_apply,
    nwrInside_iff.2 hin, nwrNear_iff.2 hnear, require_true, releaseWait_issued hrel, newNo_apply, Exec.modify_apply, modSlot_apply,
    Exec.pure_apply, Nat.mul_comm _ 12, post_cur]
  have hcls := messageClass_issued s (s.noteIssue.fresh + 1)
  dsimp only at hcls
  rw [hcls]
  rfl

theorem nwr_refused (hv : s.reads a = some v) (ht : (s.slot s.cur).tile? = none)
    (hxy : neighbour (coreOf s.cur) dir = (x, y)) (h : ¬(nwrInside s x y ∧ nwrNear s x y)) :
    exec (.nwr dir n a slot) s = s.traps 4 .xperm (BitVec.ofNat 64 (slot.toNat * 2 ^ 16 + (y % 256).toNat * 2 ^ 8 + (x % 256).toNat)) := by
  rw [nwr_eq hv ht hxy, ← nwrTval_eq]
  refine runInstr_traps ?_
  simp only [nwrIssue, Exec.bind_apply, Exec.get_apply]
  by_cases hin : nwrInside s x y
  · have hfar := Bool.eq_false_iff.2 (mt nwrNear_iff.1 fun hnear => h ⟨hin, hnear⟩)
    simp only [nwrInside_iff.2 hin, require_true, hfar, require_false]
  · simp only [Bool.eq_false_iff.2 (mt nwrInside_iff.1 hin), require_false]

end Issue

/-! ## Arrival and acknowledgement (R406, R407) -/

section Arrival

variable {s : State} {r : NwrReq} {l cls : Nat} {f : Flit}

/-- The state in which a flit that has gone on leaves its link. -/
def creditBack (s : State) (l cls : Nat) (resp : Bool) (f : Flit) : State :=
  let i := 2 * cls + (if resp then 1 else 0)
  s.modLink l fun k => { k with credits := k.credits.set (linkDepth l) i (min (linkDepth l) (k.free l i + 1)), unacked := k.unacked.erase f }

/-- The only flit on a link has crossed its last one: its message has arrived. -/
theorem creditReturn_lands {resp : Bool} (hf : (s.link l).unacked = [f]) (hsub : f.sub = 2 * cls + (if resp then 1 else 0))
    (hpath : f.path = []) :
    exec (.creditReturn l cls resp) s = .next (((creditBack s l cls resp f).landed f.id).ackLands f.id) := by
  rw [exec_creditReturn, execCreditReturn]
  refine runEvent_some ?_
  rw [State.creditReturn, hf, List.find?_cons_of_pos (by simpa using hsub), Option.map_some, State.flitArrives, hpath]
  rfl

theorem ackLands_other {id : Nat} (h : ∀ k ∈ s.acks, k.id ≠ id) : s.ackLands id = s := by
  rw [State.ackLands, List.find?_eq_none.2 (by simpa using h)]

theorem landed_nwr {id : Nat} (h : s.nwrs.find? (fun q => q.id == id) = some r) :
    s.landed id = { s with nwrs := s.nwrs.erase r ++ [{ r with tid := some ((s.runs r.dst).getD 0) }] } := by
  rw [State.landed, h]

theorem landed_other {id : Nat} (hn : ∀ q ∈ s.nwrs, q.id ≠ id) (ha : ∀ m ∈ s.amsgs, m.id ≠ id) : s.landed id = s := by
  rw [State.landed, List.find?_eq_none.2 (by simpa using hn), List.find?_eq_none.2 (by simpa using ha)]

theorem nwr_arrives (hf : (s.link l).unacked = [f]) (hsub : f.sub = 2 * cls) (hpath : f.path = [])
    (hr : s.nwrs.find? (fun q => q.id == f.id) = some r) (hacks : ∀ k ∈ s.acks, k.id ≠ f.id) :
    exec (.creditReturn l cls false) s = .next { creditBack s l cls false f with
      nwrs := s.nwrs.erase r ++ [{ r with tid := some ((s.runs r.dst).getD 0) }] } := by
  rw [creditReturn_lands hf hsub hpath, landed_nwr (s := creditBack s l cls false f) hr]
  exact congrArg Host.Outcome.next (ackLands_other hacks)

theorem ackLands_nwr {g tid k id : Nat} (h : s.acks = [{ id := id, owner := k, kind := .nwr g tid }]) (htid : (s.slot g).tid = tid)
    (hwait : (s.slot g).wait = Wait.nwr) : s.ackLands id = State.complete { s with acks := [] } g 4 := by
  rw [State.ackLands, h, List.find?_cons_of_pos (p := fun k : Ack => k.id == id) (beq_self_eq_true id)]
  dsimp only
  rw [List.erase_cons_head, State.nwrDone]
  exact if_pos ⟨htid, hwait⟩

theorem nwr_completes {k tid : Nat} (hf : (s.link l).unacked = [f]) (hsub : f.sub = 2 * cls + 1) (hpath : f.path = [])
    (hn : ∀ q ∈ s.nwrs, q.id ≠ f.id) (ha : ∀ m ∈ s.amsgs, m.id ≠ f.id)
    (hacks : s.acks = [{ id := f.id, owner := k, kind := .nwr r.src tid }])
    (htid : (s.slot r.src).tid = tid) (hwait : (s.slot r.src).wait = Wait.nwr) :
    exec (.creditReturn l cls true) s = .next (State.complete { creditBack s l cls true f with acks := [] } r.src 4) := by
  rw [creditReturn_lands hf hsub hpath, landed_other (s := creditBack s l cls true f) hn ha]
  exact congrArg Host.Outcome.next (ackLands_nwr (s := creditBack s l cls true f) hacks htid hwait)

end Arrival

/-! ## At the target (R95, R96) -/

section Target

variable {s : State} {r : NwrReq} {rest : List NwrReq} (hr : s.nwrs = r :: rest) (htid : r.tid.isSome = true)

include hr htid

theorem nwr_performed (halive : s.nwrAlive r = true) (hlive : (s.slot r.dst).live = true) (hclear : (s.slot r.dst).present r.n = false)
    (hthread : slotNo r.dst = 11 ∨ s.threadFree (coreOf r.src) (coreOf r.dst) false = true)
    (hpath : meshPath (coreOf r.dst) (coreOf r.src) ≠ []) : exec (.nwrHeldWrite r.dst r.n) s = .next
      ((State.modSlot { s with nwrs := rest } r.dst fun x => x.setNamed r.n r.v).respond (coreOf r.dst) (coreOf r.src)
        (s.classOf r.src) (meshPath (coreOf r.dst) (coreOf r.src)) (some (r.src, .nwr r.src (s.slot r.src).tid))) := by
  have hready : (s.nwrAlive r && (s.slot r.dst).live && !(s.slot r.dst).present r.n &&
      (slotNo r.dst == 11 || s.threadFree (coreOf r.src) (coreOf r.dst) false)) = true := by
    simpa [halive, hlive, hclear] using hthread
  rw [exec_nwrHeldWrite, execNwrHeldWrite]
  refine runEvent_some ?_
  rw [State.nwrPerform, hr, List.find?_cons_of_pos (by simp [htid])]
  dsimp only
  rw [if_pos hready, if_neg hpath, List.erase_cons_head]
  rfl

theorem nwr_resolves : exec (.nwrWithdrawal r.src) s = runEvent "NWR_WITHDRAWAL"
    (if (!s.nwrAlive r) = true then
      State.takeTrap { s with nwrs := rest } r.src .xperm (nwrTval (slotNo r.dst) (coreX (coreOf r.dst)) (coreY (coreOf r.dst))) 4
    else if s.mayStop r.src = true then
      some (State.modSlot { s with nwrs := rest } r.src fun x => { x with wait := Wait.none, stopped := some none })
    else none) := by
  rw [exec_nwrWithdrawal, execNwrWithdrawal, State.nwrResolve, hr, List.find?_cons_of_pos (by simp [htid])]
  dsimp only
  rw [List.erase_cons_head]

theorem nwr_returns (hdead : s.nwrAlive r = false) (hh : (s.slot r.src).handles .xperm = true) :
    exec (.nwrWithdrawal r.src) s = .next (State.modSlot { s with nwrs := rest } r.src fun x =>
      x.enter .xperm (nwrTval (slotNo r.dst) (coreX (coreOf r.dst)) (coreY (coreOf r.dst))) 4) := by
  rw [nwr_resolves hr htid, hdead]
  exact runEvent_some (if_pos hh)

theorem nwr_withdrawn (halive : s.nwrAlive r = true) (hstop : s.mayStop r.src = true) :
    exec (.nwrWithdrawal r.src) s = .next (State.modSlot { s with nwrs := rest } r.src fun x =>
      { x with wait := Wait.none, stopped := some none }) := by
  rw [nwr_resolves hr htid, halive]
  exact runEvent_some (if_pos hstop)

end Target

/-- Settles O8: its issue, its arrival, its acknowledgement, and each of its three ends at the target. -/
theorem neighbourRegisters : Obligations.NeighbourRegisters := by
  refine ⟨fun s dir n a slot v x y hv ht hrel hxy => ?_, fun s r => ⟨?_, ?_, fun rest hr htid => ⟨?_, ?_, ?_⟩⟩⟩
  · exact ⟨fun hin hnear => nwr_sent hv ht hrel hxy hin hnear, fun h => nwr_refused hv ht hxy h⟩
  · intro l cls f hf hsub hpath hfind hacks
    exact ⟨_, nwr_arrives hf hsub hpath hfind hacks, rfl, rfl, rfl⟩
  · intro l cls f k tid hf hsub hpath hn ha hacks hk hwait
    exact ⟨_, nwr_completes hf hsub hpath hn ha hacks hk hwait, rfl, rfl, rfl⟩
  · rintro halive hlive hclear hthread path rfl hpath
    exact nwr_performed hr htid halive hlive hclear hthread hpath
  · exact nwr_returns hr htid
  · exact nwr_withdrawn hr htid

end Sys2Proof.Laws

/-! # Stores, from their checks to their homes (R134, R147 to R149, R152, R154, R155, R162) -/

namespace Sys2Proof.Laws

open Sys2Proof.Machine

/-! ## What a release takes with it (R245) -/

/-- The current slot with nothing held back for its next release. -/
def releasing (s : State) : State := s.modSlot s.cur fun x => { x with relHold := [] }

/-- FENCE.rel of a calm slot holds nothing back. -/
theorem fenceRel_calm {s : State} (sc : Nat) (h : s.calm) : fenceRel sc s = .ok ((), releasing s) := by
  obtain ⟨hflight, hrel, -⟩ := h
  have hnone : s.flight.filter (fun a => a.slot == s.cur && !a.rst && inScope sc s.cur a.home) = [] := by
    simp +contextual [List.filter_eq_nil_iff, hflight]
  rw [fenceRel_apply, releasing, hnone]
  exact congrArg (fun t => Except.ok ((), t)) (State.modSlot_congr (by rw [hrel]; rfl))

theorem slot_releasing (s : State) (g : Nat) : ∃ hs, (releasing s).slot g = { s.slot g with relHold := hs } := by
  by_cases h : g = s.cur
  · exact ⟨[], by rw [h]; exact State.slot_modSlot_self ..⟩
  · exact ⟨_, State.slot_modSlot_ne h⟩

theorem calm_releasing {s : State} (h : s.calm) : (releasing s).calm := by
  obtain ⟨hflight, -, hcards, htile, habsent, hpoison, hhomes⟩ := h
  obtain ⟨_, hcurrent⟩ := slot_releasing s s.cur
  refine ⟨hflight, congrArg Slot.relHold (State.slot_modSlot_self ..), ?_, ?_, habsent, hpoison, fun home => ?_⟩
  · rw [← hcards, State.cardsOf, State.cardsOf, show (releasing s).cur = s.cur from rfl, hcurrent]
    rfl
  · rw [show (releasing s).cur = s.cur from rfl, hcurrent]
    exact htile
  · obtain ⟨hheld, hfree, hsent⟩ := hhomes home
    obtain ⟨_, hthread⟩ := slot_releasing s (12 * nodeOfHome home + 11)
    refine ⟨hheld, ?_, fun id => ?_⟩
    · rw [← hfree, State.threadFree, State.threadFree, hthread]
      rfl
    · rw [← hsent id, State.messageTo, State.messageTo, hthread]
      rfl

/-- A calm slot runs no surrogate tile. -/
theorem calm_tile {s : State} (h : s.calm) : (s.slot s.cur).tile? = none := by
  obtain ⟨-, -, -, htile, -⟩ := h
  exact htile

/-! ## The accesses that a slot may have out (R147) -/

theorem outstanding_calm {s : State} (h : s.calm) : s.outstanding s.cur = 0 := by
  obtain ⟨hflight, -⟩ := h
  have hnone (q : Access → Bool) : s.flight.filter (fun a => a.slot == s.cur && q a) = [] := by
    simp +contextual [List.filter_eq_nil_iff, hflight]
  exact congrArg (fun l => (List.map Access.instr l).eraseDups.length) (hnone _)

theorem outstanding_same {s t : State} (h : s.sameButTlb t) (g : Nat) : t.outstanding g = s.outstanding g := by
  rw [State.outstanding, State.outstanding, h.flight]

theorem storeSlot_apply {s : State} (ht : (s.slot s.cur).tile? = none) : storeSlot s = await (decide (s.outstanding s.cur < 16)) s := by
  simp only [storeSlot, Exec.bind_apply, Exec.get_apply, ht]

theorem storeSlot_calm {s : State} (h : s.calm) : storeSlot s = .ok ((), s) := by
  rw [storeSlot_apply (calm_tile h), outstanding_calm h]
  rfl

theorem storeSlot_full {s : State} (ht : (s.slot s.cur).tile? = none) (h : 16 ≤ s.outstanding s.cur) : storeSlot s = .error .wait := by
  rw [storeSlot_apply ht, decide_eq_false (Nat.not_lt.2 h)]
  rfl

/-! ## What a store sends to its home (R134, R147, R154, R190) -/

/-- Numbering the accesses leaves a slot calm. -/
theorem calm_fresh {s : State} (h : s.calm) (n : Nat) : State.calm { s with fresh := n } := h

section Sends

variable {t : State} (h : t.calm) (v : Nat) (bs : List Byte)
include h

theorem send_calm (kind : AccessKind) (home : Nat) (ws : List (Nat × Byte)) (tagKey va : Option Nat) (n : Nat) (rst : Bool) :
    send t.fresh kind home ws tagKey [] va n rst { t with fresh := t.fresh + 1 } = .ok ((), t.sent kind home ws tagKey va rst) := by
  have hnone : State.tileOf { t with fresh := t.fresh + 1 + 1 } (t.slot t.cur) = none := by rw [State.tileOf, calm_tile h]; rfl
  simp only [send, Exec.bind_apply, newNo_apply, Exec.get_apply]
  rw [show State.slot { t with fresh := t.fresh + 1 + 1 } t.cur = t.slot t.cur from rfl, hnone]
  rfl

/-- A store of memory leaves for the home of its key with its bytes. -/
theorem storePlace_mem (key : Nat) (c : Bool) (va : Option Nat) (tag rst : Bool) :
    (newNo >>= fun i => storePlace (.mem key c va) i v bs tag rst : Exec Unit) t =
      .ok ((), t.sent .store (homeOf key) (writesAt key bs) (if tag then some key else none) va rst) := by
  have hcalm := calm_fresh h (t.fresh + 1)
  simp only [Exec.bind_apply, newNo_apply, storePlace, Exec.get_apply, relHolds_calm hcalm, State.cardsAt_calm hcalm, storeKind,
    Exec.pure_apply, getSlot_apply, List.append_nil, ite_self]
  exact send_calm h ..

/-- A store that a device takes leaves for the home of its region, and writes no memory. -/
theorem storePlace_device (o : Nat) (rst : Bool) {kind : AccessKind} (hk : storeKind (.device o) v (ofBytes bs) = pure kind) :
    (newNo >>= fun i => storePlace (.device o) i v bs false rst : Exec Unit) t =
      .ok ((), t.sent kind (Place.home (.device o)) [] none none rst) := by
  have hcalm := calm_fresh h (t.fresh + 1)
  have htile : (State.slot { t with fresh := t.fresh + 1 } t.cur).tile? = none := calm_tile h
  simp only [Exec.bind_apply, newNo_apply, storePlace, Exec.get_apply, relHolds_calm hcalm, hk,
    Exec.pure_apply, getSlot_apply, htile, Option.isSome_none, Bool.false_eq_true, if_false]
  exact send_calm h ..

/-- An RST beyond the package leaves for its home there, and waits for nothing (R250). -/
theorem storePlace_remote (cur : Nat) :
    (newNo >>= fun i => storePlace (.remote cur) i v bs false true : Exec Unit) t =
      .ok ((), t.sent .remote (remoteHome (cur / 2 ^ 43)) [] none none true) := by
  have hcalm := calm_fresh h (t.fresh + 1)
  simp only [Exec.bind_apply, newNo_apply, storePlace, Exec.get_apply, relHolds_calm hcalm, storeKind,
    Exec.pure_apply, getSlot_apply, if_true]
  exact send_calm h ..

/-- A device that takes no store makes it trap. -/
theorem storePlace_refused (o : Nat) {c : Cause} {tv : U64} (hk : storeKind (.device o) v (ofBytes bs) = trap c tv) :
    (newNo >>= fun i => storePlace (.device o) i v bs false false : Exec Unit) t = .error (.trap c tv) := by
  simp only [Exec.bind_apply, newNo_apply, storePlace, Exec.get_apply, relHolds_calm (calm_fresh h (t.fresh + 1)), hk, trap_apply]

end Sends

/-! ## Stores through a capability (R147, R148, R152) -/

section Via

variable {s t : State} {k : Cap} {v : Int} {n value : Nat}

theorem storeVia_eq {p : Place} (hp : place k v n { perm := [1], align := n } [2] s = .ok (p, t)) :
    storeVia k v n value s = (do
      storeSlot
      let i ← newNo
      storePlace p i v.toNat (toBytes n value) false false : Exec Unit) t := by
  rw [storeVia, Exec.bind_apply, hp]

theorem storeVia_stops {e : Stop} (hp : place k v n { perm := [1], align := n } [2] s = .error e) : storeVia k v n value s = .error e := by
  rw [storeVia, Exec.bind_apply, hp]

theorem storeVia_full {p : Place} (ht : (t.slot t.cur).tile? = none) (hfull : 16 ≤ t.outstanding t.cur)
    (hp : place k v n { perm := [1], align := n } [2] s = .ok (p, t)) : storeVia k v n value s = .error .wait := by
  rw [storeVia_eq hp, Exec.bind_apply, storeSlot_full ht hfull]

theorem storeVia_calm (h : s.calm) {p : Place} (hp : place k v n { perm := [1], align := n } [2] s = .ok (p, t)) :
    storeVia k v n value s =
      (newNo >>= fun i => storePlace p i v.toNat (toBytes n value) false false : Exec Unit) t := by
  rw [storeVia_eq hp, Exec.bind_apply, storeSlot_calm ((place_same hp).calm h)]

/-- An access that passes its checks lies at no negative address. -/
theorem place_nonneg {nd : Need} {bits : List Nat} {p : Place} (hp : place k v n nd bits s = .ok (p, t)) : 0 ≤ v := by
  rw [place, Exec.bind_apply] at hp
  cases hc : checkCap k v n nd s with
  | error e => rw [hc] at hp; cases hp
  | ok r =>
    obtain ⟨-, -, -, -, -, -, hbase, -⟩ := checkCap_ok hc
    exact (Int.natCast_nonneg _).trans hbase

end Via

/-! ## ST and STX -/

section Instr

variable {s t : State} {size : BitVec 2} {rel : Bool} {k : BitVec 3} {off : BitVec 13} {i a : Src} {scale : BitVec 2} {x y : U64}

theorem st_eq (hx : s.reads a = some x) : exec (.st size rel k off a) s =
    runInstr 4 (storeSized size rel (s.cap k) ((s.cap k).cursor + off.toInt * 2 ^ size.toNat) x) s := by
  rw [exec_st, execSt]
  exact runInstr_congr (by simp only [Exec.bind_apply, src_issued hx, kreg_issued])

theorem stx_eq (hx : s.reads a = some x) (hy : s.reads i = some y) : exec (.stx size rel k i scale a) s =
    runInstr 4 (storeSized size rel (s.cap k) ((s.cap k).cursor + y.toInt * 2 ^ scale.toNat) x) s := by
  rw [exec_stx, execStx]
  exact runInstr_congr (by simp only [Exec.bind_apply, src_issued hx, src_issued hy, kreg_issued])

theorem storeSized_plain (c : Cap) (v : Int) : storeSized size false c v x s =
    (do storeVia c v (2 ^ size.toNat) x.toNat; pure .next : Exec Flow) s := rfl

theorem storeSized_rel {c : Cap} {v : Int} (h : s.calm) : storeSized size true c v x s = storeSized size false c v x (releasing s) := by
  simp only [storeSized, if_true, Bool.false_eq_true, if_false, Exec.bind_apply, fenceRel_calm 5 h]

/-- A sized store of a calm slot to memory. -/
theorem storeSized_mem {c : Cap} {v : Int} {key : Nat} {pc : Bool} {va : Option Nat} (h : s.calm)
    (hp : place c v (2 ^ size.toNat) { perm := [1], align := 2 ^ size.toNat } [2] (if rel then releasing s else s) = .ok (.mem key pc va, t)) :
    storeSized size rel c v x s =
      .ok (.next, t.sent .store (homeOf key) (writesAt key (toBytes (2 ^ size.toNat) x.toNat)) none va false) := by
  have hplain {u : State} (hu : u.calm)
      (hp : place c v (2 ^ size.toNat) { perm := [1], align := 2 ^ size.toNat } [2] u = .ok (.mem key pc va, t)) :
      storeSized size false c v x u =
        .ok (.next, t.sent .store (homeOf key) (writesAt key (toBytes (2 ^ size.toNat) x.toNat)) none va false) := by
    rw [storeSized_plain, Exec.bind_apply, storeVia_calm hu hp, storePlace_mem ((place_same hp).calm hu)]
    rfl
  cases rel with
  | false => exact hplain h hp
  | true => exact (storeSized_rel h).trans (hplain (calm_releasing h) hp)

/-- Where the store's checks and its translation leave memory (R146). -/
theorem mem_placed {c : Cap} {v : Int} {n : Nat} {nd : Need} {bits : List Nat} {p : Place}
    (hp : place c v n nd bits (if rel then releasing s.noteIssue else s.noteIssue) = .ok (p, t)) : t.mem = s.mem := by
  rw [(place_same hp).mem]
  cases rel
  · rfl
  · rfl

theorem storeSized_full {c : Cap} {v : Int} {p : Place} (ht : (s.slot s.cur).tile? = none) (hfull : 16 ≤ s.outstanding s.cur)
    (hp : place c v (2 ^ size.toNat) { perm := [1], align := 2 ^ size.toNat } [2] s.noteIssue = .ok (p, t)) :
    storeSized size false c v x s.noteIssue = .error .wait := by
  have hsame := place_same hp
  have htile : (t.slot t.cur).tile? = none := by rw [hsame.cur, hsame.slot]; exact (State.noteIssue_tile ..).trans ht
  have hout : 16 ≤ t.outstanding t.cur := by rw [hsame.cur, outstanding_same hsame]; exact hfull
  rw [storeSized_plain, Exec.bind_apply, storeVia_full htile hout hp]

theorem storeSized_eight (c : Cap) (v : Int) : storeSized 3#2 false c v x s =
    (do storeVia c v 8 x.toNat; pure .next : Exec Flow) s := rfl

/-- A store of 8 bytes to a device does what the device makes of it. -/
theorem storeSized_device {c : Cap} {v : Int} {o : Nat} (h : s.calm)
    (hp : place c v 8 { perm := [1], align := 8 } [2] s = .ok (.device o, t)) :
    (∀ kind, storeKind (.device o) v.toNat x.toNat = pure kind →
      storeSized 3#2 false c v x s = .ok (.next, t.sent kind (Place.home (.device o)) [] none none false)) ∧
    (∀ cs tv, storeKind (.device o) v.toNat x.toNat = trap cs tv → storeSized 3#2 false c v x s = .error (.trap cs tv)) := by
  have hvalue : ofBytes (toBytes 8 x.toNat) = x.toNat := (ofBytes_toBytes ..).trans (Nat.mod_eq_of_lt x.isLt)
  have hcalm := (place_same hp).calm h
  refine ⟨fun kind hk => ?_, fun cs tv hk => ?_⟩
  · rw [storeSized_eight, Exec.bind_apply, storeVia_calm h hp,
      storePlace_device hcalm _ (toBytes 8 x.toNat) o false (hk := by rw [hvalue]; exact hk)]
    rfl
  · rw [storeSized_eight, Exec.bind_apply, storeVia_calm h hp,
      storePlace_refused hcalm _ (toBytes 8 x.toNat) o (hk := by rw [hvalue]; exact hk)]

theorem home_device {o : Nat} {r : DevReg} (h : devRegion o = some r) : Place.home (.device o) = r.home := by
  rw [Place.home, h]

theorem storeKind_mbx {o core m : Nat} (h : devRegion o = some (.mbx core m)) (v : Nat) :
    storeKind (.device o) v x.toNat = pure (.mailbox core m x) := by
  simp only [storeKind, h, BitVec.ofNat_toNat, BitVec.setWidth_eq]

theorem storeKind_window {o cl ten f : Nat} (h : devRegion o = some (.window cl ten f)) (v : Nat) :
    storeKind (.device o) v x.toNat = pure (.window cl ten f x) := by
  simp only [storeKind, h, BitVec.ofNat_toNat, BitVec.setWidth_eq]

theorem storeKind_object {o m f : Nat} (h : devRegion o = some (.layer m f) ∨ devRegion o = some (.view m f)) (v value : Nat) :
    storeKind (.device o) v value = trap .xperm (u64 v) := by
  rcases h with h | h
  · simp only [storeKind, h]
  · simp only [storeKind, h]

/-- LDC and STC start with the checks and the place of 16 bytes. -/
theorem ldc_stops {kd : BitVec 3} {o : BitVec 15} {c : Cause} {tv : U64}
    (hp : place (s.cap k) ((s.cap k).cursor + o.toInt * 16) 16 { perm := [0], align := 16 } [1] s.noteIssue = .error (.trap c tv)) :
    exec (.ldc kd k o) s = s.traps 4 c tv := by
  rw [exec_ldc, execLdc]
  exact runInstr_traps (by simp only [Exec.bind_apply, kreg_issued, capAddress, hp])

theorem stc_stops {kd : BitVec 3} {o : BitVec 15} {c : Cause} {tv : U64}
    (hp : place (s.cap k) ((s.cap k).cursor + o.toInt * 16) 16 { perm := [1], align := 16 } [2] s.noteIssue = .error (.trap c tv)) :
    exec (.stc k o kd) s = s.traps 4 c tv := by
  rw [exec_stc, execStc]
  exact runInstr_traps (by simp only [Exec.bind_apply, kreg_issued, capAddress, hp])

theorem ld_stops {d : Dst} {c : Cause} {tv : U64}
    (hp : place (s.cap k) ((s.cap k).cursor + off.toInt * 8) 8 { perm := [0], align := 8 } [1] s.noteIssue = .error (.trap c tv)) :
    exec (.ld 6#3 d k off) s = s.traps 4 c tv := by
  have height : loadBytes 6#3 = 8 := rfl
  rw [exec_ld, execLd]
  exact runInstr_traps (by simp only [Exec.bind_apply, kreg_issued, loadTyped, height, Nat.cast_ofNat, hp])

theorem st_stops {c : Cause} {tv : U64} (hx : s.reads a = some x)
    (hp : place (s.cap k) ((s.cap k).cursor + off.toInt * 2 ^ size.toNat) (2 ^ size.toNat) { perm := [1], align := 2 ^ size.toNat } [2]
      s.noteIssue = .error (.trap c tv)) : exec (.st size false k off a) s = s.traps 4 c tv := by
  rw [st_eq hx]
  exact runInstr_traps (by rw [storeSized_plain, Exec.bind_apply, storeVia_stops hp])

end Instr

/-- Settles O19: a store to memory and one to a device by what the place sends, a full set and a fault by what stops before that. -/
theorem stores : Obligations.Stores := by
  refine ⟨fun s t size rel k off i a scale x y key c va hcalm hx hy => ?_, fun s t k off a x o hcalm hx hp => ?_,
    fun s t size k off a x p hx ht hfull hp => ?_, fun s size k kd d off o a x c tv hx ht => ?_⟩
  · intro n u stored
    have hn : (n : Int) = 2 ^ size.toNat := by simp [n]
    refine ⟨fun hp => ⟨?_, mem_placed hp⟩, fun hp => ⟨?_, mem_placed hp⟩⟩
    · rw [hn] at hp
      exact (st_eq hx).trans (runInstr_past (storeSized_mem (State.calm_noteIssue hcalm) hp))
    · exact (stx_eq hx hy).trans (runInstr_past (storeSized_mem (State.calm_noteIssue hcalm) hp))
  · obtain ⟨hsends, hrefuses⟩ := storeSized_device (x := x) (State.calm_noteIssue hcalm) hp
    refine ⟨fun core m ho => ?_, fun cl ten f ho => ?_, fun ⟨m, f, ho⟩ => ?_⟩
    · have hsent := hsends _ (storeKind_mbx ho _)
      rw [home_device ho] at hsent
      exact (st_eq hx).trans (runInstr_past hsent)
    · have hsent := hsends _ (storeKind_window ho _)
      rw [home_device ho] at hsent
      exact (st_eq hx).trans (runInstr_past hsent)
    · have hrefused := hrefuses _ _ (storeKind_object ho _ _)
      rw [Int.toNat_of_nonneg (place_nonneg hp)] at hrefused
      exact (st_eq hx).trans (runInstr_traps hrefused)
  · exact (st_eq hx).trans (runInstr_waits (storeSized_full ht hfull hp))
  · exact ⟨ld_stops, st_stops hx, ldc_stops, stc_stops⟩

end Sys2Proof.Laws

/-! # What steps at homes leave of the slots and their cores (R146, R174, R175, R198, R409) -/

namespace Sys2Proof.Laws

open Sys2Proof.Machine

/-- `t` has the slots and the current slot of `s`, and every core still belongs to its partition. -/
structure KeepsSlots (s t : State) : Prop where
  cur : t.cur = s.cur
  slots : t.slots = s.slots
  owns : ∀ p c, t.ownsCore p c = s.ownsCore p c

namespace KeepsSlots

variable {s u : State}

protected theorem refl (s : State) : KeepsSlots s s := ⟨rfl, rfl, fun _ _ => rfl⟩

theorem slot (h : KeepsSlots s u) (g : Nat) : u.slot g = s.slot g := State.slot_congr h.slots g

theorem partOfSlot (h : KeepsSlots s u) (g : Nat) : u.partOfSlot g = s.partOfSlot g := by
  have howns : (fun p => u.ownsCore p (coreOf g)) = fun p => s.ownsCore p (coreOf g) := funext fun p => h.owns p _
  rw [State.partOfSlot, State.partOfSlot, h.slot, State.partOf, State.partOf, State.partOf?, State.partOf?, howns]

theorem ite {c : Prop} [Decidable c] {a b : State} (ha : KeepsSlots s a) (hb : KeepsSlots s b) :
    KeepsSlots s (if c then a else b) := by
  split
  · exact ha
  · exact hb

theorem foldl {β : Type} {f : State → β → State} (hf : ∀ u b, KeepsSlots s u → KeepsSlots s (f u b)) (l : List β)
    (h : KeepsSlots s u) : KeepsSlots s (l.foldl f u) := by
  induction l generalizing u with
  | nil => exact h
  | cons b l ih => exact ih (hf u b h)

/-- A change of what is none of the slots, the partitions and the current slot. -/
theorem same {t : State} (h : KeepsSlots s u) (hcur : t.cur = u.cur) (hslots : t.slots = u.slots) (hparts : t.parts = u.parts) :
    KeepsSlots s t := by
  refine ⟨hcur.trans h.cur, hslots.trans h.slots, fun p c => Eq.trans ?_ (h.owns p c)⟩
  show State.ownsCore { u with parts := t.parts } p c = _
  rw [hparts]

/-! ## Memory -/

theorem setByte {key b} (h : KeepsSlots s u) : KeepsSlots s (u.setByte key b) := h.same rfl rfl rfl

theorem setTag {key b} (h : KeepsSlots s u) : KeepsSlots s (u.setTag key b) := h.same rfl rfl rfl

theorem setPoison {key b} (h : KeepsSlots s u) : KeepsSlots s (u.setPoison key b) := h.same rfl rfl rfl

theorem writeAll {ws} (h : KeepsSlots s u) : KeepsSlots s (u.writeAll ws) := h.foldl (fun _ _ h => h.setByte) ws

theorem fill {g} (h : KeepsSlots s u) : KeepsSlots s (u.fill g) := by
  have habsent : KeepsSlots s { u with absent := u.absent.filter fun a => a.key ≠ g.key } := h.same rfl rfl rfl
  exact habsent.writeAll.setPoison.foldl (fun _ _ h => h.setTag) _

theorem fillFor {key n} (h : KeepsSlots s u) : KeepsSlots s (u.fillFor key n) := h.foldl (fun _ _ h => h.fill) _

/-- The registers of a tenant's block say nothing of who owns a core (R401, R403). -/
theorem setPartReg {p n v} (h : KeepsSlots s u) (hn : 0x840 ≤ n) : KeepsSlots s (u.setPartReg p n v) := by
  refine ⟨h.cur, h.slots, fun q c => Eq.trans ?_ (h.owns q c)⟩
  have hrunning : ((u.setPartReg p n v).part q).running = (u.part q).running := by
    rw [State.part, State.setPartReg, SMap.get_set]
    split
    next e => rw [e]
    next => rfl
  have hquads (cl : Nat) : (u.setPartReg p n v).ownedQuads q cl = u.ownedQuads q cl := by
    rw [State.ownedQuads, State.ownedQuads, hrunning]
    refine ite_congr rfl (fun hcl => ?_) fun _ => rfl
    rw [State.partFld, State.partFld, State.partReg_setPartReg, if_neg (by omega)]
  simp only [State.ownsCore, State.ownsQuad, hquads]

theorem tenantReg_ge (t w : Nat) : 0x840 ≤ tenantReg t w := by
  unfold tenantReg
  omega

theorem logWrite {p t va} (h : KeepsSlots s u) : KeepsSlots s (u.logWrite p t va) := by
  unfold State.logWrite
  extract_lets +onlyGivenNames ctl span put1 s₁ page fk seen size head tail a s₂ s₃
  have h₁ : KeepsSlots s s₁ := by
    refine ite (h.setPartReg (tenantReg_ge ..)) ?_
    unfold put1
    split
    · exact ite h h.setByte
    · exact h
  have h₂ : KeepsSlots s s₂ := by
    unfold s₂
    split
    · exact h₁.writeAll
    · exact h₁
  exact ite h (ite h₁ (ite (h₁.setPartReg (tenantReg_ge ..)) ((h₂.setPartReg (tenantReg_ge ..)).same rfl rfl rfl)))

theorem performWrites {p t va ws tag} (h : KeepsSlots s u) : KeepsSlots s (u.performWrites p t va ws tag) := by
  unfold State.performWrites
  extract_lets +onlyGivenNames s₁ s₂ s₃ s₄
  have h₁ : KeepsSlots s s₁ := by
    unfold s₁
    split
    · exact h
    · exact h.fillFor
  have h₂ : KeepsSlots s s₂ := by
    unfold s₂
    split
    · exact h₁.logWrite
    · exact h₁
  have h₄ : KeepsSlots s s₄ := h₂.writeAll.foldl (fun _ _ h => h.setPoison) _
  split
  · exact h₄.setTag
  · exact h₄

/-! ## Completion records -/

theorem post {id cls resp src dst path} (h : KeepsSlots s u) : KeepsSlots s (u.post id cls resp src dst path) := by
  obtain ⟨l, hl⟩ := State.post_links u id cls resp src dst path
  rw [hl]
  exact h.same rfl rfl rfl

theorem schedError {die code addr tenant part} (h : KeepsSlots s u) : KeepsSlots s (u.schedError die code addr tenant part) :=
  ite (h.same rfl rfl rfl) (h.same rfl rfl rfl)

theorem sendJournal {p seq state c} (h : KeepsSlots s u) : KeepsSlots s (u.sendJournal p seq state c) :=
  post (h.same rfl rfl rfl)

theorem resolveFuture {p t va value c home} (h : KeepsSlots s u) : KeepsSlots s (u.resolveFuture p t va value c home).2 := by
  unfold State.resolveFuture
  dsimp only
  split
  · exact h
  · split
    · exact h
    · split
      · exact h.fillFor
      · split
        · exact h.fillFor
        · split
          · exact h.fillFor.performWrites.same rfl rfl rfl
          · dsimp only
            exact h.fillFor.performWrites

theorem applyGroup {g} (h : KeepsSlots s u) : KeepsSlots s (u.applyGroup g) := by
  unfold State.applyGroup
  extract_lets +onlyGivenNames r die bad
  split
  · exact h.schedError
  next key _ log _ =>
    extract_lets +onlyGivenNames s₁ live fl0 set1 fl1 fl2 complete fl3 traps put s₂ s₃
    have hput {v : State} {off n x} (hv : KeepsSlots s v) : KeepsSlots s (put v off n x) := hv.performWrites
    have h₂ : KeepsSlots s s₂ := hput (hput (hput h.fillFor))
    have h₃ : KeepsSlots s s₃ := by
      unfold s₃
      split
      · exact hput h₂
      · exact h₂
    refine ite ?_ h₃
    extract_lets +onlyGivenNames fut s₄ seq
    have h₄ : KeepsSlots s s₄ := by
      refine ite h₃ ?_
      split
      next res v he =>
        have hv : KeepsSlots s v := by
          have hres := h₃.resolveFuture (p := r.part) (t := r.tenant) (va := fut) (value := fl3) (c := g.core) (home := some (homeOf key))
          rw [he] at hres
          exact hres
        refine hput ?_
        split
        · exact hv
        · exact hput hv
        · exact (hput hv).schedError
        · exact (hput hv).schedError
    exact ite h₄ h₄.sendJournal

theorem groupNow {g} (h : KeepsSlots s u) : KeepsSlots s (u.groupNow g) :=
  foldl (fun _ _ h => h.applyGroup) _ (h.same rfl rfl rfl)

theorem liveNow {p t group delta c} (h : KeepsSlots s u) : KeepsSlots s (u.liveNow p t group delta c) := by
  unfold State.liveNow
  split
  · exact h
  · exact h.groupNow

end KeepsSlots

end Sys2Proof.Laws

/-! # Capability accesses and atomics (R157, R158) -/

namespace Sys2Proof.Laws

open Sys2Proof.Machine

/-! ## LDC and STC (R157) -/

theorem tags_same {s t : State} (h : s.sameButTlb t) : t.tags = s.tags := by
  obtain ⟨cs, n, rfl, -⟩ := h
  rfl

theorem viewTag_calm {s : State} (h : s.calm) (key : Nat) : s.viewTag (s.slot s.cur) key = s.tagAt key := by
  rw [State.viewTag, State.tileOf, calm_tile h]
  rfl

section Caps

variable {s t : State} {k kd : BitVec 3} {o : BitVec 15} {key : Nat} {pc : Bool} {va : Option Nat} {c x : Cap} {v : Int}
  (hcalm : s.calm) (hc : s.cap k = c) (hv : v = c.cursor + o.toInt * 16)

/-- A capability that LDC finds in memory, with the tag that LC and the page let survive. -/
def loadedCap (s : State) (c : Cap) (key : Nat) (pc : Bool) : Cap :=
  { tag := s.tags.get false (key / 16) && c.has 3 && pc, bits := BitVec.ofNat 128 (ofBytes (s.bytes key 16)) }

include hcalm hc hv

theorem ldc_loads (hnear : s.near (homeOf key))
    (hp : place c v 16 { perm := [0], align := 16 } [1] s.noteIssue = .ok (.mem key pc va, t)) (hkey : key < 2 ^ 63) :
    exec (.ldc kd k o) s = .next ((t.modSlot s.cur fun y => { y with k := y.k.set Cap.null kd.toNat (loadedCap s c key pc) }).past 4) := by
  have hsame := place_same hp
  have htcalm : t.calm := hsame.calm (State.calm_noteIssue hcalm)
  have htnear : t.near (Place.home (.mem key pc va)) := (near_same hsame _).2 hnear
  have hbytes : t.bytes key 16 = s.bytes key 16 := hsame.bytes ..
  have htag : t.viewTag (t.slot s.cur) key = s.tags.get false (key / 16) := by
    rw [← State.noteIssue_cur s, ← hsame.cur, viewTag_calm htcalm, State.tagAt, tags_same hsame]
    rfl
  subst hv
  rw [exec_ldc, execLdc]
  refine runInstr_past ?_
  simp only [Exec.bind_apply, kreg_issued, hc, capAddress, hp, notAcrossDies_near htnear, readPlace_calm htcalm, Exec.get_apply,
    htag, hbytes, decide_eq_true hkey, Bool.true_and, Exec.pure_apply, setK_apply, hsame.cur, State.noteIssue_cur, loadedCap]

variable (hx : s.cap kd = x) (hp : place c v 16 { perm := [1], align := 16 } [2] s.noteIssue = .ok (.mem key pc va, t))

include hx hp

/-- What the store of a tagged capability asks for is met, or there is no tag to store. -/
theorem stc_stores (h : x.tag = false ∨ c.has 4 = true ∧ c.space ≤ 3 ∧ (x.has 6 = true ∨ c.space = 3) ∧ pc = true) :
    exec (.stc k o kd) s = .next ((t.sent .store (homeOf key) (writesAt key (toBytes 16 x.bits.toNat))
      (if x.tag then some key else none) va false).past 4) := by
  have htcalm : t.calm := (place_same hp).calm (State.calm_noteIssue hcalm)
  have hstore := storePlace_mem htcalm v.toNat (toBytes 16 x.bits.toNat) key pc va x.tag false
  simp only [Exec.bind_apply, newNo_apply] at hstore
  subst hv
  rw [exec_stc, execStc]
  refine runInstr_past ?_
  simp only [Exec.bind_apply, kreg_issued, hc, hx, capAddress, hp]
  rcases h with htag | ⟨hlc, hspace, hg, rfl⟩
  · rw [htag] at hstore ⊢
    simp only [Bool.false_eq_true, if_false, Exec.bind_apply, storeSlot_calm htcalm, newNo_apply, hstore, Exec.pure_apply]
  · have hglobal : (x.has 6 || c.space == 3) = true := by simpa using hg
    cases htag : x.tag with
    | false =>
      rw [htag] at hstore
      simp only [Bool.false_eq_true, if_false, Exec.bind_apply, storeSlot_calm htcalm, newNo_apply, hstore, Exec.pure_apply]
    | true =>
      rw [htag] at hstore
      simp only [if_true, Exec.bind_apply, hlc, decide_eq_true hspace, hglobal, require_true, storeSlot_calm htcalm, newNo_apply, hstore,
        Exec.pure_apply]

variable (htag : x.tag = true)

include htag

omit hcalm in
theorem stc_forbidden (h : c.has 4 = false ∨ 3 < c.space ∨ x.has 6 = false ∧ c.space ≠ 3) :
    exec (.stc k o kd) s = s.traps 4 .capPerm (BitVec.ofInt 64 v) := by
  subst hv
  rw [exec_stc, execStc]
  refine runInstr_traps ?_
  simp only [Exec.bind_apply, kreg_issued, hc, hx, capAddress, hp, htag, if_true]
  cases hlc : c.has 4 with
  | false => simp only [require_false, u64]
  | true =>
    by_cases hspace : c.space ≤ 3
    · have hglobal : (x.has 6 || c.space == 3) = false := by
        rcases h with h | h | ⟨hg, hne⟩
        · rw [hlc] at h
          cases h
        · omega
        · simp [hg, hne]
      simp only [decide_eq_true hspace, hglobal, require_true, require_false, u64]
    · simp only [decide_eq_false hspace, require_true, require_false, u64]

omit hcalm in
theorem stc_untaggedPage (hlc : c.has 4 = true) (hspace : c.space ≤ 3) (hg : x.has 6 = true ∨ c.space = 3) (hpage : pc = false) :
    exec (.stc k o kd) s = s.traps 4 .xperm (BitVec.ofInt 64 v) := by
  have hglobal : (x.has 6 || c.space == 3) = true := by simpa using hg
  subst hv hpage
  rw [exec_stc, execStc]
  refine runInstr_traps ?_
  simp only [Exec.bind_apply, kreg_issued, hc, hx, capAddress, hp, htag, if_true, hlc, decide_eq_true hspace, hglobal, require_true,
    require_false, u64]

end Caps

/-! ## Atomics (R158) -/

/-- The low bits of a number as a signed integer are what a vector of them holds. -/
theorem signed_eq_toInt {n : Nat} (hn : 0 < n) (a : Nat) : signed a n = (BitVec.ofNat n a).toInt := by
  obtain ⟨m, rfl⟩ := Nat.exists_eq_succ_of_ne_zero hn.ne'
  have hlow := Nat.mod_lt a (Nat.two_pow_pos m)
  rw [signed, BitVec.toInt_eq_toNat_cond, BitVec.toNat_ofNat, Nat.succ_sub_one, Nat.pow_succ, Nat.mod_mul]
  obtain h | h := Nat.mod_two_eq_zero_or_one (a / 2 ^ m)
  · rw [h, if_neg (by decide), if_pos (by omega)]
  · rw [h, if_pos rfl, if_neg (by omega)]

/-- What an atomic of tenant `ten` of partition `p` leaves in memory: its new value, or the tag of its granule cleared. -/
def atomicStored (s : State) (p ten : Nat) (va : Option Nat) (key n : Nat) : Option Nat → State
  | some x => s.performWrites p ten va (writesAt key (toBytes n x)) none
  | none => s.setTag key false

theorem atomicStored_cur (s : State) (p ten : Nat) (va : Option Nat) (key n : Nat) (r : Option Nat) :
    (atomicStored s p ten va key n r).cur = s.cur := by
  cases r with
  | some x => exact (KeepsSlots.refl s).performWrites.cur
  | none => rfl

theorem atomicAt_mem {s : State} (h : s.calm) {op : AtomOp} {key n v c : Nat} {r : Option Nat × Flags}
    (hr : op.apply (8 * n) (ofBytes (s.bytes key n)) v c = r) (pc : Bool) (va : Option Nat) :
    atomicAt op (.mem key pc va) n v c s = .ok (ofBytes (s.bytes key n),
      (atomicStored s (s.partOfSlot s.cur) (s.slot s.cur).tenant va key n r.1).modSlot s.cur fun x => { x with fflags := x.fflags ||| r.2 }) := by
  obtain ⟨new, fl⟩ := r
  have hcur := atomicStored_cur s (s.partOfSlot s.cur) (s.slot s.cur).tenant va key n new
  simp only [atomicAt, Exec.bind_apply, Exec.get_apply, State.cardsAt_calm h, List.isEmpty_nil, await_true, forceHome_calm _ h,
    homeReady_calm _ h, readBytes_calm h, hr]
  conv => rhs; enter [1, 2]; arg 2; rw [← hcur]
  cases new with
  | some x => rfl
  | none => rfl

/-- What an atomic of slot `g` that has read `m` and left `w` with flags `fl` pushes, before `.acq` empties the read cache. -/
def atomicResult (g : Nat) (wide : Bool) (order : BitVec 2) (d : Dst) (m : Nat) (w : State) (fl : Flags) : State :=
  let r := (w.modSlot g fun x => { x with fflags := x.fflags ||| fl }).modSlot g fun x =>
    x.result d (if wide then BitVec.ofNat 64 m else (BitVec.ofNat 32 m).signExtend 64)
  if order.getLsbD 0 then r.modCore (coreOf g) fun y => { y with rcache := [] } else r

section Atomic

variable {s t : State} {wide : Bool} {order : BitVec 2} {d : Dst} {k : BitVec 3} {off : BitVec 8} {key n v c : Nat} {pc : Bool} {va : Option Nat}
  {op : AtomOp} {r : Option Nat × Flags}

/-- An atomic at its place, in a state in which nothing is held back. -/
theorem atomic_performs (h : s.calm) (hr : op.apply (8 * n) (ofBytes (s.bytes key n)) v c = r) :
    (do
      releaseWait
      let m ← atomicAt op (.mem key pc va) n v c
      dst d (if wide then BitVec.ofNat 64 m else sext64 m 32)
      if bitAt order 0 then acquire
      pure .next : Exec Flow) s = .ok (.next, atomicResult s.cur wide order d (ofBytes (s.bytes key n))
        (atomicStored s (s.partOfSlot s.cur) (s.slot s.cur).tenant va key n r.1) r.2) := by
  have hcur := atomicStored_cur s (s.partOfSlot s.cur) (s.slot s.cur).tenant va key n r.1
  simp only [Exec.bind_apply, releaseWait_calm h, atomicAt_mem h hr, dst_apply, State.modSlot_cur, hcur, atomicResult,
    sext64_ofNat (w := 32) (by decide), bitAt]
  cases order.getLsbD 0
  · simp only [Bool.false_eq_true, if_false, Exec.pure_apply]
  · simp only [if_true, Exec.bind_apply, acquire_apply, State.acquired, State.modSlot_cur, hcur, Exec.pure_apply]

theorem tenant_releasing (s : State) (g : Nat) : ((releasing s).slot g).tenant = (s.slot g).tenant := by
  obtain ⟨_, hslot⟩ := slot_releasing s g
  rw [hslot]

theorem partOfSlot_releasing (s : State) (g : Nat) : (releasing s).partOfSlot g = s.partOfSlot g := by
  obtain ⟨_, hslot⟩ := slot_releasing s g
  rw [State.partOfSlot, hslot]
  rfl

/-- What an atomic of a calm slot does. -/
theorem atomic_calm (hcalm : s.calm) (hnear : s.near (homeOf key)) (hn : (if wide then 8 else 4) = n)
    (hp : place (s.cap k) ((s.cap k).cursor + off.toInt * n) n { spaces := [0, 1, 2, 3, 5], xperm := true, perm := [0, 1, 5], align := n }
      [1, 2, 4] s.noteIssue = .ok (.mem key pc va, t))
    (hr : op.apply (8 * n) (ofBytes (s.bytes key n)) (((s.slot s.cur).rq.getD 0 0#64).toNat % 2 ^ (8 * n))
      (((s.slot s.cur).rq.getD 1 0#64).toNat % 2 ^ (8 * n)) = r) :
    runInstr 4 (atomic op wide order d k off) s = .next ((atomicResult s.cur wide order d (ofBytes (s.bytes key n))
      (atomicStored (if order.getLsbD 1 then t.modSlot s.cur fun x => { x with relHold := [] } else t) (s.partOfSlot s.cur)
        (s.slot s.cur).tenant va key n r.1) r.2).past 4) := by
  have hsame := place_same hp
  have hcur : t.cur = s.cur := hsame.cur
  have htcalm : t.calm := hsame.calm (State.calm_noteIssue hcalm)
  have htnear : t.near (Place.home (.mem key pc va)) := (near_same hsame _).2 hnear
  have htbytes : t.bytes key n = s.bytes key n := hsame.bytes ..
  have htpart : t.partOfSlot s.cur = s.partOfSlot s.cur := (partOfSlot_same hsame _).trans (State.noteIssue_partOfSlot ..)
  have htten : (t.slot s.cur).tenant = (s.slot s.cur).tenant := by rw [hsame.slot, State.noteIssue_slot_tenant]
  have hdone {u : State} (hu : u.calm) (hcur : u.cur = s.cur) (hbytes : u.bytes key n = t.bytes key n)
      (hpart : u.partOfSlot s.cur = t.partOfSlot s.cur) (hten : (u.slot s.cur).tenant = (t.slot s.cur).tenant) :=
    atomic_performs (s := u) (wide := wide) (order := order) (d := d) (pc := pc) (va := va) (r := r) hu (by rw [hbytes, htbytes]; exact hr)
  refine runInstr_past ?_
  simp only [atomic, Exec.bind_apply, notLatent_calm (State.calm_noteIssue hcalm), getSlot_apply, kreg_issued, State.noteIssue_cur,
    State.noteIssue_slot_rq, hn, hp, notAcrossDies_near htnear, bitAt]
  cases order.getLsbD 1 with
  | false =>
    simp only [Bool.false_eq_true, if_false]
    refine (hdone htcalm hcur rfl rfl rfl).trans ?_
    rw [hcur, htbytes, htpart, htten]
  | true =>
    rw [if_pos rfl, Exec.bind_apply, fenceRel_calm 5 htcalm]
    refine (hdone (calm_releasing htcalm) hcur rfl (partOfSlot_releasing ..) (tenant_releasing ..)).trans ?_
    rw [show (releasing t).cur = s.cur from hcur, show (releasing t).bytes key n = _ from htbytes, partOfSlot_releasing, tenant_releasing,
      htpart, htten, releasing, hcur, if_pos rfl]

end Atomic

/-- Settles O20: LDC and STC case by case; every atomic as its member of `AtomOp`, whose new value is that of R158. -/
theorem capabilityAccessesAndAtomics : Obligations.CapabilityAccessesAndAtomics := by
  refine ⟨fun s t k kd o key pc va c x v hcalm hnear hc hx hv => ⟨fun hp hkey => ?_, fun hp => ⟨fun h => ?_, fun htag h => ?_, ?_⟩⟩,
    fun s t wide order d k off key pc va hcalm hnear => ?_⟩
  · exact ldc_loads hcalm hc hv hnear hp hkey
  · exact stc_stores hcalm hc hv hx hp h
  · exact stc_forbidden hc hv hx hp htag h
  · exact stc_untaggedPage hc hv hx hp
  · intro n hp v c m int u ends put
    have hop (op : AtomOp) (r : Option Nat × Flags) (hr : op.apply (8 * n) m v c = r) :
        runInstr 4 (atomic op wide order d k off) s = ends (atomicStored u (s.partOfSlot s.cur) (s.slot s.cur).tenant va key n r.1) r.2 :=
      atomic_calm hcalm hnear rfl hp hr
    have hint (a : Nat) : signed a (8 * n) = int a := signed_eq_toInt (by cases wide <;> decide) a
    refine ⟨hop .add _ rfl, hop .and _ rfl, hop .or _ rfl, hop .xor _ rfl, ?_, ?_, ?_, ?_, hop .swp _ rfl, ?_, ?_, ?_⟩
    · exact hop .min (some _, 0#6) (by simp only [AtomOp.apply, hint, decide_eq_true_eq])
    · exact hop .max (some _, 0#6) (by simp only [AtomOp.apply, hint, decide_eq_true_eq, ge_iff_le])
    · exact hop .minu (some _, 0#6) (by simp only [AtomOp.apply, decide_eq_true_eq, Nat.min_def])
    · exact hop .maxu (some _, 0#6) (by simp only [AtomOp.apply, decide_eq_true_eq, ge_iff_le, Nat.max_comm m v, Nat.max_def])
    · exact fun heq => hop .cas (some v, 0#6) (by simp only [AtomOp.apply, if_pos heq])
    · exact fun hne => hop .cas (none, 0#6) (by simp only [AtomOp.apply, if_neg hne])
    · rintro f r rfl rfl
      refine hop .fadd (some _, _) ?_
      cases wide
      · rfl
      · rfl

end Sys2Proof.Laws

/-! # Remote operations, messages and page walks (R160, R161, R165, R166, R250) -/

namespace Sys2Proof.Laws

open Sys2Proof.Machine

/-! ## LIVE of a calm slot's group (R160, R174) -/

/-- No step on a completion record waits for anything in a calm slot. -/
theorem beforeLive_calm {s : State} (h : s.calm) (group : U64) : beforeLive group s = .ok ((), s) := by
  obtain ⟨-, -, -, -, habsent, -⟩ := id h
  simp only [beforeLive, Exec.bind_apply, Exec.get_apply]
  cases groupRef (s.partOfSlot s.cur) (s.slot s.cur).tenant group with
  | none => rfl
  | some r =>
    dsimp only
    cases s.hwPlace r.part r.tenant (s.groupAddr r) [] with
    | none => rfl
    | some found =>
      simp only [State.fillWaits_nil habsent, Bool.not_false, Exec.bind_apply, await_true, forceHome_calm _ h, homeReady_calm _ h]

theorem raiseLive_calm {s : State} (h : s.calm) (group : U64) (delta : Int) : raiseLive group delta s =
    .ok ((), s.liveNow (s.partOfSlot s.cur) (s.slot s.cur).tenant group delta (coreOf s.cur)) := by
  simp only [raiseLive, Exec.bind_apply, beforeLive_calm h, Exec.get_apply, Exec.set_apply]

/-- The state in which an RST or a message has raised its counts (R160, R161). -/
def remoteCounted (s t : State) : State :=
  (t.liveNow (s.partOfSlot s.cur) (s.slot s.cur).tenant
    (if slotNo s.cur = 0 ∨ slotNo s.cur = 11 then 0#64 else (s.slot s.cur).group) 1 (coreOf s.cur)).modSlot s.cur
      fun y => { y with rsts := y.rsts + 1 }

theorem partOfSlot_counted (s : State) (g : Nat) :
    (s.modSlot g fun y => { y with rsts := y.rsts + 1 }).partOfSlot g = s.partOfSlot g := by
  rw [State.partOfSlot, State.slot_modSlot_self]
  rfl

section Counted

variable {s t : State} (h : s.noteIssue.sameButTlb t)

theorem liveCounted_keeps (s t : State) : KeepsSlots t (t.liveNow (s.partOfSlot s.cur) (s.slot s.cur).tenant
    (if slotNo s.cur = 0 ∨ slotNo s.cur = 11 then 0#64 else (s.slot s.cur).group) 1 (coreOf s.cur)) := (KeepsSlots.refl t).liveNow

include h

theorem remoteCounted_cur : (remoteCounted s t).cur = s.cur := (liveCounted_keeps s t).cur.trans h.cur

theorem remoteCounted_partOfSlot : (remoteCounted s t).partOfSlot s.cur = s.partOfSlot s.cur := by
  rw [remoteCounted, partOfSlot_counted, (liveCounted_keeps s t).partOfSlot, partOfSlot_same h, State.noteIssue_partOfSlot]

theorem countRemote_calm (hcalm : t.calm) : countRemote t = .ok ((), remoteCounted s t) := by
  have hcur : t.cur = s.cur := h.cur
  have hpart : t.partOfSlot s.cur = s.partOfSlot s.cur := (partOfSlot_same h _).trans (State.noteIssue_partOfSlot ..)
  have hslot : t.slot s.cur = s.noteIssue.slot s.cur := h.slot _
  have hlive := (liveCounted_keeps s t).cur
  simp only [countRemote, Exec.bind_apply, Exec.get_apply, raiseLive_calm hcalm, modSlot_apply, State.remoteGroup, hcur, hpart, hslot,
    State.noteIssue_slot_tenant, State.noteIssue_slot_group, hlive, remoteCounted]

end Counted

/-! ## RST (R160) -/

section Rst

variable {s t : State} {size : BitVec 2} {ka : BitVec 3} {b : Src} {x : U64} {p : Place}
  (hcalm : s.calm) (hx : s.reads b = some x)
  (hp : place (s.cap ka) (s.cap ka).cursor (2 ^ size.toNat) { spaces := [0, 1, 2, 3, 5, 6], perm := [1], align := 2 ^ size.toNat } [2]
    s.noteIssue = .ok (p, t))
include hcalm hx hp

/-- An RST leaves as what its store sends from the state that has counted it. -/
theorem rst_sends {w : State}
    (hw : (newNo >>= fun i => storePlace p i (s.cap ka).cursor (toBytes (2 ^ size.toNat) x.toNat) false true : Exec Unit) (remoteCounted s t) =
      .ok ((), w)) : exec (.rst size ka b) s = .next (w.past 4) := by
  have hsame := place_same hp
  have htcalm : t.calm := hsame.calm (State.calm_noteIssue hcalm)
  rw [exec_rst, execRst]
  refine runInstr_past ?_
  simp only [Exec.bind_apply, newNo_apply] at hw
  simp only [Exec.bind_apply, src_issued hx, notLatent_calm (State.calm_noteIssue hcalm), kreg_issued, hp, storeSlot_calm htcalm,
    countRemote_calm hsame htcalm, newNo_apply, hw, Exec.pure_apply]

end Rst

/-! ## AMSG (R161) -/

theorem checkCode_met (s : State) {k : Cap} (htag : k.tag = true) (hspace : k.space = 0) (hx : k.has 2 = true) (heven : k.cursor % 2 = 0)
    (hbase : k.base ≤ k.cursor) (htop : k.cursor + 2 ≤ k.top) : checkCode k s = .ok ((), s) := by
  have hin : (decide ((k.base : Int) ≤ k.cursor) && decide ((k.cursor : Int) + 2 ≤ k.top)) = true := by
    rw [Bool.and_eq_true, decide_eq_true_iff, decide_eq_true_iff]
    omega
  simp only [checkCode, checkTarget, Exec.bind_apply, htag, hspace, hx, decide_eq_true heven, hin, beq_self_eq_true, require_true]

section Amsg

variable {s t : State} {ka kb : BitVec 3} {p : Place}
  (hcalm : s.calm) (hp : place (s.cap ka) (s.cap ka).cursor 1 { spaces := [0, 1, 2, 5], perm := [1] } [] s.noteIssue = .ok (p, t))
  (hcode : ∀ u, checkCode (s.cap kb) u = .ok ((), u)) (hcounted : (remoteCounted s t).calm)

/-- The message that the current slot of `u`, whose registers are those of `y`, sends to the message thread of a home (R161): the
accesses of the slot that go there come before it. -/
def sentMessage (u : State) (y : Slot) (code target : Cap) (home : Nat) : Amsg :=
  { id := u.fresh, core := messageCore home, home := home, code := code, target := target,
    v0 := y.rq.getD 0 0#64, v1 := y.rq.getD 1 0#64, slot := u.cur, tid := y.tid, tenant := y.tenant, part := u.partOfSlot u.cur,
    group := groupRef (u.partOfSlot u.cur) y.tenant (u.remoteGroup u.cur), holds := u.toHome u.cur home }

theorem toHome_calm {s : State} (h : s.calm) (home : Nat) : s.toHome s.cur home = [] := by
  obtain ⟨hflight, -⟩ := h
  rw [State.toHome, List.map_eq_nil_iff, List.filter_eq_nil_iff]
  intro a ha hmine
  rw [Bool.and_eq_true, beq_iff_eq] at hmine
  exact hflight a ha hmine.1

include hcalm hp hcode

theorem amsg_mem {key : Nat} {pc : Bool} {va : Option Nat} (hmem : p = .mem key pc va) :
    exec (.amsg ka kb) s = .next ((State.sendMessage { remoteCounted s t with fresh := (remoteCounted s t).fresh + 1 }
      (sentMessage (remoteCounted s t) (s.noteIssue.slot s.cur) (s.cap kb) (s.cap ka) (homeOf key))).past 4) := by
  have hsame := place_same hp
  have htcalm : t.calm := hsame.calm (State.calm_noteIssue hcalm)
  subst hmem
  rw [exec_amsg, execAmsg]
  refine runInstr_past ?_
  simp only [Exec.bind_apply, notLatent_calm (State.calm_noteIssue hcalm), kreg_issued, getSlot_apply, hp, hcode, relHolds_calm htcalm,
    countRemote_calm hsame htcalm, newNo_apply, Exec.get_apply]
  rfl

include hcounted

theorem amsg_remote {cur : Nat} (hremote : p = .remote cur) :
    exec (.amsg ka kb) s = .next (((remoteCounted s t).sent .amsg (remoteHome (cur / 2 ^ 43)) [] none none true).past 4) := by
  have hsame := place_same hp
  have htcalm : t.calm := hsame.calm (State.calm_noteIssue hcalm)
  subst hremote
  rw [exec_amsg, execAmsg]
  refine runInstr_past ?_
  have hsend := send_calm hcounted .amsg (remoteHome (cur / 2 ^ 43)) [] none none 0 true
  simp only [Exec.bind_apply, notLatent_calm (State.calm_noteIssue hcalm), kreg_issued, getSlot_apply, hp, hcode, relHolds_calm htcalm,
    countRemote_calm hsame htcalm, newNo_apply, Exec.get_apply, Place.home, hsend, Exec.pure_apply]

end Amsg

theorem rdrain_done {s : State} (hr : (s.slot s.cur).rsts = 0) (ht : (s.slot s.cur).tile? = none) :
    exec .rdrain s = .next (s.noteIssue.past 4) := by
  rw [exec_rdrain, execRdrain]
  refine runInstr_past ?_
  simp only [Exec.bind_apply, notLatent_issued ht, getSlot_apply, State.noteIssue_cur, State.noteIssue_slot_rsts, hr, decide_true, await_true,
    Exec.pure_apply]

theorem rdrain_waits {s : State} (hr : (s.slot s.cur).rsts ≠ 0) (ht : (s.slot s.cur).tile? = none) : exec .rdrain s = s.waits := by
  rw [exec_rdrain, execRdrain]
  refine runInstr_waits ?_
  simp only [Exec.bind_apply, notLatent_issued ht, getSlot_apply, State.noteIssue_cur, State.noteIssue_slot_rsts, decide_eq_false hr, await_false]

/-! ## Counts that come back (R160, R161, R407) -/

theorem rstReturn_slot {s : State} {r : Return} {rest : List Return} {x : Slot} (hr : s.returns = r :: rest) (href : r.ref = none)
    (hcrossing : s.crossing r.id = false) (honly : ∀ y ∈ s.slots, y.2.tid = r.tid → y.2.live = true → y = (r.slot, x))
    (hmem : (r.slot, x) ∈ s.slots) (htid : x.tid = r.tid) (hlive : x.live = true) :
    exec (.rstReturn 0) s = .next (State.modSlot { s with returns := rest } r.slot fun y => { y with rsts := y.rsts - 1 }) := by
  have hfind : s.slots.find? (fun y => y.2.tid == r.tid && y.2.live) = some (r.slot, x) := by
    cases hf : s.slots.find? (fun y => y.2.tid == r.tid && y.2.live) with
    | none =>
      refine absurd ?_ (List.find?_eq_none.1 hf _ hmem)
      rw [htid, hlive, beq_self_eq_true, Bool.and_self]
    | some y =>
      have hprop := List.find?_some hf
      rw [Bool.and_eq_true, beq_iff_eq] at hprop
      rw [honly y (List.mem_of_find?_eq_some hf) hprop.1 hprop.2]
  have htask (f : Slot → Slot) : State.modTask { s with returns := rest } r.tid f = State.modSlot { s with returns := rest } r.slot f := by
    rw [State.modTask, hfind]
  rw [exec_rstReturn, execRstReturn]
  refine runEvent_some ?_
  simp only [State.rstReturn, hr, List.getElem?_cons_zero, hcrossing, Bool.false_eq_true, if_false, List.eraseIdx_zero, List.tail_cons,
    htask, href]

/-! ## A message that starts, and one that takes too long (R161) -/

section Message

variable {s : State} {core : Nat} (hcore : core < 640)

/-- Slot 11 as message `m`, number `tid` of the tasks, starts in it. -/
def messageSlot (x : Slot) (m : Amsg) (tid : Nat) : Slot :=
  { x.kept with
    live := true, pcc := m.code, tid := tid
    n := (SMap.set 0#64 [] 0 m.v0).set 0#64 1 m.v1, pres := 3#16
    k := SMap.set Cap.null [] 0 m.target
    tenant := m.tenant, msgPart := some m.part
    msg := some { id := m.id, slot := m.slot, tid := m.tid, core := coreOf m.slot, ref := m.group, failed := false, home := m.home } }

theorem messageSlot_kreg (x : Slot) (m : Amsg) (tid : Nat) : (messageSlot x m tid).kreg 0 = m.target := SMap.get_set_self ..

theorem messageSlot_named (x : Slot) (m : Amsg) (tid : Nat) :
    (messageSlot x m tid).named 0 = m.v0 ∧ (messageSlot x m tid).named 1 = m.v1 := by
  refine ⟨?_, SMap.get_set_self ..⟩
  exact (SMap.get_set_ne (by decide)).trans (SMap.get_set_self ..)

/-- A message that nothing holds, and before which its slot sent none to the core that is still out, is the next there. -/
theorem nextMessage_head {m : Amsg} {ms : List Amsg} (hms : (s.core core).amsgs = m :: ms) (hholds : m.holds = [])
    (hfirst : ∀ k ∈ s.amsgs ++ m :: ms, k.slot = m.slot → k.core = core → m.id ≤ k.id) : s.nextMessage core = some m := by
  have hnone : ((s.amsgs ++ m :: ms).any fun k => k.slot == m.slot && k.core == core && decide (k.id < m.id)) = false := by
    rw [List.any_eq_false]
    intro k hk hbefore
    simp only [Bool.and_eq_true, beq_iff_eq, decide_eq_true_eq] at hbefore
    obtain ⟨⟨hslot, hcore⟩, hid⟩ := hbefore
    exact absurd (hfirst k hk hslot hcore) (Nat.not_le.2 hid)
  simp only [State.nextMessage, hms]
  exact List.find?_cons_of_pos (by rw [hnone, hholds]; rfl)

/-- The state in which message `m` has started in slot 11 of a core; the read cache of its task is empty (log 56). -/
def messageStarted (s : State) (core : Nat) (m : Amsg) : State :=
  (State.modSlot { s.modCore core fun c => { c with amsgs := c.amsgs.erase m } with fresh := s.fresh + 1 } (12 * core + 11)
    fun y => messageSlot y m s.fresh).modCore core fun c => { c with rcache := [] }

theorem messageStarted_slot (s : State) (core : Nat) (m : Amsg) :
    (messageStarted s core m).slot (12 * core + 11) = messageSlot (s.slot (12 * core + 11)) m s.fresh := by
  rw [messageStarted, State.slot_modCore, State.slot_modSlot_self]
  rfl

theorem messageStarted_amsgs {m : Amsg} {ms : List Amsg} (hms : (s.core core).amsgs = m :: ms) :
    ((messageStarted s core m).core core).amsgs = ms := by
  have herased : ((s.modCore core fun c => { c with amsgs := c.amsgs.erase m }).core core).amsgs = ms := by
    rw [State.core_modCore_self, hms, List.erase_cons_head]
  rw [messageStarted, State.core_modCore_self]
  exact herased

include hcore in
theorem amsgRun_starts {m : Amsg} (hidle : (s.slot (12 * core + 11)).live = false) (hnext : s.nextMessage core = some m) :
    exec (.amsgRun core) s = .next (messageStarted s core m) := by
  rw [exec_amsgRun, execAmsgRun, if_pos hcore]
  refine runEvent_some ?_
  rw [State.amsgRun, hidle, if_neg Bool.false_ne_true, hnext]
  rfl

/-- The handler of AMSGTIME lies below 2^52 wherever TBASE points (R203). -/
theorem enter_amsgTime_pc (x : Slot) : (x.enter .amsgTime 0#64 0).pc = x.tbase.toNat * 2 ^ 13 + 64 * 0x58 := by
  have hbase := x.tbase.isLt
  exact withCursor_cursor (show x.tbase.toNat * 2 ^ 13 + 64 * 0x58 < 2 ^ 52 by omega)

theorem amsgTimeout_traps {x : Slot} (hx : s.slot (12 * core + 11) = x) (hlive : x.live = true) (hissues : x.msgIssues = 65536)
    (hhandles : x.handles .amsgTime = true) : exec (.amsgTimeout core) s = .next ((s.modSlot (12 * core + 11) fun y =>
      { y with msgIssues := y.msgIssues + 1 }).modSlot (12 * core + 11) fun y => y.enter .amsgTime 0#64 0) := by
  have hslot : (s.modSlot (12 * core + 11) fun y => { y with msgIssues := y.msgIssues + 1 }).slot (12 * core + 11) =
      { x with msgIssues := x.msgIssues + 1 } := by rw [State.slot_modSlot_self, hx]
  rw [exec_amsgTimeout, execAmsgTimeout]
  refine runEvent_some ?_
  rw [State.amsgTimeout, hx, hlive, hissues]
  refine (if_pos rfl).trans ?_
  rw [State.takeTrap, hslot]
  exact if_pos hhandles

end Message

/-! ## Page walks (R165, R166) -/

section Walks

variable {s : State} {core tenant va p : Nat} (hcore : core < 640) (ht : tenant < 16) (hva : va < 2 ^ 52) (hpart : s.partOf core = p)

theorem tlb_misses (h : ∀ e ∈ (s.core core).tlb, e.hit p tenant va = false) :
    (s.core core).tlb.find? (fun e => e.hit p tenant va) = none :=
  List.find?_eq_none.2 fun e he hit => by rw [h e he] at hit; exact Bool.false_ne_true hit

/-- A miss takes the end of the walk in flight, a fault too. -/
theorem translate_inFlight {w : PageWalk} (hw : s.inFlight (dieOf core) p tenant va = some w) (hfound : w.found = .fault)
    (hmiss : ∀ e ∈ (s.core core).tlb, e.hit p tenant va = false) : s.translate (some core) p tenant va = (.fault, s) := by
  simp only [State.translate, tlb_misses hmiss, hw, Option.elim_some, hfound, WalkEnd.at]

include hcore ht hva hpart

theorem pageWalk_starts (hnone : s.inFlight (dieOf core) p tenant va = none)
    (hmiss : ∀ e ∈ (s.core core).tlb, e.hit p tenant va = false) (hroom : (s.pageWalks.filter fun w => w.die == dieOf core).length < 64) :
    exec (.pageWalk core tenant va) s = .next { s with pageWalks := s.pageWalks ++
      [{ die := dieOf core, part := p, tenant := tenant, page := va / 2 ^ 16, core := core, found := (s.walk p tenant va).found }] } := by
  have hno : ((s.core core).tlb.any fun e => e.hit p tenant va) = false :=
    List.any_eq_false.2 fun e he hit => by rw [hmiss e he] at hit; exact Bool.false_ne_true hit
  rw [exec_pageWalk, execPageWalk]
  refine runEvent_some ?_
  rw [State.pageWalk, if_pos ⟨hcore, ht, hva⟩, hpart, hnone]
  exact if_neg (by rw [hno, Bool.false_or, decide_eq_true_iff]; omega)

section WalkEnds

variable {w : PageWalk} (hw : s.inFlight (dieOf core) p tenant va = some w)

include hw

theorem pageWalk_fills {pte : U64} {lvl : Nat} (hfound : w.found = .leaf pte lvl) : exec (.pageWalk core tenant va) s =
    .next (State.cacheLeaf { s with pageWalks := s.pageWalks.erase w } core p tenant va lvl pte) := by
  rw [exec_pageWalk, execPageWalk]
  refine runEvent_some ?_
  simp only [State.pageWalk, if_pos (⟨hcore, ht, hva⟩ : core < 640 ∧ tenant < 16 ∧ va < 2 ^ 52), hpart, hw, hfound]

theorem pageWalk_faults (hfound : w.found = .fault) :
    exec (.pageWalk core tenant va) s = .next { s with pageWalks := s.pageWalks.erase w } := by
  rw [exec_pageWalk, execPageWalk]
  refine runEvent_some ?_
  simp only [State.pageWalk, if_pos (⟨hcore, ht, hva⟩ : core < 640 ∧ tenant < 16 ∧ va < 2 ^ 52), hpart, hw, hfound]

end WalkEnds

end Walks

/-- Settles O22: RST and AMSG from the state that has counted them, and each event by its own lemma. -/
theorem remoteOperations : Obligations.RemoteOperations := by
  refine ⟨fun s t t1 size ka kb b x p c k hcalm hx hc hk ht1 hcounted => ?_, fun s core r rest m ms x hcore => ?_⟩
  · subst hc hk
    obtain rfl : t1 = remoteCounted s t := ht1
    refine ⟨fun hp => ⟨fun key pc va hmem => ?_, fun cur hremote => ?_, fun o core i hdev ho hsize => ?_⟩,
      fun hp htag hspace hexec heven hbase htop => ⟨fun key pc va hmem => ?_, fun cur hremote => ?_⟩, rdrain_done, rdrain_waits⟩
    · subst hmem
      exact rst_sends hcalm hx hp (storePlace_mem hcounted _ _ key pc va false true)
    · subst hremote
      exact rst_sends hcalm hx hp (storePlace_remote hcounted _ _ cur)
    · subst hdev hsize
      have hsent := storePlace_device hcounted (s.cap ka).cursor (toBytes (2 ^ (3#2).toNat) x.toNat) o true (kind := .mailbox core i x) (by
        rw [ofBytes_toBytes]
        exact (congrArg _ (Nat.mod_eq_of_lt x.isLt)).trans (storeKind_mbx ho _))
      rw [home_device ho] at hsent
      exact rst_sends hcalm hx hp hsent
    · have hcode (u : State) := checkCode_met u htag hspace hexec heven hbase htop
      have hcur := remoteCounted_cur (place_same hp)
      refine ⟨_, amsg_mem hcalm hp hcode hmem, rfl, rfl, rfl, rfl, rfl, ?_, ?_, hcur, ?_, ?_, toHome_calm hcounted _⟩
      · exact congrArg (List.getD · 0 0#64) (State.noteIssue_slot_rq ..)
      · exact congrArg (List.getD · 1 0#64) (State.noteIssue_slot_rq ..)
      · exact State.noteIssue_slot_tenant ..
      · exact (congrArg _ hcur).trans (remoteCounted_partOfSlot (place_same hp))
    · exact amsg_remote hcalm hp (fun u => checkCode_met u htag hspace hexec heven hbase htop) hcounted hremote
  · refine ⟨rstReturn_slot, fun hidle hms hholds hfirst => ?_, fun hx hlive hissues hhandles => ?_,
      fun tenant va q htenant hva hq => ⟨?_, ?_⟩⟩
    · refine ⟨_, _, amsgRun_starts hcore hidle (nextMessage_head hms hholds hfirst), messageStarted_slot .., rfl, rfl,
        messageSlot_kreg .., (messageSlot_named ..).1, (messageSlot_named ..).2, rfl, rfl, rfl, rfl, messageStarted_amsgs hms⟩
    · refine ⟨_, amsgTimeout_traps hx hlive hissues hhandles, ?_, ?_⟩
      · rw [State.slot_modSlot_self]
        rfl
      · rw [State.slot_modSlot_self, enter_amsgTime_pc, State.slot_modSlot_self, hx]
    · exact pageWalk_starts hcore htenant hva hq
    · intro w hw
      refine ⟨fun pte lvl hfound hroom => ?_, fun hfault =>
        ⟨pageWalk_faults hcore htenant hva hq hw hfault, translate_inFlight hw hfault⟩⟩
      exact (pageWalk_fills hcore htenant hva hq hw hfound).trans (congrArg Host.Outcome.next (if_pos hroom))

end Sys2Proof.Laws

/-! # The end of a task (R161, R184, R185, R219) -/

namespace Sys2Proof.Laws

open Sys2Proof.Machine

/-! ## What DONE waits for (R184) -/

section Drain

variable {s : State} {g : Nat}

theorem endsLaunch_task (h : (s.slot g).phase = .task) : s.endsLaunch g = none := by
  rw [State.endsLaunch, h]

/-- With nothing in flight, DONE waits only for the home of its completion record. -/
theorem drain_quiet (hflight : s.flight = []) (hphase : (s.slot g).phase = .task)
    (hsent : ∀ r ∈ s.endsIn g, ∀ x ∈ s.hwPlace r.part r.tenant (s.groupAddr r) [], s.messageTo g (homeOf x.1) s.fresh = false)
    (hready : ∀ r ∈ s.endsIn g, s.stepReady (coreOf g) r.part r.tenant (s.groupAddr r) 32 = true) : s.drain g = some s := by
  have hout (f : Access → Bool) : s.upToLast g f = [] := State.upToLast_nil f (by rw [hflight]; exact fun _ h => absurd h (List.not_mem_nil))
  have hend : s.endReady g = true := by
    rw [State.endReady, endsLaunch_task hphase, Option.all_none, Bool.and_true]
    exact (Option.all_eq_true ..).2 hready
  have hquiet : (((s.endsIn g).bind fun r => (s.hwPlace r.part r.tenant (s.groupAddr r) []).map fun x => homeOf x.1).any
      fun h => s.messageTo g h s.fresh) = false := by
    cases hr : s.endsIn g with
    | none => rfl
    | some r =>
      cases hx : s.hwPlace r.part r.tenant (s.groupAddr r) [] with
      | none => simp only [Option.bind_some, hx, Option.map_none, Option.any_none]
      | some x => simpa only [Option.bind_some, hx, Option.map_some, Option.any_some] using hsent r hr x hx
  rw [State.drain, hquiet, if_neg Bool.false_ne_true, hout, State.performAll, Option.filter_some, hend, if_pos rfl]

theorem drain_calm (h : s.calm) (hflight : s.flight = []) (hphase : (s.slot s.cur).phase = .task) : s.drain s.cur = some s := by
  obtain ⟨-, -, -, -, habsent, -, hhomes⟩ := h
  refine drain_quiet hflight hphase (fun r _ x _ => ?_) fun r _ => ?_
  · obtain ⟨-, -, hsent⟩ := hhomes (homeOf x.1)
    exact hsent _
  · rw [State.stepReady, Option.all_eq_true]
    intro x _
    obtain ⟨hheld, hfree, -⟩ := hhomes (homeOf x.1)
    rw [State.stepAt, hheld, hfree, State.fillWaits_nil habsent]
    rfl

/-- A message ends in no completion record. -/
theorem drain_message (hslot : slotNo g = 11) (hflight : s.flight = []) (hphase : (s.slot g).phase = .task) : s.drain g = some s := by
  have hnone : s.endsIn g = none := if_pos (.inr hslot)
  refine drain_quiet hflight hphase ?_ ?_
  · simp [hnone]
  · simp [hnone]

end Drain

/-! ## DONE -/

section Done

variable {s : State}

theorem done_slotZero (tv : U64) (h : slotNo s.cur = 0) : done tv s = .error (.trap .illop tv) := by
  simp only [done, Exec.bind_apply, roleIs, slotNumber_apply, h, ne_eq, not_true_eq_false, decide_false, require_false]

section Drained

variable (tv : U64) (h : slotNo s.cur ≠ 0) (hphase : (s.slot s.cur).phase = .task) (hdrain : s.drain s.cur = some s)

include h hphase hdrain

theorem done_mcheck {v : U64} (hm : (s.slot s.cur).mcheck = some v) : done tv s = .error (.trap .mcheck v) := by
  simp only [done, Exec.bind_apply, roleIs, slotNumber_apply, decide_eq_true h, require_true, Exec.get_apply, hphase, hdrain, unlessBad, hm,
    trap_apply]

theorem done_ends (hm : (s.slot s.cur).mcheck = none) : done tv s = .ok (.ended,
    if slotNo s.cur = 11 then s.endMessage s.cur false else s.endTask s.cur (s.slot s.cur).inTrap) := by
  simp only [done, Exec.bind_apply, roleIs, slotNumber_apply, decide_eq_true h, require_true, Exec.get_apply, hphase, hdrain, unlessBad, hm,
    Exec.pure_apply, Exec.set_apply]

end Drained

theorem done_slotZero_traps (h : slotNo s.cur = 0) :
    exec .done s = s.traps 4 .illop (wordVal (encode .done)) ∧ exec .doneC s = s.traps 2 .illop (wordVal (encode .doneC)) := by
  rw [exec_done, execDone, exec_doneC, execDoneC]
  exact ⟨runInstr_traps (done_slotZero _ h), runInstr_traps (done_slotZero _ h)⟩

/-- DONE and DONE.c trap as the body that they share. -/
theorem done_traps {c : Cause} {v : U64} (h : ∀ tv, done tv s.noteIssue = .error (.trap c v)) :
    exec .done s = s.traps 4 c v ∧ exec .doneC s = s.traps 2 c v := by
  rw [exec_done, execDone, exec_doneC, execDoneC]
  exact ⟨runInstr_traps (h _), runInstr_traps (h _)⟩

/-- DONE and DONE.c end what the slot runs alike. -/
theorem done_next {t : State} (h : ∀ tv, done tv s.noteIssue = .ok (.ended, t)) : exec .done s = .next t ∧ exec .doneC s = .next t := by
  rw [exec_done, execDone, exec_doneC, execDoneC]
  exact ⟨runInstr_ok (h _), runInstr_ok (h _)⟩

/-! ## What the end of a task or a message leaves (R161, R174, R184, R219) -/

/-- The current slot idle, and the tile state of its pair not kept for its tenant. -/
def taskLeft (s : State) : State :=
  (s.modQuad (quadOf (coreOf s.cur)) fun q => { q with keep := q.keep.set false (s.slot s.cur).tenant false }).modSlot s.cur Slot.idle

theorem discardUnbound_none (h : s.engines = []) (tid : Nat) : s.discardUnbound tid = s := by
  rw [State.discardUnbound, h]
  exact congrArg (fun e => { s with engines := e }) h.symm

theorem returnBorrow_none {g : Nat} (h : (s.slot g).borrow = none) : s.returnBorrow g = s := by
  rw [State.returnBorrow, h]

section Ends

variable (hborrow : (s.slot s.cur).borrow = none)

include hborrow

section Task

variable (hphase : (s.slot s.cur).phase = .task) (hengines : s.engines = []) (trapped : Bool)

include hphase hengines

theorem endTask_ungrouped (hg : groupRef (s.partOfSlot s.cur) (s.slot s.cur).tenant (s.slot s.cur).group = none) :
    s.endTask s.cur trapped = taskLeft s := by
  simp only [State.endTask, returnBorrow_none hborrow, discardUnbound_none hengines, hphase, hg]
  rfl

theorem endTask_grouped {r : GroupRef} (hg : groupRef (s.partOfSlot s.cur) (s.slot s.cur).tenant (s.slot s.cur).group = some r) :
    s.endTask s.cur trapped =
      (taskLeft s).groupNow { ref := r, delta := -1, failed := trapped, trapped := trapped, core := coreOf s.cur } := by
  simp only [State.endTask, returnBorrow_none hborrow, discardUnbound_none hengines, hphase, hg]
  rfl

end Task

theorem endMessage_quiet {m : Return} (hm : (s.slot s.cur).msg = some m) (hparting : (s.quad (quadOf (coreOf s.cur))).parting = none) :
    s.endMessage s.cur false =
      (taskLeft s).sendBack { m with failed := false } ((taskLeft s).partOfSlot m.slot) (s.slot s.cur).tenant m.home := by
  have hquit : (taskLeft s).quitPair (coreOf s.cur) = taskLeft s := by
    have hnone : ((taskLeft s).quad (quadOf (coreOf s.cur))).parting = none := by
      rw [taskLeft, State.quad_modSlot, State.quad_modQuad, if_pos rfl]
      exact hparting
    rw [State.quitPair, hnone]
  have hleft : (s.leaves s.cur false).setSlot s.cur (s.slot s.cur).idle = taskLeft s := rfl
  simp only [State.endMessage, returnBorrow_none hborrow, hleft, hquit, hm]

end Ends

end Done

section Outcomes

variable {s : State} {x : Slot} (hx : s.slot s.cur = x) (hphase : x.phase = .task)

include hx

theorem taskLeft_issued : taskLeft s.noteIssue = (s.noteIssue.modQuad (quadOf (coreOf s.cur)) fun q =>
    { q with keep := q.keep.set false x.tenant false }).modSlot s.cur Slot.idle := by
  rw [taskLeft, State.noteIssue_cur, State.noteIssue_slot_tenant, hx]

include hphase

theorem issued_phase : (s.noteIssue.slot s.noteIssue.cur).phase = .task := by
  rw [State.noteIssue_cur, State.noteIssue_slot_phase, hx, hphase]

/-- DONE of a calm task that has an MCHECK to raise (R148). -/
theorem done_reports (hflight : s.flight = []) (h : slotNo s.cur ≠ 0) (hcalm : s.calm) {v : U64} (hm : x.mcheck = some v) :
    exec .done s = s.traps 4 .mcheck v ∧ exec .doneC s = s.traps 2 .mcheck v := by
  have hphase' := issued_phase hx hphase
  have hm' : (s.noteIssue.slot s.noteIssue.cur).mcheck = some v := by rw [State.noteIssue_cur, State.noteIssue_slot_mcheck, hx, hm]
  have hdrain := drain_calm (State.calm_noteIssue hcalm) hflight hphase'
  exact done_traps fun tv => done_mcheck (s := s.noteIssue) tv h hphase' hdrain hm'

section Ended

variable (hflight : s.flight = []) (hborrow : x.borrow = none) (hm : x.mcheck = none)

include hm

/-- DONE with nothing to wait for and no MCHECK to raise. -/
theorem done_settles (h : slotNo s.cur ≠ 0) (hdrain : s.noteIssue.drain s.noteIssue.cur = some s.noteIssue) {t : State}
    (ht : (if slotNo s.cur = 11 then s.noteIssue.endMessage s.noteIssue.cur false
      else s.noteIssue.endTask s.noteIssue.cur x.inTrap) = t) : exec .done s = .next t ∧ exec .doneC s = .next t := by
  have hm' : (s.noteIssue.slot s.noteIssue.cur).mcheck = none := by rw [State.noteIssue_cur, State.noteIssue_slot_mcheck, hx, hm]
  have htrap : (s.noteIssue.slot s.noteIssue.cur).inTrap = x.inTrap := by rw [State.noteIssue_cur, State.noteIssue_slot_inTrap, hx]
  subst ht
  rw [← htrap]
  exact done_next fun tv => done_ends (s := s.noteIssue) tv h (issued_phase hx hphase) hdrain hm'

include hflight hborrow

theorem done_message (h : slotNo s.cur = 11) {m : Return} (hmsg : x.msg = some m)
    (hparting : (s.quad (quadOf (coreOf s.cur))).parting = none) {t : State}
    (ht : (taskLeft s.noteIssue).sendBack { m with failed := false } ((taskLeft s.noteIssue).partOfSlot m.slot) x.tenant m.home = t) :
    exec .done s = .next t ∧ exec .doneC s = .next t := by
  have hborrow' : (s.noteIssue.slot s.noteIssue.cur).borrow = none := by rw [State.noteIssue_cur, State.noteIssue_slot_borrow, hx, hborrow]
  have hmsg' : (s.noteIssue.slot s.noteIssue.cur).msg = some m := by rw [State.noteIssue_cur, State.noteIssue_slot_msg, hx, hmsg]
  refine done_settles hx hphase hm (by rw [h]; decide) (drain_message h hflight (issued_phase hx hphase)) ?_
  rw [if_pos h, endMessage_quiet hborrow' hmsg' hparting, State.noteIssue_cur, State.noteIssue_slot_tenant, hx, ht]

section Task

variable (h : slotNo s.cur ≠ 0) (h11 : slotNo s.cur ≠ 11) (hengines : s.engines = []) (hcalm : s.calm)

include h h11 hengines hcalm

theorem done_ungrouped (hgroup : groupRef (s.partOfSlot s.cur) x.tenant x.group = none) :
    exec .done s = .next (taskLeft s.noteIssue) ∧ exec .doneC s = .next (taskLeft s.noteIssue) := by
  have hborrow' : (s.noteIssue.slot s.noteIssue.cur).borrow = none := by rw [State.noteIssue_cur, State.noteIssue_slot_borrow, hx, hborrow]
  have hphase' := issued_phase hx hphase
  refine done_settles hx hphase hm h (drain_calm (State.calm_noteIssue hcalm) hflight hphase') ?_
  rw [if_neg h11]
  refine endTask_ungrouped hborrow' hphase' hengines _ ?_
  rw [State.noteIssue_cur, State.noteIssue_partOfSlot, State.noteIssue_slot_tenant, State.noteIssue_slot_group, hx, hgroup]

theorem done_grouped {r : GroupRef} (hgroup : groupRef (s.partOfSlot s.cur) x.tenant x.group = some r) {t : State}
    (ht : (taskLeft s.noteIssue).groupNow { ref := r, delta := -1, failed := x.inTrap, trapped := x.inTrap, core := coreOf s.cur } = t) :
    exec .done s = .next t ∧ exec .doneC s = .next t := by
  have hborrow' : (s.noteIssue.slot s.noteIssue.cur).borrow = none := by rw [State.noteIssue_cur, State.noteIssue_slot_borrow, hx, hborrow]
  have hphase' := issued_phase hx hphase
  refine done_settles hx hphase hm h (drain_calm (State.calm_noteIssue hcalm) hflight hphase') ?_
  rw [if_neg h11, ← ht]
  refine endTask_grouped hborrow' hphase' hengines _ ?_
  rw [State.noteIssue_cur, State.noteIssue_partOfSlot, State.noteIssue_slot_tenant, State.noteIssue_slot_group, hx, hgroup]

end Task

end Ended

end Outcomes

/-! ## YIELD (R185, R217, R218) -/

/-- What a save of slot `g` leaves of `s`: the slot idle, the tile state of its pair kept for its tenant. -/
def saveLeft (s : State) (g : Nat) : State := (s.leaves g true).setSlot g (s.slot g).kept

theorem saveLeft_cluster (s : State) (g cl : Nat) : (saveLeft s g).cluster cl = s.cluster cl := rfl

theorem saveLeft_cur (s : State) (g : Nat) : (saveLeft s g).cur = s.cur := rfl

theorem saveLeft_live (s : State) (g : Nat) : ((saveLeft s g).slot g).live = false := by
  rw [saveLeft, State.slot_setSlot_self]
  rfl

/-- What a save in full keeps of a slot that nothing holds, and what it leaves. -/
theorem save_quiet {s : State} {g : Nat} (hwait : (s.slot g).wait = .none) (hborrow : (s.slot g).borrow = none)
    (htile : (s.slot g).tile? = none) (hflight : s.flight = []) (hengines : s.engines = []) (habsent : s.absent = []) :
    ∃ sv, s.save g none = some (sv, saveLeft s g) ∧
      sv.slot = { s.slot g with preempt := none, stopped := none, blocked := false, seen := [] } := by
  have hunhold : s.unhold g = s := by rw [State.unhold, hwait]
  have hout (f : Access → Bool) : s.upToLast g f = [] := State.upToLast_nil f (by rw [hflight]; exact fun _ h => absurd h List.not_mem_nil)
  have hcards : s.saveWaits g none = false := by rw [State.saveWaits, State.cardWrites, State.cards, hengines]; rfl
  have hpieces : ((s.savedPieces g none).any fun p => s.fillWaits p.1 p.2) = false :=
    List.any_eq_false.2 fun p _ => by rw [State.fillWaits_nil habsent]; exact Bool.false_ne_true
  have hfill : (s.savedPieces g none).foldl (fun u p => u.fillFor p.1 p.2) s = s := State.fillFor_nil habsent ..
  have hmoved : s.moveLatent (s.slot g) g 0 = s := by rw [State.moveLatent, htile]
  simp only [State.save, hunhold, returnBorrow_none hborrow, hout, State.performAll, hcards, hpieces, Bool.or_self, Bool.false_eq_true,
    if_false, hfill, hmoved]
  exact ⟨_, rfl, rfl⟩

/-- An entry queued in a cluster with nothing queued is the only one there. -/
theorem enqueue_empty {s : State} {cl : Nat} (e : Entry) (hhold : (s.cluster cl).hold = none) (hring : (s.cluster cl).ring = [])
    (hready : (s.cluster cl).ready = []) : s.enqueue cl e =
      some (State.modCluster { s with fresh := s.fresh + 1 } cl fun c => splitQueue c [{ e with seq := s.fresh }]) := by
  have hset : State.setAll { s with fresh := s.fresh + 1 } cl [{ e with seq := s.fresh }] =
      State.modCluster { s with fresh := s.fresh + 1 } cl fun c => splitQueue c [{ e with seq := s.fresh }] := by
    rw [State.setAll, show (State.cluster { s with fresh := s.fresh + 1 } cl).ring = [] from hring]
    rfl
  rw [State.enqueue, hhold, hring, hready]
  exact congrArg some hset

/-- A slot as a YIELD of 4 bytes saves it, with its new deadline and budget (log 90). -/
def yielded (x : Slot) (dl bu : U64) : Slot :=
  { x.advance 4 with
    dline := dl, issues := bu.setWidth 32, limited := decide (bu.setWidth 32 ≠ 0#32), admitted := false, charge := 0, chargeFrac := 0
    grace := false }

theorem yielded_tile (x : Slot) (dl bu : U64) : (yielded x dl bu).tile? = x.tile? := rfl

theorem yielded_wait (x : Slot) (dl bu : U64) : (yielded x dl bu).wait = x.wait := rfl

theorem yielded_borrow (x : Slot) (dl bu : U64) : (yielded x dl bu).borrow = x.borrow := rfl

theorem yielded_rq (x : Slot) (dl bu : U64) : (yielded x dl bu).rq = x.rq := rfl

theorem yielded_n (x : Slot) (dl bu : U64) : (yielded x dl bu).n = x.n := rfl

theorem yielded_k (x : Slot) (dl bu : U64) : (yielded x dl bu).k = x.k := rfl

/-- The state in which a YIELD has issued and given its slot the new deadline and budget. -/
def yieldState (s : State) (dl bu : U64) : State := s.noteIssue.modSlot s.cur fun x => yielded x dl bu

section Yield

variable (s : State) (dl bu : U64)

theorem yieldState_cur : (yieldState s dl bu).cur = s.cur := rfl

theorem yieldState_slot : (yieldState s dl bu).slot s.cur = yielded (s.noteIssue.slot s.cur) dl bu := State.slot_modSlot_self ..

theorem yieldState_flight : (yieldState s dl bu).flight = s.flight := by rw [yieldState, State.modSlot_flight, State.noteIssue_flight]

theorem yieldState_engines : (yieldState s dl bu).engines = s.engines := by rw [yieldState, State.modSlot_engines, State.noteIssue_engines]

theorem yieldState_absent : (yieldState s dl bu).absent = s.absent := by rw [yieldState, State.modSlot_absent, State.noteIssue_absent]

theorem yieldState_cluster (cl : Nat) : (yieldState s dl bu).cluster cl = s.cluster cl := by
  rw [yieldState, State.cluster_modSlot, State.cluster_noteIssue]

end Yield

section Queues

variable {s : State} {a b : Src} {dl bu : U64} {x : Slot} (ha : s.reads a = some dl) (hb : s.reads b = some bu) (hlo : 1 ≤ slotNo s.cur)
  (hhi : slotNo s.cur ≤ 10)

include ha hb hlo hhi

theorem yield_next (htile : (s.slot s.cur).tile? = none) {sv : Saved} {t u : State}
    (hsave : (yieldState s dl bu).save s.cur none = some (sv, t)) (hcur : t.cur = s.cur)
    (hqueue : t.enqueue (clusterOf (coreOf s.cur))
      { job := (yieldState s dl bu).contRec s.cur ((yieldState s dl bu).slot s.cur), cont := some { sv with core := none } } = some u) :
    exec (.yield a b) s = .next u := by
  rw [exec_yield, execYield]
  refine runInstr_ok (f := .ended) ?_
  have hrole : (decide (1 ≤ slotNo s.cur) && decide (slotNo s.cur ≤ 10)) = true := by rw [decide_eq_true hlo, decide_eq_true hhi]; rfl
  simp only [yieldState, yielded] at hsave hqueue
  simp only [Exec.bind_apply, src_issued ha, src_issued hb, roleIs, slotNumber_apply, State.noteIssue_cur, hrole, require_true,
    notLatent_issued htile, modSlot_apply, Exec.get_apply, State.modSlot_cur, hsave, hcur, hqueue, orWait, Exec.set_apply, Exec.pure_apply]

/-- A YIELD that nothing holds queues the slot, with its new deadline and budget, and leaves it idle. -/
theorem yield_queues (hx : s.slot s.cur = x) (hflight : s.flight = []) (hborrow : x.borrow = none) (hphase : x.phase = .task)
    (hwait : x.wait = .none) (hengines : s.engines = []) (habsent : s.absent = [])
    (hhold : (s.cluster (clusterOf (coreOf s.cur))).hold = none) (hring : (s.cluster (clusterOf (coreOf s.cur))).ring = [])
    (hready : (s.cluster (clusterOf (coreOf s.cur))).ready = []) :
    ∃ t e sv, exec (.yield a b) s = .next t ∧ (t.cluster (clusterOf (coreOf s.cur))).ready = [e] ∧ e.cont = some sv ∧ sv.core = none ∧
      sv.slot = { yielded (s.noteIssue.slot s.cur) dl bu with preempt := none, stopped := none, blocked := false, seen := [] } ∧
      (t.slot s.cur).live = false := by
  have htile : (s.slot s.cur).tile? = none := by rw [hx, Slot.tile?, hphase]
  have hslot := yieldState_slot s dl bu
  obtain ⟨sv, hsave, hsv⟩ := save_quiet (by rw [hslot, yielded_wait, State.noteIssue_slot_wait, hx, hwait])
    (by rw [hslot, yielded_borrow, State.noteIssue_slot_borrow, hx, hborrow]) (by rw [hslot, yielded_tile, State.noteIssue_tile, htile])
    ((yieldState_flight ..).trans hflight) ((yieldState_engines ..).trans hengines) ((yieldState_absent ..).trans habsent)
  have hcur := (saveLeft_cur (yieldState s dl bu) s.cur).trans (yieldState_cur ..)
  have hcluster := (saveLeft_cluster (yieldState s dl bu) s.cur (clusterOf (coreOf s.cur))).trans (yieldState_cluster ..)
  have hlive := saveLeft_live (yieldState s dl bu) s.cur
  rw [hslot] at hsv
  generalize saveLeft (yieldState s dl bu) s.cur = w at hsave hcur hcluster hlive
  rw [← hcluster] at hhold hring hready
  let e : Entry := { job := (yieldState s dl bu).contRec s.cur ((yieldState s dl bu).slot s.cur), cont := some { sv with core := none } }
  refine ⟨_, { e with seq := w.fresh }, { sv with core := none },
    yield_next ha hb hlo hhi htile hsave hcur (enqueue_empty _ hhold hring hready), ?_, rfl, rfl, hsv, hlive⟩
  rw [State.cluster_modCluster, if_pos rfl]
  rfl

end Queues

end Sys2Proof.Laws

/-! # DLINE, SELF, GANG and SUBMIT (R180, R188, R189, R193, R240) -/

namespace Sys2Proof.Laws

open Sys2Proof.Machine

/-! ## DLINE and SELF (R189) -/

theorem dline_gives {s : State} {d : Dst} {a : Src} {x : U64} (hx : s.reads a = some x) : exec (.dline d a) s =
    s.gives 4 d (BitVec.ofNat 64 (min ((s.cycle (dieOf (coreOf s.cur))).toNat + x.toNat) (2 ^ 64 - 2))) := by
  rw [exec_dline, execDline]
  refine runInstr_gives ?_
  simp only [Exec.bind_apply, src_issued hx, Exec.get_apply, dst_apply, State.noteIssue_cur, State.noteIssue_cycle, Exec.pure_apply]

theorem self_writes (s : State) (kd : BitVec 3) : exec (.self kd) s =
    .next (s.done 4 fun y => { y with k := y.k.set Cap.null kd.toNat (selfCap (slotNo s.cur) (s.slot s.cur)) }) := by
  have hcap : selfCap (slotNo s.cur) (s.noteIssue.slot s.cur) = selfCap (slotNo s.cur) (s.slot s.cur) := by
    rw [selfCap, State.noteIssue_slot_phase, State.noteIssue_slot_taskRec, selfCap]
  rw [exec_self, execSelf]
  refine runInstr_done ?_
  simp only [Exec.bind_apply, Exec.get_apply, setK_apply, State.noteIssue_cur, hcap, Exec.pure_apply]

theorem selfCap_null {slot : Nat} (x : Slot) (h : slot = 0 ∨ slot = 11) : selfCap slot x = Cap.null :=
  if_pos (h.imp_right .inl)

theorem selfCap_task {slot : Nat} {x : Slot} {r : Cap} (h : slot ≠ 0) (h11 : slot ≠ 11) (hphase : x.phase = .task)
    (hr : capFor 0 43 x.taskRec.toNat x.taskRec.toNat (x.taskRec.toNat + 64) = some r) : selfCap slot x = r := by
  rw [selfCap, if_neg (by simp [h, h11, hphase]), hr, Option.getD_some]

/-! ## The steps of a descriptor (R193, R240) -/

/-- A list is gone through up to the first member that stops. -/
theorem eachM_stops {α β : Type} {f : α → Exec β} {s : State} {e : Stop} {a : α} (l' : List α) :
    ∀ l : List α, (∀ b ∈ l, ∃ o, f b s = .ok (o, s)) → f a s = .error e → eachM f (l ++ a :: l') s = .error e
  | [], _, ha => by simp only [List.nil_append, eachM, Exec.bind_apply, ha]
  | b :: l, hl, ha => by
    obtain ⟨o, ho⟩ := hl b List.mem_cons_self
    have ih := eachM_stops l' l (fun c hc => hl c (List.mem_cons_of_mem _ hc)) ha
    simp only [List.cons_append, eachM, Exec.bind_apply, ho, ih]

theorem eachM_range_stops {β : Type} {f : Nat → Exec β} {s : State} {e : Stop} {k n : Nat} (hk : k < n)
    (hbefore : ∀ j < k, ∃ o, f j s = .ok (o, s)) (h : f k s = .error e) : eachM f (List.range n) s = .error e := by
  obtain ⟨m, rfl⟩ := Nat.exists_eq_add_of_lt hk
  rw [Nat.add_assoc, List.range_add, List.range_succ_eq_map, List.map_cons, Nat.add_zero]
  exact eachM_stops _ _ (fun j hj => hbefore j (List.mem_range.1 hj)) h

section Steps

variable {s t : State} {key : Nat} {keep : Bool} {va : Option Nat}

/-- What a calm slot sees of an object is what memory holds. -/
theorem look_calm (h : s.calm) (r : RecordAt) (n : Nat) :
    look r n s = .ok ({ loc := r, bytes := s.bytes r.key n, tags := (List.range (n / 16)).map fun i => r.keep && s.tagAt (r.key + 16 * i) }, s) := by
  simp only [look, Exec.bind_apply, readBytes_calm h, Exec.get_apply, Exec.pure_apply]

theorem object_same (h : s.noteIssue.sameButTlb t) (addr n : Nat) : t.object key keep va addr n = s.object key keep va addr n := by
  have htag (k : Nat) : t.tagAt k = s.tagAt k := by rw [State.tagAt, tags_same h]; rfl
  have hbytes : t.bytes key n = s.bytes key n := h.bytes ..
  simp only [State.object, hbytes, htag]

theorem saw_issued (s : State) (i : Nat) : (s.noteIssue.slot s.noteIssue.cur).saw i = (s.slot s.cur).saw i := by
  rw [Slot.saw, Slot.saw, State.noteIssue_cur, State.noteIssue_slot_seen]

variable (hcalm : s.calm) {k : Cap}

include hcalm

theorem descriptorHead_reads (hsaw : (s.slot s.cur).saw 0 = none)
    (hp : place k k.cursor 64 descriptorNeed [1] s.noteIssue = .ok (.mem key keep va, t)) :
    descriptorHead k s.noteIssue =
      .error (.again (t.modSlot t.cur fun y => { y with seen := y.seen ++ [(0, s.object key keep va k.cursor 64)] })) := by
  have hsame := place_same hp
  have htcalm := hsame.calm (State.calm_noteIssue hcalm)
  refine inStep_new ((saw_issued s 0).trans hsaw) ?_
  simp only [Exec.bind_apply, hp, releaseWait_calm htcalm, beforeRead_calm htcalm, look_calm htcalm]
  exact congrArg (fun o => Except.ok (o, t)) (object_same hsame ..)

theorem descriptorRec_reads {v i : Nat} (hp : locate (s.who s.cur) k.space (v + 64 * i) 64 [1] s.noteIssue = .ok (.mem key keep va, t)) :
    descriptorRec k v i s.noteIssue = .ok (s.object key keep va (s.globalAddr (s.partOfSlot s.cur) k.space (v + 64 * i)) 64, t) := by
  have hsame := locate_same hp
  have htcalm := hsame.calm (State.calm_noteIssue hcalm)
  simp only [descriptorRec, Exec.bind_apply, Exec.get_apply, State.noteIssue_cur, State.noteIssue_who, hp, beforeRead_calm htcalm, look_calm htcalm,
    State.noteIssue_partOfSlot]
  exact congrArg (fun o => Except.ok (o, t)) (object_same hsame ..)

end Steps

theorem descriptorHead_seen {s : State} {k : Cap} {h : Seen} (hsaw : (s.slot s.cur).saw 0 = some h) :
    descriptorHead k s.noteIssue = .ok (h, s.noteIssue) := inStep_seen ((saw_issued s 0).trans hsaw)

theorem descriptorAt_head {s : State} {step : Nat → Exec Seen → Exec Seen} {k : Cap} {lo hi : Nat} {w : State}
    (h : descriptorHead k s.noteIssue = .error (.again w)) : descriptorAt step k lo hi s.noteIssue = .error (.again w) := by
  rw [descriptorAt, Exec.bind_apply, h]

/-- A descriptor's next record, read in a step of its own. -/
theorem descriptorAt_reads {s t : State} {k : Cap} {lo hi i v : Nat} {h : Seen} {key : Nat} {keep : Bool} {va : Option Nat} (hcalm : s.calm)
    (hhead : (s.slot s.cur).saw 0 = some h)
    (hcheck : checkCap k k.cursor (64 * (descriptorCount lo hi h.bytes + 1)) descriptorNeed s.noteIssue = .ok (v, s.noteIssue)) (hone : 1 ≤ i)
    (hle : i ≤ descriptorCount lo hi h.bytes) (hbefore : ∀ j, 1 ≤ j → j < i → ∃ e, (s.slot s.cur).saw j = some e)
    (hsaw : (s.slot s.cur).saw i = none) (hp : locate (s.who s.cur) k.space (v + 64 * i) 64 [1] s.noteIssue = .ok (.mem key keep va, t)) :
    descriptorAt inStep k lo hi s.noteIssue = .error (.again (t.modSlot t.cur fun y =>
      { y with seen := y.seen ++ [(i, s.object key keep va (s.globalAddr (s.partOfSlot s.cur) k.space (v + 64 * i)) 64)] })) := by
  obtain ⟨j, rfl⟩ := Nat.exists_eq_add_of_le' hone
  have hstop := inStep_new ((saw_issued s (j + 1)).trans hsaw) (descriptorRec_reads hcalm hp)
  have hrecs : eachM (fun i => do
      let o ← inStep (i + 1) (descriptorRec k v (i + 1))
      recordIn o o.bytes) (List.range (descriptorCount lo hi h.bytes)) s.noteIssue = .error (.again (t.modSlot t.cur fun y =>
      { y with seen := y.seen ++ [(j + 1, s.object key keep va (s.globalAddr (s.partOfSlot s.cur) k.space (v + 64 * (j + 1))) 64)] })) := by
    refine eachM_range_stops (k := j) (by omega) (fun b hb => ?_) ?_
    · obtain ⟨e, he⟩ := hbefore (b + 1) (by omega) (by omega)
      simp only [Exec.bind_apply, inStep_seen ((saw_issued s (b + 1)).trans he)]
      exact ⟨_, rfl⟩
    · simp only [Exec.bind_apply, hstop]
  simp only [descriptorAt, Exec.bind_apply, descriptorHead_seen hhead, hcheck, hrecs]

/-! ## GANG (R188) -/

/-- Slot `g` has taken `v` for its result, and has given up what its steps have read. -/
def pushed (w : State) (g : Nat) (d : Dst) (v : U64) : State := w.modSlot g fun x => { x.result d v with seen := [] }

section Pushes

variable {w : State} {g : Nat} (hcur : w.cur = g) (d : Dst) (v : U64)

include hcur

theorem dst_then_forget : (do dst d v; forget; pure .next : Exec Flow) w = .ok (.next, pushed w g d v) := by
  subst hcur
  simp only [Exec.bind_apply, dst_apply, forget_apply, State.modSlot_cur, State.modSlot_modSlot, Exec.pure_apply, pushed]

theorem forget_then_dst : (do forget; dst d v; pure .next : Exec Flow) w = .ok (.next, pushed w g d v) := by
  subst hcur
  have hcomm (x : Slot) : Slot.result { x with seen := [] } d v = { x.result d v with seen := [] } := by
    cases d
    · rfl
    · rfl
  simp only [Exec.bind_apply, dst_apply, forget_apply, State.modSlot_cur, State.modSlot_modSlot, Exec.pure_apply, pushed, hcomm]

end Pushes

theorem gangOk_issued (s : State) (hdr : List Byte) (recs : List Rec) : s.noteIssue.gangOk hdr recs = s.gangOk hdr recs := rfl

section Gang

variable {s : State} (d : Dst) {ka : BitVec 3} (hcalm : s.calm)

include hcalm

/-- GANG and SUBMIT stop where their descriptor does. -/
theorem gang_stops {w : State} (h : descriptorAt inStep (s.cap ka) 2 4 s.noteIssue = .error (.again w)) :
    exec (.gang d ka) s = .next (s.stepped w) := by
  rw [exec_gang, execGang]
  exact runInstr_again (by simp only [Exec.bind_apply, notLatent_calm (State.calm_noteIssue hcalm), kreg_issued, h])

theorem submit_stops {w : State} (h : descriptorAt (fun _ m => m) (s.cap ka) 1 64 s.noteIssue = .error (.again w)) :
    exec (.submit d ka) s = .next (s.stepped w) := by
  rw [exec_submit, execSubmit]
  exact runInstr_again (by simp only [Exec.bind_apply, notLatent_calm (State.calm_noteIssue hcalm), kreg_issued, h])

section Read

variable {hdr : List Byte} {recs : List Rec} (hread : descriptorAt inStep (s.cap ka) 2 4 s.noteIssue = .ok ((hdr, recs), s.noteIssue))

include hread

theorem gang_illFormed (hok : s.gangOk hdr recs = false) :
    exec (.gang d ka) s = .next ((pushed s.noteIssue s.cur d (BitVec.allOnes 64)).past 4) := by
  rw [exec_gang, execGang]
  refine runInstr_past ?_
  simp only [Exec.bind_apply, notLatent_calm (State.calm_noteIssue hcalm), kreg_issued, hread, Exec.get_apply]
  rw [gangOk_issued, hok, Bool.not_false, if_pos rfl]
  exact dst_then_forget (State.noteIssue_cur s) ..

section Piped

variable (hok : s.gangOk hdr recs = true) {m : Rec} {rest : List Rec} (hrecs : recs = m :: rest) {pipes : List Cap}
  (hpipes : eachM (fun j => if leAt hdr (2 + 2 * j) 2 = 0 then pure Cap.null
    else loadPool (1 + recs.length + 2 * j) m.code (leAt hdr (2 + 2 * j) 2)) (List.range rest.length) s.noteIssue = .ok (pipes, s.noteIssue))

include hok hrecs hpipes

theorem gang_piped : exec (.gang d ka) s = runInstr 4 (do
    if pipes.any fun c => c.tag && c.space ≠ 0 then dst d (BitVec.allOnes 64)
    else
      raiseLive m.group recs.length
      let s ← get
      orWait (s.enqueue (clusterOf (coreOf s.cur)) { job := m, gcount := recs.length, gang := recs, pipes := pipes })
      dst d (BitVec.ofNat 64 recs.length)
    forget
    pure .next) s := by
  rw [exec_gang, execGang]
  refine runInstr_congr ?_
  simp only [Exec.bind_apply, notLatent_calm (State.calm_noteIssue hcalm), kreg_issued, hread, Exec.get_apply]
  rw [gangOk_issued, hok, Bool.not_true, if_neg Bool.false_ne_true]
  subst hrecs
  simp only [Exec.bind_apply, List.getD_cons_zero, List.length_cons, Nat.add_sub_cancel]
  simp only [List.length_cons] at hpipes
  rw [hpipes]

/-- A pipe outside GLOBAL space makes GANG push -1 (log 89). -/
theorem gang_pipeElsewhere (hpipe : ∃ k ∈ pipes, k.tag = true ∧ k.space ≠ 0) :
    exec (.gang d ka) s = .next ((pushed s.noteIssue s.cur d (BitVec.allOnes 64)).past 4) := by
  have hany : (pipes.any fun c => c.tag && c.space ≠ 0) = true := by simpa using hpipe
  rw [gang_piped d hcalm hread hok hrecs hpipes, hany, if_pos rfl]
  exact runInstr_past (dst_then_forget (State.noteIssue_cur s) ..)

theorem gang_queues (hpipe : ∀ k ∈ pipes, k.tag = true → k.space = 0) {q : State} (hcur : q.cur = s.cur)
    (hqueue : (s.noteIssue.liveNow (s.partOfSlot s.cur) (s.slot s.cur).tenant m.group recs.length (coreOf s.cur)).enqueue
      (clusterOf (coreOf s.cur)) { job := m, gcount := recs.length, gang := recs, pipes := pipes } = some q) :
    exec (.gang d ka) s = .next ((pushed q s.cur d (BitVec.ofNat 64 recs.length)).past 4) := by
  have hany : (pipes.any fun c => c.tag && c.space ≠ 0) = false := by simpa [List.any_eq_false] using hpipe
  have hlive : (s.noteIssue.liveNow (s.partOfSlot s.cur) (s.slot s.cur).tenant m.group recs.length (coreOf s.cur)).cur = s.cur :=
    (KeepsSlots.refl s.noteIssue).liveNow.cur
  rw [gang_piped d hcalm hread hok hrecs hpipes, hany, if_neg Bool.false_ne_true]
  refine runInstr_past ?_
  simp only [Exec.bind_apply, raiseLive_calm (State.calm_noteIssue hcalm), State.noteIssue_cur, State.noteIssue_partOfSlot,
    State.noteIssue_slot_tenant, Exec.get_apply, hlive, hqueue, orWait, Exec.set_apply]
  exact dst_then_forget hcur ..

end Piped

end Read

end Gang

/-! ## SUBMIT (R193) -/

section Submit

variable {s u : State} (d : Dst) {ka : BitVec 3} {hdr : List Byte} {recs : List Rec} (hcalm : s.calm)
  (hread : descriptorAt (fun _ m => m) (s.cap ka) 1 64 s.noteIssue = .ok ((hdr, recs), u)) (hcur : u.cur = s.cur)

include hcalm hread hcur

/-- A SUBMIT that admission may accept waits while the hold register is occupied (R180). -/
theorem submit_waits (hok : u.submitOk hdr recs = true) (hhold : (u.cluster (clusterOf (coreOf s.cur))).hold ≠ none) :
    exec (.submit d ka) s = s.waits := by
  have hheld : (u.cluster (clusterOf (coreOf s.cur))).hold.isNone = false := by rwa [Option.isNone_eq_false_iff, Option.isSome_iff_ne_none]
  rw [exec_submit, execSubmit]
  refine runInstr_waits ?_
  simp only [Exec.bind_apply, notLatent_calm (State.calm_noteIssue hcalm), kreg_issued, hread, Exec.get_apply, hok, if_true, holdFree, hcur,
    hheld, await_false]

theorem submit_pushes (hucalm : u.calm) (hhold : u.submitOk hdr recs = true → (u.cluster (clusterOf (coreOf s.cur))).hold = none) {v : Int}
    {q : State} (hqcur : q.cur = s.cur)
    (hstep : u.submitStep (u.partOfSlot s.cur) (u.slot s.cur).tenant (clusterOf (coreOf s.cur)) s.cur hdr recs = (v, q)) :
    exec (.submit d ka) s = .next ((pushed q s.cur d (u64 v)).past 4) := by
  have hpush := forget_then_dst hqcur d (u64 v)
  simp only [Exec.bind_apply, Exec.pure_apply] at hpush
  rw [exec_submit, execSubmit]
  refine runInstr_past ?_
  simp only [Exec.bind_apply, notLatent_calm (State.calm_noteIssue hcalm), kreg_issued, hread, Exec.get_apply]
  cases hok : u.submitOk hdr recs with
  | false => simp only [Bool.false_eq_true, if_false, Exec.pure_apply, Exec.bind_apply, Exec.get_apply, hcur, hstep, Exec.set_apply, hpush]
  | true =>
    simp only [if_true, holdFree, Exec.bind_apply, Exec.get_apply, hcur, hhold hok, Option.isNone_none, await_true, beforeLive_calm hucalm, hstep,
      Exec.set_apply, Exec.pure_apply, hpush]

end Submit

/-- Settles O29: DONE and YIELD by what they wait for and leave, DLINE and SELF by their results, GANG and SUBMIT step by step. -/
theorem endOfTaskAndGangs : Obligations.EndOfTaskAndGangs := by
  refine ⟨fun s x a b dl bu hx hflight hborrow hphase ha hb => ?_, fun s d a x kd hx =>
    ⟨dline_gives hx, fun hslot => ?_, fun h h11 hphase r hr => ?_⟩,
    fun s t u d ka key keep va hdr recs pipes m rest hcalm => ?_⟩
  · intro left
    have hleft : taskLeft s.noteIssue = left := taskLeft_issued hx
    refine ⟨done_slotZero_traps, fun v h hcalm hm => done_reports hx hphase hflight h hcalm hm, fun h h11 hm hengines hcalm =>
      ⟨fun hgroup => ?_, fun r hgroup => ?_⟩, fun h m hmsg hm hparting => ?_, ?_⟩
    · rw [← hleft]
      exact done_ungrouped hx hphase hflight hborrow hm h h11 hengines hcalm (by rw [hgroup]; rfl)
    · exact done_grouped hx hphase hflight hborrow hm h h11 hengines hcalm hgroup (by rw [hleft])
    · exact done_message hx hphase hflight hborrow hm h hmsg hparting (by rw [hleft])
    · intro hlo hhi hwait hengines habsent hhold hring hready
      obtain ⟨t, e, sv, hnext, hqueue, hcont, hcore, hslot, hlive⟩ :=
        yield_queues ha hb hlo hhi hx hflight hborrow hphase hwait hengines habsent hhold hring hready
      refine ⟨t, e, sv, hnext, hqueue, hcont, hcore, ?_, ?_, ?_, ?_, ?_, ?_, hlive⟩
      · rw [hslot]; rfl
      · rw [hslot]; rfl
      · rw [hslot]; rfl
      · simp only [hslot, yielded_rq, State.noteIssue_slot_rq, hx]
      · simp only [hslot, yielded_n, State.noteIssue_slot_n, hx]
      · simp only [hslot, yielded_k, State.noteIssue_slot_k, hx]
  · rw [self_writes, selfCap_null _ hslot]
  · rw [self_writes, selfCap_task h h11 hphase hr]
  · intro n c pushes nd
    refine ⟨fun hsaw hp => ?_, fun h o i v hhead hcheck hone hle hbefore hsaw hp ho => ?_, fun hread => ⟨gang_illFormed d hcalm hread,
      fun hok hrecs hpipes => ⟨gang_pipeElsewhere d hcalm hread hok hrecs hpipes, fun hpipe q =>
        gang_queues d hcalm hread hok hrecs hpipes hpipe⟩⟩,
      fun hread hucalm hcur => ⟨submit_waits d hcalm hread hcur, fun hhold v q => submit_pushes d hcalm hread hcur hucalm hhold⟩⟩
    · have hstop := descriptorHead_reads hcalm hsaw hp
      exact ⟨gang_stops d hcalm (descriptorAt_head hstop), submit_stops d hcalm (descriptorAt_head hstop)⟩
    · subst ho
      exact gang_stops d hcalm (descriptorAt_reads hcalm hhead hcheck hone hle hbefore hsaw hp)

end Sys2Proof.Laws

/-! # Objects on which a step acts (R149, R172, R183, R197, R240) -/

namespace Sys2Proof.Laws

open Sys2Proof.Machine

/-- `t` is as good as the calm state `s` to the instruction that its current slot has issued: it is calm too, the same slot acts in
it, and memory and aliases read alike. -/
structure ActsAs (s t : State) : Prop where
  calm : t.calm
  cur : t.cur = s.cur
  who : t.who s.cur = s.who s.cur
  bytes : ∀ key n, t.bytes key n = s.bytes key n
  tag : ∀ key, t.tagAt key = s.tagAt key
  addr : ∀ p space v, t.globalAddr p space v = s.globalAddr p space v

theorem actsAs_issued {s : State} (h : s.calm) : ActsAs s s.noteIssue :=
  ⟨State.calm_noteIssue h, rfl, State.noteIssue_who .., fun _ _ => rfl, fun _ => rfl, fun _ _ _ => rfl⟩

theorem who_same {s t : State} (h : s.sameButTlb t) (g : Nat) : t.who g = s.who g := by
  rw [State.who, partOfSlot_same h, h.slot, State.who]

theorem who_releasing (s : State) (g : Nat) : (releasing s).who g = s.who g := by
  rw [State.who, partOfSlot_releasing, tenant_releasing, State.who]

theorem KeepsSlots.who {s t : State} (h : KeepsSlots s t) (g : Nat) : t.who g = s.who g := by
  rw [State.who, h.partOfSlot, h.slot, State.who]

namespace ActsAs

variable {s t u : State}

protected theorem releasing (h : ActsAs s t) : ActsAs s (releasing t) :=
  ⟨calm_releasing h.calm, h.cur, (who_releasing ..).trans h.who, h.bytes, h.tag, h.addr⟩

theorem same (h : ActsAs s t) (ht : t.sameButTlb u) : ActsAs s u := by
  refine ⟨ht.calm h.calm, ht.cur.trans h.cur, (who_same ht _).trans h.who, fun k n => (ht.bytes k n).trans (h.bytes k n), fun k => ?_,
    fun p sp v => ?_⟩
  · rw [← h.tag k, State.tagAt, tags_same ht, State.tagAt]
  · obtain ⟨_, _, rfl, -⟩ := ht
    exact h.addr p sp v

theorem placed (h : ActsAs s t) {k : Cap} {v : Int} {n : Nat} {nd : Need} {bits : List Nat} {p : Place}
    (hp : place k v n nd bits t = .ok (p, u)) : ActsAs s u := h.same (place_same hp)

theorem partOfSlot (h : ActsAs s t) : t.partOfSlot s.cur = s.partOfSlot s.cur := congrArg Who.part h.who

theorem tenant (h : ActsAs s t) : (t.slot s.cur).tenant = (s.slot s.cur).tenant := congrArg Who.tenant h.who

theorem object (h : ActsAs s t) (key : Nat) (keep : Bool) (va : Option Nat) (addr n : Nat) :
    t.object key keep va addr n = s.object key keep va addr n := by
  simp only [State.object, h.bytes, h.tag]

theorem performWrites_cur (h : ActsAs s t) {p ten : Nat} {va : Option Nat} {ws : List (Nat × Byte)} {tag : Option Nat} :
    (t.performWrites p ten va ws tag).cur = s.cur := (KeepsSlots.refl t).performWrites.cur.trans h.cur

theorem performWrites_who (h : ActsAs s t) {p ten : Nat} {va : Option Nat} {ws : List (Nat × Byte)} {tag : Option Nat} :
    (t.performWrites p ten va ws tag).who s.cur = s.who s.cur := ((KeepsSlots.refl t).performWrites.who _).trans h.who

end ActsAs

theorem stepPlace_calm {s : State} (h : s.calm) (p : Place) (n : Nat) : stepPlace p n s = .ok ((), s) := by
  simp only [stepPlace, Exec.bind_apply, releaseWait_calm h, Exec.get_apply, State.cardsAt_calm h, List.isEmpty_nil, await_true,
    forceHome_calm _ h, homeReady_calm _ h]

section Object

variable {s t u : State} (h : ActsAs s t) {k : Cap} {n key : Nat} {keep : Bool} {va : Option Nat}

include h

/-- An object operand is its place, with its address in GLOBAL space. -/
theorem objectAt_mem {perm bits : List Nat}
    (hp : place k k.cursor n { spaces := [0, 1, 2], perm := perm, align := n } bits t = .ok (.mem key keep va, u)) :
    objectAt k n perm bits false t =
      .ok ({ key := key, keep := keep, va := va, addr := s.globalAddr (s.partOfSlot s.cur) k.space k.cursor }, u) := by
  have hu := h.placed hp
  simp only [objectAt, Exec.bind_apply, hp, Bool.false_eq_true, if_false, Exec.get_apply, hu.cur, hu.partOfSlot, hu.addr,
    stepPlace_calm hu.calm, Exec.pure_apply]

/-- An object reads as the calm state holds it. -/
theorem look_object (addr : Nat) :
    look { key := key, keep := keep, va := va, addr := addr } n t = .ok (s.object key keep va addr n, t) :=
  (look_calm h.calm _ _).trans (congrArg (fun o => Except.ok (o, t)) (h.object ..))

theorem readBytes_object : readBytes key n t = .ok (s.bytes key n, t) := by
  rw [readBytes_calm h.calm, h.bytes]

/-- A future operand is its place, its low word and its value. -/
theorem futureAt_mem (hp : place k k.cursor 16 { spaces := [0, 1, 2], perm := [0, 1, 5], align := 16 } [1, 2, 4] t = .ok (.mem key keep va, u)) :
    futureAt k t = .ok (({ key := key, keep := keep, va := va, addr := s.globalAddr (s.partOfSlot s.cur) k.space k.cursor },
      leAt (s.bytes key 16) 0 8, BitVec.ofNat 64 (leAt (s.bytes key 16) 8 8)), u) := by
  simp only [futureAt, Exec.bind_apply, objectAt_mem h hp, readBytes_object (h.placed hp), Exec.pure_apply]

/-- The current slot writes in an object for its tenant. -/
theorem writeObject_acts (r : RecordAt) (off : Nat) (bs : List Byte) : writeObject r off bs t =
    .ok ((), t.performWrites (s.partOfSlot s.cur) (s.slot s.cur).tenant r.va (writesAt (r.key + off) bs) none) := by
  simp only [writeObject, Exec.bind_apply, Exec.get_apply, h.cur, h.who, Exec.set_apply]
  rfl

end Object

end Sys2Proof.Laws

/-! # Futures (R180, R197, R198) -/

namespace Sys2Proof.Laws

open Sys2Proof.Machine

/-- What R197 asks of a future's low word. -/
theorem futureOk_iff (lo : Nat) : futureOk lo = true ↔ lo % 4 ≠ 3 ∧ lo / 4 % 4 = 0 ∧ lo < 2 ^ 52 := by
  simp only [futureOk, Bool.and_eq_true, decide_eq_true_eq, beq_iff_eq, and_assoc, Nat.div_eq_zero_iff]
  omega

theorem futureOk_eq_false {lo : Nat} (h : ¬ (lo % 4 ≠ 3 ∧ lo / 4 % 4 = 0 ∧ lo < 2 ^ 52)) : futureOk lo = false :=
  Bool.eq_false_iff.2 fun hok => h ((futureOk_iff lo).1 hok)

theorem u64_natCast (n : Nat) : u64 n = BitVec.ofNat 64 n := BitVec.ofInt_natCast 64 n

/-- `u` with the release of the record at `a` on its way from slot `g` (R198). -/
def released (s : State) (a : Nat) (u : State) : State :=
  { u with releases := u.releases ++ [{ addr := a, tenant := (s.slot s.cur).tenant, part := s.partOfSlot s.cur, core := coreOf s.cur }] }

theorem sendRelease_sends {s u : State} (hcur : u.cur = s.cur) (hwho : u.who s.cur = s.who s.cur) (a : Nat) :
    sendRelease a u = .ok ((), released s a u) := by
  have hself : u.who u.cur = s.who s.cur := by rw [hcur, hwho]
  simp only [sendRelease, Exec.bind_apply, Exec.get_apply, hself, Exec.set_apply]
  rfl

theorem releaseFree_acts {s u : State} (h : ActsAs s u) (a : Nat) : releaseFree a u =
    await (!u.releaseBlocked a (s.slot s.cur).tenant (s.partOfSlot s.cur) (coreOf s.cur)) u := by
  simp only [releaseFree, Exec.bind_apply, Exec.get_apply, h.cur, h.who]
  rfl

/-- The current slot takes `v` for its result. -/
theorem dst_at {s u : State} (hcur : u.cur = s.cur) (d : Dst) (v : U64) :
    dst d v u = .ok ((), u.modSlot s.cur fun x => x.result d v) := by
  rw [dst_apply, hcur]

section Future

variable {s t u w : State} {d : Dst} {ka kb : BitVec 3} {b : Src} {v : U64} {key lo : Nat} {keep : Bool} {va : Option Nat}
  (hcalm : s.calm) (hlo : lo = leAt (s.bytes key 16) 0 8)

include hcalm hlo

section Issued

variable (hp : place (s.cap ka) (s.cap ka).cursor 16 { spaces := [0, 1, 2], perm := [0, 1, 5], align := 16 } [1, 2, 4] s.noteIssue =
  .ok (.mem key keep va, t))

include hp

theorem finit_clears (h : futState lo ≠ 1) : exec (.finit ka) s =
    .next ((t.performWrites (s.partOfSlot s.cur) (s.slot s.cur).tenant va (writesAt key (toBytes 16 0)) none).past 4) := by
  have hacts := actsAs_issued hcalm
  rw [exec_finit, execFinit]
  refine runInstr_past ?_
  simp only [Exec.bind_apply, notLatent_calm hacts.calm, kreg_issued, futureAt_mem hacts hp, ← hlo, decide_eq_true h, require_true,
    writeObject_acts (hacts.placed hp), Exec.pure_apply, Nat.add_zero]

theorem finit_traps (h : futState lo = 1) : exec (.finit ka) s =
    s.traps 4 .futReg (BitVec.ofNat 64 (s.globalAddr (s.partOfSlot s.cur) (s.cap ka).space (s.cap ka).cursor)) := by
  have hacts := actsAs_issued hcalm
  rw [exec_finit, execFinit]
  refine runInstr_traps ?_
  simp only [Exec.bind_apply, notLatent_calm hacts.calm, kreg_issued, futureAt_mem hacts hp, ← hlo, h, ne_eq, not_true_eq_false,
    decide_false, require_false, u64_natCast]

theorem fget_gives (hok : futureOk lo = true) (h : futState lo = 2) : exec (.fget d ka) s =
    .next ((t.modSlot s.cur fun x => x.result d (BitVec.ofNat 64 (leAt (s.bytes key 16) 8 8))).past 4) := by
  have hacts := actsAs_issued hcalm
  rw [exec_fget, execFget]
  refine runInstr_past ?_
  simp only [Exec.bind_apply, notLatent_calm hacts.calm, kreg_issued, futureAt_mem hacts hp, ← hlo, wellFormedFuture, hok, require_true,
    decide_eq_true h, dst_at (hacts.placed hp).cur, Exec.pure_apply]

theorem fget_traps (hok : futureOk lo = true) (h : futState lo ≠ 2) : exec (.fget d ka) s =
    s.traps 4 .futEmpty (BitVec.ofNat 64 (s.globalAddr (s.partOfSlot s.cur) (s.cap ka).space (s.cap ka).cursor)) := by
  have hacts := actsAs_issued hcalm
  rw [exec_fget, execFget]
  refine runInstr_traps ?_
  simp only [Exec.bind_apply, notLatent_calm hacts.calm, kreg_issued, futureAt_mem hacts hp, ← hlo, wellFormedFuture, hok, require_true,
    decide_eq_false h, require_false, u64_natCast]

theorem fget_illFormed (hok : futureOk lo = false) : exec (.fget d ka) s =
    s.traps 4 .futReg (BitVec.ofNat 64 (s.globalAddr (s.partOfSlot s.cur) (s.cap ka).space (s.cap ka).cursor)) := by
  have hacts := actsAs_issued hcalm
  rw [exec_fget, execFget]
  refine runInstr_traps ?_
  simp only [Exec.bind_apply, notLatent_calm hacts.calm, kreg_issued, futureAt_mem hacts hp, ← hlo, wellFormedFuture, hok, require_false,
    u64_natCast]

theorem fstat_gives : exec (.fstat d ka) s =
    .next ((t.modSlot s.cur fun x => x.result d (BitVec.ofNat 64 (futState lo))).past 4) := by
  have hacts := actsAs_issued hcalm
  rw [exec_fstat, execFstat]
  refine runInstr_past ?_
  simp only [Exec.bind_apply, notLatent_calm hacts.calm, kreg_issued, futureAt_mem hacts hp, ← hlo, dst_at (hacts.placed hp).cur, Exec.pure_apply]

end Issued

section Released

variable (hp : place (s.cap ka) (s.cap ka).cursor 16 { spaces := [0, 1, 2], perm := [0, 1, 5], align := 16 } [1, 2, 4]
  (releasing s.noteIssue) = .ok (.mem key keep va, u))

include hp

section Fres

variable (hv : s.reads b = some v)

include hv

/-- FRES of an empty future resolves it. -/
theorem fres_empty (hok : futureOk lo = true) (h : futState lo = 0) : exec (.fres d ka b) s =
    .next (((u.performWrites (s.partOfSlot s.cur) (s.slot s.cur).tenant va (writesAt key (resolvedFuture lo v.toNat)) none).modSlot s.cur
      fun x => x.result d 0#64).past 4) := by
  have hacts := actsAs_issued hcalm
  have hplaced := hacts.releasing.placed hp
  rw [exec_fres, execFres]
  refine runInstr_past ?_
  simp only [Exec.bind_apply, src_issued hv, notLatent_calm hacts.calm, kreg_issued, fenceRel_calm 5 hacts.calm,
    futureAt_mem hacts.releasing hp, ← hlo, wellFormedFuture, hok, require_true, h, OfNat.zero_ne_ofNat, ne_eq, not_false_eq_true, decide_true,
    Nat.zero_ne_one, if_false, Exec.pure_apply, writeObject_acts hplaced, Nat.add_zero,
    dst_at hplaced.performWrites_cur]

/-- FRES of a future on which a record waits resolves it, and releases the record. -/
theorem fres_waiting (hok : futureOk lo = true) (h : futState lo = 1)
    (hfree : u.releaseBlocked (lo / 16 * 16) (s.slot s.cur).tenant (s.partOfSlot s.cur) (coreOf s.cur) = false) : exec (.fres d ka b) s =
    .next (((released s (lo / 16 * 16) (u.performWrites (s.partOfSlot s.cur) (s.slot s.cur).tenant va
      (writesAt key (resolvedFuture lo v.toNat)) none)).modSlot s.cur fun x => x.result d 1#64).past 4) := by
  have hacts := actsAs_issued hcalm
  have hplaced := hacts.releasing.placed hp
  rw [exec_fres, execFres]
  refine runInstr_past ?_
  simp only [Exec.bind_apply, src_issued hv, notLatent_calm hacts.calm, kreg_issued, fenceRel_calm 5 hacts.calm,
    futureAt_mem hacts.releasing hp, ← hlo, wellFormedFuture, hok, require_true, h, Nat.reduceEqDiff, ne_eq, not_false_eq_true, decide_true,
    if_true, Exec.pure_apply, releaseFree_acts hplaced, hfree, Bool.not_false, await_true, writeObject_acts hplaced, Nat.add_zero,
    sendRelease_sends hplaced.performWrites_cur hplaced.performWrites_who,
    dst_at (u := released s _ _) hplaced.performWrites_cur]

theorem fres_waits (hok : futureOk lo = true) (h : futState lo = 1)
    (hheld : u.releaseBlocked (lo / 16 * 16) (s.slot s.cur).tenant (s.partOfSlot s.cur) (coreOf s.cur) = true) : exec (.fres d ka b) s = s.waits := by
  have hacts := actsAs_issued hcalm
  rw [exec_fres, execFres]
  refine runInstr_waits ?_
  simp only [Exec.bind_apply, src_issued hv, notLatent_calm hacts.calm, kreg_issued, fenceRel_calm 5 hacts.calm,
    futureAt_mem hacts.releasing hp, ← hlo, wellFormedFuture, hok, require_true, h, Nat.reduceEqDiff, ne_eq, not_false_eq_true, decide_true,
    if_true, releaseFree_acts (hacts.releasing.placed hp), hheld, Bool.not_true, await_false]

theorem fres_resolved (hok : futureOk lo = true) (h : futState lo = 2) : exec (.fres d ka b) s =
    s.traps 4 .futDbl (BitVec.ofNat 64 (s.globalAddr (s.partOfSlot s.cur) (s.cap ka).space (s.cap ka).cursor)) := by
  have hacts := actsAs_issued hcalm
  rw [exec_fres, execFres]
  refine runInstr_traps ?_
  simp only [Exec.bind_apply, src_issued hv, notLatent_calm hacts.calm, kreg_issued, fenceRel_calm 5 hacts.calm,
    futureAt_mem hacts.releasing hp, ← hlo, wellFormedFuture, hok, require_true, h, ne_eq, not_true_eq_false, decide_false, require_false,
    u64_natCast]

theorem fres_illFormed (hok : futureOk lo = false) : exec (.fres d ka b) s =
    s.traps 4 .futReg (BitVec.ofNat 64 (s.globalAddr (s.partOfSlot s.cur) (s.cap ka).space (s.cap ka).cursor)) := by
  have hacts := actsAs_issued hcalm
  rw [exec_fres, execFres]
  refine runInstr_traps ?_
  simp only [Exec.bind_apply, src_issued hv, notLatent_calm hacts.calm, kreg_issued, fenceRel_calm 5 hacts.calm,
    futureAt_mem hacts.releasing hp, ← hlo, wellFormedFuture, hok, require_false, u64_natCast]

end Fres

section Freg

variable {rk : Nat} {rp : Bool} {rv : Option Nat}
  (hr : place (s.cap kb) (s.cap kb).cursor 64 { spaces := [0, 1, 2], perm := [0, 1, 5, 3], align := 64 } [1, 2, 4] u = .ok (.mem rk rp rv, w))

include hr

/-- FREG at an empty future registers its record there. -/
theorem freg_empty (hok : futureOk lo = true) (h : futState lo = 0) : exec (.freg d ka kb) s =
    .next (((w.performWrites (s.partOfSlot s.cur) (s.slot s.cur).tenant va (writesAt key (toBytes 8
      (s.globalAddr (s.partOfSlot s.cur) (s.cap kb).space (s.cap kb).cursor + 1))) none).modSlot s.cur fun x => x.result d 0#64).past 4) := by
  have hacts := actsAs_issued hcalm
  have hfuture := hacts.releasing.placed hp
  have hrecord := hfuture.placed hr
  rw [exec_freg, execFreg]
  refine runInstr_past ?_
  simp only [Exec.bind_apply, notLatent_calm hacts.calm, kreg_issued, fenceRel_calm 5 hacts.calm,
    futureAt_mem hacts.releasing hp, ← hlo, recordAt, objectAt_mem hfuture hr, wellFormedFuture, hok, require_true, h, Nat.zero_ne_one, ne_eq,
    not_false_eq_true, decide_true, if_true, writeObject_acts hrecord, Nat.add_zero,
    dst_at hrecord.performWrites_cur, Exec.pure_apply]

/-- FREG at a resolved future releases its record. -/
theorem freg_resolved (hok : futureOk lo = true) (h : futState lo = 2)
    (hfree : w.releaseBlocked (s.globalAddr (s.partOfSlot s.cur) (s.cap kb).space (s.cap kb).cursor) (s.slot s.cur).tenant (s.partOfSlot s.cur)
      (coreOf s.cur) = false) : exec (.freg d ka kb) s =
    .next (((released s (s.globalAddr (s.partOfSlot s.cur) (s.cap kb).space (s.cap kb).cursor) w).modSlot s.cur
      fun x => x.result d 2#64).past 4) := by
  have hacts := actsAs_issued hcalm
  have hfuture := hacts.releasing.placed hp
  have hrecord := hfuture.placed hr
  rw [exec_freg, execFreg]
  refine runInstr_past ?_
  simp only [Exec.bind_apply, notLatent_calm hacts.calm, kreg_issued, fenceRel_calm 5 hacts.calm,
    futureAt_mem hacts.releasing hp, ← hlo, recordAt, objectAt_mem hfuture hr, wellFormedFuture, hok, require_true, h, Nat.reduceEqDiff, ne_eq,
    not_false_eq_true, decide_true, if_false, releaseFree_acts hrecord, hfree, Bool.not_false, await_true,
    sendRelease_sends hrecord.cur hrecord.who, dst_at (u := released s _ w) hrecord.cur, Exec.pure_apply]

theorem freg_waits (hok : futureOk lo = true) (h : futState lo = 2)
    (hheld : w.releaseBlocked (s.globalAddr (s.partOfSlot s.cur) (s.cap kb).space (s.cap kb).cursor) (s.slot s.cur).tenant (s.partOfSlot s.cur)
      (coreOf s.cur) = true) : exec (.freg d ka kb) s = s.waits := by
  have hacts := actsAs_issued hcalm
  have hfuture := hacts.releasing.placed hp
  have hrecord := hfuture.placed hr
  rw [exec_freg, execFreg]
  refine runInstr_waits ?_
  simp only [Exec.bind_apply, notLatent_calm hacts.calm, kreg_issued, fenceRel_calm 5 hacts.calm,
    futureAt_mem hacts.releasing hp, ← hlo, recordAt, objectAt_mem hfuture hr, wellFormedFuture, hok, require_true, h, Nat.reduceEqDiff, ne_eq,
    not_false_eq_true, decide_true, if_false, releaseFree_acts hrecord, hheld, Bool.not_true, await_false]

theorem freg_traps (h : futureOk lo = false ∨ futState lo = 1) : exec (.freg d ka kb) s =
    s.traps 4 .futReg (BitVec.ofNat 64 (s.globalAddr (s.partOfSlot s.cur) (s.cap ka).space (s.cap ka).cursor)) := by
  have hacts := actsAs_issued hcalm
  have hfuture := hacts.releasing.placed hp
  rw [exec_freg, execFreg]
  refine runInstr_traps ?_
  simp only [Exec.bind_apply, notLatent_calm hacts.calm, kreg_issued, fenceRel_calm 5 hacts.calm,
    futureAt_mem hacts.releasing hp, ← hlo, recordAt, objectAt_mem hfuture hr, wellFormedFuture]
  cases hok : futureOk lo with
  | false => simp only [require_false, u64_natCast]
  | true =>
    have hwaiting := h.resolve_left (ne_false_of_eq_true hok)
    simp only [require_true, hwaiting, ne_eq, not_true_eq_false, decide_false, require_false, u64_natCast]

end Freg

end Released

end Future

/-- Settles O30: each operation by its future's STATE, and by whether the record that it releases could be queued. -/
theorem futures : Obligations.Futures := by
  intro s t u w d ka kb b v key lo keep va c rk rp rv hcalm hc hv hlo
  subst hc
  intro nd rel p ten at' fine pushes sends
  have hok (h : fine) : futureOk lo = true := (futureOk_iff lo).2 h
  have hbad (h : ¬ fine) : futureOk lo = false := futureOk_eq_false h
  refine ⟨fun hp => ⟨finit_clears hcalm hlo hp, finit_traps hcalm hlo hp, fun h => fget_gives hcalm hlo hp (hok h), fun h =>
    fget_traps hcalm hlo hp (hok h), fun h => fget_illFormed hcalm hlo hp (hbad h), fstat_gives hcalm hlo hp⟩, fun hp => ?_⟩
  refine ⟨fun h => fres_empty hcalm hlo hp hv (hok h), fun h => fres_waiting hcalm hlo hp hv (hok h), fun h =>
    fres_waits hcalm hlo hp hv (hok h), fun h => fres_resolved hcalm hlo hp hv (hok h), fun h => fres_illFormed hcalm hlo hp hv (hbad h),
    fun hr => ?_⟩
  exact ⟨fun h => freg_empty hcalm hlo hp hr (hok h), fun h => freg_resolved hcalm hlo hp hr (hok h), fun h =>
    freg_waits hcalm hlo hp hr (hok h), fun h => freg_traps hcalm hlo hp hr (h.imp_left hbad)⟩

end Sys2Proof.Laws

/-! # Records, and the steps of SPAWN, WALK, START, LAUNCH, LAUNCHI and JOIN (R152, R176 to R187, R240) -/

namespace Sys2Proof.Laws

open Sys2Proof.Machine

/-! ## The order of a queue (R176) -/

/-- An entry is put behind those that are due no later, and before those that are due later. -/
theorem insertEntry_splits (e : Entry) : ∀ q : List Entry, (q.Pairwise fun a b => a.job.deadline ≤ b.job.deadline) →
    ∃ l r, q = l ++ r ∧ insertEntry e q = l ++ e :: r ∧ (∀ a ∈ l, a.job.deadline ≤ e.job.deadline) ∧ ∀ a ∈ r, e.job.deadline < a.job.deadline
  | [], _ => ⟨[], [], rfl, rfl, fun _ h => absurd h List.not_mem_nil, fun _ h => absurd h List.not_mem_nil⟩
  | x :: xs, hq => by
    obtain ⟨hx, hxs⟩ := List.pairwise_cons.1 hq
    by_cases hlt : e.job.deadline < x.job.deadline
    · refine ⟨[], x :: xs, rfl, if_pos hlt, fun _ h => absurd h List.not_mem_nil, fun a ha => ?_⟩
      rcases List.mem_cons.1 ha with rfl | ha
      · exact hlt
      · exact Nat.lt_of_lt_of_le hlt (hx a ha)
    · obtain ⟨l, r, rfl, hins, hl, hr⟩ := insertEntry_splits e xs hxs
      refine ⟨x :: l, r, rfl, (if_neg hlt).trans (congrArg (x :: ·) hins), fun a ha => ?_, hr⟩
      rcases List.mem_cons.1 ha with rfl | ha
      · exact BitVec.not_lt.1 hlt
      · exact hl a ha

theorem pairwise_insertEntry (e : Entry) {q : List Entry} (hq : q.Pairwise fun a b => a.job.deadline ≤ b.job.deadline) :
    (insertEntry e q).Pairwise fun a b => a.job.deadline ≤ b.job.deadline := by
  obtain ⟨l, r, rfl, hins, hl, hr⟩ := insertEntry_splits e q hq
  obtain ⟨hpl, hpr, hlr⟩ := List.pairwise_append.1 hq
  rw [hins, List.pairwise_append, List.pairwise_cons]
  refine ⟨hpl, ⟨fun b hb => BitVec.le_of_lt (hr b hb), hpr⟩, fun a ha b hb => ?_⟩
  rcases List.mem_cons.1 hb with rfl | hb
  · exact hl a ha
  · exact hlr a ha b hb

theorem length_insertEntry (e : Entry) (q : List Entry) : (insertEntry e q).length = q.length + 1 := by
  induction q with
  | nil => rfl
  | cons x xs ih =>
    rw [insertEntry]
    split
    · rfl
    · rw [List.length_cons, ih, List.length_cons]

/-! ## Queueing (R176, R179, R180) -/

/-- What a change of a cluster does depends on what it makes of that cluster alone. -/
theorem modCluster_congr {s : State} {cl : Nat} {f f' : Cluster → Cluster} (h : f (s.cluster cl) = f' (s.cluster cl)) :
    s.modCluster cl f = s.modCluster cl f' := by
  rw [State.modCluster, h, State.modCluster]

theorem setAll_short {s : State} {cl : Nat} {all : List Entry} (hring : (s.cluster cl).ring = []) (hlen : all.length ≤ 256) :
    s.setAll cl all = s.modCluster cl fun c => { c with ready := all } := by
  have hdrop : all.drop 256 = [] := List.drop_eq_nil_of_le hlen
  have hclus : splitQueue (s.cluster cl) all = { s.cluster cl with ready := all } := by
    rw [splitQueue, List.take_of_length_le hlen, hdrop, ← hring]
  rw [State.setAll, hdrop, if_pos ⟨hring, rfl⟩]
  exact modCluster_congr hclus

theorem enqueue_waits {s : State} {cl : Nat} (e : Entry) (hhold : (s.cluster cl).hold ≠ none) : s.enqueue cl e = none := by
  rw [State.enqueue, if_pos (Option.isSome_iff_ne_none.2 hhold)]

/-- An entry queued where the queue has room stands in it in its order. -/
theorem enqueue_room {s : State} {cl : Nat} (e : Entry) (hhold : (s.cluster cl).hold = none) (hring : (s.cluster cl).ring = [])
    (hlen : (s.cluster cl).ready.length < 256) : s.enqueue cl e = some (State.modCluster { s with fresh := s.fresh + 1 } cl fun c =>
      { c with ready := insertEntry { e with seq := s.fresh } c.ready }) := by
  have hall := length_insertEntry { e with seq := s.fresh } (s.cluster cl).ready
  have hset := setAll_short (s := { s with fresh := s.fresh + 1 }) (all := insertEntry { e with seq := s.fresh } (s.cluster cl).ready) hring (by omega)
  obtain ⟨l, hl⟩ := Option.isSome_iff_exists.1
    (List.getLast?_isSome.2 (List.ne_nil_of_length_pos (hall.symm ▸ Nat.succ_pos _) : insertEntry { e with seq := s.fresh } (s.cluster cl).ready ≠ []))
  have hshort : (insertEntry { e with seq := s.fresh } (s.cluster cl).ready).length ≤ 256 := by omega
  simp only [State.enqueue, hhold, Option.isSome_none, Bool.false_eq_true, if_false, State.freshNo, hring, List.append_nil, hl,
    decide_eq_true hshort, Bool.true_or, if_true, hset]
  exact congrArg some (modCluster_congr rfl)

/-- Laying out a ring leaves the current slot. -/
theorem layRing_cur (s : State) (p cl : Nat) (old new : List Entry) : (s.layRing p cl old new).cur = s.cur :=
  State.foldl_keeps State.cur (fun u _ => (KeepsSlots.refl u).performWrites.performWrites.cur) _ _

theorem setAll_cur (s : State) (cl : Nat) (all : List Entry) : (s.setAll cl all).cur = s.cur := by
  unfold State.setAll
  dsimp only
  rw [State.modCluster_cur]
  split
  · rfl
  · exact State.foldl_keeps State.cur (fun u p => layRing_cur u p ..) _ s

theorem enqueue_cur {s q : State} {cl : Nat} {e : Entry} (h : s.enqueue cl e = some q) : q.cur = s.cur := by
  unfold State.enqueue at h
  dsimp only [State.freshNo] at h
  split at h
  · cases h
  · split at h
    · cases h
    · split at h
      · cases h
        exact setAll_cur ..
      · cases h
        exact ((KeepsSlots.refl _).schedError.cur).trans (setAll_cur ..)

/-! ## Record operands (R152, R183, R240) -/

/-- The record that `bs` holds, with the tags and the address of `o`, for the current slot of `s`. -/
def recordOf (s : State) (o : Seen) (bs : List Byte) : Rec :=
  recOf bs (o.tags.getD 0 false) (o.tags.getD 1 false) o.loc.addr (s.slot s.cur).tenant (s.partOfSlot s.cur)

theorem groupOk_issued (s : State) (p : Nat) (group : U64) : s.noteIssue.groupOk p group = s.groupOk p group := by
  rw [State.groupOk, State.noteIssue_partReg, State.groupOk]

theorem recOk_issued (s : State) (r : Rec) (kinds : List Nat) : s.noteIssue.recOk r kinds = s.recOk r kinds := by
  simp only [State.recOk, State.noteIssue_tenantClass, State.noteIssue_ownsCore, groupOk_issued]

theorem recordIn_acts {s t : State} (h : ActsAs s t) (o : Seen) (bs : List Byte) : recordIn o bs t = .ok (recordOf s o bs, t) := by
  simp only [recordIn, Exec.bind_apply, Exec.get_apply, h.cur, h.tenant, h.partOfSlot, Exec.pure_apply, recordOf]

section Seen

variable {s t : State} {k : Cap} {o : Seen} {key : Nat} {keep : Bool} {va : Option Nat}

theorem recordSeen_seen (hsaw : (s.slot s.cur).saw 0 = some o) : recordSeen k s.noteIssue = .ok (o, s.noteIssue) :=
  inStep_seen ((saw_issued s 0).trans hsaw)

/-- A record still to be read is read in a step of its own. -/
theorem recordSeen_reads (hcalm : s.calm) (hsaw : (s.slot s.cur).saw 0 = none)
    (hp : place k k.cursor 64 { spaces := [0, 1, 2], perm := [0, 1, 5, 3], align := 64 } [1, 2, 4] s.noteIssue = .ok (.mem key keep va, t)) :
    recordSeen k s.noteIssue = .error (.again (t.modSlot t.cur fun y =>
      { y with seen := y.seen ++ [(0, s.object key keep va (s.globalAddr (s.partOfSlot s.cur) k.space k.cursor) 64)] })) := by
  have hacts := actsAs_issued hcalm
  refine inStep_new ((saw_issued s 0).trans hsaw) ?_
  simp only [Exec.bind_apply, recordAt, objectAt_mem hacts hp, look_object (hacts.placed hp)]

end Seen

/-! ## SPAWN and WALK (R183) -/

theorem queueRec_walks (s : State) (c : Nat) {r : Rec} (hhen : r.hen = true) :
    s.queueRec c { job := r } = some { s with walks := s.walks ++ [{ job := r, core := c }] } := if_pos hhen

theorem queueRec_enqueues (s : State) (c : Nat) {r : Rec} (hhen : r.hen = false) :
    s.queueRec c { job := r } = s.enqueue (clusterOf c) { job := r } := if_neg (ne_true_of_eq_false hhen)

section SpawnStep

variable {s : State} {r : Rec} (c : Nat)

theorem spawnStep_illFormed (h : s.recOk r [0, 1] = false) : s.spawnStep r c = some (-1, s) := by
  rw [State.spawnStep, h]
  rfl

variable (hok : s.recOk r [0, 1] = true)

include hok

theorem spawnStep_joining (hjoin : r.join ≠ 0#32) : s.spawnStep r c = some (0, s.liveNow r.part r.tenant r.group 1 c) := by
  rw [State.spawnStep, hok, Bool.not_true, if_neg Bool.false_ne_true]
  exact if_neg hjoin

theorem spawnStep_queues (hjoin : r.join = 0#32) :
    s.spawnStep r c = ((s.liveNow r.part r.tenant r.group 1 c).queueRec c { job := r }).map fun u => (1, u) := by
  rw [State.spawnStep, hok, Bool.not_true, if_neg Bool.false_ne_true]
  exact if_pos hjoin

theorem spawnStep_enqueues (hjoin : r.join = 0#32) (hhen : r.hen = false) {q : State}
    (hq : (s.liveNow r.part r.tenant r.group 1 c).enqueue (clusterOf c) { job := r } = some q) : s.spawnStep r c = some (1, q) := by
  rw [spawnStep_queues c hok hjoin, queueRec_enqueues _ _ hhen, hq, Option.map_some]

theorem spawnStep_walks (hjoin : r.join = 0#32) (hhen : r.hen = true) : s.spawnStep r c = some (1,
    { s.liveNow r.part r.tenant r.group 1 c with
      walks := (s.liveNow r.part r.tenant r.group 1 c).walks ++ [{ job := r, core := c }] }) := by
  rw [spawnStep_queues c hok hjoin, queueRec_walks _ _ hhen, Option.map_some]

end SpawnStep

/-- Steps of SPAWN leave the current slot. -/
theorem spawnStep_cur {s q : State} {r : Rec} {c : Nat} {v : Int} (h : s.spawnStep r c = some (v, q)) : q.cur = s.cur := by
  have hlive : (s.liveNow r.part r.tenant r.group 1 c).cur = s.cur := (KeepsSlots.refl s).liveNow.cur
  cases hok : s.recOk r [0, 1] with
  | false =>
    rw [spawnStep_illFormed c hok] at h
    cases h
    rfl
  | true =>
    by_cases hjoin : r.join = 0#32
    · rw [spawnStep_queues c hok hjoin, State.queueRec] at h
      split at h
      · cases h
        exact hlive
      · obtain ⟨u, hu, he⟩ := Option.map_eq_some_iff.1 h
        cases he
        exact (enqueue_cur hu).trans hlive
    · rw [spawnStep_joining c hok hjoin] at h
      cases h
      exact hlive

theorem u64_neg_one : u64 (-1) = BitVec.allOnes 64 := by decide

/-- SPAWN's effects in a calm state are its step's. -/
theorem spawn_steps {s u q : State} (d : Dst) {r : Rec} {v : Int} {x : U64} (hx : u64 v = x) (hcalm : u.calm) (hcur : u.cur = s.cur)
    (hstep : u.spawnStep r (coreOf s.cur) = some (v, q)) : spawn d r u = .ok (.next, pushed q s.cur d x) := by
  subst hx
  have hpush := forget_then_dst ((spawnStep_cur hstep).trans hcur) d (u64 v)
  rw [← hcur] at hstep
  simp only [Exec.bind_apply, Exec.pure_apply] at hpush
  cases hok : u.recOk r [0, 1] with
  | false => simp only [spawn, Exec.bind_apply, Exec.get_apply, hok, Bool.false_eq_true, if_false, Exec.pure_apply, hstep, Exec.set_apply, hpush]
  | true => simp only [spawn, Exec.bind_apply, Exec.get_apply, hok, if_true, beforeLive_calm hcalm, hstep, Exec.set_apply, Exec.pure_apply, hpush]

section Spawn

variable {s t q : State} (d : Dst) {ka : BitVec 3} {b : Src} {h : U64} {o : Seen} {key : Nat} {keep : Bool} {va : Option Nat} {v : Int}
  (hcalm : s.calm)

include hcalm

theorem spawn_reads (hsaw : (s.slot s.cur).saw 0 = none) (hp : place (s.cap ka) (s.cap ka).cursor 64
    { spaces := [0, 1, 2], perm := [0, 1, 5, 3], align := 64 } [1, 2, 4] s.noteIssue = .ok (.mem key keep va, t)) : exec (.spawn d ka) s =
      s.keeps t 0 (s.object key keep va (s.globalAddr (s.partOfSlot s.cur) (s.cap ka).space (s.cap ka).cursor) 64) := by
  rw [exec_spawn, execSpawn]
  refine runInstr_again ?_
  simp only [Exec.bind_apply, notLatent_calm (State.calm_noteIssue hcalm), kreg_issued, recordSeen_reads hcalm hsaw hp]

theorem walk_reads (hh : s.reads b = some h) (hsaw : (s.slot s.cur).saw 0 = none) (hp : place (s.cap ka) (s.cap ka).cursor 64
    { spaces := [0, 1, 2], perm := [0, 1, 5, 3], align := 64 } [1, 2, 4] s.noteIssue = .ok (.mem key keep va, t)) : exec (.walk d ka b) s =
      s.keeps t 0 (s.object key keep va (s.globalAddr (s.partOfSlot s.cur) (s.cap ka).space (s.cap ka).cursor) 64) := by
  rw [exec_walk, execWalk]
  refine runInstr_again ?_
  simp only [Exec.bind_apply, src_issued hh, notLatent_calm (State.calm_noteIssue hcalm), kreg_issued, recordSeen_reads hcalm hsaw hp]

variable (hsaw : (s.slot s.cur).saw 0 = some o)

include hsaw

/-- SPAWN of a record that it has read ends by its step. -/
theorem spawn_ends {x : U64} (hx : u64 v = x) (hstep : s.noteIssue.spawnStep (recordOf s o o.bytes) (coreOf s.cur) = some (v, q)) :
    exec (.spawn d ka) s = .next ((pushed q s.cur d x).past 4) := by
  have hacts := actsAs_issued hcalm
  rw [exec_spawn, execSpawn]
  refine runInstr_past ?_
  simp only [Exec.bind_apply, notLatent_calm hacts.calm, kreg_issued, recordSeen_seen hsaw, recordIn_acts hacts,
    spawn_steps d hx hacts.calm hacts.cur hstep]

variable (hh : s.reads b = some h)

include hh

/-- WALK of a record that it has read, and written where it is well-formed, ends by its step. -/
theorem walk_ends {x : U64} (hx : u64 v = x) (hwritten : s.recOk (recordOf s o (putLe o.bytes 52 4 (h.toNat % 2 ^ 32 ||| 2 ^ 16))) [0, 1] = true →
      ∃ o1, (s.slot s.cur).saw 1 = some o1)
    (hstep : s.noteIssue.spawnStep (recordOf s o (putLe o.bytes 52 4 (h.toNat % 2 ^ 32 ||| 2 ^ 16))) (coreOf s.cur) = some (v, q)) :
    exec (.walk d ka b) s = .next ((pushed q s.cur d x).past 4) := by
  have hacts := actsAs_issued hcalm
  rw [exec_walk, execWalk]
  refine runInstr_past ?_
  simp only [Exec.bind_apply, src_issued hh, notLatent_calm hacts.calm, kreg_issued, recordSeen_seen hsaw, recordIn_acts hacts, Exec.get_apply]
  rw [← recOk_issued] at hwritten
  cases hok : s.noteIssue.recOk (recordOf s o (putLe o.bytes 52 4 (h.toNat % 2 ^ 32 ||| 2 ^ 16))) [0, 1] with
  | false => simp only [Bool.false_eq_true, if_false, spawn_steps d hx hacts.calm hacts.cur hstep]
  | true =>
    obtain ⟨o1, hone⟩ := hwritten hok
    simp only [if_true, Exec.bind_apply, inStep_seen ((saw_issued s 1).trans hone), spawn_steps d hx hacts.calm hacts.cur hstep]

/-- WALK writes its hint into a well-formed record, in a step of its own. -/
theorem walk_writes (hok : s.recOk (recordOf s o (putLe o.bytes 52 4 (h.toNat % 2 ^ 32 ||| 2 ^ 16))) [0, 1] = true)
    (hone : (s.slot s.cur).saw 1 = none) : exec (.walk d ka b) s = s.keeps (s.noteIssue.performWrites (s.partOfSlot s.cur) (s.slot s.cur).tenant
      o.loc.va (writesAt (o.loc.key + 52) (toBytes 4 (h.toNat % 2 ^ 32 ||| 2 ^ 16))) none) 1 o := by
  have hacts := actsAs_issued hcalm
  have hwrite := inStep_new (m := do
    homeReady (homeOf o.loc.key)
    writeObject o.loc 52 (toBytes 4 (h.toNat % 2 ^ 32 ||| 2 ^ 16))
    pure o) ((saw_issued s 1).trans hone)
    (by simp only [Exec.bind_apply, homeReady_calm _ hacts.calm, writeObject_acts hacts, Exec.pure_apply]; rfl)
  rw [← recOk_issued] at hok
  rw [exec_walk, execWalk]
  refine runInstr_again ?_
  simp only [Exec.bind_apply, src_issued hh, notLatent_calm hacts.calm, kreg_issued, recordSeen_seen hsaw, recordIn_acts hacts, Exec.get_apply,
    hok, if_true, hwrite]

end Spawn

/-- Settles O27: a queue by the place of its new entry, SPAWN and WALK by the value and the state of their step. -/
theorem queueingOfRecords : Obligations.QueueingOfRecords := by
  refine ⟨fun e q hq => ⟨pairwise_insertEntry e hq, insertEntry_splits e q hq⟩, fun s cl e => ⟨enqueue_waits e, enqueue_room e⟩,
    fun s t d ka b h key keep va c o o1 r w hcalm hc hh => ?_⟩
  subst hc
  intro p ten cl hint n pushes live
  refine ⟨fun hsaw hp => ⟨spawn_reads d hcalm hsaw hp, walk_reads d hcalm hh hsaw hp⟩, fun hsaw hr hw => ?_⟩
  subst hr hw
  intro step
  refine ⟨fun hok => ?_, fun hok hjoin => ?_, fun hok hjoin hhen q hq => ?_, fun hok hjoin hhen => ?_, fun hok => ?_, fun hok hone => ?_,
    fun hok hone hjoin => ?_, fun hok hone hjoin hhen => ?_⟩
  · exact spawn_ends d hcalm hsaw u64_neg_one (spawnStep_illFormed (coreOf s.cur) ((recOk_issued ..).trans hok))
  · exact spawn_ends d hcalm hsaw rfl (spawnStep_joining (coreOf s.cur) ((recOk_issued ..).trans hok) hjoin)
  · exact spawn_ends d hcalm hsaw rfl (spawnStep_enqueues (coreOf s.cur) ((recOk_issued ..).trans hok) hjoin hhen hq)
  · exact spawn_ends d hcalm hsaw rfl (spawnStep_walks (coreOf s.cur) ((recOk_issued ..).trans hok) hjoin hhen)
  · exact walk_ends d hcalm hsaw hh u64_neg_one (fun h => absurd (hok.symm.trans h) Bool.false_ne_true)
      (spawnStep_illFormed (coreOf s.cur) ((recOk_issued ..).trans hok))
  · exact walk_writes d hcalm hsaw hh hok hone
  · exact walk_ends d hcalm hsaw hh rfl (fun _ => ⟨o1, hone⟩) (spawnStep_joining (coreOf s.cur) ((recOk_issued ..).trans hok) hjoin)
  · exact walk_ends d hcalm hsaw hh rfl (fun _ => ⟨o1, hone⟩) (spawnStep_walks (coreOf s.cur) ((recOk_issued ..).trans hok) hjoin hhen)

end Sys2Proof.Laws

/-! # START, LAUNCH, LAUNCHI and JOIN (R171, R172, R178, R180, R183, R186, R404) -/

namespace Sys2Proof.Laws

open Sys2Proof.Machine

/-! ## The helper that START takes (R178, R404) -/

/-- Whether START of the current slot may take helper `i` of its core for a record of deadline `dl`. -/
def takesStart (s : State) (dl : U64) (i : Nat) : Bool :=
  s.freeHelper (12 * coreOf s.cur + i) && s.takesFrom (s.slot s.cur).tenant (12 * coreOf s.cur + i) &&
    !(i == 10 && dl ≠ background && s.backgroundWaits (clusterOf (coreOf s.cur)))

/-- The helper that START takes. -/
def startPick (s : State) (dl : U64) : Option Nat := (List.range 11).find? (takesStart s dl)

theorem core_noteIssue_switchTo (s : State) (c : Nat) : (s.noteIssue.core c).switchTo = (s.core c).switchTo := by
  rw [State.core_noteIssue]
  split
  · rfl
  · rfl

theorem takesFrom_issued (s : State) (t g : Nat) : s.noteIssue.takesFrom t g = s.takesFrom t g := by
  rw [State.takesFrom, State.noteIssue_slot_tenant, core_noteIssue_switchTo, State.takesFrom]

theorem backgroundWaits_issued (s : State) (cl : Nat) : s.noteIssue.backgroundWaits cl = s.backgroundWaits cl := by
  simp only [State.backgroundWaits, State.locals, State.cluster_noteIssue, State.noteIssue_core_localQ]

theorem startPick_issued (s : State) (dl : U64) : startPick s.noteIssue dl = startPick s dl := by
  have htakes : takesStart s.noteIssue dl = takesStart s dl := funext fun i => by
    simp only [takesStart, State.noteIssue_cur, State.noteIssue_freeHelper, State.noteIssue_slot_tenant, takesFrom_issued, backgroundWaits_issued]
  rw [startPick, htakes, startPick]

theorem takesStart_iff (s : State) (dl : U64) {i : Nat} (hi : i < 11) : takesStart s dl i = true ↔
    s.freeHelper (12 * coreOf s.cur + i) = true ∧ ((s.slot (12 * coreOf s.cur + i)).tenant = (s.slot s.cur).tenant ∧
      ((s.core (coreOf s.cur)).switchTo = none ∨ (s.core (coreOf s.cur)).switchTo = some (s.slot s.cur).tenant)) ∧
      ¬ (i = 10 ∧ dl ≠ background ∧ s.backgroundWaits (clusterOf (coreOf s.cur)) = true) := by
  have hcore : coreOf (12 * coreOf s.cur + i) = coreOf s.cur := by
    rw [coreOf]
    omega
  have hswitch (o : Option Nat) (t : Nat) : (o.all fun nt => nt == t) = true ↔ o = none ∨ o = some t := by
    cases o with
    | none => simp
    | some nt => simp
  simp only [takesStart, State.takesFrom, hcore, Bool.and_eq_true, hswitch, beq_iff_eq, Bool.not_eq_true', Bool.and_eq_false_imp,
    decide_eq_true_eq, and_assoc, and_imp, not_and, Bool.not_eq_true]

theorem startPick_eq_some {s : State} {dl : U64} {i : Nat} (hi : i < 11) (h : takesStart s dl i = true)
    (hbefore : ∀ j < i, takesStart s dl j = false) : startPick s dl = some i := by
  rw [startPick, List.find?_range_eq_some]
  exact ⟨h, List.mem_range.2 hi, by simpa using hbefore⟩

theorem startPick_eq_none {s : State} {dl : U64} (h : ∀ j < 11, takesStart s dl j = false) : startPick s dl = none :=
  List.find?_eq_none.2 fun j hj => by rw [h j (List.mem_range.1 hj)]; exact Bool.false_ne_true

/-! ## START (R183) -/

theorem templateOk_iff (s : State) (r : Rec) : s.templateOk r = true ↔ s.recOk r [0] = true ∧ r.join = 0#32 ∧ r.hen = false := by
  simp only [State.templateOk, Bool.and_eq_true, decide_eq_true_eq, Bool.not_eq_true', and_assoc]

theorem templateOk_issued (s : State) (r : Rec) : s.noteIssue.templateOk r = s.templateOk r := by
  rw [State.templateOk, recOk_issued, State.templateOk]

theorem startRec_cur (s : State) (g : Nat) (r : Rec) (item count : Nat) (f : Slot → Slot) : (s.startRec g r item count f).cur = s.cur := rfl

theorem holdFree_apply (s : State) : holdFree s = await (s.cluster (clusterOf (coreOf s.cur))).hold.isNone s := rfl

section Start

variable {s t : State} (d : Dst) {ka : BitVec 3} {o : Seen} {key : Nat} {keep : Bool} {va : Option Nat} (hcalm : s.calm)

include hcalm

theorem start_traps (hslot : slotNo s.cur ≠ 0) : exec (.start d ka) s = s.traps 4 .illop (wordVal (encode (.start d ka))) := by
  rw [exec_start, execStart]
  refine runInstr_traps ?_
  simp only [Exec.bind_apply, notLatent_calm (State.calm_noteIssue hcalm), roleIs, slotNumber_apply, State.noteIssue_cur,
    beq_false_of_ne hslot, require_false]

variable (hslot : slotNo s.cur = 0)

include hslot

theorem start_reads (hsaw : (s.slot s.cur).saw 0 = none) (hp : place (s.cap ka) (s.cap ka).cursor 64
    { spaces := [0, 1, 2], perm := [0, 1, 5, 3], align := 64 } [1, 2, 4] s.noteIssue = .ok (.mem key keep va, t)) : exec (.start d ka) s =
      s.keeps t 0 (s.object key keep va (s.globalAddr (s.partOfSlot s.cur) (s.cap ka).space (s.cap ka).cursor) 64) := by
  rw [exec_start, execStart]
  refine runInstr_again ?_
  simp only [Exec.bind_apply, notLatent_calm (State.calm_noteIssue hcalm), roleIs, slotNumber_apply, State.noteIssue_cur, hslot, beq_self_eq_true,
    require_true, kreg_issued, recordSeen_reads hcalm hsaw hp]

variable (hsaw : (s.slot s.cur).saw 0 = some o)

include hsaw

/-- START of a record that it has read, by the helper that it takes. -/
theorem start_picks : exec (.start d ka) s = runInstr 4 (do
    match startPick s (recordOf s o o.bytes).deadline with
    | none => dst d (BitVec.allOnes 64)
    | some i =>
      if s.templateOk (recordOf s o o.bytes) then
        holdFree
        raiseLive (recordOf s o o.bytes).group 1
        modify fun u => u.startRec (12 * coreOf s.cur + i) (recordOf s o o.bytes) 0 1 id
        dst d (BitVec.ofNat 64 i)
      else dst d (BitVec.allOnes 64)
    forget
    pure .next) s := by
  have hacts := actsAs_issued hcalm
  have hpick := startPick_issued s (recordOf s o o.bytes).deadline
  have htemplate := templateOk_issued s (recordOf s o o.bytes)
  rw [exec_start, execStart]
  refine runInstr_congr ?_
  simp only [Exec.bind_apply, notLatent_calm hacts.calm, roleIs, slotNumber_apply, State.noteIssue_cur, hslot, beq_self_eq_true,
    require_true, kreg_issued, recordSeen_seen hsaw, recordIn_acts hacts, Exec.get_apply]
  rw [← hpick, ← htemplate]
  rfl

theorem start_none (hpick : startPick s (recordOf s o o.bytes).deadline = none) :
    exec (.start d ka) s = .next ((pushed s.noteIssue s.cur d (BitVec.allOnes 64)).past 4) := by
  rw [start_picks d hcalm hslot hsaw, hpick]
  exact runInstr_past (dst_then_forget (State.noteIssue_cur s) ..)

section Picked

variable {i : Nat} (hpick : startPick s (recordOf s o o.bytes).deadline = some i)

include hpick

theorem start_illFormed (hok : s.templateOk (recordOf s o o.bytes) = false) :
    exec (.start d ka) s = .next ((pushed s.noteIssue s.cur d (BitVec.allOnes 64)).past 4) := by
  rw [start_picks d hcalm hslot hsaw, hpick, hok]
  exact runInstr_past (dst_then_forget (State.noteIssue_cur s) ..)

variable (hok : s.templateOk (recordOf s o o.bytes) = true)

include hok

/-- START waits while the hold register is occupied (R180). -/
theorem start_waits (hhold : (s.cluster (clusterOf (coreOf s.cur))).hold ≠ none) : exec (.start d ka) s = s.waits := by
  have hheld : (s.cluster (clusterOf (coreOf s.cur))).hold.isNone = false := by rwa [Option.isNone_eq_false_iff, Option.isSome_iff_ne_none]
  rw [start_picks d hcalm hslot hsaw, hpick, hok]
  refine runInstr_waits ?_
  simp only [if_true, Exec.bind_apply, holdFree_apply, State.noteIssue_cur, State.cluster_noteIssue, hheld, await_false]

/-- START starts its record on the helper that it takes. -/
theorem start_starts (hhold : (s.cluster (clusterOf (coreOf s.cur))).hold = none) : exec (.start d ka) s =
    .next ((pushed ((s.noteIssue.liveNow (s.partOfSlot s.cur) (s.slot s.cur).tenant (recordOf s o o.bytes).group 1 (coreOf s.cur)).startRec
      (12 * coreOf s.cur + i) (recordOf s o o.bytes) 0 1 id) s.cur d (BitVec.ofNat 64 i)).past 4) := by
  rw [start_picks d hcalm hslot hsaw, hpick, hok]
  refine runInstr_past ?_
  simp only [if_true, Exec.bind_apply, holdFree_apply, State.noteIssue_cur, State.cluster_noteIssue, hhold, Option.isNone_none, await_true,
    raiseLive_calm (State.calm_noteIssue hcalm), State.noteIssue_partOfSlot, State.noteIssue_slot_tenant, Exec.modify_apply]
  exact dst_then_forget ((startRec_cur ..).trans (KeepsSlots.refl s.noteIssue).liveNow.cur) ..

end Picked

end Start

/-! ## LAUNCH and LAUNCHI (R186) -/

section Launch

variable {s t u : State} (d : Dst) {ka kb : BitVec 3} {b : Src} {m : U64} {o : Seen} {key : Nat} {keep : Bool} {va : Option Nat} (hcalm : s.calm)

include hcalm

theorem launch_reads (hm : s.reads b = some m) (hsaw : (s.slot s.cur).saw 0 = none) (hp : place (s.cap ka) (s.cap ka).cursor 64
    { spaces := [0, 1, 2], perm := [0, 1, 5, 3], align := 64 } [1, 2, 4] s.noteIssue = .ok (.mem key keep va, t)) : exec (.launch d ka b) s =
      s.keeps t 0 (s.object key keep va (s.globalAddr (s.partOfSlot s.cur) (s.cap ka).space (s.cap ka).cursor) 64) := by
  rw [exec_launch, execLaunch]
  refine runInstr_again ?_
  simp only [Exec.bind_apply, src_issued hm, notLatent_calm (State.calm_noteIssue hcalm), kreg_issued, recordSeen_reads hcalm hsaw hp]

/-- LAUNCHI checks the place of its count in the step that reads its record. -/
theorem launchi_reads {pl : Place} (hsaw : (s.slot s.cur).saw 0 = none) (hp : place (s.cap ka) (s.cap ka).cursor 64
    { spaces := [0, 1, 2], perm := [0, 1, 5, 3], align := 64 } [1, 2, 4] s.noteIssue = .ok (.mem key keep va, t))
    (hcount : place (s.cap kb) (s.cap kb).cursor 8 { perm := [0], align := 8 } [1] t = .ok (pl, u)) : exec (.launchi d ka kb) s =
      s.keeps u 0 (s.object key keep va (s.globalAddr (s.partOfSlot s.cur) (s.cap ka).space (s.cap ka).cursor) 64) := by
  have hacts := actsAs_issued hcalm
  have hstep := inStep_new (m := do
    let r ← recordAt (s.cap ka)
    let _ ← place (s.cap kb) (s.cap kb).cursor 8 { perm := [0], align := 8 } [1]
    look r 64) ((saw_issued s 0).trans hsaw)
    (by simp only [Exec.bind_apply, recordAt, objectAt_mem hacts hp, hcount, look_object ((hacts.placed hp).placed hcount)]; rfl)
  rw [exec_launchi, execLaunchi]
  refine runInstr_again ?_
  simp only [Exec.bind_apply, notLatent_calm hacts.calm, kreg_issued, hstep]

variable (hsaw : (s.slot s.cur).saw 0 = some o)

include hsaw

section Count

variable (hm : s.reads b = some m)

include hm

theorem launch_illFormed (h : s.templateOk (recordOf s o o.bytes) = false ∨ 2 ^ 32 ≤ m.toNat) :
    exec (.launch d ka b) s = .next ((pushed s.noteIssue s.cur d (BitVec.allOnes 64)).past 4) := by
  have hacts := actsAs_issued hcalm
  have hbad : (!s.templateOk (recordOf s o o.bytes) || decide (m.toNat ≥ 2 ^ 32)) = true := by
    rw [Bool.or_eq_true, Bool.not_eq_true', decide_eq_true_eq]
    exact h
  rw [exec_launch, execLaunch]
  refine runInstr_past ?_
  simp only [Exec.bind_apply, src_issued hm, notLatent_calm hacts.calm, kreg_issued, recordSeen_seen hsaw, recordIn_acts hacts, Exec.get_apply,
    templateOk_issued, hbad, if_true]
  exact dst_then_forget (State.noteIssue_cur s) ..

section Template

variable (hok : s.templateOk (recordOf s o o.bytes) = true)

include hok

/-- LAUNCH of no items pushes their number, and queues nothing. -/
theorem launch_none (h0 : m = 0#64) : exec (.launch d ka b) s = .next ((pushed s.noteIssue s.cur d 0#64).past 4) := by
  have hacts := actsAs_issued hcalm
  subst h0
  rw [exec_launch, execLaunch]
  refine runInstr_past ?_
  simp only [Exec.bind_apply, src_issued hm, notLatent_calm hacts.calm, kreg_issued, recordSeen_seen hsaw, recordIn_acts hacts, Exec.get_apply,
    templateOk_issued, hok]
  exact dst_then_forget (State.noteIssue_cur s) ..

theorem launch_queues (h0 : m ≠ 0#64) (hlt : m.toNat < 2 ^ 32) {q : State}
    (hq : (s.noteIssue.liveNow (s.partOfSlot s.cur) (s.slot s.cur).tenant (recordOf s o o.bytes).group m.toNat (coreOf s.cur)).enqueue
      (clusterOf (coreOf s.cur)) { job := recordOf s o o.bytes, count := m.toNat, gcount := m.toNat } = some q) :
    exec (.launch d ka b) s = .next ((pushed q s.cur d m).past 4) := by
  have hacts := actsAs_issued hcalm
  have hgood : (!s.templateOk (recordOf s o o.bytes) || decide (m.toNat ≥ 2 ^ 32)) = false := by
    rw [hok, decide_eq_false (Nat.not_le.2 hlt)]
    rfl
  have hlive : (s.noteIssue.liveNow (s.partOfSlot s.cur) (s.slot s.cur).tenant (recordOf s o o.bytes).group m.toNat (coreOf s.cur)).cur = s.cur :=
    (KeepsSlots.refl s.noteIssue).liveNow.cur
  rw [exec_launch, execLaunch]
  refine runInstr_past ?_
  simp only [Exec.bind_apply, src_issued hm, notLatent_calm hacts.calm, kreg_issued, recordSeen_seen hsaw, recordIn_acts hacts, Exec.get_apply,
    templateOk_issued, hgood, Bool.false_eq_true, if_false, if_pos h0, raiseLive_calm hacts.calm, State.noteIssue_cur, State.noteIssue_partOfSlot,
    State.noteIssue_slot_tenant, hlive, hq, orWait, Exec.set_apply]
  exact dst_then_forget ((enqueue_cur hq).trans hlive) ..

end Template

end Count

theorem launchi_illFormed (hok : s.templateOk (recordOf s o o.bytes) = false) :
    exec (.launchi d ka kb) s = .next ((pushed s.noteIssue s.cur d (BitVec.allOnes 64)).past 4) := by
  have hacts := actsAs_issued hcalm
  rw [exec_launchi, execLaunchi]
  refine runInstr_past ?_
  simp only [Exec.bind_apply, notLatent_calm hacts.calm, kreg_issued, inStep_seen ((saw_issued s 0).trans hsaw), recordIn_acts hacts,
    Exec.get_apply, templateOk_issued, hok, Bool.not_false, if_true]
  exact dst_then_forget (State.noteIssue_cur s) ..

/-- LAUNCHI queues its template for a count still to be read. -/
theorem launchi_queues (hok : s.templateOk (recordOf s o o.bytes) = true) {q : State}
    (hq : (s.noteIssue.liveNow (s.partOfSlot s.cur) (s.slot s.cur).tenant (recordOf s o o.bytes).group 1 (coreOf s.cur)).enqueue
      (clusterOf (coreOf s.cur)) { job := recordOf s o o.bytes, count := 0, gcount := 0,
                                   unread := some ((s.cap kb).space, (s.cap kb).cursor, s.cur) } = some q) :
    exec (.launchi d ka kb) s = .next ((pushed q s.cur d 0#64).past 4) := by
  have hacts := actsAs_issued hcalm
  have hlive : (s.noteIssue.liveNow (s.partOfSlot s.cur) (s.slot s.cur).tenant (recordOf s o o.bytes).group 1 (coreOf s.cur)).cur = s.cur :=
    (KeepsSlots.refl s.noteIssue).liveNow.cur
  rw [exec_launchi, execLaunchi]
  refine runInstr_past ?_
  simp only [Exec.bind_apply, notLatent_calm hacts.calm, kreg_issued, inStep_seen ((saw_issued s 0).trans hsaw), recordIn_acts hacts,
    Exec.get_apply, templateOk_issued, hok, Bool.not_true, Bool.false_eq_true, if_false, raiseLive_calm hacts.calm, State.noteIssue_cur,
    State.noteIssue_partOfSlot, State.noteIssue_slot_tenant, hlive, hq, orWait, Exec.set_apply]
  exact dst_then_forget ((enqueue_cur hq).trans hlive) ..

end Launch

/-! ## JOIN (R172, R183) -/

section Join

variable {s t : State} (d : Dst) {ka : BitVec 3} {key : Nat} {keep : Bool} {va : Option Nat} (hcalm : s.calm)
  (hp : place (s.cap ka) (s.cap ka).cursor 64 { spaces := [0, 1, 2], perm := [0, 1, 5, 3], align := 64 } [1, 2, 4] (releasing s.noteIssue) =
    .ok (.mem key keep va, t))

include hcalm hp

theorem join_zero (hj : leAt (s.bytes key 64) 32 4 = 0) :
    exec (.join d ka) s = .next ((t.modSlot s.cur fun x => x.result d (BitVec.allOnes 64)).past 4) := by
  have hacts := actsAs_issued hcalm
  have hplaced := hacts.releasing.placed hp
  rw [exec_join, execJoin]
  refine runInstr_past ?_
  simp only [Exec.bind_apply, notLatent_calm hacts.calm, kreg_issued, fenceRel_calm 5 hacts.calm, recordAt, objectAt_mem hacts.releasing hp,
    readBytes_object hplaced, hj, if_true, dst_at hplaced.cur, Exec.pure_apply]

/-- What JOIN leaves in memory and pushes: the counter of its record lower by 1. -/
def joined (s t : State) (d : Dst) (key : Nat) (va : Option Nat) : State :=
  (t.performWrites (s.partOfSlot s.cur) (s.slot s.cur).tenant va (writesAt (key + 32) (toBytes 4 (leAt (s.bytes key 64) 32 4 - 1))) none).modSlot
    s.cur fun x => x.result d (BitVec.ofNat 64 (leAt (s.bytes key 64) 32 4 - 1))

theorem join_lowers (hj : 2 ≤ leAt (s.bytes key 64) 32 4) : exec (.join d ka) s = .next ((joined s t d key va).past 4) := by
  have hacts := actsAs_issued hcalm
  have hplaced := hacts.releasing.placed hp
  have h0 : leAt (s.bytes key 64) 32 4 ≠ 0 := by omega
  have h1 : leAt (s.bytes key 64) 32 4 ≠ 1 := by omega
  rw [exec_join, execJoin]
  refine runInstr_past ?_
  simp only [Exec.bind_apply, notLatent_calm hacts.calm, kreg_issued, fenceRel_calm 5 hacts.calm, recordAt, objectAt_mem hacts.releasing hp,
    readBytes_object hplaced, if_neg h0, if_neg h1, writeObject_acts hplaced, dst_at hplaced.performWrites_cur, Exec.pure_apply, joined]

/-- JOIN that lowers a counter to 0 releases its record. -/
theorem join_releases (hj : leAt (s.bytes key 64) 32 4 = 1) {r : Rec} {w q : State}
    (hr : readRecord { key := key, keep := keep, va := va, addr := s.globalAddr (s.partOfSlot s.cur) (s.cap ka).space (s.cap ka).cursor }
      (joined s t d key va) = .ok (r, w)) (hcur : w.cur = s.cur) (hq : w.released r (coreOf s.cur) = some q) :
    exec (.join d ka) s = .next (q.past 4) := by
  have hacts := actsAs_issued hcalm
  have hplaced := hacts.releasing.placed hp
  simp only [joined, hj] at hr
  rw [exec_join, execJoin]
  refine runInstr_past ?_
  simp only [Exec.bind_apply, notLatent_calm hacts.calm, kreg_issued, fenceRel_calm 5 hacts.calm, recordAt, objectAt_mem hacts.releasing hp,
    readBytes_object hplaced, hj, Nat.one_ne_zero, if_false, if_true, writeObject_acts hplaced, dst_at hplaced.performWrites_cur, hr,
    Exec.get_apply, hcur, hq, orWait, Exec.set_apply, Exec.pure_apply]

end Join

/-- Settles O28: START by the helper that it picks, LAUNCH and LAUNCHI by what they queue, JOIN by its counter. -/
theorem startLaunchJoin : Obligations.StartLaunchJoin := by
  refine ⟨fun s t d ka kb b m key keep va c cc o r hcalm hc hcc hm => ?_, fun s t d ka key j keep va c hcalm hc hp hj => ?_⟩
  · subst hc hcc
    intro p ten core cl n pushes template mine free
    refine ⟨start_traps d hcalm, fun hsaw hp => ⟨fun hslot => start_reads d hcalm hslot hsaw hp, launch_reads d hcalm hm hsaw hp, fun pl u =>
      launchi_reads d hcalm hsaw hp⟩, fun hsaw hr => ?_⟩
    subst hr
    have hok (h : template) : s.templateOk (recordOf s o o.bytes) = true := (templateOk_iff ..).2 h
    have hbad (h : ¬ template) : s.templateOk (recordOf s o o.bytes) = false := Bool.eq_false_iff.2 fun ht => h ((templateOk_iff ..).1 ht)
    have htakes {i : Nat} (hi : i < 11) (h : free i) : takesStart s (recordOf s o o.bytes).deadline i = true := (takesStart_iff _ _ hi).2 h
    have hleft {i : Nat} (hi : i < 11) (h : ¬ free i) : takesStart s (recordOf s o o.bytes).deadline i = false :=
      Bool.eq_false_iff.2 fun ht => h ((takesStart_iff _ _ hi).1 ht)
    refine ⟨fun hslot i hi hfree hbefore => ?_, fun hslot hnone => ?_, fun h => ?_, fun h => ?_, fun h h0 hlt q => ?_, fun h => ?_,
      fun h q => ?_⟩
    · have hpick := startPick_eq_some hi (htakes hi hfree) fun j hj => hleft (hj.trans hi) (hbefore j hj)
      exact ⟨fun h => start_waits d hcalm hslot hsaw hpick (hok h), fun h => start_starts d hcalm hslot hsaw hpick (hok h),
        fun h => start_illFormed d hcalm hslot hsaw hpick (hbad h)⟩
    · exact start_none d hcalm hslot hsaw (startPick_eq_none fun j hj => hleft hj (hnone j hj))
    · exact launch_illFormed d hcalm hsaw hm (h.imp_left hbad)
    · exact launch_none d hcalm hsaw hm (hok h)
    · exact launch_queues d hcalm hsaw hm (hok h) h0 hlt
    · exact launchi_illFormed d hcalm hsaw (hbad h)
    · exact launchi_queues d hcalm hsaw (hok h)
  · subst hc hj
    intro p ten u
    exact ⟨join_zero d hcalm hp, join_lowers d hcalm hp, fun hj w r q hr hcur hq _ => join_releases d hcalm hp hj hr hcur hq⟩

end Sys2Proof.Laws

/-! # What the steps at homes cannot reach (R146, R174, R198, R409, R412) -/

namespace Sys2Proof.Laws

open Sys2Proof.Machine

/-- A property of states that writes at homes leave: the bytes with their tags and poison, the log of a page with its registers, and
the granules filled. -/
structure KeptByWrites (P : State → Prop) : Prop where
  byte : ∀ {s k b}, P s → P (s.setByte k b)
  tag : ∀ {s k b}, P s → P (s.setTag k b)
  poison : ∀ {s k b}, P s → P (s.setPoison k b)
  reg : ∀ {s p n v}, P s → P (s.setPartReg p n v)
  filter : ∀ {s f}, P s → P { s with dirtyFilter := f }
  filled : ∀ {s k}, P s → P { s with absent := s.absent.filter fun a => a.key ≠ k }

/-- A property of states that steps on completion records leave as well: releases, error records, and the journal's messages. -/
structure KeptByGroups (P : State → Prop) : Prop extends KeptByWrites P where
  released : ∀ {s r}, P s → P { s with releases := r }
  error : ∀ {s r}, P s → P { s with errRing := r }
  lost : ∀ {s r}, P s → P { s with errLost := r }
  sent : ∀ {s n a}, P s → P { s with fresh := n, flight := s.flight ++ [a] }
  links : ∀ {s l}, P s → P { s with links := l }
  steps : ∀ {s g}, P s → P { s with groupSteps := g }

theorem kept_foldl {P : State → Prop} {β : Type} {f : State → β → State} (hf : ∀ s b, P s → P (f s b)) (l : List β) {s : State} (h : P s) :
    P (l.foldl f s) := by
  induction l generalizing s with
  | nil => exact h
  | cons b l ih => exact ih (hf s b h)

namespace KeptByWrites

variable {P : State → Prop} (hP : KeptByWrites P) {s : State}

include hP

theorem writeAll {ws} (h : P s) : P (s.writeAll ws) := kept_foldl (fun _ _ h => hP.byte h) ws h

theorem fillFor {k n} (h : P s) : P (s.fillFor k n) :=
  kept_foldl (fun _ _ h => kept_foldl (fun _ _ h => hP.tag h) _ (hP.poison (hP.writeAll (hP.filled h)))) _ h

theorem logWrite {p t va} (h : P s) : P (s.logWrite p t va) := by
  unfold State.logWrite
  extract_lets +onlyGivenNames ctl span put1 s₁ page fk seen size head tail a s₂ s₃
  have h₁ : P s₁ := by
    unfold s₁ put1
    split
    · exact hP.reg h
    · split
      · split
        · exact h
        · exact hP.byte h
      · exact h
  have h₂ : P s₂ := by
    unfold s₂
    split
    · exact hP.writeAll h₁
    · exact h₁
  split
  · exact h
  · split
    · exact h₁
    · split
      · exact hP.reg h₁
      · exact hP.filter (hP.reg h₂)

theorem performWrites {p t va ws tag} (h : P s) : P (s.performWrites p t va ws tag) := by
  unfold State.performWrites
  extract_lets +onlyGivenNames s₁ s₂ s₃ s₄
  have h₁ : P s₁ := by
    unfold s₁
    split
    · exact h
    · exact hP.fillFor h
  have h₂ : P s₂ := by
    unfold s₂
    split
    · exact hP.logWrite h₁
    · exact h₁
  have h₄ : P s₄ := kept_foldl (fun _ _ h => hP.poison h) _ (hP.writeAll h₂)
  split
  · exact hP.tag h₄
  · exact h₄

theorem journalPut {p group deadline kind tenant gslot state} (h : P s) : P (s.journalPut p group deadline kind tenant gslot state) :=
  hP.reg (hP.performWrites h)

theorem journalNew {p group deadline kind tenant gslot state} (h : P s) : P (s.journalNew p group deadline kind tenant gslot state).2 := by
  unfold State.journalNew
  dsimp only
  split
  · exact h
  · exact hP.journalPut h

end KeptByWrites

namespace KeptByGroups

variable {P : State → Prop} (hP : KeptByGroups P) {s : State}

include hP

theorem schedError {die code addr tenant part} (h : P s) : P (s.schedError die code addr tenant part) := by
  unfold State.schedError State.errorRecord
  dsimp only
  split
  · exact hP.error h
  · exact hP.lost h

theorem sendJournal {p seq state c} (h : P s) : P (s.sendJournal p seq state c) := by
  unfold State.sendJournal
  extract_lets id home a
  obtain ⟨l, hl⟩ := State.post_links { s with fresh := s.fresh + 1, flight := s.flight ++ [a] } id hardwareClass false hardwareSlot home
    (s.pathTo c home)
  rw [hl]
  exact hP.links (hP.sent h)

theorem resolveFuture {p t va value c home} (h : P s) : P (s.resolveFuture p t va value c home).2 := by
  have hw := hP.toKeptByWrites
  unfold State.resolveFuture
  dsimp only
  split
  · exact h
  · split
    · exact h
    · split
      · exact hw.fillFor h
      · split
        · exact hw.fillFor h
        · split
          · exact hP.released (hw.performWrites (hw.fillFor h))
          · dsimp only
            exact hw.performWrites (hw.fillFor h)

theorem applyGroup {g} (h : P s) : P (s.applyGroup g) := by
  have hw := hP.toKeptByWrites
  unfold State.applyGroup
  extract_lets +onlyGivenNames r die bad
  split
  · exact hP.schedError h
  next key _ log _ =>
    extract_lets +onlyGivenNames s₁ live fl0 set1 fl1 fl2 complete fl3 traps put s₂ s₃
    have hput {v : State} {off n x} (hv : P v) : P (put v off n x) := hw.performWrites hv
    have h₂ : P s₂ := hput (hput (hput (hw.fillFor h)))
    have h₃ : P s₃ := by
      unfold s₃
      split
      · exact hput h₂
      · exact h₂
    split
    · extract_lets +onlyGivenNames fut s₄ seq
      have h₄ : P s₄ := by
        unfold s₄
        split
        · exact h₃
        · split
          next res v he =>
            have hv : P v := by
              have hres := hP.resolveFuture (p := r.part) (t := r.tenant) (va := fut) (value := fl3) (c := g.core) (home := some (homeOf key)) h₃
              rwa [he] at hres
            refine hput ?_
            split
            · exact hv
            · exact hput hv
            · exact hP.schedError (hput hv)
            · exact hP.schedError (hput hv)
      split
      · exact h₄
      · exact hP.sendJournal h₄
    · exact h₃

theorem groupNow {g} (h : P s) : P (s.groupNow g) := kept_foldl (fun _ _ h => hP.applyGroup h) _ (hP.steps h)

theorem liveNow {p t group delta c} (h : P s) : P (s.liveNow p t group delta c) := by
  unfold State.liveNow
  split
  · exact h
  · exact hP.groupNow h

end KeptByGroups

/-! ## Where a hardware step finds its target, whatever is on its way (R163 to R165, R245) -/

section OnTheWay

variable (s : State) (f : List Access) (r : List Release) (g : List GroupStep)

theorem walkFrom_onTheWay (va n tab : Nat) :
    State.walkFrom { s with flight := f, releases := r, groupSteps := g } va n tab = s.walkFrom va n tab := by
  induction n generalizing tab with
  | zero => rfl
  | succ n ih =>
    unfold State.walkFrom
    rw [show State.walkFrom { s with flight := f, releases := r, groupSteps := g } va n = s.walkFrom va n from funext ih]
    rfl

theorem walk_onTheWay (p t va : Nat) : State.walk { s with flight := f, releases := r, groupSteps := g } p t va = s.walk p t va := by
  unfold State.walk
  rw [walkFrom_onTheWay]
  rfl

theorem hwPlace_onTheWay (p t va : Nat) (bits : List Nat) :
    State.hwPlace { s with flight := f, releases := r, groupSteps := g } p t va bits = s.hwPlace p t va bits := by
  unfold State.hwPlace State.hwFind
  rw [walk_onTheWay]
  rfl

end OnTheWay

/-! ## What is kept -/

theorem kept_slices (l : List Slice) : KeptByGroups fun t => t.slices = l where
  byte h := h
  tag h := h
  poison h := h
  reg h := h
  filter h := h
  filled h := h
  released h := h
  error h := h
  lost h := h
  sent h := h
  links h := h
  steps h := h

/-- Where no granule is absent, none becomes so (R220). -/
theorem kept_absent : KeptByGroups fun t => t.absent = [] where
  byte h := h
  tag h := h
  poison h := h
  reg h := h
  filter h := h
  filled h := by rw [h]; rfl
  released h := h
  error h := h
  lost h := h
  sent h := h
  links h := h
  steps h := h

end Sys2Proof.Laws

/-! # Admission (R191, R193, R366) -/

namespace Sys2Proof.Laws

open Sys2Proof.Machine

/-! ## Reserved slots -/

theorem reservedSlots_bit (s : State) (p cls i : Nat) : s.reservedSlots p cls / 2 ^ i % 2 = 1 ↔
    1 ≤ i ∧ i ≤ 9 ∧ s.partFld p 0x80F (16 * cls) 16 / 2 ^ i % 2 = 1 := by
  have hbit (n : Nat) : n / 2 ^ i % 2 = 1 ↔ n.testBit i = true := by
    rw [Nat.testBit_eq_decide_div_mod_eq, decide_eq_true_eq]
  rw [hbit, hbit, State.reservedSlots, Nat.mul_comm, ← Nat.pow_one 2, Nat.testBit_two_pow_mul, Nat.testBit_div_two_pow, Nat.pow_one,
    Nat.testBit_mod_two_pow]
  simp only [Bool.and_eq_true, decide_eq_true_eq]
  constructor
  · rintro ⟨h1, h2, h3⟩
    rw [Nat.sub_add_cancel h1] at h2 h3
    exact ⟨h1, by omega, h3⟩
  · rintro ⟨h1, h2, h3⟩
    rw [Nat.sub_add_cancel h1]
    exact ⟨h1, by omega, h3⟩

theorem mem_reservedIn (s : State) (p cls cl g : Nat) : g ∈ s.reservedIn p cls cl ↔ clusterOf (coreOf g) = cl ∧
    s.ownsCore p (coreOf g) = true ∧ 1 ≤ slotNo g ∧ slotNo g ≤ 9 ∧ s.partFld p 0x80F (16 * cls) 16 / 2 ^ slotNo g % 2 = 1 := by
  have hcl : clusterOf (coreOf g) = cl ↔ ∃ i < 96, cl * 96 + i = g := by
    rw [clusterOf, coreOf]
    exact ⟨fun h => ⟨g % 96, by omega, by omega⟩, by rintro ⟨i, hi, rfl⟩; omega⟩
  rw [← reservedSlots_bit, hcl, State.reservedIn, List.mem_filterMap]
  simp only [List.mem_range, Option.ite_none_right_eq_some, Option.some.injEq, Bool.and_eq_true, decide_eq_true_eq]
  constructor
  · rintro ⟨i, hi, ⟨hown, hres⟩, rfl⟩
    exact ⟨⟨i, hi, rfl⟩, hown, hres⟩
  · rintro ⟨⟨i, hi, rfl⟩, hown, hres⟩
    exact ⟨i, hi, ⟨hown, hres⟩, rfl⟩

theorem pairwise_reservedIn (s : State) (p cls cl : Nat) : (s.reservedIn p cls cl).Pairwise (fun a b => a < b) := by
  rw [State.reservedIn, List.pairwise_filterMap]
  refine List.pairwise_lt_range.imp fun {a b} hab => ?_
  simp only [Option.ite_none_right_eq_some, Option.some.injEq]
  rintro _ ⟨_, rfl⟩ _ ⟨_, rfl⟩
  omega

/-! ## The room of a slot -/

/-- What the admitted slices of slot `g` that are due by `d` still cost, with the slices `new` queued there (R193). -/
def demandWith (s : State) (new : List Slice) (g d : Nat) : Nat :=
  (if (s.slot g).admitted = true then (s.slot g).charge else 0) +
    ((((s.slices.filter fun x => x.slot = g) ++ new).filter fun x => decide (x.job.deadline.toNat ≤ d)).map fun x => x.charge).sum

/-- Slot `g` has room for the slices `new` together (R193, R366). -/
def HasRoom (s : State) (new : List Slice) (g : Nat) : Prop :=
  (s.slices.filter fun x => x.slot = g).length + (if (s.slot g).admitted = true then 1 else 0) + new.length ≤ 32 ∧ ∀ x ∈ new, ∀ d : Nat,
    (d = x.job.deadline.toNat ∨ x.job.deadline.toNat < d ∧
      ∃ y ∈ (s.slices.filter fun x => x.slot = g) ++ new, y.job.deadline.toNat = d) →
    (demandWith s new g d : Int) ≤ ((d : Int) - (s.cycle (dieOf (coreOf g))).toNat) / 12

/-- The slices `new` queued on slot `g`. -/
def boundTo (s : State) (new : List Slice) (g : Nat) : State :=
  { s with slices := s.slices ++ new.map fun x => { x with slot := g } }

theorem slicesOn_boundTo (s : State) (new : List Slice) (g : Nat) :
    (boundTo s new g).slicesOn g = (s.slices.filter fun x => x.slot = g) ++ new.map fun x => { x with slot := g } := by
  rw [State.slicesOn, boundTo, List.filter_append]
  congr 1
  rw [List.filter_eq_self]
  intro x hx
  obtain ⟨y, _, rfl⟩ := List.mem_map.1 hx
  exact decide_eq_true rfl

theorem demand_boundTo (s : State) (new : List Slice) (g d : Nat) : (boundTo s new g).demand g d = demandWith s new g d := by
  have hsum : ((new.map fun x => { x with slot := g }).filter fun x => decide (x.job.deadline.toNat ≤ d)).map Slice.charge =
      (new.filter fun x => decide (x.job.deadline.toNat ≤ d)).map Slice.charge := by
    rw [List.filter_map, List.map_map]
    rfl
  rw [State.demand, slicesOn_boundTo, List.filter_append, List.map_append, hsum, demandWith, List.filter_append, List.map_append]
  rfl

theorem fits_boundTo (s : State) (new : List Slice) (g d : Nat) : (boundTo s new g).fits g d = true ↔ ∀ e : Nat,
    (e = d ∨ d < e ∧ ∃ y ∈ (s.slices.filter fun x => x.slot = g) ++ new, y.job.deadline.toNat = e) →
    (demandWith s new g e : Int) ≤ ((e : Int) - (s.cycle (dieOf (coreOf g))).toNat) / 12 := by
  have hdates (e : Nat) : (e ∈ d :: (((boundTo s new g).slicesOn g).map fun x => x.job.deadline.toNat).filter fun x => decide (x > d)) ↔
      (e = d ∨ d < e ∧ ∃ y ∈ (s.slices.filter fun x => x.slot = g) ++ new, y.job.deadline.toNat = e) := by
    rw [slicesOn_boundTo, List.map_append, List.map_map]
    change e ∈ d :: List.filter _ (_ ++ new.map fun x => x.job.deadline.toNat) ↔ _
    rw [← List.map_append, List.mem_cons, List.mem_filter, List.mem_map, decide_eq_true_eq, and_comm]
  rw [State.fits, List.all_eq_true]
  refine forall_congr' fun e => imp_congr (hdates e) ?_
  rw [decide_eq_true_eq, demand_boundTo]
  rfl

theorem hasRoom_iff (s : State) (new : List Slice) (g : Nat) : HasRoom s new g ↔
    (s.slicesOn g).length + (if (s.slot g).admitted then 1 else 0) + new.length ≤ 32 ∧
      (new.all fun x => (boundTo s new g).fits g x.job.deadline.toNat) = true := by
  rw [List.all_eq_true]
  exact and_congr Iff.rfl (forall₂_congr fun x _ => (fits_boundTo s new g _).symm)

/-! ## Slices bound -/

theorem bindSlices_room {s : State} {new : List Slice} {g : Nat} (gs : List Nat) (h : HasRoom s new g) :
    s.bindSlices new (g :: gs) = some (boundTo s new g) := if_pos ((hasRoom_iff s new g).1 h)

theorem bindSlices_full {s : State} {new : List Slice} {g : Nat} (gs : List Nat) (h : ¬ HasRoom s new g) :
    s.bindSlices new (g :: gs) = s.bindSlices new gs := if_neg fun h' => h ((hasRoom_iff s new g).2 h')

theorem bindSlices_skip {s : State} {new : List Slice} {pre : List Nat} (post : List Nat) (h : ∀ g ∈ pre, ¬ HasRoom s new g) :
    s.bindSlices new (pre ++ post) = s.bindSlices new post := by
  induction pre with
  | nil => rfl
  | cons g pre ih =>
    obtain ⟨hg, hpre⟩ := List.forall_mem_cons.1 h
    rw [List.cons_append, bindSlices_full _ hg, ih hpre]

theorem bindSlices_first {s : State} {new : List Slice} {pre : List Nat} {g : Nat} (post : List Nat) (hg : HasRoom s new g)
    (h : ∀ g ∈ pre, ¬ HasRoom s new g) : s.bindSlices new (pre ++ g :: post) = some (boundTo s new g) := by
  rw [bindSlices_skip _ h, bindSlices_room _ hg]

theorem bindSlices_none {s : State} {new : List Slice} {gs : List Nat} (h : ∀ g ∈ gs, ¬ HasRoom s new g) : s.bindSlices new gs = none := by
  rw [← List.append_nil gs, bindSlices_skip _ h]
  rfl

theorem admitGroups_full {s : State} {p cls cl : Nat} {new : List Slice} (more : List (List Slice))
    (h : s.bindSlices new (s.reservedIn p cls cl) = none) : s.admitGroups p cls cl (new :: more) = none := by
  rw [State.admitGroups, h]

theorem admitGroups_bound {s w : State} {p cls cl : Nat} {new : List Slice} (more : List (List Slice))
    (h : s.bindSlices new (s.reservedIn p cls cl) = some w) : s.admitGroups p cls cl (new :: more) = w.admitGroups p cls cl more := by
  rw [State.admitGroups, h]

/-! ## SUBMIT's test -/

/-- What SUBMIT asks of the reserved slots: a slice for each record, with its charge (R193). -/
def asked (recs : List Rec) : List (List Slice) := recs.map fun r => [{ slot := 0, job := r, charge := r.budget.toNat + 16 }]

section Submit

variable {s w z : State} {p ten cl gslot : Nat} {hdr : List Byte} {recs : List Rec}

theorem submitStep_illFormed (hok : s.submitOk hdr recs = false) : s.submitStep p ten cl gslot hdr recs = (-1, s) := by
  rw [State.submitStep, hok]
  rfl

theorem submitStep_rejected (hok : s.submitOk hdr recs = true) (hadmit : s.admitGroups p (s.tenantClass p ten) cl (asked recs) = none) :
    s.submitStep p ten cl gslot hdr recs = (0, (s.journalNew p (leAt hdr 8 8) (firstDeadline recs) 0 ten gslot 4).2) := by
  rw [asked] at hadmit
  rw [State.submitStep, hok]
  simp only [Bool.not_true, Bool.false_eq_true, if_false, hadmit]

/-- The step that SUBMIT makes on the completion record of its group, under the sequence number `seq` of its entry (R174, R193). -/
def submitted (p ten cl : Nat) (hdr : List Byte) (recs : List Rec) (seq : Nat) : GroupStep :=
  { ref := { part := p, tenant := ten, offset := leAt hdr 8 8 }, delta := recs.length, submitted := true, seq := some (BitVec.ofNat 64 seq),
    core := 8 * cl }

theorem submitStep_admitted {seq : Nat} (hok : s.submitOk hdr recs = true)
    (hadmit : s.admitGroups p (s.tenantClass p ten) cl (asked recs) = some w)
    (hnew : w.journalNew p (leAt hdr 8 8) (firstDeadline recs) 0 ten gslot 0 = (some seq, z)) :
    s.submitStep p ten cl gslot hdr recs = ((seq : Int), z.groupNow (submitted p ten cl hdr recs seq)) := by
  rw [asked] at hadmit
  rw [State.submitStep, hok]
  simp only [Bool.not_true, Bool.false_eq_true, if_false, hadmit, hnew, submitted]

theorem journalNew_slices (group deadline kind state : Nat) : (s.journalNew p group deadline kind ten gslot state).2.slices = s.slices :=
  (kept_slices s.slices).journalNew rfl

theorem groupNow_slices (g : GroupStep) : (s.groupNow g).slices = s.slices := (kept_slices s.slices).groupNow rfl

end Submit

end Sys2Proof.Laws

/-! # Enqueue windows (R190, R193) -/

namespace Sys2Proof.Laws

open Sys2Proof.Machine

/-- `s` with nothing in flight: what is left of a state whose one access is performed. -/
def landedAll (s : State) : State := { s with flight := [] }

section Window

variable {s : State} {cl t : Nat} {addr : U64} {submit : Bool} {a : Access}

/-- A host's window store, the only access in flight, is performed at its window and answered. -/
theorem hostWindow_performs (hslot : a.slot = 0x1FFF) (hkind : a.kind = .window cl t (if submit then 8 else 0) addr)
    (hflight : s.flight = [a]) (hmay : s.mayPerform a = true) :
    s.hostWindow cl t addr submit =
      (if submit then (landedAll s).windowSubmit cl t addr else (landedAll s).windowSpawn cl t addr).map fun u => u.sendReturn a false := by
  have hfind : (s.flight.find? fun a => a.slot == hostSlot && a.kind == .window cl t (if submit then 8 else 0) addr) = some a := by
    rw [hflight]
    refine List.find?_cons_of_pos ?_
    rw [hslot, hkind, beq_self_eq_true, Bool.and_true]
    rfl
  have hwithout : ({ s with flight := s.flight.filter fun x => x.id ≠ a.id } : State) = landedAll s := by
    have hnone : (s.flight.filter fun x => x.id ≠ a.id) = [] := by
      rw [hflight]
      simp
    rw [hnone, landedAll]
  rw [State.hostWindow, hfind, Option.bind_some, if_pos hmay, State.perform, hkind, hwithout]
  cases submit with
  | false => rfl
  | true => rfl

theorem sendReturn_flight (s : State) (a : Access) (failed : Bool) : (s.sendReturn a failed).flight = s.flight := by
  obtain ⟨f, r, k, l, h⟩ := s.sameButReturns_sendReturn a failed
  rw [h]

theorem sendReturn_slices (s : State) (a : Access) (failed : Bool) : (s.sendReturn a failed).slices = s.slices := by
  obtain ⟨f, r, k, l, h⟩ := s.sameButReturns_sendReturn a failed
  rw [h]

theorem sendReturn_cluster (s : State) (a : Access) (failed : Bool) (cl : Nat) : (s.sendReturn a failed).cluster cl = s.cluster cl := by
  obtain ⟨f, r, k, l, h⟩ := s.sameButReturns_sendReturn a failed
  rw [h]
  rfl

theorem hwPlace_landedAll (s : State) (p t va : Nat) (bits : List Nat) : (landedAll s).hwPlace p t va bits = s.hwPlace p t va bits :=
  hwPlace_onTheWay s [] s.releases s.groupSteps p t va bits

theorem recOk_landedAll (s : State) (r : Rec) (kinds : List Nat) : (landedAll s).recOk r kinds = s.recOk r kinds := rfl

theorem submitOk_landedAll (s : State) (hdr : List Byte) (recs : List Rec) : (landedAll s).submitOk hdr recs = s.submitOk hdr recs := rfl

/-! ## The result word -/

theorem winSpawn_setWindow (s : State) (cl t : Nat) (v : Int) : ((s.setWindow cl t false v).cluster cl).winSpawn.get 0#64 t = u64 v := by
  rw [State.setWindow, State.cluster_modCluster, if_pos rfl]
  exact SMap.get_set_self ..

theorem winSubmit_setWindow (s : State) (cl t : Nat) (v : Int) : ((s.setWindow cl t true v).cluster cl).winSubmit.get 0#64 t = u64 v := by
  rw [State.setWindow, State.cluster_modCluster, if_pos rfl]
  exact SMap.get_set_self ..

theorem ready_setWindow (s : State) (cl t : Nat) (submit : Bool) (v : Int) : ((s.setWindow cl t submit v).cluster cl).ready = (s.cluster cl).ready := by
  rw [State.setWindow, State.cluster_modCluster, if_pos rfl]
  cases submit with
  | false => rfl
  | true => rfl

theorem schedError_cluster (s : State) (die code : Nat) (addr : U64) (tenant part cl : Nat) :
    (s.schedError die code addr tenant part).cluster cl = s.cluster cl := by
  unfold State.schedError State.errorRecord
  dsimp only
  split
  · rfl
  · rfl

theorem schedError_flight (s : State) (die code : Nat) (addr : U64) (tenant part : Nat) :
    (s.schedError die code addr tenant part).flight = s.flight := by
  unfold State.schedError State.errorRecord
  dsimp only
  split
  · rfl
  · rfl

/-! ## SPAWN at a window -/

theorem windowSpawn_fault (h : addr.toNat % 64 ≠ 0 ∨ addr.toNat ≥ 2 ^ 52) : s.windowSpawn cl t addr = some (s.windowFault cl t addr false) :=
  if_pos h

theorem windowSubmit_fault (hhold : (s.cluster cl).hold = none) (h : addr.toNat % 64 ≠ 0 ∨ addr.toNat ≥ 2 ^ 52) :
    s.windowSubmit cl t addr = some (s.windowFault cl t addr true) := by
  rw [State.windowSubmit, hhold]
  exact if_pos h

variable (halign : addr.toNat % 64 = 0) (hrange : addr.toNat < 2 ^ 52) (habsent : s.absent = []) {key : Nat} {keep : Bool} {log : Option Nat}

include halign hrange habsent

theorem windowSpawn_steps (hplace : s.hwPlace (s.partOf (8 * cl)) t addr.toNat [1, 2, 4] = some (key, keep, log)) :
    s.windowSpawn cl t addr = (s.spawnStep (s.readRec key keep addr.toNat t (s.partOf (8 * cl))) (8 * cl)).map
      fun x => x.2.setWindow cl t false x.1 := by
  rw [State.windowSpawn]
  dsimp only
  rw [if_neg (by omega), hplace]
  dsimp only
  rw [State.fillFor_nil habsent]

omit halign hrange in
/-- With no granule absent, a descriptor's records are read and nothing changes. -/
theorem hwRecs_state {p n i : Nat} {v : State} {recs : List Rec} (h : s.hwRecs p t addr.toNat n i = some (recs, v)) : v = s := by
  induction n generalizing recs v i with
  | zero =>
    cases h
    rfl
  | succ n ih =>
    rw [State.hwRecs] at h
    split at h
    · cases h
    · dsimp only at h
      rw [State.fillFor_nil habsent] at h
      split at h
      · cases h
      next rs u hrs =>
        cases h
        exact ih hrs

theorem windowSubmit_steps (hhold : (s.cluster cl).hold = none) (hplace : s.hwPlace (s.partOf (8 * cl)) t addr.toNat [1] = some (key, keep, log))
    {recs : List Rec} (hrecs : s.hwRecs (s.partOf (8 * cl)) t addr.toNat (descriptorCount 1 64 (s.bytes key 64)) 1 = some (recs, s)) :
    s.windowSubmit cl t addr = some ((s.submitStep (s.partOf (8 * cl)) t cl noSlot (s.bytes key 64) recs).2.setWindow cl t true
      (s.submitStep (s.partOf (8 * cl)) t cl noSlot (s.bytes key 64) recs).1) := by
  rw [State.windowSubmit, hhold]
  dsimp only
  rw [if_neg (by simp), if_neg (by omega), hplace]
  dsimp only
  rw [State.fillFor_nil habsent, hrecs]

end Window

end Sys2Proof.Laws

/-! # Spent charges and budgets (R192, R195, R205) -/

namespace Sys2Proof.Laws

open Sys2Proof.Machine

section Spent

variable {s : State} {g : Nat} {x : Slot} (hx : s.slot g = x) (hlive : x.live = true)

include hx hlive

/-- An admitted slice of no group that has spent its charge, and waits for nothing, stops as background work. -/
theorem chargeExhausted_stops (hadmitted : x.admitted = true) (hcharge : x.charge = 0) (htile : x.tile? = none) (hwait : x.wait = Wait.none)
    (hgroup : x.group = 0#64) : exec (.chargeExhausted g) s = .next (s.modSlot g fun y =>
      { y with admitted := false, charge := 0, chargeFrac := 0, dline := BitVec.allOnes 64, stopped := some none }) := by
  rw [exec_chargeExhausted, execChargeExhausted]
  refine runEvent_some ?_
  rw [State.chargeSpent, hx]
  refine (if_pos ⟨hlive, hadmitted, hcharge, by rw [htile]; rfl⟩).trans ?_
  rw [hgroup, hwait]
  rfl

variable (hlimited : x.limited = true) (hissues : x.issues = 0#32) (hwait : x.wait = Wait.none) (hstopped : x.stopped = none)

include hlimited hissues hwait hstopped

theorem issuesSpent_true : s.issuesSpent g = true := by
  rw [State.issuesSpent, hx, hlive, hlimited, hissues, hwait, hstopped]
  rfl

omit hx hlive hlimited hissues hwait hstopped in
/-- The handler of BUDGET lies below 2^52 wherever TBASE points (R203). -/
theorem enter_budget_pc (x : Slot) : (x.enter .budget 0#64 0).pc = x.tbase.toNat * 2 ^ 13 + 64 * 0x18 := by
  have hbase := x.tbase.isLt
  exact withCursor_cursor (show x.tbase.toNat * 2 ^ 13 + 64 * 0x18 < 2 ^ 52 by omega)

omit hx hlive hlimited hissues hwait hstopped in
theorem enter_budget_tpc (x : Slot) : (x.enter .budget 0#64 0).tpc.toNat = x.pc :=
  (BitVec.toNat_ofNat ..).trans (Nat.mod_eq_of_lt (BitVec.isLt _))

theorem budgetExhausted_enters (hgrace : x.grace = false) (hhandles : x.handles .budget = true) :
    exec (.budgetExhausted g) s = .next (s.modSlot g fun y => y.enter .budget 0#64 0) := by
  have hspent := issuesSpent_true hx hlive hlimited hissues hwait hstopped
  rw [exec_budgetExhausted, execBudgetExhausted]
  refine runEvent_some ?_
  rw [State.budgetSpent, hspent, hx, hgrace, State.takeTrap, hx, hhandles]
  rfl

omit hx hlive hlimited hissues hwait hstopped in
theorem quitPair_slot (s : State) (c g : Nat) : (s.quitPair c).slot g = s.slot g := by
  unfold State.quitPair
  split
  · rfl
  · split
    · rfl
    · rfl

/-- Past its grace, slot 0 takes an unhandled trap: it halts with the cause in its registers. -/
theorem graceExhausted_halts (hgrace : x.grace = true) (htile : x.tile? = none) (hflight : s.flight = []) (hphase : x.phase = Phase.task)
    (hzero : slotNo g = 0) : ∃ t, exec (.graceExhausted g) s = .next t ∧ (t.slot g).halted = true ∧ (t.slot g).tcause = 0x18#8 := by
  have hspent := issuesSpent_true hx hlive hlimited hissues hwait hstopped
  have hends : s.endsIn g = none := if_pos (Or.inl hzero)
  have hdrain : s.drain g = some s := drain_quiet hflight (by rw [hx]; exact hphase) (by rw [hends]; exact fun _ h => by cases h)
    (by rw [hends]; exact fun _ h => by cases h)
  rw [exec_graceExhausted, execGraceExhausted]
  refine ⟨_, runEvent_some (by rw [State.graceSpent, hspent, hx, hgrace, State.unhandled, hx, htile, hdrain]; exact congrArg some (if_pos hzero)), ?_⟩
  rw [State.stopZero, quitPair_slot, State.slot_modSlot_self]
  rw [State.slot_congr (State.errorRecord_slots ..), State.slot_setSlot_self]
  exact ⟨rfl, rfl⟩

end Spent

/-! ## The family's statement -/

section Windows

variable {s : State} {cl t : Nat} {addr : U64} {a : Access}

theorem windowResults_stay (hcl : cl < 80) (ht : t < 16) (hbooted : s.fw.booted = true) :
    exec (.enqueueWindowSpawnResult cl t) s = .next s ∧ exec (.enqueueWindowSubmitResult cl t) s = .next s := by
  rw [exec_enqueueWindowSpawnResult, exec_enqueueWindowSubmitResult]
  exact ⟨runEvent_some (if_pos ⟨hcl, ht, hbooted⟩), runEvent_some (if_pos ⟨hcl, ht, hbooted⟩)⟩

section Spawn

variable (hslot : a.slot = 0x1FFF) (hkind : a.kind = .window cl t 0 addr) (hflight : s.flight = [a]) (hmay : s.mayPerform a = true)

include hslot hkind hflight hmay

theorem exec_windowSpawn {u : State} (h : (landedAll s).windowSpawn cl t addr = some u) :
    exec (.enqueueWindowSpawn cl t addr) s = .next (u.sendReturn a false) := by
  rw [exec_enqueueWindowSpawn, execEnqueueWindowSpawn]
  exact runEvent_some ((hostWindow_performs (submit := false) hslot hkind hflight hmay).trans (congrArg (Option.map _) h))

theorem windowSpawn_faults (h : addr.toNat % 64 ≠ 0 ∨ 2 ^ 52 ≤ addr.toNat) : ∃ u, exec (.enqueueWindowSpawn cl t addr) s = .next u ∧
    u.flight = [] ∧ (u.cluster cl).winSpawn.get 0#64 t = BitVec.allOnes 64 ∧ (u.cluster cl).ready = (s.cluster cl).ready := by
  refine ⟨_, exec_windowSpawn hslot hkind hflight hmay (windowSpawn_fault h), ?_, ?_, ?_⟩
  · exact (sendReturn_flight ..).trans (schedError_flight ..)
  · rw [sendReturn_cluster, State.windowFault, winSpawn_setWindow, u64_neg_one]
  · rw [sendReturn_cluster, State.windowFault, ready_setWindow, schedError_cluster]
    rfl

variable (halign : addr.toNat % 64 = 0) (hrange : addr.toNat < 2 ^ 52) (habsent : s.absent = []) {key : Nat} {keep : Bool} {log : Option Nat}
  (hplace : s.hwPlace (s.partOf (8 * cl)) t addr.toNat [1, 2, 4] = some (key, keep, log))

include halign hrange habsent hplace

theorem exec_windowSpawn_steps {r : Rec} (hr : r = s.readRec key keep addr.toNat t (s.partOf (8 * cl))) {v : Int} {u : State}
    (h : (landedAll s).spawnStep r (8 * cl) = some (v, u)) :
    exec (.enqueueWindowSpawn cl t addr) s = .next ((u.setWindow cl t false v).sendReturn a false) := by
  subst hr
  exact exec_windowSpawn hslot hkind hflight hmay ((windowSpawn_steps (s := landedAll s) halign hrange habsent
    ((hwPlace_landedAll ..).trans hplace)).trans (congrArg (Option.map _) h))

theorem windowSpawn_illFormed {r : Rec} (hr : r = s.readRec key keep addr.toNat t (s.partOf (8 * cl))) (hok : s.recOk r [0, 1] = false) :
    ∃ u, exec (.enqueueWindowSpawn cl t addr) s = .next u ∧ (u.cluster cl).winSpawn.get 0#64 t = BitVec.allOnes 64 := by
  refine ⟨_, exec_windowSpawn_steps hslot hkind hflight hmay halign hrange habsent hplace hr
    (spawnStep_illFormed (8 * cl) ((recOk_landedAll ..).trans hok)), ?_⟩
  rw [sendReturn_cluster, winSpawn_setWindow, u64_neg_one]

/-- A record of no group that may start is queued in its window's cluster. -/
theorem windowSpawn_queues {r : Rec} (hr : r = s.readRec key keep addr.toNat t (s.partOf (8 * cl))) (hok : s.recOk r [0, 1] = true)
    (hjoin : r.join = 0#32) (hhen : r.hen = false) (hgroup : r.group = 0#64) (hhold : (s.cluster cl).hold = none)
    (hready : (s.cluster cl).ready = []) (hring : (s.cluster cl).ring = []) : ∃ u, exec (.enqueueWindowSpawn cl t addr) s = .next u ∧
      (u.cluster cl).winSpawn.get 0#64 t = 1#64 ∧ (u.cluster cl).ready.map (fun e => e.job) = [r] := by
  have hcl : clusterOf (8 * cl) = cl := Nat.mul_div_cancel_left cl (by decide)
  have hlive : (landedAll s).liveNow r.part r.tenant r.group 1 (8 * cl) = landedAll s := by
    rw [State.liveNow, hgroup]
    rfl
  rw [← hcl] at hhold hready hring
  have hqueue := (congrArg (State.enqueue · (clusterOf (8 * cl)) { job := r }) hlive).trans (enqueue_empty _ hhold hring hready)
  refine ⟨_, exec_windowSpawn_steps hslot hkind hflight hmay halign hrange habsent hplace hr
    (spawnStep_enqueues (8 * cl) ((recOk_landedAll ..).trans hok) hjoin hhen hqueue), ?_, ?_⟩
  · rw [sendReturn_cluster, winSpawn_setWindow]
    rfl
  · rw [sendReturn_cluster, ready_setWindow, hcl, State.cluster_modCluster, if_pos rfl]
    rfl

end Spawn

section Submit

variable (hslot : a.slot = 0x1FFF) (hkind : a.kind = .window cl t 8 addr) (hflight : s.flight = [a]) (hmay : s.mayPerform a = true)
  (hhold : (s.cluster cl).hold = none)

include hslot hkind hflight hmay hhold

omit hhold in
theorem exec_windowSubmit {u : State} (h : (landedAll s).windowSubmit cl t addr = some u) :
    exec (.enqueueWindowSubmit cl t addr) s = .next (u.sendReturn a false) := by
  rw [exec_enqueueWindowSubmit, execEnqueueWindowSubmit]
  exact runEvent_some ((hostWindow_performs (submit := true) hslot hkind hflight hmay).trans (congrArg (Option.map _) h))

theorem windowSubmit_faults (h : addr.toNat % 64 ≠ 0 ∨ 2 ^ 52 ≤ addr.toNat) : ∃ u, exec (.enqueueWindowSubmit cl t addr) s = .next u ∧
    u.flight = [] ∧ (u.cluster cl).winSubmit.get 0#64 t = BitVec.allOnes 64 ∧ u.slices = s.slices := by
  refine ⟨_, exec_windowSubmit hslot hkind hflight hmay (windowSubmit_fault hhold h), ?_, ?_, ?_⟩
  · exact (sendReturn_flight ..).trans (schedError_flight ..)
  · rw [sendReturn_cluster, State.windowFault, winSubmit_setWindow, u64_neg_one]
  · exact (sendReturn_slices ..).trans ((kept_slices s.slices).schedError rfl)

variable (halign : addr.toNat % 64 = 0) (hrange : addr.toNat < 2 ^ 52) (habsent : s.absent = []) {key : Nat} {keep : Bool} {log : Option Nat}
  (hplace : s.hwPlace (s.partOf (8 * cl)) t addr.toNat [1] = some (key, keep, log)) {recs : List Rec}
  (hrecs : (landedAll s).hwRecs (s.partOf (8 * cl)) t addr.toNat (descriptorCount 1 64 (s.bytes key 64)) 1 = some (recs, landedAll s))

include halign hrange habsent hplace hrecs

/-- A window's SUBMIT leaves the value of its step in the result word, and the slices that the step leaves. -/
theorem windowSubmit_leaves {v : Int} {u : State}
    (h : (landedAll s).submitStep (s.partOf (8 * cl)) t cl noSlot (s.bytes key 64) recs = (v, u)) :
    ∃ w, exec (.enqueueWindowSubmit cl t addr) s = .next w ∧ (w.cluster cl).winSubmit.get 0#64 t = u64 v ∧ w.slices = u.slices := by
  have hstep := windowSubmit_steps (s := landedAll s) halign hrange habsent hhold ((hwPlace_landedAll ..).trans hplace) hrecs
  rw [show (landedAll s).submitStep ((landedAll s).partOf (8 * cl)) t cl noSlot ((landedAll s).bytes key 64) recs = (v, u) from h] at hstep
  refine ⟨_, exec_windowSubmit hslot hkind hflight hmay hstep, ?_, ?_⟩
  · rw [sendReturn_cluster, winSubmit_setWindow]
  · exact sendReturn_slices ..

end Submit

end Windows

/-- Settles O50: admission by the room of the reserved slots in their order, SUBMIT by the cases of its step, an enqueue window by the
one access that performs its operation, and a spent charge or budget by the event that ends it. -/
theorem windowsAndBudgets : Obligations.WindowsAndBudgets := by
  refine ⟨?_, ?_, fun s g x hx hlive => ⟨fun hadmitted hcharge htile hwait hgroup => ?_, fun hlimited hissues hwait hstopped => ⟨?_, ?_⟩⟩⟩
  · intro s w z p ten cls cl g gslot new more pre post hdr recs on run held dem room
    refine ⟨mem_reservedIn s p cls cl g, pairwise_reservedIn s p cls cl, bindSlices_first post, bindSlices_none, admitGroups_full more,
      admitGroups_bound more, rfl, submitStep_illFormed, fun hok hadmit => ?_, fun seq hok hadmit hnew => submitStep_admitted hok hadmit hnew⟩
    exact ⟨_, submitStep_rejected hok hadmit, journalNew_slices .., rfl⟩
  · intro s cl t key keep log addr a b hcl ht hbooted haslot hakind harst hbslot hbkind hbrst p spawns submits
    obtain ⟨hspawn, hsubmit⟩ := windowResults_stay (s := s) hcl ht hbooted
    refine ⟨hspawn, hsubmit, fun hbad => ⟨fun ⟨hflight, hmay⟩ => windowSpawn_faults haslot hakind hflight hmay hbad,
      fun ⟨hflight, hmay⟩ hhold => windowSubmit_faults hbslot hbkind hflight hmay hhold hbad⟩, ?_, ?_⟩
    · rintro ⟨hflight, hmay⟩ halign hrange habsent hplace r hr
      exact ⟨windowSpawn_illFormed haslot hakind hflight hmay halign hrange habsent hplace hr,
        windowSpawn_queues haslot hakind hflight hmay halign hrange habsent hplace hr⟩
    · rintro ⟨hflight, hmay⟩ halign hrange habsent hhold hplace hdr recs v hrecs
      obtain rfl : v = landedAll s := hwRecs_state (s := landedAll s) habsent hrecs
      have hleaves {v : Int} {u : State} := windowSubmit_leaves hbslot hbkind hflight hmay hhold halign hrange habsent hplace hrecs (v := v) (u := u)
      refine ⟨fun hok => ?_, fun hok => ?_⟩
      · obtain ⟨u, hu, hvalue, hslices⟩ := hleaves (submitStep_illFormed ((submitOk_landedAll ..).trans hok))
        exact ⟨u, hu, hvalue.trans u64_neg_one, hslices⟩
      intro slices
      have hok' := (submitOk_landedAll s hdr recs).trans hok
      refine ⟨fun hadmit => ?_, fun w seq z hadmit hnew => ?_⟩
      · obtain ⟨u, hu, hvalue, hslices⟩ := hleaves (submitStep_rejected hok' hadmit)
        exact ⟨u, hu, hvalue, hslices.trans (journalNew_slices ..)⟩
      · obtain ⟨u, hu, hvalue, hslices⟩ := hleaves (submitStep_admitted hok' hadmit hnew)
        have hz : z.slices = w.slices := by
          have hkept := journalNew_slices (s := w) (p := p) (ten := t) (gslot := noSlot) (leAt hdr 8 8) (firstDeadline recs) 0 0
          rwa [hnew] at hkept
        exact ⟨u, hu, hvalue.trans (u64_natCast seq), hslices.trans ((groupNow_slices _).trans hz)⟩
  · exact chargeExhausted_stops hx hlive hadmitted hcharge htile hwait hgroup
  · intro hgrace hhandles
    refine ⟨_, _, budgetExhausted_enters hx hlive hlimited hissues hwait hstopped hgrace hhandles, rfl, ?_⟩
    rw [State.slot_modSlot_self, hx]
    exact ⟨rfl, rfl, by rw [Slot.enter]; exact Bool.or_true _, enter_budget_pc x, enter_budget_tpc x⟩
  · intro hgrace htile hflight _ hphase hzero
    exact graceExhausted_halts hx hlive hlimited hissues hwait hstopped hgrace htile hflight hphase hzero

end Sys2Proof.Laws

/-! # Starts by the die scheduler (R171, R177, R178, R181, R188) -/

namespace Sys2Proof.Laws

open Sys2Proof.Machine

/-! ## What a start changes -/

theorem slot_startRec (s : State) (g h : Nat) (r : Rec) (item count : Nat) (f : Slot → Slot) : (s.startRec g r item count f).slot h =
    if h = g then f ((s.slot g).start s.fresh r (s.groupCap r.part r.group) item count) else s.slot h :=
  State.slot_setSlot { s with fresh := s.fresh + 1 } g h (f ((s.slot g).start s.fresh r (s.groupCap r.part r.group) item count))

theorem core_startRec (s : State) (g c : Nat) (r : Rec) (item count : Nat) (f : Slot → Slot) : (s.startRec g r item count f).core c =
    if c = coreOf g then { s.core (coreOf g) with rcache := [] } else s.core c := State.core_modCore ..

theorem localQ_startRec (s : State) (g c : Nat) (r : Rec) (item count : Nat) (f : Slot → Slot) :
    ((s.startRec g r item count f).core c).localQ = (s.core c).localQ := by
  rw [core_startRec]
  split
  next h => rw [h]
  next => rfl

theorem cluster_startRec (s : State) (g cl : Nat) (r : Rec) (item count : Nat) (f : Slot → Slot) :
    (s.startRec g r item count f).cluster cl = s.cluster cl := rfl

theorem start_item (x : Slot) (tid : Nat) (r : Rec) (k : Cap) (item count : Nat) :
    (x.start tid r k item count).named 0 = BitVec.ofNat 64 item := by
  rw [Slot.named, Slot.start]
  exact (SMap.get_set_ne (by decide)).trans (SMap.get_set_self ..)

theorem start_count (x : Slot) (tid : Nat) (r : Rec) (k : Cap) (item count : Nat) :
    (x.start tid r k item count).named 1 = BitVec.ofNat 64 count := SMap.get_set_self ..

theorem start_frame (x : Slot) (tid : Nat) (r : Rec) (k : Cap) (item count : Nat) : (x.start tid r k item count).kreg 0 = r.frame := by
  rw [Slot.kreg, Slot.start]
  exact (SMap.get_set_ne (by decide)).trans (SMap.get_set_self ..)

/-! ## A cluster's list of one entry -/

theorem cluster_congr {s t : State} (h : t.clusters = s.clusters) (cl : Nat) : t.cluster cl = s.cluster cl := by
  rw [State.cluster, h, State.cluster]

section OneEntry

variable {s : State} {cl : Nat} {e : Entry} (hready : (s.cluster cl).ready = [e]) (hring : (s.cluster cl).ring = [])

include hready hring

theorem list_one : (s.cluster cl).list = [e] := by
  rw [Cluster.list, hready, hring]
  rfl

theorem setList_one {f : List Entry → List Entry} (hf : (f [e]).length ≤ 256) :
    s.setList cl f = s.modCluster cl fun c => { c with ready := f [e] } := by
  rw [State.setList, list_one hready hring, setAll_short hring hf]

/-- The entry of a list alone leaves it. -/
theorem setList_gone : (s.setList cl fun l => l.filter fun x => x.seq ≠ e.seq) = s.modCluster cl fun c => { c with ready := [] } := by
  have hgone : ([e].filter fun x => x.seq ≠ e.seq) = [] := by simp
  rw [setList_one hready hring (by rw [hgone]; exact Nat.zero_le _), hgone]

/-- The entry of a list alone is changed. -/
theorem setList_changed (f : Entry → Entry) : (s.setList cl fun l => l.map fun x => if x.seq = e.seq then f x else x) =
    s.modCluster cl fun c => { c with ready := [f e] } := by
  have hmap : ([e].map fun x => if x.seq = e.seq then f x else x) = [f e] := by simp
  rw [setList_one hready hring (by rw [hmap]; exact Nat.le_add_left 1 255), hmap]

end OneEntry

/-! ## Dispatch (R177, R178) -/

/-- A step of dispatch tried for each of `xs` in turn. -/
def tryEach (f : Nat → State → Option State) (xs : List Nat) (r : State × Bool) : State × Bool := xs.foldl (fun r x => r.1.orSame (f x) r.2) r

theorem dispatch_eq (s : State) (cl : Nat) : s.dispatch cl =
    (let r := tryEach (fun c s => s.localStart c) (coresOf cl) (tryEach (fun g s => s.startSlice g)
      ((coresOf cl).flatMap fun c => (List.range 12).map fun i => 12 * c + i) (tryEach (fun c s => s.resumeZero (12 * c)) (coresOf cl) (s, false)))
    let t := tryEach (fun c s => s.slotTen cl c) (coresOf cl) (r.1.orSame (fun s => s.listStart cl (s.cluster cl).list) r.2)
    if t.2 then some t.1 else none) := rfl

theorem tryEach_none {f : Nat → State → Option State} {s : State} (done : Bool) {xs : List Nat} (h : ∀ x ∈ xs, f x s = none) :
    tryEach f xs (s, done) = (s, done) := by
  induction xs with
  | nil => rfl
  | cons x xs ih =>
    obtain ⟨hx, hxs⟩ := List.forall_mem_cons.1 h
    rw [tryEach, List.foldl_cons, State.orSame, hx]
    exact ih hxs

theorem resumeZero_none {s : State} (h : s.savedZero = []) (g : Nat) : s.resumeZero g = none := by
  rw [State.resumeZero, h]
  rfl

theorem startSlice_none {s : State} (h : s.slices = []) (g : Nat) : s.startSlice g = none := by
  have hnext : s.nextSlice g = none := by
    rw [State.nextSlice, State.slicesOn, h]
    rfl
  rw [State.startSlice, hnext]
  exact ite_self _

theorem localStart_none {s : State} {c : Nat} (h : (s.core c).localQ = []) : s.localStart c = none := by
  rw [State.localStart, h]
  rfl

theorem clusterOf_coresOf {cl c : Nat} (h : c ∈ coresOf cl) : clusterOf c = cl := by
  rw [coresOf, List.mem_map] at h
  obtain ⟨i, hi, rfl⟩ := h
  rw [clusterOf]
  have := List.mem_range.1 hi
  omega

theorem slotTen_none {s : State} {cl c : Nat} (hlist : (s.cluster cl).list = []) (hlocal : ∀ k ∈ coresOf cl, (s.core k).localQ = []) :
    s.slotTen cl c = none := by
  have hlocals : s.locals cl = [] := List.flatMap_eq_nil_iff.2 hlocal
  rw [State.slotTen, hlist, hlocals]
  rfl

/-- Where a helper is offered to an entry, its core has an idle one to offer. -/
theorem openCores_offers {s : State} {cl : Nat} {e : Entry} {g : Nat} (h : g ∈ s.offered cl e) :
    (s.openCores cl).any (s.offers e.job.deadline) = true := by
  rw [State.offered, List.mem_flatMap] at h
  obtain ⟨c, hc, hg⟩ := h
  refine List.any_eq_true.2 ⟨c, hc, ?_⟩
  rw [State.freeHelpers] at hg
  split at hg
  · cases hg
  next hheld =>
    rw [State.helpers, List.mem_filter, Bool.and_eq_true, State.idleFor] at hg
    obtain ⟨hslots, hidle, hten⟩ := hg
    simp only [Bool.and_eq_true] at hidle
    obtain ⟨⟨⟨hidle, _⟩, _⟩, _⟩ := hidle
    rw [State.offers, Bool.eq_false_of_not_eq_true hheld]
    exact List.any_eq_true.2 ⟨g, hslots, by rw [hidle, hten]; rfl⟩

section Dispatch

variable {s : State} {cl g : Nat} {rest : List Nat} {e : Entry} (hready : (s.cluster cl).ready = [e]) (hring : (s.cluster cl).ring = [])
  (hgang : e.gang = []) (hunread : e.unread = none) (hkind : e.job.kind ≠ 1) (hcont : e.cont = none) (hlaunch : e.launch = none)
  (hexact : e.exactOf = none) (hlast : e.count ≤ e.next + 1) (hoffered : s.offered cl e = g :: rest)

include hready hring hgang hunread hkind hcont hlaunch hexact hlast hoffered

/-- The last item of a plain entry starts on the first helper offered to it, and the entry leaves its list. -/
theorem listStart_starts : s.listStart cl (s.cluster cl).list =
    some ((s.startRec g e.job e.next e.gcount id).modCluster cl fun c => { c with ready := [] }) := by
  have hoffers : (s.openCores cl).any (s.offers e.job.deadline) = true :=
    openCores_offers (e := e) (g := g) (by rw [hoffered]; exact List.mem_cons_self)
  have hstart : s.startOn e (s.offered cl e) = some (s.startRec g e.job e.next e.gcount id) := by
    rw [State.startOn, hoffered, List.head?_cons, Option.bind_some, State.startEntry, hcont, hlaunch, hexact]
  have hafter : afterStart e.seq [e] = [] := by
    have hnone : e.after = none := if_pos (Or.inr hlast)
    simp [afterStart, hnone]
  rw [list_one hready hring, State.listStart, hgang, hunread, if_neg hkind, hoffers, hstart]
  have hset := setList_one (s := s.startRec g e.job e.next e.gcount id) (cl := cl) hready hring (f := afterStart e.seq)
    (by rw [hafter]; exact Nat.zero_le _)
  rw [hafter] at hset
  exact congrArg some hset

theorem dispatch_starts (hslices : s.slices = []) (hzero : s.savedZero = []) (hlocal : ∀ c, clusterOf c = cl → (s.core c).localQ = []) :
    exec (.dispatch cl) s = .next ((s.startRec g e.job e.next e.gcount id).modCluster cl fun c => { c with ready := [] }) := by
  have hstart := listStart_starts hready hring hgang hunread hkind hcont hlaunch hexact hlast hoffered
  have hlist : (((s.startRec g e.job e.next e.gcount id).modCluster cl fun c => { c with ready := [] }).cluster cl).list = [] := by
    rw [State.cluster_modCluster, if_pos rfl]
    exact hring
  have hzeros := tryEach_none (f := fun c s => s.resumeZero (12 * c)) (xs := coresOf cl) false fun c _ => resumeZero_none hzero (12 * c)
  have hsliced := tryEach_none (f := fun g s => s.startSlice g) (xs := (coresOf cl).flatMap fun c => (List.range 12).map fun i => 12 * c + i) false
    fun g _ => startSlice_none hslices g
  have hlocals := tryEach_none (f := fun c s => s.localStart c) (xs := coresOf cl) false
    fun c hc => localStart_none (hlocal c (clusterOf_coresOf hc))
  have htens := tryEach_none (f := fun c s => s.slotTen cl c) (xs := coresOf cl) true fun c _ => slotTen_none hlist fun k hk =>
    (localQ_startRec ..).trans (hlocal k (clusterOf_coresOf hk))
  rw [exec_dispatch, execDispatch]
  refine runEvent_some ?_
  rw [dispatch_eq, hzeros, hsliced, hlocals]
  dsimp only
  rw [State.orSame, hstart]
  dsimp only
  rw [htens]
  rfl

end Dispatch

/-! ## Gangs (R188) -/

/-- A member of a gang as its helper starts it: the record's start, with the pipes to the member before it and to the one after it. -/
def memberSlot (e : Entry) (j : Nat) (x : Slot) : Slot :=
  { x with k := (x.k.set Cap.null 2 (if j = 0 then Cap.null else e.pipes.getD (j - 1) Cap.null)).set Cap.null 3 (e.pipes.getD j Cap.null) }

theorem memberSlot_kreg_two (e : Entry) (j : Nat) (x : Slot) :
    (memberSlot e j x).kreg 2 = if j = 0 then Cap.null else e.pipes.getD (j - 1) Cap.null := by
  rw [Slot.kreg, memberSlot]
  exact (SMap.get_set_ne (by decide)).trans (SMap.get_set_self ..)

theorem memberSlot_kreg_three (e : Entry) (j : Nat) (x : Slot) : (memberSlot e j x).kreg 3 = e.pipes.getD j Cap.null := by
  rw [Slot.kreg, memberSlot]
  exact SMap.get_set_self ..

theorem startMembers_cons (s : State) (e : Entry) (g j : Nat) (gs : List Nat) : s.startMembers e (g :: gs) j =
    (s.startRec g (e.gang.getD j {}) j e.gang.length (memberSlot e j)).startMembers e gs (j + 1) := rfl

theorem startMembers_cluster (s : State) (e : Entry) (gs : List Nat) (j cl : Nat) : (s.startMembers e gs j).cluster cl = s.cluster cl := by
  induction gs generalizing s j with
  | nil => rfl
  | cons g gs ih => rw [startMembers_cons, ih, cluster_startRec]

theorem startMembers_other (s : State) (e : Entry) {gs : List Nat} (j : Nat) {h : Nat} (hh : h ∉ gs) :
    (s.startMembers e gs j).slot h = s.slot h := by
  induction gs generalizing s j with
  | nil => rfl
  | cons g gs ih =>
    obtain ⟨hg, hgs⟩ := not_or.1 (List.mem_cons.not.1 hh)
    rw [startMembers_cons, ih _ _ hgs, slot_startRec, if_neg hg]

/-- Each of different helpers starts its own member. -/
theorem startMembers_slot (s : State) (e : Entry) {gs : List Nat} (j : Nat) (hgs : gs.Nodup) {i : Nat} (hi : i < gs.length) :
    ∃ y tid k, (s.startMembers e gs j).slot (gs.getD i 0) =
      memberSlot e (j + i) (Slot.start y tid (e.gang.getD (j + i) {}) k (j + i) e.gang.length) := by
  induction gs generalizing s j i with
  | nil => exact absurd hi (Nat.not_lt_zero i)
  | cons g gs ih =>
    obtain ⟨hg, hnodup⟩ := List.nodup_cons.1 hgs
    rw [startMembers_cons]
    cases i with
    | zero =>
      refine ⟨s.slot g, s.fresh, s.groupCap (e.gang.getD j {}).part (e.gang.getD j {}).group, ?_⟩
      rw [List.getD_cons_zero, startMembers_other _ _ _ hg, slot_startRec, if_pos rfl]
      rfl
    | succ i =>
      rw [List.getD_cons_succ, show j + (i + 1) = j + 1 + i by omega]
      exact ih _ (j + 1) hnodup (Nat.lt_of_succ_lt_succ hi)

theorem coreOf_helpers {s : State} {p t c g : Nat} {d : U64} (h : g ∈ s.helpers p t d c) : coreOf g = c := by
  rw [State.helpers, List.mem_filter, slotsOf, List.mem_map] at h
  obtain ⟨⟨i, hi, rfl⟩, _⟩ := h
  have := List.mem_range.1 hi
  rw [coreOf]
  omega

theorem coreOf_gangHelpers {s : State} {p t n c g : Nat} {d : U64} (h : (s.gangHelpers p t d n c).head? = some g) : coreOf g = c := by
  have hmem : g ∈ s.gangHelpers p t d n c := List.mem_of_head? h
  rw [State.gangHelpers] at hmem
  split at hmem
  · cases hmem
  · exact coreOf_helpers hmem

section Gang

variable {s : State} {cl : Nat} {e : Entry} {w gs : List Nat} (hlen : w.length = gs.length)
  (hheads : ∀ j < gs.length, (s.gangHelpers e.job.part e.job.tenant e.job.deadline e.seq (w.getD j 0)).head? = some (gs.getD j 0))

include hlen hheads

theorem map_heads : (w.map fun k => (s.gangHelpers e.job.part e.job.tenant e.job.deadline e.seq k).head?) = gs.map some := by
  refine List.ext_getElem (by simp [hlen]) fun j hj _ => ?_
  rw [List.length_map] at hj
  have hj' : j < gs.length := hlen ▸ hj
  have hhead := hheads j hj'
  rw [List.getD_eq_getElem _ _ hj, List.getD_eq_getElem _ _ hj'] at hhead
  rw [List.getElem_map, List.getElem_map, hhead]

theorem heads_nodup (hw : w.Nodup) : gs.Nodup := by
  have hcores : gs.map coreOf = w := by
    refine List.ext_getElem (by simp [hlen]) fun j hj hj' => ?_
    rw [List.length_map] at hj
    have hhead := hheads j hj
    rw [List.getD_eq_getElem _ _ hj, List.getD_eq_getElem _ _ hj'] at hhead
    rw [List.getElem_map, coreOf_gangHelpers hhead]
  exact List.Nodup.of_map coreOf (hcores ▸ hw)

/-- A gang of a cluster that holds a helper for every member starts whole. -/
theorem gangStart_starts (hready : (s.cluster cl).ready = [e]) (hring : (s.cluster cl).ring = []) (hgang : e.gang ≠ [])
    (hwindow : (s.cluster cl).windows.get [] e.seq = w) (hgs : gs.length = e.gang.length) :
    exec (.gangStart cl) s = .next (((s.startMembers e gs 0).modCluster cl fun c => { c with ready := [] }).modCluster cl
      fun c => { c with windows := c.windows.erase e.seq }) := by
  have hfound : (w.filterMap fun k => (s.gangHelpers e.job.part e.job.tenant e.job.deadline e.seq k).head?) = gs := by
    have hmap := congrArg (List.filterMap id) (map_heads hlen hheads)
    rwa [List.filterMap_map, List.filterMap_map, Function.id_comp, Function.id_comp, List.filterMap_some] at hmap
  have hstarted : (s.startMembers e gs 0).cluster cl = s.cluster cl := startMembers_cluster ..
  rw [exec_gangStart, execGangStart]
  refine runEvent_some ?_
  rw [State.gangStart, list_one hready hring, List.findSome?_cons, State.startGang, hwindow]
  dsimp only
  rw [hfound, if_pos ⟨hgang, hgs⟩, setList_gone (hstarted ▸ hready) (hstarted ▸ hring)]

end Gang

/-! ## Walking records (R181) -/

theorem not_at_hint {c hx hy r : Nat} (h : r < chebyshev c hx hy) : ¬ (coreX c = hx ∧ coreY c = hy) := by
  rintro ⟨rfl, rfl⟩
  simp [chebyshev] at h

section Walk

variable {s : State} {w : Walk} (hwalks : s.walks = [w])

include hwalks

theorem walkHop_moves (hfar : w.job.radius < chebyshev w.core w.job.hx w.job.hy) :
    exec (.recordWalkHop 0) s = .next { s with walks := [{
      job := { w.job with deadline := if dieOf (hop w.core w.job.hx w.job.hy) = dieOf w.core then w.job.deadline
        else s.rebaseDeadline (dieOf w.core) (dieOf (hop w.core w.job.hx w.job.hy)) w.job.deadline }
      core := hop w.core w.job.hx w.job.hy }] } := by
  rw [exec_recordWalkHop, execRecordWalkHop]
  refine runEvent_some ?_
  rw [State.walkHop, hwalks]
  dsimp only [List.getElem?_cons_zero]
  rw [if_neg (Nat.not_le_of_lt hfar)]
  dsimp only
  rw [if_neg (not_at_hint hfar)]
  rfl

theorem walkHop_taken {g : Nat} {rest : List Nat} (hnear : chebyshev w.core w.job.hx w.job.hy ≤ w.job.radius)
    (hfree : s.freeHelpers w.job.part w.job.tenant w.job.deadline w.core = g :: rest) :
    exec (.recordWalkHop 0) s = .next (State.startRec { s with walks := [] } g w.job 0 1 id) := by
  rw [exec_recordWalkHop, execRecordWalkHop]
  refine runEvent_some ?_
  rw [State.walkHop, hwalks]
  dsimp only [List.getElem?_cons_zero]
  rw [if_pos hnear, hfree]
  rfl

end Walk

end Sys2Proof.Laws

/-! # Releases and steps on completion records (R174, R175, R183, R198) -/

namespace Sys2Proof.Laws

open Sys2Proof.Machine

/-! ## Bytes written -/

theorem byte_writesAt_ne (s : State) {key k : Nat} (bs : List Byte) (h : k < key ∨ key + bs.length ≤ k) :
    (s.writeAll (writesAt key bs)).byte k = s.byte k := by
  refine State.byte_writeAll_ne _ _ _ fun w hw => ?_
  obtain ⟨i, hi, rfl⟩ := List.mem_map.1 hw
  have := List.mem_range.1 hi
  show key + i ≠ k
  omega

theorem byte_writesAt (s : State) (key : Nat) {bs : List Byte} {i : Nat} (hi : i < bs.length) :
    (s.writeAll (writesAt key bs)).byte (key + i) = bs.getD i 0#8 := by
  have hkeys : ((writesAt key bs).map Prod.fst).Nodup := by
    rw [writesAt, List.map_map]
    exact List.nodup_range.map fun i j h => Nat.add_left_cancel h
  exact State.byte_writeAll_mem (w := (key + i, bs.getD i 0#8)) hkeys (List.mem_map.2 ⟨i, List.mem_range.2 hi, rfl⟩) s

theorem bytes_writesAt (s : State) (key : Nat) (bs : List Byte) : (s.writeAll (writesAt key bs)).bytes key bs.length = bs := by
  change ((List.range bs.length).map fun i => (s.writeAll (writesAt key bs)).byte (key + i)) = bs
  refine List.ext_getElem (by rw [List.length_map, List.length_range]) fun i hi hi' => ?_
  rw [List.getElem_map, List.getElem_range, byte_writesAt s key hi', List.getD_eq_getElem _ _ hi']

section Writes

variable {s : State} {p ten key n v : Nat} {log : Option Nat} {ws : List (Nat × Byte)} {tag : Option Nat} (habsent : s.absent = [])

include habsent

/-- Where logging is off, an address to log changes nothing (R409). -/
theorem performWrites_unlogged (hlog : log = none ∨ s.partFld p (tenantReg ten 2) 0 1 = 0) :
    s.performWrites p ten log ws tag = s.performWrites p ten none ws tag := by
  rcases hlog with rfl | hoff
  · rfl
  · have hquiet (a : Nat) : s.logWrite p ten a = s := if_pos hoff
    cases log with
    | none => rfl
    | some a =>
      cases ws with
      | nil => rfl
      | cons w ws => simp only [State.performWrites, State.fillFor_nil habsent, hquiet]

theorem num_performWrites (hv : v < 256 ^ n) : (s.performWrites p ten none (writesAt key (toBytes n v)) none).num key n = v := by
  have hbytes : (s.performWrites p ten none (writesAt key (toBytes n v)) none).bytes key n = (s.writeAll (writesAt key (toBytes n v))).bytes key n :=
    List.map_congr_left fun i _ => State.byte_performWrites habsent (key + i)
  have hwritten := bytes_writesAt s key (toBytes n v)
  rw [length_toBytes] at hwritten
  rw [State.num, hbytes, hwritten, ofBytes_toBytes, Nat.mod_eq_of_lt hv]

end Writes

/-! ## A release (R183) -/

theorem num_lt (s : State) (key n : Nat) : s.num key n < 256 ^ n := by
  have h := ofBytes_lt (s.bytes key n)
  rwa [State.bytes, List.length_map, List.length_range] at h

/-- A release of a record whose join counter stays above 0 leaves it lower by 1, and nothing else in memory. -/
theorem recordRelease_decrements {s : State} {x : Release} {key : Nat} {keep : Bool} {log : Option Nat} (habsent : s.absent = [])
    (hx : s.releases = [x]) (halign : x.addr % 64 = 0) (hplace : s.hwPlace x.part x.tenant x.addr [1, 2, 4] = some (key, keep, log))
    (hlog : log = none ∨ s.partFld x.part (tenantReg x.tenant 2) 0 1 = 0) (hstep : s.stepReady x.core x.part x.tenant x.addr 64 = true)
    (hjoin : 2 ≤ s.num (key + 32) 4) : ∃ t, exec (.recordRelease 0) s = .next t ∧ t.releases = [] ∧
      t.num (key + 32) 4 = s.num (key + 32) 4 - 1 ∧ ∀ k, (k < key + 32 ∨ key + 36 ≤ k) → t.byte k = s.byte k := by
  obtain ⟨u, hu⟩ : ∃ u : State, u = { s with releases := [] } := ⟨_, rfl⟩
  have hua : u.absent = [] := by rw [hu]; exact habsent
  have hnum (k n : Nat) : u.num k n = s.num k n := by rw [hu]; rfl
  have hbyte (k : Nat) : u.byte k = s.byte k := by rw [hu]; rfl
  have hplaced : u.hwPlace x.part x.tenant x.addr [1, 2, 4] = some (key, keep, log) := by
    rw [hu]
    exact (hwPlace_onTheWay s s.flight [] s.groupSteps ..).trans hplace
  have hstepped : u.releaseStep x = some (u.performWrites x.part x.tenant none
      (writesAt (key + 32) (toBytes 4 (s.num (key + 32) 4 - 1))) none) := by
    rw [State.releaseStep]
    dsimp only
    rw [if_neg (not_not.2 halign), hplaced]
    dsimp only
    rw [State.fillFor_nil hua, hnum, if_neg (by omega), if_neg (by omega), performWrites_unlogged hua (by rw [hu]; exact hlog)]
  refine ⟨u.performWrites x.part x.tenant none (writesAt (key + 32) (toBytes 4 (s.num (key + 32) 4 - 1))) none, ?_, ?_, ?_, fun k hk => ?_⟩
  · rw [exec_recordRelease, execRecordRelease]
    refine runEvent_some ?_
    rw [State.releaseAt', hx]
    dsimp only [List.getElem?_cons_zero, Option.bind_some]
    rw [if_pos hstep, List.eraseIdx_cons_zero, ← hu, hstepped]
  · obtain ⟨m, g, q, hw⟩ := State.sameButMemory_performWrites (s := u) (p := x.part) (ten := x.tenant)
      (ws := writesAt (key + 32) (toBytes 4 (s.num (key + 32) 4 - 1))) (tag := none) hua
    rw [hw, hu]
  · exact num_performWrites hua (lt_of_le_of_lt (Nat.sub_le ..) (num_lt ..))
  · rw [State.byte_performWrites hua, byte_writesAt_ne, hbyte]
    rw [length_toBytes]
    omega

/-! ## Bits of a flag word (R174) -/

theorem add_two_pow_eq_or {n b : Nat} (h : n / 2 ^ b % 2 = 0) : n + 2 ^ b = n ||| 2 ^ b := by
  have hlow : n % 2 ^ b < 2 ^ b := Nat.mod_lt _ (Nat.two_pow_pos b)
  have hhigh : 2 ^ b + n % 2 ^ b < 2 ^ (b + 1) := by omega
  have hn : n = 2 ^ (b + 1) * (n / 2 ^ b / 2) + n % 2 ^ b := by
    have hdiv := Nat.div_add_mod n (2 ^ b)
    have heven : n / 2 ^ b = 2 * (n / 2 ^ b / 2) := by omega
    rw [Nat.pow_succ, Nat.mul_assoc, ← heven, hdiv]
  have hor : n = 2 ^ (b + 1) * (n / 2 ^ b / 2) ||| n % 2 ^ b := hn.trans (Nat.two_pow_add_eq_or_of_lt (by omega) _)
  have hbit : 2 ^ b + n % 2 ^ b = 2 ^ b ||| n % 2 ^ b := by
    have hone := Nat.two_pow_add_eq_or_of_lt hlow 1
    rwa [Nat.mul_one] at hone
  calc n + 2 ^ b = 2 ^ (b + 1) * (n / 2 ^ b / 2) + (2 ^ b + n % 2 ^ b) := by omega
    _ = 2 ^ (b + 1) * (n / 2 ^ b / 2) ||| (n % 2 ^ b ||| 2 ^ b) := by rw [Nat.two_pow_add_eq_or_of_lt hhigh, hbit, Nat.lor_comm (2 ^ b)]
    _ = n ||| 2 ^ b := by rw [← Nat.lor_assoc, ← hor]

/-- A flag set where it was not, as the model sets it. -/
def setFlag (fl bit : Nat) (on : Bool) : Nat := if on ∧ fl / 2 ^ bit % 2 = 0 then fl + 2 ^ bit else fl

theorem setFlag_eq (fl bit : Nat) (on : Bool) : setFlag fl bit on = fl ||| (if on then 2 ^ bit else 0) := by
  rw [setFlag]
  cases on with
  | false => simp
  | true =>
    by_cases h : fl / 2 ^ bit % 2 = 0
    · simpa [h] using add_two_pow_eq_or h
    · have hset : fl.testBit bit = true := by
        rw [Nat.testBit_eq_decide_div_mod_eq]
        exact decide_eq_true (by omega)
      have hor : fl = fl ||| 2 ^ bit := Nat.eq_of_testBit_eq fun i => by
        rw [Nat.testBit_or, Nat.testBit_two_pow]
        by_cases hi : bit = i
        · subst hi
          rw [hset, Bool.true_or]
        · rw [decide_eq_false hi, Bool.or_false]
      simpa [h] using hor

/-! ## A step on a completion record (R174, R175) -/

section Group

variable (s : State) (x : GroupStep) (key : Nat) (log : Option Nat)

/-- LIVE after a step. -/
def groupLive : Nat := (((s.num key 8 : Int) + x.delta) % 2 ^ 64).toNat

/-- Whether the step brings LIVE to 0. -/
def groupDone : Bool := decide (groupLive s x key = 0 ∧ x.delta ≠ 0)

/-- The flags that a step raises. -/
def raisedFlags : Nat := s.num (key + 8) 4 ||| (if x.failed then 2 else 0) ||| (if x.submitted then 4 else 0) ||| (if x.late then 8 else 0)

/-- The flags after a step: COMPLETE as LIVE stands. -/
def groupFlags : Nat :=
  raisedFlags s x key / 2 * 2 + (if groupLive s x key = 0 ∧ x.delta ≠ 0 then 1 else if 0 < x.delta then 0 else raisedFlags s x key % 2)

/-- A field of the completion record written. -/
def groupPut (u : State) (off n v : Nat) : State :=
  u.performWrites x.ref.part x.ref.tenant log (writesAt (key + off) (toBytes n v)) none

/-- The completion record with its counts and flags written. -/
def groupWritten : State :=
  groupPut x key log (groupPut x key log (groupPut x key log s 0 8 (groupLive s x key)) 8 4 (groupFlags s x key)) 12 4
    (min (s.num (key + 12) 4 + if x.trapped then 1 else 0) (2 ^ 32 - 1))

/-- The journal's message of a group that is complete (R413). -/
def groupJournal (u : State) : State :=
  if u.num (key + 24) 8 = 0 then u
  else u.sendJournal x.ref.part (u.num (key + 24) 8) (if u.num (key + 8) 4 / 2 % 2 = 1 ∨ u.num (key + 8) 4 / 8 % 2 = 1 then 3 else 2) x.core

/-- How a group's future is left, its flags being `fl`: FUTURE cleared, and FAILED set where the future could not be resolved (R175). -/
def futureLeft (fl fut : Nat) (r : Resolved × State) : State :=
  groupPut x key log (match r.1 with
    | .done => r.2
    | .already => groupPut x key log r.2 8 4 (fl ||| 2)
    | .bad | .poisoned => (groupPut x key log r.2 8 4 (fl ||| 2)).schedError (dieOf x.core) 4 (BitVec.ofNat 64 fut) x.ref.tenant x.ref.part) 16 8 0

/-- The future at `fk` resolved with a group's flags (R198). -/
def futureWritten (flog : Option Nat) (fk fl : Nat) (w : State) : State :=
  w.performWrites x.ref.part x.ref.tenant flog (writesAt fk (resolvedFuture (w.num fk 8) fl)) none

/-- The record released that waits for a group's future, whose first word is `lo`. -/
def freed (lo : Nat) (u : State) : State :=
  { u with releases := u.releases ++ [{
      addr := lo / 16 * 16, tenant := x.ref.tenant, part := x.ref.part, core := x.core, home := some (homeOf key) }] }

/-- A complete group's future resolved with its flags. -/
def groupResolved (u : State) (fl : Nat) : State :=
  if u.num (key + 16) 8 = 0 then u
  else futureLeft x key log fl (u.num (key + 16) 8)
    (u.resolveFuture x.ref.part x.ref.tenant (u.num (key + 16) 8) fl x.core (some (homeOf key)))

variable {s x key log}

/-- The flags as the model sets them, one bit after the other. -/
theorem flagSteps_eq {fl : Nat}
    (hfl : fl = setFlag (setFlag (setFlag (s.num (key + 8) 4) 1 x.failed) 2 x.submitted) 3 x.late) :
    setFlag (if x.delta > 0 ∧ fl % 2 = 1 then fl - 1 else fl) 0 (groupDone s x key) = groupFlags s x key := by
  have hraised : fl = raisedFlags s x key := by
    rw [hfl, setFlag_eq, setFlag_eq, setFlag_eq]
    rfl
  rw [hraised, groupFlags, setFlag, Nat.pow_zero, Nat.div_one]
  generalize raisedFlags s x key = y
  by_cases hdone : groupLive s x key = 0 ∧ x.delta ≠ 0
  · rw [groupDone, decide_eq_true hdone, if_pos hdone]
    simp only [true_and]
    split_ifs <;> omega
  · rw [groupDone, decide_eq_false hdone, if_neg hdone]
    simp only [Bool.false_eq_true, false_and, if_false]
    split_ifs <;> omega

theorem applyGroup_eq {keep : Bool} (habsent : s.absent = []) (hseq : x.seq = none)
    (hplace : s.hwPlace x.ref.part x.ref.tenant (s.groupAddr x.ref) [1, 2] = some (key, keep, log)) : s.applyGroup x =
      if groupDone s x key then groupJournal x key (groupResolved x key log (groupWritten s x key log) (groupFlags s x key))
      else groupWritten s x key log := by
  unfold State.applyGroup
  extract_lets +onlyGivenNames r die bad
  split
  next h => rw [hplace] at h; cases h
  next key' keep' log' h =>
    rw [hplace] at h
    cases h
    extract_lets +onlyGivenNames s₁ live fl0 set1 fl1 fl2 complete fl3 traps put s₂ s₃
    have hs₁ : s₁ = s := State.fillFor_nil habsent key 32
    have hlive : live = groupLive s x key := by
      unfold live
      rw [hs₁]
      rfl
    have hcomplete : complete = groupDone s x key := by
      unfold complete
      rw [hlive, Bool.and_comm, ← Bool.decide_and]
      rfl
    have hflags : fl3 = groupFlags s x key := by
      unfold fl3 fl2 fl1 fl0
      rw [hcomplete, hs₁]
      exact flagSteps_eq rfl
    have hs₃ : s₃ = groupWritten s x key log := by
      unfold s₃ s₂ traps
      rw [hseq, hlive, hflags, hs₁]
      rfl
    by_cases hdone : complete = true
    · refine (if_pos hdone).trans ?_
      rw [← hcomplete, hdone, if_pos rfl]
      extract_lets +onlyGivenNames fut s₄ seq
      have hs₄ : s₄ = groupResolved x key log (groupWritten s x key log) (groupFlags s x key) := by
        have hfut : fut = (groupWritten s x key log).num (key + 16) 8 := congrArg (State.num · (key + 16) 8) hs₃
        have hfailed : set1 fl3 1 true = groupFlags s x key ||| 2 := hflags ▸ setFlag_eq fl3 1 true
        rw [groupResolved, ← hfut]
        by_cases hzero : fut = 0
        · refine (if_pos hzero).trans ?_
          rw [if_pos hzero]
          exact hs₃
        · refine (if_neg hzero).trans ?_
          rw [if_neg hzero]
          split
          next res v he =>
            have hresolved : (groupWritten s x key log).resolveFuture x.ref.part x.ref.tenant fut (groupFlags s x key) x.core
                (some (homeOf key)) = (res, v) := by
              rw [← hs₃, ← hflags]
              exact he
            rw [hresolved, hfailed]
            cases res with
            | done => rfl
            | already => rfl
            | bad => rfl
            | poisoned => rfl
      exact congrArg (groupJournal x key) hs₄
    · refine (if_neg hdone).trans ?_
      rw [← hcomplete, if_neg hdone]
      exact hs₃

/-! ### The future of a complete group (R175, R198) -/

section Future

variable (x key log) {w : State} {fl fut : Nat} (hfut : w.num (key + 16) 8 = fut)

include hfut

theorem groupResolved_none (h : fut = 0) : groupResolved x key log w fl = w := if_pos (hfut.trans h)

variable {x key log}

theorem groupResolved_by {r : Resolved × State} (h : fut ≠ 0)
    (hr : w.resolveFuture x.ref.part x.ref.tenant fut fl x.core (some (homeOf key)) = r) :
    groupResolved x key log w fl = futureLeft x key log fl fut r := by
  rw [groupResolved, hfut, if_neg h, hr]

theorem groupResolved_misaligned (h : fut % 16 ≠ 0) : groupResolved x key log w fl = groupPut x key log
    ((groupPut x key log w 8 4 (fl ||| 2)).schedError (dieOf x.core) 4 (BitVec.ofNat 64 fut) x.ref.tenant x.ref.part) 16 8 0 :=
  groupResolved_by hfut (r := (.bad, w)) (by omega) (if_pos h)

variable {fk : Nat} {fkeep : Bool} {flog : Option Nat} (habsent : w.absent = []) (hzero : fut ≠ 0) (halign : fut % 16 = 0)
  (hplace : w.hwPlace x.ref.part x.ref.tenant fut [1, 2, 4] = some (fk, fkeep, flog)) (hfine : w.num fk 8 / 4 % 4 = 0 ∧ w.num fk 8 < 2 ^ 52)

include habsent halign hplace hfine

omit hfut in
/-- A well-formed future by its STATE. -/
theorem resolveFuture_fine (h3 : w.num fk 8 % 4 ≠ 3) : w.resolveFuture x.ref.part x.ref.tenant fut fl x.core (some (homeOf key)) =
    if w.num fk 8 % 4 = 2 then (.already, w)
    else (.done, if w.num fk 8 % 4 = 1 then freed x key (w.num fk 8) (futureWritten x flog fk fl w) else futureWritten x flog fk fl w) := by
  have hok : futureOk (w.num fk 8) = true := (futureOk_iff _).2 ⟨h3, hfine⟩
  rw [State.resolveFuture, if_neg (not_not.2 halign), hplace]
  dsimp only
  rw [State.fillFor_nil habsent, hok, if_neg (by decide)]
  refine ite_congr rfl (fun _ => rfl) fun _ => ?_
  by_cases h1 : w.num fk 8 % 4 = 1
  · rw [if_pos h1, if_pos h1]
    rfl
  · rw [if_neg h1, if_neg h1]
    rfl

include hzero

theorem groupResolved_empty (h : w.num fk 8 % 4 = 0) :
    groupResolved x key log w fl = groupPut x key log (futureWritten x flog fk fl w) 16 8 0 := by
  rw [groupResolved_by hfut hzero (resolveFuture_fine habsent halign hplace hfine (by omega)), if_neg (by omega), if_neg (by omega)]
  rfl

theorem groupResolved_waiting (h : w.num fk 8 % 4 = 1) :
    groupResolved x key log w fl = groupPut x key log (freed x key (w.num fk 8) (futureWritten x flog fk fl w)) 16 8 0 := by
  rw [groupResolved_by hfut hzero (resolveFuture_fine habsent halign hplace hfine (by omega)), if_neg (by omega), if_pos h]
  rfl

theorem groupResolved_already (h : w.num fk 8 % 4 = 2) :
    groupResolved x key log w fl = groupPut x key log (groupPut x key log w 8 4 (fl ||| 2)) 16 8 0 := by
  rw [groupResolved_by hfut hzero (resolveFuture_fine habsent halign hplace hfine (by omega)), if_pos h]
  rfl

end Future

end Group

/-! ### The step at its home -/

section Count

/-- `s` with its one step on a completion record under way. -/
def counting (s : State) : State := { s with groupSteps := [] }

variable {s : State} {x : GroupStep} {key : Nat} {keep : Bool} {log : Option Nat} (habsent : s.absent = []) (hx : s.groupSteps = [x])
  (hseq : x.seq = none) (hstep : s.stepReady x.core x.ref.part x.ref.tenant (s.groupAddr x.ref) 32 = true)
  (hplace : s.hwPlace x.ref.part x.ref.tenant (s.groupAddr x.ref) [1, 2] = some (key, keep, log))

include habsent hx hseq hstep hplace

theorem groupCountStep_applies : exec (.groupCountStep 0) s = .next
    (if groupDone (counting s) x key then
      groupJournal x key (groupResolved x key log (groupWritten (counting s) x key log) (groupFlags (counting s) x key))
    else groupWritten (counting s) x key log) := by
  have hplaced := (hwPlace_onTheWay s s.flight s.releases [] ..).trans hplace
  rw [exec_groupCountStep, execGroupCountStep]
  refine runEvent_some ?_
  rw [State.groupStepAt, hx]
  dsimp only [List.getElem?_cons_zero, Option.bind_some]
  rw [if_pos hstep, List.eraseIdx_cons_zero]
  exact congrArg some (applyGroup_eq (s := counting s) habsent hseq hplaced)

theorem groupCountStep_counts (h : ¬ (groupLive (counting s) x key = 0 ∧ x.delta ≠ 0)) :
    exec (.groupCountStep 0) s = .next (groupWritten (counting s) x key log) := by
  have hdone : groupDone (counting s) x key = false := decide_eq_false h
  rw [groupCountStep_applies habsent hx hseq hstep hplace, hdone, if_neg Bool.false_ne_true]

theorem groupCountStep_completes (h : groupLive (counting s) x key = 0 ∧ x.delta ≠ 0) {u : State}
    (hu : groupResolved x key log (groupWritten (counting s) x key log) (groupFlags (counting s) x key) = u) :
    exec (.groupCountStep 0) s = .next (groupJournal x key u) := by
  have hdone : groupDone (counting s) x key = true := decide_eq_true h
  rw [groupCountStep_applies habsent hx hseq hstep hplace, hdone, if_pos rfl, hu]

omit hx hseq hstep hplace in
theorem groupWritten_absent : (groupWritten (counting s) x key log).absent = [] :=
  kept_absent.performWrites (kept_absent.performWrites (kept_absent.performWrites habsent))

end Count

end Sys2Proof.Laws

/-! # Counts of LAUNCHI and the hold register (R180, R186, R187), and the die scheduler -/

namespace Sys2Proof.Laws

open Sys2Proof.Machine

/-! ## Counts of LAUNCHI (R186, R187) -/

section Counts

variable {s : State} {cl n : Nat} {e : Entry} {u : Nat × Nat × Nat} (hready : (s.cluster cl).ready = [e]) (hring : (s.cluster cl).ring = [])
  (hunread : e.unread = some u) (hcount : s.countReady (e.reader u.2.2) u.1 u.2.1 = true)

include hready hring hunread hcount

/-- A value that the count word holds before its read is taken for it. -/
theorem choose_count {t : State} (hseen : e.seen = none) (hload : s.hwLoad (e.reader u.2.2) u.1 u.2.1 8 = some (n, t))
    (hclusters : t.clusters = s.clusters) : s.choose (.count cl e.seq) = some (t.modCluster cl fun c => { c with ready := [{ e with seen := some n }] }) := by
  have hcluster : t.cluster cl = s.cluster cl := cluster_congr hclusters cl
  have hfind : (s.cluster cl).list.find? (fun x => x.seq == e.seq && x.seen.isNone) = some e := by
    rw [list_one hready hring]
    exact List.find?_cons_of_pos (by rw [beq_self_eq_true, hseen]; rfl)
  have hset : (t.setList cl fun l => l.map fun x => if x.seq = e.seq then { x with seen := some n } else x) =
      t.modCluster cl fun c => { c with ready := [{ e with seen := some n }] } :=
    setList_changed (hcluster ▸ hready) (hcluster ▸ hring) _
  rw [State.choose, State.countSeen, hfind, Option.bind_some]
  refine (congrArg (Option.bind · _) hunread).trans ?_
  rw [Option.bind_some, if_pos hcount, hload, Option.map_some, hset]

variable (hgroup : e.job.group = 0#64) {t : State} (hclusters : t.clusters = s.clusters)
  (hvalue : (e.seen.map fun v => (v, s)).or (s.hwLoad (e.reader u.2.2) u.1 u.2.1 8) = some (n, t))

include hgroup hclusters hvalue

/-- A count of 0, or one past 32 bits, ends the entry. -/
theorem countRead_gone (hn : n = 0 ∨ 2 ^ 32 ≤ n) : exec (.launchiCountRead cl) s = .next (t.modCluster cl fun c => { c with ready := [] }) := by
  have hcluster : t.cluster cl = s.cluster cl := cluster_congr hclusters cl
  have hnone : groupRef e.job.part e.job.tenant e.job.group = none := if_pos hgroup
  have hgone := setList_gone (hcluster ▸ hready) (hcluster ▸ hring)
  rw [exec_launchiCountRead, execLaunchiCountRead]
  refine runEvent_some ?_
  rw [State.countRead, hready]
  dsimp only
  refine (congrArg (Option.bind · _) hunread).trans ?_
  rw [Option.bind_some, hnone, hcount, hvalue]
  refine (if_neg Bool.false_ne_true).trans ?_
  dsimp only
  by_cases hzero : n = 0
  · rw [if_pos hzero, hgone]
  · rw [if_neg hzero, if_pos (by omega), hgone]

/-- Any other count is the entry's. -/
theorem countRead_counts (hpos : 1 ≤ n) (hlt : n < 2 ^ 32) : exec (.launchiCountRead cl) s = .next (t.modCluster cl fun c =>
    { c with ready := [{ e with count := n, gcount := n, unread := none }] }) := by
  have hcluster : t.cluster cl = s.cluster cl := cluster_congr hclusters cl
  have hnone : groupRef e.job.part e.job.tenant e.job.group = none := if_pos hgroup
  have hset : (t.setList cl fun l => l.map fun x => if x.seq = e.seq then { x with count := n, gcount := n, unread := none } else x) =
      t.modCluster cl fun c => { c with ready := [{ e with count := n, gcount := n, unread := none }] } :=
    setList_changed (hcluster ▸ hready) (hcluster ▸ hring) _
  rw [exec_launchiCountRead, execLaunchiCountRead]
  refine runEvent_some ?_
  rw [State.countRead, hready]
  dsimp only
  refine (congrArg (Option.bind · _) hunread).trans ?_
  rw [Option.bind_some, hnone, hcount, hvalue]
  refine (if_neg Bool.false_ne_true).trans ?_
  dsimp only
  rw [if_neg (by omega), if_neg (by omega), ite_self, hset]

end Counts

/-! ## The hold register (R180) -/

section Hold

variable {s : State} {cl : Nat} {h : Entry × Nat} (hhold : (s.cluster cl).hold = some h)

include hhold

theorem holdClear_queues {all : List Entry} (hall : all = insertEntry h.1 ((s.cluster cl).ready ++ (s.cluster cl).ring))
    (hroom : s.ringRoom h.1.job.part cl (entriesOf h.1.job.part (all.drop 256)).length = true) : ∃ t, exec (.holdClear cl) s = .next t ∧
      (t.cluster cl).hold = none ∧ (t.cluster cl).ready = all.take 256 ∧ (t.cluster cl).ring = all.drop 256 := by
  have hclear : s.holdClear cl = some ((s.setAll cl all).modCluster cl fun c => { c with hold := none }) := by
    subst hall
    rw [State.holdClear, hhold, Option.bind_some]
    exact if_pos hroom
  have hset : ∃ c, (s.setAll cl all).cluster cl = splitQueue c all := by
    rw [State.setAll, State.cluster_modCluster, if_pos rfl]
    exact ⟨_, rfl⟩
  obtain ⟨c, hc⟩ := hset
  refine ⟨_, runEvent_some hclear, ?_⟩
  rw [State.cluster_modCluster, if_pos rfl, hc]
  exact ⟨rfl, rfl, rfl⟩

omit hhold in
theorem journalPut_partReg {s : State} (habsent : s.absent = []) (p group deadline kind tenant gslot state : Nat) {n : Nat} (hn : n ≠ 0x814) :
    (s.journalPut p group deadline kind tenant gslot state).partReg p n = s.partReg p n := by
  rw [State.journalPut, State.partReg_setPartReg, if_neg fun hpn => hn hpn.2]
  obtain ⟨m, g, q, hw⟩ := State.sameButMemory_performWrites (s := s) (p := p) (ten := tenant) (tag := none)
    (ws := writesAt (s.journalKey p (s.partReg p 0x814).toNat) (toBytes 8 (s.partReg p 0x814).toNat ++ toBytes 8 group ++ toBytes 8 deadline ++
      toBytes 4 (gslot % 2 ^ 13 + tenant % 16 * 2 ^ 13 + kind % 16 * 2 ^ 20) ++ toBytes 4 state)) habsent
  rw [hw]
  rfl

/-- A hold of 2^24 cycles halts its partition. -/
theorem holdTimeout_halts (habsent : s.absent = []) (hdue : h.2 + 2 ^ 24 ≤ s.now) (hruns : s.partFld h.1.job.part 0x800 3 1 = 0) :
    ∃ t, exec (.holdTimeout cl) s = .next t ∧ t.partFld h.1.job.part 0x800 3 1 = 1 := by
  have hdue' : s.holdDue cl = true := by
    rw [State.holdDue, hhold, Option.any_some, decide_eq_true hdue, hruns]
    rfl
  refine ⟨_, runEvent_some (by rw [State.holdTimeout, hhold, Option.bind_some]; exact if_pos hdue'), ?_⟩
  rw [State.partFld,
    journalPut_partReg (s := s.setPartReg h.1.job.part 0x800 (s.partReg h.1.job.part 0x800 ||| 8#64)) habsent _ _ _ _ _ _ _ (by decide),
    State.partReg_setPartReg, if_pos ⟨rfl, rfl⟩]
  have hbit : ((s.partReg h.1.job.part 0x800 ||| 8#64).toNat).testBit 3 = true := by
    rw [BitVec.toNat_or, Nat.testBit_or, Bool.or_eq_true]
    exact Or.inr (by decide)
  rw [Nat.testBit_eq_decide_div_mod_eq, decide_eq_true_eq] at hbit
  exact hbit

end Hold

/-- Settles O49: dispatch, gangs and walks by the start that each makes, and every step on what is on its way by what it writes. -/
theorem scheduler : Obligations.Scheduler := by
  refine ⟨fun s cl g rest e => ⟨?_, ?_, fun w hwalks hfar => walkHop_moves hwalks hfar, fun w hwalks hnear hfree =>
    walkHop_taken hwalks hnear hfree⟩, fun s cl key keep log e habsent => ⟨fun x hx halign hplace hlog hstep hjoin =>
    recordRelease_decrements habsent hx halign hplace hlog hstep hjoin, ?_, ?_, ?_⟩⟩
  · intro hslices hzero hlocal hready hring hgang hunread hkind hcont hlaunch hexact hlast hoffered
    have hslot : ((s.startRec g e.job e.next e.gcount id).modCluster cl fun c => { c with ready := [] }).slot g =
        (s.slot g).start s.fresh e.job (s.groupCap e.job.part e.job.group) e.next e.gcount :=
      (slot_startRec s g g e.job e.next e.gcount id).trans (if_pos rfl)
    refine ⟨_, _, dispatch_starts hready hring hgang hunread hkind hcont hlaunch hexact hlast hoffered hslices hzero hlocal, ?_, ?_, rfl, hslot,
      rfl, rfl, start_frame .., start_item .., start_count .., rfl, rfl, rfl, rfl, rfl, rfl, ?_,
      fun h hh => (slot_startRec s g h e.job e.next e.gcount id).trans (if_neg hh)⟩
    · rw [State.cluster_modCluster, if_pos rfl]
    · rw [State.cluster_modCluster, if_pos rfl]
      exact hring
    · exact congrArg Core.rcache ((core_startRec s g (coreOf g) e.job e.next e.gcount id).trans (if_pos rfl))
  · intro hready hring hgang w hwindow hwlen hw gs hgs hheads
    have hlen : w.length = gs.length := hwlen.trans hgs.symm
    refine ⟨_, gangStart_starts hlen hheads hready hring hgang hwindow hgs, ?_, ?_, fun j hj => ?_⟩
    · rw [State.cluster_modCluster, if_pos rfl, State.cluster_modCluster, if_pos rfl]
    · rw [State.cluster_modCluster, if_pos rfl, State.cluster_modCluster, if_pos rfl, startMembers_cluster]
    · obtain ⟨y, tid, k, hslot⟩ := startMembers_slot s e 0 (heads_nodup hlen hheads hw) hj
      rw [Nat.zero_add] at hslot
      exact ⟨_, hslot, rfl, rfl,
        start_item y tid (e.gang.getD j {}) k .., start_count y tid (e.gang.getD j {}) k .., memberSlot_kreg_two .., memberSlot_kreg_three ..⟩
  · intro x hx hseq p ten hstep hplace live done y fl put w fut ends failed
    have hcompletes {u : State} (h : done) := groupCountStep_completes habsent hx hseq hstep hplace h (u := u)
    refine ⟨groupCountStep_counts habsent hx hseq hstep hplace, fun hdone hfut => hcompletes hdone (groupResolved_none x key log rfl hfut),
      fun hdone hfut => hcompletes hdone (groupResolved_misaligned rfl hfut), fun hdone hzero halign fk fkeep flog hfplace => ?_⟩
    intro lo u fine
    have hwabsent : w.absent = [] := groupWritten_absent habsent
    exact ⟨fun hfine h => hcompletes hdone (groupResolved_empty rfl hwabsent hzero halign hfplace hfine h),
      fun hfine h => hcompletes hdone (groupResolved_waiting rfl hwabsent hzero halign hfplace hfine h),
      fun hfine h => hcompletes hdone (groupResolved_already rfl hwabsent hzero halign hfplace hfine h)⟩
  · intro u n t hready hring hunread hgroup w hcount loads
    refine ⟨?_, fun hsource => ?_⟩
    · rintro ⟨hseen, hload, hclusters⟩
      refine ⟨_, choose_count hready hring hunread hcount hseen hload hclusters, ?_⟩
      rw [State.cluster_modCluster, if_pos rfl]
    · obtain ⟨v, hclusters, hvalue⟩ : ∃ v : State, v.clusters = s.clusters ∧
          (e.seen.map fun v => (v, s)).or (s.hwLoad (e.reader u.2.2) u.1 u.2.1 8) = some (n, v) := by
        rcases hsource with hseen | ⟨hseen, hload, hclusters⟩
        · exact ⟨s, rfl, by rw [hseen]; rfl⟩
        · exact ⟨t, hclusters, by rw [hseen]; exact hload⟩
      refine ⟨fun hn => ⟨_, countRead_gone hready hring hunread hcount hgroup hclusters hvalue hn, ?_⟩,
        fun hpos hlt => ⟨_, countRead_counts hready hring hunread hcount hgroup hclusters hvalue hpos hlt, ?_⟩⟩
      · rw [State.cluster_modCluster, if_pos rfl]
      · rw [State.cluster_modCluster, if_pos rfl]
  · intro h hhold all
    exact ⟨holdClear_queues hhold rfl, holdTimeout_halts hhold habsent⟩

end Sys2Proof.Laws
